-- ==== Sys2Proof/Word.lean ====
section
/-! DEFINITION. Word.lean: the word types of the model and the type of a sparse store. -/
namespace Sys2Proof

/-- Eight bits. -/
abbrev Byte := BitVec 8
/-- Sixteen bits. -/
abbrev Half := BitVec 16
/-- A 32-bit word: the access size of BAR0 (R16) and the lane of a vector register (R139). -/
abbrev Word := BitVec 32
/-- A 64-bit word. -/
abbrev DWord := BitVec 64

/-- A sparse store: keys strictly rising, and no entry equal to what an unlisted key reads as.
The operations that keep this form are in Machine/Bits.lean. -/
abbrev SMap (β : Type) := List (Nat × β)

end Sys2Proof
end

