-- ==== Sys2Proof/Syntax.lean ====
section
/-! DEFINITION. Syntax.lean: the commands of the module, one constructor of Instr for each row of
spec/opcode_table.json, and the types of their operands. -/
namespace Sys2Proof

/-- A compute die CD0 to CD23 (R2). -/
abbrev Die := Fin 24
/-- A memory stack ST0 to ST23. -/
abbrev Stack := Fin 24

/-- The four streams of a compute die (R171). -/
inductive Sid where
  | f | b | u | t
  deriving DecidableEq, Repr

/-- The masters that access registers (R15, R16). -/
inductive Master where
  | host | bmc | msd | plinth
  deriving DecidableEq, Repr

/-- One wavelength channel: port 0 A+ to 5 C-, fibre and wavelength within the port (R366). -/
structure Chan where
  port : Fin 6
  fibre : Fin 16
  lambda : Fin 16
  deriving DecidableEq, Repr

/-- One micro-ring: the transmit or the receive ring of a channel (R376). -/
structure Ring where
  ch : Chan
  rx : Bool
  deriving DecidableEq, Repr

/-- A sync object of this module (R207). -/
inductive ObjRef where
  | glob (i : Fin 32768)
  | loc (d : Die) (i : Fin 4096)
  deriving DecidableEq, Repr

/-- Who waits on a sync object: a stream or a host-wait slot (R219). -/
inductive Who where
  | stream (d : Die) (c : Sid)
  | slot (n : Fin 1024)
  deriving DecidableEq, Repr

/-- The operands of a vector instruction: the die and context that run it, and the bits of its word below
the opcode, 55:0 of R148. -/
structure VIns where
  die : Die
  ctx : Sid
  w : BitVec 56
  deriving DecidableEq, Repr

/-- A fabric packet as its header spells it (R299), with its payload. -/
structure Packet where
  type : BitVec 6
  scope : BitVec 2
  cls : BitVec 2
  relief : Bool
  epoch : BitVec 2
  retx : Bool
  new : Bool
  dateline : Bool
  fmt : BitVec 8
  dstMod : Half
  srcMod : Half
  dstEp : BitVec 5
  srcEp : BitVec 5
  hops : BitVec 6
  jobId : Half
  fseq : Half
  age : Half
  addr : DWord
  txn : Half
  lsn : Half
  crc : Word
  payload : List Byte
  deriving DecidableEq, Repr

/-- A link control word (R313, R371): the channel it reports on, the cumulative acknowledgement, up to four
negative acknowledgements, and credit returns as (virtual channel, flits). -/
structure Lcw where
  about : Chan
  ack : Half
  naks : List Half
  credits : List (Fin 8 × Nat)
  deriving DecidableEq, Repr

/-- The management paths (R501). -/
inductive Path where
  | i3c | vdm | mbox
  deriving DecidableEq, Repr

/-! ### What the sections of a job image hold (R431), for the sections whose layout the spec does not give -/

/-- The fabric timers of R311 in microseconds, and the two retry limits. -/
structure FabTimers where
  pktLife : Nat
  rtoNear : Nat
  rtoFar : Nat
  e2eRetryMax : Nat
  linkRetryMax : Nat
  flowIdle : Nat
  deriving DecidableEq, Repr

/-- The settings of one die: register shares and priorities of the vector engine (R140, R170), the tile
queue (R100), the move engine weights (R188). Lists are in the order F, B, U, T. -/
structure DieCfg where
  vecShare : List Nat
  vecPrio : BitVec 8
  tqBase : Nat
  tqSize : Nat
  tqShare : List Nat
  moveWt : List Nat
  deriving DecidableEq, Repr

/-- PARAMS: the scalar settings. -/
structure JobParams where
  eInit : Int
  eMin : Int
  eMax : Int
  growth : Nat
  poisonLimit : Nat
  finishLimit : Nat
  q : Nat
  h : Nat
  srSeed : DWord
  lrPeak : Word
  lrStart : Word
  lrEnd : Word
  warm : Nat
  decay : Nat
  shape : Fin 4
  period : Nat
  restartMul : Word
  clipNorm : Word
  outerFmt : Nat
  outerLr : Word
  outerMu : Word
  outerNesterov : Bool
  lagged : Bool
  sites : Nat
  replicas : Nat
  siteRank : Nat
  timers : FabTimers
  dies : List DieCfg
  armPrio : BitVec 6
  armTimeout : Word
  initStep : DWord
  seqLen : Nat
  seqInFlight : Nat
  sPrev : Nat
  prevOwner : List Half
  redirectDepth : Nat
  guardSched : Nat
  normSched : Option Nat
  stashSched : Option Nat
  stepDone : Option (Fin 32768)
  inputConsumed : Option (Fin 32768)
  commitObjs : List (Nat × Fin 32768)
  rulePass1 : Option Nat
  rulePass2 : Option Nat
  deriving DecidableEq, Repr

/-- One round of a collective schedule (R352). `axis` is 0 A, 1 B, 2 C; `land` is where the receive of
the round lands in DST; `sources` is the order of the sources of a reducing round; `ep` is the
destination endpoint of its data. A send is read from SRC, or from DST where `sendDst` is set; `local` is the
local operand of R326. Offsets and lengths count elements of the format named. -/
structure Round where
  peer : Half
  axis : Fin 3
  pos : Nat
  sendOff : Nat
  sendLen : Nat
  landOff : Nat
  landLen : Nat
  redop : Nat
  wire : Nat
  result : Nat
  dep : Option Nat
  sources : List Half
  ep : BitVec 5
  sendDst : Bool
  srcFmt : Nat
  hasLocal : Bool
  localDst : Bool
  localOff : Nat
  localFmt : Nat
  deriving DecidableEq, Repr

/-- One layer of the stash plan (R57): its mode, and the pages of 2 MiB that its full-mode stash and its checkpoint take from
each stack. -/
structure StashLayer where
  layer : Nat
  full : Bool
  fullPages : List Nat
  ckptPages : List Nat
  deriving DecidableEq, Repr

/-- A remote window of R298. -/
structure RemoteWindow where
  base : Nat
  len : Nat
  read : Bool
  write : Bool
  reduce : Bool
  deriving DecidableEq, Repr

/-- A host window: module addresses of endpoint 26 that stand for host memory (R295, R482). -/
structure HostWindow where
  base : Nat
  len : Nat
  host : Nat
  read : Bool
  write : Bool
  deriving DecidableEq, Repr

/-- An entry of the flat table (R297). Its permission bits are those of a remote window (DESIGN CHOICE, log entry 80). -/
structure FlatEntry where
  index : Fin 256
  mod : Half
  ep : Nat
  jobId : Half
  read : Bool
  write : Bool
  reduce : Bool
  deriving DecidableEq, Repr

/-- The classes of R241. -/
inductive RegionClass where
  | persistent | fixed | pool
  deriving DecidableEq, Repr

/-- A region of the image with its class. -/
structure Region where
  base : Nat
  len : Nat
  cls : RegionClass
  deriving DecidableEq, Repr

/-- Where Maquette slots go (R71): a host buffer, or a flat entry of the fabric and an address there. -/
inductive ExportDest where
  | host (addr : Nat)
  | fabric (flat : Fin 256) (addr : Nat)
  deriving DecidableEq, Repr

/-- The sections of a job image for which the spec names contents and gives no layout. `cstores` are the replay stores of
the C ports, C+ first: base, and size in units of 64 MiB (R315). -/
structure JobSections where
  params : JobParams
  schedules : List (List Round)
  stash : List StashLayer
  layerCount : Nat
  nsCoef : List (Word × Word × Word)
  syncInit : List (Fin 32768 × Nat × Half)
  classes : SMap (BitVec 2)
  remote : List RemoteWindow
  hostWin : List HostWindow
  flat : List FlatEntry
  highest : List Nat
  regions : List Region
  cstores : List (Nat × Nat)
  journal : Nat
  stepRing : Nat
  stepRingLen : Nat
  ratioRing : Nat
  ratioDepth : Nat
  maqBase : Nat
  maqSlotBytes : Nat
  maqSlots : Nat
  maqDest : ExportDest
  verdictRing : Nat
  shadow : List (List Round)
  deriving DecidableEq, Repr

/-! ### What a platform image holds (R427) -/

/-- The contents of the eight sections of a platform image, and the header fields used later. `dvfsPoints` are clocks in
MHz; `thermOffsets` lower the thresholds 95.0, 93.0, 90.0 and 104.0 °C of R465 in steps of 0.1 °C. -/
structure PlatformImage where
  svn : Nat
  keySlot : Nat
  minLevel : Nat
  digest : BitVec 512
  stackPoints : List Nat
  dvfsPoints : List Nat
  dvfsVolts : List Nat
  fabClock : Nat
  telPeriod : Nat
  lanePeriod : Nat
  lanePlan : SMap (List Byte)
  excluded : List (Nat × BitVec 68)
  spread : Nat
  reserve : Nat
  mapOut : List (Stack × Fin 32)
  scrubPeriod : Nat
  rowCeLimit : Nat
  bandOffsets : List Nat
  memDigest : BitVec 512
  cMode : Fin 3
  bDims : Nat
  topoHash : BitVec 256
  positions : List (Nat × Nat × Nat × Nat)
  rackTable : SMap Word
  dimTable : SMap DWord
  timers : FabTimers
  flat : List FlatEntry
  thermOffsets : List Nat
  pMax : Nat
  floorPct : Nat
  window : Nat
  rampUp : Nat
  rampDown : Nat
  stagger : Nat
  jobKeys : BitVec 4
  peersB : List (Fin 256)
  peersC : List (Fin 256)
  resolveTimeout : Nat
  deriving DecidableEq, Repr

/-- What a memory stack reports of itself (R234): its height in dies, the density of a die in Gb, its channels, and the
pseudo-channels of each. -/
structure StackId where
  high : Nat
  gb : Nat
  channels : Nat
  pseudos : Nat
  deriving DecidableEq, Repr

/-- What training finds of a stack: what it reports of itself, and the operating point that it trains at, none where training
fails (R235). -/
structure StackTraining where
  id : StackId
  point : Option (Fin 3)
  deriving DecidableEq, Repr

/-- The commands of the module: one constructor for each row of spec/opcode_table.json. The order is the table's, but that the
commands of rings, lanes, shutters, light source, muxes and link timers come after the others, and those without operands last:
Lean compiles no more than 245 constructors with operands, and these are evaluated by the kernel alone. -/
inductive Instr where
  /-- REGISTER_WRITE (R11): A host or internal write to a register that has no row of its own, applied by the field's access type, including masked writes -/
  | registerWrite (m : Master) (off : BitVec 26) (v : Word)
  /-- RS_CLEAR_WRITE (R489): A write-back of a sequence to a sequence-cleared status register clears each event bit whose stamp is at or before it -/
  | rsClearWrite (m : Master) (off : BitVec 26) (v : Word)
  /-- REG64_LOW_READ (R16): A read of the low half of a 64-bit register latches the high half for the same master -/
  | reg64LowRead (m : Master) (off : BitVec 26)
  /-- REG64_LOW_WRITE (R16): A write of the low half of a 64-bit register is held until the same master writes the high half -/
  | reg64LowWrite (m : Master) (off : BitVec 26) (v : Word)
  /-- REG64_HIGH_WRITE (R16): A write of the high half of a 64-bit register applies both halves together, using the current low half if none is held -/
  | reg64HighWrite (m : Master) (off : BitVec 26) (v : Word)
  /-- BAR0_RESERVED_ACCESS (R15): An access to a reserved, unimplemented or unopened BAR0 offset, or of a wrong size, raises a bus error or Completer Abort -/
  | bar0ReservedAccess (m : Master) (off : BitVec 26) (size : Nat) (write : Bool)
  /-- MOD_ELOG_POP (R490): A read of MOD_ELOG_POP pops the oldest entry of the Plinth error log -/
  | modElogPop (m : Master)
  /-- SEC_LOG_POP (R490): A read of SEC_LOG_POP pops the oldest entry of the security log -/
  | secLogPop (m : Master)
  /-- SEC_AUTH_FAIL_READ (R504): A read of SEC_AUTH_FAIL returns and clears the count of OWNER failures without touching the lockout count -/
  | secAuthFailRead (m : Master)
  /-- BAR2_WRITE (R479): A host posted write through a BAR2 segment reaches module memory, or is refused with Completer Abort -/
  | bar2Write (off : BitVec 36) (data : List Byte) (ep : Bool)
  /-- BAR2_READ (R480): A host read through BAR2 returns module memory after every earlier posted write has taken effect, with EP set for poisoned data -/
  | bar2Read (off : BitVec 36) (len : Nat)
  /-- BAR2_RESIZE (R479): A change of BAR2 size through Resizable BAR clears ENABLE in every segment -/
  | bar2Resize (size : Fin 7)
  /-- OBJ_SIGNAL (R227): A host write to OBJ_SIGNAL adds N to a module-global object after the earlier BAR2 writes, subject to its access class -/
  | objSignal (idx : Fin 32768) (v : Word)
  /-- OBJ_DEC (R214): A host write to OBJ_DEC subtracts from a module-global object, and puts the object into ERROR on underflow -/
  | objDec (idx : Fin 32768) (v : Word)
  /-- OBJ_REARM (R227): A host write to OBJ_REARM re-arms a module-global object if its generation matches, and otherwise sets REARM_MISS -/
  | objRearm (idx : Fin 32768) (v : Word)
  /-- HW_SLOT_ARM (R230): A write to SYNC_HW_OBJn with ARM set registers the host-wait slot as a waiter, or refuses it, re-arming a slot that is already armed -/
  | hwSlotArm (n : Fin 1024) (v : Word)
  /-- HW_SLOT_DISARM (R231): A write to SYNC_HW_OBJn with ARM clear ends the armed slot CANCELLED without an MSI-X message -/
  | hwSlotDisarm (n : Fin 1024) (v : Word)
  /-- SYNC_HW_DISABLE (R231): Clearing HW_EN in SYNC_CTL completes every armed slot CANCELLED without a message -/
  | syncHwDisable (v : Word)
  /-- WAITER_TIMEOUT (R223): A pending waiter's deadline passes, and the waiter completes TIMEOUT in step 6 of its object's arbitration -/
  | waiterTimeout (o : ObjRef) (w : Who)
  /-- ACTIVATION_VERIFY_DONE (R433): The MSD finishes verifying the image, and the module runs the checks of R434, then loads the image and starts the prologues or refuses the activation -/
  | activationVerifyDone (sec : JobSections) (sigOk : Bool)
  /-- REHOME_TILES (R42): Before its first STEP_BEGIN the prologue fetches the outer-step state of each tile the module now owns and did not own under S_PREV -/
  | rehomeTiles (desc : Fin 4096) (tile : Nat) (srcStep : Option DWord) (data : List Byte)
  /-- MOD_IMG_STOP (R201): A write of STOP to MOD_IMG_CTL requests a stop, and the step unit fixes the stop step as the highest step any stream has begun -/
  | modImgStop (v : Word)
  /-- DESC_FETCH (R174): A stream fetches a descriptor from module memory, checking its SEQ and its fetch integrity -/
  | descFetch (d : Die) (c : Sid)
  /-- ARRAY (R182): An ARRAY descriptor checks its operand range, asserts the stream's ready wire and places its OP_TAG on the tag bus -/
  | array (d : Die) (c : Sid)
  /-- GANG_TIMEOUT (R90): A stream's gang timer expires before its grant, and the stream takes a descriptor fault on every die -/
  | gangTimeout (c : Sid)
  /-- ARRAY_BOUNDARY (R84): A die reaches its operation boundary after its visits, and may assert ready again -/
  | arrayBoundary (d : Die) (parity : List Nat)
  /-- TILE_DRAIN_START (R103): The drain path takes the oldest finished tile whose stream's share has a free slot, once room exists -/
  | tileDrainStart (d : Die)
  /-- TILE_PUSH (R102): The drain of a finished tile ends, and the entry is pushed READY and its non-finite elements counted, completing the ARRAY descriptor at the last tile -/
  | tilePush (d : Die)
  /-- VECTOR (R186): A VECTOR descriptor starts a vector program at ENTRY in its stream's context -/
  | vector (d : Die) (c : Sid)
  /-- MOVE_COPY (R187): A MOVE COPY descriptor copies rows of bytes between spaces through the die's move engine -/
  | moveCopy (d : Die) (c : Sid)
  /-- MOVE_ZERO (R187): A MOVE ZERO descriptor writes +0 bytes to a destination and reads nothing -/
  | moveZero (d : Die) (c : Sid)
  /-- MOVE_DONE (R193): Every byte of a move has been written, and the move completes and signals, or raises MOVE_UE -/
  | moveDone (d : Die) (c : Sid) (i : Nat)
  /-- SIGNAL (R189): A fenced SIGNAL descriptor adds COUNT to a local object, or sends a tagged remote signal to another module -/
  | signal (d : Die) (c : Sid)
  /-- WAIT_AT_LEAST (R190): A WAIT in AT_LEAST mode completes when the object's count is at least VALUE, or sleeps as a waiter -/
  | waitAtLeast (d : Die) (c : Sid)
  /-- WAIT_TAKE (R190): A WAIT in TAKE mode completes and subtracts VALUE when the count allows, or sleeps as a waiter -/
  | waitTake (d : Die) (c : Sid)
  /-- REDUCE_SCATTER (R191): A COLLECTIVE descriptor runs the reduce-scatter rounds of a schedule -/
  | reduceScatter (d : Die) (c : Sid)
  /-- ALL_GATHER (R191): A COLLECTIVE descriptor runs the all-gather rounds of a schedule -/
  | allGather (d : Die) (c : Sid)
  /-- ALL_REDUCE (R191): A COLLECTIVE descriptor runs the all-reduce rounds of a schedule -/
  | allReduce (d : Die) (c : Sid)
  /-- ALL_TO_ALL (R191): A COLLECTIVE descriptor runs the all-to-all rounds of a schedule, sending every quota block in full -/
  | allToAll (d : Die) (c : Sid)
  /-- GUARD_OR (R191): A COLLECTIVE descriptor ORs the guard records over the site -/
  | guardOr (d : Die) (c : Sid)
  /-- COLLECTIVE_DONE (R191): A collective completes when its rounds are acknowledged and written, and signals its DONE_REF -/
  | collectiveDone (d : Die) (i : Nat)
  /-- STEP_BEGIN (R198): STEP_BEGIN waits for the previous verdict, numbers the step, re-arms its die-local objects and reports the start -/
  | stepBegin (d : Die) (c : Sid)
  /-- STEP_END (R198): STEP_END reports the stream's arrival to the step unit and returns the program pointer to its STEP_BEGIN -/
  | stepEnd (d : Die) (c : Sid)
  /-- GUARD (R199): GUARD on the U stream completes when its step's verdict is known, leading to pass 2 or the poison path -/
  | guard (d : Die) (c : Sid)
  /-- LOSS (R192): LOSS reads the step's replica mean loss for the step record -/
  | loss (d : Die) (c : Sid)
  /-- MAQUETTE_COPY (R69): After a snapshot step commits a layer, the Pointing engine copies its working copy into a free Maquette slot -/
  | maquetteCopy (layer : Nat)
  /-- MAQUETTE_COPY_DONE (R70): A layer's Maquette copy completes, releasing the fence for the next step's pass 2 -/
  | maquetteCopyDone (layer : Nat)
  /-- MAQUETTE_SLOT_FREE (R71): The destination acknowledges a slot's last byte, the slot is freed, and SNAPSHOT_DONE is set after the last layer -/
  | maquetteSlotFree (slot : Nat)
  /-- FINISHER_FETCH_DONE (R292): A peer answers a Finisher chunk fetch, which is accepted only at step n, or the Finisher tries the next peer or sets FINISH_FAIL -/
  | finisherFetchDone (desc : Fin 4096) (chunk : Nat) (srcStep : Option DWord) (data : List Byte)
  /-- SHADOW_UPDATE (R293): For each site step under a shadow image, the Finisher applies pass 2 from the received gradients and a peer's journal entry -/
  | shadowUpdate (stepNum : DWord) (entry : List Byte)
  /-- NOP (R150): Vector instruction that does nothing -/
  | nop (v : VIns)
  /-- END (R162): Vector instruction that ends the program, which completes once its stores have been performed -/
  | endProg (v : VIns)
  /-- LOOP (R150): Vector instruction that runs its body sa times -/
  | loop (v : VIns)
  /-- LOOPI (R150): Vector instruction that runs its body IMM times -/
  | loopi (v : VIns)
  /-- ENDLOOP (R150): Vector instruction that ends a loop body and branches back -/
  | endloop (v : VIns)
  /-- SETVL (R145): Vector instruction that sets VL and writes the remainder to sd -/
  | setvl (v : VIns)
  /-- SPARAM (R150): Vector instruction that reads a descriptor parameter into sd -/
  | sparam (v : VIns)
  /-- SLI (R150): Vector instruction that loads a sign-extended immediate -/
  | sli (v : VIns)
  /-- SLIH (R150): Vector instruction that loads an immediate into the high half of sd -/
  | slih (v : VIns)
  /-- SADD (R150): Vector instruction for scalar add -/
  | sadd (v : VIns)
  /-- SADDI (R150): Vector instruction for scalar add of an immediate -/
  | saddi (v : VIns)
  /-- SSUB (R150): Vector instruction for scalar subtract -/
  | ssub (v : VIns)
  /-- SMULI (R150): Vector instruction for scalar multiply by an immediate -/
  | smuli (v : VIns)
  /-- SSHLI (R150): Vector instruction for scalar shift left -/
  | sshli (v : VIns)
  /-- SSHRI (R150): Vector instruction for scalar logical shift right -/
  | sshri (v : VIns)
  /-- TQPOP (R164): Vector instruction that pops a finished tile, checks its tag and reports non-finite counts to the step guard -/
  | tqpop (v : VIns)
  /-- TQREL (R165): Vector instruction that releases the oldest held tile -/
  | tqrel (v : VIns)
  /-- VGUARD (R166): Vector instruction that reports non-finite lanes to the step guard -/
  | vguard (v : VIns)
  /-- VUNSC (R166): Vector instruction that removes the loss scale -/
  | vunsc (v : VIns)
  /-- VADD (R150): Vector instruction for FP32 add -/
  | vadd (v : VIns)
  /-- VADDI (R150): Vector instruction for FP32 add of an immediate -/
  | vaddi (v : VIns)
  /-- VSUB (R150): Vector instruction for FP32 subtract -/
  | vsub (v : VIns)
  /-- VSUBI (R150): Vector instruction for FP32 subtract of an immediate -/
  | vsubi (v : VIns)
  /-- VMUL (R150): Vector instruction for FP32 multiply -/
  | vmul (v : VIns)
  /-- VMULI (R150): Vector instruction for FP32 multiply by an immediate -/
  | vmuli (v : VIns)
  /-- VMAX (R151): Vector instruction for FP32 maximum -/
  | vmax (v : VIns)
  /-- VMAXI (R151): Vector instruction for FP32 maximum with an immediate -/
  | vmaxi (v : VIns)
  /-- VMIN (R151): Vector instruction for FP32 minimum -/
  | vmin (v : VIns)
  /-- VMINI (R151): Vector instruction for FP32 minimum with an immediate -/
  | vmini (v : VIns)
  /-- VFMA (R150): Vector instruction for fused multiply-add -/
  | vfma (v : VIns)
  /-- VFMAI (R150): Vector instruction for fused multiply-add with an immediate -/
  | vfmai (v : VIns)
  /-- VFMS (R150): Vector instruction for fused multiply-subtract -/
  | vfms (v : VIns)
  /-- VFMSI (R150): Vector instruction for fused multiply-subtract with an immediate -/
  | vfmsi (v : VIns)
  /-- VFNMA (R150): Vector instruction for negated fused multiply-add -/
  | vfnma (v : VIns)
  /-- VFNMAI (R150): Vector instruction for negated fused multiply-add with an immediate -/
  | vfnmai (v : VIns)
  /-- VABS (R150): Vector instruction that clears the sign bit -/
  | vabs (v : VIns)
  /-- VNEG (R150): Vector instruction that flips the sign bit -/
  | vneg (v : VIns)
  /-- VMOV (R150): Vector instruction for a register move -/
  | vmov (v : VIns)
  /-- VMOVI (R150): Vector instruction that moves an immediate -/
  | vmovi (v : VIns)
  /-- VRNDF (R154): Vector instruction that rounds to a format and holds the result as FP32 -/
  | vrndf (v : VIns)
  /-- VCVTIF (R150): Vector instruction that converts an integer to FP32 -/
  | vcvtif (v : VIns)
  /-- VCVTFI (R154): Vector instruction that converts FP32 to an integer, saturating -/
  | vcvtfi (v : VIns)
  /-- VBCAST (R150): Vector instruction that broadcasts lane 0 -/
  | vbcast (v : VIns)
  /-- VEXP2 (R157): Vector instruction for 2^x -/
  | vexp2 (v : VIns)
  /-- VLOG2 (R157): Vector instruction for log2 -/
  | vlog2 (v : VIns)
  /-- VRCP (R157): Vector instruction for the reciprocal -/
  | vrcp (v : VIns)
  /-- VRSQRT (R157): Vector instruction for the reciprocal square root -/
  | vrsqrt (v : VIns)
  /-- VSQRT (R157): Vector instruction for the square root -/
  | vsqrt (v : VIns)
  /-- VDIV (R157): Vector instruction for division -/
  | vdiv (v : VIns)
  /-- VTANH (R157): Vector instruction for tanh -/
  | vtanh (v : VIns)
  /-- VIADD (R150): Vector instruction for integer add -/
  | viadd (v : VIns)
  /-- VIADDI (R150): Vector instruction for integer add of an immediate -/
  | viaddi (v : VIns)
  /-- VISUB (R150): Vector instruction for integer subtract -/
  | visub (v : VIns)
  /-- VISUBI (R150): Vector instruction for integer subtract of an immediate -/
  | visubi (v : VIns)
  /-- VIMUL (R150): Vector instruction for integer multiply -/
  | vimul (v : VIns)
  /-- VIMULI (R150): Vector instruction for integer multiply by an immediate -/
  | vimuli (v : VIns)
  /-- VAND (R150): Vector instruction for bitwise AND -/
  | vand (v : VIns)
  /-- VANDI (R150): Vector instruction for bitwise AND with an immediate -/
  | vandi (v : VIns)
  /-- VOR (R150): Vector instruction for bitwise OR -/
  | vor (v : VIns)
  /-- VORI (R150): Vector instruction for bitwise OR with an immediate -/
  | vori (v : VIns)
  /-- VXOR (R150): Vector instruction for bitwise XOR -/
  | vxor (v : VIns)
  /-- VXORI (R150): Vector instruction for bitwise XOR with an immediate -/
  | vxori (v : VIns)
  /-- VSHL (R150): Vector instruction for shift left -/
  | vshl (v : VIns)
  /-- VSHLI (R150): Vector instruction for shift left by an immediate -/
  | vshli (v : VIns)
  /-- VSHR (R150): Vector instruction for logical shift right -/
  | vshr (v : VIns)
  /-- VSHRI (R150): Vector instruction for logical shift right by an immediate -/
  | vshri (v : VIns)
  /-- VSRA (R150): Vector instruction for arithmetic shift right -/
  | vsra (v : VIns)
  /-- VSRAI (R150): Vector instruction for arithmetic shift right by an immediate -/
  | vsrai (v : VIns)
  /-- VIDX (R150): Vector instruction that writes each lane's index -/
  | vidx (v : VIns)
  /-- VSLIDE (R150): Vector instruction that slides lanes by an immediate -/
  | vslide (v : VIns)
  /-- VCMPEQ (R150): Vector instruction for an FP32 equal compare into a mask -/
  | vcmpeq (v : VIns)
  /-- VCMPEQI (R150): Vector instruction for an FP32 equal compare with an immediate -/
  | vcmpeqi (v : VIns)
  /-- VCMPLT (R150): Vector instruction for an FP32 less-than compare -/
  | vcmplt (v : VIns)
  /-- VCMPLTI (R150): Vector instruction for an FP32 less-than compare with an immediate -/
  | vcmplti (v : VIns)
  /-- VCMPLE (R150): Vector instruction for an FP32 less-or-equal compare -/
  | vcmple (v : VIns)
  /-- VCMPLEI (R150): Vector instruction for an FP32 less-or-equal compare with an immediate -/
  | vcmplei (v : VIns)
  /-- VCMPUN (R150): Vector instruction for an unordered compare -/
  | vcmpun (v : VIns)
  /-- VICMPEQ (R150): Vector instruction for an integer equal compare -/
  | vicmpeq (v : VIns)
  /-- VICMPEQI (R150): Vector instruction for an integer equal compare with an immediate -/
  | vicmpeqi (v : VIns)
  /-- VICMPLT (R150): Vector instruction for an integer less-than compare -/
  | vicmplt (v : VIns)
  /-- VICMPLTI (R150): Vector instruction for an integer less-than compare with an immediate -/
  | vicmplti (v : VIns)
  /-- MAND (R150): Vector instruction for mask AND -/
  | mand (v : VIns)
  /-- MOR (R150): Vector instruction for mask OR -/
  | mor (v : VIns)
  /-- MXOR (R150): Vector instruction for mask XOR -/
  | mxor (v : VIns)
  /-- MANDN (R150): Vector instruction for mask AND NOT -/
  | mandn (v : VIns)
  /-- VCPOP (R150): Vector instruction that counts active lanes -/
  | vcpop (v : VIns)
  /-- VIOTA (R150): Vector instruction that writes the prefix count of active lanes -/
  | viota (v : VIns)
  /-- VRANK (R150): Vector instruction that ranks equal values among the active lanes -/
  | vrank (v : VIns)
  /-- VRSUM (R156): Vector instruction for an FP32 tree sum -/
  | vrsum (v : VIns)
  /-- VRSUMP (R156): Vector instruction for a compensated-pair tree sum -/
  | vrsump (v : VIns)
  /-- VRSSQP (R156): Vector instruction for a compensated-pair sum of squares -/
  | vrssqp (v : VIns)
  /-- VRMAX (R156): Vector instruction for a maximum reduction -/
  | vrmax (v : VIns)
  /-- VRMIN (R156): Vector instruction for a minimum reduction -/
  | vrmin (v : VIns)
  /-- VRMAXI (R156): Vector instruction for a maximum reduction with the lane index -/
  | vrmaxi (v : VIns)
  /-- VPADD (R155): Vector instruction for the pair add step -/
  | vpadd (v : VIns)
  /-- VPNORM (R155): Vector instruction for pair normalisation -/
  | vpnorm (v : VIns)
  /-- VDADD (R155): Vector instruction for FP64 add -/
  | vdadd (v : VIns)
  /-- VDMUL (R155): Vector instruction for FP64 multiply -/
  | vdmul (v : VIns)
  /-- VDFMA (R155): Vector instruction for FP64 fused multiply-add -/
  | vdfma (v : VIns)
  /-- VCVTDF (R155): Vector instruction that converts FP64 to FP32 -/
  | vcvtdf (v : VIns)
  /-- VCVTFD (R155): Vector instruction that widens FP32 to FP64 -/
  | vcvtfd (v : VIns)
  /-- VLD (R159): Vector instruction for a unit-stride load with conversion -/
  | vld (v : VIns)
  /-- VLDS (R159): Vector instruction for a strided load -/
  | vlds (v : VIns)
  /-- VLDX (R159): Vector instruction for an element gather -/
  | vldx (v : VIns)
  /-- VLDRI (R159): Vector instruction for a row-indexed load -/
  | vldri (v : VIns)
  /-- VST (R153): Vector instruction for a unit-stride store with conversion -/
  | vst (v : VIns)
  /-- VSTS (R153): Vector instruction for a strided store -/
  | vsts (v : VIns)
  /-- VSTX (R161): Vector instruction for an element scatter -/
  | vstx (v : VIns)
  /-- VSTRI (R159): Vector instruction for a row-indexed store -/
  | vstri (v : VIns)
  /-- VSTXA (R161): Vector instruction for an FP32 element scatter-add -/
  | vstxa (v : VIns)
  /-- VADDRI (R161): Vector instruction for a row-indexed FP32 add into memory -/
  | vaddri (v : VIns)
  /-- ROW_REPAIR_DONE (R255): A repair completes and the held accesses proceed against the repaired row -/
  | rowRepairDone (st : Stack) (row : Nat)
  /-- PATROL_SCRUB (R253): Patina reads and corrects the next interleave units of a stack at its pace -/
  | patrolScrub (st : Stack)
  /-- STACK_TEMP_READ (R260): Every 100 µs the controller reads the stack temperature and changes its thermal band -/
  | stackTempRead (st : Stack) (temp : Option Int)
  /-- STACK_SENSOR_TIMEOUT (R262): After 10 ms without a valid stack reading, the stack enters EMERGENCY -/
  | stackSensorTimeout (st : Stack)
  /-- THERMAL_SLOW_HOLD_EXPIRE (R261): A peer's THERMAL_SLOW flag lapses 3 ms after the last message received -/
  | thermalSlowHoldExpire (peer : Half)
  /-- WRITE_PACKET (R298): An arriving WRITE is admitted and performed in flow order, and answered with STATUS -/
  | writePacket (p : Packet) (ch : Chan)
  /-- READ_PACKET (R298): An arriving READ is admitted and answered with READ_DATA or STATUS -/
  | readPacket (p : Packet) (ch : Chan)
  /-- SIGNAL_PACKET (R225): An arriving remote SIGNAL is applied by the object's arbiter and answered APPLIED, STALE or REFUSED -/
  | signalPacket (p : Packet) (ch : Chan)
  /-- READ_DATA (R307): A READ_DATA reply matches its transaction, delivers its data and frees the entry -/
  | readData (p : Packet) (ch : Chan)
  /-- STATUS (R301): A STATUS reply matches its transaction and completes the request, with a retransmission on BUSY -/
  | status (p : Packet) (ch : Chan)
  /-- E2E_ACK (R309): An end-to-end acknowledgement stops the timers of its flow's packets and frees finished rounds -/
  | e2eAck (p : Packet) (ch : Chan)
  /-- COLL_GRANT (R353): A collective grant is used, held or discarded by its attempt tag, and lets the sender transmit the round -/
  | collGrant (p : Packet) (ch : Chan)
  /-- COLL_DATA (R326): Arriving collective data is admitted by tag and written, or reduced in flight into the landing region -/
  | collData (p : Packet) (ch : Chan)
  /-- LINK_HELLO (R349): An arriving identity exchange is checked against the expected peer, and the link is accepted or quarantined -/
  | linkHello (p : Packet) (ch : Chan)
  /-- POISON_PACKET (R325): An arriving poison broadcast poisons the named attempt on its first copy and is forwarded on lower B dimensions -/
  | poisonPacket (p : Packet) (ch : Chan)
  /-- THERMAL_SLOW_PACKET (R261): An arriving THERMAL_SLOW sets or clears the peer's flag that stretches collective timers -/
  | thermalSlowPacket (p : Packet) (ch : Chan)
  /-- ROUTE_NOTICE (R314): An arriving notice reports a dimension going down or returning -/
  | routeNotice (p : Packet) (ch : Chan)
  /-- PACKET_FORWARD (R320): A router forwards a packet not addressed to its module by the bank of the packet's epoch, or discards it -/
  | packetForward (p : Packet) (ch : Chan)
  /-- RTO_EXPIRE (R308): An end-to-end timer expires, and the packet is retransmitted or its transaction ends UNREACHABLE -/
  | rtoExpire (txn : Nat)
  /-- FLOW_IDLE_EXPIRE (R303): A flow with no traffic for FLOW_IDLE is freed at its source or its destination -/
  | flowIdleExpire (source : Bool) (key : Nat)
  /-- E2E_ACK_TIMER (R309): The acknowledgement interval of a collective flow ends, and an E2E_ACK is sent -/
  | e2eAckTimer (key : Nat)
  /-- RELIEF_MOVE (R316): A packet whose adaptive candidates have had no credit for 2 µs moves to the relief channel -/
  | reliefMove (i : Nat)
  /-- LINK_CONTROL_WORD (R313): An arriving link control word acknowledges LSNs, requests resends and returns credit -/
  | linkControlWord (w : Lcw) (ch : Chan)
  /-- GRANT_SEND (R353): The collective engine sends COLL_GRANT for a round once its landing range is free -/
  | grantSend (d : Die) (i : Nat) (round : Nat)
  /-- COLL_TIMEOUT (R360): A collective's stretched timer expires, and it ends with cause TIMEOUT -/
  | collTimeout (d : Die) (i : Nat)
  /-- POISON_REPEAT (R324): Every 200 µs, until the poisoned step has ended, the sender repeats the poison broadcast -/
  | poisonRepeat (attempt : DWord)
  /-- EPOCH_OPEN (R322): The OPEN command opens the next routing bank for writes -/
  | epochOpen (arg : BitVec 24)
  /-- EPOCH_LOAD (R322): The LOAD command checks the open bank and marks it LOADED, or refuses it -/
  | epochLoad (arg : BitVec 24)
  /-- EPOCH_INJECT (R322): The INJECT command advances the current epoch and starts draining the previous bank -/
  | epochInject (arg : BitVec 24)
  /-- EPOCH_RETIRE (R322): The RETIRE command starts the drain timer of the draining bank -/
  | epochRetire (arg : BitVec 24)
  /-- EPOCH_VIEW (R331): The VIEW command selects which bank the FAB_RT window shows -/
  | epochView (arg : BitVec 24)
  /-- CODEWORD_RECEIVE (R370): A received FEC codeword is decoded and its packets delivered, or marked uncorrectable -/
  | codewordReceive (ch : Chan) (hdr : BitVec 20) (symbols : Nat) (bad : Bool) (pkts : List Packet) (lcw : Option Lcw)
  /-- MOD_RESET_WARM (R443): A write of WARM with the key to MOD_RESET makes a WARM reset -/
  | modResetWarm (m : Master) (v : Word)
  /-- MOD_RESET_COLD (R443): A write of COLD with the key to MOD_RESET makes a COLD reset -/
  | modResetCold (m : Master) (v : Word)
  /-- CORE_RESET (R415): The MSD resets one CDn.CORE with its die-local objects while CDn.MEM keeps serving -/
  | coreReset (d : Die)
  /-- START_ROM (R424): The ROM chooses the boot descriptor record and verifies the firmware copy, falling back to the other copy -/
  | startRom (aOk : Bool) (bOk : Bool)
  /-- START_PLATFORM (R428): The MSD reads and verifies a platform image copy section by section -/
  | startPlatform (a : Option PlatformImage) (b : Option PlatformImage)
  /-- START_CLOCKS (R418): The clock plan's PLLs lock, and the early windows open -/
  | startClocks (rack1 : BitVec 10) (slot1 : BitVec 6) (rack2 : BitVec 10) (slot2 : BitVec 6)
  /-- START_IDENTITY (R410): The die identity records are read and the feature level formed, or the module goes to management-only state -/
  | startIdentity (records : List (BitVec 128))
  /-- START_DIE_LINKS (R400): Every lane is trained and the role plan set -/
  | startDieLinks (failed : List (Nat × BitVec 68))
  /-- START_MEMORY (R235): The stacks are trained at their points, repairs re-applied and contents zeroed or kept -/
  | startMemory (points : List StackTraining) (selfRefresh : Bool) (bad : List (Stack × Fin 32))
  /-- START_SELFTEST (R429): The QUICK self-test completes, and failing dies are held out of service -/
  | startSelftest (failing : BitVec 24)
  /-- START_OPTICS (R374): The LS-16 is brought up, the rings acquire, the shutters open and LINK_HELLO is sent -/
  | startOptics (lsStatus : Option Word) (feeds : List (Option Word)) (failed : List Ring)
  /-- START_REPLAY (R437): The Finisher completes a PASS2 journal left by the previous run, or REPLAY ends at once -/
  | startReplay (imageOk : Bool)
  /-- COPY (R440): Recovery command that fetches parameters and state from peers at step T and writes a COMMITTED journal -/
  | copy (v : Word)
  /-- RESTORE (R439): Recovery command that rewrites every poisoned granule of the PERSISTENT regions from a peer -/
  | restore (v : Word)
  /-- OUTER_RESET (R439): Recovery command that resets every owned outer tile to the master with zero momentum and residual -/
  | outerReset (v : Word)
  /-- SELFTEST_FULL (R429): Recovery command that runs every die test and an HBM march, then a WARM reset -/
  | selftestFull (v : Word)
  /-- SELFTEST_CD (R429): Recovery command that resets and tests one compute die in local mode -/
  | selftestCd (v : Word)
  /-- ABORT (R439): Recovery command that ends the running command with ABORTED -/
  | abort (v : Word)
  /-- RCV_DONE (R439): A recovery command ends, and object 5 is signalled -/
  | rcvDone (cause : Fin 16)
  /-- HV_FRAME (R444): A 128-bit telemetry frame from the high-voltage side is checked and gives input voltage and current -/
  | hvFrame (link : Fin 2) (frame : BitVec 128)
  /-- HV_LINK_SILENT (R446): One isolated link fails CRC or stays silent for 30 µs, so HV_LINK is set and the other link is used -/
  | hvLinkSilent (link : Fin 2)
  /-- MATE_PIN_RISE (R513): A mate pin rising opens the hot-swap within 10 µs, unlatched -/
  | matePinRise (pin : Fin 2)
  /-- DVFS_CHANGE (R463): The MSD moves a die to a new DVFS point through the idle PLL and the voltage ramp -/
  | dvfsChange (d : Die)
  /-- CD_TEMP_READ (R465): Every 10 µs a die's hottest reading sets its thermal stretch level, or trips it at 104 °C -/
  | cdTempRead (d : Die) (temp : Option Int)
  /-- STRETCH_LIMIT_DOWN (R465): Stretch engaged for 1 ms lowers the die's limit point by one -/
  | stretchLimitDown (d : Die)
  /-- COOL_LIMIT_UP (R465): 20 ms with no reading above 90 °C and no stretch raises the limit point by one -/
  | coolLimitUp (d : Die)
  /-- CD_SENSOR_TIMEOUT (R466): 10 ms without a valid die reading takes the die out of service -/
  | cdSensorTimeout (d : Die)
  /-- RACKCLK_CHECK (R468): A 10 ms measurement accepts RACKCLK, or sets RACKCLK_BAD -/
  | rackclkCheck (ppm : Int)
  /-- RACKSYNC_FRAME (R471): A 64-pulse RACKSYNC frame sets or checks the upper timebase bits -/
  | racksyncFrame (bits : DWord)
  /-- MSIX_UNMASK (R484): Clearing a vector's mask or the function mask sends one message for each set pending bit -/
  | msixUnmask (v : Option (Fin 2048))
  /-- MSIX_WINDOW_END (R486): A vector's 10 µs coalescing window ends, sending a deferred message or closing -/
  | msixWindowEnd (v : Fin 16) (pldm : Bool)
  /-- SET_ENDPOINT_ID (R498): An MCTP control message assigns the module's endpoint ID -/
  | setEndpointId (path : Path) (eid : Byte)
  /-- PLDM_REQUEST (R499): A PLDM request reads sensors, PDRs, FRU data or the latest telemetry frame -/
  | pldmRequest (path : Path) (type : BitVec 6) (cmd : Byte) (arg : Nat)
  /-- GET_NONCE (R500): Command that returns a fresh 32 B nonce for the path -/
  | getNonce (path : Path)
  /-- GET_ATTEST (R508): Command that returns the signed attestation report over the requester's nonce -/
  | getAttest (path : Path) (nonce : BitVec 256)
  /-- GET_CERT (R507): Command that returns the device and CA certificates -/
  | getCert (path : Path)
  /-- READ_LOG (R500): Command that returns entries of the flash log -/
  | readLog (path : Path) (cls : Nat) (first : Nat)
  /-- OWNER_BIND (R505): OWNER operation that programs a new key into an empty slot -/
  | ownerBind (path : Path) (body : List Byte) (sigOk : Bool)
  /-- OWNER_REVOKE (R505): OWNER operation that blows a slot's revocation fuse -/
  | ownerRevoke (path : Path) (body : List Byte) (sigOk : Bool)
  /-- OWNER_ADVANCE (R505): OWNER operation that advances an anti-rollback counter -/
  | ownerAdvance (path : Path) (body : List Byte) (sigOk : Bool)
  /-- OWNER_LOG_CLEAR (R505): OWNER operation that removes a map-out or failed-lane entry from the flash log -/
  | ownerLogClear (path : Path) (body : List Byte) (sigOk : Bool)
  /-- NONCE_EXPIRE (R504): A nonce unused for 60 s becomes invalid -/
  | nonceExpire (path : Path)
  /-- RESET (R500): Management command that makes a WARM or COLD reset from the BMC -/
  | reset (path : Path) (v : Word)
  /-- EPOCH (R501): Management command that carries a routing epoch command to the Plinth -/
  | epoch (path : Path) (v : Word)
  /-- FLASH_WRITE (R424): Management command that writes data into the copy that is not preferred -/
  | flashWrite (path : Path) (pi : Bool) (off : Nat) (data : List Byte)
  /-- FLASH_PREFER (R424): Management command that makes a verified copy preferred by writing the boot descriptor record not in force -/
  | flashPrefer (path : Path) (pi : Bool) (copy : Bool) (ok : Bool)
  /-- RECOVER (R500): Management command that carries a recovery command word as MOD_RCV_CMD -/
  | recover (path : Path) (v : Word)
  /-- OTHER_DIE_TEMP_READ (R466): Every 10 µs the sensors of the Plinth, each photonic die and the MSD are read, setting HOT_OTHER with a PLDM event at 100 °C and requesting an image stop at 104 °C -/
  | otherDieTempRead (which : Fin 8) (temp : Option Int)
  /-- COMPLETION_TIMEOUT (R482): A read that the module issued to host memory gets no completion within the completion timeout, ending its fabric request with MEM_ERROR and logging a Completion Timeout -/
  | completionTimeout (tag : Nat)
  /-- HOST_READ_COMPLETION (R482): A completion from host memory arrives for a read the module issued through a host window, and its data is returned to the fabric requester -/
  | hostReadCompletion (tag : Nat) (data : List Byte)
  /-- BUS_MASTER_ENABLE (R482): A configuration write that changes Bus Master Enable decides whether requests to endpoint 26 are answered MEM_ERROR, Maquette exports hold, ring frames are skipped with RING_HELD, and MSI-X messages are held as pending -/
  | busMasterEnable (en : Bool)
  /-- ROW_CE_AGE (R254): A row with no new error for one scrub period is dropped from the correctable-error table -/
  | rowCeAge (st : Stack) (row : Nat)
  /-- LINK_ACK_TIMEOUT (R313): A packet with no link acknowledgement within 2 link round trips is resent -/
  | linkAckTimeout (ch : Chan) (lsn : Half)
  /-- REPLAY_STORE_SEND (R315): A C transmitter waiting for replay-store room sends its packet once room exists -/
  | replayStoreSend (port : Fin 6)
  /-- HELLO_TIMER (R348): A link's LINK_HELLO interval expires, and a LINK_HELLO is sent -/
  | helloTimer (ch : Chan)
  /-- HELLO_SILENT (R349): A locked channel that receives no LINK_HELLO within 100 ms is quarantined SILENT -/
  | helloSilent (ch : Chan)
  /-- LS_IBI (R372): The LS-16 raises an in-band interrupt on a STATUS change, and the MSD reads STATUS -/
  | lsIbi (status : Option Word)
  /-- LS_STATUS_POLL (R372): Without an interrupt, the MSD reads the LS-16 STATUS every 10 ms -/
  | lsStatusPoll (status : Option Word)
  /-- LS_FAULT (R375): LS_FAULT_N falls, and the MSD reads STATUS and FEED_FAULT and disables the faulty feeds -/
  | lsFault (status : Word) (feedFault : Half)
  /-- FEED_LOSS (R375): A feed's power falls below +15 dBm, and the transmit channels of its four fibres leave service -/
  | feedLoss (j : Fin 14)
  /-- FEED_RETURN (R375): A feed held within limits for 100 ms returns, and its rings acquire again -/
  | feedReturn (j : Fin 14)
  /-- RING_ACQUIRE_DONE (R376): A ring's red sweep finds a resonance and goes to VERIFY, or returns to PARKED -/
  | ringAcquireDone (r : Ring) (found : Option Half)
  /-- RING_VERIFY_DONE (R376): A ring's 250 µs tone measurement finds its own line and locks, or declares MISLOCK -/
  | ringVerifyDone (r : Ring) (tone : Option (Fin 16))
  /-- LOCK_LOST (R377): A ring's lock error stays outside ±50 GHz for 2 µs, so the ring parks and its channel leaves service -/
  | lockLost (r : Ring)
  /-- RING_FEEDFORWARD (R378): Every 10 µs the bank temperature is read and each heater corrected by the feed-forward term -/
  | ringFeedforward (port : Fin 6) (fib : Fin 16) (rx : Bool) (temp : Int)
  /-- DITHER_WINDOW (R380): A 200 µs dither window ends, and a wrong tone declares MISLOCK -/
  | ditherWindow (r : Ring) (tone : Option (Fin 16))
  /-- REST_PREPARE (R384): RTT + 20 µs before a rest slot, the resting channel stops taking new packets -/
  | restPrepare (ch : Chan)
  /-- REST_SLOT (R383): A rest slot starts by the timebase, and the channel sends its last codeword with REST set and calibrates -/
  | restSlot (port : Fin 6)
  /-- REST_CAL_DONE (R384): Calibration ends, and the ring returns to LOCKED after VERIFY and sends LINK_HELLO -/
  | restCalDone (ch : Chan) (vals : List Half)
  /-- SHUTTER_CLOSE (R390): With every line of a receive fibre dark for 1 ms, the matching transmit shutter closes -/
  | shutterClose (port : Fin 6) (fib : Fin 16)
  /-- SHUTTER_PROBE (R390): A closed shutter opens for 2 ms every 500 ms -/
  | shutterProbe (port : Fin 6) (fib : Fin 16)
  /-- SHUTTER_OPEN (R390): Light on a receive fibre opens its transmit shutter and keeps it open -/
  | shutterOpen (port : Fin 6) (fib : Fin 16)
  /-- FLIT_RECEIVE (R397): A die-link flit is checked by CRC and FSEQ, and a failure sends NAK -/
  | flitReceive (g : Fin 688) (check : Word) (data : List Byte)
  /-- FLIT_NAK (R397): A NAK makes the sender replay from the first unacknowledged flit -/
  | flitNak (g : Fin 688)
  /-- LANE_STEER (R403): A STEER command moves a failing lane's role to the lowest spare at a flit boundary -/
  | laneSteer (g : Fin 688) (lane : Fin 68)
  /-- LANE_RETRAIN (R404): A RETRAIN command holds the bundle direction and retrains the group-direction -/
  | laneRetrain (g : Fin 688)
  /-- LANE_RECAL (R401): A RECAL command moves a lane's role to a spare so that Patina can recalibrate the lane -/
  | laneRecal (g : Fin 688) (lane : Fin 68)
  /-- LANE_FAILING (R403): A lane's eye margin or lock fails for its limit, and the receiver names it for a steer or a retrain -/
  | laneFailing (g : Fin 688) (lane : Fin 68) (margin : Bool)
  /-- LANE_RECAL_DONE (R401): A 50 µs lane recalibration ends, and the role is steered back -/
  | laneRecalDone (g : Fin 688)
  /-- RETRAIN_DONE (R404): A retrain ends, and the width is set by the good lanes, the roles confirmed and held flits replayed -/
  | retrainDone (g : Fin 688) (good : BitVec 68)
  /-- MUX_SWITCH (R459): A glitch-free mux moves a domain to a new clock source in four stages -/
  | muxSwitch (dom : Fin 59) (src : Fin 8)
  /-- MUX_FORCED (R460): A mux switch incomplete after 20 µs is forced through its reset path -/
  | muxForced (dom : Fin 59)
  /-- MUX_DEAD (R460): A forced switch whose new source fails for 20 µs leaves the domain stopped, causing a CORE or WARM reset -/
  | muxDead (dom : Fin 59)
  /-- FLASH_WEAR_LEVEL (R474): Patina erases a flash log block to level wear, at most once per second -/
  | flashWearLevel (blk : Nat)
  /-- CAL_SKIP (R384): When the last acknowledgement of a resting channel has not arrived by +2,000 µs into its rest slot, the slot's calibration is skipped, CAL_SKIP is counted and the channel returns at the end of the slot -/
  | calSkip (ch : Chan)
  /-- ACTIVATION (R433): The Plinth consumes a count of the activation object while no image is active, latches the image registers and begins verification -/
  | activation
  /-- IMAGE_STOPPED (R435): Once the stop step has ended and every unit has finished, the image stops, STATE returns to NONE, the region reopens and object 3 is signalled -/
  | imageStopped
  /-- GANG_GRANT (R87): Once a stream is ready on all 24 dies, the gang arbiter elects by priority, compares tags and raises the grant to every die -/
  | gangGrant
  /-- STEP_UNIT_END_STEP (R198): Once all 96 streams have reported STEP_END and the verdict is known, the step unit ends the step, writes its record and signals the step-done object -/
  | stepUnitEndStep
  /-- FINISHER_COMPLETE (R289): The Finisher completes the step from the journal, writes the step record with FINISHER set and signals the remaining commit objects -/
  | finisherComplete
  /-- THERMAL_SLOW_REPEAT (R261): Every 1 ms while the flag is set, the Plinth repeats THERMAL_SLOW to its link peers -/
  | thermalSlowRepeat
  /-- EPOCH_DRAIN_DONE (R322): A draining bank with no packet left and PKT_LIFE elapsed since RETIRE is freed -/
  | epochDrainDone
  /-- POWER_APPLIED (R415): The 54 V input rises and the hot-swap closes, making a COLD start -/
  | powerApplied
  /-- LINK_RESET (R417): PERST_N low, a hot reset or a function level reset resets the PCIe side and cancels the host-wait slots -/
  | linkReset
  /-- XTAL_STABLE (R455): The crystal is judged stable, and the AON and MSD muxes move to it -/
  | xtalStable
  /-- XTAL_TIMEOUT (R418): A crystal not stable within 100 ms ends the start in MGMT_ONLY -/
  | xtalTimeout
  /-- START_READY (R422): The start reaches READY, signals object 1 and opens every window -/
  | startReady
  /-- XTAL_FAIL (R456): The crystal amplitude stays below 30 % for 10 µs, and the muxes move to the oscillator, the PLLs hold and a stop is requested -/
  | xtalFail
  /-- XTAL_FAIL_RESET (R456): 100 ms after a crystal failure, the MSD makes a WARM reset -/
  | xtalFailReset
  /-- VERDICT_POLL (R438): Every 10 ms while the verdict is indeterminate, the step unit reads a peer's verdict record -/
  | verdictPoll
  /-- RESOLVE_TIMEOUT (R438): RESOLVE_TIMEOUT passes without a deciding record, so RESOLVE_FAIL is set and the streams stay held -/
  | resolveTimeout
  /-- HV_LINK_LOST (R446): Both links are silent for 50 µs, so the dies stretch to level 2 and the ceiling freezes -/
  | hvLinkLost
  /-- HV_LINK_STOP (R446): After 1 s with both links silent, a stop is requested and the lowest DVFS point set -/
  | hvLinkStop
  /-- SHUTDOWN (R447): The logic side's SHUTDOWN command opens the hot-swap, latched -/
  | shutdown
  /-- ACK_SEQ (R444): The logic side confirms receipt of a frame -/
  | ackSeq
  /-- HV_UNDERVOLTAGE (R447): VIN below 44 V for 1 ms opens the hot-swap until VIN exceeds 46 V -/
  | hvUndervoltage
  /-- HV_OVERVOLTAGE (R447): VIN above 60 V opens the hot-swap, latched -/
  | hvOvervoltage
  /-- HV_OVERCURRENT (R447): IIN above 130 A, or above 100 A as a 1 ms mean, opens the hot-swap, latched -/
  | hvOvercurrent
  /-- HV_OVERTEMP (R447): TEMP_HV above 125 °C opens the hot-swap, latched -/
  | hvOvertemp
  /-- HOTSWAP_CLOSE (R513): Both mate pins low for 10 ms, or VIN recovered, closes the hot-swap with a soft start -/
  | hotswapClose
  /-- POWER_SHAPE_TICK (R450): Every 10 µs the MSD updates the ceiling and sets filler or power stretch -/
  | powerShapeTick
  /-- LIMIT_DVFS_DOWN (R452): A P_MAX cut held for 1 ms lowers the common DVFS target by one point -/
  | limitDvfsDown
  /-- LIMIT_DVFS_UP (R452): After 10 ms with power stretch at 0, the common target rises one point -/
  | limitDvfsUp
  /-- HEARTBEAT_MISS (R460): A missed 250 ms firmware heartbeat causes a WARM reset by the watchdog -/
  | heartbeatMiss
  /-- THERMAL_TRIP (R466): The 108 °C comparator makes the AON domain send SHUTDOWN without firmware -/
  | thermalTrip
  /-- RACKSYNC_EDGE (R470): A RACKSYNC rising edge samples the phase error and slews or steps the timebase -/
  | racksyncEdge
  /-- TB_HOLDOVER (R472): With no RACKSYNC edge for three periods, the timebase enters holdover -/
  | tbHoldover
  /-- TELEMETRY_FRAME (R496): Every TEL_PERIOD Patina forms a telemetry frame and delivers it to TEL_FRAME, the host ring and PLDM -/
  | telemetryFrame
  /-- D3HOT_ENTER (R483): Entry to D3hot closes the BARs and holds due messages as pending -/
  | d3hotEnter
  /-- D0_RETURN (R483): A return to D0 keeps all state and releases the held messages -/
  | d0Return
  /-- LOCKOUT_EXPIRE (R504): 60 s after the last OWNER failure the lockout ends and its count returns to 0 -/
  | lockoutExpire
  /-- PCIE_LINK_UP (R417): After PERST_N rises, the PCIe link trains and comes up, configuration requests are answered, and a held Maquette export restarts its current slot from the first byte -/
  | pcieLinkUp
  deriving DecidableEq, Repr

end Sys2Proof
end

