-- ==== Sys2Proof/Config.lean ====
section
/-! DEFINITION. Config.lean: what an implementation fixes, and the free values. Every constant here is
opaque: nothing in Lean can evaluate it, so a statement holds whatever it is. -/
namespace Sys2Proof.Config

/-- A fresh free byte: what a byte the spec calls undefined holds (R53, R187). The argument is the
model's counter of free values. -/
opaque freeByte : Nat → Byte
/-- A fresh free 32-bit value. -/
opaque freeWord : Nat → Word
/-- A fresh free bit. -/
opaque freeBit : Nat → Bool
/-- The result of VEXP2 on a finite non-special operand, where it lies within the bound of R157, which states no value. -/
opaque exp2Word : Word → Word
/-- The result of VLOG2 on a positive finite operand, where it lies within the bound of R157. -/
opaque log2Word : Word → Word
/-- The result of VTANH on a finite operand, where it lies within the bound of R157. -/
opaque tanhWord : Word → Word
/-- Which of the results within R157's bound VRCP returns. -/
opaque rcpPick : Word → Nat
/-- Which of the results within R157's bound VRSQRT returns. -/
opaque rsqrtPick : Word → Nat
/-- cos(pi u) in FP64 as the schedule engine computes it, where it lies near enough to the exact value (R278 states no
rounding). -/
opaque cosPi : DWord → DWord
/-- A power in FP64 as the step unit and the schedule engine compute it, where it lies near enough to the exact value (R273,
R278). -/
opaque powFP64 : DWord → DWord → DWord
/-- Expert pairs that the programs of an attempt (first argument) assigned in a layer by the time at which it ends (R66, R68:
the vector programs assign the pairs, and the spec does not say how the module learns their number). -/
opaque slotAssigned : DWord → DWord → Nat → Word
/-- Expert pairs that the programs of an attempt redirected in a layer, likewise. -/
opaque slotRedirects : DWord → DWord → Nat → Word
/-- Expert pairs that the programs of an attempt dropped in a layer, likewise. -/
opaque slotDrops : DWord → DWord → Nat → Word
/-- SHA-512 of a byte string, as 64 bytes in one word. -/
opaque sha512 : List Byte → BitVec 512
/-- The signature component r that the device key makes over a digest (R508). -/
opaque signR : BitVec 512 → BitVec 528
/-- The signature component s that the device key makes over a digest (R508). -/
opaque signS : BitVec 512 → BitVec 528
/-- The measured one-way latency in ns of the link on a channel, by the channel's key (R310). -/
opaque linkLatency : Nat → Nat
/-- A fresh random nonce (R500). -/
opaque nonce : Nat → BitVec 256
/-- The device certificate (R507). -/
opaque deviceCert : List Byte
/-- The certificate of the device CA (R507). -/
opaque caCert : List Byte
/-- The input, in units of 0.01 W, that the scheduled work would draw with no power stretch and no filler, as the
MSD estimates it at tick `n` (R450). -/
opaque demand : Nat → Nat
/-- The part of that input, in units of 0.01 W, that the compute dies make up (R453). -/
opaque dieDemand : Nat → Nat
/-- The lock error shown for ring `r` at time `t` while it is locked (R377, R391). -/
opaque lockError : Nat → Nat → Byte
/-- The power or OMA shown for quantity `q` of an optical input at time `t` (R391, R392). -/
opaque opticalPower : Nat → Nat → Half
/-- The low 32 bits of the light source's SERIAL (R392). -/
opaque lsSerial : Word
/-- What the module answers to a PLDM request (type, command, argument) whose payload the spec leaves to the DMTF
standards (R499). -/
opaque pldmData : Nat → Nat → Nat → List Byte

/-- What the sections without a layout hold of the job image whose bytes are given, as the MSD reads them for a recovery
command; none where the image fails a check of R426 (R439). -/
opaque verifiedImage : List Byte → Option JobSections

/-- How many hard repairs stack `n` has resources for (R255). -/
opaque hardRepairs : Nat → Nat

end Sys2Proof.Config
end

