-- ==== Sys2Proof/Machine/Bits.lean ====
section
/-! DEFINITION. Machine/Bits.lean: sparse stores, bit fields, little-endian byte strings, check codes (R523) and
serial-number arithmetic (R491). Nothing here knows the machine's state. -/
namespace Sys2Proof.Machine

/-! ### Sparse stores -/

/-- What key `k` holds; an unlisted key reads as `d`. -/
def SMap.get {β : Type} (d : β) : SMap β → Nat → β
  | [], _ => d
  | (a, v) :: m, k => if k = a then v else SMap.get d m k

/-- Remove key `k`. -/
def SMap.erase {β : Type} : SMap β → Nat → SMap β
  | [], _ => []
  | (a, v) :: m, k => if k = a then SMap.erase m k else (a, v) :: SMap.erase m k

/-- List `v` under key `k`, in its place. -/
def SMap.insert {β : Type} : SMap β → Nat → β → SMap β
  | [], k, v => [(k, v)]
  | (a, u) :: m, k, v =>
    if k < a then (k, v) :: (a, u) :: m
    else if k = a then (k, v) :: m
    else (a, u) :: SMap.insert m k v

/-- Write `v` under key `k`. Writing what an unlisted key reads as removes the entry. -/
def SMap.set {β : Type} [DecidableEq β] (d : β) (m : SMap β) (k : Nat) (v : β) : SMap β :=
  if v = d then SMap.erase m k else SMap.insert m k v

/-- Every key listed is above `lo`, keys rise strictly, and no entry holds the default. -/
def SMap.wfFrom {β : Type} [DecidableEq β] (d : β) : Nat → SMap β → Bool
  | _, [] => true
  | lo, (a, v) :: m => decide (lo ≤ a) && decide (v ≠ d) && SMap.wfFrom d (a + 1) m

/-- The canonical form: equal stores are equal lists. -/
def SMap.wf {β : Type} [DecidableEq β] (d : β) (m : SMap β) : Bool := SMap.wfFrom d 0 m

/-- Update the entry under key `k`. -/
def SMap.upd {β : Type} [DecidableEq β] (d : β) (m : SMap β) (k : Nat) (f : β → β) : SMap β :=
  SMap.set d m k (f (SMap.get d m k))

/-! ### Bit fields -/

/-- bits(x, hi, lo) of R10 as a number. -/
def fld {n : Nat} (x : BitVec n) (hi lo : Nat) : Nat := (x.extractLsb hi lo).toNat

/-- Bit `i` of `x`. -/
def bitAt {n : Nat} (x : BitVec n) (i : Nat) : Bool := x.getLsbD i

/-- `x` with field hi:lo replaced by the low bits of `v`. -/
def putFld {n : Nat} (x : BitVec n) (hi lo : Nat) (v : Nat) : BitVec n :=
  let mask : BitVec n := BitVec.ofNat n ((2 ^ (hi + 1 - lo) - 1) * 2 ^ lo)
  (x &&& ~~~mask) ||| (BitVec.ofNat n (v % 2 ^ (hi + 1 - lo) * 2 ^ lo))

/-- A 32-bit word from a number. -/
def w32 (v : Nat) : Word := BitVec.ofNat 32 v
/-- A 64-bit word from a number. -/
def w64 (v : Nat) : DWord := BitVec.ofNat 64 v

/-- One if true. -/
def b2n (b : Bool) : Nat := if b then 1 else 0

/-- The signed value of an n-bit field. -/
def sext (n v : Nat) : Int := if v < 2 ^ (n - 1) then (v : Int) else (v : Int) - (2 ^ n : Nat)

/-- A number mod 2^n of a signed value. -/
def unsign (n : Nat) (v : Int) : Nat := (v % ((2 ^ n : Nat) : Int)).toNat

/-- x + 1, holding at 2^n - 1 (R493). -/
def satInc (n x : Nat) : Nat := if x + 1 < 2 ^ n then x + 1 else 2 ^ n - 1

/-! ### Little-endian byte strings (R10) -/

/-- The `n` bytes of `v`, least significant first. -/
def leBytes : Nat → Nat → List Byte
  | 0, _ => []
  | n + 1, v => BitVec.ofNat 8 v :: leBytes n (v / 256)

/-- The number a byte string spells, least significant byte first. -/
def leNat : List Byte → Nat
  | [] => 0
  | b :: bs => b.toNat + 256 * leNat bs

/-- `len` bytes of `bs` from offset `off`, as a number. -/
def leAt (bs : List Byte) (off len : Nat) : Nat := leNat ((bs.drop off).take len)

/-- Overwrite bytes of `bs` from offset `off` with `new`. -/
def spliceBytes (bs : List Byte) (off : Nat) (new : List Byte) : List Byte :=
  bs.take off ++ new.take (bs.length - off) ++ bs.drop (off + new.length)

/-! ### Check codes (R523) -/

/-- Feed one bit, most significant first, into a CRC register of width `n`. -/
def crcBit (n poly reg : Nat) (b : Bool) : Nat :=
  let top := decide (2 ^ (n - 1) ≤ reg)
  let sh := (reg * 2) % 2 ^ n
  if top != b then sh ^^^ poly else sh

/-- Feed the `k` low bits of `v`, highest first. -/
def crcBits (n poly : Nat) : Nat → Nat → Nat → Nat
  | 0, _, reg => reg
  | k + 1, v, reg => crcBits n poly k v (crcBit n poly reg (v.testBit k))

/-- Feed bytes in ascending offset, each most significant bit first. -/
def crcBytes (n poly : Nat) (bs : List Byte) (reg : Nat) : Nat :=
  bs.foldl (fun r b => crcBits n poly 8 b.toNat r) reg

/-- CRC-16 over a byte string. -/
def crc16 (bs : List Byte) : Nat := crcBytes 16 0x1021 bs 0xFFFF
/-- CRC-16 over the `k` low bits of `v`, fed from the highest. -/
def crc16Bits (k v : Nat) : Nat := crcBits 16 0x1021 k v 0xFFFF
/-- CRC-8 over a byte string. -/
def crc8 (bs : List Byte) : Nat := crcBytes 8 0x07 bs 0

/-- Feed one byte, least significant bit first, into the reflected CRC-32C register. -/
def crc32cBits : Nat → Nat → Nat
  | 0, reg => reg
  | k + 1, reg =>
    crc32cBits k (if reg % 2 = 1 then (reg / 2) ^^^ 0x82F63B78 else reg / 2)

/-- CRC-32C over a byte string. -/
def crc32c (bs : List Byte) : Nat :=
  (bs.foldl (fun r b => crc32cBits 8 (r ^^^ b.toNat)) 0xFFFFFFFF) ^^^ 0xFFFFFFFF

/-! ### Serial-number arithmetic (R491) -/

/-- (a - b) mod 2^n. -/
def serialD (n a b : Nat) : Nat := (a + (2 ^ n - b % 2 ^ n)) % 2 ^ n

/-- a is after b. -/
def serialAfter (n a b : Nat) : Bool :=
  let d := serialD n a b
  decide (1 ≤ d) && decide (d ≤ 2 ^ (n - 1) - 1)

/-- a is at b or before it. -/
def serialAtOrBefore (n a b : Nat) : Bool := !(serialAfter n a b)

/-- The signed difference a - b. -/
def serialDiff (n a b : Nat) : Int :=
  let d := serialD n a b
  if d < 2 ^ (n - 1) then (d : Int) else (d : Int) - (2 ^ n : Nat)

/-! ### Lists -/

/-- The numbers below `n`, rising. -/
def upTo (n : Nat) : List Nat := List.range n

/-- Fold over the numbers below `n`, rising. -/
def loopN {α : Type} : Nat → (Nat → α → α) → α → α
  | 0, _, a => a
  | n + 1, f, a => f n (loopN n f a)

end Sys2Proof.Machine
end

