-- ==== Sys2Proof/Machine/RegTable.lean ====
section
/-! DEFINITION. Machine/RegTable.lean: the registers of BAR0 (R487): offsets, access types, implemented bits and
reset values, from the register tables of each chapter. -/
namespace Sys2Proof.Machine

/-- Access types of R11. -/
inductive RegTy where
  | rw | ro | wo | rm | rs | rc
  deriving DecidableEq, Repr

/-- A register or an array of them: first offset, number, distance, whether it is 64 bits wide, type,
implemented bits and reset value. -/
structure RegRow where
  lo : Nat
  ty : RegTy
  cnt : Nat := 1
  stride : Nat := 4
  wide : Bool := false
  mask : Nat := 0xFFFFFFFFFFFFFFFF
  reset : Nat := 0
  deriving DecidableEq, Repr

/-! ### Offsets -/

def rStartStat : Nat := 0x0
def rStartErr : Nat := 0x4
def rReset : Nat := 0x8
def rResetCause : Nat := 0xC
def rImgBase : Nat := 0x1000
def rImgLen : Nat := 0x1008
def rImgCtl : Nat := 0x100C
def rImgStat : Nat := 0x1010
def rImgEvt : Nat := 0x1014
def rAttBase : Nat := 0x1018
def rExpect : Nat := 0x1020
def rImgJob : Nat := 0x1028
def rRcvCmd : Nat := 0x1080
def rRcvStat : Nat := 0x1084
def rSelftest : Nat := 0x1088
def rStepCtr : Nat := 0x2000
def rStepStat : Nat := 0x2008
def rGuardCause : Nat := 0x200C
def rLossScale : Nat := 0x2010
def rStepPoison : Nat := 0x2014
def rStepStash : Nat := 0x2018
def rSlotRedir : Nat := 0x201C
def rSlotDrop : Nat := 0x2020
def rEvtCtl : Nat := 0x7000
def rElogPop : Nat := 0x7004
def rElogStat : Nat := 0x7008
def rMsixTable : Nat := 0x8000
def rPba : Nat := 0x10000
def rHostSeg : Nat := 0x11000
def rSyncCtl : Nat := 0x100000
def rSyncStat : Nat := 0x100004
def rSyncErrStat : Nat := 0x100008
def rSyncErrInfo : Nat := 0x10000C
def rSyncSignals : Nat := 0x100010
def rSyncAttempt : Nat := 0x100018
def rSyncRefused : Nat := 0x100020
def rHwObj : Nat := 0x101000
def rHwVal : Nat := 0x101004
def rHwTmo : Nat := 0x101008
def rHwStat : Nat := 0x10100C
def rUpdCtl : Nat := 0x400000
def rUpdStat : Nat := 0x400004
def rUpdErrInfo : Nat := 0x400008
def rUpdRatioInfo : Nat := 0x40000C
def rUpdLr : Nat := 0x400010
def rUpdGnorm : Nat := 0x400014
def rUpdClip : Nat := 0x400018
def rUpdGradMul : Nat := 0x40001C
def rUpdFinStat : Nat := 0x400020
def rUpdFinStep : Nat := 0x400028
def rUpdJournal : Nat := 0x400030
def rUpdOuterCtr : Nat := 0x400038
def rUpdFrozen : Nat := 0x40003C
def rUpdRatioEx : Nat := 0x400040
def rUpdNonfinite : Nat := 0x400044
def rUpdResidLost : Nat := 0x400048
def rSecMboxCtl : Nat := 0x700000
def rSecMboxStat : Nat := 0x700004
def rSecEvt : Nat := 0x700008
def rSecSlots : Nat := 0x70000C
def rSecCtrs : Nat := 0x700010
def rSecAuthFail : Nat := 0x700014
def rSecLogPop : Nat := 0x700018
def rSecMbox : Nat := 0x701000
def rTelCtl : Nat := 0x800000
def rTelStat : Nat := 0x800004
def rTelRingBase : Nat := 0x800008
def rTelRingLen : Nat := 0x800010
def rTelRingHead : Nat := 0x800014
def rTelFrame : Nat := 0x800100
def rTelWait : Nat := 0x801000
/-- First byte of the window of die n (R487). -/
def cdWin (n : Nat) : Nat := 0x1000000 + n * 0x100000
/-! Offsets within a die's window. -/
def rStrPc : Nat := 0x6000
def rStrStat : Nat := 0x6020
def rStrErr : Nat := 0x6024
def rStrErrInfo : Nat := 0x6028
def rStrCfg : Nat := 0x602C
def rStrErrAddr : Nat := 0x6030
def rStrIssued : Nat := 0x6038
def rStrStep : Nat := 0x6040
def rCdSyncErr : Nat := 0x7000
def rCdSyncErrInfo : Nat := 0x7004
def rCdSyncStale : Nat := 0x7008
def rCdObj : Nat := 0x10000

def rArmPrio : Nat := 0x3000
def rArmStat : Nat := 0x3004
def rArmErr : Nat := 0x3008
def rArmErrCds : Nat := 0x300C
def rArmErrTag : Nat := 0x3010
def rArmTimeout : Nat := 0x3014
def rArmGrants : Nat := 0x3018
def rArmWaitNs : Nat := 0x3020
def rCollCtl : Nat := 0x4000
def rCollStat : Nat := 0x4004
def rCollErr : Nat := 0x4008
def rCollErrInfo : Nat := 0x400C
def rCollErrPeer : Nat := 0x4010
def rCollStale : Nat := 0x4014
def rCollDone : Nat := 0x4018
def rCollStretch : Nat := 0x4020
def rIdLevel : Nat := 0x5000
def rIdErr : Nat := 0x5004
def rIdDie : Nat := 0x5100
def rIdMatrix : Nat := 0x5300
def rLinkCtl : Nat := 0x6000
def rLinkStat : Nat := 0x6004
def rLinkErr : Nat := 0x6008
def rLinkErrInfo : Nat := 0x600C
def rFlitRetry : Nat := 0x6010
def rLinkSteers : Nat := 0x6018
def rLinkHalves : Nat := 0x601C
def rLaneSel : Nat := 0x6020
def rLaneMap : Nat := 0x6040
def rLinkGrp : Nat := 0x6100
def rFabCtl : Nat := 0x200000
def rFabId : Nat := 0x200004
def rFabJob : Nat := 0x200008
def rFabStat : Nat := 0x20000C
def rFabErr : Nat := 0x200010
def rFabErrInfo : Nat := 0x200014
def rFabErrSrc : Nat := 0x200018
def rFabEpoch : Nat := 0x20001C
def rFabEpochCmd : Nat := 0x200020
def rFabLife : Nat := 0x200024
def rFabRto : Nat := 0x200028
def rTxFlits : Nat := 0x200030
def rRxFlits : Nat := 0x200038
def rLinkRetx : Nat := 0x200040
def rE2eRetx : Nat := 0x200048
def rReliefPkts : Nat := 0x200050
def rAddrErr : Nat := 0x200058
def rProtErr : Nat := 0x20005C
def rFabCrc : Nat := 0x200060
def rDropLife : Nat := 0x200064
def rLinkDownCnt : Nat := 0x200068
def rMgmtDrop : Nat := 0x20006C
def rCstoreBase : Nat := 0x200100
def rCstoreSize : Nat := 0x200108
def rCstoreUsed : Nat := 0x20010C
def rRtRack : Nat := 0x208000
def rRtDim : Nat := 0x209000
def portWin (k : Nat) : Nat := 0x300000 + k * 0x10000
/-! Offsets within a port's window. -/
def rPortCtl : Nat := 0x0
def rPortStat : Nat := 0x4
def rPortErr : Nat := 0x8
def rPortErrInfo : Nat := 0xC
def rPortTemp : Nat := 0x10
def rPortShutter : Nat := 0x14
def rFecCw : Nat := 0x18
def rFecSym : Nat := 0x20
def rFecUnc : Nat := 0x28
def rRelocks : Nat := 0x30
def rCalSkip : Nat := 0x34
def rPortCh : Nat := 0x1000
def rPLinkStat : Nat := 0xF000
def rPLinkErr : Nat := 0xF004
def rPLinkInfo : Nat := 0xF008
def rPLinkPeer : Nat := 0xF00C
def rPQuarFib : Nat := 0xF010
def rLsCtl : Nat := 0x360000
def rLsStat : Nat := 0x360004
def rLsErr : Nat := 0x360008
def rLsSerial : Nat := 0x36000C
def rLsFeed : Nat := 0x360010
def rMemCfg : Nat := 0x500000
def rMemStat : Nat := 0x500004
def rMemCtl : Nat := 0x500008
def rMemErr : Nat := 0x50000C
def rMemErrInfo : Nat := 0x500010
def rMemErrAddr : Nat := 0x500018
def rCeTotal : Nat := 0x500020
def rUeTotal : Nat := 0x500028
def rRetired : Nat := 0x50002C
/-- First register of stack n (R264). -/
def stWin (n : Nat) : Nat := 0x501000 + n * 0x40
def rPwrCtl : Nat := 0x600000
def rPwrStat : Nat := 0x600004
def rPwrErr : Nat := 0x600008
def rPwrIn : Nat := 0x60000C
def rPwrShape : Nat := 0x600010
def rPwrCfg : Nat := 0x600014
def rPwrCfg2 : Nat := 0x600018
def rPwrEnergy : Nat := 0x600020
def rPwrThrottle : Nat := 0x600028
def rClkStat : Nat := 0x600100
def rClkErr : Nat := 0x600104
def rMuxInfo : Nat := 0x600108
def rTb : Nat := 0x600110
def rTbStat : Nat := 0x600118
def rTbPhase : Nat := 0x60011C
def rClkCd : Nat := 0x600200
def rPatStat : Nat := 0x600300
def rPatCfg : Nat := 0x600304
def rArrStat : Nat := 0x4000
def rArrErr : Nat := 0x4004
def rArrErrInfo : Nat := 0x4008
def rArrVisits : Nat := 0x4010
def rArrHold : Nat := 0x4018
def rTqCfg : Nat := 0x4020
def rTqShare : Nat := 0x4024
def rTqStat : Nat := 0x4028
def rConvSat : Nat := 0x4030
def rConvNan : Nat := 0x4038
def rVecCfg : Nat := 0x5000
def rVecStat : Nat := 0x5004
def rVecErr : Nat := 0x5008
def rVecErrInfo : Nat := 0x500C
def rVecErrAddr : Nat := 0x5010
def rVecInstr : Nat := 0x5018
def rVecIdxElem : Nat := 0x5020
def rTsErr : Nat := 0x8000
def rTsErrInfo : Nat := 0x8004
def rTsCe : Nat := 0x8008

/-! ### The tables -/

/-- MOD window: start, image, step, events, MSI-X, BAR2 segments (R443, R74, R486, R484, R479). -/
def modRows : List RegRow := [
  { lo := rStartStat, ty := .ro }, { lo := rStartErr, ty := .rs, mask := 0x7FF },
  { lo := rReset, ty := .wo }, { lo := rResetCause, ty := .ro },
  { lo := rImgBase, ty := .rw, wide := true, mask := 0xFFFFFFFFFFFFF000 }, { lo := rImgLen, ty := .rw },
  { lo := rImgCtl, ty := .rm, mask := 1 }, { lo := rImgStat, ty := .ro },
  { lo := rImgEvt, ty := .rs, mask := 0x3F }, { lo := rAttBase, ty := .rw, wide := true },
  { lo := rExpect, ty := .rw, wide := true }, { lo := rImgJob, ty := .ro },
  { lo := rRcvCmd, ty := .rw, mask := 0xFFF0FFFF }, { lo := rRcvStat, ty := .ro },
  { lo := rSelftest, ty := .ro },
  { lo := rStepCtr, ty := .ro, wide := true }, { lo := rStepStat, ty := .rs, mask := 0x3FF },
  { lo := rGuardCause, ty := .ro, reset := 0xFFFFFF00 }, { lo := rLossScale, ty := .ro },
  { lo := rStepPoison, ty := .ro }, { lo := rStepStash, ty := .ro, reset := 0xFFFF0000 },
  { lo := rSlotRedir, ty := .ro }, { lo := rSlotDrop, ty := .ro },
  { lo := rEvtCtl, ty := .rm, mask := 0x7F }, { lo := rElogPop, ty := .rc }, { lo := rElogStat, ty := .ro },
  { lo := rMsixTable, ty := .rw, cnt := 2048, stride := 16, mask := 0xFFFFFFFC },
  { lo := rMsixTable + 4, ty := .rw, cnt := 2048, stride := 16 },
  { lo := rMsixTable + 8, ty := .rw, cnt := 2048, stride := 16 },
  { lo := rMsixTable + 12, ty := .rw, cnt := 2048, stride := 16, mask := 1, reset := 1 }, { lo := rPba, ty := .ro, cnt := 64 },
  { lo := rHostSeg, ty := .rw, cnt := 64, stride := 8, wide := true, mask := 0xFFFFFFFFFF000003 } ]

/-- SYNC window (R233). -/
def syncRows : List RegRow := [
  { lo := rSyncCtl, ty := .rm, mask := 3, reset := 2 }, { lo := rSyncStat, ty := .ro },
  { lo := rSyncErrStat, ty := .rs, mask := 0xFF }, { lo := rSyncErrInfo, ty := .ro },
  { lo := rSyncSignals, ty := .ro, wide := true }, { lo := rSyncAttempt, ty := .ro, wide := true },
  { lo := rSyncRefused, ty := .ro },
  { lo := rHwObj, ty := .rw, cnt := 1024, stride := 16, mask := 0xC3FFFFFF, reset := 0x200000 },
  { lo := rHwVal, ty := .rw, cnt := 1024, stride := 16, mask := 0x7FFFFFFF, reset := 1 },
  { lo := rHwTmo, ty := .rw, cnt := 1024, stride := 16 },
  { lo := rHwStat, ty := .ro, cnt := 1024, stride := 16 } ]

/-- UPD window (R294). -/
def updRows : List RegRow := [
  { lo := rUpdCtl, ty := .rm, mask := 7 }, { lo := rUpdStat, ty := .rs, mask := 0x7FF },
  { lo := rUpdErrInfo, ty := .ro, reset := 0xFFFFFF00 }, { lo := rUpdRatioInfo, ty := .ro, reset := 0xFFFF0000 },
  { lo := rUpdLr, ty := .ro }, { lo := rUpdGnorm, ty := .ro }, { lo := rUpdClip, ty := .ro },
  { lo := rUpdGradMul, ty := .ro }, { lo := rUpdFinStat, ty := .ro, reset := 0xFFFF },
  { lo := rUpdFinStep, ty := .ro, wide := true }, { lo := rUpdJournal, ty := .ro, wide := true },
  { lo := rUpdOuterCtr, ty := .ro }, { lo := rUpdFrozen, ty := .ro }, { lo := rUpdRatioEx, ty := .ro },
  { lo := rUpdNonfinite, ty := .ro }, { lo := rUpdResidLost, ty := .ro } ]

/-- SEC and TEL windows (R509, R495 to R497). -/
def secTelRows : List RegRow := [
  { lo := rSecMboxCtl, ty := .rw, mask := 0x80001FFF }, { lo := rSecMboxStat, ty := .ro },
  { lo := rSecEvt, ty := .rs, mask := 0xFF }, { lo := rSecSlots, ty := .ro }, { lo := rSecCtrs, ty := .ro },
  { lo := rSecAuthFail, ty := .rc }, { lo := rSecLogPop, ty := .rc },
  { lo := rSecMbox, ty := .rw, cnt := 1024 },
  { lo := rTelCtl, ty := .rm, mask := 3 }, { lo := rTelStat, ty := .ro },
  { lo := rTelRingBase, ty := .rw, wide := true, mask := 0xFFFFFFFFFFFFF000 },
  { lo := rTelRingLen, ty := .rw, mask := 0x1F, reset := 4 }, { lo := rTelRingHead, ty := .ro },
  { lo := rTelFrame, ty := .ro, cnt := 64 },
  { lo := rTelWait, ty := .ro, cnt := 768, stride := 8, wide := true } ]

/-- Armature, collective engine, identity and die links in the MOD window (R108, R364, R414, R413). -/
def modUnitRows : List RegRow := [
  { lo := rArmPrio, ty := .ro, reset := 6 }, { lo := rArmStat, ty := .ro, reset := 0xFFFFFF },
  { lo := rArmErr, ty := .rs, mask := 3 }, { lo := rArmErrCds, ty := .ro }, { lo := rArmErrTag, ty := .ro },
  { lo := rArmTimeout, ty := .ro }, { lo := rArmGrants, ty := .ro, wide := true },
  { lo := rArmWaitNs, ty := .ro, wide := true },
  { lo := rCollCtl, ty := .rm, mask := 1 }, { lo := rCollStat, ty := .ro },
  { lo := rCollErr, ty := .rs, mask := 0x1F }, { lo := rCollErrInfo, ty := .ro }, { lo := rCollErrPeer, ty := .ro },
  { lo := rCollStale, ty := .ro }, { lo := rCollDone, ty := .ro, wide := true },
  { lo := rCollStretch, ty := .ro, wide := true },
  { lo := rIdLevel, ty := .ro, reset := 0xFF }, { lo := rIdErr, ty := .rs, mask := 0x1F },
  { lo := rIdDie, ty := .ro, cnt := 128 }, { lo := rIdMatrix, ty := .ro, cnt := 64 },
  { lo := rLinkCtl, ty := .rm, mask := 3 }, { lo := rLinkStat, ty := .ro },
  { lo := rLinkErr, ty := .rs, mask := 0x7F }, { lo := rLinkErrInfo, ty := .ro },
  { lo := rFlitRetry, ty := .ro, wide := true }, { lo := rLinkSteers, ty := .ro }, { lo := rLinkHalves, ty := .ro },
  { lo := rLaneSel, ty := .rw, mask := 0x3FF }, { lo := rLaneMap, ty := .ro, cnt := 17, reset := 0xC0C0C0C0 },
  { lo := rLinkGrp, ty := .ro, cnt := 688, reset := 0x80000000 } ]

/-- FAB window (R331). -/
def fabRows : List RegRow := [
  { lo := rFabCtl, ty := .rm, mask := 7 }, { lo := rFabId, ty := .ro }, { lo := rFabJob, ty := .ro },
  { lo := rFabStat, ty := .ro }, { lo := rFabErr, ty := .rs, mask := 0xFFF }, { lo := rFabErrInfo, ty := .ro },
  { lo := rFabErrSrc, ty := .ro }, { lo := rFabEpoch, ty := .ro }, { lo := rFabEpochCmd, ty := .wo },
  { lo := rFabLife, ty := .ro, reset := 100 * 65536 + 20 },
  { lo := rFabRto, ty := .ro, reset := 8 * 0x10000000 + 4 * 0x1000000 + 100 * 4096 + 20 },
  { lo := rTxFlits, ty := .ro, wide := true }, { lo := rRxFlits, ty := .ro, wide := true },
  { lo := rLinkRetx, ty := .ro, wide := true }, { lo := rE2eRetx, ty := .ro, wide := true },
  { lo := rReliefPkts, ty := .ro, wide := true },
  { lo := rAddrErr, ty := .ro }, { lo := rProtErr, ty := .ro }, { lo := rFabCrc, ty := .ro },
  { lo := rDropLife, ty := .ro }, { lo := rLinkDownCnt, ty := .ro }, { lo := rMgmtDrop, ty := .ro },
  { lo := rCstoreBase, ty := .ro, cnt := 2, stride := 16, wide := true },
  { lo := rCstoreSize, ty := .ro, cnt := 2, stride := 16 }, { lo := rCstoreUsed, ty := .ro, cnt := 2, stride := 16 },
  { lo := rRtRack, ty := .rw, cnt := 1024 }, { lo := rRtDim, ty := .rw, cnt := 10, stride := 8, wide := true } ]

/-- Channels of a port: 256 for A, 128 for B, 64 for C (R366, R391). -/
def portChans (k : Nat) : Nat := if k < 2 then 256 else if k < 4 then 128 else 64

/-- One port's registers (R391, R365). -/
def portRowsOf (k : Nat) : List RegRow := [
  { lo := portWin k + rPortCtl, ty := .rm, mask := 3 }, { lo := portWin k + rPortStat, ty := .ro },
  { lo := portWin k + rPortErr, ty := .rs, mask := 0xFF }, { lo := portWin k + rPortErrInfo, ty := .ro },
  { lo := portWin k + rPortTemp, ty := .ro }, { lo := portWin k + rPortShutter, ty := .ro, reset := 0xFFFF },
  { lo := portWin k + rFecCw, ty := .ro, wide := true }, { lo := portWin k + rFecSym, ty := .ro, wide := true },
  { lo := portWin k + rFecUnc, ty := .ro, wide := true }, { lo := portWin k + rRelocks, ty := .ro },
  { lo := portWin k + rCalSkip, ty := .ro },
  { lo := portWin k + rPortCh, ty := .ro, cnt := portChans k, stride := 16 },
  { lo := portWin k + rPortCh + 4, ty := .ro, cnt := portChans k, stride := 16 },
  { lo := portWin k + rPortCh + 8, ty := .ro, cnt := portChans k, stride := 16, reset := 0x80008000 },
  { lo := portWin k + rPortCh + 12, ty := .ro, cnt := portChans k, stride := 16 },
  { lo := portWin k + rPLinkStat, ty := .ro }, { lo := portWin k + rPLinkErr, ty := .rs, mask := 0xFF },
  { lo := portWin k + rPLinkInfo, ty := .ro }, { lo := portWin k + rPLinkPeer, ty := .ro, reset := 0xFFFF0000 },
  { lo := portWin k + rPQuarFib, ty := .ro } ]

/-- PORT window (R391, R365, R392). -/
def portRows : List RegRow :=
  portRowsOf 0 ++ portRowsOf 1 ++ portRowsOf 2 ++ portRowsOf 3 ++ portRowsOf 4 ++ portRowsOf 5 ++
  [ { lo := rLsCtl, ty := .rm, mask := 1 }, { lo := rLsStat, ty := .ro }, { lo := rLsErr, ty := .rs, mask := 0xFF },
    { lo := rLsSerial, ty := .ro }, { lo := rLsFeed, ty := .ro, cnt := 14, reset := 0x8000F000 } ]

/-- MEM window (R264). -/
def memRows : List RegRow := [
  { lo := rMemCfg, ty := .ro }, { lo := rMemStat, ty := .ro }, { lo := rMemCtl, ty := .rm, mask := 3 },
  { lo := rMemErr, ty := .rs, mask := 0xFFF }, { lo := rMemErrInfo, ty := .ro, reset := 0xF8000000 },
  { lo := rMemErrAddr, ty := .ro, wide := true }, { lo := rCeTotal, ty := .ro, wide := true },
  { lo := rUeTotal, ty := .ro }, { lo := rRetired, ty := .ro },
  { lo := stWin 0, ty := .ro, cnt := 24, stride := 64 }, { lo := stWin 0 + 4, ty := .ro, cnt := 24, stride := 64 },
  { lo := stWin 0 + 8, ty := .ro, cnt := 24, stride := 64 }, { lo := stWin 0 + 0xC, ty := .ro, cnt := 24, stride := 64 },
  { lo := stWin 0 + 0x10, ty := .ro, cnt := 24, stride := 64, wide := true },
  { lo := stWin 0 + 0x18, ty := .ro, cnt := 24, stride := 64 }, { lo := stWin 0 + 0x1C, ty := .ro, cnt := 24, stride := 64 },
  { lo := stWin 0 + 0x20, ty := .ro, cnt := 24, stride := 64, wide := true },
  { lo := stWin 0 + 0x28, ty := .ro, cnt := 24, stride := 64 } ]

/-- CLK/PWR window (R454, R467, R473, R476). -/
def clkRows : List RegRow := [
  { lo := rPwrCtl, ty := .rm, mask := 7 }, { lo := rPwrStat, ty := .ro }, { lo := rPwrErr, ty := .rs, mask := 0x3FF },
  { lo := rPwrIn, ty := .ro }, { lo := rPwrShape, ty := .ro },
  { lo := rPwrCfg, ty := .ro, reset := 4400 * 0x80000 + 400 * 64 + 20 },
  { lo := rPwrCfg2, ty := .ro, reset := 200 * 0x80000 + 85 * 0x1000 + 8 * 32 },
  { lo := rPwrEnergy, ty := .ro, wide := true }, { lo := rPwrThrottle, ty := .ro, wide := true },
  { lo := rClkStat, ty := .ro }, { lo := rClkErr, ty := .rs, mask := 0xFFF },
  { lo := rMuxInfo, ty := .ro, reset := 0xFC000000 },
  { lo := rTb, ty := .ro, wide := true }, { lo := rTbStat, ty := .ro }, { lo := rTbPhase, ty := .ro },
  { lo := rClkCd, ty := .ro, cnt := 24 }, { lo := rPatStat, ty := .ro },
  { lo := rPatCfg, ty := .ro, reset := 24 * 0x1000000 + 10 * 0x4000 + 10 * 16 } ]

/-- Registers of a die's window, by offset within it. -/
def cdRows : List RegRow := [
  { lo := rArrStat, ty := .ro }, { lo := rArrErr, ty := .rs, mask := 0x3F }, { lo := rArrErrInfo, ty := .ro },
  { lo := rArrVisits, ty := .ro, wide := true }, { lo := rArrHold, ty := .ro, wide := true },
  { lo := rTqCfg, ty := .ro }, { lo := rTqShare, ty := .ro }, { lo := rTqStat, ty := .ro },
  { lo := rConvSat, ty := .ro, wide := true }, { lo := rConvNan, ty := .ro, wide := true },
  { lo := rVecCfg, ty := .ro, reset := 0xC6000000 }, { lo := rVecStat, ty := .ro }, { lo := rVecErr, ty := .rs, mask := 0x1FF },
  { lo := rVecErrInfo, ty := .ro }, { lo := rVecErrAddr, ty := .ro, wide := true },
  { lo := rVecInstr, ty := .ro, wide := true }, { lo := rVecIdxElem, ty := .ro, wide := true },
  { lo := rTsErr, ty := .rs, mask := 3 }, { lo := rTsErrInfo, ty := .ro }, { lo := rTsCe, ty := .ro, wide := true },
  { lo := rStrPc, ty := .ro, cnt := 4, stride := 8, wide := true }, { lo := rStrStat, ty := .ro },
  { lo := rStrErr, ty := .rs, mask := 0xFFF }, { lo := rStrErrInfo, ty := .ro },
  { lo := rStrCfg, ty := .ro, reset := 0x1111 }, { lo := rStrErrAddr, ty := .ro, wide := true },
  { lo := rStrIssued, ty := .ro, wide := true }, { lo := rStrStep, ty := .ro, cnt := 4, stride := 8, wide := true },
  { lo := rCdSyncErr, ty := .rs, mask := 0x1F }, { lo := rCdSyncErrInfo, ty := .ro },
  { lo := rCdSyncStale, ty := .ro }, { lo := rCdObj, ty := .ro, cnt := 16384 } ]

/-- Every register outside the dies' windows. -/
def topRows : List RegRow :=
  modRows ++ modUnitRows ++ syncRows ++ fabRows ++ portRows ++ updRows ++ memRows ++ clkRows ++ secTelRows

/-- The distance between the registers of a row: at least the width of one. -/
def rowStride (r : RegRow) : Nat := if r.wide then max 8 r.stride else r.stride

/-- The row that covers byte offset `off`, if it is the offset of a register word. -/
def rowIn (rows : List RegRow) (off : Nat) : Option RegRow :=
  rows.find? fun r =>
    decide (r.lo ≤ off) &&
      (let k := (off - r.lo) / rowStride r
       let o := (off - r.lo) % rowStride r
       decide (k < r.cnt) && (decide (o = 0) || (r.wide && decide (o = 4))))

/-- The row of BAR0 offset `off`; none where the offset is reserved (R487). -/
def regRow (off : Nat) : Option RegRow :=
  if 0x1000000 ≤ off ∧ off < 0x1000000 + 24 * 0x100000 then rowIn cdRows ((off - 0x1000000) % 0x100000)
  else rowIn topRows off

/-- Offset of `off` from the first word of its row. -/
def rowRel (r : RegRow) (off : Nat) : Nat :=
  let o := if 0x1000000 ≤ off then (off - 0x1000000) % 0x100000 else off
  (o - r.lo) % rowStride r

/-- `off` is the high word of a 64-bit register. -/
def isHighWord (off : Nat) : Bool :=
  match regRow off with
  | some r => r.wide && decide (rowRel r off = 4)
  | none => false

/-- `off` is the low word of a 64-bit register. -/
def isLowWord (off : Nat) : Bool :=
  match regRow off with
  | some r => r.wide && decide (rowRel r off = 0)
  | none => false

/-- The reset value of the word at `off`. -/
def resetWord (off : Nat) : Word :=
  match regRow off with
  | some r => if rowRel r off = 4 ∧ r.wide then w32 (r.reset / 2 ^ 32) else w32 r.reset
  | none => 0

/-- The implemented bits of the word at `off`; reserved bits read 0 (R14). -/
def maskWord (off : Nat) : Word :=
  match regRow off with
  | some r => if rowRel r off = 4 ∧ r.wide then w32 (r.mask / 2 ^ 32) else w32 r.mask
  | none => 0

end Sys2Proof.Machine
end

