-- ==== Sys2Proof/Machine/State.lean ====
section
/-! DEFINITION. Machine/State.lean: everything the spec gives the module, as plain data, and its reset values. -/
namespace Sys2Proof.Machine
open Sys2Proof

/-! ### Registers -/

/-- A sequence-cleared status register (R11, R489): SEQ, the events, and the stamp of each event bit. -/
structure RsReg where
  seq : Byte := 0
  ev : BitVec 24 := 0
  stamps : Vector Byte 24 := Vector.replicate 24 0
  deriving DecidableEq, Repr

/-- What one master holds of a 64-bit access (R16): the held low half and the latched high half. -/
structure MasterPort where
  held : Option (Nat × Word) := none
  latch : Word := 0
  deriving DecidableEq, Repr

/-! ### What leaves the module -/

/-- How a PCIe or internal access ends (R481). -/
inductive Status where
  | sc | ca | ep | ur
  deriving DecidableEq, Repr

/-- What the module sends or drives, newest first in State.out. -/
inductive Output where
  /-- The completion of an access, with the value read. -/
  | completion (m : Master) (st : Status) (data : List Byte)
  /-- A bus error exception of an internal master (R15). -/
  | busError (m : Master)
  /-- An entry of the AER log (R481). -/
  | aer (kind : String)
  /-- An MSI-X message (R484). -/
  | msix (v : Nat)
  /-- A PLDM platform event message (R499). -/
  | pldmEvent (cls : Nat)
  /-- A fabric packet, with the channel it leaves on; none where the choice is left to the router. -/
  | packet (p : Packet) (ch : Option Chan)
  /-- A link control word. -/
  | linkControl (w : Lcw)
  /-- A write to host memory. -/
  | hostWrite (addr : Nat) (data : List Byte)
  /-- A read request to host memory. -/
  | hostRead (tag : Nat) (addr len : Nat)
  /-- A response on a management path (R500). -/
  | response (path : Path) (status : Nat) (body : List Byte)
  /-- A write over the LS I3C bus (R372). -/
  | lsWrite (reg : Nat) (v : Nat)
  /-- A command to the high-voltage side (R444). -/
  | hv (shutdown : Bool)
  /-- The LS_EN pin (R372). -/
  | lsEn (on : Bool)
  /-- A control command on a die link (R396). -/
  | flitCmd (g : Nat) (cmd : Nat) (arg : Nat)
  /-- A flit resent on a die link (R397). -/
  | flit (g : Nat) (fseq : Nat)
  deriving DecidableEq, Repr

/-! ### Synchronisation objects (07) -/

/-- A waiter of an object (R219): who, TAKE or AT_LEAST, the value, and the deadline if it has one. -/
structure Waiter where
  who : Who
  take : Bool
  v : Nat
  deadline : Option Nat
  deriving DecidableEq, Repr

/-- A sync object (R208). AHEAD is used by die-local objects only. Waiters stand in arrival order. -/
structure SyncObj where
  count : Nat := 0
  gen : Half := 0
  err : Bool := false
  cause : BitVec 4 := 0
  ahead : Nat := 0
  waiters : List Waiter := []
  deriving DecidableEq, Repr

/-- The module-global objects and the host access classes of the active image (R229). -/
structure SyncState where
  glob : SMap SyncObj := []
  classes : SMap (BitVec 2) := []
  deriving DecidableEq, Repr

/-! ### Streams (06) -/

/-- STATE of CDnn_STR_STAT (R206). -/
inductive StrSt where
  | idle | issuing | waitSync | waitUnit | waitGang | waitVerdict | poisonPath | held
  deriving DecidableEq, Repr

/-- The unit a descriptor in progress occupies (R193). -/
inductive DescUnit where
  | array | vector | move | signal | collective
  deriving DecidableEq, Repr

/-- A descriptor in progress: its number in the stream, unit, words, address, the SEQ expected there, and
whether a stream reset took its DONE signal away (R205); `bad` says that a move met an error (R187), `onPath` that
the descriptor issued on the poison path (R204). -/
structure InFlight where
  id : Nat
  unit : DescUnit
  desc : BitVec 512
  addr : DWord
  seq : Half
  silent : Bool := false
  bad : Bool := false
  onPath : Bool := false
  deriving DecidableEq, Repr

/-- One stream of a die (R171, R206). `cur` is the descriptor fetched and not yet issued; `attempt` is the
attempt number of the step it is in, or last ended. -/
structure Stream where
  st : StrSt := .idle
  prologue : Bool := false
  faulted : Bool := false
  pc : DWord := 0
  step : DWord := 0
  attempt : DWord := 0
  inBody : Bool := false
  begunAny : Bool := false
  poison : Bool := false
  expect : Half := 0
  cur : Option (BitVec 512) := none
  endAddr : DWord := 0
  endSeq : Half := 0
  inflight : List InFlight := []
  nextId : Nat := 0
  waiter : Nat := 0
  waitRef : Option ObjRef := none
  pass2 : Bool := false
  fabricWait : Bool := false
  tqWait : Bool := false
  deriving DecidableEq, Repr

/-- One value for each stream of a die. -/
structure PerStream (α : Type) where
  f : α
  b : α
  u : α
  t : α
  deriving DecidableEq, Repr

/-! ### The matrix array (03) -/

/-- A finished tile: its stream, header fields (R101) and FP32 data, row by row; a compensated-pair tile
holds lo in `lo`, an FP64 tile (`fp64`, R130) the high halves of its elements. -/
structure Tile where
  c : Sid
  tag : Half
  flags : Nat
  kpart : Nat
  mb : Nat
  nb : Nat
  rows : Nat
  cols : Nat
  nf : Nat
  hi : List Word
  lo : List Word
  last : Bool
  id : Nat
  fp64 : Bool
  deriving DecidableEq, Repr

/-- The state of a queue entry (R102). -/
inductive TqSt where
  | filling | ready | held
  deriving DecidableEq, Repr

/-- An entry of the finished-tile queue; `drop` marks one that is freed when its drain ends (R107). -/
structure TqEntry where
  st : TqSt
  seq : Nat
  slot : Nat
  tile : Tile
  drop : Bool := false
  deriving DecidableEq, Repr

/-- The array operation in progress on a die: its stream, descriptor and the next item to compute; `reset` says that
a stream reset waits for its boundary (R91). -/
structure ArrOp where
  c : Sid
  desc : BitVec 512
  id : Nat
  next : Nat
  ends : Nat
  poison : Bool
  reset : Bool := false
  deriving DecidableEq, Repr

/-- What a set of stationary registers holds (R75): the format of its elements, and their codes, stored row by stored
row over the valid rows and columns of one visit. -/
structure Stationary where
  fmt : Nat
  codes : List Nat
  deriving DecidableEq, Repr

/-- The array of one die: ready wires with their tags, the operation in progress, the active and shadow stationary
registers of its cells, the accumulator buffers and the finished-tile queue; `holdAcc` is the part of a cycle of hold not yet counted, in 1/8,000; `pushed` counts the entries pushed for each stream since activation. -/
structure ArrayUnit where
  ready : PerStream (Option Half) := ⟨none, none, none, none⟩
  op : Option ArrOp := none
  active : Option Stationary := none
  shadow : Option Stationary := none
  hold : Bool := false
  holdAcc : Nat := 0
  acc : List Tile := []
  draining : Bool := false
  queue : List TqEntry := []
  pushed : SMap Nat := []
  deriving DecidableEq, Repr

/-! ### The vector engine (05) -/

/-- A loop of a vector context: first instruction of the body and iterations left. -/
structure LoopFrame where
  start : Nat
  left : Nat
  deriving DecidableEq, Repr

/-- One vector context (R139). Vector registers are stored by 2,048 × register + lane, masks as 2,048 bits. -/
structure VCtx where
  running : Bool := false
  pc : Nat := 0
  vl : Nat := 2048
  sregs : SMap DWord := []
  vregs : SMap Word := []
  masks : Vector (BitVec 2048) 8 := Vector.replicate 8 0
  loops : List LoopFrame := []
  layer : Half := 0
  params : List DWord := []
  loadUe : Bool := false
  id : Nat := 0
  waitTq : Bool := false
  faulted : Bool := false
  deriving DecidableEq, Repr

/-- A compute die: its streams, array, vector contexts, program store, tile store with its uncorrectable
words, and die-local sync objects with the generation an unlisted one holds. -/
structure DieState where
  str : PerStream Stream := ⟨{}, {}, {}, {}⟩
  arr : ArrayUnit := {}
  ctx : PerStream VCtx := ⟨{}, {}, {}, {}⟩
  prog : SMap DWord := []
  ts : SMap Byte := []
  tsUe : List Nat := []
  tsCe : List Nat := []
  objs : SMap SyncObj := []
  objGen : Half := 0
  out : Bool := false
  coreReset : Bool := true
  deriving DecidableEq, Repr

/-! ### The step unit and the training step (02) -/

/-- A step's verdict (R50, R52). -/
inductive Verdict where
  | clear | poison | indeterminate
  deriving DecidableEq, Repr

/-- What the step unit keeps of one attempt (R48, R73, R198): the streams (4 × die + stream) that have begun
and ended it, the guard record, and what the step record carries; `recompute` lists the layers whose recompute flag is
set, `recomputed` those recomputed. -/
structure Attempt where
  att : DWord
  step : DWord
  begun : List Nat := []
  ended : List Nat := []
  verdict : Option Verdict := none
  causes : BitVec 7 := 0
  layer : Half := 0xFFFF
  cd : Byte := 0xFF
  tStart : DWord := 0
  lossExp : Int := 0
  loss : Option Word := none
  gnorm : Word := 0
  firstCkpt : Half := 0xFFFF
  recompute : List Nat := []
  recomputed : List Nat := []
  stashFallback : Bool := false
  stashOverflow : Bool := false
  committed : Bool := false
  finisher : Bool := false
  recorded : Bool := false
  repeatAt : Option Nat := none
  inputDone : Bool := false
  normed : Bool := false
  deriving DecidableEq, Repr

/-- The expert pairs of one layer in the most recent step (R68). -/
structure SlotCount where
  layer : Nat
  assigned : Word
  redirected : Word
  dropped : Word
  deriving DecidableEq, Repr

/-- The step unit (R74, R198 to R201). `poolFree` is the stash pool in pages of each stack (R57), `poolLost` the stacks of pages
that leave it with the next step (R256), and `stash` the pages that each attempt and layer holds. -/
structure StepUnit where
  ctr : DWord := 0
  lossE : Int := 0
  cleanRun : Nat := 0
  poisonTotal : Nat := 0
  poisonRun : Nat := 0
  attempts : List Attempt := []
  remotePoison : List (DWord × BitVec 7) := []
  endedSteps : Nat := 0
  first : DWord := 0
  stopStep : Option DWord := none
  pollPeer : Nat := 0
  pollAt : Option Nat := none
  resolveAt : Option Nat := none
  resolveFailed : Bool := false
  poolFree : List Nat := []
  poolLost : List Nat := []
  stash : List (DWord × Nat × List Nat) := []
  slotCounts : List SlotCount := []
  deriving DecidableEq, Repr

/-- The state of one Maquette slot (R69, R71): the layer and step it holds, whether its copy is complete, and
the bytes sent and acknowledged of its export. -/
structure MaqSlot where
  layer : Nat
  step : DWord
  copied : Bool
  sent : Nat := 0
  acked : Nat := 0
  deriving DecidableEq, Repr

/-- The Pointing engine: slots in use, the layers of snapshot steps committed and not yet copied, the layers of
the last snapshot step already listed, and the layers whose slots have been freed, by step. -/
structure Maquette where
  slots : SMap (Option MaqSlot) := []
  toCopy : List (DWord × Nat) := []
  notedStep : DWord := 0
  noted : List Nat := []
  freed : List (DWord × Nat) := []
  held : Bool := false
  deriving DecidableEq, Repr

/-! ### The job image (14) -/

/-- STATE of MOD_IMG_STAT (R443). -/
inductive ImgSt where
  | none | verifying | loading | prologue | running | stopping | shadow
  deriving DecidableEq, Repr

/-- The image unit: state and causes (`lastStop` that of the last image that stopped), the latched activation (R433), and
the tables of the active image; `colls` are the COLLECTIVE descriptors of its T streams. -/
structure ImageState where
  st : ImgSt := .none
  refuse : Nat := 0
  stop : Nat := 0
  lastStop : Nat := 0
  stopReq : Bool := false
  halt : Bool := false
  base : DWord := 0
  len : Nat := 0
  attBase : DWord := 0
  expect : DWord := 0
  jobId : Half := 0
  rank : Half := 0
  svn : Nat := 0
  keySlot : Nat := 0
  digest : BitVec 512 := 0
  isShadow : Bool := false
  sec : Option JobSections := none
  ranks : SMap Half := []
  channels : List Byte := []
  layers : List (BitVec 1024) := []
  colls : List (Fin 24 × BitVec 512) := []
  deriving DecidableEq, Repr

/-! ### The parameter update (09) -/

/-- CASE of UPD_FIN_STAT (R294). -/
inductive FinCase where
  | idle | replay | shadow | finish
  deriving DecidableEq, Repr

/-- The pass 2 in progress: step and attempt, the constants of R272 and R273, and whether the step is an outer
step. -/
structure Pass2 where
  step : DWord
  att : DWord
  lr : Word
  gc : Word
  outer : Bool
  deriving DecidableEq, Repr

/-- A C-axis exchange of the outer step (R284, R285): its LAYER, where its blocks were sent from and land, the
bytes of one site's block, and whether it has completed. -/
structure OuterPend where
  layer : Half
  src : Nat
  dst : Nat
  len : Nat
  ready : Bool
  deriving DecidableEq, Repr

/-- Phase 2 of the matrix rule on this module's shard of a matrix (R274): the descriptor; how many sums over the A axis have
been made, the sum of squares first; the address the next was sent from, while it is on its way; the operands of the
iterations, row by row; and the new momentum of every element. -/
structure NsRun where
  i : Nat
  sums : Nat
  src : Option Nat
  x : List (List Word)
  un : List Word
  deriving DecidableEq, Repr

/-- The update unit. The chunk sums of R268 and R279, the chunks partly written and the tiles whose outer step
is done are keyed 2^32 × descriptor + chunk. `hold` is what phase 2 of the matrix rule left for phase 3, element
by element; `signalled` the global objects the U streams have signalled since the verdict; `replay` the image
that a journal replay works from; `rehome` the tiles still to be re-homed in the prologue (R42). `redPeers` are the B-axis
peers of the gradient reductions of each attempt (R268), `ns` the matrices in several shards that phase 2 works on, `jerr`
says that a write of the journal was refused (R263), `lost` are the sites that a C-axis exchange lost, and `seek` the LAYERs
of which the Finisher asks the peers after a collective of theirs ended in error (R286). `shadowAtt` is the site's attempt that
a shadow image follows, with whether the gradients and the gathered masters of its step have come (R442). -/
structure UpdState where
  gPairs : SMap (Word × Word) := []
  wPairs : SMap (Word × Word) := []
  dPairs : SMap (Word × Word) := []
  p2 : Option Pass2 := none
  hold : List (Nat × List (Word × Word)) := []
  tiles : List Nat := []
  partly : List Nat := []
  signalled : List Nat := []
  pend : List OuterPend := []
  fault : Bool := false
  fin : FinCase := .idle
  finRun : Nat := 0
  finWaitStack : Bool := false
  tries : Nat := 0
  replay : Option ImageState := none
  rehome : List Nat := []
  redPeers : List (DWord × Half) := []
  ns : List NsRun := []
  jerr : Bool := false
  lost : List Nat := []
  seek : List Nat := []
  shadowAtt : DWord := 0
  shadowGot : Bool := false
  shadowOuter : Bool := false
  deriving DecidableEq, Repr

/-! ### Module memory (08) -/

/-- A row with correctable errors (R254) and the times of its errors within one scrub period, newest first. -/
structure CeRow where
  row : Nat
  hits : List Nat
  deriving DecidableEq, Repr

/-- A memory stack and its controller; `scrubPass` counts whole scrubs. Rows are numbered ((pc × 16 + bank) × 2^32 + row). -/
structure StackState where
  inService : Bool := false
  point : Nat := 0
  rateLow : Bool := false
  chanOut : BitVec 32 := 0
  chanPend : BitVec 32 := 0
  band : Nat := 0
  emergency : Bool := false
  tempMax : Nat := 0
  tempNow : Nat := 0
  lastValid : Nat := 0
  everValid : Bool := false
  ceRows : List CeRow := []
  remap : SMap (Option Nat) := []
  repaired : List Nat := []
  repairs : List Nat := []
  hard : Nat := 0
  soft : Nat := 0
  reserveUsed : Nat := 0
  spareRows : Nat := 1
  usedSpares : SMap Nat := []
  fails : Nat := 0
  tempBand : Nat := 0
  scrubPos : Nat := 0
  scrubPass : Nat := 0
  deriving DecidableEq, Repr

/-- Module memory. Bytes are keyed 2^36 × stack + stack offset (after the page remap); granules by that
key divided by 64. `ue` and `ce` are the granules whose cells have lost or flipped bits. -/
structure MemState where
  variant : Bool := false
  hbm : SMap Byte := []
  poison : SMap Bool := []
  ue : SMap Bool := []
  ce : SMap Bool := []
  parity : Nat := 0
  rowCeLimit : Nat := 4
  scrubHours : Nat := 24
  bandOffsets : List Nat := []
  st : Vector StackState 24 := Vector.replicate 24 {}
  spread : Nat := 0
  reserve : Nat := 0
  slow : Bool := false
  slowRepeat : Option Nat := none
  peerSlow : SMap Nat := []
  held : List (Nat × List Byte) := []
  deriving DecidableEq, Repr

/-! ### The host interface (16) -/

/-- A coalescing window of a module-event vector (R486): its end, and whether an event arrived within it. -/
structure Window where
  ends : Nat
  event : Bool
  deriving DecidableEq, Repr

/-- A read the module has outstanding to host memory (R482): who asked, and when it times out. -/
structure HostRead where
  tag : Nat
  req : Packet
  ch : Chan
  deadline : Nat
  deriving DecidableEq, Repr

/-- The PCIe endpoint, MSI-X and the error log. -/
structure HostState where
  host : MasterPort := {}
  bmc : MasterPort := {}
  msd : MasterPort := {}
  plinth : MasterPort := {}
  elog : List (Nat × Nat) := []
  elogLost : Bool := false
  funcMask : Bool := false
  pba : SMap Bool := []
  win : Vector (Option Window) 16 := Vector.replicate 16 none
  pldmWin : Vector (Option Window) 16 := Vector.replicate 16 none
  barSize : Nat := 4
  memSpace : Bool := false
  busMaster : Bool := false
  d3hot : Bool := false
  perst : Bool := true
  linkUp : Bool := false
  reads : List HostRead := []
  nextTag : Nat := 0
  deriving DecidableEq, Repr

/-! ### The fabric (10) and the collective engine (11) -/

/-- The unit that waits for the answer to a packet (R307). -/
inductive TxnUser where
  /-- A remote SIGNAL descriptor, with the reference it names. -/
  | signal (d : Die) (c : Sid) (id : Nat) (ref : Nat)
  /-- A round of a collective. -/
  | coll (d : Die) (i : Nat) (round : Nat)
  /-- The export of a Maquette slot; `off` is the offset within the slot. -/
  | maquette (slot : Nat) (off : Nat)
  /-- The step unit's read of a peer's verdict record (R438). -/
  | verdict (att : DWord)
  deriving DecidableEq, Repr

/-- A packet sent and not yet answered: a transaction (`oid` below 16,384, with its generation) or a packet of
a collective round (`oid` from 16,384). `answer` is a reply that waits for earlier ones of its flow (R304). -/
structure OutPkt where
  oid : Nat
  user : TxnUser
  pkt : Packet
  tries : Nat
  deadline : Nat
  far : Bool
  answer : Option (Nat × List Byte) := none
  deriving DecidableEq, Repr

/-- A flow at its source (R303): the pair of endpoints, the class, the next FSEQ and the time of the last
packet; `fresh` says that the next packet carries NEW. -/
structure SrcFlow where
  srcEp : BitVec 5
  dstMod : Half
  dstEp : BitVec 5
  cls : BitVec 2
  next : Half
  fresh : Bool
  last : Nat
  deriving DecidableEq, Repr

/-- A flow entry at its destination (R303 to R305, R309): the performed point, the packets held for earlier
ones, the reply codes of recent requests, the acknowledgement timer, and whether its newest request waits for host
memory. -/
structure DstFlow where
  srcMod : Half
  srcEp : BitVec 5
  dstEp : BitVec 5
  vc : Nat
  point : Half
  held : List (Packet × Chan) := []
  replies : List (Half × Nat × List Byte) := []
  last : Nat
  ackAt : Option Nat := none
  ackDue : Bool := false
  busy : Bool := false
  deriving DecidableEq, Repr

/-- A packet that waits at the head of its queue for credit or for replay-store room: the time from which its residence
counts (R310), the channel whose receive pool holds it and the pool's counter (R317), the peer and the bank that a link loss ties it to (R314),
and since when no candidate has had credit for it (R316). -/
structure WaitPkt where
  pkt : Packet
  at0 : Nat
  src : Option (Chan × Nat) := none
  peer : Option Half := none
  cur : Bool := false
  dry : Option Nat := none
  deriving DecidableEq, Repr

/-- A packet on a link that has not been acknowledged: retries and the time of its last sending. -/
structure LinkPkt where
  pkt : Packet
  retries : Nat
  sentAt : Nat
  deriving DecidableEq, Repr

/-- One link (R312, R313, R337, R347 to R351): the channel's state as optics leaves it, the identity exchange,
the sender's sequence, credit and unacknowledged packets, what the receiver has seen, and the credit it has granted. -/
structure Link where
  up : Bool := false
  closing : Bool := false
  rest : Bool := false
  lockedAt : Option Nat := none
  accepted : Bool := false
  peerAcc : Bool := false
  quar : Nat := 0
  level : Nat := 0
  peer : Half := 0xFFFF
  answered : Bool := false
  helloSeq : Word := 0
  helloAt : Option Nat := none
  txLsn : Half := 0
  unacked : List LinkPkt := []
  rxNext : Half := 0
  rxSeen : List Half := []
  credit : Vector Nat 8 := #v[0, 0, 0, 0, 0, 0, 2, 0]
  granted : Vector Nat 8 := #v[0, 0, 0, 0, 0, 0, 2, 0]
  dCnt : Vector Int 4 := Vector.replicate 4 0
  deriving DecidableEq, Repr

/-- The typical timers of R311, which FAB_LIFE and FAB_RTO show at reset (R331). -/
def defaultTimers : FabTimers :=
  { pktLife := 20000, rtoNear := 2000, rtoFar := 10000, e2eRetryMax := 4, linkRetryMax := 8, flowIdle := 100000 }

/-- The Plinth's fabric unit. Links are keyed 256 × port + 16 × fibre + wavelength. `gens` is the last
generation of each transaction index. Banks are indexed by epoch mod 2. `peerDown` is what ROUTE_NOTICEs have
reported: link peer and dimension. `pool` counts the flits that wait in the receive pools, by 8 × port + virtual channel, with
64 more for packets that have crossed the dateline; `turn` is the channel that last received relief credit on a port. -/
structure FabState where
  settled : Bool := false
  modId : Half := 0xFFFF
  cMode : Nat := 0
  bDims : Nat := 0
  topoHash : BitVec 256 := 0
  timers : FabTimers := defaultTimers
  flat : SMap (Option FlatEntry) := []
  outs : List OutPkt := []
  nextOid : Nat := 0
  gens : SMap Nat := []
  src : List SrcFlow := []
  dst : List DstFlow := []
  waiting : List WaitPkt := []
  pool : SMap Nat := []
  turn : SMap Nat := []
  links : SMap Link := []
  rack : Vector (SMap Word) 2 := Vector.replicate 2 []
  dim : Vector (SMap DWord) 2 := Vector.replicate 2 []
  cur : BitVec 2 := 0
  isOpen : Bool := false
  loaded : Bool := false
  draining : Bool := false
  drainEpoch : BitVec 2 := 0
  retireAt : Option Nat := none
  view : Bool := false
  seenPoison : List DWord := []
  peerDown : List (Half × Nat) := []
  deriving DecidableEq, Repr

/-- Elements of a round that have begun to arrive (R326): the first element, the next source to add, the
value so far and the arrivals held for earlier sources, each with its source and REDOP. -/
structure CollAcc where
  start : Nat
  next : Nat
  vals : Option (List Word)
  early : List (Nat × Nat × List Word)
  deriving DecidableEq, Repr

/-- One round of a collective in progress (R353): `entry` is its transaction entry (R307), `pos` the bytes it has sent. -/
structure CollRound where
  idx : Nat
  r : Round
  grantOut : Bool := false
  granted : Bool := false
  entry : Option Nat := none
  pos : Nat := 0
  sent : Bool := false
  got : List Nat := []
  acc : List CollAcc := []
  fin : Bool := false
  deriving DecidableEq, Repr

/-- A COLLECTIVE descriptor in progress. `record` is the guard record of a GUARD_OR; `left4` is the timer in
quarters of a ns, counted down from `since`, at a quarter of the rate while `slow` (R360). -/
structure Coll where
  d : Die
  i : Nat
  desc : BitVec 512
  att : DWord
  rounds : List CollRound
  record : List Byte := []
  timed : Bool := false
  left4 : Nat := 0
  since : Nat := 0
  slow : Bool := false
  pass2 : Bool := false
  deriving DecidableEq, Repr

/-- The collective engine: descriptors in progress, grants received and not yet used, as (schedule,
round, granting module, attempt tag), and the time that timers ran at quarter rate, in ns. -/
structure CollState where
  active : List Coll := []
  grants : List (Nat × Nat × Half × Half) := []
  stretchNs : Nat := 0
  deriving DecidableEq, Repr

/-! ### Optical ports and the light source (12) -/

/-- TX_STATE and RX_STATE (R376). -/
inductive RingSt where
  | off | parked | acquire | verify | locked | rest | failed
  deriving DecidableEq, Repr

/-- One micro-ring: its state, its heater and the calibrated heater of its line in units of 1/460,800 mW, acquisitions or VERIFYs failed in a row, the
times of its last MISLOCKs (R382), whether it acquires after LOCK_LOST or MISLOCK, and whether an order hop waits
for its rest slot (R379). -/
structure RingState where
  st : RingSt := .off
  heater : Int := 0
  cal : Int := 0
  tries : Nat := 0
  mis : List Nat := []
  relock : Bool := false
  hop : Bool := false
  deriving DecidableEq, Repr

/-- Codeword counts of one channel in one second and in the whole second before it (R391). -/
structure FecSec where
  sec : Nat := 0
  unc : Nat := 0
  corr : Nat := 0
  lastUnc : Nat := 0
  lastCorr : Nat := 0
  deriving DecidableEq, Repr

/-- The optics. Rings are keyed 2 × channel + 1 for a drop ring, ring banks 32 × port + 2 × fibre + 1 likewise,
shutters 16 × port + fibre. `lol` marks dark receive lines; `closed` holds 1 more than the time of the next
opening of a closed shutter, and `openUntil` the end of such an opening (R390); `skip` marks channels whose
calibration was skipped in the rest slot in hand (R384). -/
structure OptState where
  on : Bool := false
  present : Bool := false
  enabled : Bool := false
  fault : Bool := false
  rings : SMap RingState := []
  lol : SMap Bool := []
  feedOk : BitVec 14 := 0
  feedEn : BitVec 14 := 0
  tagFeed : SMap Nat := []
  bankT : SMap (Option Int) := []
  bankMax : SMap (Option Int) := []
  kT : SMap Int := []
  closed : SMap Nat := []
  openUntil : SMap Nat := []
  fec : SMap FecSec := []
  nextCw : SMap Nat := []
  skip : SMap Bool := []
  deriving DecidableEq, Repr

/-! ### Die links and identity (13) -/

/-- The role of a lane (R395), with the data index, whether a spare is on probation, or the reason it is off. -/
inductive LaneRole where
  | data (i : Nat) | check | spare (probation : Bool) | off (reason : Nat)
  deriving DecidableEq, Repr

/-- A lane under recalibration (R401): the lane, the spare that holds its role, and when it ends. -/
structure Recal where
  lane : Nat
  spare : Nat
  ends : Nat
  deriving DecidableEq, Repr

/-- A group-direction (R394 to R404): its lanes, the deadline of a retrain, the receiver's next flit sequence, the
sender's next and its first unacknowledged one, and how often that one has been replayed. -/
structure GroupDir where
  lanes : List LaneRole := List.replicate 68 (.off 0)
  retrainAt : Option Nat := none
  rxNext : BitVec 6 := 0
  sent : BitVec 6 := 0
  acked : BitVec 6 := 0
  replays : Nat := 0
  recal : Option Recal := none
  cause : Nat := 0
  deriving DecidableEq, Repr

/-- The die links. `swept` marks the lanes (68 × g + lane) recalibrated in the present sweep. -/
structure DieLinks where
  groups : SMap GroupDir := []
  level : Nat := 0
  swept : SMap Bool := []
  deriving DecidableEq, Repr

/-! ### Flash, one-time-programmable memory, start-up and recovery (14, 16) -/

/-- A boot descriptor record whose CRC holds (R424). -/
structure BootRecord where
  seq : Word
  fwB : Bool
  piB : Bool
  deriving DecidableEq, Repr

/-- The flash: the two boot descriptor records (none where the CRC fails), its bytes, and the log of R423: channels
entered for map-out, how often each lane (68 × g + lane) failed, role maps written by a re-plan, ring calibration,
the MEMORY digest of the last start, repaired rows and remapped pages of each stack, the records of activated
images (base, length, header digest), and the image active now. -/
structure FlashState where
  rec0 : Option BootRecord := some ⟨0, false, false⟩
  rec1 : Option BootRecord := none
  bytes : SMap Byte := []
  mapOut : List (Stack × Fin 32) := []
  lanes : SMap Nat := []
  roleMaps : SMap (List Byte) := []
  ringCal : SMap (List Half) := []
  memDigest : Option (BitVec 512) := none
  repairs : List (Nat × Nat) := []
  remaps : List (Nat × Nat × Option Nat) := []
  images : List (DWord × Nat × BitVec 512) := []
  active : Option ImageState := none
  tests : List (Nat × Nat × BitVec 24) := []
  erased : SMap Nat := []
  wearAt : Nat := 0
  deriving DecidableEq, Repr

/-- The state of an owner key slot (R503). -/
inductive SlotSt where
  | empty | bound | revoked | damaged
  deriving DecidableEq, Repr

/-- An owner key slot. -/
structure KeySlot where
  st : SlotSt := .empty
  key : List Byte := []
  deriving DecidableEq, Repr

/-- The words of ID_MATRIX of a module of the release revisions (R409, R414). -/
def releaseMatrix : List Word := [0x80010103, 0x80001003, 0x80020003, 0x80032203]

/-- What is programmed once: key slots, anti-rollback counters (0 firmware, 1 platform, 2 job), the bad-lane maps of
the dies, and the compatibility matrix. -/
structure OtpState where
  slots : Vector KeySlot 4 := Vector.replicate 4 {}
  ctrs : Vector Nat 3 := Vector.replicate 3 0
  badLanes : SMap (BitVec 68) := []
  idMatrix : List Word := releaseMatrix
  deriving DecidableEq, Repr

/-- How a start ended (R421). -/
inductive StartEnd where
  | running | ready | mgmtOnly | romRecovery
  deriving DecidableEq, Repr

/-- The start (R415 to R422): stages passed, by STAGE code; how it ended; whether it is a WARM start that may keep
HBM contents, and whether it kept them; the firmware copy in use, its digest and version; the two strap samples;
dies held out by a test, the stacks in service and the channels mapped out before a WARM reset, whether REPLAY_FAIL stands (R437), and when READY was
reached. -/
structure StartState where
  passed : BitVec 10 := 0
  fin : StartEnd := .running
  began : Nat := 0
  warm : Bool := false
  keepable : Bool := false
  kept : Bool := false
  fwB : Bool := false
  piB : Bool := false
  fwDigest : BitVec 512 := 0
  fwSvn : Nat := 0
  rack : Nat := 0
  slot : Nat := 0
  strapOk : Bool := false
  ids : List (BitVec 128) := []
  testFailed : BitVec 24 := 0
  wasIn : BitVec 24 := 0
  wasOut : List (BitVec 32) := []
  replayFail : Bool := false
  readyAt : Nat := 0
  idValid : Bool := false
  deriving DecidableEq, Repr

/-- Codes of MOD_RCV_STAT.STATE. -/
inductive RcvSt where
  | idle | running | done | failed
  deriving DecidableEq, Repr

/-- The recovery command (R439, R440): its state, code, cause and word; the image it works from, the step it accepts, and
what is still to be fetched, of how much. COPY keys 2 × (2^32 × descriptor + chunk), plus 1 for an outer tile; RESTORE keys
2^32 × stack + page. -/
structure RcvState where
  st : RcvSt := .idle
  cmd : Nat := 0
  cause : Nat := 0
  word : Word := 0
  img : Option ImageState := none
  step : DWord := 0
  left : List Nat := []
  total : Nat := 0
  deriving DecidableEq, Repr

/-! ### Power, clocks and the timebase (15) -/

/-- The high-voltage side and the draw shaping. Powers are in units of 0.01 W but for `frames` and `means`, which
hold (time, power in 0.1 mW) of recent frames and of their 1 ms means. `limitAt` and `zeroAt` are when a cut for
P_MAX and power stretch 0 began; `ack` is the frame that ACK_SEQ is due for, `seq` the newest frame and `warn` its
warnings. `mateA` and `mateB` say that a mate pin is high. `tickAt` is when the next interval of R450 begins. -/
structure PowerState where
  mateA : Bool := false
  mateB : Bool := false
  closed : Bool := false
  latched : Bool := false
  undervolt : Bool := false
  lastA : Nat := 0
  lastB : Nat := 0
  okA : Bool := false
  okB : Bool := false
  lost : Bool := false
  stopped : Bool := false
  ack : Option (BitVec 8) := none
  frames : List (Nat × Nat) := []
  means : List (Nat × Nat) := []
  energy : Nat := 0
  e : Nat := 0
  level : Nat := 0
  high : Bool := false
  limitAt : Option Nat := none
  zeroAt : Option Nat := none
  target : Nat := 0
  hvTemp : Int := 0
  seq : Option (BitVec 8) := none
  warn : BitVec 3 := 0
  tickAt : Nat := 0
  short : Bool := false
  exceed : Bool := false
  deriving DecidableEq, Repr

/-- The mux of a clock domain (R459, R460): its source, when the last switch was requested, and whether that switch
was forced or left the domain dead. -/
structure MuxState where
  src : Nat := 0
  reqAt : Option Nat := none
  forced : Bool := false
  dead : Bool := false
  deriving DecidableEq, Repr

/-- Crystal (R467). -/
inductive Xtal where
  | starting | stable | failed
  deriving DecidableEq, Repr

/-- Clock, supply in mV and heat of a compute die (R461 to R466). Temperatures are in 0.1 °C. -/
structure DieClock where
  point : Nat := 0
  volts : Nat := 850
  limit : Nat := 0
  therm : Nat := 0
  temp : Int := 0
  tempMax : Int := 0
  ever : Bool := false
  fails : Nat := 0
  lastValid : Nat := 0
  hotAt : Option Nat := none
  coolAt : Option Nat := none
  cause : Nat := 0
  deriving DecidableEq, Repr

/-- The clocks: the crystal, the time of its failure, the muxes, the dies, and the other dies' temperatures. -/
structure ClockState where
  xtal : Xtal := .starting
  failAt : Option Nat := none
  mux : SMap MuxState := []
  dies : Vector DieClock 24 := Vector.replicate 24 {}
  others : SMap (Option Int) := []
  deriving DecidableEq, Repr

/-- STATE of TB_STAT. -/
inductive TbSt where
  | free | locked | holdover
  deriving DecidableEq, Repr

/-- The discipline of the timebase (R468 to R472): the last phase error, a larger one that waits for a second edge,
what is still to be removed by slewing, the ns counted toward the next step of the slew, the last edge, the
disagreement of the last frame, and bits 63:24 that a frame gives for the next edge. -/
structure TimebaseState where
  st : TbSt := .free
  absSet : Bool := false
  rackClk : Bool := false
  steps : Nat := 0
  frameErr : Nat := 0
  phase : Int := 0
  big : Option Int := none
  slew : Int := 0
  slewAcc : Nat := 0
  lastEdge : Option Nat := none
  frameOff : Option (BitVec 40) := none
  next : Option (BitVec 40) := none
  deriving DecidableEq, Repr

/-! ### Security, management and telemetry (16) -/

/-- STATE of SEC_MBOX_STAT. -/
inductive MboxSt where
  | idle | busy | done
  deriving DecidableEq, Repr

/-- The MSD's security unit: the latest nonce of each path with the time it was given, the lockout count of the
AON domain, the security log as (event, path, detail), the mailbox, and the endpoint IDs. -/
structure SecState where
  nonces : Vector (Option (BitVec 256 × Nat)) 3 := Vector.replicate 3 none
  fails : Nat := 0
  lastFail : Nat := 0
  log : List (Nat × Nat × Nat) := []
  mbox : MboxSt := .idle
  mboxLen : Nat := 0
  eid : Vector Byte 3 := Vector.replicate 3 0
  deriving DecidableEq, Repr

/-- Telemetry: frames formed since start, when the next is due, and the ring's state. -/
structure TelState where
  seq : Nat := 0
  nextAt : Option Nat := none
  held : Bool := false
  deriving DecidableEq, Repr

/-! ### The machine -/

/-- The module. `clk` is the timebase without its steps, in ns, on which every timer runs (R472); `tb` is the timebase (R468);
`free` counts the free values drawn; `out` is what has left the module, newest first. -/
structure State where
  pending : List Instr := []
  clk : Nat := 0
  tb : DWord := 0
  free : Nat := 0
  out : List Output := []
  regs : SMap Word := []
  rs : SMap RsReg := []
  host : HostState := {}
  sync : SyncState := {}
  dies : Vector DieState 24 := Vector.replicate 24 {}
  gang : PerStream (Option Nat) := ⟨none, none, none, none⟩
  step : StepUnit := {}
  maq : Maquette := {}
  img : ImageState := {}
  upd : UpdState := {}
  mem : MemState := {}
  fab : FabState := {}
  coll : CollState := {}
  plat : Option PlatformImage := none
  opt : OptState := {}
  dl : DieLinks := {}
  flash : FlashState := {}
  otp : OtpState := {}
  start : StartState := {}
  rcv : RcvState := {}
  pwr : PowerState := {}
  clocks : ClockState := {}
  tbs : TimebaseState := {}
  sec : SecState := {}
  tel : TelState := {}
  deriving DecidableEq, Repr

/-- The machine right after a COLD reset, before power has come up (R415): every field at its reset value. -/
def State.reset : State := {}

/-- Why the machine would stop with a fault. No meaning of this model raises one: it is kept because the
interface asks for the type. Stopping would be safe. -/
inductive Fault where
  /-- Raised by nothing. Safe. -/
  | unreachable
  deriving DecidableEq, Repr

/-- Why a command would be refused. -/
inductive Refusal where
  /-- The command has no meaning yet. Raised by an arm of exec only. Safe. -/
  | notModelled (mnemonic : String)
  deriving DecidableEq, Repr

end Sys2Proof.Machine
end

