-- ==== Sys2Proof/Machine/Ops.lean ====
section
/-! DEFINITION. Machine/Ops.lean: the named operations every meaning is built from: per-stream and per-die
access, registers, time, status events with the error log and MSI-X messages, and completions. -/
namespace Sys2Proof.Machine
open Sys2Proof

/-! ### Streams and dies -/

/-- The number the registers give a stream: 0 F, 1 B, 2 U, 3 T (R206). -/
def sidNat : Sid → Nat
  | .f => 0 | .b => 1 | .u => 2 | .t => 3

/-- The stream a number names. -/
def sidOf : Nat → Sid
  | 0 => .f | 1 => .b | 2 => .u | _ => .t

/-- The four streams in order. -/
def allSids : List Sid := [.f, .b, .u, .t]

/-- The dies in order. -/
def allDies : List Die := List.finRange 24

/-- The value of one stream. -/
def PerStream.get {α : Type} (p : PerStream α) : Sid → α
  | .f => p.f | .b => p.b | .u => p.u | .t => p.t

/-- Replace the value of one stream. -/
def PerStream.put {α : Type} (p : PerStream α) (c : Sid) (v : α) : PerStream α :=
  match c with
  | .f => { p with f := v }
  | .b => { p with b := v }
  | .u => { p with u := v }
  | .t => { p with t := v }

/-- The state of die `d`. -/
def die (s : State) (d : Die) : DieState := s.dies[d]

/-- Update die `d`. -/
def updDie (s : State) (d : Die) (f : DieState → DieState) : State :=
  { s with dies := s.dies.set d (f s.dies[d]) }

/-- Stream `c` of die `d`. -/
def str (s : State) (d : Die) (c : Sid) : Stream := (die s d).str.get c

/-- Update stream `c` of die `d`. -/
def updStr (s : State) (d : Die) (c : Sid) (f : Stream → Stream) : State :=
  updDie s d fun x => { x with str := x.str.put c (f (x.str.get c)) }

/-- Vector context `c` of die `d`. -/
def vctx (s : State) (d : Die) (c : Sid) : VCtx := (die s d).ctx.get c

/-- Update vector context `c` of die `d`. -/
def updCtx (s : State) (d : Die) (c : Sid) (f : VCtx → VCtx) : State :=
  updDie s d fun x => { x with ctx := x.ctx.put c (f (x.ctx.get c)) }

/-- Update the array of die `d`. -/
def updArr (s : State) (d : Die) (f : ArrayUnit → ArrayUnit) : State :=
  updDie s d fun x => { x with arr := f x.arr }

/-- A stream with nothing in progress: of its fields only the number of its most recent step stays (R206). -/
def Stream.idled (x : Stream) : Stream := { step := x.step }

/-- Every stream of a die with nothing in progress. -/
def idleStreams (x : PerStream Stream) : PerStream Stream := ⟨x.f.idled, x.b.idled, x.u.idled, x.t.idled⟩

/-- Slots a tile fills: two with PAIR set (R100, R130). -/
def tileSlots (t : Tile) : Nat := if t.flags / 4 % 2 = 1 then 2 else 1

/-- Do `f` for every die, CD0 first. -/
def forDies (f : Die → State → State) (s : State) : State := allDies.foldl (fun s d => f d s) s

/-- Do `f` for every stream of the module, die by die, F to T. -/
def forStreams (f : Die → Sid → State → State) (s : State) : State :=
  forDies (fun d s => allSids.foldl (fun s c => f d c s) s) s

/-- The number of a stream among the 96 (R432). -/
def strNo (d : Die) (c : Sid) : Nat := 4 * d.val + sidNat c

/-! ### Registers -/

/-- The stored word at BAR0 offset `off`. -/
def reg (s : State) (off : Nat) : Word := SMap.get (resetWord off) s.regs off

/-- Store a word at BAR0 offset `off`. -/
def setReg (s : State) (off : Nat) (v : Word) : State :=
  { s with regs := SMap.set (resetWord off) s.regs off v }

/-- A stored 64-bit register, low half at the lower offset (R16). -/
def reg64 (s : State) (off : Nat) : DWord := reg s (off + 4) ++ reg s off

/-- Store a 64-bit register. -/
def setReg64 (s : State) (off : Nat) (v : DWord) : State :=
  setReg (setReg s off (v.setWidth 32)) (off + 4) ((v >>> 32).setWidth 32)

/-- Add to a 32-bit counter, which wraps (R493). -/
def addReg (s : State) (off n : Nat) : State := setReg s off (reg s off + w32 n)

/-- Add to a 64-bit counter, which wraps (R493). -/
def addReg64 (s : State) (off n : Nat) : State := setReg64 s off (reg64 s off + w64 n)

/-- Replace field hi:lo of a stored register. -/
def setFld (s : State) (off hi lo v : Nat) : State := setReg s off (putFld (reg s off) hi lo v)

/-- Add one to a 16-bit field that holds at 0xFFFF (R493). -/
def satFld16 (s : State) (off lo : Nat) : State :=
  setFld s off (lo + 15) lo (satInc 16 (fld (reg s off) (lo + 15) lo))

/-- The RS register at `off`. -/
def rsReg (s : State) (off : Nat) : RsReg := SMap.get {} s.rs off

/-! ### What leaves the module -/

/-- Send `o` out. -/
def emit (s : State) (o : Output) : State := { s with out := o :: s.out }

/-- End an access. -/
def complete (s : State) (m : Master) (st : Status) (data : List Byte) : State :=
  emit s (.completion m st data)

/-- An access of the host that ends in Completer Abort and is logged through AER; a bus error exception for
an internal master (R15). -/
def busErr (s : State) (m : Master) : State :=
  match m with
  | .host => emit (emit s (.aer "completer abort")) (.completion .host .ca [])
  | m => emit s (.busError m)

/-- Draw the number of a fresh free value. -/
def drawFree (s : State) : Nat × State := (s.free, { s with free := s.free + 1 })

/-! ### Time -/

/-- The TEL_WAIT cause that the STATE of a stream counts under (R495), if it waits. -/
def stateCause (s : State) (x : Stream) : Option Nat :=
  match x.st with
  | .waitSync =>
    match x.waitRef with
    | some (.glob i) =>
      let c := if i.val = 0 then 1 else if i.val < 16 then 0
        else if s.img.st = .none then 2 else (SMap.get 0 s.sync.classes i.val).toNat
      some (if c = 1 ∨ c = 2 then 1 else 0)
    | _ => some 0
  | .waitUnit => some (if x.fabricWait then 3 else 2)
  | .waitGang => some 4
  | .waitVerdict => some 6
  | _ => if x.fabricWait then some 3 else none

/-- The stream whose descriptor a packet serves. -/
def userStream : TxnUser → Option (Die × Sid)
  | .signal d c _ _ => some (d, c)
  | .coll d _ _ => some (d, .t)
  | _ => none

/-- A packet of a stream's descriptor waits for room in a C replay store (R315). -/
def roomWait (s : State) (d : Die) (c : Sid) : Bool :=
  s.fab.waiting.any fun w => w.dry.isNone && s.fab.outs.any fun o =>
    decide (userStream o.user = some (d, c)) &&
    decide (o.pkt.fseq = w.pkt.fseq ∧ o.pkt.srcEp = w.pkt.srcEp ∧ o.pkt.dstMod = w.pkt.dstMod ∧ o.pkt.dstEp = w.pkt.dstEp ∧ o.pkt.cls = w.pkt.cls)

/-- A round of a collective of the die has its grant and waits for a transaction entry (R307). -/
def entryWait (s : State) (d : Die) : Bool :=
  s.coll.active.any fun k => decide (k.d = d) && k.rounds.any fun r => r.granted && !r.sent && r.entry.isNone

/-- The causes that a stream waits by: that of its STATE; ARRAY while its vector program waits in a TQPOP (R104); FABRIC
while a packet of its waits for a replay store (R315); and UNIT while a round of its waits for a transaction entry
(R307). -/
def waitCauses (s : State) (d : Die) (c : Sid) : List Nat :=
  let x := str s d c
  let k := stateCause s x
  k.toList ++ (if x.tqWait then [5] else []) ++ (if roomWait s d c ∧ k ≠ some 3 then [3] else []) ++
    if c = .t ∧ entryWait s d ∧ k ≠ some 2 then [2] else []

/-- Count `n` ns of waiting of one stream (R495). -/
def countWait (n : Nat) (d : Die) (c : Sid) (s : State) : State :=
  (waitCauses s d c).foldl (fun s x => addReg64 s (rTelWait + strNo d c * 0x40 + 8 * x) n) s

/-- Some die shows ready and no grant has been made (ARM_WAIT_NS, R108). -/
def armWaiting (s : State) : Bool :=
  allDies.any fun d => [Sid.f, .b, .u].any fun c => ((die s d).arr.ready.get c).isSome

/-- Stack `n` is in a throttle band or in EMERGENCY (STnn_THROTTLE_NS, R264). -/
def stackThrottled (x : StackState) : Bool := decide (2 ≤ x.band) || x.emergency

/-- Count `n` ns of throttling of stack `d`. -/
def countThrottle (n : Nat) (d : Stack) (s : State) : State :=
  if stackThrottled s.mem.st[d] then addReg64 s (stWin d.val + 0x20) n else s

/-! The clock of a die (R457, R461, R462) -/

/-- The default DVFS points in MHz (R461). -/
def defaultPoints : List Nat := [2000, 1800, 1600, 1400, 1200, 1000, 800]

/-- The DVFS points in force, at most 8. -/
def dvfsPoints (s : State) : List Nat :=
  match s.plat with
  | some p => if p.dvfsPoints.isEmpty then defaultPoints else p.dvfsPoints.take 8
  | none => defaultPoints

/-- The default voltages of the DVFS points in mV (R461). -/
def defaultVolts : List Nat := [850, 810, 770, 740, 710, 680, 650]

/-- The voltage of a DVFS point in mV. -/
def pointVolts (s : State) (k : Nat) : Nat :=
  match s.plat with
  | some p => (if p.dvfsPoints.isEmpty then defaultVolts else p.dvfsVolts).getD k 850
  | none => defaultVolts.getD k 850

/-- The clock of CDn.MEM in MHz at the operating point of its stack (R457). -/
def memClock (s : State) (d : Die) : Nat := [1000, 800, 600].getD s.mem.st[d].point 600

/-- The effective clock at level `l` keeps the ratios of R458 to CDn.MEM and to PL.CORE. -/
def levelOk (s : State) (d : Die) (l : Nat) : Bool :=
  let f8 := (dvfsPoints s).getD s.clocks.dies[d].point 800 * (8 - l)
  decide (6 * memClock s d ≤ f8) && decide (5120 ≤ f8)

/-- The highest stretch level a die may take (R462). -/
def stretchCap (s : State) (d : Die) : Nat := (([4, 3, 2, 1] : List Nat).find? (levelOk s d)).getD 0

/-- The stretch in force on a die: the larger of its thermal and its power level, capped. -/
def dieStretch (s : State) (d : Die) : Nat := min (max s.clocks.dies[d].therm s.pwr.level) (stretchCap s d)

/-- Count `n` ns of a hold of die `d`'s array: in cycles of its effective clock in CDnn_ARR_HOLD, and in ns among the
waits of the operation's stream (R103, R495). -/
def countHold (n : Nat) (d : Die) (s : State) : State :=
  let a := (die s d).arr
  match a.hold, a.op with
  | true, some o =>
    let acc := a.holdAcc + n * ((dvfsPoints s).getD s.clocks.dies[d].point 800 * (8 - dieStretch s d))
    let s := updArr s d fun a => { a with holdAcc := acc % 8000 }
    addReg64 (addReg64 s (cdWin d.val + rArrHold) (acc / 8000)) (rTelWait + strNo d o.c * 0x40 + 40) n
  | _, _ => s

/-- Nanoseconds of a phase error that are removed while the timebase advances by `n`, at 100 ppm of the rate of its source
(R470): one for each 10,000 ns of the source, of which the timebase counts 9,999 where it is ahead and 10,001 where it
is behind. -/
def slewGone (x : TimebaseState) (n : Nat) : Nat :=
  min x.slew.natAbs ((x.slewAcc + n) / (if x.slew < 0 then 10001 else 9999))

/-- The timebase advances by `n` ns, while a phase error is being removed (R470). -/
def slewed (n : Nat) (s : State) : State :=
  let x := s.tbs
  let k := slewGone x n
  let left : Int := if x.slew < 0 then x.slew + k else x.slew - k
  { s with
    tb := s.tb + w64 n
    tbs := { x with slew := left, slewAcc := if left = 0 then 0 else (x.slewAcc + n) - k * (if x.slew < 0 then 10001 else 9999) } }

/-- `n` nanoseconds of the timebase pass: the clock of the timers, the timebase and the counters of R494 that count time. -/
def advance (n : Nat) (s : State) : State :=
  let s := forStreams (countWait n) s
  let s := if armWaiting s then addReg64 s rArmWaitNs n else s
  let s := forDies (countHold n) (forDies (countThrottle n) s)
  let s := if fld (reg s rPwrStat) 13 11 = 0 then s else addReg64 s rPwrThrottle n
  slewed n { s with clk := s.clk + n }

/-- Time passes until `t`, if that lies ahead. -/
def advanceTo (t : Nat) (s : State) : State := if s.clk < t then advance (t - s.clk) s else s

/-! ### Messages and the error log (R484 to R490) -/

/-- A message on vector `v` may leave: neither masked nor held by Bus Master Enable or D3hot. -/
def msixOpen (s : State) (v : Nat) : Bool :=
  !s.host.funcMask && !(bitAt (reg s (rMsixTable + 16 * v + 12)) 0) && s.host.busMaster && !s.host.d3hot

/-- A message falls due on vector `v`: sent, or its pending bit set. -/
def msixDue (s : State) (v : Nat) : State :=
  if msixOpen s v then emit s (.msix v)
  else { s with host := { s.host with pba := SMap.set false s.host.pba v true } }

/-- The length of a coalescing window in ns (R486). -/
def windowNs : Nat := 10000

/-- An enabled module event on vector `v` (R486): a message at once and a window opens, or the open window
notes the event. -/
def moduleEvent (s : State) (v : Fin 16) : State :=
  match s.host.win[v] with
  | some w => { s with host := { s.host with win := s.host.win.set v (some { w with event := true }) } }
  | none =>
    let s := msixDue s v.val
    { s with host := { s.host with win := s.host.win.set v (some { ends := s.clk + windowNs, event := false }) } }

/-- The platform event message of an event class, coalesced in the same way (R499). -/
def pldmEventOf (s : State) (v : Fin 16) : State :=
  match s.host.pldmWin[v] with
  | some w => { s with host := { s.host with pldmWin := s.host.pldmWin.set v (some { w with event := true }) } }
  | none =>
    let s := emit s (.pldmEvent v.val)
    { s with host := { s.host with pldmWin := s.host.pldmWin.set v (some { ends := s.clk + windowNs, event := false }) } }

/-- An event of class `v`: the PLDM message for classes 0 to 13, and the MSI-X message when enabled. -/
def classEvent (s : State) (v : Fin 16) (enabled : Bool) : State :=
  let s := if v.val ≤ 13 then pldmEventOf s v else s
  if enabled then moduleEvent s v else s

/-- Bit `i` of the control register at `off`. -/
def ctlBit (s : State) (off i : Nat) : Bool := bitAt (reg s off) i

/-- Any bit of `bits` lies in `mask`. -/
def anyOf (bits : BitVec 24) (mask : Nat) : Bool := decide (bits &&& BitVec.ofNat 24 mask ≠ 0)

/-- The event class of an RS register and whether the events `bits` in it are enabled to send its vector
(R485). Events whose class the vector table does not name send nothing. -/
def rsClass (s : State) (off : Nat) (bits : BitVec 24) : Option (Fin 16 × Bool) :=
  if off = rStartErr ∨ off = rIdErr then some (0, ctlBit s rEvtCtl 0)
  else if off = rImgEvt then some (1, ctlBit s rEvtCtl 1)
  else if off = rStepStat then
    if anyOf bits 0x1A0 then some (3, ctlBit s rEvtCtl 3) else none
  else if off = rSyncErrStat then some (4, ctlBit s rSyncCtl 0)
  else if off = rMemErr then
    some (5, (ctlBit s rMemCtl 1 && anyOf bits 0x414) || (ctlBit s rMemCtl 0 && anyOf bits 0x1C0))
  else if off = rUpdStat then
    some (6, (ctlBit s rUpdCtl 2 && anyOf bits 0x700) || (ctlBit s rUpdCtl 0 && anyOf bits 0x088))
  else if off = rFabErr then
    some (7, (ctlBit s rFabCtl 0 && anyOf bits 0x100) || (ctlBit s rFabCtl 1 && anyOf bits 0x00C) ||
      (ctlBit s rFabCtl 2 && anyOf bits 0x080))
  else if off = rCollErr then some (7, ctlBit s rCollCtl 0 && anyOf bits 0x007)
  else if off = rLsErr then some (8, ctlBit s rLsCtl 0)
  else if rPortCtl + portWin 0 ≤ off ∧ off < portWin 6 then
    if (off - portWin 0) % 0x10000 = rPortErr then
      let ctl := off - rPortErr + rPortCtl
      some (8, (ctlBit s ctl 1 && anyOf bits 0x056) || (ctlBit s ctl 0 && anyOf bits 0x029))
    else none
  else if off = rLinkErr then
    some (9, (ctlBit s rLinkCtl 1 && anyOf bits 0x018) || (ctlBit s rLinkCtl 0 && anyOf bits 0x044))
  else if off = rPwrErr then
    some (10, (ctlBit s rPwrCtl 2 && anyOf bits 0x300) || (ctlBit s rPwrCtl 1 && anyOf bits 0x018) ||
      (ctlBit s rPwrCtl 0 && anyOf bits 0x0E0))
  else if off = rClkErr then some (11, ctlBit s rEvtCtl 4)
  else if off = rSecEvt then some (13, ctlBit s rEvtCtl 6)
  else if 0x1000000 ≤ off then
    if (off - 0x1000000) % 0x100000 = rTsErr then
      if anyOf bits 2 then some (12, ctlBit s rEvtCtl 5) else none
    else some (12, ctlBit s rEvtCtl 5)
  else none

/-- Record `bits` in an RS register in one cycle (R489): SEQ advances, each bit takes it as its stamp, and
a set bit whose stamp would fall 128 behind takes SEQ - 127. -/
def RsReg.record (r : RsReg) (bits : BitVec 24) : RsReg :=
  if bits = 0 then r else
  let seq := r.seq + 1
  { seq := seq
    ev := r.ev ||| bits
    stamps := Vector.ofFn fun i : Fin 24 =>
      if bits.getLsbD i.val then seq
      else if r.ev.getLsbD i.val ∧ serialD 8 seq.toNat r.stamps[i].toNat ≥ 128 then seq - 127
      else r.stamps[i] }

/-- Write back sequence `q` (R489): clear every set bit whose stamp is at or before `q`; a `q` after SEQ
clears nothing. -/
def RsReg.clear (r : RsReg) (q : Byte) : RsReg :=
  if serialAfter 8 q.toNat r.seq.toNat then r else
  { r with ev := BitVec.ofNat 24 <| loopN 24 (fun i acc =>
      let keep := r.ev.getLsbD i && !(serialAtOrBefore 8 (r.stamps.toArray.getD i 0).toNat q.toNat)
      acc + (if keep then 2 ^ i else 0)) 0 }

/-- The word an RS register reads as. -/
def RsReg.word (r : RsReg) : Word := r.seq ++ r.ev

/-- Append one entry to the Plinth error log, or drop it when the log is full (R490). -/
def elogAppend (s : State) (off bit : Nat) : State :=
  if s.host.elog.length < 256 then
    { s with host := { s.host with elog := s.host.elog ++ [(off / 4, bit)] } }
  else { s with host := { s.host with elogLost := true } }

/-- `off` lies in the SEC window, whose events the Plinth error log does not hold (R490). -/
def inSecWindow (off : Nat) : Bool := decide (0x700000 ≤ off) && decide (off < 0x800000)

/-- Record the events `bits` in the RS register at `off`, in one cycle, with the error log, and send the
messages of its class. -/
def rsEvents (s : State) (off : Nat) (bits : BitVec 24) : State :=
  if bits = 0 then s else
  let s := { s with rs := SMap.set {} s.rs off ((rsReg s off).record bits) }
  let s := if inSecWindow off then s
    else (List.range 24).foldl (fun s i => if bits.getLsbD i then elogAppend s off i else s) s
  match rsClass s off bits with
  | some (v, en) => classEvent s v en
  | none => s

/-- Record one event. -/
def rsEvent (s : State) (off bit : Nat) : State := rsEvents s off (BitVec.ofNat 24 (2 ^ bit))

/-! ### Security events (R509) -/

/-- Append to the security log, which drops its oldest entry when full (R509). -/
def secLog (s : State) (bit path detail : Nat) : State :=
  let l := s.sec.log ++ [(bit, path, detail % 16384)]
  { s with sec := { s.sec with log := l.drop (l.length - 64) } }

/-- Record a security event with its log entry. -/
def secEvent (s : State) (bit path detail : Nat) : State := rsEvent (secLog s bit path detail) rSecEvt bit

end Sys2Proof.Machine
end

