-- ==== Sys2Proof/Machine/Sync.lean ====
section
/-! DEFINITION. Machine/Sync.lean: synchronisation objects (07): the operations of R212 on one object, the arbitration
order of R219, waiters and their ends, host-wait slots. -/
namespace Sys2Proof.Machine
open Sys2Proof

/-! ### One object -/

/-- The greatest count (R208). -/
def countMax : Nat := 2147483647

/-- CAUSE codes of R211. -/
def causeUnderflow : BitVec 4 := 1
def causeOverflow : BitVec 4 := 2
def causeCollective : BitVec 4 := 3
def causeUnit : BitVec 4 := 4
def causeGenAhead : BitVec 4 := 5

/-- Status codes of R218. -/
def stDone : Nat := 1
def stTimeout : Nat := 2
def stObjError : Nat := 3
def stRearmed : Nat := 4
def stCancelled : Nat := 5

/-- What the arbiter did to an object: the object, the waiters that ended with their status, and whether
the object entered ERROR now. -/
structure ObjRes where
  obj : SyncObj
  ended : List (Waiter × Nat)
  newErr : Bool

/-- Step 5 of R219: waiters in arrival order; a TAKE completes only when no earlier TAKE is pending. -/
def evalWaiters : List Waiter → Nat → Bool → Nat × List Waiter × List (Waiter × Nat)
  | [], n, _ => (n, [], [])
  | w :: ws, n, blocked =>
    if w.take then
      if !blocked && decide (w.v ≤ n) then
        let (m, keep, done) := evalWaiters ws (n - w.v) blocked
        (m, keep, (w, stDone) :: done)
      else
        let (m, keep, done) := evalWaiters ws n true
        (m, w :: keep, done)
    else if w.v ≤ n then
      let (m, keep, done) := evalWaiters ws n blocked
      (m, keep, (w, stDone) :: done)
    else
      let (m, keep, done) := evalWaiters ws n blocked
      (m, w :: keep, done)

/-- Evaluate the waiters of an object that is OK. -/
def SyncObj.settle (o : SyncObj) : ObjRes :=
  let (n, keep, done) := evalWaiters o.waiters o.count false
  ⟨{ o with count := n, waiters := keep }, done, false⟩

/-- SET_ERROR c (R212): the first CAUSE stays (R216); pending waiters end OBJ_ERROR. -/
def SyncObj.setError (o : SyncObj) (c : BitVec 4) : ObjRes :=
  if o.err then ⟨o, [], false⟩
  else ⟨{ o with err := true, cause := c, waiters := [] }, o.waiters.map (·, stObjError), true⟩

/-- ADD n to the current generation (R213, R215, R216). -/
def SyncObj.add (o : SyncObj) (n : Nat) : ObjRes :=
  if o.err then ⟨o, [], false⟩
  else if countMax < o.count + n then o.setError causeOverflow
  else { o with count := o.count + n }.settle

/-- ADD n to AHEAD, for a signal one generation ahead (R220). -/
def SyncObj.addAhead (o : SyncObj) (n : Nat) : ObjRes :=
  if o.err then ⟨o, [], false⟩
  else if countMax < o.ahead + n then o.setError causeOverflow
  else ⟨{ o with ahead := o.ahead + n }, [], false⟩

/-- DEC n (R214, R216). -/
def SyncObj.dec (o : SyncObj) (n : Nat) : ObjRes :=
  if o.err then ⟨o, [], false⟩
  else if o.count < n then o.setError causeUnderflow
  else { o with count := o.count - n }.settle

/-- REARM to generation `g` (R212): COUNT takes `c`, the object is OK, pending waiters end REARMED. -/
def SyncObj.rearm (o : SyncObj) (c : Nat) (g : Half) : ObjRes :=
  ⟨{ count := c, gen := g }, o.waiters.map (·, stRearmed), false⟩

/-- A waiter arrives (R219 step 5, R216): it ends at once, or it is pending. -/
def SyncObj.wait (o : SyncObj) (w : Waiter) : ObjRes :=
  if o.err then ⟨o, [(w, stObjError)], false⟩
  else { o with waiters := o.waiters ++ [w] }.settle

/-- Withdraw the waiter of `who`; the object is otherwise untouched (R205, R223). -/
def SyncObj.withdraw (o : SyncObj) (who : Who) : SyncObj :=
  { o with waiters := o.waiters.filter fun w => decide (w.who ≠ who) }

/-- The waiter of `who` leaves, and those behind it are evaluated: a TAKE that stood only behind it may complete (R219
step 5 of the next cycle). -/
def SyncObj.leave (o : SyncObj) (who : Who) : ObjRes :=
  if o.err then ⟨o.withdraw who, [], false⟩ else (o.withdraw who).settle

/-! ### Objects of the module -/

/-- What an unlisted die-local object holds: COUNT 0, OK, the generation of the last activation (R210). -/
def localDefault (s : State) (d : Die) : SyncObj := { gen := (die s d).objGen }

/-- An object. -/
def getObj (s : State) : ObjRef → SyncObj
  | .glob i => SMap.get {} s.sync.glob i.val
  | .loc d i => SMap.get (localDefault s d) (die s d).objs i.val

/-- Replace an object. -/
def putObj (s : State) (r : ObjRef) (o : SyncObj) : State :=
  match r with
  | .glob i => { s with sync := { s.sync with glob := SMap.set {} s.sync.glob i.val o } }
  | .loc d i => updDie s d fun x => { x with objs := SMap.set { gen := x.objGen } x.objs i.val o }

/-- Who makes an operation, as SYNC_ERR_INFO names it: SOURCE, STREAM, REMOTE (R233). -/
structure Src where
  source : Nat
  stream : Nat := 0
  remote : Bool := false

/-- REF of SYNC_ERR_INFO: bit 15 GLOBAL, bits 14:0 INDEX (R177). -/
def refBits : ObjRef → Nat
  | .glob i => 0x8000 + i.val
  | .loc _ i => i.val

/-- The word of SYNC_ERR_INFO. -/
def syncInfo (cause : BitVec 4) (src : Src) (ref : Nat) : Word :=
  w32 (cause.toNat * 2 ^ 28 + (src.source % 64) * 2 ^ 22 + (src.stream % 4) * 2 ^ 20 + b2n src.remote * 2 ^ 19 + ref)

/-- Log a module-global sync event in SYNC_ERR_STAT and SYNC_ERR_INFO. -/
def syncEvent (s : State) (bit : Nat) (cause : BitVec 4) (src : Src) (ref : Nat) : State :=
  rsEvent (setReg s rSyncErrInfo (syncInfo cause src ref)) rSyncErrStat bit

/-- Log a die-local sync event. -/
def cdSyncEvent (s : State) (d : Die) (bit : Nat) (cause : BitVec 4) (src : Src) (ref : Nat) : State :=
  rsEvent (setReg s (cdWin d.val + rCdSyncErrInfo) (syncInfo cause src ref)) (cdWin d.val + rCdSyncErr) bit

/-- Log that an object entered ERROR with its CAUSE. -/
def logObjError (s : State) (r : ObjRef) (cause : BitVec 4) (src : Src) : State :=
  match r with
  | .glob _ =>
    let bit := if cause = causeUnderflow then 0 else if cause = causeOverflow then 1
      else if cause = causeCollective then 2 else 3
    syncEvent s bit cause src (refBits r)
  | .loc d _ =>
    if cause = causeOverflow then cdSyncEvent s d 0 cause src (refBits r)
    else if cause = causeCollective then cdSyncEvent s d 1 cause src (refBits r)
    else if cause = causeGenAhead then cdSyncEvent s d 3 cause src (refBits r)
    else s

/-! ### How a wait ends -/

/-- An image stops at once for cause `code`: STOP keeps the first cause (R435). -/
def stopImage (s : State) (code : Nat) : State :=
  if s.img.st = .none then s
  else { s with img := { s.img with st := .stopping, halt := true, stop := if s.img.stop = 0 then code else s.img.stop } }

/-- A host-wait slot ends (R230): the status is written, ARM clears, and the message of its vector is sent
unless it was cancelled (R231). -/
def endSlot (s : State) (n : Fin 1024) (status : Nat) (o : SyncObj) : State :=
  let ob := reg s (rHwObj + 16 * n.val)
  let cause := if status = stObjError then o.cause.toNat else 0
  let s := setReg s (rHwStat + 16 * n.val) (w32 (status * 2 ^ 28 + cause * 2 ^ 24 + o.gen.toNat))
  let s := setFld s (rHwObj + 16 * n.val) 31 31 0
  if status = stCancelled then s else msixDue s (fld ob 25 15)

/-- Field of a 64-byte descriptor: `len` bytes from offset `off`, little-endian (R172). -/
def dfld (d : BitVec 512) (off len : Nat) : Nat := (d.toNat / 2 ^ (8 * off)) % 2 ^ (8 * len)

/-- A stream's descriptor has issued or been passed over: the program pointer and the expected SEQ move on
and the count of issued descriptors rises (R174, R206). -/
def issued (s : State) (d : Die) (c : Sid) : State :=
  addReg64 (updStr s d c fun x =>
    { x with pc := x.pc + 64, expect := x.expect + 1, cur := none,
             st := if x.poison then .poisonPath else .issuing, waitRef := none })
    (cdWin d.val + rStrIssued) 1

/-- The tag of a signal of a stream (R220): the low half of the attempt number inside a step body; none in a
prologue. -/
def streamTag (x : Stream) : Option Half := if x.inBody then some (x.attempt.setWidth 16) else none

/-- The object a 32-bit sync reference names at die `d` (R177). -/
def refObj (d : Die) (ref : Nat) : ObjRef :=
  if ref.testBit 15 then .glob ⟨ref % 32768, Nat.mod_lt _ (by decide)⟩
  else .loc d ⟨ref % 4096, Nat.mod_lt _ (by decide)⟩

/-- A signal on its way to an object of this module. -/
structure Sig where
  ref : ObjRef
  n : Nat
  tag : Option Half
  src : Src

/-- The DONE signal of a descriptor (R176): none when DONE_COUNT is 0. -/
def doneSig (d : Die) (c : Sid) (x : Stream) (desc : BitVec 512) : List Sig :=
  let n := dfld desc 8 2
  if n = 0 then [] else [⟨refObj d (dfld desc 4 4), n, streamTag x, ⟨d.val, sidNat c, false⟩⟩]

/-- A stream's WAIT ends (R197, R222). DONE completes it and makes its DONE signal; an error status makes the
stream take the poison path, or stops the image when it is still in its prologue. -/
def endStreamWait (s : State) (d : Die) (c : Sid) (status : Nat) : State × List Sig :=
  let x := str s d c
  let s := updStr s d c fun x => { x with waiter := status }
  if status = stDone then
    (issued s d c, match x.cur with | some w => doneSig d c x w | none => [])
  else if !x.prologue then
    (updStr (issued s d c) d c fun x => { x with poison := true, st := .poisonPath }, [])
  else (stopImage (updStr s d c fun x => { x with waitRef := none, cur := none, faulted := true }) 5, [])

/-- Carry out the ends of waiters. -/
def endWaiters (s : State) (r : ObjRef) (o : SyncObj) : List (Waiter × Nat) → State × List Sig
  | [] => (s, [])
  | (w, st) :: ws =>
    match w.who with
    | .slot n => endWaiters (endSlot s n st o) r o ws
    | .stream d c =>
      let s := if st = stRearmed then
          cdSyncEvent s d 4 0 ⟨d.val, sidNat c, false⟩ (refBits r) else s
      let (s, sigs) := endStreamWait s d c st
      let (s, more) := endWaiters s r o ws
      (s, sigs ++ more)

/-- Store what the arbiter did and carry out its consequences; the DONE signals of streams that woke are
returned. -/
def applyRes (s : State) (r : ObjRef) (src : Src) (res : ObjRes) : State × List Sig :=
  let s := putObj s r res.obj
  let s := if res.newErr then logObjError s r res.obj.cause src else s
  endWaiters s r res.obj res.ended

/-- Replies to a remote signal (R225). -/
inductive SigReply where
  | applied | stale | refused
  deriving DecidableEq, Repr

/-- The step unit notes that the F stream of a die has signalled the input-consumed object in its step (R54 item 4). -/
def noteInput (s : State) (src : Src) (i : Nat) : State :=
  match s.img.sec.bind (·.params.inputConsumed) with
  | some o =>
    let x := str s ⟨src.source % 24, Nat.mod_lt _ (by decide)⟩ .f
    if o.val = i ∧ src.source < 24 ∧ src.stream = 0 ∧ !src.remote ∧ x.inBody then
      { s with step := { s.step with attempts := s.step.attempts.map fun a =>
        if a.att = x.attempt then { a with inputDone := true } else a } }
    else s
  | none => s

/-- The update unit notes which objects the U streams have signalled since the verdict (R289 item 5). -/
def noteCommit (s : State) (src : Src) (i : Nat) : State :=
  if s.upd.p2.isSome ∧ src.source < 24 ∧ src.stream = 2 then
    { s with upd := { s.upd with signalled := i :: s.upd.signalled } }
  else s

/-- Classify and apply one ADD (R219 step 2, R220). -/
def addOnce (s : State) (g : Sig) : State × List Sig × SigReply :=
  match g.ref with
  | .glob i =>
    let s := addReg64 s rSyncSignals 1
    let s := noteInput (noteCommit s g.src i.val) g.src i.val
    let (s, more) := applyRes s g.ref g.src ((getObj s g.ref).add g.n)
    let s := if i.val = 1 then classEvent s 0 (ctlBit s rEvtCtl 0)
      else if i.val = 4 ∨ i.val = 5 then classEvent s 2 (ctlBit s rEvtCtl 2) else s
    (s, more, .applied)
  | .loc d _ =>
    let o := getObj s g.ref
    if o.err then (s, [], .applied) else
    match g.tag with
    | none => let (s, more) := applyRes s g.ref g.src (o.add g.n); (s, more, .applied)
    | some t =>
      let k := serialDiff 16 t.toNat o.gen.toNat
      if k = 0 then let (s, more) := applyRes s g.ref g.src (o.add g.n); (s, more, .applied)
      else if k = 1 then let (s, more) := applyRes s g.ref g.src (o.addAhead g.n); (s, more, .applied)
      else if 2 ≤ k then
        let (s, more) := applyRes s g.ref g.src (o.setError causeGenAhead); (s, more, .applied)
      else (addReg s (cdWin d.val + rCdSyncStale) 1, [], .stale)

/-- Apply signals in order. A signal that wakes a stream may complete a WAIT whose DONE signal follows; each
stream has at most one WAIT in progress, so `fuel` above the number of signals plus the streams of the
module is never used up. -/
def addSignals : Nat → List Sig → State → State
  | 0, _, s => s
  | _, [], s => s
  | fuel + 1, g :: gs, s =>
    let (s, more, _) := addOnce s g
    addSignals fuel (gs ++ more) s

/-- The fuel of addSignals for `n` signals. -/
def sigFuel (n : Nat) : Nat := n + 97

/-- Apply the signals `gs` and everything that follows from them. -/
def signals (s : State) (gs : List Sig) : State := addSignals (sigFuel gs.length) gs s

/-- The MSD adds 1 to a module-global object (R422). -/
def signalUnit (s : State) (i : Fin 32768) : State := signals s [⟨.glob i, 1, none, ⟨25, 0, false⟩⟩]

/-- A Plinth unit adds 1 to a module-global object. -/
def signalPlinth (s : State) (i : Fin 32768) : State := signals s [⟨.glob i, 1, none, ⟨24, 0, false⟩⟩]

/-- A waiter is withdrawn from an object. -/
def leaveObj (s : State) (r : ObjRef) (who : Who) : State :=
  let (s, more) := applyRes s r ⟨26, 0, false⟩ ((getObj s r).leave who)
  signals s more

/-- A unit sets the error status of a completion object (R212). -/
def setObjError (s : State) (r : ObjRef) (cause : BitVec 4) (src : Src) : State :=
  let (s, more) := applyRes s r src ((getObj s r).setError cause)
  signals s more

/-- A waiter arrives at an object. -/
def waitOn (s : State) (r : ObjRef) (w : Waiter) : State :=
  let (s, more) := applyRes s r ⟨26, 0, false⟩ ((getObj s r).wait w)
  signals s more

/-- Re-arm one object with count `c` and generation `g`. -/
def rearmObj (s : State) (r : ObjRef) (c : Nat) (g : Half) : State :=
  let (s, more) := applyRes s r ⟨26, 0, false⟩ ((getObj s r).rearm c g)
  signals s more

/-- STEP_BEGIN's re-arm of a die-local object to generation `g` (R220): nothing when it already holds `g`. -/
def stepRearm (g : Half) (d : Die) (i : Fin 4096) (s : State) : State :=
  let o := getObj s (.loc d i)
  if o.gen = g then s else rearmObj s (.loc d i) o.ahead g

/-- The 96 streams. -/
def allStreams : List (Die × Sid) := allDies.flatMap fun d => allSids.map fun c => (d, c)

/-- Several waiters are withdrawn in one cycle, and then those that stay are evaluated. -/
def leaveAll (s : State) (ws : List (ObjRef × Who)) : State :=
  let s := ws.foldl (fun s w => putObj s w.1 ((getObj s w.1).withdraw w.2)) s
  ws.foldl (fun s w => leaveObj s w.1 w.2) s

/-- The waiters of several streams are withdrawn. -/
def withdrawAll (s : State) (xs : List (Die × Sid)) : State :=
  leaveAll s (xs.filterMap fun x => (str s x.1 x.2).waitRef.map fun r => (r, Who.stream x.1 x.2))

/-- Withdraw the waiter of a stream from the object it waits on (R205). -/
def withdrawWait (s : State) (d : Die) (c : Sid) : State :=
  match (str s d c).waitRef with
  | some r => leaveObj s r (.stream d c)
  | none => s

/-- The host access class of a module-global object (R229). -/
def hostClass (s : State) (i : Nat) : Nat :=
  if i = 0 then 1 else if i < 16 then 0
  else if s.img.st = .none then 2
  else (SMap.get 0 s.sync.classes i).toNat

/-- Reset of a die's objects (R210). -/
def resetObjs (s : State) (d : Die) (g : Half) : State := updDie s d fun x => { x with objs := [], objGen := g }

/-! ### The BAR4 page (R227 to R229) -/

/-- OBJ_COUNT of an object. -/
def objCountWord (o : SyncObj) : Word := w32 (b2n o.err * 2 ^ 31 + o.count)

/-- OBJ_GEN of an object. -/
def objGenWord (o : SyncObj) : Word := w32 (o.cause.toNat * 2 ^ 28 + o.gen.toNat)

/-- How an access of `len` bytes at a BAR4 offset ends, with the word a read finds: a Completer Abort at a reserved offset
or for any access but an aligned word; a WO register reads 0 (R11). Posted writes are performed in the order of their
commands, so the word is the object's after all of them (R228). -/
def bar4Access (s : State) (off len : Nat) : Status × Word :=
  let o := getObj s (.glob ⟨off / 32 % 32768, Nat.mod_lt _ (by decide)⟩)
  if len ≠ 4 ∨ off % 4 ≠ 0 ∨ 0x14 ≤ off % 32 ∨ 0x100000 ≤ off then (.ca, 0)
  else if off % 32 = 0 then (.sc, objCountWord o)
  else if off % 32 = 4 then (.sc, objGenWord o)
  else (.sc, 0)

/-- A host write refused by R227 or R229: discarded, Completer Abort, HOST_PROTECT. -/
def hostProtect (s : State) (i : Nat) : State :=
  busErr (syncEvent s 5 0 ⟨26, 0, false⟩ (0x8000 + i)) .host

/-- OBJ_SIGNAL. -/
def doObjSignal (i : Fin 32768) (v : Word) (s : State) : State :=
  if bitAt v 31 ∨ ¬ (hostClass s i.val = 1 ∨ hostClass s i.val = 2) then hostProtect s i.val
  else
    let s := if v.toNat = 0 then s else signals s [⟨.glob i, v.toNat, none, ⟨26, 0, false⟩⟩]
    complete s .host .sc []

/-- OBJ_DEC. -/
def doObjDec (i : Fin 32768) (v : Word) (s : State) : State :=
  if bitAt v 31 ∨ hostClass s i.val ≠ 2 then hostProtect s i.val
  else
    let s := if v.toNat = 0 then s else
      let (s, more) := applyRes s (.glob i) ⟨26, 0, false⟩ ((getObj s (.glob i)).dec v.toNat)
      signals s more
    complete s .host .sc []

/-- OBJ_REARM. -/
def doObjRearm (i : Fin 32768) (v : Word) (s : State) : State :=
  if fld v 31 16 ≠ 0 ∨ hostClass s i.val ≠ 2 then hostProtect s i.val
  else
    let o := getObj s (.glob i)
    let s := if o.gen = v.setWidth 16 then rearmObj s (.glob i) 0 (o.gen + 1)
      else syncEvent s 6 0 ⟨26, 0, false⟩ (0x8000 + i.val)
    complete s .host .sc []

/-! ### Host-wait slots (R230, R231) -/

/-- The slot is armed. -/
def slotArmed (s : State) (n : Fin 1024) : Bool := bitAt (reg s (rHwObj + 16 * n.val)) 31

/-- The object that a slot names. -/
def slotObj (s : State) (n : Fin 1024) : ObjRef := .glob ⟨fld (reg s (rHwObj + 16 * n.val)) 14 0 % 32768, Nat.mod_lt _ (by decide)⟩

/-- End an armed slot CANCELLED, without a message. -/
def cancelSlot (s : State) (n : Fin 1024) : State :=
  if slotArmed s n then
    let r := slotObj s n
    endSlot (leaveObj s r (.slot n)) n stCancelled (getObj s r)
  else s

/-- A value register's value; 0 acts as 1 (R233). -/
def slotVal (s : State) (n : Fin 1024) : Nat :=
  let v := (reg s (rHwVal + 16 * n.val)).toNat
  if v = 0 then 1 else v

/-- The deadline of a timeout of `us` microseconds that starts now; none for 0 (R223). -/
def deadlineUs (s : State) (us : Nat) : Option Nat := if us = 0 then none else some (s.clk + us * 1000)

/-- A write to SYNC_HW_OBJn with ARM set: the old wait ends CANCELLED, and the slot registers as a waiter
unless R230 refuses it; while HW_EN is 0 the arming is ignored. -/
def armSlot (n : Fin 1024) (v : Word) (s : State) : State :=
  if ctlBit s rSyncCtl 1 then
    let s := cancelSlot s n
    let i := fld v 14 0
    let s := setReg s (rHwObj + 16 * n.val) ((v &&& maskWord (rHwObj + 16 * n.val)) &&& 0x7FFFFFFF)
    if fld v 25 15 < 64 ∨ i < 16 ∨ (bitAt v 30 ∧ hostClass s i ≠ 2) then
      syncEvent s 5 0 ⟨26, 0, false⟩ (0x8000 + i)
    else
      let s := setFld s (rHwObj + 16 * n.val) 31 31 1
      waitOn s (.glob ⟨i % 32768, Nat.mod_lt _ (by decide)⟩)
        { who := .slot n, take := bitAt v 30, v := slotVal s n,
          deadline := deadlineUs s (reg s (rHwTmo + 16 * n.val)).toNat }
  else s

/-- A write to SYNC_HW_OBJn with ARM clear: an armed slot ends CANCELLED. -/
def disarmSlot (n : Fin 1024) (v : Word) (s : State) : State :=
  setReg (cancelSlot s n) (rHwObj + 16 * n.val) ((v &&& maskWord (rHwObj + 16 * n.val)) &&& 0x7FFFFFFF)

/-- The armed slots, in order: those whose SYNC_HW_OBJn holds ARM. -/
def armedSlots (s : State) : List (Fin 1024) :=
  s.regs.filterMap fun (off, v) =>
    if rHwObj ≤ off ∧ off < rHwObj + 16384 ∧ (off - rHwObj) % 16 = 0 ∧ bitAt v 31 then
      some ⟨(off - rHwObj) / 16 % 1024, Nat.mod_lt _ (by decide)⟩
    else none

/-- Every armed slot ends CANCELLED without a message. -/
def cancelAllSlots (s : State) : State :=
  let ns := armedSlots s
  ns.foldl cancelSlot (leaveAll s (ns.map fun n => (slotObj s n, .slot n)))

/-- A write to SYNC_CTL: the masked bits change; clearing HW_EN cancels every armed slot (R231, R233). -/
def writeSyncCtl (v : Word) (s : State) : State :=
  let old := reg s rSyncCtl
  let m := v >>> 16 &&& 3
  let new := (old &&& ~~~m) ||| (v &&& m)
  let s := setReg s rSyncCtl new
  if bitAt old 1 ∧ ¬ bitAt new 1 then cancelAllSlots s else s

end Sys2Proof.Machine
end

