-- ==== Sys2Proof/Machine/Memory.lean ====
section
/-! DEFINITION. Machine/Memory.lean: module memory and the tile stores (08): the address map, reads and writes by
granule with poison and errors, repair, retirement, scrub and the thermal bands of the stacks. -/
namespace Sys2Proof.Machine
open Sys2Proof

/-! ### Address map (R237 to R239) -/

/-- 2 MiB. -/
def pageBytes : Nat := 2097152
/-- Bytes of one channel (R259). -/
def chanBytes (m : MemState) : Nat := if m.variant then 1610612736 else 2147483648

/-- The set bits of a 32-bit mask. -/
def popCount (n : Nat) {w : Nat} (x : BitVec w) : Nat := loopN n (fun i a => a + b2n (x.getLsbD i)) 0

/-- CAP(n). -/
def capOf (m : MemState) (n : Stack) : Nat := (32 - popCount 32 m.st[n].chanOut) * chanBytes m

/-- SPREAD in bytes per stack. -/
def spreadOf (m : MemState) : Nat := m.spread * 67108864

/-- LOCAL_SIZE(n) (R238). -/
def localSize (m : MemState) (n : Stack) : Nat := capOf m n - m.reserve * pageBytes - spreadOf m

/-- First address of the spread window. -/
def spreadBase : Nat := 0x20000000000

/-- The stack and stack offset of a module address, before the page remap; none where unmapped (R237, R239,
R259). -/
def mapAddr (m : MemState) (a : Nat) : Option (Stack × Nat) :=
  if a < 0x18000000000 then
    let n : Stack := ⟨a / 2 ^ 36 % 24, Nat.mod_lt _ (by decide)⟩
    let o := a % 2 ^ 36
    if m.st[n].inService ∧ o < localSize m n then some (n, o) else none
  else if spreadBase ≤ a ∧ a - spreadBase < 24 * spreadOf m then
    let x := a - spreadBase
    let u := x / 2048
    let n : Stack := ⟨(u + u / 24) % 24, Nat.mod_lt _ (by decide)⟩
    if m.st[n].inService then some (n, capOf m n - spreadOf m + u / 24 * 2048 + x % 2048) else none
  else none

/-- The substitute of a page of a stack (R256); none when the page is unmapped. -/
def remapPage (x : StackState) (p : Nat) : Option Nat := SMap.get (some p) x.remap p

/-- The key of the byte at a module address in the stores of MemState; none where unmapped. -/
def phys (m : MemState) (a : Nat) : Option Nat :=
  match mapAddr m a with
  | none => none
  | some (n, o) =>
    match remapPage m.st[n] (o / pageBytes) with
    | none => none
    | some p => some (n.val * 2 ^ 36 + p * pageBytes + o % pageBytes)

/-- The in-service pseudo-channels of a stack, counted upward. -/
def pcsOf (x : StackState) : List Nat := (List.range 64).filter fun p => !(x.chanOut.getLsbD (p / 2))

/-- The page that page `q` of a stack stands in for, if it is a substitute (R256). -/
def substOf (x : StackState) (q : Nat) : Option Nat := (x.remap.find? fun e => decide (e.2 = some q)).map (·.1)

/-- The module address of a stack offset before the page remap, the inverse of R239; 0 in the reserve. -/
def offAddr (m : MemState) (n : Stack) (o : Nat) : Nat :=
  let b := capOf m n - spreadOf m
  if o < localSize m n then n.val * 2 ^ 36 + o
  else if b ≤ o then
    let k := (o - b) / 2048
    spreadBase + (24 * k + (n.val + 24 - k % 24) % 24) * 2048 + o % 2048
  else 0

/-- The row that holds a stack offset: ((pc × 16 + bank) × 2^32 + row) (R239). -/
def rowOf (x : StackState) (o : Nat) : Nat :=
  let pcs := pcsOf x
  let u := o / 2048
  let g := u / (max 1 pcs.length)
  let pc := pcs.getD ((u + g) % (max 1 pcs.length)) 0
  (pc * 16 + g % 16) * 2 ^ 32 + g / 16

/-- The whole range is mapped. Mapping is uniform over 2 KiB units. -/
def mappedRange (m : MemState) (a len : Nat) : Bool :=
  decide (a + len ≤ 2 ^ 48) &&
  (List.range ((a % 2048 + len + 2047) / 2048)).all fun k => (phys m (a / 2048 * 2048 + k * 2048)).isSome

/-- [a, a + len) and [b, b + k) overlap. -/
def overlaps (a len b k : Nat) : Bool := decide (a < b + k) && decide (b < a + len) && decide (0 < len) && decide (0 < k)

/-- The range touches the active job image (R35). -/
def inImage (s : State) (a len : Nat) : Bool :=
  decide (s.img.st ≠ .none) && overlaps a len s.img.base.toNat (s.img.len * 4096)

/-! ### Stopping the image at a step boundary (R201) -/

/-- The highest step number begun by any stream since activation; STEP_CTR while none has begun. -/
def highestStep (u : StepUnit) : DWord :=
  u.attempts.foldl (fun m a => if m.toNat < a.step.toNat then a.step else m) u.ctr

/-- A stop is requested with cause `code` (R201, R435). Ignored while no image is active (R436). -/
def requestStop (s : State) (code : Nat) : State :=
  match s.img.st with
  | .none => s
  | .verifying | .loading => { s with img := { s.img with stopReq := true, stop := if s.img.stop = 0 then code else s.img.stop } }
  | st =>
    { s with
      img := { s.img with stopReq := true, stop := if s.img.stop = 0 then code else s.img.stop,
                          st := if st = .running then .stopping else st }
      step := { s.step with stopStep := match s.step.stopStep with | some x => some x | none => some (highestStep s.step) } }

/-! ### Errors, repair and retirement (R250 to R256) -/

/-- Update stack `n`. -/
def updStack (s : State) (n : Stack) (f : StackState → StackState) : State :=
  { s with mem := { s.mem with st := s.mem.st.set n (f s.mem.st[n]) } }

/-- MEM_ERR_INFO for a row (R264). -/
def memInfo (n : Stack) (row : Nat) : Word :=
  let pc := row / 2 ^ 36
  w32 (n.val * 2 ^ 27 + pc / 2 * 2 ^ 22 + pc % 2 * 2 ^ 21 + row / 2 ^ 32 % 16 * 2 ^ 17 + row % 2 ^ 15)

/-- Record a memory event. -/
def memEvent (s : State) (bit : Nat) (n : Stack) (row : Nat) : State :=
  rsEvent (setReg s rMemErrInfo (memInfo n row)) rMemErr bit

/-- The class of R241 that covers page `p` of stack `n` of the active image, if any region does. -/
def pageClass (s : State) (n : Stack) (p : Nat) : Option RegionClass :=
  match s.img.sec with
  | none => none
  | some sec =>
    let a := n.val * 2 ^ 36 + p * pageBytes
    let hit := sec.regions.filter fun r => overlaps a pageBytes r.base r.len
    if s.img.st = .none ∨ localSize s.mem n ≤ p * pageBytes then none
    else if hit.any (fun r => decide (r.cls = .persistent)) then some .persistent
    else if hit.any (fun r => decide (r.cls = .fixed)) then some .fixed
    else if hit.any (fun r => decide (r.cls = .pool)) then some .pool
    else none

/-- Poison every granule of page `p` of stack `n`. -/
def poisonPage (s : State) (n : Stack) (p : Nat) : State :=
  let g0 := (n.val * 2 ^ 36 + p * pageBytes) / 64
  { s with mem := { s.mem with poison := loopN (pageBytes / 64) (fun i m => SMap.set false m (g0 + i) true) s.mem.poison } }

/-- Enter a channel for map-out in the flash log (R256). -/
def logMapOut (s : State) (n : Stack) (ch : Nat) : State :=
  let e : Stack × Fin 32 := (n, ⟨ch % 32, Nat.mod_lt _ (by decide)⟩)
  if e ∈ s.flash.mapOut then s else { s with flash := { s.flash with mapOut := s.flash.mapOut ++ [e] } }

/-- Log what became of a retired page in flash (R257). -/
def logRemap (s : State) (n : Stack) (p : Nat) (sub : Option Nat) : State :=
  { s with flash := { s.flash with remaps := s.flash.remaps ++ [(n.val, p, sub)] } }

/-- Enter what became of page `p` in the remap table of its stack and in flash (R257). -/
def setRemap (s : State) (n : Stack) (p : Nat) (sub : Option Nat) : State :=
  logRemap (updStack s n fun x => { x with remap := SMap.set (some p) x.remap p sub }) n p sub

/-- Retire page `p` of a stack for its row `row` (R256); `again` says that the page that fails is its substitute. With the
remap table full, the page stays as it is, and counts as one that no substitute remained for (DESIGN CHOICE, log entry 76). -/
def retireOne (s : State) (n : Stack) (p row : Nat) (again : Bool) : State :=
  let cls := pageClass s n p
  let full := !again && decide (256 ≤ s.mem.st[n].remap.length)
  let used := s.mem.st[n].reserveUsed
  let s := logMapOut (updStack s n fun x => { x with chanPend := x.chanPend ||| BitVec.ofNat 32 (2 ^ (row / 2 ^ 37)) }) n (row / 2 ^ 37)
  let s := memEvent s 5 n row
  let s := setReg64 s rMemErrAddr (w64 (offAddr s.mem n (p * pageBytes)))
  let s := satFld16 s rRetired 0
  let s := memEvent s 4 n row
  let s := if cls = some .persistent then memEvent s 10 n row else s
  let s :=
    if cls = some .pool ∧ !full then
      let s := setRemap s n p none
      { s with step := { s.step with poolLost := s.step.poolLost ++ [n.val] } }
    else if used < s.mem.reserve ∧ !full then
      let sub := localSize s.mem n / pageBytes + used
      let s := setRemap (updStack s n fun x => { x with reserveUsed := used + 1 }) n p (some sub)
      let s := setFld s rRetired 31 16 (fld (reg s rRetired) 31 16 + b2n (!again))
      poisonPage s n sub
    else
      let s := if full then s else setRemap s n p none
      let s := setFld s rRetired 31 16 (fld (reg s rRetired) 31 16 - b2n again)
      memEvent (if cls = some .persistent then s else requestStop s 8) 9 n row
  if cls = some .persistent then requestStop s 7 else s

/-- Retire the page that holds stack offset `o`, whose row is `row`: for a substitute, the page it stands in for; a page
retired before is not retired again (R256). -/
def retirePage (s : State) (n : Stack) (o row : Nat) : State :=
  let x := s.mem.st[n]
  let q := o / pageBytes
  match substOf x q with
  | some p => retireOne s n p row true
  | none => if x.remap.any fun e => decide (e.1 = q) then s else retireOne s n q row false

/-- A row needs repair (R255, R256): it joins the repairs of its stack, or its page is retired when it was
repaired before or its bank has no spare row left for it. -/
def rowNeedsRepair (s : State) (n : Stack) (o : Nat) : State :=
  let x := s.mem.st[n]
  let row := rowOf x o
  let bank := row / 2 ^ 32
  if row ∈ x.repairs then s
  else if row ∈ x.repaired ∨ x.spareRows ≤ SMap.get 0 x.usedSpares bank + (x.repairs.filter fun r => decide (r / 2 ^ 32 = bank)).length then
    retirePage s n o row
  else updStack s n fun x => { x with repairs := x.repairs ++ [row] }

/-- Stack and stack offset of a granule. -/
def granStack (g : Nat) : Stack := ⟨g * 64 / 2 ^ 36 % 24, Nat.mod_lt _ (by decide)⟩
def granOff (g : Nat) : Nat := g * 64 % 2 ^ 36

/-- The module address of a granule; 0 where no address reaches it. -/
def granAddr (m : MemState) (g : Nat) : Nat :=
  let n := granStack g
  let o := granOff g
  let q := o / pageBytes
  offAddr m n ((substOf m.st[n] q).getD q * pageBytes + o % pageBytes)

/-- A new uncorrectable error in granule `g` (key ÷ 64), found at module address `a` (R250): it is written
back poisoned, counted, and the repair of its row starts. -/
def foundUe (s : State) (g a : Nat) : State :=
  let n := granStack g
  let s := { s with mem := { s.mem with ue := SMap.set false s.mem.ue g false, poison := SMap.set false s.mem.poison g true } }
  let s := addReg s (stWin n.val + 0x18) 1
  let s := addReg s rUeTotal 1
  let s := setReg64 s rMemErrAddr (w64 a)
  let s := memEvent s 2 n (rowOf s.mem.st[n] (granOff g))
  rowNeedsRepair s n (granOff g)

/-- The scrub period in ns. -/
def scrubNs (s : State) : Nat := s.mem.scrubHours * 3600000000000

/-- The table of rows with correctable errors after one more in `row` at time `now`; only errors within one scrub period
count together (R254). -/
def hitCeRow (rows : List CeRow) (row now period : Nat) : List CeRow :=
  match rows.find? fun r => decide (r.row = row) with
  | some r =>
    rows.filter (fun q => decide (q.row ≠ row)) ++ [{ r with hits := now :: r.hits.filter fun h => decide (now < h + period) }]
  | none => (if rows.length < 256 then rows else rows.drop 1) ++ [{ row := row, hits := [now] }]

/-- Correct granule `g`: the correction counts for its stack and the module (R252). -/
def correctGran (s : State) (g : Nat) : State :=
  let s := { s with mem := { s.mem with ce := SMap.set false s.mem.ce g false } }
  addReg64 (addReg64 s (stWin (granStack g).val + 0x10) 1) rCeTotal 1

/-- A correctable error in granule `g` (R252, R254): corrected, counted, and counted against its row. -/
def foundCe (s : State) (g : Nat) : State :=
  let n := granStack g
  let row := rowOf s.mem.st[n] (granOff g)
  let s := correctGran s g
  let s := updStack s n fun x => { x with ceRows := hitCeRow x.ceRows row s.clk (scrubNs s) }
  match s.mem.st[n].ceRows.find? fun r => decide (r.row = row) with
  | some r =>
    if s.mem.rowCeLimit ≤ r.hits.length then
      let s := updStack s n fun x => { x with ceRows := x.ceRows.filter fun q => decide (q.row ≠ row) }
      rowNeedsRepair (memEvent s 0 n row) n (granOff g)
    else s
  | none => s

/-- A command that fails address parity is retried once (R236); a second failure is an uncorrectable error on
every granule the command addressed. The command is the first access of the range, within one interleave unit (R242). -/
def caParity (s : State) (grans : List (Nat × Nat)) : State :=
  if s.mem.parity = 0 then s
  else
    let bad := decide (2 ≤ s.mem.parity)
    let s := { s with mem := { s.mem with parity := 0 } }
    let g0 := (grans.headD (0, 0)).1
    let s := memEvent s 1 (granStack g0) (rowOf s.mem.st[granStack g0] (granOff g0))
    if bad then (grans.filter fun x => decide (x.1 / 32 = g0 / 32)).foldl (fun s (g, a) => foundUe s g a) s else s

/-- Repair row `row` of a stack, the first in hand on its pseudo-channel (R255): the row is read, what can be corrected is,
uncorrectable granules are poisoned, and the row is written back. Its errors count for the stack (R250, R252), and the
repaired row leaves the table of R254 (DESIGN CHOICE, log entry 76). -/
def repairRow (s : State) (n : Stack) (row : Nat) : State :=
  let x := s.mem.st[n]
  let inRow (m : SMap Bool) : List Nat := (m.map (·.1)).filter fun g => decide (granStack g = n) && decide (rowOf x (granOff g) = row)
  let s := (inRow s.mem.ue).foldl (fun s g => foundUe s g (granAddr s.mem g)) s
  let s := (inRow s.mem.ce).foldl correctGran s
  let s := updStack s n fun x =>
    { x with repairs := x.repairs.filter (fun q => decide (q ≠ row)), repaired := x.repaired ++ [row],
             ceRows := x.ceRows.filter (fun q => decide (q.row ≠ row)), soft := satInc 16 x.soft,
             usedSpares := SMap.upd 0 x.usedSpares (row / 2 ^ 32) (· + 1) }
  memEvent { s with flash := { s.flash with repairs := s.flash.repairs ++ [(n.val, row)] } } 3 n row

/-- An access to granule `g` is held while a repair runs in its bank, and proceeds against the repaired row (R255). -/
def holdForRepair (s : State) (g : Nat) : State :=
  let n := granStack g
  let row := rowOf s.mem.st[n] (granOff g)
  match s.mem.st[n].repairs.find? fun r => decide (r / 2 ^ 36 = row / 2 ^ 36) with
  | some r => if r / 2 ^ 32 = row / 2 ^ 32 then repairRow s n r else s
  | none => s

/-- The granules of a mapped range: (key ÷ 64, module address). -/
def gransOf (m : MemState) (a len : Nat) : List (Nat × Nat) :=
  (List.range ((a % 64 + len + 63) / 64)).filterMap fun k =>
    let b := a / 64 * 64 + k * 64
    match phys m b with
    | some p => some (p / 64, b)
    | none => none

/-- Bytes of a mapped range, whatever errors it holds. -/
def memBytes (m : MemState) (a len : Nat) : List Byte :=
  (List.range len).map fun i =>
    match phys m (a + i) with
    | some p => SMap.get 0 m.hbm p
    | none => 0

/-- The read of one granule finds it in error: uncorrectable, poisoned, or in a stack in EMERGENCY. -/
def granBad (m : MemState) (g : Nat) : Bool :=
  SMap.get false m.poison g || SMap.get false m.ue g || m.st[granStack g].emergency

/-- What reading a granule does: a new uncorrectable error is handled (R250), a correctable one corrected. -/
def touchGran (s : State) (g a : Nat) : State :=
  if s.mem.st[granStack g].emergency then s
  else if SMap.get false s.mem.ue g then foundUe s g a
  else if SMap.get false s.mem.ce g then foundCe s g
  else s

/-- The result of a read: the bytes, and whether any granule of it was in error. -/
structure MemRead where
  data : List Byte
  bad : Bool

/-- Read `len` bytes at a module address; none where a byte is unmapped. -/
def memRead (s : State) (a len : Nat) : Option (MemRead × State) :=
  if mappedRange s.mem a len then
    let gs := gransOf s.mem a len
    let s := caParity (gs.foldl (fun s (g, _) => holdForRepair s g) s) gs
    let bad := gs.any fun (g, _) => granBad s.mem g
    let data := memBytes s.mem a len
    some (⟨data, bad⟩, gs.foldl (fun s (g, b) => touchGran s g b) s)
  else none

/-- Store bytes by key. -/
def storeBytes (m : MemState) (a : Nat) (bs : List Byte) : MemState :=
  { m with hbm := (bs.zipIdx).foldl (fun h (b, i) =>
      match phys m (a + i) with
      | some p => SMap.set 0 h p b
      | none => h) m.hbm }

/-- What writing does to the check code of one granule that [a, a + len) covers, wholly or in part (R243,
R251): a whole granule is clean after it; a part of a granule in error leaves it poisoned. -/
def writeMark (s : State) (a len g b : Nat) : State :=
  if a ≤ b ∧ b + 64 ≤ a + len then
    { s with mem := { s.mem with poison := SMap.set false s.mem.poison g false, ue := SMap.set false s.mem.ue g false,
                                 ce := SMap.set false s.mem.ce g false } }
  else touchGran s g b

/-- Write bytes at a module address: none where a byte is unmapped; the flag says that a stack in EMERGENCY
refused the write (R263). -/
def memWrite (s : State) (a : Nat) (bs : List Byte) : Option (Bool × State) :=
  if mappedRange s.mem a bs.length then
    let gs := gransOf s.mem a bs.length
    if gs.any (fun (g, _) => s.mem.st[granStack g].emergency) then some (true, s)
    else
      let s := gs.foldl (fun s (g, _) => holdForRepair s g) s
      let s := gs.foldl (fun s (g, b) => writeMark s a bs.length g b) s
      some (false, caParity { s with mem := storeBytes s.mem a bs } gs)
  else none

/-- A posted write of one of the module's own units to a record or buffer: a write that a stack refuses is lost (DESIGN
CHOICE, log entry 76). -/
def memPut (s : State) (a : Nat) (bs : List Byte) : State :=
  match memWrite s a bs with
  | some (_, s) => s
  | none => s

/-- Mark the granules of a mapped range poisoned (R187, R249), but for those of a stack in EMERGENCY, which refuses the
write (R263). -/
def memPoison (s : State) (a len : Nat) : State :=
  { s with mem := { s.mem with poison := (gransOf s.mem a len).foldl (fun m (g, _) =>
      if s.mem.st[granStack g].emergency then m else SMap.set false m g true) s.mem.poison } }

/-- The number a mapped, error-free range holds; 0 elsewhere. Reads without effect, for the module's own tables. -/
def peekNat (s : State) (a len : Nat) : Nat := leNat (memBytes s.mem a len)

/-! ### Tile stores (R246 to R248) -/

/-- 64 MiB. -/
def tsBytes : Nat := 67108864

/-- CDnn_TS_ERR_INFO (R264). -/
def tsInfo (off port : Nat) : Word := w32 (off / 64 % 32 * 2 ^ 27 + off / 2048 % 2 ^ 15 * 2 ^ 12 + port % 4 * 2 ^ 10)

/-- Record a tile-store event of die `d`. -/
def tsEvent (s : State) (d : Die) (bit off port : Nat) : State :=
  rsEvent (setReg s (cdWin d.val + rTsErrInfo) (tsInfo off port)) (cdWin d.val + rTsErr) bit

/-- The 8 B words that a range touches. -/
def tsWords (off len : Nat) : List Nat := (List.range ((off % 8 + len + 7) / 8)).map (· + off / 8)

/-- Corrections of words of a tile store: each is counted, and recorded at its place (R248). -/
def tsCorrect (s : State) (d : Die) (ws : List Nat) (port : Nat) : State :=
  ws.foldl (fun s w => tsEvent (updDie (addReg64 s (cdWin d.val + rTsCe) 1) d fun y =>
    { y with tsCe := y.tsCe.filter fun v => decide (v ≠ w) }) d 0 (8 * w) port) s

/-- Uncorrectable words that an access meets, each recorded at its place. -/
def tsStuck (s : State) (d : Die) (ws : List Nat) (port : Nat) : State := ws.foldl (fun s w => tsEvent s d 1 (8 * w) port) s

/-- Read a range of a tile store over `port`: the bytes and whether a word was uncorrectable. Corrections are
counted (R248). -/
def tsRead (s : State) (d : Die) (off len port : Nat) : MemRead × State :=
  let ws := tsWords off len
  let x := die s d
  let ues := ws.filter fun w => decide (w ∈ x.tsUe)
  let s := tsCorrect (tsStuck s d ues port) d (ws.filter fun w => decide (w ∈ x.tsCe)) port
  let bad := !ues.isEmpty
  (⟨(List.range len).map fun i => SMap.get 0 x.ts (off + i), bad⟩, s)

/-- Write a range of a tile store: a word written in part that is uncorrectable is left as it was and
recorded, and a correctable one corrected and counted; a word written whole is clean (R248). -/
def tsWrite (s : State) (d : Die) (off : Nat) (bs : List Byte) (port : Nat) : State :=
  let len := bs.length
  let ws := tsWords off len
  let x := die s d
  let part (w : Nat) : Bool := decide (w * 8 < off) || decide (off + len < w * 8 + 8)
  let stuck := ws.filter fun w => part w && decide (w ∈ x.tsUe)
  let s := tsStuck s d stuck port
  let s := tsCorrect s d (ws.filter fun w => part w && decide (w ∈ x.tsCe)) port
  updDie s d fun y =>
    { y with
      tsUe := y.tsUe.filter fun w => decide (w ∉ ws) || decide (w ∈ stuck)
      tsCe := y.tsCe.filter fun w => decide (w ∉ ws)
      ts := (bs.zipIdx).foldl (fun m (b, i) => if (off + i) / 8 ∈ stuck then m else SMap.set 0 m (off + i) b) y.ts }

/-! ### Rows of the table: repair, scrub -/

/-- ROW_REPAIR_DONE: the first repair in hand on its pseudo-channel ends (R255). -/
def doRowRepairDone (n : Stack) (row : Nat) (s : State) : State :=
  match s.mem.st[n].repairs.find? fun r => decide (r / 2 ^ 36 = row / 2 ^ 36) with
  | none => s
  | some r => if r ≠ row then s else repairRow s n row

/-- PATROL_SCRUB: the next interleave unit is read, corrected, and its new errors handled (R253). -/
def doPatrolScrub (n : Stack) (s : State) : State :=
  let x := s.mem.st[n]
  if ¬ x.inService ∨ x.emergency then s else
  let g0 := (n.val * 2 ^ 36 + x.scrubPos) / 64
  let gs := (List.range 32).map fun i => (g0 + i, granAddr s.mem (g0 + i))
  let s := caParity (holdForRepair s g0) gs
  let s := gs.foldl (fun s (g, a) => touchGran s g a) s
  let whole := decide (capOf s.mem n ≤ x.scrubPos + 2048)
  updStack s n fun x => { x with scrubPos := if whole then 0 else x.scrubPos + 2048, scrubPass := x.scrubPass + b2n whole }

/-- ROW_CE_AGE: a row with no new error for one scrub period is dropped (R254). -/
def doRowCeAge (n : Stack) (row : Nat) (s : State) : State :=
  match s.mem.st[n].ceRows.find? fun r => decide (r.row = row) with
  | none => s
  | some r =>
    let s := advanceTo (r.hits.headD 0 + scrubNs s) s
    updStack s n fun x => { x with ceRows := x.ceRows.filter fun q => decide (q.row ≠ row) }

end Sys2Proof.Machine
end

