-- ==== Sys2Proof/Machine/Operands.lean ====
section
/-! DEFINITION. Machine/Operands.lean: the operand forms: the fields of descriptors (R175 to R192) with the checks of
R525, and the fields of layer descriptors (R266). -/
namespace Sys2Proof.Machine
open Sys2Proof

/-! ### Descriptor header (R175) -/

def dType (w : BitVec 512) : Nat := dfld w 0 1
def dFlags (w : BitVec 512) : Nat := dfld w 1 1
def dLayer (w : BitVec 512) : Half := BitVec.ofNat 16 (dfld w 2 2)
def dDoneRef (w : BitVec 512) : Nat := dfld w 4 4
def dDoneCount (w : BitVec 512) : Nat := dfld w 8 2
def dSeq (w : BitVec 512) : Half := BitVec.ofNat 16 (dfld w 10 2)
def dFence (w : BitVec 512) : Bool := (dFlags w).testBit 0
def dRunOnPoison (w : BitVec 512) : Bool := (dFlags w).testBit 1
def dGate (w : BitVec 512) : Nat := dFlags w / 4 % 8

/-- Type codes. -/
def tArray : Nat := 1
def tVector : Nat := 2
def tMove : Nat := 3
def tSignal : Nat := 4
def tWait : Nat := 5
def tCollective : Nat := 6
def tStep : Nat := 7

/-- OP of a MOVE or STEP descriptor. -/
def dOp (w : BitVec 512) : Nat := dfld w 0xC 1
/-- OP of a COLLECTIVE descriptor. -/
def cOp (w : BitVec 512) : Nat := dfld w 0xE 1

/-- The format code is one of R109. -/
def fmtKnown (f : Nat) : Bool := decide (f ≤ 0xC)
/-- The format has a block scale. -/
def isMx (f : Nat) : Bool := decide (8 ≤ f) && decide (f ≤ 0xC)

/-! ### ARRAY fields (R182) -/

def aTag (w : BitVec 512) : Half := BitVec.ofNat 16 (dfld w 0xC 2)
def aCtrl (w : BitVec 512) : Nat := dfld w 0xE 2
def aMode (w : BitVec 512) : Nat := aCtrl w % 4
def aPair (w : BitVec 512) : Bool := (aCtrl w).testBit 2
def aFmtS (w : BitVec 512) : Nat := aCtrl w / 16 % 16
def aFmtA (w : BitVec 512) : Nat := aCtrl w / 256 % 16
def aSAddr (w : BitVec 512) : Nat := dfld w 0x10 4
def aAAddr (w : BitVec 512) : Nat := dfld w 0x14 4
def aSScale (w : BitVec 512) : Nat := dfld w 0x18 4
def aAScale (w : BitVec 512) : Nat := dfld w 0x1C 4
def aSPitch (w : BitVec 512) : Nat := dfld w 0x20 4
def aAPitch (w : BitVec 512) : Nat := dfld w 0x24 4
def aM (w : BitVec 512) : Nat := dfld w 0x28 4
def aK (w : BitVec 512) : Nat := dfld w 0x2C 4
def aN (w : BitVec 512) : Nat := dfld w 0x30 4
def aItemFirst (w : BitVec 512) : Nat := dfld w 0x34 4
def aItemCount (w : BitVec 512) : Nat := dfld w 0x38 2
def aSplit (w : BitVec 512) : Nat := dfld w 0x3A 1
def aItemStride (w : BitVec 512) : Nat := dfld w 0x3C 2

/-! ### The checks of R525, items 4 to 6 -/

/-- Fault bits of CDnn_STR_ERR (R206). -/
def fType : Nat := 0
def fField : Nat := 1
def fRef : Nat := 2
def fRange : Nat := 3
def fSeq : Nat := 4
def fUe : Nat := 5
def fPc : Nat := 6
def fTimeout : Nat := 7
def fMoveUe : Nat := 8
def fUnit : Nat := 9

/-- DESC_TYPE (R180, R192, R202): a reserved TYPE or OP, a type the stream may not issue, a misplaced STEP. -/
def typeBad (c : Sid) (inBody : Bool) (w : BitVec 512) : Bool :=
  match dType w with
  | 1 => decide (c = .t)
  | 2 => false
  | 3 => decide (1 < dOp w)
  | 4 => false
  | 5 => false
  | 6 => decide (c ≠ .t) || decide (4 < cOp w)
  | 7 =>
    match dOp w with
    | 0 => inBody
    | 1 => !inBody
    | 2 => decide (c ≠ .u) || !inBody
    | 3 => decide (c ≠ .f) || !inBody
    | _ => true
  | _ => true

/-- A 32-bit sync reference has its reserved bits zero. -/
def refReservedOk (r : Nat) : Bool := decide (r < 65536)

/-- 1 ≤ v ≤ 2^24. -/
def extentOk (v : Nat) : Bool := decide (1 ≤ v) && decide (v ≤ 16777216)

/-- A multiple of 64. -/
def mult64 (v : Nat) : Bool := decide (v % 64 = 0)

/-- DESC_FIELD for the body of each type (R182 to R192), except the item range of R184. -/
def fieldBad (w : BitVec 512) : Bool :=
  let z (o n : Nat) : Bool := decide (dfld w o n = 0)
  let hdr := decide (dFlags w / 32 = 0) && decide (dGate w ≠ 7) &&
    !(decide (dGate w = 1) && decide (dLayer w = 0xFFFF)) && refReservedOk (dDoneRef w)
  let body : Bool :=
    match dType w with
    | 1 => decide (aCtrl w / 8 % 2 = 0) && decide (aCtrl w / 4096 = 0) && (isMx (aFmtS w) || z 0x18 4) &&
        (isMx (aFmtA w) || z 0x1C 4) && extentOk (aM w) && extentOk (aK w) && extentOk (aN w) &&
        decide (1 ≤ aSplit w) && decide (aSplit w ≤ 24) && z 0x3B 1 && decide (1 ≤ aItemStride w) && z 0x3E 2
    | 2 => decide (dfld w 0xC 2 ≤ 32767) && z 0xE 2
    | 3 => decide (dfld w 0xD 1 / 16 = 0) && decide (dfld w 0xD 1 % 4 ≠ 3) && decide (dfld w 0xD 1 / 4 % 4 ≠ 3) &&
        (decide (dOp w = 0) || (decide (dfld w 0xD 1 % 4 = 0) && z 0x10 8)) && z 0xE 2 &&
        mult64 (dfld w 0x10 8) && mult64 (dfld w 0x18 8) && decide (64 ≤ dfld w 0x20 4) &&
        decide (dfld w 0x20 4 ≤ 67108864) && mult64 (dfld w 0x20 4) && extentOk (dfld w 0x24 4) &&
        mult64 (dfld w 0x28 8) && mult64 (dfld w 0x30 8) && z 0x38 8
    | 4 => decide (dfld w 0xC 1 ≤ 1) && decide (dfld w 0xD 1 ≤ 24) &&
        (decide (dfld w 0xC 1 = 1) || z 0xE 2) && refReservedOk (dfld w 0x10 4) &&
        decide (1 ≤ dfld w 0x14 4) && decide (dfld w 0x14 4 ≤ countMax) && z 0x18 40
    | 5 => refReservedOk (dfld w 0xC 4) && decide (1 ≤ dfld w 0x10 4) && decide (dfld w 0x10 4 ≤ countMax) &&
        decide (dfld w 0x14 1 ≤ 1) && z 0x15 3 && z 0x1C 36
    | 6 => decide (dfld w 0xC 2 ≤ 4095) && fmtKnown (dfld w 0xF 1) && decide (1 ≤ dfld w 0x29 1) &&
        decide (dfld w 0x2A 1 ≤ 3) && z 0x2B 1 && z 0x30 16 && decide (dDoneCount w ≠ 0)
    | _ => z 0xD 3 &&
        match dOp w with
        | 0 => decide (dfld w 0x10 2 + dfld w 0x12 2 ≤ 4096) && z 0x14 4 && z 0x2A 22
        | 1 => z 0x1A 38
        | 2 => z 0x10 48
        | _ => decide (dfld w 0x10 8 % 4 = 0) && z 0x18 40
  !(hdr && body)

/-- A reference that a WAIT or a DONE signal may name (R177, R196). -/
def refOk (r : Nat) : Bool :=
  if r.testBit 15 then decide (16 ≤ r % 32768) else decide (r % 32768 < 4096)

/-- DESC_REF (R177, R189, R196). DESIGN CHOICE: with DONE_COUNT 0 the DONE_REF is not used and may name anything; the spec
does not say whether an unused one counts (log 75). -/
def refBad (w : BitVec 512) : Bool :=
  let done := decide (dDoneCount w = 0) || refOk (dDoneRef w)
  let body : Bool :=
    match dType w with
    | 4 =>
      let r := dfld w 0x10 4
      refOk r && (if dfld w 0xD 1 = 24 then r.testBit 15 else !(r.testBit 15))
    | 5 => refOk (dfld w 0xC 4)
    | _ => true
  !(done && body)

/-- The first of DESC_TYPE, DESC_FIELD and DESC_REF that a descriptor raises (R525). -/
def staticFault (c : Sid) (inBody : Bool) (w : BitVec 512) : Option Nat :=
  if typeBad c inBody w then some fType
  else if fieldBad w then some fField
  else if refBad w then some fRef
  else none

/-! ### Layer descriptors (R266) -/

/-- Field of a 128-byte layer descriptor. -/
def lfld (l : BitVec 1024) (off len : Nat) : Nat := (l.toNat / 2 ^ (8 * off)) % 2 ^ (8 * len)
def lLayer (l : BitVec 1024) : Nat := lfld l 0 2
def lRule (l : BitVec 1024) : Nat := lfld l 2 1
def lFlags (l : BitVec 1024) : Nat := lfld l 3 1
def lFrozen (l : BitVec 1024) : Bool := (lFlags l).testBit 0
def lGradCompute (l : BitVec 1024) : Bool := (lFlags l).testBit 1
def lNormIn (l : BitVec 1024) : Bool := (lFlags l).testBit 2
def lNesterov (l : BitVec 1024) : Bool := (lFlags l).testBit 3
def lOuter (l : BitVec 1024) : Bool := (lFlags l).testBit 4
def lNsFp32 (l : BitVec 1024) : Bool := (lFlags l).testBit 5
def lWcFmt (l : BitVec 1024) : Nat := lfld l 4 1
def lNsIters (l : BitVec 1024) : Nat := lfld l 5 1
def lRatioAct (l : BitVec 1024) : Nat := lfld l 6 1
def lShards (l : BitVec 1024) : Nat := lfld l 7 1
def lElems (l : BitVec 1024) : Nat := lfld l 8 8
def lElemBase (l : BitVec 1024) : Nat := lfld l 0x10 8
def lW (l : BitVec 1024) : Nat := lfld l 0x18 8
def lS1 (l : BitVec 1024) : Nat := lfld l 0x20 8
def lS2 (l : BitVec 1024) : Nat := lfld l 0x28 8
def lWc (l : BitVec 1024) : Nat := lfld l 0x30 8
def lG (l : BitVec 1024) : Nat := lfld l 0x38 8
def lOuterAddr (l : BitVec 1024) : Nat := lfld l 0x40 8
def lLrMul (l : BitVec 1024) : Word := w32 (lfld l 0x48 4)
def lWd (l : BitVec 1024) : Word := w32 (lfld l 0x4C 4)
def lBeta1 (l : BitVec 1024) : Word := w32 (lfld l 0x50 4)
def lBeta2 (l : BitVec 1024) : Word := w32 (lfld l 0x54 4)
def lEps (l : BitVec 1024) : Word := w32 (lfld l 0x58 4)
def lNsScale (l : BitVec 1024) : Word := w32 (lfld l 0x5C 4)
def lRows (l : BitVec 1024) : Nat := lfld l 0x60 4
def lCols (l : BitVec 1024) : Nat := lfld l 0x64 4
def lRatioHi (l : BitVec 1024) : Word := w32 (lfld l 0x68 4)
def lRatioLo (l : BitVec 1024) : Word := w32 (lfld l 0x6C 4)
def lCountAddr (l : BitVec 1024) : Nat := lfld l 0x70 8
def lNsSched (l : BitVec 1024) : Nat := lfld l 0x78 2

/-- The fields of a layer descriptor are in range (R266, R267). -/
def layerFieldsOk (l : BitVec 1024) : Bool :=
  let matrix := decide (lRule l = 1)
  let al (a : Nat) : Bool := decide (a % 2048 = 0)
  decide (lLayer l ≤ 65534) && decide (lRule l ≤ 2) && decide (lFlags l / 64 = 0) &&
  decide (2 ≤ lWcFmt l) && decide (lWcFmt l ≤ 5) &&
  (if matrix then decide (1 ≤ lNsIters l) && decide (lNsIters l ≤ 8) else decide (lNsIters l = 0)) &&
  decide (lRatioAct l / 4 = 0) &&
  (if matrix then decide (1 ≤ lShards l) && decide (lShards l ≤ 64) else decide (lShards l = 1)) &&
  decide (1 ≤ lElems l) && decide (lElems l < 2 ^ 46) && decide (lElemBase l + lElems l ≤ 2 ^ 46) &&
  (decide (lRule l = 0) || (decide (lS2 l = 0) && decide (lBeta2 l = 0))) &&
  (lOuter l || decide (lOuterAddr l = 0)) && !(decide (lRule l = 0) && lNesterov l) &&
  al (lW l) && al (lS1 l) && al (lS2 l) && al (lWc l) && al (lOuterAddr l) && al (lCountAddr l) &&
  (!lGradCompute l || al (lG l)) && decide (lfld l 0x7A 6 = 0)

/-- The layer list is in order and its shards do not overlap within a LAYER (R267). -/
def layerListOk : List (BitVec 1024) → Bool
  | [] => true
  | l :: ls =>
    layerFieldsOk l &&
    ls.all (fun k => decide (lLayer l ≤ lLayer k) &&
      !(decide (lLayer l = lLayer k) && overlaps (lElemBase l) (lElems l) (lElemBase k) (lElems k))) &&
    layerListOk ls

end Sys2Proof.Machine
end

