-- ==== Sys2Proof/Machine/Packets.lean ====
section
/-! DEFINITION. Machine/Packets.lean: fabric packets (R299), the places of peers (R332, R340, R343), the choice of a link
(R320, R337) and the sending side: flows, transactions and links (R303, R307, R312 to R317). -/
namespace Sys2Proof.Machine
open Sys2Proof

/-! ### Packets -/

def ptWrite : BitVec 6 := 0x01
def ptRead : BitVec 6 := 0x02
def ptSignal : BitVec 6 := 0x03
def ptReadData : BitVec 6 := 0x10
def ptStatus : BitVec 6 := 0x11
def ptE2eAck : BitVec 6 := 0x12
def ptCollGrant : BitVec 6 := 0x13
def ptCollData : BitVec 6 := 0x20
def ptHello : BitVec 6 := 0x30
def ptPoison : BitVec 6 := 0x31
def ptThermalSlow : BitVec 6 := 0x32
def ptRouteNotice : BitVec 6 := 0x33

def clReq : BitVec 2 := 0
def clReply : BitVec 2 := 1
def clColl : BitVec 2 := 2
def clMgmt : BitVec 2 := 3

/-- The class of a packet type (R300); none for an unknown type. -/
def typeClass (t : BitVec 6) : Option (BitVec 2) :=
  match t.toNat with
  | 0x01 | 0x02 | 0x03 => some clReq
  | 0x10 | 0x11 | 0x12 | 0x13 => some clReply
  | 0x20 => some clColl
  | 0x30 | 0x31 | 0x32 | 0x33 => some clMgmt
  | _ => none

/-- LEN of a packet: payload in units of 64 B. -/
def pktLen (p : Packet) : Nat := p.payload.length / 64

/-- LEN is in the range of its type's row. -/
def lenOk (p : Packet) : Bool :=
  decide (p.payload.length % 64 = 0) &&
  match p.type.toNat with
  | 0x01 | 0x10 | 0x20 => decide (1 ≤ pktLen p) && decide (pktLen p ≤ 64)
  | 0x30 | 0x31 => decide (pktLen p = 1)
  | _ => decide (pktLen p = 0)

/-- Flits of 64 B of a packet (R331). -/
def flits (p : Packet) : Nat := (32 + p.payload.length + 63) / 64

/-- The virtual channel: 2 × CLASS + RELIEF (R303). -/
def pktVc (p : Packet) : Nat := 2 * p.cls.toNat + b2n p.relief

/-- The 28 header bytes before the CRC, little-endian (R299). -/
def pktHead (p : Packet) : List Byte :=
  leBytes 1 (p.type.toNat + 64 * p.scope.toNat) ++
  leBytes 1 (p.cls.toNat + 4 * b2n p.relief + 8 * p.epoch.toNat + 32 * b2n p.retx + 64 * b2n p.new + 128 * b2n p.dateline) ++
  leBytes 1 (pktLen p) ++ leBytes 1 p.fmt.toNat ++ leBytes 2 p.dstMod.toNat ++ leBytes 2 p.srcMod.toNat ++
  leBytes 2 (p.dstEp.toNat + 32 * p.srcEp.toNat + 1024 * p.hops.toNat) ++ leBytes 2 p.jobId.toNat ++
  leBytes 2 p.fseq.toNat ++ leBytes 2 p.age.toNat ++ leBytes 8 p.addr.toNat ++ leBytes 2 p.txn.toNat ++ leBytes 2 p.lsn.toNat

/-- The CRC of a packet: over the header with CRC and the hop fields zero, then the payload (R299). -/
def pktCrc (p : Packet) : Nat :=
  crc32c (pktHead { p with relief := false, dateline := false, hops := 0, age := 0, lsn := 0 } ++ leBytes 4 0 ++ p.payload)

/-! ### The module and its peers -/

/-- An image is active and its job admitted to the fabric (R433 item 4). -/
def jobActive (s : State) : Bool := decide (s.img.st ≠ .none ∧ s.img.st ≠ .verifying)

/-- JOB_ID of the active image; 0 when none. -/
def jobOf (s : State) : Half := if jobActive s then s.img.jobId else 0

/-- Rack number and position of a MODULE_ID (R295). -/
def rackOf (m : Half) : Nat := m.toNat / 64
def posOf (m : Half) : Nat := m.toNat % 64

/-- A MODULE_ID. -/
def modIdOf (rack pos : Nat) : Half := BitVec.ofNat 16 (rack % 1024 * 64 + pos % 64)

/-- The parity of the low `n` bits of `r` is odd. -/
def oddOnes (n r : Nat) : Bool := decide (popCount n (BitVec.ofNat n r) % 2 = 1)

/-- N_d(r) (R340). -/
def neighbour (d r : Nat) : Nat :=
  if d = 2 ∨ d = 4 ∨ d = 6 then
    if oddOnes (d - 1) (r % 2 ^ (d - 1)) then r ^^^ 2 ^ d ^^^ 2 ^ (d - 1) else r ^^^ 2 ^ d
  else r ^^^ 2 ^ d

/-- The site of a rack number: C mode 0 is HYPERCUBE, 1 RING, 2 CHAIN (R343). -/
def siteOf (f : FabState) (rack : Nat) : Nat := if f.cMode = 0 then rack / 256 else rack / 2 ^ f.bDims

/-- The axis that leads to a module: 0 A, 1 B, 2 C. -/
def axisOf (f : FabState) (m : Half) : Nat :=
  if rackOf m = rackOf f.modId then 0 else if siteOf f (rackOf m) = siteOf f (rackOf f.modId) then 1 else 2

/-- A job rank's MODULE_ID; none when it is not a member of the job (R296). -/
def rankMod (s : State) (rank : Nat) : Option Half :=
  let m := SMap.get 0xFFFF s.img.ranks rank
  if m = 0xFFFF then none else some m

/-- A module is a member of the job (R298). -/
def isMember (s : State) (m : Half) : Bool := decide (m ≠ 0xFFFF) && s.img.ranks.any fun (_, x) => decide (x = m)

/-- A packet of this module with everything at its plainest. -/
def blankPkt (s : State) (t : BitVec 6) (dst : Half) (dstEp srcEp : BitVec 5) : Packet :=
  { type := t, scope := 0, cls := (typeClass t).getD 0, relief := false, epoch := s.fab.cur, retx := false, new := false,
    dateline := false, fmt := 0, dstMod := dst, srcMod := s.fab.modId, dstEp := dstEp, srcEp := srcEp, hops := 0,
    jobId := jobOf s, fseq := 0, age := 0, addr := 0, txn := 0, lsn := 0, crc := 0, payload := [] }

/-! ### Fabric errors (R330, R331) -/

/-- FAB_ERR_INFO of a packet at a channel; port 6 is internal. -/
def fabInfo (p : Packet) (ch : Option Chan) : Word :=
  let place := match ch with
    | some c => c.port.val * 2 ^ 20 + c.fibre.val * 2 ^ 16 + c.lambda.val * 2 ^ 12
    | none => 6 * 2 ^ 20
  w32 (p.type.toNat * 2 ^ 26 + p.cls.toNat * 2 ^ 24 + b2n p.relief * 2 ^ 23 + place)

/-- Record a fabric event. -/
def fabErr (s : State) (bit : Nat) (p : Packet) (ch : Option Chan) : State :=
  rsEvent (setReg s rFabErrInfo (fabInfo p ch)) rFabErr bit

/-- A packet with an addressing error is discarded and counted. -/
def addrErr (s : State) (p : Packet) (ch : Option Chan) : State := addReg (fabErr s 0 p ch) rAddrErr 1

/-! ### Links -/

/-- The key of a channel. -/
def chanNo (c : Chan) : Nat := 256 * c.port.val + 16 * c.fibre.val + c.lambda.val

/-- The channel of a key. -/
def chanOf (n : Nat) : Chan :=
  ⟨⟨n / 256 % 6, Nat.mod_lt _ (by decide)⟩, ⟨n / 16 % 16, Nat.mod_lt _ (by decide)⟩, ⟨n % 16, Nat.mod_lt _ (by decide)⟩⟩

/-- A link. -/
def link (s : State) (c : Chan) : Link := SMap.get {} s.fab.links (chanNo c)

/-- Update a link. -/
def updLink (s : State) (c : Chan) (f : Link → Link) : State :=
  { s with fab := { s.fab with links := SMap.upd {} s.fab.links (chanNo c) f } }

/-- The link carries traffic (R349, R351): its channel is in service, and both ends have accepted it. -/
def Link.usable (l : Link) : Bool :=
  l.up && !l.rest && !l.closing && l.accepted && l.peerAcc && decide (l.quar = 0)

/-- Bytes of a port that no link acknowledgement has freed (R313, R315). -/
def portHeld (s : State) (port : Nat) : Nat :=
  s.fab.links.foldl (fun n (k, l) =>
    if k / 256 = port then l.unacked.foldl (fun n u => n + 64 * flits u.pkt) n else n) 0

/-- The defined bits of an entry of the RACK table and of the DIM table (R319). -/
def rackMask : Word := 0xBFFF
def dimMask : DWord := 0xC3FF

/-- A table as a bank holds it: its reserved bits are 0 (R14). -/
def maskTable {n : Nat} (mask : BitVec n) (t : SMap (BitVec n)) : SMap (BitVec n) :=
  t.foldl (fun m e => SMap.set 0 m e.1 (e.2 &&& mask)) []

/-- Bytes of the region that an image names for a C port (R315); 0 where none does. -/
def storeBytesOf (s : State) (port : Nat) : Nat := (reg s (rCstoreSize + 16 * (port - 4))).toNat * 67108864

/-- What a port can hold: 4 MiB on A and B; on C the replay part, 15/16 of the region (R313, R315). DESIGN CHOICE (log entry
80): a C port for which no image names a region holds 4 MiB like the others. -/
def portRoom (s : State) (port : Nat) : Nat :=
  if port < 4 ∨ storeBytesOf s port = 0 then 4194304 else storeBytesOf s port / 16 * 15

/-- The packet needs no link credit: collective packets on C (R318). -/
def creditFree (p : Packet) (c : Chan) : Bool := decide (4 ≤ c.port.val) && decide (p.cls = clColl)

/-- The link has credit for the packet's whole size on its virtual channel (R317), or the packet needs none. -/
def hasCredit (s : State) (p : Packet) (c : Chan) : Bool :=
  decide (flits p ≤ (link s c).credit.toArray.getD (pktVc p) 0) || creditFree p c

/-- The link has credit for the packet and its port has room to hold it (R313, R315, R317). -/
def linkTakes (s : State) (p : Packet) (c : Chan) : Bool :=
  hasCredit s p c && decide (portHeld s c.port.val + 64 * flits p ≤ portRoom s c.port.val)

/-- FAB_CSTOREc_USED in units of 64 KiB. -/
def showUsed (s : State) (port : Nat) : State :=
  if port < 4 then s else setReg s (rCstoreUsed + 16 * (port - 4)) (w32 ((portHeld s port + 65535) / 65536))

/-- Replace the credit of one virtual channel. -/
def creditAdd (v : Vector Nat 8) (vc : Nat) (k : Int) : Vector Nat 8 :=
  Vector.ofFn fun i : Fin 8 => if i.val = vc then ((v[i] : Int) + k).toNat else v[i]

/-- Put a packet on a link: it takes the next LSN, uses credit, and is held until acknowledged. -/
def putOnLink (s : State) (p : Packet) (c : Chan) : State :=
  let p := { p with lsn := (link s c).txLsn }
  let s := updLink s c fun l =>
    { l with txLsn := l.txLsn + 1, unacked := l.unacked ++ [⟨p, 0, s.clk⟩],
             credit := if creditFree p c then l.credit else creditAdd l.credit (pktVc p) (-(flits p : Int)) }
  emit (showUsed (addReg64 s rTxFlits (flits p)) c.port.val) (.packet p (some c))

/-! ### Receive pools (R317) -/

/-- Links of a port (R312). -/
def linkCount (port : Nat) : Nat := if port < 2 then 240 else if port < 4 then 120 else 60

/-- Flits of a port's receive pool: the on-die pool, and on C the receive store, 1/16 of the region (R315). -/
def poolFlits (s : State) (port : Nat) : Nat :=
  if port < 2 then 65536 else if port < 4 then 262144 else 32768 + storeBytesOf s port / 1024

/-- Flits reserved for each relief channel, and for management. -/
def reliefFlits (port : Nat) : Nat := if port < 2 then 1024 else 4096
def mgmtFlits : Nat := 512

/-- The credit a link of a port may hold on a virtual channel: an equal share of what is not reserved on the adaptive channels
of the three other classes, of two on C, where collectives need none; one packet on management and on relief (DESIGN CHOICE,
log entry 80). -/
def linkWindow (s : State) (port vc : Nat) : Nat :=
  if vc = 6 ∨ vc = 7 then 2
  else if 4 ≤ port ∧ (vc = 4 ∨ vc = 5) then 0
  else if vc % 2 = 1 then 65
  else (poolFlits s port - 4 * reliefFlits port - mgmtFlits) / ((if port < 4 then 3 else 2) * linkCount port)

/-- Credit that a port has granted to its links on a virtual channel. -/
def grantedOn (s : State) (port vc : Nat) : Nat :=
  s.fab.links.foldl (fun n (k, l) => if k / 256 = port then n + l.granted.toArray.getD vc 0 else n) 0

/-- Flits that wait in a port's pool on a virtual channel. On a C ring the packets that have crossed the dateline fill the
second half of a relief reservation (R324 rule 3), the others the first: the fuller half counts. -/
def poolUsed (s : State) (port vc : Nat) : Nat :=
  let a := SMap.get 0 s.fab.pool (8 * port + vc)
  let b := SMap.get 0 s.fab.pool (64 + 8 * port + vc)
  if 4 ≤ port ∧ s.fab.cMode = 1 ∧ vc % 2 = 1 then max a b else a + b

/-- What a relief reservation can still grant. -/
def reliefLeft (s : State) (port vc : Nat) : Nat :=
  (if 4 ≤ port ∧ s.fab.cMode = 1 then reliefFlits port / 2 else reliefFlits port) - grantedOn s port vc - poolUsed s port vc

/-- Grant credit to a link: it is told by a link control word. -/
def grantCredit (s : State) (ch : Chan) (vc n : Nat) : State :=
  if n = 0 then s else
  let s := updLink s ch fun l => { l with granted := creditAdd l.granted vc n }
  emit s (.linkControl { about := ch, ack := (link s ch).rxNext - 1, naks := [], credits := [(⟨vc % 8, Nat.mod_lt _ (by decide)⟩, n)] })

/-- The credit a link receives when it is accepted; a relief reservation serves links for as long as it lasts. -/
def firstGrants (s : State) (ch : Chan) : State :=
  (List.range 8).foldl (fun s vc =>
    let w := linkWindow s ch.port.val vc - (link s ch).granted.toArray.getD vc 0
    if vc % 2 = 1 ∧ reliefLeft s ch.port.val vc < w then s else grantCredit s ch vc w) s

/-- The next link of a port, after the one that had the last turn, that carries traffic and holds no credit on a relief
channel; the link itself where there is none. -/
def nextTurn (s : State) (ch : Chan) (vc : Nat) : Chan :=
  let port := ch.port.val
  let t := SMap.get 0 s.fab.turn (8 * port + vc)
  let ks := (s.fab.links.filter fun (k, l) => decide (k / 256 = port) && l.usable && decide (l.granted.toArray.getD vc 0 = 0)).map (·.1)
  match (ks.filter fun k => decide (t < k)) ++ ks with
  | k :: _ => chanOf k
  | [] => ch

/-- `n` flits leave a link's part of the receive pool: their credit goes back to the link, or on a relief channel to the next
link in turn. Collective packets on C hold no credit (R318). -/
def freeCredit (s : State) (ch : Chan) (vc n : Nat) : State :=
  if 4 ≤ ch.port.val ∧ vc / 2 = 2 then s
  else if vc % 2 = 1 then
    let c := nextTurn s ch vc
    let s := { s with fab := { s.fab with turn := SMap.set 0 s.fab.turn (8 * ch.port.val + vc) (chanNo c) } }
    grantCredit s c vc (min (linkWindow s ch.port.val vc) (reliefLeft s ch.port.val vc))
  else grantCredit s ch vc n

/-- The pool counter of a packet that arrived on a channel. -/
def poolKey (p : Packet) (ch : Chan) : Nat := 8 * ch.port.val + pktVc p + (if p.dateline then 64 else 0)

/-- A packet that arrived on a channel stays in the receive pool. -/
def poolHold (s : State) (p : Packet) (ch : Chan) : State :=
  { s with fab := { s.fab with pool := SMap.upd 0 s.fab.pool (poolKey p ch) (· + flits p) } }

/-- A packet held in the receive pool leaves it. -/
def poolLeave (s : State) (p : Packet) (src : Option (Chan × Nat)) : State :=
  match src with
  | none => s
  | some (ch, k) =>
    freeCredit { s with fab := { s.fab with pool := SMap.upd 0 s.fab.pool k (· - flits p) } } ch (k % 8) (flits p)

/-! ### Choosing a link -/

/-- The eight channels that reach a rack position, by channel index (R332). -/
def aChans (own q : Nat) : List Chan :=
  let o := own ^^^ q
  (List.range 32).filterMap fun k =>
    if (k ^^^ o) % 4 = 0 then
      some ⟨⟨k / 16 % 6, Nat.mod_lt _ (by decide)⟩, ⟨k % 16, Nat.mod_lt _ (by decide)⟩,
        ⟨(k ^^^ o) / 4 % 16, Nat.mod_lt _ (by decide)⟩⟩
    else none

/-- The weight of an A channel for a class (R336): from the channel table for requests and collectives, 1 for
replies and management, and 1 while no image is active. -/
def chanWeight (s : State) (cls : BitVec 2) (c : Chan) : Nat :=
  if cls = clReply ∨ cls = clMgmt ∨ ¬ jobActive s then 1
  else
    let b := (s.img.channels.getD (chanNo c) 0).toNat
    if cls = clColl then b / 16 else b % 16

/-- The A channels to a position that may carry a class. -/
def aEligible (s : State) (cls : BitVec 2) (q : Nat) : List Chan :=
  (aChans (posOf s.fab.modId) q).filter fun c => (link s c).usable && decide (0 < chanWeight s cls c)

/-- The counter D of a channel for a class (R337). -/
def dOf (s : State) (cls : BitVec 2) (c : Chan) : Int := (link s c).dCnt.toArray.getD cls.toNat 0

/-- Add to the counter D of a channel. -/
def addD (cls : BitVec 2) (k : Int) (c : Chan) (s : State) : State :=
  updLink s c fun l => { l with dCnt := Vector.ofFn fun i : Fin 4 => if i.val = cls.toNat then l.dCnt[i] + k else l.dCnt[i] }

/-- The bank of an epoch. -/
def bankOf (e : BitVec 2) : Fin 2 := ⟨e.toNat % 2, Nat.mod_lt _ (by decide)⟩

/-- RACK and DIM entries of an epoch's bank (R319). -/
def rackEntry (s : State) (e : BitVec 2) (rack : Nat) : Word := SMap.get 0 s.fab.rack[bankOf e] rack
def dimEntry (s : State) (e : BitVec 2) (d : Nat) : DWord := SMap.get 0 s.fab.dim[bankOf e] d

/-- The channels of a dimension: every wavelength of its fibres. -/
def dimChans (w : DWord) : List Chan :=
  if bitAt w 15 then
    (List.range 16).flatMap fun f =>
      if f < 8 ∧ bitAt w f then
        (List.range 16).map fun l =>
          ⟨⟨(2 + fld w 9 8) % 6, Nat.mod_lt _ (by decide)⟩, ⟨f % 16, Nat.mod_lt _ (by decide)⟩, ⟨l % 16, Nat.mod_lt _ (by decide)⟩⟩
      else []
  else []

/-- Dimensions set in ADAPT. -/
def adaptDims (w : Word) : List Nat := (List.range 10).filter fun d => bitAt w d

/-- Where a packet may go next. -/
inductive Route where
  | here
  | rack (pos : Nat)
  | dims (ds : List Nat)
  | invalid
  deriving DecidableEq, Repr

/-- The next hop of a packet by the bank of epoch `e` (R320). -/
def routeBy (s : State) (e : BitVec 2) (p : Packet) : Route :=
  if p.dstMod = s.fab.modId then .here
  else if rackOf p.dstMod = rackOf s.fab.modId then .rack (posOf p.dstMod)
  else
    let w := rackEntry s e (rackOf p.dstMod)
    if ¬ bitAt w 15 then .invalid
    else if p.relief then .dims [fld w 13 10] else .dims (adaptDims w)

/-- The next hop of a packet by the bank of its own epoch. -/
def routeOf (s : State) (p : Packet) : Route := routeBy s p.epoch p

/-- The dimension of a channel in a bank, if it serves one. -/
def chanDim (s : State) (e : BitVec 2) (c : Chan) : Option Nat :=
  (List.range 10).find? fun d => (dimChans (dimEntry s e d)).any fun x => decide (x = c)

/-- DATELINE after leaving on a channel (R324 rule 3). -/
def dateline (s : State) (p : Packet) (c : Chan) : Bool :=
  p.dateline || (p.relief && match chanDim s p.epoch c with
    | some d => bitAt (dimEntry s p.epoch d) 14
    | none => false)

/-- The links to a peer that carry traffic. -/
def peerLinks (s : State) (m : Half) : List Chan :=
  s.fab.links.filterMap fun (k, l) => if l.peer = m ∧ m ≠ 0xFFFF ∧ l.usable then some (chanOf k) else none

/-- The epoch whose bank routes a packet: its own, or the current one after a link loss (R314 item 2). -/
def WaitPkt.bank (w : WaitPkt) (s : State) : BitVec 2 := if w.cur then s.fab.cur else w.pkt.epoch

/-- The links by which a packet may leave now (R320): those to the peer it is tied to while there are any, else those of its
route. -/
def candidates (s : State) (w : WaitPkt) : List Chan :=
  let here := (w.peer.map (peerLinks s)).getD []
  if here ≠ [] then here
  else match routeBy s (w.bank s) w.pkt with
    | .rack q => aEligible s w.pkt.cls q
    | .dims ds => ds.flatMap fun d => (dimChans (dimEntry s (w.bank s) d)).filter fun c => (link s c).usable
    | _ => []

/-- The packet chooses among the A channels to its destination by their counters (R337). -/
def byWeight (s : State) (w : WaitPkt) : Bool :=
  decide ((w.peer.map (peerLinks s)).getD [] = []) && match routeBy s (w.bank s) w.pkt with
    | .rack _ => true
    | _ => false

/-- The best of a list, the first among equals. -/
def bestOf (m : Chan → Int) (cs : List Chan) : Option Chan :=
  cs.foldl (fun b c => match b with
    | some x => if m x < m c then some c else some x
    | none => some c) none

/-- The link a packet takes, where one takes it (R320, R337). On the A axis each eligible channel adds its weight to D when the
packet reaches the head of its queue (`fresh`), the largest D wins, and that channel subtracts the sum of the weights;
elsewhere the most free credit wins, the lowest dimension among equals. -/
def pick (s : State) (w : WaitPkt) (fresh : Bool) : Option Chan × State :=
  let cs := candidates s w
  let p := w.pkt
  if byWeight s w then
    let s := if fresh then cs.foldl (fun s c => addD p.cls (chanWeight s p.cls c) c s) s else s
    match bestOf (dOf s p.cls) (cs.filter (linkTakes s p)) with
    | some c => (some c, addD p.cls (-((cs.foldl (fun n c => n + chanWeight s p.cls c) 0 : Nat) : Int)) c s)
    | none => (none, s)
  else (bestOf (fun c => (link s c).credit.toArray.getD (pktVc p) 0) (cs.filter (linkTakes s p)), s)

/-- AGE after `ns` more ns, in whole µs begun (DEDUCED from the times of R329's example, log entry 80). -/
def aged (p : Packet) (ns : Nat) : Packet := { p with age := BitVec.ofNat 16 (min 65535 (p.age.toNat + (ns + 999) / 1000)) }

/-- The packet has outlived PKT_LIFE or its hops (R310). -/
def tooOld (s : State) (p : Packet) : Bool := decide (s.fab.timers.pktLife < p.age.toNat) || decide (24 < p.hops.toNat)

/-- A packet beyond its lifetime is discarded. -/
def dropLife (s : State) (p : Packet) (ch : Option Chan) : State := addReg (fabErr s 6 p ch) rDropLife 1

/-- A packet leaves on a link: AGE grows by its residence here and the link's latency (R310), and a packet then too old is
discarded instead. -/
def depart (s : State) (w : WaitPkt) (c : Chan) : State :=
  let p := aged { w.pkt with dateline := dateline s w.pkt c } (s.clk - w.at0 + Config.linkLatency (chanNo c))
  poolLeave (if tooOld s p then dropLife s p (some c) else putOnLink s p c) w.pkt w.src

/-- Since when no candidate has credit for a packet (R316). -/
def dryAt (s : State) (w : WaitPkt) : Option Nat :=
  if (candidates s w).any (hasCredit s w.pkt) then none else some (w.dry.getD s.clk)

/-- A packet that no link takes now waits. One that link loss ties to a peer, or to a relief entry, is discarded where no link
is left (R314): a collective packet, or one on relief. -/
def keepWaiting (s : State) (w : WaitPkt) : State :=
  if candidates s w = [] ∧ (w.pkt.relief ∨ (w.peer.isSome ∧ w.pkt.cls = clColl)) then poolLeave s w.pkt w.src
  else { s with fab := { s.fab with waiting := s.fab.waiting ++ [{ w with dry := dryAt s w }] } }

/-- A packet that no link takes when it reaches the head of its queue: management packets are discarded and counted (R324), any
other waits. -/
def parkPkt (s : State) (w : WaitPkt) : State :=
  if w.pkt.cls = clMgmt then poolLeave (addReg s rMgmtDrop 1) w.pkt w.src else keepWaiting s w

/-- Send a packet on its way (R316, R320): to the module itself over the internal port, onto a link, or into
the wait for one; a destination rack that is not VALID is an addressing error, at the port that the packet came by. -/
def sendOn (s : State) (w : WaitPkt) : State :=
  match routeBy s (w.bank s) w.pkt with
  | .here => poolLeave (emit s (.packet w.pkt none)) w.pkt w.src
  | .invalid => poolLeave (addrErr s w.pkt (w.src.map (·.1))) w.pkt w.src
  | _ =>
    match pick s w true with
    | (some c, s) => depart s w c
    | (none, s) => parkPkt s w

/-- A packet of this module with the CRC it is injected with (R299). -/
def sealed (p : Packet) : Packet := { p with crc := w32 (pktCrc p) }

/-- Inject a packet of this module. -/
def sendPkt (s : State) (p : Packet) : State := sendOn s { pkt := sealed p, at0 := s.clk }

/-- Send a management packet of this module to the peer of a channel; one that finds no credit or room is discarded and counted
(R324). -/
def toPeer (s : State) (p : Packet) (c : Chan) : State :=
  let w : WaitPkt := { pkt := sealed p, at0 := s.clk }
  if linkTakes s w.pkt c then depart s w c else addReg s rMgmtDrop 1

/-- Try again to send every waiting packet, oldest first; `sel` says which may be tried. -/
def retryWaiting (s : State) (sel : Packet → Bool) : State :=
  let ws := s.fab.waiting
  let s := { s with fab := { s.fab with waiting := [] } }
  ws.foldl (fun s w =>
    if sel w.pkt then
      match pick s w false with
      | (some c, s) => depart s w c
      | (none, s) => keepWaiting s w
    else { s with fab := { s.fab with waiting := s.fab.waiting ++ [w] } }) s

/-! ### Flows and transactions (R303, R307, R308) -/

/-- Timeout of a packet in ns (R308). -/
def rtoNs (s : State) (far : Bool) : Nat := (if far then s.fab.timers.rtoFar else s.fab.timers.rtoNear) * 1000

/-- The flow of a packet, as the source keeps it. -/
def SrcFlow.serves (f : SrcFlow) (p : Packet) : Bool :=
  decide (f.srcEp = p.srcEp ∧ f.dstMod = p.dstMod ∧ f.dstEp = p.dstEp ∧ f.cls = p.cls)

/-- The same flow. -/
def sameFlow (p q : Packet) : Bool :=
  decide (p.srcEp = q.srcEp ∧ p.dstMod = q.dstMod ∧ p.dstEp = q.dstEp ∧ p.cls = q.cls)

/-- Packets of a packet's flow that have no answer. -/
def flowOut (s : State) (p : Packet) : Nat := (s.fab.outs.filter fun o => sameFlow o.pkt p).length

/-- Take the next FSEQ of a packet's flow. -/
def takeFseq (s : State) (p : Packet) : Packet × State :=
  match s.fab.src.find? fun f => f.serves p with
  | some f =>
    ({ p with fseq := f.next, new := f.fresh },
     { s with fab := { s.fab with
        src := s.fab.src.map fun g =>
          if g.serves p then { g with next := g.next + 1, fresh := false, last := s.clk } else g } })
  | none =>
    ({ p with fseq := 0, new := true },
     { s with fab := { s.fab with src := s.fab.src ++ [⟨p.srcEp, p.dstMod, p.dstEp, p.cls, 1, false, s.clk⟩] } })

/-- Transaction entries in use: those of requests, and one for each collective round that sends (R307). -/
def usedTxn (s : State) : List Nat :=
  ((s.fab.outs.map (·.oid)).filter fun k => decide (k < 16384)) ++ s.coll.active.flatMap fun k => k.rounds.filterMap (·.entry)

/-- The first transaction index from `k` that is not live. -/
def firstFree (used : List Nat) : Nat → Nat → Nat
  | 0, k => k
  | fuel + 1, k => if k ∈ used then firstFree used fuel (k + 1) else k

/-- A transaction entry, if one is free: entries 0 to 511 are kept for the MSD, the Finisher and recovery (`own`). -/
def freeTxn (s : State) (own : Bool) : Option Nat :=
  let used := usedTxn s
  let k := firstFree used (used.length + 1) (if own then 0 else 512)
  if k < (if own then 512 else 16384) then some k else none

/-- Use a transaction index: its generation advances. -/
def useTxn (s : State) (k : Nat) : Nat × State :=
  let g := (SMap.get 3 s.fab.gens k + 1) % 4
  (g, { s with fab := { s.fab with gens := SMap.set 3 s.fab.gens k g } })

/-- Send a request (R307): it takes a transaction entry and the next FSEQ of its flow, and its timer starts. The entry holds no
copy of the payload (R308). None when no entry is free or 64 requests of the flow are outstanding (R305). -/
def sendReq (s : State) (user : TxnUser) (own : Bool) (p : Packet) : Option State :=
  match freeTxn s own with
  | none => none
  | some k =>
    if 64 ≤ flowOut s p then none
    else
      let (g, s) := useTxn s k
      let (p, s) := takeFseq s { p with txn := BitVec.ofNat 16 (k + g * 16384) }
      let far := decide (axisOf s.fab p.dstMod = 2)
      let s := { s with fab := { s.fab with outs := s.fab.outs ++ [⟨k, user, { p with payload := [] }, 0, s.clk + rtoNs s far, far, none⟩] } }
      some (sendPkt s p)

/-- Packets that a collective flow may have outstanding at its source (R306). -/
def collWindow : Nat := 32767

/-- Send a packet of a collective round (R306, R309). -/
def sendCollPkt (s : State) (user : TxnUser) (p : Packet) : State :=
  let (p, s) := takeFseq s p
  let far := decide (axisOf s.fab p.dstMod = 2)
  let s := { s with fab := { s.fab with
    nextOid := s.fab.nextOid + 1
    outs := s.fab.outs ++ [⟨16384 + s.fab.nextOid, user, { p with payload := [] }, 0, s.clk + rtoNs s far, far, none⟩] } }
  sendPkt s p

/-! ### Broadcasts (R325) and link notices -/

/-- The B dimensions of the module's epoch tables below `n`, highest first, with their neighbours. -/
def bPeers (s : State) (n : Nat) : List (Nat × Half) :=
  ((List.range (min n s.fab.bDims)).reverse.filter fun d => bitAt (dimEntry s s.fab.cur d) 15).map fun d =>
    (d, modIdOf (neighbour d (rackOf s.fab.modId)) (posOf s.fab.modId))

/-- The A peers of the module. -/
def aPeers (s : State) : List Half :=
  ((List.range 64).filter fun q => decide (q ≠ posOf s.fab.modId)).map fun q => modIdOf (rackOf s.fab.modId) q

/-- A fresh copy of a broadcast for one link peer (R324, R325). -/
def freshCopy (s : State) (p : Packet) (m : Half) : Packet :=
  sealed { p with dstMod := m, srcMod := s.fab.modId, epoch := s.fab.cur, relief := false, dateline := false, hops := 0, age := 0, lsn := 0 }

/-- Send one copy of a broadcast one hop on the A axis. -/
def sendCopyA (p : Packet) (s : State) (m : Half) : State :=
  let w : WaitPkt := { pkt := freshCopy s p m, at0 := s.clk }
  match pick s w true with
  | (some c, s) => depart s w c
  | (none, s) => parkPkt s w

/-- Send one copy of a broadcast one hop on B dimension `d`. -/
def sendCopyB (p : Packet) (s : State) (dm : Nat × Half) : State :=
  let w : WaitPkt := { pkt := freshCopy s p dm.2, at0 := s.clk }
  match bestOf (fun c => (link s c).credit.toArray.getD (pktVc w.pkt) 0)
      ((dimChans (dimEntry s s.fab.cur dm.1)).filter fun c => (link s c).usable && linkTakes s w.pkt c) with
  | some c => depart s w c
  | none => parkPkt s w

/-- Send a broadcast from its source: to the 63 A peers and on every B dimension. -/
def broadcast (s : State) (p : Packet) : State :=
  (bPeers s 8).foldl (sendCopyB p) ((aPeers s).foldl (sendCopyA p) s)

/-- The POISON packet of an attempt: the step number in ADDR, the attempt number and the cause bits in the
payload. -/
def poisonPkt (s : State) (step att : DWord) (causes : BitVec 7) : Packet :=
  { blankPkt s ptPoison 0 24 24 with
    scope := 2, addr := step, payload := leBytes 8 att.toNat ++ leBytes 4 causes.toNat ++ leBytes 52 0 }

end Sys2Proof.Machine
end

