-- ==== Sys2Proof/Machine/Guard.lean ====
section
/-! DEFINITION. Machine/Guard.lean: the step guard (02): attempts, causes and verdicts, the poison path, stream reset
(R205), descriptor faults (R203, R204) and pass-2 faults (R289). -/
namespace Sys2Proof.Machine
open Sys2Proof

/-! ### Attempts -/

/-- What the step unit keeps of attempt `att`. -/
def attempt (s : State) (att : DWord) : Option Attempt := s.step.attempts.find? fun a => decide (a.att = att)

/-- Update attempt `att`. -/
def updAttempt (s : State) (att : DWord) (f : Attempt → Attempt) : State :=
  { s with step := { s.step with attempts := s.step.attempts.map fun a => if a.att = att then f a else a } }

/-- The verdict of attempt `att`, if it is known. -/
def verdictOf (s : State) (att : DWord) : Option Verdict := (attempt s att).bind (·.verdict)

/-- Bits of STEP_GUARD_CAUSE (R74). -/
def gLoss : Nat := 0
def gGrad : Nat := 1
def gNorm : Nat := 2
def gRemote : Nat := 3
def gStash : Nat := 4
def gColl : Nat := 5
def gFault : Nat := 6

/-- Record a cause in the guard record of an attempt, with the first layer and die that saw one (R48). -/
def addCause (s : State) (att : DWord) (bit : Nat) (layer : Half) (cd : Byte) : State :=
  updAttempt s att fun a =>
    { a with causes := a.causes ||| BitVec.ofNat 7 (2 ^ bit),
             layer := if a.causes = 0 then layer else a.layer,
             cd := if a.causes = 0 then cd else a.cd }

/-- Write the verdict record of an attempt into the verdict ring (R438): 1 CLEAR, 2 POISON, 3
INDETERMINATE. -/
def writeVerdict (s : State) (att : DWord) (v : Nat) : State :=
  match s.img.sec, attempt s att with
  | some sec, some a =>
    memPut s (sec.verdictRing + 32 * (att.toNat % 4)) (leBytes 8 att.toNat ++ leBytes 8 a.step.toNat ++ leBytes 16 v)
  | _, _ => s

/-- A cause that does not stop a stream is reported to the guard record of an attempt (R48). After a clear
verdict nothing more is recorded (R51). -/
def guardReport (s : State) (att : DWord) (bit : Nat) (layer : Half) (cd : Byte) : State :=
  if verdictOf s att = some .clear then s else addCause s att bit layer cd

/-! ### Collectives that end in error -/

/-- Remove an in-progress entry of a stream. -/
def dropInflight (s : State) (d : Die) (c : Sid) (i : Nat) : State :=
  updStr s d c fun x => { x with inflight := x.inflight.filter fun e => decide (e.id ≠ i) }

/-- A collective is no longer in progress, and none of its packets is held. -/
def dropColl (s : State) (k : Coll) : State :=
  { s with
    coll := { s.coll with active := s.coll.active.filter fun x => !(decide (x.d = k.d) && decide (x.i = k.i)) }
    fab := { s.fab with
      outs := s.fab.outs.filter fun o => match o.user with
        | .coll d i _ => !(decide (d = k.d) && decide (i = k.i))
        | _ => true } }

/-- A collective ends in error: it leaves the engine, its packets are given up, and its completion object
takes the error status in place of the signal (R191). -/
def endColl (s : State) (k : Coll) : State :=
  let s := dropInflight (dropColl s k) k.d .t k.i
  setObjError s (refObj k.d (dDoneRef k.desc)) causeCollective ⟨24, 0, false⟩

/-- COLL_ERR_INFO and COLL_ERR_PEER (R364). -/
def collInfo (s : State) (k : Coll) (round cause : Nat) (peer : Half) (port : Nat) : State :=
  let s := setReg s rCollErrInfo (w32 (dfld k.desc 0xC 2 % 4096 * 2 ^ 20 + round % 256 * 2 ^ 12 + cause * 256))
  setReg s rCollErrPeer (w32 (peer.toNat * 65536 + port * 8192))

/-- The port of a round as COLL_ERR_PEER shows it: that of the first dimension that leads to its peer. The A axis reaches every
peer on both its ports: the + port is shown there, and where the tables name no dimension (DESIGN CHOICE, log entry 80). -/
def roundPort (s : State) (r : Round) : Nat :=
  match rankMod s r.peer.toNat with
  | some m =>
    let w := rackEntry s s.fab.cur (rackOf m)
    match (List.range 10).find? fun d => decide (r.axis.val ≠ 0) && bitAt w 15 && bitAt w d with
    | some d => 2 + fld (dimEntry s s.fab.cur d) 9 8
    | none => 2 * r.axis.val
  | none => 2 * r.axis.val

/-- The first round of a collective that has not completed, with its peer and its port. -/
def firstOpen (s : State) (k : Coll) : Nat × Half × Nat :=
  match k.rounds.find? fun r => !r.fin with
  | some r => (r.idx, r.r.peer, roundPort s r.r)
  | none => (dfld k.desc 0x28 1, 0, 6)

/-! ### Stream reset (R205) -/

/-- A tile is in hand on the drain path: its entry is FILLING. -/
def tileFilling (a : ArrayUnit) (t : Tile) : Bool := a.queue.any fun q => decide (q.st = .filling ∧ q.tile = t)

/-- The queue part of a stream reset on one die (R107): the slots of the stream's share are freed and its tiles in the
accumulator buffers discarded; an entry that is FILLING completes its drain and is then freed. -/
def resetArr (c : Sid) (a : ArrayUnit) : ArrayUnit :=
  let acc := a.acc.filter fun t => decide (t.c ≠ c) || tileFilling a t
  { a with
    acc := acc
    hold := a.hold && decide (2 ≤ acc.length)
    queue := (a.queue.filter fun q => decide (q.tile.c ≠ c) || decide (q.st = .filling)).map fun q =>
      if q.tile.c = c then { q with drop := true } else q }

/-- The ready wire of a stream is withdrawn on a die. With no die ready the stream's gang timer stops: it starts again
at the next first ready (R90). -/
def withdrawReady (s : State) (d : Die) (c : Sid) : State :=
  let s := updArr s d fun a => { a with ready := a.ready.put c none }
  if allDies.all fun d => ((die s d).arr.ready.get c).isNone then { s with gang := s.gang.put c none } else s

/-- An operation of the stream runs on the die. -/
def opRuns (s : State) (d : Die) (c : Sid) : Bool := (die s d).arr.op.any fun o => decide (o.c = c)

/-- A reset of the stream waits for the boundary of its operation (R91). -/
def resetDue (s : State) (d : Die) (c : Sid) : Bool := (die s d).arr.op.any fun o => decide (o.c = c) && o.reset

/-- The collectives of a stream end, their completion objects taking the error status. Those that run for the Finisher or the step
unit are no stream's. -/
def resetColls (s : State) (d : Die) (c : Sid) : State :=
  if c ≠ .t then s else
  (s.coll.active.filter fun k => decide (k.d = d) && (str s d .t).inflight.any fun e => decide (e.unit = .collective ∧ e.id = k.i)).foldl (fun s k =>
    let (r, peer, port) := firstOpen s k
    endColl (collInfo s k r 4 peer port) k) s

/-- The effects of R205 on stream `c` of die `d`. Moves and signals in progress run to completion without a DONE
signal. -/
def resetNow (s : State) (d : Die) (c : Sid) : State :=
  let s := withdrawWait s d c
  let s := updArr (withdrawReady s d c) d (resetArr c)
  let s := updCtx s d c fun y => { faulted := y.faulted }
  let s := updStr s d c fun x =>
    { x with cur := none, waitRef := none, tqWait := false, fabricWait := false,
             inflight := (x.inflight.filter fun e => decide (e.unit = .move ∨ e.unit = .signal ∨ e.unit = .collective)).map
               fun e => { e with silent := true } }
  resetColls s d c

/-- Reset stream `c` of die `d`: at once, or, while an operation of the stream runs, at its boundary (R91, R205); until
then the stream issues nothing. -/
def streamReset (s : State) (d : Die) (c : Sid) : State :=
  if opRuns s d c then updArr s d fun a => { a with op := a.op.map fun o => { o with reset := true } }
  else resetNow s d c

/-! ### The poison path (R49, R200) -/

/-- A stream enters the poison path: a ready without a grant is withdrawn by a stream reset, a WAIT is
abandoned, and the descriptor not yet issued will be passed over. Where a reset of the stream waits for a boundary the
path begins there (R91), and STATE shows ISSUING till then (DESIGN CHOICE, log entry 77). -/
def enterPoison (s : State) (d : Die) (c : Sid) : State :=
  let s := if ((die s d).arr.ready.get c).isSome then streamReset s d c else withdrawWait s d c
  updStr s d c fun x => { x with poison := true, st := if resetDue s d c then .issuing else .poisonPath, cur := none, waitRef := none }

/-- The verdict of an attempt becomes poison: its record is written, its collectives end, and the streams in
that step take the poison path. -/
def setPoison (s : State) (att : DWord) : State :=
  let s := updAttempt s att fun a => { a with verdict := some .poison }
  let s := writeVerdict s att 2
  let s := (s.coll.active.filter fun k => decide (k.att = att) && !k.pass2).foldl endColl s
  let s := withdrawAll s (allStreams.filter fun x => (str s x.1 x.2).inBody && decide ((str s x.1 x.2).attempt = att) && !(str s x.1 x.2).poison)
  forStreams (fun d c s =>
    let x := str s d c
    if x.inBody && decide (x.attempt = att) && !x.poison then enterPoison s d c else s) s

/-- The time between repeats of a poison broadcast (R324): 200 µs. -/
def poisonRepeatNs : Nat := 200000

/-- A cause that takes the fast path (R49): recorded, broadcast, and the step is poisoned. After a clear
verdict no cause poisons the step (R51); while the verdict is indeterminate it is recorded and decides
nothing (R52). A cause found when the step is already poisoned is recorded and sends no further broadcast (DESIGN
CHOICE, log entry 75). -/
def fastPoison (s : State) (att : DWord) (bit : Nat) (layer : Half) (cd : Byte) : State :=
  match attempt s att with
  | none => s
  | some a =>
    match a.verdict with
    | some .clear => s
    | some _ => addCause s att bit layer cd
    | none =>
      let s := addCause s att bit layer cd
      let causes := match attempt s att with | some b => b.causes | none => 0
      let s := broadcast s (poisonPkt s a.step att causes)
      let s := updAttempt s att fun a => { a with repeatAt := some (s.clk + poisonRepeatNs) }
      setPoison s att

/-! ### Pass-2 faults (R289) -/

/-- Causes of UPD_ERR_INFO. -/
def p2Desc : Nat := 1
def p2Coll : Nat := 2
def p2Emergency : Nat := 3
def p2CdOut : Nat := 4

/-- A pass 2 is running. -/
def inPass2 (s : State) : Bool := s.upd.p2.isSome

/-- A pass-2 fault: the U streams stop issuing, the fault is recorded, and the Finisher takes the step. A ready of a U
stream not yet granted is withdrawn as a stream reset withdraws it; what has issued completes (DESIGN CHOICE, log
entry 77). -/
def pass2Fault (s : State) (layer : Half) (cd : Byte) (cause : Nat) : State :=
  if s.upd.fault then s else
  let s := setReg s rUpdErrInfo (w32 (layer.toNat * 65536 + cd.toNat * 256 + cause * 16))
  let s := rsEvent s rUpdStat 7
  let s := { s with upd := { s.upd with fault := true, fin := .finish, finWaitStack := decide (cause = p2Emergency) } }
  let s := match s.upd.p2 with
    | some p => setReg64 s rUpdFinStep p.step
    | none => s
  let s := withdrawAll s ((allDies.map fun d => (d, Sid.u)).filter fun x => (str s x.1 x.2).inBody && (str s x.1 x.2).pass2)
  forDies (fun d s =>
    let x := str s d .u
    if x.inBody && x.pass2 then
      updStr (withdrawReady (withdrawWait s d .u) d .u) d .u fun x => { x with st := .held, cur := none, waitRef := none }
    else s) s

/-! ### Descriptor faults (R202 to R204) -/

/-- Bits of CDnn_STR_ERR beside the faults of R202. -/
def fPrologue : Nat := 10
def fPoisonFault : Nat := 11

/-- Record a descriptor fault in the die's registers: the bits, and the stream, TYPE, SEQ and address. -/
def recordFault (s : State) (d : Die) (c : Sid) (bits : Nat) (typ : Nat) (seq : Half) (addr : DWord) : State :=
  let s := setReg s (cdWin d.val + rStrErrInfo) (w32 (sidNat c * 2 ^ 30 + typ % 256 * 2 ^ 22 + seq.toNat))
  let s := setReg64 s (cdWin d.val + rStrErrAddr) addr
  rsEvents s (cdWin d.val + rStrErr) (BitVec.ofNat 24 bits)

/-- The program pointer and expected SEQ step over the faulting descriptor when the stream stands at it. -/
def stepOver (s : State) (d : Die) (c : Sid) (addr : DWord) : State :=
  updStr s d c fun x => if x.pc = addr then { x with pc := x.pc + 64, expect := x.expect + 1, cur := none } else x

/-- A descriptor fault of stream `c` of die `d`. In a prologue, or (`onPath`) in a descriptor that runs on the poison
path, it stops the image (R204); on a U stream in pass 2 it is a pass-2 fault (R289); elsewhere in a step body
it poisons the step (R203). -/
def faultAs (s : State) (d : Die) (c : Sid) (prologue onPath : Bool) (bit : Nat) (typ : Nat) (seq : Half) (addr : DWord)
    (layer : Half) : State :=
  let x := str s d c
  if prologue then
    let s := recordFault s d c (2 ^ bit + 2 ^ fPrologue) typ seq addr
    stopImage (updStr s d c fun x => { x with faulted := true, cur := none }) 5
  else if onPath then
    let s := recordFault s d c (2 ^ bit + 2 ^ fPoisonFault) typ seq addr
    stopImage (updStr s d c fun x => { x with faulted := true, cur := none }) 6
  else
    let s := recordFault s d c (2 ^ bit) typ seq addr
    let s := updStr s d c fun x => { x with faulted := true }
    if x.pass2 ∧ inPass2 s then
      pass2Fault (stepOver (streamReset s d c) d c addr) layer (BitVec.ofNat 8 d.val) p2Desc
    else
      let s := fastPoison s x.attempt gFault layer (BitVec.ofNat 8 d.val)
      let s := streamReset s d c
      stepOver (updStr s d c fun x =>
        { x with poison := true, st := if resetDue s d c then .issuing else .poisonPath, waitRef := none }) d c addr

/-- A fault where the stream stands. -/
def descFault (s : State) (d : Die) (c : Sid) (bit : Nat) (typ : Nat) (seq : Half) (addr : DWord) (layer : Half) : State :=
  faultAs s d c (str s d c).prologue (str s d c).poison bit typ seq addr layer

/-- A fault of the descriptor that stands at issue, with its own header. -/
def curFault (s : State) (d : Die) (c : Sid) (bit : Nat) (w : BitVec 512) : State :=
  descFault s d c bit (dType w) (str s d c).expect (str s d c).pc (dLayer w)

/-- A fault raised by a unit on a descriptor in progress. -/
def unitFault (s : State) (d : Die) (c : Sid) (bit : Nat) (e : InFlight) : State :=
  faultAs (dropInflight s d c e.id) d c (str s d c).prologue e.onPath bit (dType e.desc) e.seq e.addr (dLayer e.desc)

/-- A descriptor in progress completes: it leaves the list and makes its DONE signal unless a stream reset
took it away (R176, R205). -/
def completeDesc (s : State) (d : Die) (c : Sid) (e : InFlight) : State :=
  let s := dropInflight s d c e.id
  if e.silent then s else signals s (doneSig d c (str s d c) e.desc)

end Sys2Proof.Machine
end

