-- ==== Sys2Proof/Machine/Numbers.lean ====
section
/-! DEFINITION. Machine/Numbers.lean: the number formats (04): exact values, decoding and encoding of every format of
R109, and the FP32 and FP64 arithmetic of R151 and R155. -/
namespace Sys2Proof.Machine
open Sys2Proof

/-! ### Exact values -/

/-- A number as decoded: NaN, an infinity, or (-1)^neg × m × 2^e with signed zeros. -/
inductive Num where
  | nan
  | inf (neg : Bool)
  | fin (neg : Bool) (m : Nat) (e : Int)
  deriving DecidableEq, Repr

/-- A floating-point format: exponent bits, fraction bits, bias; `ieee` says that the top exponent holds the
infinities and NaNs. -/
structure FpFmt where
  eb : Nat
  mb : Nat
  bias : Int
  ieee : Bool
  deriving DecidableEq, Repr

/-- The formats of R111 and R113. -/
def fFP64 : FpFmt := ⟨11, 52, 1023, true⟩
def fFP32 : FpFmt := ⟨8, 23, 127, true⟩
def fBF16 : FpFmt := ⟨8, 7, 127, true⟩
def fFP16 : FpFmt := ⟨5, 10, 15, true⟩
def fE4M3 : FpFmt := ⟨4, 3, 7, false⟩
def fE5M2 : FpFmt := ⟨5, 2, 15, true⟩
def fE3M2 : FpFmt := ⟨3, 2, 3, false⟩
def fE2M3 : FpFmt := ⟨2, 3, 1, false⟩
def fE2M1 : FpFmt := ⟨2, 1, 1, false⟩

/-- The exponent of the last place of the subnormals. -/
def FpFmt.qmin (f : FpFmt) : Int := 1 - f.bias - f.mb

/-- Decode a code (R111, R113); the NaN codes of E4M3 are handled by the caller. -/
def FpFmt.decode (f : FpFmt) (c : Nat) : Num :=
  let neg := c.testBit (f.eb + f.mb)
  let e := c / 2 ^ f.mb % 2 ^ f.eb
  let m := c % 2 ^ f.mb
  if f.ieee ∧ e = 2 ^ f.eb - 1 then (if m = 0 then .inf neg else .nan)
  else if e = 0 then .fin neg m f.qmin
  else .fin neg (2 ^ f.mb + m) (f.qmin + (e - 1 : Nat))

/-- Round m × 2^e to a multiple of 2^q, to nearest, ties to even; the multiple. -/
def roundShift (m : Nat) (e q : Int) : Nat :=
  if q ≤ e then m * 2 ^ (e - q).toNat
  else
    let k := (q - e).toNat
    let d := 2 ^ k
    let r := m % d
    let s := m / d
    if 2 * r > d ∨ (2 * r = d ∧ s % 2 = 1) then s + 1 else s

/-- The magnitude code nearest to m × 2^e, as if the exponent had no upper limit (R134). -/
def FpFmt.roundMag (f : FpFmt) (m : Nat) (e : Int) : Nat :=
  if m = 0 then 0
  else
    let top : Int := (Nat.log2 m : Int) + e
    let q := max (top - f.mb) f.qmin
    roundShift m e q + (q - f.qmin).toNat * 2 ^ f.mb

/-- The first magnitude code that is not a finite number of an IEEE format. -/
def FpFmt.infCode (f : FpFmt) : Nat := (2 ^ f.eb - 1) * 2 ^ f.mb

/-- Put a sign on a magnitude code. -/
def FpFmt.sign (f : FpFmt) (neg : Bool) (c : Nat) : Nat := c + b2n neg * 2 ^ (f.eb + f.mb)

/-- Encode into an IEEE format, rounding once; overflow gives an infinity, or with `sat` the largest finite
(R134). The flag says that the result was clamped or saturated to a finite value. -/
def FpFmt.encode (f : FpFmt) (sat : Bool) : Num → Nat × Bool
  | .nan => (f.infCode + 2 ^ (f.mb - 1), false)
  | .inf neg => if sat then (f.sign neg (f.infCode - 1), true) else (f.sign neg f.infCode, false)
  | .fin neg m e =>
    let c := f.roundMag m e
    if c < f.infCode then (f.sign neg c, false)
    else if sat then (f.sign neg (f.infCode - 1), true) else (f.sign neg f.infCode, false)

/-- The signed integer value of a number rounded to nearest, ties to even. -/
def roundInt (neg : Bool) (m : Nat) (e : Int) : Int :=
  let k : Int := roundShift m e 0
  if neg then -k else k

/-! ### The formats of R109 -/

/-- Element bits of a format code. -/
def fmtBits (f : Nat) : Nat :=
  match f with
  | 0 => 64 | 1 => 32 | 2 => 16 | 3 => 16 | 4 => 8 | 5 => 8 | 6 => 8 | 7 => 4
  | 8 => 8 | 9 => 8 | 10 => 6 | 11 => 6 | _ => 4

/-- The element format of a floating-point code. -/
def fmtFp (f : Nat) : FpFmt :=
  match f with
  | 0 => fFP64 | 1 => fFP32 | 2 => fBF16 | 3 => fFP16 | 4 => fE4M3 | 5 => fE5M2 | 7 => fE2M1
  | 8 => fE4M3 | 9 => fE5M2 | 10 => fE3M2 | 11 => fE2M3 | _ => fE2M1

/-- The value of an element code before any block scale. -/
def fmtDecode (f c : Nat) : Num :=
  if f = 6 then
    let v := sext 8 (c % 256)
    .fin (decide (v < 0)) v.natAbs 0
  else if (f = 4 ∨ f = 8) ∧ c % 128 = 127 then .nan
  else (fmtFp f).decode c

/-- A value times a block scale of R114. -/
def scaleNum (x : Nat) : Num → Num
  | .nan => .nan
  | .inf n => if x = 255 then .nan else .inf n
  | .fin n m e => if x = 255 then .nan else .fin n m (e + (x : Int) - 127)

/-- What a conversion counts: nothing, CONV_SAT or CONV_NAN (R134, R136). -/
inductive ConvCount where
  | none | sat | nan
  deriving DecidableEq, Repr

/-- Clamp an FP4 or FP8 E4M3 style code at `mx`, the largest finite. -/
def clampCode (f : FpFmt) (mx : Nat) (neg : Bool) (m : Nat) (e : Int) : Nat × Bool :=
  let c := f.roundMag m e
  if c ≤ mx then (f.sign neg c, false) else (f.sign neg mx, true)

/-- Encode a value into a format that is not MX (R134). -/
def fmtEncode (f : Nat) (sat : Bool) (v : Num) : Nat × ConvCount :=
  let cnt (b : Bool) : ConvCount := if b then .sat else .none
  match f with
  | 4 =>
    match v with
    | .nan => (0x7F, .none)
    | .inf n => if sat then (fE4M3.sign n 0x7E, .sat) else (0x7F, .none)
    | .fin n m e =>
      let (c, ovf) := clampCode fE4M3 0x7E n m e
      if ovf ∧ ¬ sat then (0x7F, .none) else (c, cnt ovf)
  | 6 =>
    match v with
    | .nan => (0, .nan)
    | .inf n => ((if n then 0x80 else 0x7F), .sat)
    | .fin n m e =>
      let k := roundInt n m e
      if k < -128 then (0x80, .sat) else if 127 < k then (0x7F, .sat) else (unsign 8 k, .none)
  | 7 =>
    match v with
    | .nan => (0, .nan)
    | .inf n => (fE2M1.sign n 7, .sat)
    | .fin n m e => let (c, ovf) := clampCode fE2M1 7 n m e; (c, cnt ovf)
  | f => let (c, ovf) := (fmtFp f).encode sat v; (c, cnt ovf)

/-- emax of an MX element format (R135). -/
def mxEmax (f : Nat) : Int :=
  match f with
  | 8 => 8 | 9 => 15 | 10 => 4 | _ => 2

/-- The largest finite code of an MX element format (R113). -/
def mxMax (f : Nat) : Nat :=
  match f with
  | 8 => 0x7E | 9 => 0x7B | 10 => 0x1F | 11 => 0x1F | _ => 0x7

/-- floor(log2) of a finite magnitude; none of zero. -/
def Num.top : Num → Option Int
  | .fin _ m e => if m = 0 then none else some ((Nat.log2 m : Int) + e)
  | _ => none

/-- The value is a NaN or an infinity. -/
def Num.nonFinite : Num → Bool
  | .fin _ _ _ => false
  | _ => true

/-- The larger of two optional exponents. -/
def maxTop : Option Int → Option Int → Option Int
  | some a, some b => some (max a b)
  | some a, none => some a
  | none, b => b

/-- Encode one block into an MX format (R135): the scale byte and the element codes. -/
def mxEncode (f : Nat) (vs : List Num) : Nat × List Nat :=
  if vs.any Num.nonFinite then (255, vs.map fun _ => 0)
  else
    let x : Int := match vs.foldl (fun t v => maxTop t v.top) none with
      | none => 0
      | some t => max 0 (min 254 (t - mxEmax f + 127))
    (x.toNat, vs.map fun v => match v with
      | .fin n m e => (clampCode (fmtFp f) (mxMax f) n m (e - (x - 127))).1
      | _ => 0)

/-! ### Elements in bytes (R115) -/

/-- The bytes of `n` elements of a format packed from a byte boundary. -/
def packedBytes (f n : Nat) : Nat := (n * fmtBits f + 7) / 8

/-- Element `i` of a packed byte string. -/
def unpackElem (f : Nat) (bs : List Byte) (i : Nat) : Nat :=
  let w := fmtBits f
  if w = 6 then leAt bs (i / 4 * 3) 3 / 2 ^ (6 * (i % 4)) % 64
  else if w = 4 then leAt bs (i / 2) 1 / 2 ^ (4 * (i % 2)) % 16
  else leAt bs (i * (w / 8)) (w / 8)

/-- Pack codes into one number, first code lowest. -/
def packNat (w : Nat) : List Nat → Nat
  | [] => 0
  | c :: cs => c % 2 ^ w + 2 ^ w * packNat w cs

/-- Pack element codes into bytes. -/
def packElems (f : Nat) (cs : List Nat) : List Byte := leBytes (packedBytes f cs.length) (packNat (fmtBits f) cs)

/-! ### FP32 words -/

/-- The canonical NaN of FP32. -/
def nan32 : Word := 0x7FC00000
/-- The value of an FP32 word. -/
def dec32 (w : Word) : Num := fFP32.decode w.toNat
/-- One rounding to FP32 (R151). -/
def enc32 (v : Num) : Word := w32 (fFP32.encode false v).1
/-- The value of an FP64 word. -/
def dec64 (w : DWord) : Num := fFP64.decode w.toNat
/-- One rounding to FP64. -/
def enc64 (v : Num) : DWord := w64 (fFP64.encode false v).1

/-- The signed mantissa of a finite value at exponent `q`, at or below its own. -/
def atExp (neg : Bool) (m : Nat) (e q : Int) : Int :=
  let k : Int := (m * 2 ^ (e - q).toNat : Nat)
  if neg then -k else k

/-- A signed integer times 2^q as a number; `z` is the sign of a zero. -/
def ofInt (k : Int) (q : Int) (z : Bool) : Num :=
  if k = 0 then .fin z 0 q else .fin (decide (k < 0)) k.natAbs q

/-- The exact sum, with IEEE special cases. -/
def Num.add : Num → Num → Num
  | .nan, _ => .nan
  | _, .nan => .nan
  | .inf a, .inf b => if a = b then .inf a else .nan
  | .inf a, _ => .inf a
  | _, .inf b => .inf b
  | .fin n m e, .fin k p f =>
    let q := min e f
    ofInt (atExp n m e q + atExp k p f q) q (n && k)

/-- The negation. -/
def Num.neg : Num → Num
  | .nan => .nan
  | .inf a => .inf (!a)
  | .fin n m e => .fin (!n) m e

/-- The exact product (R122). -/
def Num.mul : Num → Num → Num
  | .nan, _ => .nan
  | _, .nan => .nan
  | .inf a, .inf b => .inf (a != b)
  | .inf a, .fin n m _ => if m = 0 then .nan else .inf (a != n)
  | .fin n m _, .inf b => if m = 0 then .nan else .inf (n != b)
  | .fin n m e, .fin k p f => .fin (n != k) (m * p) (e + f)

/-- The quotient, to 130 bits with a sticky bit, so that one rounding of it is correct. -/
def Num.div : Num → Num → Num
  | .nan, _ => .nan
  | _, .nan => .nan
  | .inf _, .inf _ => .nan
  | .inf a, .fin n _ _ => .inf (a != n)
  | .fin n _ _, .inf b => .fin (n != b) 0 0
  | .fin n m e, .fin k p f =>
    if p = 0 then (if m = 0 then .nan else .inf (n != k))
    else
      let s := 130 + Nat.log2 p
      let x := m * 2 ^ s
      .fin (n != k) (2 * (x / p) + (if x % p = 0 then 0 else 1)) (e - f - s - 1)

/-- Bit-by-bit integer square root: the largest r with r² ≤ n, for n < 4^k. -/
def isqrt : Nat → Nat → Nat → Nat
  | 0, _, r => r
  | k + 1, n, r => let t := r + 2 ^ k; isqrt k n (if t * t ≤ n then t else r)

/-- The square root, to at least 64 bits with a sticky bit (R157). -/
def Num.sqrt : Num → Num
  | .nan => .nan
  | .inf n => if n then .nan else .inf false
  | .fin n m e =>
    if m = 0 then .fin n 0 0
    else if n then .nan
    else
      let e' := if e % 2 = 0 then e else e - 1
      let x := (if e % 2 = 0 then m else 2 * m) * 2 ^ 128
      let r := isqrt (Nat.log2 x / 2 + 1) x 0
      .fin false (2 * r + (if r * r = x then 0 else 1)) (e' / 2 - 64 - 1)

/-- FP32 addition, subtraction, multiplication, division, fused multiply-add and square root (R151). -/
def fadd (a b : Word) : Word := enc32 ((dec32 a).add (dec32 b))
def fsub (a b : Word) : Word := enc32 ((dec32 a).add (dec32 b).neg)
def fmul (a b : Word) : Word := enc32 ((dec32 a).mul (dec32 b))
def fdiv (a b : Word) : Word := enc32 ((dec32 a).div (dec32 b))
def ffma (a b c : Word) : Word := enc32 (((dec32 a).mul (dec32 b)).add (dec32 c))
def fsqrt (a : Word) : Word := enc32 (dec32 a).sqrt

/-- Clear or flip the sign bit. -/
def fabs (a : Word) : Word := a &&& 0x7FFFFFFF
def fneg (a : Word) : Word := a ^^^ 0x80000000

/-- The word is a NaN. -/
def isNan (a : Word) : Bool := decide (dec32 a = .nan)
/-- The word is a NaN or an infinity. -/
def nonFinite32 (a : Word) : Bool := (dec32 a).nonFinite

/-- A total order key of a word that is not a NaN: -0 below +0 (R151). -/
def orderKey (a : Word) : Int := if a.msb then -((a &&& 0x7FFFFFFF).toNat : Int) - 1 else (a.toNat : Int)

/-- VMAX and VMIN of R151. -/
def fmax (a b : Word) : Word := if isNan a || isNan b then nan32 else if orderKey a < orderKey b then b else a
def fmin (a b : Word) : Word := if isNan a || isNan b then nan32 else if orderKey b < orderKey a then b else a

/-- Both zeros compare equal. -/
def cmpKey (a : Word) : Int := if a = 0x80000000 then 0 else if a.msb then -((a &&& 0x7FFFFFFF).toNat : Int) else (a.toNat : Int)

/-- The comparisons; false when either operand is a NaN. -/
def feq (a b : Word) : Bool := !isNan a && !isNan b && decide (cmpKey a = cmpKey b)
def flt (a b : Word) : Bool := !isNan a && !isNan b && decide (cmpKey a < cmpKey b)
def fle (a b : Word) : Bool := !isNan a && !isNan b && decide (cmpKey a ≤ cmpKey b)
def funord (a b : Word) : Bool := isNan a || isNan b

/-- FP64 addition, multiplication and fused multiply-add (R155). -/
def dadd (a b : DWord) : DWord := enc64 ((dec64 a).add (dec64 b))
def dmul (a b : DWord) : DWord := enc64 ((dec64 a).mul (dec64 b))
def dfma (a b c : DWord) : DWord := enc64 (((dec64 a).mul (dec64 b)).add (dec64 c))
def ddiv (a b : DWord) : DWord := enc64 ((dec64 a).div (dec64 b))

/-- FP64 to FP32 in one rounding, with SAT (R134). -/
def d2f (sat : Bool) (a : DWord) : Nat × Bool := fFP32.encode sat (dec64 a)
/-- FP32 to FP64, exactly. -/
def f2d (a : Word) : DWord := enc64 (dec32 a)
/-- A natural number in FP32 or FP64, rounded once. -/
def nat2f (n : Nat) : Word := enc32 (.fin false n 0)
def nat2d (n : Nat) : DWord := enc64 (.fin false n 0)

/-- An element of memory as the FP32 value a load gives (R152); FP32 words pass unchanged. -/
def loadElem (f c : Nat) (scale : Option Nat) : Word :=
  if f = 1 then w32 c
  else match scale with
    | none => enc32 (fmtDecode f c)
    | some x => enc32 (scaleNum x (fmtDecode f c))

/-! ### Compensated pairs (R129) -/

/-- The later-segment step. -/
def pairAdd (hi lo xh xl : Word) : Word × Word :=
  let s := fadd hi xh
  let bp := fsub s hi
  let e := fadd (fsub hi (fsub s bp)) (fsub xh bp)
  (s, fadd (fadd lo xl) e)

/-- The final normalisation. -/
def pairNorm (hi lo : Word) : Word × Word :=
  let h := fadd hi lo
  let l := fsub lo (fsub h hi)
  (h, if nonFinite32 h then 0 else l)

/-- A pair that holds a value: its rounding to FP32 and the rounding of the rest. -/
def pairOf (v : Num) : Word × Word :=
  let h := enc32 v
  if nonFinite32 h then (h, 0) else (h, enc32 (v.add (dec32 h).neg))

end Sys2Proof.Machine
end

