-- ==== Sys2Proof/Machine/Streams.lean ====
section
/-! DEFINITION. Machine/Streams.lean: the streams (06): fetching a descriptor, gates and fences, MOVE, SIGNAL, WAIT and
STEP descriptors. -/
namespace Sys2Proof.Machine
open Sys2Proof

/-! ### When a stream may act -/

/-- The image has stopped at once (R204, R289): nothing further issues. -/
def halted (s : State) : Bool := s.img.halt

/-- The streams of the module run. -/
def streamsRun (s : State) : Bool :=
  decide (s.img.st = .prologue ∨ s.img.st = .running ∨ s.img.st = .stopping) && !halted s

/-- A stream may fetch or issue: it runs, its die is not in reset, it neither waits nor is held, and no reset of it
waits for a boundary (R91). -/
def mayAct (s : State) (d : Die) (c : Sid) : Bool :=
  let x := str s d c
  streamsRun s && !(die s d).coreReset && !(resetDue s d c) && x.waitRef.isNone &&
    decide (x.st ≠ .idle ∧ x.st ≠ .held ∧ x.st ≠ .waitGang)

/-- The scalar settings of the active image. -/
def params (s : State) : Option JobParams := s.img.sec.map (·.params)

/-- The recompute flag of a layer in an attempt (R60). -/
def recomputeFlag (s : State) (att : DWord) (layer : Nat) : Bool :=
  match attempt s att with
  | some a => decide (layer ∈ a.recompute)
  | none => false

/-- GATE of a descriptor runs it (R178). In a prologue there is no step, and only ALWAYS runs. -/
def gateRuns (s : State) (x : Stream) (w : BitVec 512) : Bool :=
  let n := x.step.toNat
  let q := match params s with | some p => p.q | none => 0
  let h := match params s with | some p => p.h | none => 0
  match dGate w with
  | 0 => true
  | 1 => x.inBody && recomputeFlag s x.attempt (dLayer w).toNat
  | 2 => x.inBody && decide (q ≠ 0 ∧ n % q = 0)
  | 3 => x.inBody && decide (q ≠ 0 ∧ 1 < n ∧ (n - 1) % q = 0)
  | 4 => x.inBody && decide (h ≠ 0 ∧ n % h = 0)
  | 5 => x.inBody && decide (h ≠ 0 ∧ 1 < n ∧ (n - 1) % h = 0)
  | 6 => x.inBody && decide (x.step ≠ s.step.first)
  | _ => false

/-- FENCE holds, or is not asked for; SIGNAL and STEP are always fenced (R176). -/
def fenceOk (x : Stream) (w : BitVec 512) : Bool :=
  !(dFence w || decide (dType w = tSignal ∨ dType w = tStep)) || x.inflight.isEmpty

/-! ### Activation stash (R57 to R61) -/

/-- The plan of a layer. -/
def stashPlan (s : State) (layer : Nat) : Option StashLayer :=
  match s.img.sec with
  | some sec => sec.stash.find? fun l => decide (l.layer = layer)
  | none => none

/-- The recompute area's pages of stack `k`: the largest full-mode size of any layer (R57). -/
def recomputeArea (sec : JobSections) (k : Nat) : Nat := sec.stash.foldl (fun n l => max n (l.fullPages.getD k 0)) 0

/-- Pages of stack `k` that the layers of every attempt hold. -/
def stashHeld (s : State) (k : Nat) : Nat := s.step.stash.foldl (fun n e => n + e.2.2.getD k 0) 0

/-- Pages of each stack that the pool can still give: what is left above the recompute area. -/
def stashFree (s : State) : List Nat :=
  match s.img.sec with
  | some sec => (List.range 24).map fun k => s.step.poolFree.getD k 0 - recomputeArea sec k - stashHeld s k
  | none => []

/-- The pool holds that many pages of each stack. -/
def poolFits (need free : List Nat) : Bool := (List.range 24).all fun k => decide (need.getD k 0 ≤ free.getD k 0)

/-- A layer and every later layer of the plan switch to checkpoint mode for the attempt (R59). -/
def stashFallback (s : State) (att : DWord) (layer : Nat) : State :=
  match s.img.sec with
  | none => s
  | some sec =>
    let late := (sec.stash.filter fun l => decide (layer ≤ l.layer)).map (·.layer)
    let s := updAttempt s att fun a =>
      { a with recompute := a.recompute ++ late.filter fun l => decide (l ∉ a.recompute)
               stashFallback := true, firstCkpt := if a.stashFallback then a.firstCkpt else BitVec.ofNat 16 layer }
    let s := setFld s rStepStash 31 16 layer
    rsEvent s rStepStat 2

/-- The mode of a layer is settled in an attempt: its pages are taken (R179). -/
def stashSettled (s : State) (att : DWord) (layer : Nat) : Bool :=
  s.step.stash.any fun e => decide (e.1 = att ∧ e.2.1 = layer)

/-- The mode of a layer is settled at the first descriptor of it that reaches issue on the F stream in a step, before
its gate is decided (R179), and the layer's stash takes its pages: true when the stream may go on. A full-mode layer
that does not fit falls back; a checkpoint that does not fit is a stash overflow (R61). -/
def stashTake (s : State) (d : Die) (c : Sid) (w : BitVec 512) : Bool × State :=
  let x := str s d c
  let layer := (dLayer w).toNat
  if c ≠ .f ∨ ¬ x.inBody ∨ x.poison then (true, s) else
  match stashPlan s layer with
  | none => (true, s)
  | some l =>
    if stashSettled s x.attempt layer then (true, s)
    else
      let full := l.full && !(recomputeFlag s x.attempt layer)
      let fits := poolFits l.fullPages (stashFree s)
      let s := if full && !fits then stashFallback s x.attempt layer else s
      let pages := if full && fits then l.fullPages else l.ckptPages
      if poolFits pages (stashFree s) then
        (true, { s with step := { s.step with stash := s.step.stash ++ [(x.attempt, layer, pages)] } })
      else
        let s := updAttempt s x.attempt fun a => { a with stashOverflow := true }
        let s := rsEvent s rStepStat 3
        let s := fastPoison s x.attempt gStash (dLayer w) (BitVec.ofNat 8 d.val)
        (false, s)

/-- The pages of an attempt return to the pool. -/
def stashRelease (s : State) (att : DWord) : State :=
  { s with step := { s.step with stash := s.step.stash.filter fun e => decide (e.1 ≠ att) } }

/-- Pages retired since the last step began leave the pool (R256). -/
def shrinkPool (u : StepUnit) : StepUnit :=
  { u with poolFree := u.poolFree.zipIdx.map fun x => x.1 - (u.poolLost.filter fun k => decide (k = x.2)).length, poolLost := [] }

/-! ### Issue -/

/-- The descriptor at issue, when it is of type `t` and may be decided now. -/
def atIssue (s : State) (d : Die) (c : Sid) (t : Nat) : Option (BitVec 512) :=
  let x := str s d c
  match x.cur with
  | some w => if mayAct s d c && decide (dType w = t) && fenceOk x w then some w else none
  | none => none

/-- A descriptor that its gate excludes: it takes one issue slot, counts as completed and makes its DONE
signal (R178). -/
def passOver (s : State) (d : Die) (c : Sid) (w : BitVec 512) : State :=
  signals (issued s d c) (doneSig d c (str s d c) w)

/-- A B stream's recompute descriptor of a layer has issued: the layer counts as recomputed (R60, R73). -/
def noteRecompute (s : State) (c : Sid) (att : DWord) (w : BitVec 512) : State :=
  if c = .b ∧ dGate w = 1 then updAttempt s att fun a =>
    { a with recomputed := if (dLayer w).toNat ∈ a.recomputed then a.recomputed else a.recomputed ++ [(dLayer w).toNat] }
  else s

/-- Issue the descriptor at issue through `run`, or pass it over by its gate; the mode of its layer's stash is settled
first. -/
def issueAs (t : Nat) (p : BitVec 512 → Bool) (run : BitVec 512 → State → State) (d : Die) (c : Sid) (s : State) : State :=
  match atIssue s d c t with
  | none => s
  | some w =>
    if !p w then s else
    let x := str s d c
    let (go, s) := stashTake s d c w
    if !go then s
    else if gateRuns s (str s d c) w then
      let t := run w s
      if (str t d c).pc = x.pc then t else noteRecompute t c x.attempt w
    else passOver s d c w

/-- The stream waits for room in a unit (R193). -/
def waitUnit (s : State) (d : Die) (c : Sid) (fabric : Bool) : State :=
  updStr s d c fun x => { x with st := .waitUnit, fabricWait := fabric }

/-- Descriptors of a unit in progress in a stream. -/
def inUnit (x : Stream) (u : DescUnit) : Nat := (x.inflight.filter fun e => decide (e.unit = u)).length

/-- The entry a descriptor takes in the stream's list while it is in progress. -/
def entryOf (x : Stream) (u : DescUnit) (w : BitVec 512) : InFlight :=
  { id := x.nextId, unit := u, desc := w, addr := x.pc, seq := x.expect, onPath := x.poison }

/-- Issue a descriptor that stays in progress. -/
def startDesc (s : State) (d : Die) (c : Sid) (e : InFlight) : State :=
  updStr (issued s d c) d c fun x =>
    { x with inflight := x.inflight ++ [e], nextId := x.nextId + 1, fabricWait := false }

/-! ### DESC_FETCH -/

/-- The program pointer stands at a descriptor of the active image (R172). -/
def pcOk (s : State) (pc : DWord) : Bool :=
  decide (pc.toNat % 64 = 0) && decide (s.img.base.toNat ≤ pc.toNat) &&
  decide (pc.toNat + 64 ≤ s.img.base.toNat + s.img.len * 4096)

/-- DESC_FETCH: the stream fetches the descriptor at its program pointer and checks it (R174, R525 items 1 to
6). On the poison path it passes over every descriptor but those that run on poison and the step's STEP_END
(R200). -/
def doDescFetch (d : Die) (c : Sid) (s : State) : State :=
  let x := str s d c
  if !(mayAct s d c) || x.cur.isSome then s
  else if !pcOk s x.pc then descFault s d c fPc 0 x.expect x.pc 0xFFFF
  else match memRead s x.pc.toNat 64 with
    | none => descFault s d c fUe 0 x.expect x.pc 0xFFFF
    | some (r, s) =>
      if r.bad then descFault s d c fUe 0 x.expect x.pc 0xFFFF
      else
        let w := BitVec.ofNat 512 (leNat r.data)
        if dSeq w ≠ x.expect then curFault s d c fSeq w
        else if x.poison && !(dRunOnPoison w) && decide (x.pc ≠ x.endAddr) then issued s d c
        else match staticFault c x.inBody w with
          | some f => curFault s d c f w
          | none => updStr s d c fun x => { x with cur := some w }

/-! ### Spaces of R158 -/

/-- A place named by a space code and an address. -/
inductive Place where
  | ts (d : Die) (off : Nat)
  | hbm (a : Nat)
  | bad
  deriving DecidableEq, Repr

/-- The place of an address in a space, seen from die `d`. -/
def placeOf (d : Die) (space a : Nat) : Place :=
  match space with
  | 0 => if a < tsBytes then .ts d a else .bad
  | 1 => if a < 2 ^ 48 then .hbm a else .bad
  | 2 => if h : a / tsBytes < 24 then .ts ⟨a / tsBytes, h⟩ (a % tsBytes) else .bad
  | _ => .bad

/-- A range starting at a place lies in its space, mapped. -/
def placeOk (s : State) (p : Place) (len : Nat) : Bool :=
  match p with
  | .ts _ o => decide (o + len ≤ tsBytes)
  | .hbm a => mappedRange s.mem a len
  | .bad => false

/-- The finished-tile queue region of a die (R100): base and size in bytes. -/
def tqRegion (s : State) (d : Die) : Nat × Nat :=
  let w := reg s (cdWin d.val + rTqCfg)
  (fld w 9 0 * 65536, fld w 25 16 * 65536)

/-- A range touches a finished-tile queue or the active job image. -/
def isProtected (s : State) (p : Place) (len : Nat) : Bool :=
  match p with
  | .ts d o => let (b, n) := tqRegion s d; overlaps o len b n
  | .hbm a => inImage s a len
  | .bad => false

/-- Read at a place that is in range. -/
def readPlace (s : State) (p : Place) (len port : Nat) : MemRead × State :=
  match p with
  | .ts d o => tsRead s d o len port
  | .hbm a => match memRead s a len with
    | some r => r
    | none => (⟨[], true⟩, s)
  | .bad => (⟨[], true⟩, s)

/-- Write at a place that is in range; the flag says that the write was refused (R263). -/
def writePlace (s : State) (p : Place) (bs : List Byte) (port : Nat) : Bool × State :=
  match p with
  | .ts d o => (false, tsWrite s d o bs port)
  | .hbm a => match memWrite s a bs with
    | some r => r
    | none => (true, s)
  | .bad => (true, s)

/-! ### MOVE (R187) -/

def mvSrcSpace (w : BitVec 512) : Nat := dfld w 0xD 1 % 4
def mvDstSpace (w : BitVec 512) : Nat := dfld w 0xD 1 / 4 % 4
def mvSrc (w : BitVec 512) : Nat := dfld w 0x10 8
def mvDst (w : BitVec 512) : Nat := dfld w 0x18 8
def mvRowBytes (w : BitVec 512) : Nat := dfld w 0x20 4
def mvRows (w : BitVec 512) : Nat := dfld w 0x24 4
def mvSrcPitch (w : BitVec 512) : Nat := dfld w 0x28 8
def mvDstPitch (w : BitVec 512) : Nat := dfld w 0x30 8

/-- Every row from `base` is in its space, mapped and unprotected (R187). -/
def rowsOk (s : State) (d : Die) (space base pitch rows len : Nat) : Bool :=
  (List.range rows).all fun r =>
    let p := placeOf d space (base + r * pitch)
    placeOk s p len && !isProtected s p len

/-- The move's ranges are all permitted. -/
def moveRangeOk (s : State) (d : Die) (w : BitVec 512) : Bool :=
  rowsOk s d (mvDstSpace w) (mvDst w) (mvDstPitch w) (mvRows w) (mvRowBytes w) &&
  (decide (dOp w = 1) || rowsOk s d (mvSrcSpace w) (mvSrc w) (mvSrcPitch w) (mvRows w) (mvRowBytes w))

/-- Two places overlap over `len` bytes. -/
def placesOverlap (p q : Place) (len : Nat) : Bool :=
  match p, q with
  | .ts d o, .ts e o' => decide (d = e) && overlaps o len o' len
  | .hbm a, .hbm b => overlaps a len b len
  | _, _ => false

/-- Some source row overlaps some destination row. -/
def moveOverlaps (d : Die) (w : BitVec 512) : Bool :=
  (List.range (mvRows w)).any fun r => (List.range (mvRows w)).any fun k =>
    placesOverlap (placeOf d (mvSrcSpace w) (mvSrc w + r * mvSrcPitch w))
      (placeOf d (mvDstSpace w) (mvDst w + k * mvDstPitch w)) (mvRowBytes w)

/-- `n` fresh free bytes. -/
def freeBytes : Nat → State → List Byte × State
  | 0, s => ([], s)
  | n + 1, s =>
    let (i, s) := drawFree s
    let (bs, s) := freeBytes n s
    (Config.freeByte i :: bs, s)

/-- A destination granule whose source was in error (R187): poisoned in HBM, left as it was in a tile store. -/
def poisonPlace (s : State) (p : Place) : State :=
  match p with
  | .hbm a => memPoison s a 64
  | _ => s

/-- The port by which a move of die `d` reaches a place: the bundles for another die's tile store (R247, R264). -/
def movePort (d : Die) (p : Place) : Nat :=
  match p with
  | .ts e _ => if e = d then 2 else 3
  | _ => 2

/-- Copy one granule of 64 B: true when an error was met. -/
def copyGran (d : Die) (w : BitVec 512) (free : Bool) (r g : Nat) (acc : Bool × State) : Bool × State :=
  let (bad, s) := acc
  let src := placeOf d (mvSrcSpace w) (mvSrc w + r * mvSrcPitch w + g * 64)
  let (rd, s) := readPlace s src 64 (movePort d src)
  let dst := placeOf d (mvDstSpace w) (mvDst w + r * mvDstPitch w + g * 64)
  if rd.bad then (true, poisonPlace s dst)
  else
    let (data, s) := if free then freeBytes 64 s else (rd.data, s)
    let (refused, s) := writePlace s dst data (movePort d dst)
    (bad || refused, s)

/-- Copy every granule, row by row. Where source and destination overlap, the bytes written are undefined: free
values. -/
def moveCopyAll (d : Die) (w : BitVec 512) (s : State) : Bool × State :=
  let free := moveOverlaps d w
  (List.range (mvRows w)).foldl (fun acc r =>
    (List.range (mvRowBytes w / 64)).foldl (fun acc g => copyGran d w free r g acc) acc) (false, s)

/-- Write +0 bytes to every row. -/
def moveZeroAll (d : Die) (w : BitVec 512) (s : State) : Bool × State :=
  (List.range (mvRows w)).foldl (fun acc r =>
    let dst := placeOf d (mvDstSpace w) (mvDst w + r * mvDstPitch w)
    let (refused, s) := writePlace acc.2 dst (List.replicate (mvRowBytes w) 0) (movePort d dst)
    (acc.1 || refused, s)) (false, s)

/-- A move issues: DESC_RANGE before anything is written, a wait while eight are in progress, and otherwise
the bytes are moved and the descriptor is in progress until MOVE_DONE. -/
def runMove (d : Die) (c : Sid) (all : BitVec 512 → State → Bool × State) (w : BitVec 512) (s : State) : State :=
  let x := str s d c
  if !moveRangeOk s d w then curFault s d c fRange w
  else if 8 ≤ inUnit x .move then waitUnit s d c false
  else
    let e := entryOf x .move w
    let (bad, s) := all w s
    startDesc s d c { e with bad := bad }

/-- MOVE_COPY. -/
def doMoveCopy (d : Die) (c : Sid) (s : State) : State :=
  issueAs tMove (fun w => decide (dOp w = 0)) (runMove d c (moveCopyAll d)) d c s

/-- MOVE_ZERO. -/
def doMoveZero (d : Die) (c : Sid) (s : State) : State :=
  issueAs tMove (fun w => decide (dOp w = 1)) (runMove d c (moveZeroAll d)) d c s

/-- The entry in progress with a given number. -/
def findInflight (x : Stream) (u : DescUnit) (i : Nat) : Option InFlight :=
  x.inflight.find? fun e => decide (e.id = i) && decide (e.unit = u)

/-- MOVE_DONE: the move completes and signals, or raises MOVE_UE and makes no DONE signal. -/
def doMoveDone (d : Die) (c : Sid) (i : Nat) (s : State) : State :=
  match findInflight (str s d c) .move i with
  | none => s
  | some e =>
    if e.bad then (if e.silent then dropInflight s d c i else unitFault s d c fMoveUe e)
    else completeDesc s d c e

/-! ### SIGNAL (R189, R225) -/

def sgTarget (w : BitVec 512) : Nat := dfld w 0xC 1
def sgEndpoint (w : BitVec 512) : Nat := dfld w 0xD 1
def sgRank (w : BitVec 512) : Nat := dfld w 0xE 2
def sgRef (w : BitVec 512) : Nat := dfld w 0x10 4
def sgCount (w : BitVec 512) : Nat := dfld w 0x14 4

/-- The object a local SIGNAL names. -/
def sgObj (w : BitVec 512) : ObjRef :=
  if sgEndpoint w = 24 then .glob ⟨sgRef w % 32768, Nat.mod_lt _ (by decide)⟩
  else .loc ⟨sgEndpoint w % 24, Nat.mod_lt _ (by decide)⟩ ⟨sgRef w % 4096, Nat.mod_lt _ (by decide)⟩

/-- ADDR of a SIGNAL packet (R300). -/
def signalAddr (ref count : Nat) (tag : Option Half) : DWord :=
  w64 (ref % 65536 + (tag.getD 0).toNat * 65536 + count % 2 ^ 31 * 2 ^ 32 + b2n tag.isSome * 2 ^ 63)

/-- A SIGNAL issues: a local one is applied at once and makes its DONE signal; a remote one is sent and stays in
progress until the reply. A rank outside the job fails with NO_RANK and DESC_REF (R296). -/
def runSignal (d : Die) (c : Sid) (w : BitVec 512) (s : State) : State :=
  let x := str s d c
  if sgTarget w = 0 then
    let s := issued s d c
    signals s (⟨sgObj w, sgCount w, streamTag x, ⟨d.val, sidNat c, false⟩⟩ :: doneSig d c x w)
  else match rankMod s (sgRank w) with
    | none =>
      let p := blankPkt s ptSignal 0 0 (BitVec.ofNat 5 d.val)
      curFault (fabErr s 1 p none) d c fRef w
    | some m =>
      if 64 ≤ inUnit x .signal then waitUnit s d c false else
      let p := { blankPkt s ptSignal m (BitVec.ofNat 5 (sgEndpoint w)) (BitVec.ofNat 5 d.val) with
                 addr := signalAddr (sgRef w) (sgCount w) (streamTag x) }
      let e := entryOf x .signal w
      match sendReq s (.signal d c e.id (sgRef w)) false p with
      | some s => startDesc s d c e
      | none => waitUnit s d c false

/-- SIGNAL. -/
def doSignal (d : Die) (c : Sid) (s : State) : State :=
  issueAs tSignal (fun _ => true) (runSignal d c) d c s

/-! ### WAIT (R190, R222) -/

def wtRef (w : BitVec 512) : Nat := dfld w 0xC 4
def wtValue (w : BitVec 512) : Nat := dfld w 0x10 4
def wtMode (w : BitVec 512) : Nat := dfld w 0x14 1
def wtTimeout (w : BitVec 512) : Nat := dfld w 0x18 4

/-- A WAIT issues: the stream waits on the object until its waiter ends, which may be at once. -/
def runWait (d : Die) (c : Sid) (w : BitVec 512) (s : State) : State :=
  let r := refObj d (wtRef w)
  let s := updStr s d c fun x => { x with st := .waitSync, waitRef := some r, waiter := 0 }
  waitOn s r { who := .stream d c, take := decide (wtMode w = 1), v := wtValue w, deadline := deadlineUs s (wtTimeout w) }

/-- WAIT in AT_LEAST mode. -/
def doWaitAtLeast (d : Die) (c : Sid) (s : State) : State :=
  issueAs tWait (fun w => decide (wtMode w = 0)) (runWait d c) d c s

/-- WAIT in TAKE mode. -/
def doWaitTake (d : Die) (c : Sid) (s : State) : State :=
  issueAs tWait (fun w => decide (wtMode w = 1)) (runWait d c) d c s

/-- The pending waiter of `who` at an object. -/
def pendingWaiter (s : State) (o : ObjRef) (who : Who) : Option Waiter :=
  (getObj s o).waiters.find? fun w => decide (w.who = who)

/-- A stream's wait has timed out (R197, R202): WAIT_TIMEOUT on the WAIT it stands at. CDnn_SYNC_ERR_INFO names the object. -/
def streamTimeout (s : State) (d : Die) (c : Sid) : State :=
  let x := str s d c
  let s := match x.waitRef with
    | some r => setReg s (cdWin d.val + rCdSyncErrInfo) (syncInfo 0 ⟨d.val, sidNat c, false⟩ (refBits r))
    | none => s
  let s := updStr s d c fun x => { x with waiter := stTimeout, waitRef := none }
  match x.cur with
  | some w => curFault s d c fTimeout w
  | none => s

/-- WAITER_TIMEOUT: a pending waiter's deadline passes (R223): it leaves the object, and the wait ends
TIMEOUT. -/
def doWaiterTimeout (o : ObjRef) (who : Who) (s : State) : State :=
  match pendingWaiter s o who with
  | none => s
  | some w =>
    match w.deadline with
    | none => s
    | some t =>
      let s := advanceTo t s
      let s := leaveObj s o who
      match who with
      | .slot n => endSlot s n stTimeout (getObj s o)
      | .stream d c => streamTimeout s d c

/-! ### STEP descriptors (R192, R198 to R201) -/

/-- The number of the attempt a stream begins next (R220). -/
def nextAttempt (s : State) (x : Stream) : DWord := if x.begunAny then x.attempt + 1 else s.img.attBase + 1

/-- The verdict STEP_BEGIN waits for is there (R198 item 1). -/
def beginReady (s : State) (x : Stream) : Bool :=
  !x.begunAny ||
    match attempt s x.attempt with
    | none => true
    | some a => match a.verdict with
      | some .clear => true
      | some .poison => a.recorded
      | _ => false

/-- The step number a stream begins next (R198 item 2). -/
def nextStep (s : State) (x : Stream) : DWord :=
  if !x.begunAny then s.step.ctr + 1
  else match verdictOf s x.attempt with
    | some .poison => x.step
    | _ => x.step + 1

/-- A stop holds the stream at this STEP_BEGIN (R201): its step lies beyond the stop step, or it would begin the
stop step again after it ended. -/
def stopHolds (s : State) (x : Stream) (n : DWord) : Bool :=
  match s.step.stopStep with
  | none => false
  | some m => decide (m.toNat < n.toNat) ||
      (decide (n = m) && x.begunAny && decide (x.step = m) && (attempt s (nextAttempt s x)).isNone)

/-- Layers planned in checkpoint mode: their recompute flags are set from the start of the step (R60). -/
def plannedCkpt (s : State) : List Nat :=
  match s.img.sec with
  | some sec => (sec.stash.filter fun l => !l.full).map (·.layer)
  | none => []

/-- The step unit hears of the start of an attempt. The first STEP_BEGIN fixes the loss-scale exponent and the
start time (R55, R73); poison received before it stands (R49). -/
def beginAttempt (s : State) (att n : DWord) (no : Nat) : State :=
  let s := match attempt s att with
    | some _ => s
    | none =>
      let a : Attempt := { att := att, step := n, tStart := s.tb, lossExp := s.step.lossE, recompute := plannedCkpt s }
      let s := { s with step := { shrinkPool s.step with
        attempts := s.step.attempts ++ [a]
        first := if s.step.attempts.isEmpty ∧ s.step.endedSteps = 0 then n else s.step.first } }
      let s := setReg64 s rSyncAttempt att
      match s.step.remotePoison.find? fun r => decide (r.1 = att) with
      | some _ => setPoison (addCause s att gRemote 0xFFFF 0xFF) att
      | none => s
  updAttempt s att fun a => { a with begun := a.begun ++ [no] }

/-- Every stream of the module has begun a step. -/
def allBegun (s : State) : Bool := allDies.all fun d => allSids.all fun c => (str s d c).begunAny

/-- STEP_BEGIN issues (R198). The first waits until the tiles of R42 are re-homed. -/
def runBegin (d : Die) (c : Sid) (w : BitVec 512) (s : State) : State :=
  let x := str s d c
  let n := nextStep s x
  let last := dfld w 0x18 8
  if !beginReady s x then updStr s d c fun x => { x with st := .waitVerdict }
  else if !x.begunAny && !s.upd.rehome.isEmpty then waitUnit s d c false
  else if stopHolds s x n then updStr s d c fun x => { x with st := .held }
  else if last ≠ 0 ∧ last < n.toNat then
    let s := requestStop s 2
    updStr s d c fun x => { x with st := .held }
  else
    let att := nextAttempt s x
    let s := beginAttempt s att n (strNo d c)
    let s := (List.range (dfld w 0x12 2)).foldl (fun s i =>
      stepRearm (att.setWidth 16) d ⟨(dfld w 0x10 2 + i) % 4096, Nat.mod_lt _ (by decide)⟩ s) s
    let s := issued s d c
    let s := updStr s d c fun x =>
      { x with inBody := true, begunAny := true, prologue := false, faulted := false, poison := false, pass2 := false,
               step := n, attempt := att, endAddr := w64 (dfld w 0x20 8), endSeq := BitVec.ofNat 16 (dfld w 0x28 2) }
    let s := signals s (doneSig d c (str s d c) w)
    let s := if s.img.st = .prologue ∧ allBegun s then { s with img := { s.img with st := .running } } else s
    if verdictOf s att = some .poison then enterPoison s d c else s

/-- STEP_BEGIN. -/
def doStepBegin (d : Die) (c : Sid) (s : State) : State :=
  issueAs tStep (fun w => decide (dOp w = 0)) (runBegin d c) d c s

/-- STEP_END issues: the stream reports its arrival, and its program pointer returns to the STEP_BEGIN named. -/
def runEnd (d : Die) (c : Sid) (w : BitVec 512) (s : State) : State :=
  let x := str s d c
  let s := updAttempt s x.attempt fun a => { a with ended := a.ended ++ [strNo d c] }
  let s := issued s d c
  let s := updStr s d c fun x =>
    { x with inBody := false, poison := false, pass2 := false, st := .issuing,
             pc := w64 (dfld w 0x10 8), expect := BitVec.ofNat 16 (dfld w 0x18 2) }
  signals s (doneSig d c x w)

/-- STEP_END. -/
def doStepEnd (d : Die) (c : Sid) (s : State) : State :=
  issueAs tStep (fun w => decide (dOp w = 1)) (runEnd d c) d c s

/-- A U stream that passes its GUARD after a fault of the pass issues none of its descriptors (R289): it is held, or stands at
STEP_END where the Finisher has completed the step. -/
def lateGuard (d : Die) (c : Sid) (s : State) : State :=
  let x := str s d c
  if c ≠ .u then s
  else if (attempt s x.attempt).any (·.finisher) then
    updStr s d c fun x => { x with pc := x.endAddr, expect := x.endSeq, pass2 := false }
  else if s.upd.fault && s.upd.p2.any fun q => decide (q.att = x.attempt) then updStr s d c fun x => { x with st := .held }
  else s

/-- GUARD issues (R199): it waits for the verdict of its step, and a clear one leads to pass 2. -/
def runGuard (d : Die) (c : Sid) (w : BitVec 512) (s : State) : State :=
  let x := str s d c
  match verdictOf s x.attempt with
  | some .clear => lateGuard d c (signals (updStr (issued s d c) d c fun x => { x with pass2 := true }) (doneSig d c x w))
  | some .poison => if x.poison then passOver s d c w else enterPoison s d c
  | _ => updStr s d c fun x => { x with st := .waitVerdict }

/-- GUARD. -/
def doGuard (d : Die) (c : Sid) (s : State) : State :=
  issueAs tStep (fun w => decide (dOp w = 2)) (runGuard d c) d c s

/-- The FP32 value at a module address as the step unit reads it: the canonical NaN where the read meets an
error (R192). -/
def readLoss (s : State) (a : Nat) : Word × State :=
  match memRead s a 4 with
  | some (r, s) => if r.bad then (nan32, s) else (w32 (leNat r.data), s)
  | none => (nan32, s)

/-- LOSS issues: the step's loss is read for the record; one that is not finite is a cause of R47. -/
def runLoss (d : Die) (c : Sid) (w : BitVec 512) (s : State) : State :=
  let x := str s d c
  let (v, s) := readLoss s (dfld w 0x10 8)
  let s := updAttempt s x.attempt fun a => { a with loss := some v }
  let s := if nonFinite32 v then guardReport s x.attempt gLoss (dLayer w) (BitVec.ofNat 8 d.val) else s
  signals (issued s d c) (doneSig d c x w)

/-- LOSS. -/
def doLoss (d : Die) (c : Sid) (s : State) : State :=
  issueAs tStep (fun w => decide (dOp w = 3)) (runLoss d c) d c s

/-! ### The end of a step (R54, R55, R56, R73) -/

/-- STEP_LOSS_SCALE shows E and CLEAN_RUN. -/
def showScale (s : State) : State :=
  setReg s rLossScale (w32 (s.step.cleanRun % 65536 * 256 + unsign 8 s.step.lossE))

/-- The loss-scale rule for a poisoned step. -/
def scalePoison (s : State) : State :=
  match params s with
  | none => s
  | some p =>
    let s := if s.step.lossE ≤ p.eMin then rsEvent s rStepStat 9 else s
    showScale { s with step := { s.step with lossE := max (s.step.lossE - 1) p.eMin, cleanRun := 0 } }

/-- The loss-scale rule at a commit. -/
def scaleCommit (s : State) : State :=
  match params s with
  | none => s
  | some p =>
    let run := s.step.cleanRun + 1
    showScale { s with step := { s.step with
      lossE := if run = p.growth then min (s.step.lossE + 1) p.eMax else s.step.lossE
      cleanRun := if run = p.growth then 0 else run } }

/-- STEP_POISON shows the counts. -/
def showPoison (s : State) : State :=
  setReg s rStepPoison (w32 (min s.step.poisonTotal 65535 * 65536 + s.step.poisonRun % 256))

/-- STEP_GUARD_CAUSE of an attempt (R74), also the GUARD_CAUSE of its record. -/
def causeWord (a : Attempt) : Word :=
  w32 (a.layer.toNat * 65536 + a.cd.toNat * 256 + a.causes.toNat)

/-- STATUS of a step record (R73). SNAPSHOT and OUTER_STEP follow the step number, also in the record of a poisoned
attempt (DESIGN CHOICE, log entry 75). -/
def recordStatus (s : State) (a : Attempt) : Nat :=
  let p := params s
  let q := match p with | some p => p.q | none => 0
  let h := match p with | some p => p.h | none => 0
  let clear := decide (a.verdict = some .clear)
  b2n clear + 2 * b2n (!clear) + 4 * b2n a.stashFallback + 8 * b2n a.stashOverflow +
  16 * b2n (decide (q ≠ 0 ∧ a.step.toNat % q = 0)) + 32 * b2n (decide (h ≠ 0 ∧ a.step.toNat % h = 0)) +
  64 * b2n a.finisher + 128 * b2n a.loss.isSome

/-- The layers of the model that the image describes, each once. -/
def modelLayers (s : State) : List Nat := s.img.layers.foldl (fun ls l => if lLayer l ∈ ls then ls else ls ++ [lLayer l]) []

/-- The expert pairs of an attempt, layer by layer: free, but none redirected at redirect depth 0 (R66, R68). -/
def attemptSlots (s : State) (a : Attempt) : List SlotCount :=
  (modelLayers s).map fun l =>
    { layer := l, assigned := Config.slotAssigned a.att s.tb l
      redirected := match params s with
        | some p => if p.redirectDepth = 0 then 0 else Config.slotRedirects a.att s.tb l
        | none => 0
      dropped := Config.slotDrops a.att s.tb l }

/-- Pairs that an attempt redirected in all layers. -/
def slotRedirects (s : State) (a : Attempt) : Word := (attemptSlots s a).foldl (fun n c => n + c.redirected) 0

/-- Pairs that an attempt dropped in all layers. -/
def slotDrops (s : State) (a : Attempt) : Word := (attemptSlots s a).foldl (fun n c => n + c.dropped) 0

/-- The counts of the step, the running totals since activation, and SLOT_DROP when a layer dropped a pair (R68). -/
def countSlots (s : State) (a : Attempt) : State :=
  let cs := attemptSlots s a
  let s := { addReg (addReg s rSlotRedir (slotRedirects s a).toNat) rSlotDrop (slotDrops s a).toNat with
             step := { s.step with slotCounts := cs } }
  if cs.all fun c => decide (c.dropped = 0) then s else rsEvent s rStepStat 4

/-- The 64 bytes of a step record (R73). -/
def recordBytes (s : State) (a : Attempt) : List Byte :=
  leBytes 8 a.step.toNat ++ leBytes 4 (recordStatus s a) ++ leBytes 4 (causeWord a).toNat ++
  leBytes 4 (a.loss.getD nan32).toNat ++ leBytes 4 (unsign 8 a.lossExp) ++ leBytes 4 a.gnorm.toNat ++
  leBytes 2 a.firstCkpt.toNat ++ leBytes 2 a.recomputed.length ++
  leBytes 4 (slotRedirects s a).toNat ++ leBytes 4 (slotDrops s a).toNat ++
  leBytes 8 a.tStart.toNat ++ leBytes 8 s.tb.toNat ++ leBytes 8 0

/-- Write the record of an attempt into the ring and signal the step-done object (R73). -/
def writeRecord (s : State) (a : Attempt) : State :=
  match s.img.sec with
  | none => s
  | some sec =>
    let s := memPut s (sec.stepRing + 64 * (s.step.endedSteps % max 1 sec.stepRingLen)) (recordBytes s a)
    let s := countSlots s a
    let s := setReg s rStepStash (w32 (a.firstCkpt.toNat * 65536 + a.recomputed.length % 65536))
    let s := { s with step := { s.step with endedSteps := s.step.endedSteps + 1 } }
    let s := rsEvent s rStepStat 0
    match sec.params.stepDone with
    | some i => signalPlinth s i
    | none => s

/-- Mark an attempt as ended, and forget those ended before it. -/
def markRecorded (s : State) (att : DWord) : State :=
  { s with step := { s.step with
      attempts := (s.step.attempts.filter fun a => !a.recorded).map fun a =>
        if a.att = att then { a with recorded := true, repeatAt := none } else a
      remotePoison := s.step.remotePoison.filter fun r => decide (r.1 ≠ att) } }

/-- Items 2 to 5 of R54 for a poisoned attempt, with the poison limit (R56). -/
def endPoisoned (s : State) (a : Attempt) : State :=
  let s := scalePoison s
  let s := stashRelease s a.att
  let s := { s with upd := { s.upd with gPairs := [], wPairs := [], redPeers := s.upd.redPeers.filter fun x => decide (x.1 ≠ a.att) } }
  let s := setReg s rGuardCause (causeWord a)
  let s := rsEvent s rStepStat 1
  let s := showPoison { s with step := { s.step with
    poisonTotal := satInc 16 s.step.poisonTotal, poisonRun := s.step.poisonRun + 1 } }
  let s := match params s with
    | some p => match p.inputConsumed with
      | some i => if a.inputDone then s else signalPlinth s i
      | none => s
    | none => s
  let s := markRecorded (writeRecord s a) a.att
  match params s with
  | some p =>
    if p.poisonLimit ≤ s.step.poisonRun then rsEvent (requestStop s 3) rStepStat 7 else s
  | none => s

/-- The end of a committed attempt. -/
def endClear (s : State) (a : Attempt) : State :=
  let s := stashRelease s a.att
  let s := showPoison { s with step := { s.step with poisonRun := 0 } }
  markRecorded (writeRecord s a) a.att

/-- The oldest attempt that all 96 streams have ended and whose verdict is known, and that has not ended yet;
a committed step waits for the Finisher when it has one to wait for. -/
def endable (s : State) : Option Attempt :=
  s.step.attempts.find? fun a =>
    !a.recorded && decide (a.ended.length = 96) &&
    (decide (a.verdict = some .poison) || (decide (a.verdict = some .clear) && !s.upd.fault))

/-- STEP_UNIT_END_STEP. -/
def doStepUnitEndStep (s : State) : State :=
  match endable s with
  | none => s
  | some a => if a.verdict = some .poison then endPoisoned s a else endClear s a

end Sys2Proof.Machine
end

