-- ==== Sys2Proof/Machine/Array.lean ====
section
/-! DEFINITION. Machine/Array.lean: the matrix array and the Armature (03, 04): the checks of an ARRAY descriptor, gang
election, the arithmetic of a tile and the finished-tile queue. -/
namespace Sys2Proof.Machine
open Sys2Proof

/-! ### Shapes of an operation (R80, R83, R184) -/

/-- Width class of a format: 4, 8, 16, 32 or 64 (R109). -/
def widthClass (f : Nat) : Nat :=
  match fmtBits f with
  | 6 => 8
  | b => b

/-- The wider of the two operands' width classes. -/
def aWidth (w : BitVec 512) : Nat := max (widthClass (aFmtS w)) (widthClass (aFmtA w))

/-- The mode reads the stationary operand along columns (TS, TSA). -/
def sByCol (w : BitVec 512) : Bool := decide (aMode w = 1 ∨ aMode w = 3)
/-- The mode reads the streamed operand along columns (TA, TSA). -/
def aByCol (w : BitVec 512) : Bool := decide (aMode w = 2 ∨ aMode w = 3)
/-- The mode is not PLAIN. -/
def transposed (w : BitVec 512) : Bool := decide (aMode w ≠ 0)

/-- K per visit (R83, R82). -/
def kPerVisit (w : BitVec 512) : Nat :=
  match aWidth w with
  | 4 => if sByCol w then 512 else 1024
  | 8 => 512
  | _ => 256

def ceilDiv (a b : Nat) : Nat := (a + b - 1) / b

/-- NT, T and V of R184. -/
def aNT (w : BitVec 512) : Nat := ceilDiv (aN w) 256
def aT (w : BitVec 512) : Nat := ceilDiv (aM w) 256 * aNT w
def aV (w : BitVec 512) : Nat := ceilDiv (aK w) (kPerVisit w)

/-- The j-th work item of the die. -/
def itemNo (w : BitVec 512) (j : Nat) : Nat := aItemFirst w + j * aItemStride w

/-- What an item is: part, tile indices, valid rows and columns, and its visits [v0, v1). -/
structure Item where
  part : Nat
  mb : Nat
  nb : Nat
  rows : Nat
  cols : Nat
  v0 : Nat
  v1 : Nat
  deriving DecidableEq, Repr

/-- The item with number `x` (R184). -/
def itemOf (w : BitVec 512) (x : Nat) : Item :=
  let t := x / aSplit w
  let p := x % aSplit w
  let mb := t / aNT w
  let nb := t % aNT w
  { part := p, mb := mb, nb := nb, rows := min 256 (aM w - 256 * mb), cols := min 256 (aN w - 256 * nb),
    v0 := p * aV w / aSplit w, v1 := (p + 1) * aV w / aSplit w }

/-- The range of k of an item: first and end. -/
def itemK (w : BitVec 512) (i : Item) : Nat × Nat :=
  (i.v0 * kPerVisit w, min (aK w) (i.v1 * kPerVisit w))

/-! ### Addresses of operands (R115, R183) -/

/-- Byte position of a column within a stored row. -/
def colByte (f c : Nat) : Nat :=
  match fmtBits f with
  | 6 => c / 4 * 3
  | 4 => c / 2
  | b => c * (b / 8)

/-- Bytes from the first to past the last byte that column `c` occupies, counted from its byte position. -/
def colSpan (f : Nat) : Nat :=
  match fmtBits f with
  | 6 => 3
  | 4 => 1
  | b => b / 8

/-- One operand: base, pitch, scale base and format. -/
structure Operand where
  addr : Nat
  pitch : Nat
  scale : Nat
  fmt : Nat

def opS (w : BitVec 512) : Operand := ⟨aSAddr w, aSPitch w, aSScale w, aFmtS w⟩
def opA (w : BitVec 512) : Operand := ⟨aAAddr w, aAPitch w, aAScale w, aFmtA w⟩

/-- Address of a stored element, modulo 2^32. -/
def elemAddr (o : Operand) (r c : Nat) : Nat := (o.addr + r * o.pitch + colByte o.fmt c) % 2 ^ 32
/-- Address of the scale of a stored element's block. The pitch in scales is rounded down before it is multiplied by the row
(DESIGN CHOICE, log entry 75: R183 gives no floor there). -/
def scaleAddr (o : Operand) (r c : Nat) : Nat :=
  (o.scale + r * (o.pitch * 8 / (32 * fmtBits o.fmt)) + c / 32) % 2 ^ 32

/-- The rectangle of stored rows and columns [r0, r1) × [c0, c1). -/
structure Rect where
  r0 : Nat
  r1 : Nat
  c0 : Nat
  c1 : Nat

/-- What an item reads of S and of A (R80). -/
def rectS (w : BitVec 512) (i : Item) : Rect :=
  let (k0, k1) := itemK w i
  let n0 := 256 * i.nb
  if sByCol w then ⟨n0, n0 + i.cols, k0, k1⟩ else ⟨k0, k1, n0, n0 + i.cols⟩
def rectA (w : BitVec 512) (i : Item) : Rect :=
  let (k0, k1) := itemK w i
  let m0 := 256 * i.mb
  if aByCol w then ⟨k0, k1, m0, m0 + i.rows⟩ else ⟨m0, m0 + i.rows, k0, k1⟩

/-- The spans of bytes, one for each stored row, of a rectangle and of its scales. -/
def spansOf (o : Operand) (q : Rect) : List (Nat × Nat) :=
  (List.range (q.r1 - q.r0)).flatMap fun i =>
    let r := q.r0 + i
    let a := elemAddr o r q.c0
    let n := colByte o.fmt (q.c1 - 1) + colSpan o.fmt - colByte o.fmt q.c0
    (a, n) :: (if isMx o.fmt then [(scaleAddr o r q.c0, (q.c1 - 1) / 32 - q.c0 / 32 + 1)] else [])

/-- The spans an item reads; none when it covers no visit. -/
def itemSpans (w : BitVec 512) (i : Item) : List (Nat × Nat) :=
  if i.v1 ≤ i.v0 then [] else spansOf (opS w) (rectS w i) ++ spansOf (opA w) (rectA w i)

/-- Every byte the items touch lies in the tile store (R183). -/
def arrayRangeOk (w : BitVec 512) : Bool :=
  (List.range (aItemCount w)).all fun j =>
    (itemSpans w (itemOf w (itemNo w j))).all fun (a, n) => decide (a + n ≤ tsBytes)

/-! ### The arithmetic of a tile -/

/-- A stored element's code in a tile store. -/
def elemCode (ts : SMap Byte) (o : Operand) (r c : Nat) : Nat :=
  let a := elemAddr o r c
  let bs := (List.range (colSpan o.fmt)).map fun i => SMap.get 0 ts (a + i)
  match fmtBits o.fmt with
  | 6 => leNat bs / 2 ^ (6 * (c % 4)) % 64
  | 4 => leNat bs / 2 ^ (4 * (c % 2)) % 16
  | _ => leNat bs

/-- A stored element's value, with its block scale (R113, R114, R116). -/
def elemVal (ts : SMap Byte) (o : Operand) (r c : Nat) : Num :=
  let v := fmtDecode o.fmt (elemCode ts o r c)
  if isMx o.fmt then scaleNum (SMap.get 0 ts (scaleAddr o r c)).toNat v else v

/-- Round a finite value to `p` significant bits, to nearest, ties to even. -/
def roundSig (p : Nat) : Num → Num
  | .fin n m e =>
    if m = 0 then .fin n 0 e
    else
      let q : Int := e + (Nat.log2 m : Int) - ((p : Int) - 1)
      if q ≤ e then .fin n m e else .fin n (roundShift m e q) q
  | v => v

/-- The two pieces of an element in an FP32 operation (R117). -/
def pieces32 (f : Nat) (v : Num) : Num × Num :=
  match v with
  | .fin _ _ _ =>
    if f = 1 then let h := roundSig 11 v; (h, roundSig 11 (v.add h.neg)) else (v, .fin false 0 0)
  | v => (v, .fin false 0 0)

/-- Piece `j` of an element in an FP64 operation (R118): the significand with its leading one at bit 52,
shifted left by 3 and cut into pieces of 7 bits. An infinity or NaN stands in piece 7. -/
def piece64 (v : Num) (j : Nat) : Num :=
  match v with
  | .fin n m e =>
    if m = 0 then .fin n 0 0
    else
      let k := 52 - Nat.log2 m
      .fin n (m * 2 ^ k * 8 / 128 ^ j % 128) (e - k - 3 + 7 * j)
  | v => if j = 7 then v else .fin false 0 0

/-- A chain's exact register and flags over its products (R123, R124): the sum in units of 2^-298, NAN,
POS_INF, NEG_INF, whether there was a product, and whether every product was -0. -/
structure Chain where
  sum : Int := 0
  nan : Bool := false
  pinf : Bool := false
  ninf : Bool := false
  any : Bool := false
  allNeg0 : Bool := true

/-- Add one product to a chain. -/
def Chain.add (c : Chain) (p : Num) : Chain :=
  match p with
  | .nan => { c with nan := true, any := true, allNeg0 := false }
  | .inf n => { c with pinf := c.pinf || !n, ninf := c.ninf || n, any := true, allNeg0 := false }
  | .fin n m e => { c with sum := c.sum + atExp n m e (-298), any := true, allNeg0 := c.allNeg0 && n && decide (m = 0) }

/-- The value of a chain before rounding (R124, R125). -/
def Chain.value (c : Chain) : Num :=
  if c.nan || (c.pinf && c.ninf) then .nan
  else if c.pinf then .inf false
  else if c.ninf then .inf true
  else ofInt c.sum (-298) (c.any && c.allNeg0)

/-- The floating register of an FP64 chain (R127): a sign, a significand below 2^128 and an exponent. -/
structure Reg64 where
  v : Num := .fin false 0 0
  nan : Bool := false
  pinf : Bool := false
  ninf : Bool := false
  any : Bool := false
  allNeg0 : Bool := true

/-- Truncate a magnitude m × 2^e to a multiple of 2^q. -/
def truncTo (m : Nat) (e q : Int) : Nat := if q ≤ e then m * 2 ^ (e - q).toNat else m / 2 ^ (q - e).toNat

/-- Add two finite values in the 128-bit register: aligned to the larger, bits below the least significant
truncated toward zero. -/
def addTrunc : Num → Num → Num
  | .fin n m e, .fin k p f =>
    if m = 0 then .fin k p f
    else if p = 0 then .fin n m e
    else
      let top := max ((Nat.log2 m : Int) + e) ((Nat.log2 p : Int) + f)
      let q := top - 127
      let a : Int := truncTo m e q
      let b : Int := truncTo p f q
      let s := (if n then -a else a) + (if k then -b else b)
      let t := s.natAbs
      if t < 2 ^ 128 then .fin (decide (s < 0)) t q else .fin (decide (s < 0)) (t / 2) (q + 1)
  | v, _ => v

/-- Add one product to an FP64 chain. -/
def Reg64.add (c : Reg64) (p : Num) : Reg64 :=
  match p with
  | .nan => { c with nan := true, any := true, allNeg0 := false }
  | .inf n => { c with pinf := c.pinf || !n, ninf := c.ninf || n, any := true, allNeg0 := false }
  | .fin n m _ => { c with v := addTrunc c.v p, any := true, allNeg0 := c.allNeg0 && n && decide (m = 0) }

/-- The value of an FP64 chain before rounding. -/
def Reg64.value (c : Reg64) : Num :=
  if c.nan || (c.pinf && c.ninf) then .nan
  else if c.pinf then .inf false
  else if c.ninf then .inf true
  else match c.v with
    | .fin n m e => if m = 0 then .fin (c.any && c.allNeg0) 0 0 else .fin n m e
    | v => v

/-- The operands met by output element (m, n) at index k: streamed, then stationary (R80). -/
def operandsAt (ts : SMap Byte) (w : BitVec 512) (m n k : Nat) : Num × Num :=
  (if aByCol w then elemVal ts (opA w) k m else elemVal ts (opA w) m k,
   if sByCol w then elemVal ts (opS w) n k else elemVal ts (opS w) k n)

/-- The values of k of one visit. -/
def visitKs (w : BitVec 512) (v : Nat) : List Nat :=
  (List.range (min (kPerVisit w) (aK w - v * kPerVisit w))).map (· + v * kPerVisit w)

/-- Passes of an FP64 operation in PLAIN order: descending a + b, then ascending a (R121). -/
def passes64 : List (Nat × Nat) :=
  (List.range 15).reverse.flatMap fun t =>
    (List.range 8).filterMap fun a => if a ≤ t ∧ t - a < 8 then some (a, t - a) else none

/-- The segments that one visit delivers for an output element, unrounded, in pass order (R120 to R127). Of a pair
(a, b) of pieces, a is the streamed operand's; the products of a pass enter its chain by ascending k in every mode
(both DESIGN CHOICE, log entry 75: the order matters only to the truncation of R127). -/
def visitSegs (ts : SMap Byte) (w : BitVec 512) (m n v : Nat) : List Num :=
  let ops := (visitKs w v).map (operandsAt ts w m n)
  let order {α : Type} (l : List α) : List α := if transposed w then l.reverse else l
  match aWidth w with
  | 64 => (order passes64).map fun (a, b) =>
      (ops.foldl (fun c (x, y) => c.add ((piece64 x a).mul (piece64 y b))) ({} : Reg64)).value
  | 32 =>
    let ps := ops.map fun (x, y) => (pieces32 (aFmtA w) x, pieces32 (aFmtS w) y)
    (order [(true, true), (true, false), (false, true), (false, false)]).map fun (a, b) =>
      (ps.foldl (fun c (x, y) => c.add ((if a then x.1 else x.2).mul (if b then y.1 else y.2))) ({} : Chain)).value
  | _ => [(ops.foldl (fun c (x, y) => c.add (x.mul y)) ({} : Chain)).value]

/-- The visits of an item in the order they run (R95). -/
def itemVisits (w : BitVec 512) (i : Item) : List Nat :=
  let vs := (List.range (i.v1 - i.v0)).map (· + i.v0)
  if transposed w then vs.reverse else vs

/-- Segments of an output element in the order they are added (R95, R128). -/
def elemSegs (ts : SMap Byte) (w : BitVec 512) (i : Item) (m n : Nat) : List Num :=
  (itemVisits w i).flatMap (visitSegs ts w m n)

/-- The stationary tile of one visit (R75, R80). -/
def stationaryOf (ts : SMap Byte) (w : BitVec 512) (i : Item) (v : Nat) : Stationary :=
  let q := rectS w { i with v0 := v, v1 := v + 1 }
  { fmt := aFmtS w
    codes := (List.range (q.r1 - q.r0)).flatMap fun r => (List.range (q.c1 - q.c0)).map fun c =>
      elemCode ts (opS w) (q.r0 + r) (q.c0 + c) }

/-- The stationary registers after an item: at each of its visits the shadow registers are loaded and the two change
places (R75). When in the visit before a shadow register is loaded is left out (DESIGN CHOICE, log entry 77). -/
def loadStationary (ts : SMap Byte) (w : BitVec 512) (i : Item) (a : ArrayUnit) : ArrayUnit :=
  (itemVisits w i).foldl (fun a v => { a with active := some (stationaryOf ts w i v), shadow := a.active }) a

/-- Sum segments in FP32 (R128). -/
def sumFp32 : List Num → Word
  | [] => 0
  | x :: xs => xs.foldl (fun a v => fadd a (enc32 v)) (enc32 x)

/-- Sum segments in FP64. -/
def sumFp64 : List Num → DWord
  | [] => 0
  | x :: xs => xs.foldl (fun a v => dadd a (enc64 v)) (enc64 x)

/-- Sum segments as compensated pairs (R129). -/
def sumPair : List Num → Word × Word
  | [] => (0, 0)
  | x :: xs =>
    let (h, l) := xs.foldl (fun (a : Word × Word) v => let p := pairOf v; pairAdd a.1 a.2 p.1 p.2) (pairOf x)
    pairNorm h l

/-- The operation leaves FP64 results (R130). -/
def aIsFp64 (w : BitVec 512) : Bool := decide (aWidth w = 64)

/-- One element of a finished tile: its first and second words. For FP64 these are the low and high halves. -/
def elemOut (ts : SMap Byte) (w : BitVec 512) (i : Item) (m n : Nat) : Word × Word :=
  let segs := elemSegs ts w i m n
  if aIsFp64 w then let v := sumFp64 segs; (v.setWidth 32, (v >>> 32).setWidth 32)
  else if aPair w then sumPair segs
  else (sumFp32 segs, 0)

/-- An element of a finished tile is not finite (R101, R129, R130). -/
def outNonFinite (w : BitVec 512) (x : Word × Word) : Bool :=
  if aIsFp64 w then (dec64 (x.2 ++ x.1)).nonFinite else nonFinite32 x.1

/-- The finished tile of the j-th item (R101). -/
def tileOf (ts : SMap Byte) (c : Sid) (w : BitVec 512) (j id : Nat) (poison : Bool) : Tile :=
  let i := itemOf w (itemNo w j)
  let out := (List.range i.rows).flatMap fun m => (List.range i.cols).map fun n =>
    elemOut ts w i (256 * i.mb + m) (256 * i.nb + n)
  let two := aPair w || aIsFp64 w
  let last := decide (j + 1 = aItemCount w)
  { c := c, tag := aTag w
    flags := sidNat c + 4 * b2n two + 8 * b2n (decide (1 < aSplit w)) + 16 * b2n last +
      32 * b2n (decide (i.rows < 256 ∨ i.cols < 256)) + 64 * b2n poison
    kpart := if 1 < aSplit w then i.part else 0
    mb := i.mb, nb := i.nb, rows := i.rows, cols := i.cols
    nf := (out.filter (outNonFinite w)).length
    hi := out.map (·.1), lo := if two then out.map (·.2) else []
    last := last, id := id, fp64 := aIsFp64 w }

/-! ### Registers of the array -/

/-- CDnn_ARR_STAT shows the operation and its state. -/
def showArr (s : State) (d : Die) (w : BitVec 512) (c : Sid) : State :=
  setReg s (cdWin d.val + rArrStat)
    (w32 ((aTag w).toNat * 65536 + sidNat c * 16384 + aMode w * 4096 + b2n (aPair w) * 2048))

/-- An array error of die `d`. -/
def arrErr (s : State) (d : Die) (bit : Nat) (c : Sid) (tag : Half) : State :=
  rsEvent (setReg s (cdWin d.val + rArrErrInfo) (w32 (tag.toNat * 65536 + sidNat c * 16384))) (cdWin d.val + rArrErr) bit

def aeGang : Nat := 0
def aeFormat : Nat := 1
def aeOperand : Nat := 2
def aeParity : Nat := 3
def aeTag : Nat := 4
def aeRelease : Nat := 5

/-! ### ARRAY -/

/-- The format rules of R110 are broken. -/
def formatBad (w : BitVec 512) : Bool :=
  !fmtKnown (aFmtS w) || !fmtKnown (aFmtA w) || (aPair w && aIsFp64 w)

/-- The highest item lies at or beyond T × SPLIT (R184). -/
def itemsBad (w : BitVec 512) : Bool :=
  decide (aItemCount w ≠ 0) && decide (aT w * aSplit w ≤ itemNo w (aItemCount w - 1))

/-- An ARRAY descriptor at issue (R525 items 7 to 9, R183, R86): checked, and while the die's array stands at
an operation boundary its ready is asserted with its OP_TAG; the gang timer of the stream starts at the first
ready. -/
def runArray (d : Die) (c : Sid) (w : BitVec 512) (s : State) : State :=
  if formatBad w then curFault (arrErr s d aeFormat c (aTag w)) d c fUnit w
  else if itemsBad w then curFault s d c fField w
  else if !arrayRangeOk w then curFault s d c fRange w
  else if (die s d).arr.op.isSome ∨ 1 ≤ inUnit (str s d c) .array then waitUnit s d c false
  else
    let s := updArr s d fun a => { a with ready := a.ready.put c (some (aTag w)) }
    let s := updStr s d c fun x => { x with st := .waitGang }
    { s with gang := s.gang.put c (some ((s.gang.get c).getD s.clk)) }

/-- ARRAY. -/
def doArray (d : Die) (c : Sid) (s : State) : State := issueAs tArray (fun _ => true) (runArray d c) d c s

/-! ### Computing tiles while buffers are free (R103) -/

/-- Compute the next item of the operation on a die into a free accumulator buffer, reading the operands. -/
def computeItem (s : State) (d : Die) (o : ArrOp) : State :=
  let i := itemOf o.desc (itemNo o.desc o.next)
  let spans := itemSpans o.desc i
  let ue := (die s d).tsUe.any fun w => spans.any fun (a, n) => overlaps a n (8 * w) 8
  let ts := (die s d).ts
  let s := spans.foldl (fun s (a, n) => (tsRead s d a n 0).2) s
  let s := if ue then arrErr s d aeOperand o.c (aTag o.desc) else s
  let s := addReg64 s (cdWin d.val + rArrVisits) (i.v1 - i.v0)
  let t := tileOf ts o.c o.desc o.next o.id ue
  updArr s d fun a =>
    { loadStationary ts o.desc i a with
      acc := a.acc ++ [t], op := some { o with next := o.next + 1, poison := o.poison || ue } }

/-- A finished tile of the operation that the drain path has not taken. -/
def idleTile (a : ArrayUnit) (o : ArrOp) : Option Tile := a.acc.find? fun t => decide (t.c = o.c) && !tileFilling a t

/-- Run the operation of a die on while a buffer is free; it holds where none is. Where a reset of its stream waits for
the boundary, finished tiles that the reset will discard make room, so that the boundary comes (DESIGN CHOICE, log
entry 77). -/
def runItems : Nat → Die → State → State
  | 0, _, s => s
  | fuel + 1, d, s =>
    match (die s d).arr.op with
    | none => s
    | some o =>
      if o.ends ≤ o.next then s
      else if 2 ≤ (die s d).arr.acc.length then
        match if o.reset then idleTile (die s d).arr o else none with
        | some t => runItems fuel d (updArr s d fun a => { a with acc := a.acc.erase t })
        | none => updArr s d fun a => { a with hold := true }
      else runItems fuel d (computeItem (updArr s d fun a => { a with hold := false }) d o)

/-- Run the operation of a die on as far as its buffers let it. -/
def runOp (d : Die) (s : State) : State :=
  match (die s d).arr.op with
  | none => s
  | some o => runItems (2 * (o.ends - o.next) + 1) d s

/-! ### Election (R87 to R92) -/

/-- The priority order of ARM_PRIO. -/
def armOrder (s : State) : List Sid :=
  let w := reg s rArmPrio
  [sidOf (fld w 1 0), sidOf (fld w 3 2), sidOf (fld w 5 4)]

/-- Every die shows ready for a stream, at its boundary. -/
def allReady (s : State) (c : Sid) : Bool :=
  allDies.all fun d => ((die s d).arr.ready.get c).isSome && (die s d).arr.op.isNone

/-- Every CDn.CORE is in service (R92). -/
def gangWhole (s : State) : Bool := allDies.all fun d => !(die s d).out && !(die s d).coreReset

/-- The tags that dies show for a stream, with the dies. -/
def tagsOf (s : State) (c : Sid) : List (Die × Half) :=
  allDies.filterMap fun d => ((die s d).arr.ready.get c).map fun t => (d, t)

/-- The reference tag of R89: held by the most dies, the lowest among equals. -/
def refTag (ts : List (Die × Half)) : Half :=
  let n (t : Half) : Nat := (ts.filter fun x => decide (x.2 = t)).length
  match ts with
  | [] => 0
  | x :: xs => xs.foldl (fun b y =>
      if n b < n y.2 ∨ (n b = n y.2 ∧ y.2.toNat < b.toNat) then y.2 else b) x.2

/-- A mask of dies. -/
def dieMask (p : Die → Bool) : Nat := allDies.foldl (fun n d => n + if p d then 2 ^ d.val else 0) 0

/-- The chosen stream of one die takes its descriptor fault: as it stood when the gang failed, for the dies fault in
the same cycle and each records its own fault (R203). CDnn_ARR_ERR_INFO shows the reference tag on every die (DESIGN
CHOICE, log entry 75). -/
def gangFaultDie (s0 : State) (c : Sid) (tag : Half) (d : Die) (s : State) : State :=
  let x := str s0 d c
  let typ := match x.cur with | some w => dType w | none => 0
  let layer := match x.cur with | some w => dLayer w | none => 0xFFFF
  faultAs (arrErr s d aeGang c tag) d c x.prologue x.poison fUnit typ x.expect x.pc layer

/-- Record a gang error and fault the stream on every die (R89, R90). -/
def gangFault (s : State) (c : Sid) (bit mask : Nat) (tag : Half) : State :=
  let s := setReg s rArmErrCds (w32 mask)
  let s := setReg s rArmErrTag (w32 (sidNat c * 65536 + tag.toNat))
  let s := rsEvent s rArmErr bit
  let s := { s with gang := s.gang.put c none }
  forDies (gangFaultDie s c tag) s

/-- The grant on one die: the descriptor issues and the operation starts; with no items it completes at once
(R185, R193). -/
def startOp (c : Sid) (d : Die) (s : State) : State :=
  let x := str s d c
  match x.cur with
  | none => s
  | some w =>
    let e := entryOf x .array w
    let s := updArr s d fun a => { a with ready := a.ready.put c none }
    let s := showArr s d w c
    if aItemCount w = 0 then signals (issued s d c) (doneSig d c x w)
    else
      let s := startDesc s d c e
      let s := updArr s d fun a =>
        { a with op := some { c := c, desc := w, id := e.id, next := 0, ends := aItemCount w, poison := false } }
      runOp d s

/-- GANG_GRANT: election among the streams ready on all 24 dies, in priority order; equal tags are granted,
unequal ones fault the stream (R87, R89). -/
def doGangGrant (s : State) : State :=
  if !gangWhole s then s else
  match (armOrder s).find? (allReady s) with
  | none => s
  | some c =>
    let ts := tagsOf s c
    let t := refTag ts
    if ts.all fun x => decide (x.2 = t) then
      let s := { s with gang := s.gang.put c none }
      let s := addReg64 s rArmGrants 1
      let s := setReg s rArmStat (w32 (sidNat c * 2 ^ 29))
      forDies (startOp c) s
    else gangFault s c 0 (dieMask fun d => ts.any fun x => decide (x.1 = d) && decide (x.2 ≠ t)) t

/-- GANG_TIMEOUT: the gang timer of a stream expires before its grant (R90). When every die is ready the grant
wins. -/
def doGangTimeout (c : Sid) (s : State) : State :=
  let us := (reg s rArmTimeout).toNat
  match s.gang.get c with
  | none => s
  | some t0 =>
    if us = 0 ∨ allReady s c then s
    else
      let s := advanceTo (t0 + us * 1000) s
      gangFault s c 1 (dieMask fun d => ((die s d).arr.ready.get c).isNone) (refTag (tagsOf s c))

/-! ### Boundary and queue -/

/-- The tile is that of the operation's item at position `j`. -/
def isTileOf (o : ArrOp) (t : Tile) (j : Nat) : Bool :=
  let i := itemOf o.desc (itemNo o.desc j)
  decide (t.id = o.id ∧ t.c = o.c ∧ t.mb = i.mb ∧ t.nb = i.nb ∧ t.kpart = if 1 < aSplit o.desc then i.part else 0)

/-- Mark the tiles that the items at positions `js` of an operation contribute to POISON, where they are still on the
die. -/
def poisonTiles (o : ArrOp) (js : List Nat) (a : ArrayUnit) : ArrayUnit :=
  let p (t : Tile) : Tile := if js.any (isTileOf o t) && decide (t.flags / 64 % 2 = 0) then { t with flags := t.flags + 64 } else t
  { a with acc := a.acc.map p, queue := a.queue.map fun q => { q with tile := p q.tile } }

/-- The operation of a die ends at its boundary, where an error it met faults its stream (R106), and a reset that
waited takes effect (R91). -/
def endOp (d : Die) (o : ArrOp) (bad : Bool) (s : State) : State :=
  let s := updArr s d fun a => { a with op := none, hold := false }
  if bad then
    match findInflight (str s d o.c) .array o.id with
    | some e => unitFault s d o.c fUnit e
    | none => descFault s d o.c fUnit tArray 0 0 (dLayer o.desc)
  else if o.reset then
    updStr (resetNow s d o.c) d o.c fun x => { x with st := if x.poison then .poisonPath else x.st }
  else s

/-- ARRAY_BOUNDARY: a die whose visits have all run reaches its operation boundary; an operation that held runs on
first where a buffer has become free. `parity` names the items, by position, whose stationary registers failed
parity (R106). -/
def doArrayBoundary (d : Die) (parity : List Nat) (s : State) : State :=
  let s := runOp d s
  match (die s d).arr.op with
  | none => s
  | some o =>
    if o.next < o.ends then s
    else
      let s := if parity.isEmpty then s else
          arrErr (updArr s d (poisonTiles o parity)) d aeParity o.c (aTag o.desc)
      endOp d o (o.poison || !parity.isEmpty) s

/-- Slots of a stream's share (R100): the first slot and the number; the shares lie in the order F, B, U. -/
def shareOf (s : State) (d : Die) (c : Sid) : Nat × Nat :=
  let w := reg s (cdWin d.val + rTqShare)
  let f := fld w 7 0
  let b := fld w 15 8
  match c with
  | .f => (0, f)
  | .b => (f, b)
  | .u => (f + b, fld w 23 16)
  | .t => (0, 0)

/-- A slot is held by an entry of the queue. -/
def slotUsed (q : List TqEntry) (k : Nat) : Bool :=
  q.any fun e => decide (e.slot ≤ k) && decide (k < e.slot + tileSlots e.tile)

/-- The lowest free slot, or pair of consecutive slots, of the share that a tile may use. -/
def freeSlot (s : State) (d : Die) (t : Tile) : Option Nat :=
  let (b, n) := shareOf s d t.c
  let q := (die s d).arr.queue
  ((List.range n).map (· + b)).find? fun k =>
    (List.range (tileSlots t)).all fun i => decide (k + i < b + n) && !slotUsed q (k + i)

/-- TILE_DRAIN_START: the drain path takes the oldest finished tile whose stream's share has room (R103). -/
def doTileDrainStart (d : Die) (s : State) : State :=
  let a := (die s d).arr
  if a.draining then s
  else match a.acc.find? fun t => (freeSlot s d t).isSome with
    | none => s
    | some t =>
      match freeSlot s d t with
      | none => s
      | some k =>
        updArr s d fun a =>
          { a with draining := true, queue := a.queue ++ [{ st := .filling, seq := 0, slot := k, tile := t }] }

/-- The bytes of a slot: 256 rows of 256 words, +0 beyond the valid rows and columns (R101). -/
def slotBytes (t : Tile) (ws : List Word) : List Byte :=
  (List.range 256).flatMap fun r => (List.range 256).flatMap fun c =>
    if r < t.rows ∧ c < t.cols then leBytes 4 (ws.getD (r * t.cols + c) 0).toNat else [0, 0, 0, 0]

/-- The bytes of an FP64 tile over its two slots: 256 rows of 256 doublewords (R130). -/
def slotBytes64 (t : Tile) : List Byte :=
  (List.range 256).flatMap fun r => (List.range 256).flatMap fun c =>
    if r < t.rows ∧ c < t.cols then
      leBytes 4 (t.hi.getD (r * t.cols + c) 0).toNat ++ leBytes 4 (t.lo.getD (r * t.cols + c) 0).toNat
    else [0, 0, 0, 0, 0, 0, 0, 0]

/-- Bytes of a slot. -/
def slotSize : Nat := 262144

/-- The offset of a slot in the tile store. -/
def slotOff (s : State) (d : Die) (k : Nat) : Nat := (tqRegion s d).1 + k * slotSize

/-- What a tile's drain writes. -/
def tileBytes (t : Tile) : List Byte :=
  if t.fp64 then slotBytes64 t
  else if tileSlots t = 2 then slotBytes t t.hi ++ slotBytes t t.lo else slotBytes t t.hi

/-- TILE_PUSH: the drain in hand ends (R102, R105): the entry is pushed READY with the stream's next SEQ, or
freed where its stream was reset; the buffer is free and the array runs on; the last tile completes the ARRAY
descriptor. -/
def doTilePush (d : Die) (s : State) : State :=
  let a := (die s d).arr
  match a.queue.find? fun q => decide (q.st = .filling) with
  | none => s
  | some q =>
    let e := findInflight (str s d q.tile.c) .array q.tile.id
    let s := tsWrite s d (slotOff s d q.slot) (tileBytes q.tile) 0
    let seq := SMap.get 0 a.pushed (sidNat q.tile.c)
    let s := updArr s d fun a =>
      { a with draining := false, hold := false, acc := a.acc.erase q.tile
               queue := if q.drop then a.queue.erase q
                 else a.queue.map fun r => if r = q then { r with st := .ready, seq := seq } else r
               pushed := if q.drop then a.pushed else SMap.set 0 a.pushed (sidNat q.tile.c) ((seq + 1) % 2 ^ 32) }
    let s := runOp d s
    match e with
    | some e => if q.tile.last ∧ ¬ q.drop then completeDesc s d q.tile.c e else s
    | none => s

end Sys2Proof.Machine
end

