-- ==== Sys2Proof/Machine/VecCore.lean ====
section
/-! DEFINITION. Machine/VecCore.lean: the vector engine's contexts (05): instruction fields (R148), legality (R149),
faults (R167), active lanes (R146), the scalar and control instructions and the finished-tile instructions. -/
namespace Sys2Proof
open Sys2Proof.Machine

/-! ### Instruction fields (R148) -/

def VIns.mask (v : VIns) : Nat := fld v.w 55 53
def VIns.zero (v : VIns) : Bool := bitAt v.w 52
def VIns.rd (v : VIns) : Nat := fld v.w 51 47
def VIns.ra (v : VIns) : Nat := fld v.w 46 42
def VIns.rb (v : VIns) : Nat := fld v.w 41 37
def VIns.rc (v : VIns) : Nat := fld v.w 36 32
def VIns.imm (v : VIns) : Word := w32 (fld v.w 31 0)
def VIns.fmt (v : VIns) : Nat := fld v.w 31 28
def VIns.sat (v : VIns) : Bool := bitAt v.w 27
def VIns.space (v : VIns) : Nat := fld v.w 26 25
def VIns.sr (v : VIns) : Bool := bitAt v.w 24
def VIns.offset (v : VIns) : Int := sext 24 (fld v.w 23 0)
/-- Mask register numbers of a mask destination and of mask operations. -/
def VIns.md (v : VIns) : Nat := fld v.w 49 47
def VIns.ma (v : VIns) : Nat := fld v.w 44 42
def VIns.mb (v : VIns) : Nat := fld v.w 39 37

end Sys2Proof

namespace Sys2Proof.Machine
open Sys2Proof

/-! ### Context state -/

/-- Vector registers of a context (R139, R170). -/
def vecShare (s : State) (d : Die) (c : Sid) : Nat :=
  fld (reg s (cdWin d.val + rVecCfg)) (6 * sidNat c + 5) (6 * sidNat c)

/-- A scalar register; s0 reads 0. -/
def VCtx.sreg (x : VCtx) (r : Nat) : DWord := if r = 0 then 0 else SMap.get 0 x.sregs r
/-- Write a scalar register; s0 ignores writes. -/
def VCtx.setS (x : VCtx) (r : Nat) (v : DWord) : VCtx :=
  if r = 0 then x else { x with sregs := SMap.set 0 x.sregs r v }

/-- Lane `i` of a vector register. -/
def VCtx.lane (x : VCtx) (r i : Nat) : Word := SMap.get 0 x.vregs (2048 * r + i)
/-- Write lane `i` of a vector register. -/
def VCtx.setLane (x : VCtx) (r i : Nat) (w : Word) : VCtx := { x with vregs := SMap.set 0 x.vregs (2048 * r + i) w }

/-- Lane `i` of an FP64 pair (R155). -/
def VCtx.lane64 (x : VCtx) (r i : Nat) : DWord := x.lane (r + 1) i ++ x.lane r i

/-- Bit `i` of a mask register; m0 reads as all ones. -/
def VCtx.maskBit (x : VCtx) (k i : Nat) : Bool := if k = 0 then true else (x.masks.toArray.getD k 0).getLsbD i
/-- Write a mask register; m0 has none. -/
def VCtx.setMask (x : VCtx) (k : Nat) (m : BitVec 2048) : VCtx := { x with masks := x.masks.setIfInBounds k m }

/-- Lanes below VL whose mask bit is set (R146). -/
def VCtx.active (x : VCtx) (v : VIns) : List Nat := (List.range x.vl).filter fun i => x.maskBit v.mask i
/-- Lanes below VL whose mask bit is clear. -/
def VCtx.inactive (x : VCtx) (v : VIns) : List Nat := (List.range x.vl).filter fun i => !x.maskBit v.mask i

/-- Write one lane of the destination registers `rs`. -/
def VCtx.putLane (x : VCtx) (rs : List Nat) (i : Nat) (ws : List Word) : VCtx :=
  (rs.zip ws).foldl (fun y p => y.setLane p.1 i p.2) x

/-- Write +0 to the inactive lanes where ZERO is set (R146). -/
def VCtx.zeroInactive (x : VCtx) (v : VIns) (rs : List Nat) : VCtx :=
  if v.zero then (x.inactive v).foldl (fun y i => y.putLane rs i (rs.map fun _ => 0)) x else x

/-- Write the active lanes of the registers `rs` with what `f` gives, computed from the state before. -/
def VCtx.emit (x : VCtx) (v : VIns) (rs : List Nat) (f : Nat → List Word) : VCtx :=
  (x.active v).foldl (fun y i => y.putLane rs i (f i)) (x.zeroInactive v rs)

/-- Write the active bits of mask register `k`; inactive bits below VL keep their value, or clear with ZERO. -/
def VCtx.emitMask (x : VCtx) (v : VIns) (k : Nat) (f : Nat → Bool) : VCtx :=
  let m := x.masks.toArray.getD k 0
  x.setMask k <| (List.range x.vl).foldl (fun (m : BitVec 2048) i =>
    let b := if x.maskBit v.mask i then f i else if v.zero then false else m.getLsbD i
    putFld m i i (b2n b)) m

/-! ### Faults (R167, R170) -/

def veIllegal : Nat := 0
def veAlign : Nat := 1
def veRange : Nat := 2
def veProtect : Nat := 3
def veLoadUe : Nat := 4
def veMxMask : Nat := 5
def vePair : Nat := 6
def veLoop : Nat := 7
def vePc : Nat := 8

/-- CDnn_VEC_ERR_INFO and CDnn_VEC_ERR_ADDR of an error at the context's program counter. Of a fault with the program
counter beyond 32,767 the field PC holds it modulo 32,768, and OPCODE 0 (DESIGN CHOICE, log entry 75). -/
def vecInfo (s : State) (v : VIns) (op : Nat) (addr : Nat) : State :=
  let x := vctx s v.die v.ctx
  let s := setReg s (cdWin v.die.val + rVecErrInfo) (w32 (sidNat v.ctx * 2 ^ 30 + x.pc % 32768 * 2 ^ 15 + op * 2 ^ 7))
  setReg64 s (cdWin v.die.val + rVecErrAddr) (w64 addr)

/-- The program of a context ends in a descriptor fault on its stream. -/
def vecAbort (s : State) (v : VIns) : State :=
  let x := vctx s v.die v.ctx
  let s := updCtx s v.die v.ctx fun x => { x with running := false, faulted := true, waitTq := false }
  let s := updStr s v.die v.ctx fun y => { y with tqWait := false }
  match findInflight (str s v.die v.ctx) .vector x.id with
  | some e => unitFault s v.die v.ctx fUnit e
  | none => descFault s v.die v.ctx fUnit tVector 0 0 x.layer

/-- A vector fault. -/
def vecFault (s : State) (v : VIns) (bit op addr : Nat) : State :=
  vecAbort (rsEvent (vecInfo s v op addr) (cdWin v.die.val + rVecErr) bit) v

/-! ### Issue -/

/-- The context may issue an instruction: its program runs, and it does not wait in a TQPOP other than this. -/
def vecMay (s : State) (v : VIns) (op : Nat) : Bool :=
  let x := vctx s v.die v.ctx
  x.running && !(die s v.die).coreReset && (!x.waitTq || decide (op = 0x18))

/-- The opcodes of R150; every other one is reserved. -/
def opKnown (op : Nat) : Bool :=
  ([(0x00, 0x06), (0x08, 0x0F), (0x18, 0x1B), (0x20, 0x3E), (0x40, 0x53), (0x58, 0x5E), (0x60, 0x63), (0x68, 0x6B), (0x70, 0x72),
    (0x78, 0x7D), (0x80, 0x81), (0x84, 0x88), (0x90, 0x93), (0x98, 0x9D)] : List (Nat × Nat)).any fun r =>
    decide (r.1 ≤ op) && decide (op ≤ r.2)

/-- The next instruction of a context: the word of its die's program store at its program counter (R138). -/
def nextWord (s : State) (d : Die) (c : Sid) : DWord := SMap.get 0 (die s d).prog (vctx s d c).pc

/-- The instruction word of an opcode with the operand bits of `v` (R148). -/
def insWord (op : Nat) (v : VIns) : DWord := BitVec.ofNat 8 op ++ v.w

/-- Issue the next instruction of a context: the program counter, legality and pair checks in the order of R167,
then its work. A command whose word is not that instruction does nothing. A program counter beyond the store and a
reserved opcode, which no command names, fault at the next command for the context (DESIGN CHOICE, log entry 25).
The checks hold with VL = 0 too: R146 frees such an instruction of the faults of its lanes, not of ILLEGAL and PAIR
(DESIGN CHOICE, log entry 75). -/
def vecRun (op : Nat) (v : VIns) (ill pair : Bool) (run : State → State) (s : State) : State :=
  let x := vctx s v.die v.ctx
  let w := nextWord s v.die v.ctx
  if !(vecMay s v op) then s
  else if 32767 < x.pc then vecFault s v (if x.loops = [] then vePc else veLoop) 0 0
  else if !(opKnown (fld w 63 56)) then vecFault s v veIllegal (fld w 63 56) 0
  else if w ≠ insWord op v then s
  else if ill then vecFault s v veIllegal op 0
  else if pair then vecFault s v vePair op 0
  else run (if x.waitTq then s else addReg64 s (cdWin v.die.val + rVecInstr) 1)

/-- Change the context and move on to the next instruction. -/
def vecStep (s : State) (v : VIns) (f : VCtx → VCtx) : State :=
  updCtx s v.die v.ctx fun x => let y := f x; { y with pc := y.pc + 1 }

/-- Bits 36:32 of the SC layout are reserved. -/
def scIll (v : VIns) : Bool := decide (v.rc ≠ 0)

/-- Some register of the list lies beyond the context's share; of a pair, its second register too, unless its number is
odd: that is PAIR (R167). -/
def regsBad (s : State) (v : VIns) (rs : List (Nat × Nat)) : Bool :=
  rs.any fun r => decide (vecShare s v.die v.ctx < r.1 + (if r.1 % 2 = 1 then 1 else r.2))

/-- A mask destination: bits 51:50 zero and not m0. -/
def mdBad (v : VIns) : Bool := decide (v.md = 0) || decide (fld v.w 51 50 ≠ 0)

/-- A scalar instruction that writes sd. -/
def vecScalar (op : Nat) (v : VIns) (ill : Bool) (f : VCtx → DWord) : State → State :=
  vecRun op v (scIll v || ill) false fun s => vecStep s v fun x => x.setS v.rd (f x)

/-- IMM as a signed 64-bit integer. -/
def simm (v : VIns) : DWord := v.imm.signExtend 64

/-! ### Loops (R150) -/

/-- The OPCODE of an instruction of the program store. -/
def progOp (s : State) (d : Die) (k : Nat) : Nat := fld (SMap.get 0 (die s d).prog k) 63 56

/-- The ENDLOOP that matches a loop, among `n` instructions from `k`. -/
def matchEnd (s : State) (d : Die) : Nat → Nat → Nat → Option Nat
  | 0, _, _ => none
  | n + 1, k, depth =>
    match progOp s d k with
    | 0x02 => matchEnd s d n (k + 1) (depth + 1)
    | 0x03 => matchEnd s d n (k + 1) (depth + 1)
    | 0x04 => if depth = 0 then some k else matchEnd s d n (k + 1) (depth - 1)
    | _ => matchEnd s d n (k + 1) depth

/-- A loop of `n` iterations begins at the context's instruction; a count of 0 skips its body. -/
def vecLoop (op : Nat) (v : VIns) (n : VCtx → Nat) (s : State) : State :=
  let x := vctx s v.die v.ctx
  if 4 ≤ x.loops.length then vecFault s v veLoop op 0
  else if n x = 0 then
    match matchEnd s v.die (32768 - (x.pc + 1)) (x.pc + 1) 0 with
    | some k => updCtx s v.die v.ctx fun x => { x with pc := k + 1 }
    | none => vecFault s v veLoop op 0
  else vecStep s v fun x => { x with loops := { start := x.pc + 1, left := n x } :: x.loops }

/-- ENDLOOP. -/
def vecEndLoop (v : VIns) (s : State) : State :=
  let x := vctx s v.die v.ctx
  match x.loops with
  | [] => vecFault s v veLoop 0x04 0
  | f :: fs =>
    if f.left ≤ 1 then vecStep s v fun x => { x with loops := fs }
    else updCtx s v.die v.ctx fun x => { x with pc := f.start, loops := { f with left := f.left - 1 } :: fs }

/-- END (R162): the program completes; a load error met on the way is raised as the descriptor fault (R168). -/
def vecEnd (v : VIns) (s : State) : State :=
  let x := vctx s v.die v.ctx
  if x.loops ≠ [] then vecFault s v veLoop 0x01 0
  else if x.loadUe then vecAbort s v
  else
    let s := updCtx s v.die v.ctx fun x => { x with running := false, pc := x.pc + 1 }
    match findInflight (str s v.die v.ctx) .vector x.id with
    | some e => completeDesc s v.die v.ctx e
    | none => s

/-! ### The step guard (R164, R166) -/

/-- Report a non-zero count of non-finite values with cause 0 LOSS, 1 GRAD or 2 NORM. -/
def vecGuard (s : State) (v : VIns) (n cause : Nat) : State :=
  if n = 0 then s
  else guardReport s (str s v.die v.ctx).attempt cause (vctx s v.die v.ctx).layer (BitVec.ofNat 8 v.die.val)

/-! ### Finished tiles (R102, R104, R164, R165) -/

/-- The oldest entry of a stream in a state. -/
def oldest (a : ArrayUnit) (c : Sid) (st : TqSt) : Option TqEntry :=
  a.queue.find? fun q => decide (q.tile.c = c) && decide (q.st = st) && !q.drop

/-- TQPOP: take the oldest READY entry, or wait for one; another tag is a descriptor fault. -/
def vecPop (v : VIns) (s : State) : State :=
  match oldest (die s v.die).arr v.ctx .ready with
  | none =>
    let s := updCtx s v.die v.ctx fun x => { x with waitTq := true }
    updStr s v.die v.ctx fun x => { x with tqWait := true }
  | some q =>
    let want := v.imm.setWidth 16
    if q.tile.tag ≠ want then vecAbort (arrErr s v.die aeTag v.ctx want) v
    else
      let s := updArr s v.die fun a => { a with queue := a.queue.map fun r => if r = q then { r with st := .held } else r }
      let s := updStr s v.die v.ctx fun x => { x with tqWait := false }
      let s := vecGuard s v q.tile.nf (fld v.imm 17 16)
      vecStep s v fun x => { x.setS v.rd (w64 (slotOff s v.die q.slot)) with waitTq := false }

/-- TQREL: free the oldest HELD entry; none held is a descriptor fault. A release names no tag: CDnn_ARR_ERR_INFO shows
OP_TAG 0 (DESIGN CHOICE, log entry 75). -/
def vecRel (v : VIns) (s : State) : State :=
  match oldest (die s v.die).arr v.ctx .held with
  | none => vecAbort (arrErr s v.die aeRelease v.ctx 0) v
  | some q =>
    vecStep (updArr s v.die fun a => { a with queue := a.queue.erase q }) v id

end Sys2Proof.Machine
end

