-- ==== Sys2Proof/Machine/VecArith.lean ====
section
/-! DEFINITION. Machine/VecArith.lean: the arithmetic, logic, compare, mask, reduction and FP64 forms of the vector
engine (R150 to R157), each form once. -/
namespace Sys2Proof.Machine
open Sys2Proof

/-! ### Lane-wise forms -/

/-- vd[i] = f va[i] vb[i]. -/
def vecBin (op : Nat) (f : Word → Word → Word) (v : VIns) (s : State) : State :=
  vecRun op v (regsBad s v [(v.rd, 1), (v.ra, 1), (v.rb, 1)]) false (fun s =>
    vecStep s v fun x => x.emit v [v.rd] fun i => [f (x.lane v.ra i) (x.lane v.rb i)]) s

/-- vd[i] = f va[i] IMM. -/
def vecBinI (op : Nat) (f : Word → Word → Word) (v : VIns) (s : State) : State :=
  vecRun op v (regsBad s v [(v.rd, 1), (v.ra, 1)]) false (fun s =>
    vecStep s v fun x => x.emit v [v.rd] fun i => [f (x.lane v.ra i) v.imm]) s

/-- vd[i] = f va[i] vb[i] vc[i]. -/
def vecTri (op : Nat) (f : Word → Word → Word → Word) (v : VIns) (s : State) : State :=
  vecRun op v (regsBad s v [(v.rd, 1), (v.ra, 1), (v.rb, 1), (v.rc, 1)]) false (fun s =>
    vecStep s v fun x => x.emit v [v.rd] fun i => [f (x.lane v.ra i) (x.lane v.rb i) (x.lane v.rc i)]) s

/-- vd[i] = f va[i] IMM vc[i]. -/
def vecTriI (op : Nat) (f : Word → Word → Word → Word) (v : VIns) (s : State) : State :=
  vecRun op v (regsBad s v [(v.rd, 1), (v.ra, 1), (v.rc, 1)]) false (fun s =>
    vecStep s v fun x => x.emit v [v.rd] fun i => [f (x.lane v.ra i) v.imm (x.lane v.rc i)]) s

/-- vd[i] = f va[i]. -/
def vecUn (op : Nat) (f : Word → Word) (v : VIns) (s : State) : State :=
  vecRun op v (regsBad s v [(v.rd, 1), (v.ra, 1)]) false (fun s =>
    vecStep s v fun x => x.emit v [v.rd] fun i => [f (x.lane v.ra i)]) s

/-- A form that reads va whole: vd[i] = f x i. -/
def vecWhole (op : Nat) (f : VCtx → Nat → Word) (v : VIns) (s : State) : State :=
  vecRun op v (regsBad s v [(v.rd, 1), (v.ra, 1)]) false (fun s =>
    vecStep s v fun x => x.emit v [v.rd] fun i => [f x i]) s

/-- A form without a source register: vd[i] = f i. -/
def vecGen (op : Nat) (f : Nat → Word) (v : VIns) (s : State) : State :=
  vecRun op v (regsBad s v [(v.rd, 1)]) false (fun s =>
    vecStep s v fun x => x.emit v [v.rd] fun i => [f i]) s

/-- A compare of va with vb into a mask. -/
def vecCmp (op : Nat) (f : Word → Word → Bool) (v : VIns) (s : State) : State :=
  vecRun op v (mdBad v || regsBad s v [(v.ra, 1), (v.rb, 1)]) false (fun s =>
    vecStep s v fun x => x.emitMask v v.md fun i => f (x.lane v.ra i) (x.lane v.rb i)) s

/-- A compare of va with IMM into a mask. -/
def vecCmpI (op : Nat) (f : Word → Word → Bool) (v : VIns) (s : State) : State :=
  vecRun op v (mdBad v || regsBad s v [(v.ra, 1)]) false (fun s =>
    vecStep s v fun x => x.emitMask v v.md fun i => f (x.lane v.ra i) v.imm) s

/-- A mask operation. -/
def vecMask (op : Nat) (f : Bool → Bool → Bool) (v : VIns) (s : State) : State :=
  vecRun op v (mdBad v) false (fun s =>
    vecStep s v fun x => x.emitMask v v.md fun i => f (x.maskBit v.ma i) (x.maskBit v.mb i)) s

/-! ### Integer operations -/

/-- Shifts by bits 4:0 of the second operand. -/
def ishl (a b : Word) : Word := a <<< (b.toNat % 32)
def ishr (a b : Word) : Word := a >>> (b.toNat % 32)
def isra (a b : Word) : Word := a.sshiftRight (b.toNat % 32)
/-- Signed compares. -/
def ieq (a b : Word) : Bool := decide (a = b)
def ilt (a b : Word) : Bool := a.slt b

/-! ### Fused forms (R150, R151) -/

def ffms (a b c : Word) : Word := ffma a b (fneg c)
def ffnma (a b c : Word) : Word := ffma (fneg a) b c

/-! ### Conversions (R150, R154) -/

/-- Signed integer to FP32. -/
def cvtIF (a : Word) : Word := enc32 (ofInt a.toInt 0 false)

/-- FP32 to signed integer, to nearest even, saturating; a NaN becomes 0. -/
def cvtFI (a : Word) : Word × ConvCount :=
  match dec32 a with
  | .nan => (0, .nan)
  | .inf n => (if n then 0x80000000 else 0x7FFFFFFF, .sat)
  | .fin n m e =>
    let k := roundInt n m e
    if 2 ^ 31 ≤ k then (0x7FFFFFFF, .sat)
    else if k < -(2 ^ 31) then (0x80000000, .sat)
    else (w32 (unsign 32 k), .none)

/-- Round to a format and hold as FP32 (VRNDF). FP32 and FP64 hold every FP32 value. -/
def rndF (f : Nat) (sat : Bool) (a : Word) : Word × ConvCount :=
  if f ≤ 1 then (enc32 (dec32 a), .none)
  else let (c, k) := fmtEncode f sat (dec32 a); (enc32 (fmtDecode f c), k)

/-- Count conversions in CDnn_CONV_SAT and CDnn_CONV_NAN. -/
def convCount (s : State) (d : Die) (ks : List ConvCount) : State :=
  let s := addReg64 s (cdWin d.val + rConvSat) (ks.filter fun k => decide (k = .sat)).length
  addReg64 s (cdWin d.val + rConvNan) (ks.filter fun k => decide (k = .nan)).length

/-- A lane-wise conversion that counts. -/
def vecConv (op : Nat) (ill : Bool) (f : Word → Word × ConvCount) (v : VIns) (s : State) : State :=
  vecRun op v (ill || regsBad s v [(v.rd, 1), (v.ra, 1)]) false (fun s =>
    let x := vctx s v.die v.ctx
    let s := convCount s v.die ((x.active v).map fun i => (f (x.lane v.ra i)).2)
    vecStep s v fun x => x.emit v [v.rd] fun i => [(f (x.lane v.ra i)).1]) s

/-- A format that VRNDF may name: known and not MX. -/
def rndFmtBad (f : Nat) : Bool := decide (7 < f)

/-! ### The step guard (R166) -/

/-- VGUARD. -/
def vecVguard (v : VIns) (s : State) : State :=
  let cause := fld v.imm 1 0
  vecRun 0x1A v (decide (cause = 3) || regsBad s v [(v.ra, 1)]) false (fun s =>
    let x := vctx s v.die v.ctx
    let n := ((x.active v).filter fun i => nonFinite32 (x.lane v.ra i)).length
    vecStep (vecGuard s v n cause) v id) s

/-- The loss-scale exponent of the stream's step. -/
def lossExpOf (s : State) (d : Die) (c : Sid) : Int :=
  match attempt s (str s d c).attempt with
  | some a => a.lossExp
  | none => s.step.lossE

/-- a × 2^k, rounded once. -/
def scaleBy (k : Int) (a : Word) : Word :=
  match dec32 a with
  | .fin n m e => enc32 (.fin n m (e + k))
  | v => enc32 v

/-- VUNSC. -/
def vecVunsc (v : VIns) (s : State) : State := vecUn 0x1B (scaleBy (-(lossExpOf s v.die v.ctx))) v s

/-! ### Lane counting and moving (R150) -/

/-- Active lanes below `i`. -/
def VCtx.activeBelow (x : VCtx) (v : VIns) (i : Nat) : Nat := ((x.active v).filter fun j => decide (j < i)).length

/-- VSLIDE: lane i − IMM, +0 outside the lanes below VL. -/
def slideLane (v : VIns) (x : VCtx) (i : Nat) : Word :=
  let j : Int := (i : Int) - v.imm.toInt
  if 0 ≤ j ∧ j < x.vl then x.lane v.ra j.toNat else 0

/-- VRANK: active lanes below i whose value equals lane i's. -/
def rankLane (v : VIns) (x : VCtx) (i : Nat) : Word :=
  w32 ((x.active v).filter fun j => decide (j < i) && decide (x.lane v.ra j = x.lane v.ra i)).length

/-- VCPOP: element 0 takes the number of active lanes. -/
def vecCpop (v : VIns) (s : State) : State :=
  vecRun 0x70 v (regsBad s v [(v.rd, 1)]) false (fun s =>
    vecStep s v fun x => x.setLane v.rd 0 (w32 (x.active v).length)) s

/-- VIOTA: every lane below VL takes the number of active lanes below it. -/
def vecIota (v : VIns) (s : State) : State :=
  vecRun 0x71 v (regsBad s v [(v.rd, 1)]) false (fun s =>
    vecStep s v fun x => (List.range x.vl).foldl (fun y i => y.setLane v.rd i (w32 (x.activeBelow v i))) x) s

/-! ### Reductions (R156) -/

/-- One level of the fixed tree. -/
def treeLevel {α : Type} (f : α → α → α) : List (Option α) → List (Option α)
  | [] => []
  | [a] => [a]
  | a :: b :: rest =>
    (match a, b with
      | some x, some y => some (f x y)
      | some x, none => some x
      | none, y => y) :: treeLevel f rest

/-- The root of the tree over at most 2,048 leaves. -/
def treeRoot {α : Type} (f : α → α → α) : Nat → List (Option α) → Option α
  | _, [] => none
  | 0, a :: _ => a
  | n + 1, l => treeRoot f n (treeLevel f l)

/-- The leaves of a reduction: lanes below VL, none where inactive. -/
def leaves {α : Type} (x : VCtx) (v : VIns) (f : Word → α) : List (Option α) :=
  (List.range x.vl).map fun i => if x.maskBit v.mask i then some (f (x.lane v.ra i)) else none

/-- What a sum with NaN or infinite lanes gives; none where all are finite. -/
def sumSpecial (ws : List Word) : Option Word :=
  let p := ws.any fun w => decide (w = 0x7F800000)
  let n := ws.any fun w => decide (w = 0xFF800000)
  if ws.any isNan || (p && n) then some nan32
  else if p then some 0x7F800000
  else if n then some 0xFF800000
  else none

/-- The FP32 tree sum. -/
def treeSum (x : VCtx) (v : VIns) : Word :=
  let ls := leaves x v id
  match sumSpecial (ls.filterMap id) with
  | some w => w
  | none => (treeRoot fadd 11 ls).getD 0

/-- A tree sum of compensated pairs, normalised at the root. -/
def treePair (x : VCtx) (v : VIns) (f : Word → Word × Word) : Word × Word :=
  let ls := leaves x v f
  match sumSpecial (ls.filterMap (·.map (·.1))) with
  | some w => (w, 0)
  | none =>
    match treeRoot (fun (a b : Word × Word) => pairAdd a.1 a.2 b.1 b.2) 11 ls with
    | some p => pairNorm p.1 p.2
    | none => (0, 0)

/-- A reduction that writes element 0, and element 1 where the second word is given. -/
def vecRed (op : Nat) (f : VCtx → Word × Option Word) (v : VIns) (s : State) : State :=
  vecRun op v (regsBad s v [(v.rd, 1), (v.ra, 1)]) false (fun s =>
    vecStep s v fun x =>
      let y := x.setLane v.rd 0 (f x).1
      match (f x).2 with
      | some w => y.setLane v.rd 1 w
      | none => y) s

/-- The largest or smallest active lane, starting from `z`. -/
def redMax (v : VIns) (x : VCtx) : Word := ((x.active v).map (x.lane v.ra)).foldl fmax 0xFF800000
def redMin (v : VIns) (x : VCtx) : Word := ((x.active v).map (x.lane v.ra)).foldl fmin 0x7F800000

/-- The lowest active lane that holds the largest value; a NaN lane wins. -/
def redMaxIdx (v : VIns) (x : VCtx) : Word :=
  let m := redMax v x
  match (x.active v).find? fun i => if isNan m then isNan (x.lane v.ra i) else decide (x.lane v.ra i = m) with
  | some i => w32 i
  | none => 0xFFFFFFFF

/-! ### Pairs and FP64 (R155) -/

/-- Some register number of the list is odd. -/
def oddReg (rs : List Nat) : Bool := rs.any fun r => decide (r % 2 = 1)

/-- The two words of an FP64 value, low word first. -/
def words64 (x : DWord) : List Word := [x.setWidth 32, (x >>> 32).setWidth 32]

/-- VPADD. -/
def vecPadd (v : VIns) (s : State) : State :=
  vecRun 0x80 v (regsBad s v [(v.rd, 2), (v.ra, 2), (v.rb, 2)]) (oddReg [v.rd, v.ra, v.rb]) (fun s =>
    vecStep s v fun x => x.emit v [v.rd, v.rd + 1] fun i =>
      let p := pairAdd (x.lane v.ra i) (x.lane (v.ra + 1) i) (x.lane v.rb i) (x.lane (v.rb + 1) i)
      [p.1, p.2]) s

/-- VPNORM. -/
def vecPnorm (v : VIns) (s : State) : State :=
  vecRun 0x81 v (regsBad s v [(v.rd, 2), (v.ra, 2)]) (oddReg [v.rd, v.ra]) (fun s =>
    vecStep s v fun x => x.emit v [v.rd, v.rd + 1] fun i =>
      let p := pairNorm (x.lane v.ra i) (x.lane (v.ra + 1) i)
      [p.1, p.2]) s

/-- A two-operand FP64 form. -/
def vecD2 (op : Nat) (f : DWord → DWord → DWord) (v : VIns) (s : State) : State :=
  vecRun op v (regsBad s v [(v.rd, 2), (v.ra, 2), (v.rb, 2)]) (oddReg [v.rd, v.ra, v.rb]) (fun s =>
    vecStep s v fun x => x.emit v [v.rd, v.rd + 1] fun i => words64 (f (x.lane64 v.ra i) (x.lane64 v.rb i))) s

/-- The FP64 fused multiply-add. -/
def vecDfma (v : VIns) (s : State) : State :=
  vecRun 0x86 v (regsBad s v [(v.rd, 2), (v.ra, 2), (v.rb, 2), (v.rc, 2)]) (oddReg [v.rd, v.ra, v.rb, v.rc]) (fun s =>
    vecStep s v fun x => x.emit v [v.rd, v.rd + 1] fun i =>
      words64 (dfma (x.lane64 v.ra i) (x.lane64 v.rb i) (x.lane64 v.rc i))) s

/-- VCVTDF. -/
def vecCvtDF (v : VIns) (s : State) : State :=
  vecRun 0x87 v (decide (v.fmt ≠ 0) || regsBad s v [(v.rd, 1), (v.ra, 2)]) (oddReg [v.rd, v.ra]) (fun s =>
    let x := vctx s v.die v.ctx
    let s := convCount s v.die ((x.active v).map fun i => if (d2f v.sat (x.lane64 v.ra i)).2 then .sat else .none)
    vecStep s v fun x => x.emit v [v.rd] fun i => [w32 (d2f v.sat (x.lane64 v.ra i)).1]) s

/-- VCVTFD. -/
def vecCvtFD (v : VIns) (s : State) : State :=
  vecRun 0x88 v (regsBad s v [(v.rd, 2), (v.ra, 1)]) (oddReg [v.rd, v.ra]) (fun s =>
    vecStep s v fun x => x.emit v [v.rd, v.rd + 1] fun i => words64 (f2d (x.lane v.ra i))) s

/-! ### Transcendentals (R157) -/

/-- The bits after the point in which the exact functions are computed; every value below is right to 2^-100 of itself. -/
def fixBits : Nat := 160

/-- A finite value in units of 2^-fixBits, rounded toward zero. -/
def toFix (m : Nat) (e : Int) : Nat :=
  let k := e + fixBits
  if 0 ≤ k then m * 2 ^ k.toNat else m / 2 ^ (-k).toNat

/-- Horner's rule for the sum of t^k / k! up to `n`, from the innermost term. -/
def expSum (t : Nat) : Nat → Nat → Nat
  | 0, acc => acc
  | n + 1, acc => expSum t n (2 ^ fixBits + t * acc / 2 ^ fixBits / (n + 1))

/-- The sum of z^(2k+1) / (2k+1) from term `k` on: half the logarithm of (1 + z) / (1 - z). -/
def atanhSum (z2 : Nat) : Nat → Nat → Nat → Nat
  | 0, _, _ => 0
  | n + 1, k, p => p / (2 * k + 1) + atanhSum z2 n (k + 1) (p * z2 / 2 ^ fixBits)

/-- The natural logarithm of a / b, where b ≤ a ≤ 2b. -/
def lnFix (a b : Nat) : Nat :=
  let z := (a - b) * 2 ^ fixBits / (a + b)
  2 * atanhSum (z * z / 2 ^ fixBits) 60 0 z

/-- ln 2. -/
def ln2Fix : Nat := lnFix 2 1

/-- 2^f for a fraction f in units of 2^-fixBits. -/
def exp2Frac (f : Nat) : Nat := expSum (f * ln2Fix / 2 ^ fixBits) 45 (2 ^ fixBits)

/-- 2^x for x = (-1)^n × m × 2^e: its integer part as the exponent. -/
def exp2Num (n : Bool) (m : Nat) (e : Int) : Int × Num :=
  let x := toFix m e
  let k := x / 2 ^ fixBits
  let f := x % 2 ^ fixBits
  if !n then (k, .fin false (exp2Frac f) ((k : Int) - fixBits))
  else if f = 0 then (-(k : Int), .fin false 1 (-(k : Int)))
  else (-(k : Int) - 1, .fin false (exp2Frac (2 ^ fixBits - f)) (-(k : Int) - 1 - fixBits))

/-- log2 x for x = m × 2^e. -/
def log2Num (m : Nat) (e : Int) : Num :=
  let k := Nat.log2 m
  let l := lnFix m (2 ^ k) * 2 ^ fixBits / ln2Fix
  ofInt (((k : Int) + e) * (2 ^ fixBits : Nat) + l) (-(fixBits : Int)) false

/-- tanh x for x = m × 2^e of magnitude below 16: (2^y - 1) / (2^y + 1) with y = 2x / ln 2. -/
def tanhNum (n : Bool) (m : Nat) (e : Int) : Num :=
  let y := 2 * toFix m e * 2 ^ fixBits / ln2Fix
  let p := exp2Frac (y % 2 ^ fixBits) * 2 ^ (y / 2 ^ fixBits)
  .fin n ((p - 2 ^ fixBits) * 2 ^ fixBits / (p + 2 ^ fixBits)) (-(fixBits : Int))

/-- |r - v| ≤ t for finite values. -/
def numWithin : Num → Num → Num → Bool
  | .fin a m e, .fin b k f, .fin _ t g =>
    let q := min e (min f g)
    decide ((atExp a m e q - atExp b k f q).natAbs ≤ t * 2 ^ (g - q).toNat)
  | _, _, _ => false

/-- One ulp of FP32 at a value whose magnitude lies in [2^t, 2^(t+1)), as an exponent. -/
def ulp32 (t : Int) : Int := max (t - 23) (-149)

/-- The word `pick` if it lies within `tol` of the exact value `v`, else the nearest word: a free value within the bound. -/
def withinBound (pick : Word) (v tol : Num) : Word := if numWithin (dec32 pick) v tol then pick else enc32 v

/-- The larger of two finite tolerances m × 2^e. -/
def tolMax (m : Nat) (e : Int) (k : Nat) (f : Int) : Num :=
  if decide (m * 2 ^ (e - min e f).toNat ≤ k * 2 ^ (f - min e f).toNat) then .fin false k f else .fin false m e

/-- VEXP2: 2 ulp, or 2^-149 below 2^-126. -/
def fexp2 (a : Word) : Word :=
  if isNan a then nan32
  else if fle 0x43000000 a then 0x7F800000
  else if flt a 0xC3160000 then 0
  else match dec32 a with
    | .fin n m e =>
      let (t, v) := exp2Num n m e
      withinBound (Config.exp2Word a) v (if t < -126 then .fin false 1 (-149) else .fin false 2 (ulp32 t))
    | _ => nan32

/-- VLOG2: 2 ulp or 2^-24, whichever is larger. -/
def flog2 (a : Word) : Word :=
  if isNan a then nan32
  else if feq a 0 then 0xFF800000
  else if flt a 0 then nan32
  else if a = 0x7F800000 then a
  else match dec32 a with
    | .fin _ m e =>
      let v := log2Num m e
      withinBound (Config.log2Word a) v (tolMax 1 (-24) 2 (ulp32 ((v.top).getD (-149))))
    | _ => nan32

/-- VTANH: 2 ulp; exact below 2^-12, ±1 from 9.1 on. -/
def ftanh (a : Word) : Word :=
  if isNan a then nan32
  else if flt (fabs a) 0x39800000 then a
  else if fle 0x4111999A (fabs a) then (a &&& 0x80000000) ||| 0x3F800000
  else match dec32 a with
    | .fin n m e =>
      let v := tanhNum n m e
      withinBound (Config.tanhWord a) v (.fin false 2 (ulp32 ((v.top).getD (-149))))
    | _ => nan32

/-- 2^a × x ≤ 2^b × y for naturals. -/
def scaledLe (x : Nat) (a : Int) (y : Nat) (b : Int) : Bool :=
  let q := min a b
  decide (x * 2 ^ (a - q).toNat ≤ y * 2 ^ (b - q).toNat)

/-- A finite magnitude y is within 1 ulp of 1/x for x = m × 2^e: |y × x − 1| ≤ ulp × x, the ulp taken at 1/x. -/
def rcpWithin (m : Nat) (e : Int) (c : Nat) : Bool :=
  match fFP32.decode c with
  | .fin _ k q =>
    -- 1/x lies in [2^t, 2^(t+1))
    let t : Int := -(e + (Nat.log2 m : Int)) - (if m = 2 ^ Nat.log2 m then 0 else 1)
    let u : Int := max (t - 23) (-149)
    let b := min (q + e) (min (u + e) 0)
    let yx := (k * m) * 2 ^ (q + e - b).toNat
    let one := 2 ^ (0 - b).toNat
    let tol := m * 2 ^ (u + e - b).toNat
    decide (yx ≤ one + tol) && decide (one ≤ yx + tol)
  | _ => false

/-- VRCP: one of the results within 1 ulp. -/
def frcp (a : Word) : Word :=
  match dec32 a with
  | .nan => nan32
  | .inf n => if n then 0x80000000 else 0
  | .fin n m e =>
    if m = 0 then (if n then 0xFF800000 else 0x7F800000)
    else
      let c := (enc32 ((Num.fin false 1 0).div (.fin false m e))).toNat
      let cs := c :: ([c - 1, c + 1].filter fun k => decide (k < 0x7F800000) && decide (c < 0x7F800000) && rcpWithin m e k)
      w32 (fFP32.sign n (cs.getD (Config.rcpPick a % cs.length) c))

/-- A finite magnitude y is within 1 ulp of 1/√x: (y − u)² x ≤ 1 ≤ (y + u)² x. -/
def rsqrtWithin (m : Nat) (e : Int) (c : Nat) : Bool :=
  match fFP32.decode c with
  | .fin _ k q =>
    -- the largest t with 2^(2t) × x ≤ 1, so that 1/√x lies in [2^t, 2^(t+1))
    let top : Int := e + (Nat.log2 m : Int)
    let t0 : Int := (-top) / 2
    let t : Int := if scaledLe m (e + 2 * t0) 1 0 then t0 else t0 - 1
    let u : Int := t - 23
    let b := min q u
    let y : Nat := k * 2 ^ (q - b).toNat
    let w : Nat := 2 ^ (u - b).toNat
    (scaledLe ((y - w) * (y - w) * m) (2 * b + e) 1 0) && (scaledLe 1 0 ((y + w) * (y + w) * m) (2 * b + e))
  | _ => false

/-- VRSQRT: one of the results within 1 ulp. -/
def frsqrt (a : Word) : Word :=
  match dec32 a with
  | .nan => nan32
  | .inf n => if n then nan32 else 0
  | .fin n m e =>
    if m = 0 then (if n then 0xFF800000 else 0x7F800000)
    else if n then nan32
    else
      let c := (enc32 ((Num.fin false 1 0).div (Num.fin false m e).sqrt)).toNat
      let cs := [c, c - 1, c + 1].filter (rsqrtWithin m e)
      w32 (cs.getD (Config.rsqrtPick a % (max 1 cs.length)) c)

end Sys2Proof.Machine
end

