-- ==== Sys2Proof/Machine/VecMem.lean ====
section
/-! DEFINITION. Machine/VecMem.lean: the memory instructions of the vector engine (R158 to R163, R168), with the
stochastic rounding of R276 and R277. -/
namespace Sys2Proof.Machine
open Sys2Proof

/-! ### Stochastic rounding (R276, R277) -/

/-- The counter-based generator: 16 random bits from the seed, step, LAYER, purpose and element index. -/
def srBits (seed : DWord) (n layer p e : Nat) : Nat :=
  let x : DWord := seed ^^^ (w64 (n * 0x9E3779B97F4A7C15)) ^^^ (w64 layer <<< 48) ^^^ (w64 p <<< 46) ^^^ w64 e
  let x := (x ^^^ (x >>> 30)) * 0xBF58476D1CE4E5B9
  let x := (x ^^^ (x >>> 27)) * 0x94D049BB133111EB
  let x := x ^^^ (x >>> 31)
  fld x 63 48

/-- The largest finite magnitude code of a stochastic-rounding target. -/
def srMax (f : Nat) : Nat := if f = 4 then 0x7E else (fmtFp f).infCode - 1

/-- Convert an FP32 word with random bits `r`. -/
def srEncode (f r : Nat) (a : Word) : Nat × ConvCount :=
  let g := fmtFp f
  match dec32 a with
  | .nan => (if f = 4 then 0x7F else g.infCode + 2 ^ (g.mb - 1), .none)
  | .inf n => (g.sign n (srMax f), .sat)
  | .fin n m e =>
    -- the code just below |x|: truncate instead of rounding
    let top : Int := (Nat.log2 m : Int) + e
    let q := max (top - g.mb) g.qmin
    let lo := (if m = 0 then 0 else truncTo m e q + (q - g.qmin).toNat * 2 ^ g.mb)
    let exact : Bool := decide (m = 0) || decide (q ≤ e) || decide (m % 2 ^ (q - e).toNat = 0)
    if srMax f < lo ∨ (lo = srMax f ∧ ¬ exact) then (g.sign n (srMax f), .sat)
    else if exact then (g.sign n lo, .none)
    else
      -- neighbours are one unit of 2^q apart
      let frac := (m % 2 ^ (q - e).toNat) * 65536 / 2 ^ (q - e).toNat
      (g.sign n (if 65536 ≤ r + frac then lo + 1 else lo), .none)

/-- The element index that R277 gives an address of a working copy: the descriptor of the stream's LAYER whose
working copy of that format holds it. -/
def srElem (s : State) (layer : Half) (f a : Nat) : Option Nat :=
  let sz := fmtBits f / 8
  (s.img.layers.find? fun l =>
    decide (lLayer l = layer.toNat) && decide (lWcFmt l = f) && decide (lWc l ≤ a) && decide (a < lWc l + sz * lElems l)).map
    fun l => lElemBase l + (a - lWc l) / sz

/-- The random bits of a store of the U stream: those of R277 with purpose 0, or free bits where the address lies
in no working copy of the LAYER. -/
def srDraw (s : State) (v : VIns) (a : Nat) : Nat × State :=
  let x := str s v.die v.ctx
  let seed := match params s with | some p => p.srSeed | none => 0
  match (if v.space = 1 then srElem s (vctx s v.die v.ctx).layer v.fmt a else none) with
  | some e => (srBits seed x.step.toNat (vctx s v.die v.ctx).layer.toNat 0 e, s)
  | none => let (k, s) := drawFree s; ((Config.freeWord k).toNat % 65536, s)

/-! ### Legality (R149, R153, R159) -/

/-- Formats of 8 bits and wider, without a block scale. -/
def plainFmt (f : Nat) : Bool := decide (f ≤ 6)
/-- Formats that stochastic rounding may write (R266). -/
def srFmt (f : Nat) : Bool := decide (2 ≤ f) && decide (f ≤ 5)

/-- Registers of the data operand: two for FP64. -/
def dataWidth (f : Nat) : Nat := if f = 0 then 2 else 1

/-- A memory instruction is illegal: `okFmt` says which formats it takes, `mayRound` whether SR is permitted,
`idx` whether it names an index register. -/
def memIll (s : State) (v : VIns) (okFmt : Nat → Bool) (mayRound idx : Bool) : Bool :=
  !(fmtKnown v.fmt) || decide (v.space = 3) || !(okFmt v.fmt) ||
  (v.sr && !(mayRound && decide (v.ctx = .u) && srFmt v.fmt)) ||
  regsBad s v ((v.rd, dataWidth v.fmt) :: (if idx then [(v.ra, 1)] else []))

/-! ### Addresses (R159) -/

/-- A: base scalar register plus OFFSET, modulo 2^64. -/
def memBase (x : VCtx) (v : VIns) : DWord := x.sreg v.rb + BitVec.ofInt 64 v.offset

def addrUnit (x : VCtx) (v : VIns) (i : Nat) : DWord := memBase x v + w64 (colByte v.fmt i)
def addrStride (x : VCtx) (v : VIns) (i : Nat) : DWord := memBase x v + w64 i * x.sreg v.rc
def addrIndex (x : VCtx) (v : VIns) (i : Nat) : DWord := memBase x v + w64 ((x.lane v.ra i).toNat * 2 ^ v.rc)
/-- A row-indexed form: the row of lane selector `j`. -/
def addrRow (x : VCtx) (v : VIns) (j i : Nat) : DWord := memBase x v + w64 (x.lane v.ra j).toNat + w64 (4 * i)

/-- MX_MASK (R160): VL or the base address is no whole number of blocks of 32 elements, or some block is partly active. An
instruction with no active lane raises nothing (R147). -/
def mxBad (x : VCtx) (v : VIns) : Bool :=
  isMx v.fmt && !(x.active v).isEmpty &&
  (decide (x.vl % 32 ≠ 0) || decide ((memBase x v).toNat % (4 * fmtBits v.fmt) ≠ 0) ||
   (List.range 64).any fun b =>
    let n := ((List.range 32).filter fun k => decide (32 * b + k < x.vl) && x.maskBit v.mask (32 * b + k)).length
    decide (n ≠ 0 ∧ n ≠ 32))

/-- An FP64 load or store names an odd register: PAIR (R152, R155). -/
def dataOdd (v : VIns) : Bool := decide (v.fmt = 0) && oddReg [v.rd]

/-- Active lane `i` at address `a` faults: the bit, for a load or a store (`st`). A packed element of 4 bits starts on a
whole byte anywhere, and one of 6 bits on a whole group where its base lies on a whole block. -/
def laneFault (s : State) (v : VIns) (st : Bool) (a : DWord) : Option Nat :=
  let len := colSpan v.fmt
  let p := placeOf v.die v.space a.toNat
  if 8 ≤ fmtBits v.fmt ∧ a.toNat % len ≠ 0 then some veAlign
  else if !placeOk s p len then some veRange
  else if st && isProtected s p len then some veProtect
  else none

/-- The port a place is reached by, as CDnn_TS_ERR_INFO names it. -/
def vecPort (v : VIns) : Nat := if v.space = 0 then 1 else 3

/-! ### Loads (R152, R168) -/

/-- What a load has met so far: values by lane, whether a lane met an error, and the first fault. -/
structure LoadAcc where
  s : State
  got : List (Nat × List Word)
  ue : Bool
  fault : Option (Nat × Nat)

/-- The words of a lane from its bytes. -/
def laneWords (f : Nat) (i : Nat) (bs : List Byte) (scale : Option Nat) : List Word :=
  match f with
  | 0 => words64 (w64 (leNat bs))
  | f =>
    let c := match fmtBits f with
      | 6 => leNat bs / 2 ^ (6 * (i % 4)) % 64
      | 4 => leNat bs / 2 ^ (4 * (i % 2)) % 16
      | _ => leNat bs
    [loadElem f c scale]

/-- The canonical NaN of a lane in error. -/
def laneNan (f : Nat) : List Word := if f = 0 then words64 0x7FF8000000000000 else [nan32]

/-- The scale byte of the block of lane `i`, or the fault of its address. -/
def loadScale (s : State) (v : VIns) (i : Nat) : (Option Nat × Nat) ⊕ (MemRead × State) :=
  let a := (vctx s v.die v.ctx).sreg v.rc + w64 (i / 32)
  let p := placeOf v.die v.space a.toNat
  if placeOk s p 1 then .inr (readPlace s p 1 (vecPort v)) else .inl (some veRange, a.toNat)

/-- Load one lane. -/
def loadLane (v : VIns) (addr : Nat → DWord) (acc : LoadAcc) (i : Nat) : LoadAcc :=
  if acc.fault.isSome then acc else
  let a := addr i
  match laneFault acc.s v false a with
  | some b => { acc with fault := some (b, a.toNat) }
  | none =>
    let (r, s) := readPlace acc.s (placeOf v.die v.space a.toNat) (colSpan v.fmt) (vecPort v)
    if isMx v.fmt then
      match loadScale s v i with
      | .inl (_, a) => { acc with s := s, fault := some (veRange, a) }
      | .inr (x, s) =>
        let bad := r.bad || x.bad
        { s := s, ue := acc.ue || bad, fault := none
          got := acc.got ++ [(i, if bad then laneNan v.fmt else laneWords v.fmt i r.data (some (leNat x.data)))] }
    else
      { s := s, ue := acc.ue || r.bad, fault := none
        got := acc.got ++ [(i, if r.bad then laneNan v.fmt else laneWords v.fmt i r.data none)] }

/-- Record an uncorrectable error on a load (R168): LOAD_UE now, the descriptor fault at END. -/
def noteLoadUe (s : State) (v : VIns) (op : Nat) : State :=
  let s := if (vctx s v.die v.ctx).loadUe then s else vecInfo s v op 0
  let s := rsEvent s (cdWin v.die.val + rVecErr) veLoadUe
  updCtx s v.die v.ctx fun x => { x with loadUe := true }

/-- Finish a memory instruction: an error on the way is noted, the lanes got are written, then the next
instruction or the fault. -/
def endLoad (op : Nat) (v : VIns) (idx row : Bool) (acc : LoadAcc) : State :=
  let rs := if v.fmt = 0 then [v.rd, v.rd + 1] else [v.rd]
  let s := if idx then addReg64 acc.s (cdWin v.die.val + rVecIdxElem) acc.got.length else acc.s
  let s := if acc.ue then noteLoadUe s v op else s
  let put (x : VCtx) : VCtx := acc.got.foldl (fun y g => y.putLane rs g.1 g.2) (if row then x else x.zeroInactive v rs)
  match acc.fault with
  | some (b, a) => vecFault (updCtx s v.die v.ctx put) v b op a
  | none => vecStep s v put

/-- Load the lanes `ls` by `addr`. -/
def runLoad (op : Nat) (v : VIns) (idx row : Bool) (ls : List Nat) (addr : Nat → DWord) (s : State) : State :=
  endLoad op v idx row (ls.foldl (loadLane v addr) ⟨s, [], false, none⟩)

/-- A masked load with addresses `addr`. -/
def vecLoad (op : Nat) (okFmt : Nat → Bool) (idx : Bool) (addr : VCtx → VIns → Nat → DWord) (v : VIns) (s : State) : State :=
  vecRun op v (memIll s v okFmt false idx) (dataOdd v) (fun s =>
    let x := vctx s v.die v.ctx
    if mxBad x v then vecFault s v veMxMask op 0
    else runLoad op v idx false (x.active v) (addr x v) s) s

/-- The lane selector of a row-indexed form: its value, a fault, or the gate closed. A selector at or above 2,048 forms no
address: CDnn_VEC_ERR_ADDR shows 0 (DESIGN CHOICE, log entry 75). -/
def vecRow (op : Nat) (v : VIns) (run : VCtx → Nat → State → State) (s : State) : State :=
  vecRun op v (memIll s v (fun f => decide (f = 1)) false true) false (fun s =>
    let x := vctx s v.die v.ctx
    let j := (x.sreg v.rc).toNat
    if 2048 ≤ j then vecFault s v veRange op 0
    else if x.maskBit v.mask j then run x j s
    else vecStep s v id) s

/-! ### Stores (R153, R160, R161) -/

/-- What a store has met so far. `run` holds bytes of module memory not yet written: a unit-stride or row-indexed store
writes them in accesses within one interleave unit (R242). -/
structure StoreAcc where
  s : State
  moved : Nat
  ue : Bool
  cnt : List ConvCount
  fault : Option (Nat × Nat)
  run : Option (Nat × List Byte) := none

/-- The bytes at a place, whatever errors they hold. -/
def peekPlace (s : State) (p : Place) (len : Nat) : List Byte :=
  match p with
  | .ts d o => (List.range len).map fun i => SMap.get 0 (die s d).ts (o + i)
  | .hbm a => memBytes s.mem a len
  | .bad => []

/-- Put an element code into the bytes that hold it; the other elements keep their bits. -/
def mergeElem (f i c : Nat) (old : List Byte) : List Byte :=
  let w := fmtBits f
  let sh := if w = 6 then 6 * (i % 4) else if w = 4 then 4 * (i % 2) else 0
  let n := leNat old
  leBytes old.length (n - n / 2 ^ sh % 2 ^ w * 2 ^ sh + c % 2 ^ w * 2 ^ sh)

/-- Write the bytes that wait. -/
def flushRun (v : VIns) (acc : StoreAcc) : StoreAcc :=
  match acc.run with
  | none => acc
  | some (b, bs) =>
    let (no, s) := writePlace acc.s (.hbm b) bs (vecPort v)
    { acc with s := s, ue := acc.ue || no, run := none }

/-- Add bytes at module address `a` to those that wait, or write these first where `a` does not go on from them within their
interleave unit. `f` makes the new bytes from the ones there. -/
def addRun (v : VIns) (acc : StoreAcc) (a n : Nat) (f : List Byte → List Byte) : StoreAcc :=
  match acc.run with
  | some (b, bs) =>
    if b ≤ a ∧ a ≤ b + bs.length ∧ a / 2048 = b / 2048 then
      let old := (bs ++ (memBytes acc.s.mem (b + bs.length) n)).drop (a - b) |>.take n
      { acc with run := some (b, bs.take (a - b) ++ f old) }
    else
      let acc := flushRun v acc
      { acc with run := some (a, f (memBytes acc.s.mem a n)) }
  | none => { acc with run := some (a, f (memBytes acc.s.mem a n)) }

/-- Store code `c` of lane `i` at address `a`; `run` says that the lanes of the store follow one another in memory. -/
def putCode (run : Bool) (v : VIns) (acc : StoreAcc) (i : Nat) (a : DWord) (c : Nat) : StoreAcc :=
  let p := placeOf v.die v.space a.toNat
  let n := colSpan v.fmt
  match run, p with
  | true, .hbm b => addRun v { acc with moved := acc.moved + 1 } b n (mergeElem v.fmt i c)
  | _, p =>
    let (no, s) := writePlace acc.s p (mergeElem v.fmt i c (peekPlace acc.s p n)) (vecPort v)
    { acc with s := s, moved := acc.moved + 1, ue := acc.ue || no }

/-- Store one lane in a format without a block scale. -/
def storeLane (run : Bool) (x : VCtx) (v : VIns) (addr : Nat → DWord) (acc : StoreAcc) (i : Nat) : StoreAcc :=
  if acc.fault.isSome then acc else
  let a := addr i
  match laneFault acc.s v true a with
  | some b => { acc with fault := some (b, a.toNat) }
  | none =>
    if v.fmt = 0 then putCode run v acc i a (x.lane64 v.rd i).toNat
    else if v.fmt = 1 then putCode run v acc i a (x.lane v.rd i).toNat
    else if v.sr then
      let (r, s) := srDraw acc.s v a.toNat
      let (c, k) := srEncode v.fmt r (x.lane v.rd i)
      putCode run v { acc with s := s, cnt := acc.cnt ++ [k] } i a c
    else
      let (c, k) := fmtEncode v.fmt v.sat (dec32 (x.lane v.rd i))
      putCode run v { acc with cnt := acc.cnt ++ [k] } i a c

/-- Store one block of 32 lanes in an MX format: the scale byte, then the elements. -/
def storeBlock (x : VCtx) (v : VIns) (addr : Nat → DWord) (acc : StoreAcc) (b : Nat) : StoreAcc :=
  if acc.fault.isSome then acc else
  let ls := (List.range 32).map (· + 32 * b)
  let (sc, cs) := mxEncode v.fmt (ls.map fun i => dec32 (x.lane v.rd i))
  let sa := x.sreg v.rc + w64 b
  let sp := placeOf v.die v.space sa.toNat
  if !placeOk acc.s sp 1 then { acc with fault := some (veRange, sa.toNat) }
  else if isProtected acc.s sp 1 then { acc with fault := some (veProtect, sa.toNat) }
  else
    let (no, s) := writePlace acc.s sp (leBytes 1 sc) (vecPort v)
    (ls.zip cs).foldl (fun acc p =>
      if acc.fault.isSome then acc
      else match laneFault acc.s v true (addr p.1) with
        | some b => { acc with fault := some (b, (addr p.1).toNat) }
        | none => putCode true v acc p.1 (addr p.1) p.2) { acc with s := s, ue := acc.ue || no }

/-- Finish a store. A write refused by a stack in EMERGENCY is noted as an error of R168. -/
def endStore (op : Nat) (v : VIns) (idx : Bool) (acc : StoreAcc) : State :=
  let acc := flushRun v acc
  let s := convCount acc.s v.die acc.cnt
  let s := if idx then addReg64 s (cdWin v.die.val + rVecIdxElem) acc.moved else s
  let s := if acc.ue then noteLoadUe s v op else s
  match acc.fault with
  | some (b, a) => vecFault s v b op a
  | none => vecStep s v id

/-- The lanes of VST and VSTRI follow one another in memory. -/
def inRun (op : Nat) : Bool := decide (op = 0x98) || decide (op = 0x9B)

/-- Store the lanes `ls` by `addr`, lowest first, so that the highest lane wins an element. -/
def runStore (op : Nat) (v : VIns) (idx : Bool) (ls : List Nat) (addr : Nat → DWord) (s : State) : State :=
  let x := vctx s v.die v.ctx
  if isMx v.fmt then
    let bs := (List.range 64).filter fun b => decide (32 * b ∈ ls)
    endStore op v idx (bs.foldl (storeBlock x v addr) ⟨s, 0, false, [], none, none⟩)
  else endStore op v idx (ls.foldl (storeLane (inRun op) x v addr) ⟨s, 0, false, [], none, none⟩)

/-- A masked store with addresses `addr`. -/
def vecStore (op : Nat) (okFmt : Nat → Bool) (idx : Bool) (addr : VCtx → VIns → Nat → DWord) (v : VIns) (s : State) : State :=
  vecRun op v (memIll s v okFmt true idx) (dataOdd v) (fun s =>
    let x := vctx s v.die v.ctx
    if mxBad x v then vecFault s v veMxMask op 0
    else runStore op v idx (x.active v) (addr x v) s) s

/-! ### Adds into memory (R161, R168) -/

/-- Add one lane into memory: the old value is the canonical NaN where its read meets an error. -/
def addLane (x : VCtx) (v : VIns) (addr : Nat → DWord) (acc : StoreAcc) (i : Nat) : StoreAcc :=
  if acc.fault.isSome then acc else
  let a := addr i
  match laneFault acc.s v true a with
  | some b => { acc with fault := some (b, a.toNat) }
  | none =>
    let p := placeOf v.die v.space a.toNat
    let (r, s) := readPlace acc.s p 4 (vecPort v)
    let old := if r.bad then nan32 else w32 (leNat r.data)
    let (no, s) := writePlace s p (leBytes 4 (fadd old (x.lane v.rd i)).toNat) (vecPort v)
    { acc with s := s, moved := acc.moved + 1, ue := acc.ue || r.bad || no }

/-- Add the lanes `ls` into memory, ascending. -/
def runAdd (op : Nat) (v : VIns) (idx : Bool) (ls : List Nat) (addr : Nat → DWord) (s : State) : State :=
  let x := vctx s v.die v.ctx
  endStore op v idx (ls.foldl (addLane x v addr) ⟨s, 0, false, [], none, none⟩)

/-- The element scatter-add. -/
def vecScatterAdd (v : VIns) (s : State) : State :=
  vecRun 0x9C v (memIll s v (fun f => decide (f = 1)) false true) false (fun s =>
    let x := vctx s v.die v.ctx
    runAdd 0x9C v true (x.active v) (addrIndex x v) s) s

end Sys2Proof.Machine
end

