-- ==== Sys2Proof/Machine/Update.lean ====
section
/-! DEFINITION. Machine/Update.lean: the parameter update (09): pass 1 and the norms, the schedule engine, pass 2 with its
three rules, the ratio monitor, the update journal and the commit. -/
namespace Sys2Proof.Machine
open Sys2Proof

/-! ### Words in bytes -/

/-- FP32 words of a byte string. -/
def wordsOf : List Byte → List Word
  | a :: b :: c :: d :: bs => w32 (leNat [a, b, c, d]) :: wordsOf bs
  | _ => []

/-- BF16 values of a byte string, held as FP32. -/
def halvesOf : List Byte → List Word
  | a :: b :: bs => w32 (leNat [a, b] * 65536) :: halvesOf bs
  | _ => []

/-- The bytes of FP32 words. -/
def bytesOf (ws : List Word) : List Byte := ws.flatMap fun w => leBytes 4 w.toNat

/-- Read `len` bytes for the update: none where the read meets an error or an unmapped byte. -/
def updRead (s : State) (a len : Nat) : Option (List Byte) × State :=
  match memRead s a len with
  | some (r, s) => (if r.bad then none else some r.data, s)
  | none => (none, s)

/-- Write for the update: true where the write was refused or a byte is unmapped. -/
def updWrite (s : State) (a : Nat) (bs : List Byte) : Bool × State :=
  match memWrite s a bs with
  | some r => r
  | none => (true, s)

/-! ### Descriptors, chunks and the journal (R265, R270, R287) -/

/-- Elements of a chunk, and of an outer-step tile. -/
def chunkElems : Nat := 65536

/-- The image the update works under. -/
def updImg (s : State) : ImageState :=
  match s.upd.replay with
  | some i => i
  | none => s.img

/-- Its scalar settings. -/
def updParams (s : State) : Option JobParams := (updImg s).sec.map (·.params)

/-- Its layer descriptors, and their number. -/
def ldescs (s : State) : List (BitVec 1024) := (updImg s).layers
def ldesc (s : State) (i : Nat) : BitVec 1024 := (ldescs s).getD i 0
def ndesc (s : State) : Nat := (ldescs s).length

/-- The descriptors of a LAYER, in list order. -/
def descsOf (s : State) (layer : Nat) : List Nat :=
  (List.range (ndesc s)).filter fun i => decide (lLayer (ldesc s i) = layer)

/-- The LAYERs of the list, ascending. -/
def layerNos (s : State) : List Nat := (ldescs s).foldl (fun ls l => if lLayer l ∈ ls then ls else ls ++ [lLayer l]) []

/-- Chunks of a descriptor. -/
def nChunks (l : BitVec 1024) : Nat := ceilDiv (lElems l) chunkElems
/-- Elements of chunk `k`. -/
def chunkLen (l : BitVec 1024) (k : Nat) : Nat := min chunkElems (lElems l - chunkElems * k)

/-- The die that owns the stack a chunk's master lies in (R270). -/
def chunkDie (s : State) (l : BitVec 1024) (k : Nat) : Die :=
  match mapAddr s.mem (lW l + 4 * chunkElems * k) with
  | some (n, _) => n
  | none => 0

/-- The key of a chunk in the update unit's tables. -/
def chunkKey (i k : Nat) : Nat := 2 ^ 32 * i + k

/-- The journal's address; its row of descriptor `i` and the progress entry of a descriptor and die. -/
def journalAt (s : State) : Nat := match (updImg s).sec with | some sec => sec.journal | none => 0
def rowAt (s : State) (i : Nat) : Nat := journalAt s + 64 + 32 * i
def progAt (s : State) (i : Nat) (d : Die) : Nat := journalAt s + 64 + 32 * ndesc s + 8 * (24 * i + d.val)

/-- Write the journal; a write that is refused or finds no memory is noted (R263). -/
def jput (s : State) (a : Nat) (bs : List Byte) : State :=
  match memWrite s a bs with
  | some (false, s) => s
  | some (true, s) => { s with upd := { s.upd with jerr := true } }
  | none => { s with upd := { s.upd with jerr := true } }

/-- An operation's error flag, with that of the journal writes made on the way, which is cleared. -/
def withJerr (r : Bool × State) : Bool × State :=
  (r.1 || r.2.upd.jerr, { r.2 with upd := { r.2.upd with jerr := false } })

/-- The update unit reads its journal: true where it meets an error (R250). -/
def readJournal (s : State) : Bool × State :=
  match updRead s (journalAt s) (64 + 224 * ndesc s) with
  | (some _, s) => (false, s)
  | (none, s) => (true, s)

/-- PHASE of a descriptor's journal row: 0 OPEN, 1 DONE, 2 SENT, 3 REDUCED, 4 APPLIED, 5 GATHERED. -/
def phaseOf (s : State) (i : Nat) : Nat := peekNat s (rowAt s i + 0x14) 1
def setPhase (s : State) (i ph : Nat) : State := jput s (rowAt s i + 0x14) (leBytes 1 ph)

/-- A chunk's inner update has been written (R287). -/
def chunkDone (s : State) (i k : Nat) : Bool :=
  decide (k < peekNat s (progAt s i (chunkDie s (ldesc s i) k)) 4)

/-- Every chunk of a descriptor has been written. -/
def chunksDone (s : State) (i : Nat) : Bool := (List.range (nChunks (ldesc s i))).all (chunkDone s i)

/-- A copy of the layer for a snapshot of an earlier step than the pass in progress has not completed: pass 2 of the
layer waits (R70). -/
def maqFence (s : State) (layer : Nat) : Bool :=
  match s.upd.p2 with
  | none => false
  | some q =>
    s.maq.toCopy.any (fun x => decide (x.2 = layer ∧ x.1 ≠ q.step)) ||
    s.maq.slots.any fun x => match x.2 with
      | some m => decide (m.layer = layer ∧ m.step ≠ q.step) && !m.copied
      | none => false

/-! ### Pass 1 (R268) -/

/-- A list cut into runs of `n`; `fuel` above the number of runs is never used up. -/
def chop {α : Type} (n : Nat) : Nat → List α → List (List α)
  | 0, _ => []
  | fuel + 1, xs => if xs.isEmpty then [] else xs.take n :: chop n fuel (xs.drop n)

/-- The VRSSQP pair of at most 2,048 lanes; none marks a lane that takes no part. -/
def ssqGroup (ws : List (Option Word)) : Word × Word :=
  let ls := ws.map fun w => w.map fun w => pairOf ((dec32 w).mul (dec32 w))
  match sumSpecial (ls.filterMap (·.map (·.1))) with
  | some w => (w, 0)
  | none =>
    match treeRoot (fun (a b : Word × Word) => pairAdd a.1 a.2 b.1 b.2) 11 ls with
    | some p => pairNorm p.1 p.2
    | none => (0, 0)

/-- Pairs added in order by the later-segment step of R129. -/
def addPairs : List (Word × Word) → Word × Word
  | [] => (0, 0)
  | p :: ps => ps.foldl (fun a b => pairAdd a.1 a.2 b.1 b.2) p

/-- The pair of a list of values, in groups of 2,048 lanes. -/
def ssqChunk (ws : List (Option Word)) : Word × Word := addPairs ((chop 2048 (ws.length + 1) ws).map ssqGroup)

/-- Chunk pairs of descriptor `i` combined in ascending chunk order, normalised once and rounded to FP32. -/
def combined (m : SMap (Word × Word)) (i n : Nat) : Word :=
  let p := addPairs ((List.range n).map fun k => SMap.get (0, 0) m (chunkKey i k))
  let q := pairNorm p.1 p.2
  fadd q.1 q.2

/-- R: the replicas in the B-axis reduction of an attempt, from the schedules in use: 2 for each B-axis peer of its rounds, one
for each dimension of the recursive halving of R355 (DEDUCED, log entry 79). -/
def replicasOf (s : State) (att : DWord) : Nat := 2 ^ (s.upd.redPeers.filter fun x => decide (x.1 = att)).length

/-- GRAD_MUL (R268). -/
def gradMul (s : State) (att : DWord) : Word := fdiv 0x3F800000 (nat2f (replicasOf s att))

/-- The gradient of a chunk, held as FP32; zeros where the descriptor computes none. -/
def readGrad (s : State) (l : BitVec 1024) (k : Nat) : Option (List Word) × State :=
  if lGradCompute l then
    match updRead s (lG l + 2 * chunkElems * k) (2 * chunkLen l k) with
    | (some bs, s) => (some (halvesOf bs), s)
    | (none, s) => (none, s)
  else (some (List.replicate (chunkLen l k) 0), s)

/-- An FP32 plane of a chunk. -/
def readPlane (s : State) (a : Nat) (l : BitVec 1024) (k : Nat) : Option (List Word) × State :=
  match updRead s (a + 4 * chunkElems * k) (4 * chunkLen l k) with
  | (some bs, s) => (some (wordsOf bs), s)
  | (none, s) => (none, s)

/-- Pass 1 of one chunk: true when a read met an error. -/
def pass1Chunk (gm : Word) (i : Nat) (acc : Bool × State) (k : Nat) : Bool × State :=
  let (bad, s) := acc
  let l := ldesc s i
  match readPlane s (lW l) l k with
  | (none, s) => (true, s)
  | (some ws, s) =>
    let s := { s with upd := { s.upd with wPairs := SMap.set (0, 0) s.upd.wPairs (chunkKey i k) (ssqChunk (ws.map some)) } }
    match readGrad s l k with
    | (none, s) => (true, s)
    | (some gs, s) =>
      let v := if lGradCompute l then ssqChunk (gs.map fun g => some (fmul gm g)) else (0, 0)
      (bad, { s with upd := { s.upd with gPairs := SMap.set (0, 0) s.upd.gPairs (chunkKey i k) v } })

/-- The chunks of descriptor `i` that die `d` owns. -/
def ownChunks (s : State) (d : Die) (i : Nat) : List Nat :=
  (List.range (nChunks (ldesc s i))).filter fun k => decide (chunkDie s (ldesc s i) k = d)

/-- Pass 1 of a LAYER on one die. -/
def pass1 (d : Die) (layer : Nat) (s : State) : Bool × State :=
  let gm := gradMul s (str s d .u).attempt
  (descsOf s layer).foldl (fun acc i => (ownChunks acc.2 d i).foldl (pass1Chunk gm i) acc) (false, s)

/-! ### Norms at the guard point (R269) -/

/-- FP64 square root. -/
def dsqrt (a : DWord) : DWord := enc64 (dec64 a).sqrt
def dneg (a : DWord) : DWord := a ^^^ 0x8000000000000000
def dsub (a b : DWord) : DWord := dadd a (dneg b)
/-- An FP64 value rounded to FP32. -/
def toF (a : DWord) : Word := w32 (d2f false a).1
/-- Comparison of FP64 values that are not NaN. -/
def dlt (a b : DWord) : Bool :=
  match dec64 (dsub a b) with
  | .fin n m _ => n && decide (m ≠ 0)
  | .inf n => n
  | .nan => false
def dIsNan (a : DWord) : Bool := decide (dec64 a = .nan)
def dIsZero (a : DWord) : Bool := decide (a <<< 1 = 0)

/-- The module's own FP32 sum of gsq for a LAYER, in list order from +0. -/
def ownSum (s : State) (layer : Nat) : Word :=
  ((descsOf s layer).filter fun i => lNormIn (ldesc s i)).foldl
    (fun a i => fadd a (combined s.upd.gPairs i (nChunks (ldesc s i)))) 0

/-- The per-LAYER vector, in ascending LAYER order. -/
def ownSums (s : State) : List Word := (layerNos s).map (ownSum s)

/-- CLIP from CLIP_NORM and G in FP64. -/
def clipOf (clipNorm : Word) (g : DWord) : Word :=
  if clipNorm <<< 1 = 0 ∨ dIsZero g then 0x3F800000
  else
    let q := ddiv (f2d clipNorm) g
    if dlt 0x3FF0000000000000 q then 0x3F800000 else toF q

/-- The norms of an attempt are formed from the sums S_L: G, CLIP and GRAD_MUL are shown, G is kept for the step
record, and a value that is not finite is the NORM cause. The cause of a G that is not finite names no layer and no die:
0xFFFF and 0xFF (DESIGN CHOICE, log entry 75). -/
def formNorms (s : State) (att : DWord) (sl : List Word) : State :=
  match updParams s with
  | none => s
  | some p =>
    let g := dsqrt (sl.foldl (fun a w => dadd a (f2d w)) 0)
    let gw := toF g
    let s := setReg s rUpdGnorm gw
    let s := setReg s rUpdClip (clipOf p.clipNorm g)
    let s := setReg s rUpdGradMul (gradMul s att)
    let s := updAttempt s att fun a => { a with gnorm := gw, normed := true }
    match (layerNos s).zip sl |>.find? fun x => nonFinite32 (toF (dsqrt (f2d x.2))) with
    | some (l, _) => guardReport s att gNorm (BitVec.ofNat 16 l) 0xFF
    | none => if nonFinite32 gw then guardReport s att gNorm 0xFFFF 0xFF else s

/-- The norms of an attempt are formed from the module's own sums when no reduction has formed them. -/
def ensureNorms (s : State) (att : DWord) : State :=
  match attempt s att with
  | some a => if a.normed then s else formNorms s att (ownSums s)
  | none => s

/-! ### The schedule engine (R278) -/

/-- The free FP64 value `pick` if it lies within `tol` of the exact value `v`, else `std`. -/
def withinD (pick : DWord) (v tol : Num) (std : DWord) : DWord := if numWithin (dec64 pick) v tol then pick else std

/-- x to the power k in FP64: a free value no further from the exact power than k - 1 multiplications in FP64 can end, k × 2^-53
of it; exact for exponents 0 and 1 (DEDUCED, log entry 79). -/
def dpow (x : DWord) (k : Nat) : DWord :=
  if k = 0 then 0x3FF0000000000000
  else if k = 1 then x
  else
    let std := loopN (k - 1) (fun _ a => dmul a x) x
    match dec64 x with
    | .fin n m e =>
      withinD (Config.powFP64 x (nat2d k)) (.fin (n && decide (k % 2 = 1)) (m ^ k) (e * k)) (.fin false (m ^ k * k) (e * k - 53)) std
    | _ => std

/-- The arc tangent of 1/q: terms 1/((2k+1) q^(2k+1)) with alternating signs, `p` being 1/q^(2k+1). -/
def atanInv (q : Nat) : Nat → Nat → Nat → Int
  | 0, _, _ => 0
  | n + 1, k, p => (p / (2 * k + 1) : Nat) - atanInv q n (k + 1) (p / (q * q))

/-- Pi in units of 2^-fixBits, by Machin's formula. -/
def piFix : Nat := (4 * (4 * atanInv 5 40 0 (2 ^ fixBits / 5) - atanInv 239 15 0 (2 ^ fixBits / 239))).toNat

/-- Horner's rule for the cosine of x from its square, from the innermost of `n` terms. -/
def cosSum (x2 : Nat) : Nat → Nat → Nat
  | 0, acc => acc
  | n + 1, acc => cosSum x2 n (2 ^ fixBits - x2 * acc / 2 ^ fixBits / ((2 * n + 1) * (2 * n + 2)))

/-- cos(pi × f) for a fraction f up to 1/2, in units of 2^-fixBits. -/
def cosPiFrac (f : Nat) : Nat := let x := f * piFix / 2 ^ fixBits; cosSum (x * x / 2 ^ fixBits) 30 (2 ^ fixBits)

/-- cos(pi × u) for u from 0 to 1: a free value within 2^-50 of the exact one; exact at 0, 1/2 and 1 (DEDUCED, log entry
79). -/
def dcosPi (u : DWord) : DWord :=
  if dIsZero u then 0x3FF0000000000000
  else if u = 0x3FE0000000000000 then 0
  else if u = 0x3FF0000000000000 then 0xBFF0000000000000
  else match dec64 u with
    | .fin _ m e =>
      let f := toFix m e
      let one := 2 ^ fixBits
      let v : Num := if 2 * f ≤ one then .fin false (cosPiFrac f) (-(fixBits : Int)) else .fin true (cosPiFrac (one - f)) (-(fixBits : Int))
      withinD (Config.cosPi u) v (.fin false 1 (-50)) (enc64 v)
    | _ => 0

/-- The learning rate of step n, in FP64, rounded once to FP32. -/
def learnRate (p : JobParams) (n : Nat) : Word :=
  let t0 := n - 1
  let k := if p.period = 0 then 0 else t0 / p.period
  let t := if p.period = 0 then t0 else t0 % p.period
  let peak := dmul (f2d p.lrPeak) (dpow (f2d p.restartMul) k)
  let start := f2d p.lrStart
  let low := f2d p.lrEnd
  let one : DWord := 0x3FF0000000000000
  if t < p.warm then
    toF (dadd start (ddiv (dmul (dsub peak start) (nat2d (t + 1))) (nat2d p.warm)))
  else
    let x := t - p.warm
    let u := if p.decay ≤ x then one else ddiv (nat2d x) (nat2d p.decay)
    match p.shape.val with
    | 0 => toF peak
    | 1 => toF (dadd low (dmul (dsub peak low) (dsub one u)))
    | 2 => toF (dadd low (ddiv (dmul (dsub peak low) (dadd one (dcosPi u))) 0x4000000000000000))
    | _ =>
      let v := dmul peak (dsqrt (ddiv (nat2d p.decay) (nat2d (x + p.decay))))
      toF (if dlt v low then low else v)

/-! ### The verdict is clear: pass 2 begins (R273, R288 item 1) -/

/-- A bias correction 1 - beta^t. -/
def biasCorr (beta : Word) (t : Nat) : Word := toF (dsub 0x3FF0000000000000 (dpow (f2d beta) t))

/-- A row of the journal at the verdict. A frozen descriptor's row keeps its count and stands at DONE. -/
def rowBytes (s : State) (i : Nat) : List Byte :=
  let l := ldesc s i
  let t := peekNat s (lCountAddr l) 8 + b2n (!lFrozen l)
  let corr := decide (lRule l = 0) && !lFrozen l
  leBytes 8 t ++ leBytes 4 (if corr then (biasCorr (lBeta1 l) t).toNat else 0) ++
  leBytes 4 (if corr then (biasCorr (lBeta2 l) t).toNat else 0) ++ leBytes 4 0 ++ leBytes 1 (b2n (lFrozen l)) ++ leBytes 11 0

/-- The step entry (R287). -/
def entryBytes (s : State) (p : JobParams) (q : Pass2) (reps st flags : Nat) : List Byte :=
  leBytes 8 q.step.toNat ++ leBytes 8 q.att.toNat ++ leBytes 1 st ++ leBytes 1 flags ++ leBytes 2 p.sites ++
  leBytes 4 q.lr.toNat ++ leBytes 4 (reg s rUpdGnorm).toNat ++ leBytes 4 (reg s rUpdClip).toNat ++
  leBytes 4 (reg s rUpdGradMul).toNat ++ leBytes 2 reps ++ leBytes 26 0

/-- Every `h`-th step, never when h is 0. -/
def everyNth (n h : Nat) : Bool := decide (h ≠ 0 ∧ n % h = 0)

/-- FLAGS of the step entry. -/
def entryFlags (p : JobParams) (n : Nat) (fin : Bool) : Nat :=
  b2n (everyNth n p.h) + 2 * b2n p.lagged + 4 * b2n fin + 8 * b2n (everyNth n p.q)

/-- STATE of the journal's step entry. -/
def journalState (s : State) : Nat := peekNat s (journalAt s + 0x10) 1

/-- Descriptor `i` needs its outer step in this pass. -/
def needsOuter (q : Pass2) (l : BitVec 1024) : Bool := q.outer && lOuter l && !lFrozen l

/-- Descriptor `i` is committed (R271). -/
def descCommitted (s : State) (q : Pass2) (i : Nat) : Bool :=
  lFrozen (ldesc s i) || (if needsOuter q (ldesc s i) then decide (phaseOf s i = 5) else decide (1 ≤ phaseOf s i))

/-! ### The ratio monitor (R279, R280) -/

/-- The ratio of a sum of squared changes to wsq. -/
def ratioOf (d w : Word) : Word :=
  if w <<< 1 = 0 then (if d <<< 1 = 0 then 0 else 0x7F800000) else fsqrt (fdiv d w)

/-- A threshold crossing. -/
def ratioCross (s : State) (l : BitVec 1024) (high : Bool) : State :=
  let s := addReg s rUpdRatioEx 1
  let s := setReg s rUpdRatioInfo (w32 (lLayer l * 65536 + (if high then 0x8000 else 0x4000)))
  let s := rsEvent s rUpdStat 1
  let s := if (lRatioAct l).testBit 0 ∧ ctlBit s rUpdCtl 1 then moduleEvent s 6 else s
  if (lRatioAct l).testBit 1 then rsEvent (requestStop s 4) rUpdStat 2 else s

/-- The monitor at a descriptor's commit. -/
def ratioCheck (s : State) (l : BitVec 1024) (rho : Word) : State :=
  if lRatioHi l <<< 1 ≠ 0 ∧ flt (lRatioHi l) rho then ratioCross s l true
  else if lRatioLo l <<< 1 ≠ 0 ∧ flt rho (lRatioLo l) then ratioCross s l false
  else s

/-- The ratio of every descriptor is appended to the history ring at a commit. -/
def ratioAppend (s : State) (n : Nat) : State :=
  match (updImg s).sec with
  | none => s
  | some sec =>
    if sec.ratioDepth = 0 then s else
    (List.range (ndesc s)).foldl (fun s i =>
      memPut s (sec.ratioRing + 4 * (ndesc s * (n % sec.ratioDepth) + i)) (leBytes 4 (peekNat s (rowAt s i + 0x10) 4))) s

/-! ### Commit (R271, R288 item 5) -/

/-- The last descriptor is committed: the journal becomes COMMITTED, STEP_CTR becomes n, and the rest of the step's
update state is discarded. -/
def commitStep (s : State) (q : Pass2) : State :=
  let s := ratioAppend s q.step.toNat
  let s := jput s (journalAt s + 0x10) (leBytes 1 2)
  let s := { s with step := { s.step with ctr := q.step } }
  let s := setReg64 s rStepCtr q.step
  let s := updAttempt s q.att fun a => { a with committed := true }
  let s := if s.upd.replay.isSome ∨ s.img.st = .shadow then s else scaleCommit s
  let s := if q.outer ∧ (ldescs s).any (needsOuter q) then rsEvent (addReg s rUpdOuterCtr 1) rUpdStat 4 else s
  { s with upd := { s.upd with
      p2 := none, gPairs := [], wPairs := [], dPairs := [], hold := [], tiles := [], partly := [], ns := [], seek := []
      redPeers := s.upd.redPeers.filter fun x => decide (x.1 ≠ q.att)
      finRun := if s.upd.fault then s.upd.finRun else 0 } }

/-- A LAYER of the pass in progress is committed: its descriptors are, and those of every lower LAYER, for layers commit
in ascending order (R45). -/
def layerCommitted (s : State) (layer : Nat) : Bool :=
  match s.upd.p2 with
  | some q => (List.range (ndesc s)).all fun i => decide (layer < lLayer (ldesc s i)) || descCommitted s q i
  | none => true

/-- The layers of a snapshot step that have committed are listed for the Pointing engine, ascending (R69). -/
def noteSnapshot (s : State) (p : JobParams) (q : Pass2) : State :=
  if !(everyNth q.step.toNat p.q) || s.upd.replay.isSome || decide (s.img.st = .shadow) then s else
  let old := if s.maq.notedStep = q.step then s.maq.noted else []
  let new := (layerNos s).filter fun l => layerCommitted s l && decide (l ∉ old)
  { s with maq := { s.maq with notedStep := q.step, noted := old ++ new, toCopy := s.maq.toCopy ++ new.map fun l => (q.step, l) } }

/-- What follows when a descriptor is committed: the step commits when every descriptor is. -/
def tryCommit (s : State) : State :=
  match s.upd.p2, updParams s with
  | some q, some p =>
    let s := noteSnapshot s p q
    if (List.range (ndesc s)).all (descCommitted s q) then commitStep s q else s
  | _, _ => s

/-- The update unit reads the update counts of the descriptors: true where one meets an error. -/
def readCounts (s : State) : Bool × State :=
  (ldescs s).foldl (fun acc l => match updRead acc.2 (lCountAddr l) 8 with
    | (some _, s) => (acc.1, s)
    | (none, s) => (true, s)) (false, s)

/-- The journal of a pass 2 that begins (R288 item 1): the rows, then the step entry. True where a read or a write met an
error. -/
def beginJournal (p : JobParams) (q : Pass2) (reps flags : Nat) (s : State) : Bool × State :=
  let (bad, s) := readCounts s
  let s := jput s (journalAt s + 64) ((List.range (ndesc s)).flatMap (rowBytes s) ++ List.replicate (192 * ndesc s) 0)
  withJerr (bad, jput s (journalAt s) (entryBytes s p q reps 1 flags))

/-- Frozen descriptors are passed over, and counted once in a step (R281). -/
def countFrozen (s : State) : State :=
  let fr := ((ldescs s).filter lFrozen).length
  if fr = 0 then s else rsEvent (addReg s rUpdFrozen fr) rUpdStat 0

/-- The cause of a pass-2 fault at an error of the update's own accesses: EMERGENCY where a stack stands in it. -/
def journalCause (s : State) : Nat := if allDies.any fun n => s.mem.st[n].emergency then p2Emergency else p2Desc

/-- A clear verdict (R51, R288): the verdict record, the learning rate, the journal's rows, then its step entry;
frozen descriptors are passed over and counted. Where the journal cannot be written the pass faults at once, naming no
layer and no die (DESIGN CHOICE, log entry 79). -/
def clearVerdict (s : State) (att : DWord) : State :=
  let s := updAttempt s att fun a => { a with verdict := some .clear }
  let s := writeVerdict s att 1
  match attempt s att, updParams s with
  | some a, some p =>
    let n := a.step.toNat
    let lr := learnRate p n
    let q : Pass2 := { step := a.step, att := att, lr := lr, gc := fmul (reg s rUpdGradMul) (reg s rUpdClip), outer := everyNth n p.h }
    let s := setReg s rUpdLr lr
    let s := { s with upd := { s.upd with p2 := some q, hold := [], tiles := [], partly := [], signalled := [], lost := [], seek := [] } }
    let (bad, s) := beginJournal p q (replicasOf s att) (entryFlags p n false) s
    let s := tryCommit (countFrozen s)
    if bad then pass2Fault s 0xFFFF 0xFF (journalCause s) else s
  | _, _ => s

/-! ### Pass 2 (R270 to R275) -/

/-- The constants of a descriptor in this pass (R272). -/
structure RuleC where
  rule : Nat
  a : Word
  gc : Word
  b1 : Word
  b2 : Word
  omb1 : Word
  omb2 : Word
  bc1 : Word
  bc2 : Word
  wd : Word
  eps : Word
  nest : Bool
  ns : Word

/-- The constants of descriptor `i`. -/
def ruleC (s : State) (q : Pass2) (i : Nat) : RuleC :=
  let l := ldesc s i
  let one : Word := 0x3F800000
  { rule := lRule l, a := fmul q.lr (lLrMul l), gc := q.gc, b1 := lBeta1 l, b2 := lBeta2 l, omb1 := fsub one (lBeta1 l),
    omb2 := fsub one (lBeta2 l), bc1 := w32 (peekNat s (rowAt s i + 8) 4), bc2 := w32 (peekNat s (rowAt s i + 12) 4),
    wd := lWd l, eps := lEps l, nest := lNesterov l, ns := lNsScale l }

/-- One element's operands: master, first and second state, gradient, and what phase 2 of the matrix rule gave it. -/
structure ElemIn where
  w : Word
  s1 : Word
  s2 : Word
  g : Word
  un : Word := 0
  x : Word := 0

/-- One element's new values: first and second state, and master. -/
structure ElemOut where
  s1 : Word
  s2 : Word
  w : Word
  deriving DecidableEq, Repr

/-- The element rule. -/
def elementRule (c : RuleC) (e : ElemIn) (g : Word) : ElemOut :=
  let m := ffma c.b1 e.s1 (fmul c.omb1 g)
  let v := ffma c.b2 e.s2 (fmul c.omb2 (fmul g g))
  let q := fdiv (fdiv m c.bc1) (fadd (fsqrt (fdiv v c.bc2)) c.eps)
  let d := ffma c.wd e.w q
  ⟨m, v, ffnma c.a d e.w⟩

/-- The momentum rule. -/
def momentumRule (c : RuleC) (e : ElemIn) (g : Word) : ElemOut :=
  let u := ffma c.b1 e.s1 g
  let d := if c.nest then ffma c.b1 u g else u
  ⟨u, e.s2, ffnma c.a (ffma c.wd e.w d) e.w⟩

/-- Phase 3 of the matrix rule. -/
def matrixRule (c : RuleC) (e : ElemIn) : ElemOut :=
  ⟨e.un, e.s2, ffnma c.a (ffma c.wd e.w (fmul c.ns e.x)) e.w⟩

/-- The scaled gradient: g = 0 where the descriptor computes none (R268). -/
def scaledGrad (c : RuleC) (gc : Bool) (g : Word) : Word := if gc then fmul c.gc g else 0

/-- The new values of an element; none where one that would be stored is not finite (R275). -/
def elemUpd (c : RuleC) (gcomp : Bool) (e : ElemIn) : Option ElemOut :=
  let o := match c.rule with
    | 0 => elementRule c e (scaledGrad c gcomp e.g)
    | 2 => momentumRule c e (scaledGrad c gcomp e.g)
    | _ => matrixRule c e
  if nonFinite32 o.w || nonFinite32 o.s1 || (decide (c.rule = 0) && nonFinite32 o.s2) then none else some o

/-- Write the stored elements of a plane: all of them at once, or each alone where some are kept. -/
def storeElems (s : State) (a sz : Nat) (es : List (Option (List Byte))) : Bool × State :=
  if es.all Option.isSome then updWrite s a (es.filterMap id).flatten
  else es.zipIdx.foldl (fun acc (e, i) => match e with
    | some bs => let r := updWrite acc.2 (a + sz * i) bs; (acc.1 || r.1, r.2)
    | none => acc) (false, s)

/-- The working-copy codes of elements from index `e0` of a LAYER (R276, R277). -/
def wcCodes (seed : DWord) (n purpose : Nat) (l : BitVec 1024) (e0 : Nat) (ws : List (Option Word)) :
    List (Option (Nat × ConvCount)) :=
  ws.zipIdx.map fun (w, i) => w.map (srEncode (lWcFmt l) (srBits seed n (lLayer l) purpose (lElemBase l + e0 + i)))

/-- Bytes of an element of the working copy. -/
def wcBytes (l : BitVec 1024) : Nat := fmtBits (lWcFmt l) / 8

/-- Write the working copy of elements from index `e0` of descriptor `l`, and count saturations on die `d`. -/
def storeWc (s : State) (d : Die) (n purpose : Nat) (l : BitVec 1024) (e0 : Nat) (ws : List (Option Word)) : Bool × State :=
  let seed := match updParams s with | some p => p.srSeed | none => 0
  let cs := wcCodes seed n purpose l e0 ws
  let s := convCount s d ((cs.filterMap id).map (·.2))
  storeElems s (lWc l + wcBytes l * e0) (wcBytes l) (cs.map fun c => c.map fun c => leBytes (wcBytes l) c.1)

/-- FP32 planes as optional bytes. -/
def optBytes (ws : List (Option Word)) : List (Option (List Byte)) := ws.map fun w => w.map fun w => leBytes 4 w.toNat

/-- The operands of a chunk; none where a read meets an error. -/
def chunkIn (s : State) (i k : Nat) : Option (List ElemIn) × State :=
  let l := ldesc s i
  match readPlane s (lW l) l k with
  | (none, s) => (none, s)
  | (some ws, s) =>
    match readPlane s (lS1 l) l k with
    | (none, s) => (none, s)
    | (some s1, s) =>
      let (r2, s) := if lRule l = 0 then readPlane s (lS2 l) l k else (some (List.replicate (chunkLen l k) 0), s)
      match r2 with
      | none => (none, s)
      | some s2 =>
        match readGrad s l k with
        | (none, s) => (none, s)
        | (some g, s) =>
          let xs : List (Word × Word) := match s.upd.hold.find? fun h => decide (h.1 = i) with
            | some h => (h.2.drop (chunkElems * k)).take (chunkLen l k)
            | none => List.replicate (chunkLen l k) (0, 0)
          (some (((ws.zip s1).zip ((s2.zip g).zip xs)).map fun ((w, a), ((b, g), (un, x))) => ⟨w, a, b, g, un, x⟩), s)

/-- Elements kept by R275 are counted. -/
def countKept (s : State) (n : Nat) : State := if n = 0 then s else rsEvent (addReg s rUpdNonfinite n) rUpdStat 3

/-- A write in a chunk failed: the chunk is partly written. -/
def markPartly (s : State) (i k : Nat) : State :=
  { s with upd := { s.upd with partly := chunkKey i k :: s.upd.partly.filter fun x => decide (x ≠ chunkKey i k) } }

/-- A chunk's writes have been performed: NEXT_CHUNK of its die advances to the die's next chunk (R288 item 2). Where the
journal refuses that, the chunk counts as partly written. -/
def advanceChunk (s : State) (i k : Nat) : State :=
  let d := chunkDie s (ldesc s i) k
  let s := { s with upd := { s.upd with partly := s.upd.partly.filter fun x => decide (x ≠ chunkKey i k) } }
  let s := jput s (progAt s i d) (leBytes 4 (k + 1))
  if s.upd.jerr then markPartly s i k else s

/-- Every descriptor before `i` in the list has left phase OPEN or is frozen. -/
def earlierDone (s : State) (i : Nat) : Bool :=
  (List.range i).all fun j => lFrozen (ldesc s j) || decide (1 ≤ phaseOf s j)

/-- After the last chunk of a descriptor, once the descriptors before it are done (R45): UPD_T, the ratio, PHASE DONE, and
the monitor (R288 item 3). -/
def finishDesc (s : State) (i : Nat) : State :=
  if chunksDone s i && decide (phaseOf s i = 0) && !lFrozen (ldesc s i) && earlierDone s i then
    let l := ldesc s i
    let s := jput s (lCountAddr l) (leBytes 8 (peekNat s (rowAt s i) 8))
    let n := nChunks l
    let rho := ratioOf (combined s.upd.dPairs i n) (combined s.upd.wPairs i n)
    let s := jput s (rowAt s i + 0x10) (leBytes 4 rho.toNat)
    let s := setPhase s i 1
    if s.upd.jerr then s else
    let s := { s with upd := { s.upd with hold := s.upd.hold.filter fun h => decide (h.1 ≠ i) } }
    tryCommit (ratioCheck s l rho)
  else s

/-- Finish every descriptor that can be, in list order. -/
def finishDescs (s : State) : State := (List.range (ndesc s)).foldl finishDesc s

/-- Pass 2 of one chunk: true when a read or a write failed. -/
def pass2Chunk (q : Pass2) (i k : Nat) (s : State) : Bool × State :=
  match chunkIn s i k with
  | (none, s) => (true, s)
  | (some es, s) =>
    let l := ldesc s i
    let c := ruleC s q i
    let os := es.map (elemUpd c (lGradCompute l))
    let d := chunkDie s l k
    let off := 4 * chunkElems * k
    let (b1, s) := storeElems s (lW l + off) 4 (optBytes (os.map fun o => o.map (·.w)))
    let (b2, s) := storeElems s (lS1 l + off) 4 (optBytes (os.map fun o => o.map (·.s1)))
    let (b3, s) := if lRule l = 0 then storeElems s (lS2 l + off) 4 (optBytes (os.map fun o => o.map (·.s2))) else (false, s)
    let (b4, s) := storeWc s d q.step.toNat 0 l (chunkElems * k) (os.map fun o => o.map (·.w))
    let s := countKept s (os.filter Option.isNone).length
    if b1 || b2 || b3 || b4 then (true, markPartly s i k)
    else
      let df := ssqChunk ((es.zip os).map fun (e, o) => o.map fun o => fsub o.w e.w)
      let s := { s with upd := { s.upd with dPairs := SMap.set (0, 0) s.upd.dPairs (chunkKey i k) df } }
      withJerr (false, finishDescs (advanceChunk s i k))

/-! ### Phases 1 and 2 of the matrix rule (R272, R274) -/

/-- An FP32 word rounded to BF16, held as FP32. -/
def toBf16 (w : Word) : Word := enc32 (fmtDecode 2 (fmtEncode 2 false (dec32 w)).1)

/-- One array dot product: visits of 256 values of K, 16-bit operands in one segment, FP32 operands in four
(R117, R120, R128). -/
def arrayDot (fp32 : Bool) : Nat → List (Word × Word) → List Num
  | 0, _ => []
  | n + 1, ps =>
    if ps.isEmpty then [] else
    let v := ps.take 256
    let seg (f g : Num × Num → Num) : Num :=
      (v.foldl (fun c p => c.add ((f (pieces32 1 (dec32 p.1))).mul (g (pieces32 1 (dec32 p.2))))) ({} : Chain)).value
    let here := if fp32 then [seg (·.1) (·.1), seg (·.1) (·.2), seg (·.2) (·.1), seg (·.2) (·.2)]
      else [(v.foldl (fun c p => c.add ((dec32 p.1).mul (dec32 p.2))) ({} : Chain)).value]
    here ++ arrayDot fp32 n (ps.drop 256)

/-- The FP32 result of an array product of two vectors. -/
def dot (fp32 : Bool) (xs ys : List Word) : Word := sumFp32 (arrayDot fp32 (xs.length + 1) (xs.zip ys))

/-- A matrix as a list of rows. -/
abbrev Mat := List (List Word)

/-- Rows of `c` words. -/
def rowsOf : Nat → Nat → List Word → Mat
  | 0, _, _ => []
  | n + 1, c, ws => ws.take c :: rowsOf n c (ws.drop c)

/-- The transpose of a matrix with `c` columns. -/
def transp (c : Nat) (m : Mat) : Mat := (List.range c).map fun j => m.map fun r => r.getD j 0

/-- Every element of a matrix. -/
def mapMat (f : Word → Word) (m : Mat) : Mat := m.map fun r => r.map f

/-- a × transpose(b). -/
def mulT (fp32 : Bool) (a b : Mat) : Mat := a.map fun r => b.map (dot fp32 r)

/-- Element by element. -/
def zipMat (f : Word → Word → Word) (a b : Mat) : Mat := a.zipWith (fun r t => r.zipWith f t) b

/-- An operand of the array: rounded to BF16 unless NS_FP32. -/
def nsOp (fp32 : Bool) (m : Mat) : Mat := if fp32 then m else mapMat toBf16 m

/-- The product x × transpose(x) of the columns held. -/
def nsGram (fp32 : Bool) (x : Mat) : Mat := mulT fp32 (nsOp fp32 x) (nsOp fp32 x)

/-- One Newton–Schulz iteration on the columns held of a p × q matrix, from its g2. -/
def nsStep (fp32 : Bool) (x g2 : Mat) (c : Word × Word × Word) : Mat :=
  let op := nsOp fp32
  let p := x.length
  let q := (x.headD []).length
  let g4 := mulT fp32 (op g2) (op (transp p g2))
  let b := zipMat (fun g h => fadd (fmul c.2.1 g) (fmul c.2.2 h)) g2 g4
  let bx := mulT fp32 (op b) (op (transp q x))
  zipMat (fun v w => fadd (fmul c.1 v) w) x bx

/-- The sum of the squares of the d of every element held, in FP32. -/
def nsSquares (d : List Word) : Word :=
  let p := ssqChunk (d.map some)
  fadd (pairNorm p.1 p.2).1 (pairNorm p.1 p.2).2

/-- The matrix is taller than wide: its transpose is iterated on. -/
def nsTall (l : BitVec 1024) : Bool := decide (lCols l < lRows l)

/-- The smaller side of the matrix. -/
def nsP (l : BitVec 1024) : Nat := min (lRows l) (lCols l)

/-- The larger side of the block that this module holds: the matrix is cut along it into SHARDS (R274). -/
def nsQ (l : BitVec 1024) : Nat := lElems l / max 1 (nsP l)

/-- The x of phase 2 from d and s, as p rows. -/
def nsStart (l : BitVec 1024) (d : List Word) (s : Word) : Mat :=
  let x := d.map fun v => let y := fdiv v (fadd s (lEps l)); if lNsFp32 l then y else toBf16 y
  if nsTall l then transp (nsP l) (rowsOf (nsQ l) (nsP l) x) else rowsOf (nsP l) (nsQ l) x

/-- The x of every element, in storage order. -/
def nsFlat (l : BitVec 1024) (m : Mat) : List Word := (if nsTall l then transp (nsQ l) m else m).flatten

/-- The iterations on a whole matrix, over its smaller side. -/
def nsRun (coef : List (Word × Word × Word)) (l : BitVec 1024) (d : List Word) : List Word :=
  nsFlat l ((List.range (lNsIters l)).foldl (fun m k => nsStep (lNsFp32 l) m (nsGram (lNsFp32 l) m) (coef.getD k (0, 0, 0)))
    (nsStart l d (fsqrt (nsSquares d))))

/-- The operands of every chunk of a descriptor. -/
def allIn (i : Nat) : List Nat → State → Option (List ElemIn) × State
  | [], s => (some [], s)
  | k :: ks, s =>
    match chunkIn s i k with
    | (none, s) => (none, s)
    | (some es, s) =>
      match allIn i ks s with
      | (none, s) => (none, s)
      | (some fs, s) => (some (es ++ fs), s)

/-- The coefficients of the image. -/
def nsCoefs (s : State) : List (Word × Word × Word) := match (updImg s).sec with | some sec => sec.nsCoef | none => []

/-- Phase 2 has begun on a descriptor, or ended. -/
def nsBegun (s : State) (i : Nat) : Bool := s.upd.hold.any (fun h => decide (h.1 = i)) || s.upd.ns.any fun n => decide (n.i = i)

/-- Phase 1, and phase 2 where the matrix is whole: un and x of every element are held for phase 3. Of a matrix in several
shards phase 2 begins, and goes on as its sums over the A axis arrive (R274). True when a read failed. -/
def matrixPhases (q : Pass2) (i : Nat) (s : State) : Bool × State :=
  let l := ldesc s i
  if nsBegun s i then (false, s) else
  match allIn i (List.range (nChunks l)) s with
  | (none, s) => (true, s)
  | (some es, s) =>
    let c := ruleC s q i
    let us := es.map fun e => momentumRule c e (scaledGrad c (lGradCompute l) e.g)
    let ds := (es.zip us).map fun (e, o) =>
      if c.nest then ffma c.b1 o.s1 (scaledGrad c (lGradCompute l) e.g) else o.s1
    let un := us.map (·.s1)
    if lShards l = 1 then (false, { s with upd := { s.upd with hold := (i, un.zip (nsRun (nsCoefs s) l ds)) :: s.upd.hold } })
    else (false, { s with upd := { s.upd with ns := s.upd.ns ++ [⟨i, 0, none, [ds], un⟩] } })

/-- What the module adds to the next sum over the A axis: its sum of squares, then its g2 of each iteration. -/
def nsPart (s : State) (n : NsRun) : List Word :=
  if n.sums = 0 then [nsSquares n.x.flatten] else (nsGram (lNsFp32 (ldesc s n.i)) n.x).flatten

/-- A sum over the A axis has arrived: phase 2 goes on, and after the last iteration x is held for phase 3. -/
def nsTake (s : State) (n : NsRun) (ws : List Word) : State :=
  let l := ldesc s n.i
  let x := if n.sums = 0 then nsStart l n.x.flatten (fsqrt (ws.headD 0))
    else nsStep (lNsFp32 l) n.x (rowsOf (nsP l) (nsP l) ws) ((nsCoefs s).getD (n.sums - 1) (0, 0, 0))
  if n.sums = lNsIters l then
    { s with upd := { s.upd with ns := s.upd.ns.filter (fun m => decide (m.i ≠ n.i)), hold := (n.i, n.un.zip (nsFlat l x)) :: s.upd.hold } }
  else { s with upd := { s.upd with ns := s.upd.ns.map fun m => if m.i = n.i then { n with sums := n.sums + 1, src := none, x := x } else m } }

/-- Phase 2 of a descriptor of the LAYER has still to end. -/
def nsWaits (s : State) (layer : Nat) : Bool :=
  (descsOf s layer).any fun i => decide (lRule (ldesc s i) = 1) && decide (lShards (ldesc s i) ≠ 1) && !lFrozen (ldesc s i) &&
    !(chunksDone s i) && !(s.upd.hold.any fun h => decide (h.1 = i))

/-- Phase 1 of the descriptors of a LAYER that lie in several shards. True when a read failed. -/
def nsBegin (q : Pass2) (layer : Nat) (s : State) : Bool × State :=
  (descsOf s layer).foldl (fun acc i =>
    if acc.1 || decide (lRule (ldesc acc.2 i) ≠ 1) || decide (lShards (ldesc acc.2 i) = 1) || lFrozen (ldesc acc.2 i) ||
      chunksDone acc.2 i then acc
    else matrixPhases q i acc.2) (false, s)

/-- Pass 2 of the chunks of descriptor `i` that die `d` owns and has not written, in ascending order. -/
def pass2Desc (q : Pass2) (d : Die) (acc : Bool × State) (i : Nat) : Bool × State :=
  if acc.1 || lFrozen (ldesc acc.2 i) then acc else
  let (bad, s) := if lRule (ldesc acc.2 i) = 1 ∧ !(chunksDone acc.2 i) then matrixPhases q i acc.2 else (false, acc.2)
  if bad then (true, s) else
  (ownChunks s d i).foldl (fun acc k =>
    if acc.1 || chunkDone acc.2 i k then acc else pass2Chunk q i k acc.2) (false, s)

/-- Pass 2 of a LAYER on one die: true when a read or a write failed. -/
def pass2 (d : Die) (layer : Nat) (s : State) : Bool × State :=
  match s.upd.p2 with
  | none => (false, s)
  | some q =>
    let (bad, s) := readJournal s
    if bad then (true, s) else (descsOf s layer).foldl (pass2Desc q d) (false, s)

end Sys2Proof.Machine
end

