-- ==== Sys2Proof/Machine/Outer.lean ====
section
/-! DEFINITION. Machine/Outer.lean: MX block groups (R327) and the outer step (R41, R283 to R286). -/
namespace Sys2Proof.Machine
open Sys2Proof

/-! ### MX block groups (R327) -/

/-- Bytes of a group of 2,048 elements. -/
def groupBytes (f : Nat) : Nat := packedBytes f 2048 + 64

/-- One group: the elements, padded with +0, then the 64 scale bytes. -/
def encGroup (f : Nat) (vs : List Num) : List Byte :=
  let vs := vs ++ List.replicate (2048 - vs.length) (.fin false 0 0)
  let bs := (chop 32 65 vs).map (mxEncode f)
  packElems f (bs.flatMap (·.2)) ++ bs.flatMap fun b => leBytes 1 b.1

/-- Whole groups that hold a list of values. -/
def encGroups (f : Nat) (vs : List Num) : List Byte := (chop 2048 (vs.length + 1) vs).flatMap (encGroup f)

/-- The first `n` elements of a group, as FP32. -/
def decGroup (f n : Nat) (bs : List Byte) : List Word :=
  (List.range n).map fun i => loadElem f (unpackElem f bs i) (some (leAt bs (packedBytes f 2048 + i / 32) 1))

/-- The first `n` elements of whole groups. -/
def decGroups (f : Nat) : Nat → Nat → List Byte → List Word
  | 0, _, _ => []
  | fuel + 1, n, bs =>
    if n = 0 then [] else decGroup f (min n 2048) bs ++ decGroups f fuel (n - 2048) (bs.drop (groupBytes f))

/-! ### Owned tiles (R41, R283) -/

/-- Tiles of a descriptor that this replica owns; none under a shadow image (R293). -/
def ownedTiles (s : State) (l : BitVec 1024) : List Nat :=
  match updParams s with
  | some p => if s.img.st = .shadow then [] else (List.range (nChunks l)).filter fun t => decide (t % max 1 p.replicas = p.siteRank)
  | none => []

/-- Bytes of the MX encoding of a tile. -/
def tileEnc (f : Nat) : Nat := 32 * groupBytes f

/-- Addresses of the planes of the j-th of `n` owned tiles: A, e, u and P, each plane tile after tile. -/
def planeA (l : BitVec 1024) (j : Nat) : Nat := lOuterAddr l + 262144 * j
def planeE (l : BitVec 1024) (n j : Nat) : Nat := lOuterAddr l + 262144 * n + 131072 * j
def planeU (l : BitVec 1024) (n j : Nat) : Nat := lOuterAddr l + 393216 * n + 262144 * j
def planeP (l : BitVec 1024) (f n j : Nat) : Nat := lOuterAddr l + 655360 * n + tileEnc f * j

/-- An owned tile's outer step is applied: NEXT_APPLY of its die lies beyond it (R287), or the pass noted it. -/
def tileDone (s : State) (i t : Nat) : Bool :=
  decide (chunkKey i t ∈ s.upd.tiles) || decide (t < peekNat s (progAt s i (chunkDie s (ldesc s i) t) + 4) 4)

/-- The key of an owned tile's planes in the update unit's tables. -/
def tileKey (s : State) (i t : Nat) : Nat := chunkKey i (nChunks (ldesc s i) + t)

/-- A tile of the outer step: its descriptor, number and place among the owned tiles. -/
structure OTile where
  i : Nat
  t : Nat
  j : Nat
  n : Nat

/-- The owned tiles of a LAYER that take part in the outer step, in order. -/
def layerTiles (s : State) (q : Pass2) (layer : Nat) : List OTile :=
  (descsOf s layer).flatMap fun i =>
    if needsOuter q (ldesc s i) then
      let ts := ownedTiles s (ldesc s i)
      ts.zipIdx.map fun (t, j) => ⟨i, t, j, ts.length⟩
    else []

/-- Read FP32 words, or none on an error. -/
def readWs (s : State) (a n : Nat) : Option (List Word) × State :=
  match updRead s a (4 * n) with
  | (some bs, s) => (some (wordsOf bs), s)
  | (none, s) => (none, s)

/-- The owner's planes and master of a tile. -/
structure OPlanes where
  a : List Word
  e : List Word
  u : List Word
  th : List Word

/-- Read the planes of a tile; none on an error. -/
def readPlanes (s : State) (o : OTile) : Option OPlanes × State :=
  let l := ldesc s o.i
  let n := chunkLen l o.t
  match readWs s (planeA l o.j) n with
  | (none, s) => (none, s)
  | (some a, s) => match updRead s (planeE l o.n o.j) (2 * n) with
    | (none, s) => (none, s)
    | (some e, s) => match readWs s (planeU l o.n o.j) n with
      | (none, s) => (none, s)
      | (some u, s) => match readPlane s (lW l) l o.t with
        | (none, s) => (none, s)
        | (some th, s) => (some ⟨a, halvesOf e, u, th⟩, s)

/-- c = (a - theta) + e. -/
def outerC (x : OPlanes) : List Word := ((x.a.zip x.th).zip x.e).map fun ((a, th), e) => fadd (fsub a th) e

/-- q of a list of c. -/
def outerQ (f : Nat) (c : List Word) : List Byte := encGroups f (c.map dec32)

/-- en = c - mx_decode(q), rounded to BF16. -/
def outerEn (f : Nat) (c : List Word) : List Word :=
  (c.zip (decGroups f (c.length + 1) c.length (outerQ f c))).map fun (c, d) => toBf16 (fsub c d)

/-- BF16 values as optional bytes. -/
def optHalves (ws : List (Option Word)) : List (Option (List Byte)) := ws.map fun w => w.map fun w => leBytes 2 (w.toNat / 65536)

/-! ### The exchange: SENT (R284, R285) -/

/-- Encode the tiles of a LAYER one after another and write their q from `at0`. With LAGGED, q goes to P and en to
e as well, and a tile whose e is stored sends P again when the phase is repeated. -/
def sendTiles (p : JobParams) : List OTile → Nat → Bool × State → Bool × State
  | [], _, acc => acc
  | o :: os, at0, (bad, s) =>
    let l := ldesc s o.i
    let len := ceilDiv (chunkLen l o.t) 2048 * groupBytes p.outerFmt
    let key := tileKey s o.i o.t
    if p.lagged && decide (key ∈ s.upd.tiles) then
      match updRead s (planeP l p.outerFmt o.n o.j) len with
      | (none, s) => (true, markPartly s o.i (nChunks l + o.t))
      | (some q, s) =>
        let (b, s) := updWrite s at0 q
        sendTiles p os (at0 + len) (bad || b, s)
    else
    match readPlanes s o with
    | (none, s) => (true, markPartly s o.i (nChunks l + o.t))
    | (some x, s) =>
      let c := outerC x
      let q := outerQ p.outerFmt c
      let (b, s) := updWrite s at0 q
      let (b2, s) := if p.lagged then updWrite s (planeP l p.outerFmt o.n o.j) q else (false, s)
      let (b3, s) := if p.lagged then storeElems s (planeE l o.n o.j) 2 (optHalves ((outerEn p.outerFmt c).map some)) else (false, s)
      let s := if b2 || b3 then markPartly s o.i (nChunks l + o.t)
        else if p.lagged then { s with upd := { s.upd with tiles := key :: s.upd.tiles } } else s
      sendTiles p os (at0 + len) (bad || b || b2 || b3, s)

/-- Bytes of one site's block of a LAYER. -/
def blockLen (s : State) (p : JobParams) (os : List OTile) : Nat :=
  os.foldl (fun n o => n + ceilDiv (chunkLen (ldesc s o.i) o.t) 2048 * groupBytes p.outerFmt) 0

/-- Set the phase of every descriptor of a LAYER that takes part. -/
def setPhases (s : State) (q : Pass2) (layer ph : Nat) : State :=
  (descsOf s layer).foldl (fun s i => if needsOuter q (ldesc s i) then setPhase s i ph else s) s

/-! ### The result: REDUCED and APPLIED -/

/-- dbar of a tile: the blocks of the sites in the exchange decoded, added in ascending site order and divided by their
number. -/
def dbarOf (blocks : List (List Word)) : List Word :=
  match blocks with
  | [] => []
  | b :: bs => (bs.foldl (fun a c => (a.zip c).map fun (x, y) => fadd x y) b).map fun x => fdiv x (nat2f blocks.length)

/-- The site of this module. -/
def ownSite (s : State) : Nat := siteOf s.fab (rackOf s.fab.modId)

/-- Read the blocks of a tile from the first sites, with their numbers: the module's own at `own`, the others' where they
landed. A site that the exchange lost has none (R286). -/
def readBlocks (s : State) (x : OuterPend) (f off own n : Nat) : Nat → Option (List (Nat × List Word)) × State
  | 0 => (some [], s)
  | k + 1 =>
    match readBlocks s x f off own n k with
    | (none, s) => (none, s)
    | (some bs, s) =>
      if k ∈ s.upd.lost ∧ k ≠ ownSite s then (some bs, s) else
      let a := if k = ownSite s then own else x.dst + k * x.len + off
      match updRead s a (ceilDiv n 2048 * groupBytes f) with
      | (none, s) => (none, s)
      | (some b, s) => (some (bs ++ [(k, decGroups f (n + 1) n b)]), s)

/-- The new planes of one element. -/
structure OOut where
  a : Word
  e : Word
  u : Word
  th : Word

/-- Apply dbar to one element (R284); none where a value to store is not finite (R275). -/
def applyElem (p : JobParams) (a u dbar en : Word) : Option OOut :=
  let u := ffma p.outerMu u dbar
  let st := if p.outerNesterov then ffma p.outerMu u dbar else u
  let a := ffnma p.outerLr st a
  if nonFinite32 a || nonFinite32 u || nonFinite32 en then none else some ⟨a, en, u, a⟩

/-- Apply a pending dbar to one element (R285 item 1): A and u as above, and the master corrected by what this
site itself sent. -/
def lagElem (p : JobParams) (a u th e dbar own : Word) : Option OOut :=
  let u := ffma p.outerMu u dbar
  let st := if p.outerNesterov then ffma p.outerMu u dbar else u
  let a := ffnma p.outerLr st a
  let th := fadd th (fsub own (fmul p.outerLr st))
  if nonFinite32 a || nonFinite32 u || nonFinite32 th then none else some ⟨a, e, u, th⟩

/-- Store the new planes of a tile, its master and its working copy. -/
def storePlanes (s : State) (q : Pass2) (o : OTile) (purpose : Nat) (os : List (Option OOut)) : Bool × State :=
  let l := ldesc s o.i
  let (b1, s) := storeElems s (planeA l o.j) 4 (optBytes (os.map fun x => x.map (·.a)))
  let (b2, s) := storeElems s (planeE l o.n o.j) 2 (optHalves (os.map fun x => x.map (·.e)))
  let (b3, s) := storeElems s (planeU l o.n o.j) 4 (optBytes (os.map fun x => x.map (·.u)))
  let (b4, s) := storeElems s (lW l + 4 * chunkElems * o.t) 4 (optBytes (os.map fun x => x.map (·.th)))
  let (b5, s) := storeWc s (chunkDie s l o.t) q.step.toNat purpose l (chunkElems * o.t) (os.map fun x => x.map (·.th))
  (b1 || b2 || b3 || b4 || b5, countKept s (os.filter Option.isNone).length)

/-- NEXT_APPLY of a tile's die advances (R288 item 4). -/
def advanceApply (s : State) (o : OTile) : State :=
  let s := jput s (progAt s o.i (chunkDie s (ldesc s o.i) o.t) + 4) (leBytes 4 (o.t + 1))
  { s with upd := { s.upd with tiles := chunkKey o.i o.t :: s.upd.tiles } }

/-- Apply the result of an exchange to the tiles of a LAYER. A tile already applied is passed over; one partly written, or
whose planes or blocks cannot be read, ends the work. -/
def applyTiles (p : JobParams) (q : Pass2) (x : OuterPend) : List OTile → Nat → Bool × State → Bool × State
  | [], _, acc => acc
  | o :: os, off, (bad, s) =>
    let l := ldesc s o.i
    let n := chunkLen l o.t
    let own := if p.lagged then planeP l p.outerFmt o.n o.j else x.src + off
    let next := off + ceilDiv n 2048 * groupBytes p.outerFmt
    if tileDone s o.i o.t then applyTiles p q x os next (bad, s)
    else if tileKey s o.i o.t ∈ s.upd.partly then (true, s)
    else
    match readPlanes s o with
    | (none, s) => (true, markPartly s o.i (nChunks l + o.t))
    | (some v, s) =>
      match readBlocks s x p.outerFmt off own n p.sites with
      | (none, s) => (true, markPartly s o.i (nChunks l + o.t))
      | (some bs, s) =>
        let dbar := dbarOf (bs.map (·.2))
        let outs :=
          if p.lagged then
            let mine := match bs.find? fun b => decide (b.1 = ownSite s) with | some b => b.2 | none => []
            ((v.a.zip v.u).zip ((v.th.zip v.e).zip (dbar.zip mine))).map fun ((a, u), ((th, e), (d, m))) => lagElem p a u th e d m
          else
            ((v.a.zip v.u).zip (dbar.zip (outerEn p.outerFmt (outerC v)))).map fun ((a, u), (d, en)) => applyElem p a u d en
        let (b, s) := storePlanes s q o (if p.lagged then 2 else 1) outs
        if b then (true, markPartly s o.i (nChunks l + o.t))
        else applyTiles p q x os next (bad, advanceApply s o)

/-- The exchange of a LAYER in progress or pending. -/
def findPend (s : State) (layer : Nat) : Option OuterPend := s.upd.pend.find? fun x => decide (x.layer.toNat = layer)
def dropPend (s : State) (layer : Nat) : State :=
  { s with upd := { s.upd with pend := s.upd.pend.filter fun x => decide (x.layer.toNat ≠ layer) } }

/-! ### GATHERED -/

/-- Rewrite the working copy of a gathered tile from its new master. -/
def gatherTile (q : Pass2) (purpose i : Nat) (acc : Bool × State) (t : Nat) : Bool × State :=
  let l := ldesc acc.2 i
  match readPlane acc.2 (lW l) l t with
  | (none, s) => (true, s)
  | (some ws, s) =>
    let (b, s) := storeWc s (chunkDie s l t) q.step.toNat purpose l (chunkElems * t) (ws.map some)
    (acc.1 || b, { s with upd := { s.upd with tiles := chunkKey i t :: s.upd.tiles } })

/-- The new masters of a LAYER have been gathered: the tiles of other owners get their working copies, and the
phase becomes GATHERED. True when a read or a write failed. -/
def gatherLayer (q : Pass2) (layer : Nat) (s : State) : Bool × State :=
  match updParams s with
  | none => (false, s)
  | some p =>
    let (bad, s) := (descsOf s layer).foldl (fun acc i =>
      if needsOuter q (ldesc acc.2 i) then
        let mine := ownedTiles acc.2 (ldesc acc.2 i)
        ((List.range (nChunks (ldesc acc.2 i))).filter fun t => decide (t ∉ mine)).foldl
          (gatherTile q (if p.lagged then 2 else 1) i) acc
      else acc) (false, s)
    if bad then (true, s) else withJerr (false, tryCommit (setPhases s q layer 5))

/-- Reduce and apply the result of an exchange (R284): REDUCED, APPLIED, and GATHERED where no other replica is to gather
from. -/
def applyLayer (p : JobParams) (q : Pass2) (x : OuterPend) (layer : Nat) (s : State) : Bool × State :=
  let s := setPhases s q layer 3
  let (bad, s) := withJerr (applyTiles p q x (layerTiles s q layer) 0 (false, s))
  if bad then (true, s)
  else
    let (bad, s) := withJerr (false, dropPend (setPhases s q layer 4) layer)
    if bad then (true, s)
    else if p.replicas ≤ 1 then gatherLayer q layer s else (false, s)

/-- The result of an exchange has arrived: it is kept pending with LAGGED, and otherwise reduced and applied. -/
def exchangeDone (q : Pass2) (layer : Nat) (s : State) : Bool × State :=
  match updParams s, findPend s layer with
  | some p, some x =>
    if p.lagged then
      (false, { s with upd := { s.upd with pend := s.upd.pend.map fun y => if y = x then { y with ready := true } else y } })
    else applyLayer p q x layer { s with upd := { s.upd with pend := s.upd.pend.map fun y => if y = x then { y with ready := true } else y } }
  | _, _ => (false, s)

/-- What starting an exchange answers: it waits for the previous one, it failed, or it may go on. -/
inductive ExStart where
  | wait | bad | go
  deriving DecidableEq, Repr

/-- An exchange of a LAYER starts (R284, R285): with LAGGED the pending result is applied first, and the exchange
waits for it while it is still on its way. -/
def exchangeStart (q : Pass2) (layer src dst : Nat) (s : State) : ExStart × State :=
  match updParams s with
  | none => (.go, s)
  | some p =>
    let old := findPend s layer
    if p.lagged && (match old with | some x => !x.ready | none => false) then (.wait, rsEvent s rUpdStat 5) else
    let (bad, s) := match old with
      | some x => if p.lagged then withJerr (applyTiles p q x (layerTiles s q layer) 0 (false, s)) else (false, s)
      | none => (false, s)
    if bad then (.bad, s) else
    let ts := layerTiles s q layer
    let (bad, s) := sendTiles p ts src (false, if p.lagged then dropPend s layer else s)
    if bad then (.bad, s) else
    let s := dropPend s layer
    let s := { s with upd := { s.upd with pend := s.upd.pend ++ [⟨BitVec.ofNat 16 layer, src, dst, blockLen s p ts, false⟩] } }
    let (bad, s) := withJerr (false, setPhases s q layer 2)
    if bad then (.bad, s) else
    if p.lagged ∧ p.replicas ≤ 1 then
      let (b, s) := gatherLayer q layer s
      (if b then .bad else .go, s)
    else (.go, s)

/-- The LAYER takes part in the outer step of the pass in progress. -/
def layerOuter (s : State) (q : Pass2) (layer : Nat) : Bool := (descsOf s layer).any fun i => needsOuter q (ldesc s i)

/-- Every descriptor of the LAYER that takes part has reached phase `ph`. -/
def layerPhase (s : State) (q : Pass2) (layer ph : Nat) : Bool :=
  (descsOf s layer).all fun i => !(needsOuter q (ldesc s i)) || decide (ph ≤ phaseOf s i)

end Sys2Proof.Machine
end

