-- ==== Sys2Proof/Machine/Finisher.lean ====
section
/-! DEFINITION. Machine/Finisher.lean: the Finisher (R289 to R293): the chunks it computes and those it fetches, the end of its
work. -/
namespace Sys2Proof.Machine
open Sys2Proof

/-- The Finisher is at work on a step. -/
def finActive (s : State) : Bool := s.upd.p2.isSome && (s.upd.fault || s.upd.replay.isSome || decide (s.img.st = .shadow))

/-- A chunk that is not written and that the Finisher cannot compute: one of the matrix rule, one partly written, or one
whose inputs it found in error (R250). -/
def needFetch (s : State) (i k : Nat) : Bool :=
  !lFrozen (ldesc s i) && !chunkDone s i k && (decide (lRule (ldesc s i) = 1) || decide (chunkKey i k ∈ s.upd.partly))

/-- A tile whose outer step is not done. -/
def needTile (s : State) (q : Pass2) (i t : Nat) : Bool :=
  needsOuter q (ldesc s i) && decide (t < nChunks (ldesc s i)) && chunksDone s i &&
  decide (phaseOf s i < 5) && (if t ∈ ownedTiles s (ldesc s i) then !tileDone s i t else decide (chunkKey i t ∉ s.upd.tiles))

/-- A stack stands in EMERGENCY. -/
def anyEmergency (s : State) : Bool := allDies.any fun n => s.mem.st[n].emergency

/-- The Finisher computes one chunk. One that it cannot is left to be fetched, but for a stack in EMERGENCY, which it waits
for. -/
def finChunk (q : Pass2) (i k : Nat) (s : State) : State :=
  if s.upd.p2 = some q ∧ !(chunkDone s i k) ∧ !(needFetch s i k) then
    let (bad, s) := pass2Chunk q i k s
    if bad && !(anyEmergency s) then markPartly s i k else s
  else s

/-- Compute every chunk the Finisher can compute, in order. The fence of R70 holds for it too. -/
def finCompute (s : State) : State :=
  match s.upd.p2 with
  | none => s
  | some q =>
    (List.range (ndesc s)).foldl (fun s i =>
      if lFrozen (ldesc s i) || decide (lRule (ldesc s i) = 1) then s
      else if maqFence s (lLayer (ldesc s i)) then rsEvent s rStepStat 6
      else (List.range (nChunks (ldesc s i))).foldl (fun s k => finChunk q i k s) s) s

/-- The Finisher takes up the journal (R288): it reads it, and notes there that it completes the step. True where the journal
meets an error. -/
def takeJournal (s : State) : Bool × State :=
  let (bad, s) := readJournal s
  if bad then (true, s)
  else withJerr (false, jput s (journalAt s + 0x11) (leBytes 1 (peekNat s (journalAt s + 0x11) 1 ||| 4)))

/-- The U streams of a step that the Finisher has completed go on at the step's STEP_END (R289 item 6). -/
def resumeU (att : DWord) (s : State) : State :=
  forDies (fun d s =>
    let x := str s d .u
    if x.inBody && x.pass2 && decide (x.attempt = att) then
      updStr s d .u fun x =>
        { x with pc := x.endAddr, expect := x.endSeq, st := .issuing, pass2 := false, cur := none, waitRef := none }
    else s) s

/-- The stop that follows a completed pass-2 fault, if one does (R289): EMERGENCY, CD out of service, and causes
already requested. -/
def finStop (s : State) : Option Nat :=
  if s.img.stop = 7 then some 7
  else if fld (reg s rUpdErrInfo) 7 4 = 3 then some 9
  else if fld (reg s rUpdErrInfo) 7 4 = 4 then some 10
  else none

/-- The Finisher has completed the step of a pass-2 fault (R289 items 5 and 6). -/
def finishFault (s : State) (q : Pass2) : State :=
  let s := rsEvent s rUpdStat 8
  let s := updAttempt s q.att fun a => { a with finisher := true }
  let s := match attempt s q.att with
    | some a => endClear s a
    | none => s
  let left : List (Nat × Fin 32768) := match updParams s with
    | some p => p.commitObjs.filter fun o => decide (o.2.val ∉ s.upd.signalled)
    | none => []
  let s := left.foldl (fun s o => signalPlinth s o.2) s
  let run := s.upd.finRun + 1
  let s := { s with upd := { s.upd with fault := false, fin := .idle, finRun := run, finWaitStack := false, tries := 0 } }
  let limit := match updParams s with | some p => p.finishLimit | none => 0
  match finStop s with
  | some c => stopImage s c
  | none =>
    if limit ≠ 0 ∧ limit ≤ run then stopImage (rsEvent s rUpdStat 10) 12
    else resumeU q.att s

/-- The Finisher has completed a step: FINISHED, and what its case asks for. In journal replay object 4 is
signalled (R437). -/
def finished (s : State) (q : Pass2) : State :=
  if s.upd.replay.isSome then
    let s := rsEvent s rUpdStat 8
    let s := { s with upd := { s.upd with replay := none, fin := .idle, tries := 0 } }
    signalUnit s 4
  else if s.upd.fault then finishFault s q
  else s

/-- `finished`, once nothing of the pass is left. -/
def settleFin (q : Pass2) (s : State) : State := if s.upd.p2.isNone then finished s q else s

/-! ### Fetched chunks (R292) -/

/-- Peers the Finisher may ask: those of the platform image in journal replay, and otherwise the other replicas of
the site, or the other sites for an outer tile. -/
def fetchPeers (s : State) (outer : Bool) : Nat :=
  if s.upd.replay.isSome then
    match s.plat with
    | some i => if outer then i.peersC.length else i.peersB.length
    | none => 0
  else match updParams s with
    | some p => (if outer then p.sites else p.replicas) - 1
    | none => 0

/-- No peer answered with the step (R292): FINISH_FAIL. A journal replay ends with REPLAY_FAIL (R437); a running
image stops (R289). -/
def finishFail (s : State) : State :=
  let s := rsEvent s rUpdStat 9
  if s.upd.replay.isSome then
    signalUnit (rsEvent { s with upd := { s.upd with replay := none, p2 := none, fin := .idle, tries := 0 }, start := { s.start with replayFail := true } } rStartErr 8) 4
  else stopImage s 11

/-- A peer did not answer with the step: the next is asked. With none left, a LAYER whose dbar no other site holds is
reduced again among the sites left (R286), and any other chunk is beyond the Finisher. -/
def nextPeer (s : State) (layer : Nat) (outer : Bool) : State :=
  let t := s.upd.tries + 1
  let s := { s with upd := { s.upd with tries := t } }
  if t < fetchPeers s outer then s
  else if outer && decide (layer ∈ s.upd.seek) then
    { s with upd := { s.upd with tries := 0, seek := s.upd.seek.filter fun l => decide (l ≠ layer) } }
  else finishFail s

/-- Bytes of an inner chunk as a peer supplies it: master, state and working copy. -/
def innerLen (l : BitVec 1024) (k : Nat) : Nat :=
  chunkLen l k * (8 + (if lRule l = 0 then 4 else 0) + wcBytes l)

/-- Write the master, state and working copy of a chunk from a peer's bytes; true on failure. -/
def putInner (s : State) (l : BitVec 1024) (k : Nat) (bs : List Byte) : Bool × State :=
  let n := chunkLen l k
  let o := chunkElems * k
  let two := decide (lRule l = 0)
  let (b1, s) := updWrite s (lW l + 4 * o) (bs.take (4 * n))
  let (b2, s) := updWrite s (lS1 l + 4 * o) ((bs.drop (4 * n)).take (4 * n))
  let (b3, s) := if two then updWrite s (lS2 l + 4 * o) ((bs.drop (8 * n)).take (4 * n)) else (false, s)
  let (b4, s) := updWrite s (lWc l + wcBytes l * o) (bs.drop (if two then 12 * n else 8 * n))
  (b1 || b2 || b3 || b4, s)

/-- Bytes of an outer tile as a peer supplies it: A, u, master and working copy. -/
def outerLen (l : BitVec 1024) (t : Nat) : Nat := chunkLen l t * (12 + wcBytes l)

/-- Write the planes of the j-th of `cnt` owned tiles from a peer's bytes: the residual becomes 0 and is counted. -/
def putOuter (s : State) (l : BitVec 1024) (t j cnt : Nat) (bs : List Byte) : Bool × State :=
  let n := chunkLen l t
  let (b1, s) := updWrite s (planeA l j) (bs.take (4 * n))
  let (b2, s) := updWrite s (planeU l cnt j) ((bs.drop (4 * n)).take (4 * n))
  let (b3, s) := updWrite s (lW l + 4 * chunkElems * t) ((bs.drop (8 * n)).take (4 * n))
  let (b4, s) := updWrite s (lWc l + wcBytes l * chunkElems * t) (bs.drop (12 * n))
  let (b5, s) := updWrite s (planeE l cnt j) (List.replicate (2 * n) 0)
  (b1 || b2 || b3 || b4 || b5, rsEvent (addReg s rUpdResidLost 1) rUpdStat 6)

/-- The outer step of a descriptor's tiles is done: GATHERED when every tile's is, APPLIED when that of the owned ones is. -/
def closeTiles (s : State) (i : Nat) : State :=
  let own := ownedTiles s (ldesc s i)
  if !(own.all (tileDone s i)) then s
  else if (List.range (nChunks (ldesc s i))).all fun t => decide (t ∈ own) || decide (chunkKey i t ∈ s.upd.tiles) then
    tryCommit (setPhase s i 5)
  else if phaseOf s i < 4 then setPhase s i 4 else s

/-- A tile's outer step is done by a fetch. -/
def tileFetched (s : State) (i t : Nat) : State :=
  closeTiles { s with upd := { s.upd with tiles := chunkKey i t :: s.upd.tiles, tries := 0 } } i

/-- An owned tile's outer step is done by a fetch: NEXT_APPLY goes beyond it. -/
def ownFetched (s : State) (i t : Nat) : State :=
  let s := { s with upd := { s.upd with partly := s.upd.partly.filter fun x => decide (x ≠ tileKey s i t) } }
  tileFetched (jput s (progAt s i (chunkDie s (ldesc s i) t) + 4) (leBytes 4 (t + 1))) i t

/-- Take what a peer supplied for one chunk or tile. Tiles that the module owns are numbered from the number of
chunks on. -/
def takeFetch (s : State) (i chunk : Nat) (data : List Byte) : State :=
  let l := ldesc s i
  let nc := nChunks l
  if chunk < nc then
    if data.length ≠ innerLen l chunk then s else
    let inner := !(chunkDone s i chunk)
    let (b, s) := putInner s l chunk data
    if b then markPartly s i chunk
    else if inner then finishDescs (advanceChunk { s with upd := { s.upd with tries := 0 } } i chunk)
    else tileFetched s i chunk
  else
    let t := chunk - nc
    let own := ownedTiles s l
    if data.length ≠ outerLen l t then s else
    let (b, s) := putOuter s l t (own.idxOf t) own.length data
    if b then s else ownFetched s i t

end Sys2Proof.Machine
end

