-- ==== Sys2Proof/Machine/Collectives.lean ====
section
/-! DEFINITION. Machine/Collectives.lean: the collective engine (R191, R269, R326 to R329, R352 to R364): schedules, grants,
sending, in-flight reduction, timers, verdicts and errors. -/
namespace Sys2Proof.Machine
open Sys2Proof

/-! ### Elements of a format in memory -/

/-- Bytes of `n` elements on the wire: whole block groups in an MX format. -/
def wireBytes (f n : Nat) : Nat := if isMx f then ceilDiv n 2048 * groupBytes f else packedBytes f n

/-- FP32 values from wire bytes (R152). -/
def decWire (f n : Nat) (bs : List Byte) : List Word :=
  if isMx f then decGroups f (n + 1) n bs
  else (List.range n).map fun i => loadElem f (unpackElem f bs i) none

/-- Wire bytes of FP32 values, rounded by R134 with SAT off or by R135. -/
def encWire (f : Nat) (ws : List Word) : List Byte :=
  if isMx f then encGroups f (ws.map dec32)
  else packElems f (ws.map fun w => (fmtEncode f false (dec32 w)).1)

/-- Byte offset of element `e` of a region that is not MX. -/
def elemOff (f e : Nat) : Nat := e * fmtBits f / 8

/-- Byte offsets, within an MX region, of the elements and of the scale of block `b`. -/
def blockOff (f b : Nat) : Nat := b / 64 * groupBytes f + packedBytes f (32 * (b % 64))
def scaleOff (f b : Nat) : Nat := b / 64 * groupBytes f + packedBytes f 2048 + b % 64

/-- Read the blocks `b`, `b` + 1, … of an MX region. -/
def readBlocksMx (base f : Nat) : Nat → Nat → State → Option (List Word) × State
  | 0, _, s => (some [], s)
  | k + 1, b, s =>
    match updRead s (base + blockOff f b) (packedBytes f 32) with
    | (none, s) => (none, s)
    | (some e, s) => match updRead s (base + scaleOff f b) 1 with
      | (none, s) => (none, s)
      | (some x, s) => match readBlocksMx base f k (b + 1) s with
        | (none, s) => (none, s)
        | (some ws, s) => (some ((List.range 32).map (fun i => loadElem f (unpackElem f e i) (some (leNat x))) ++ ws), s)

/-- Read `n` elements from element `e` of the region at `base`; none on an error. -/
def readFmt (s : State) (base f e n : Nat) : Option (List Word) × State :=
  if isMx f then
    match readBlocksMx base f (ceilDiv n 32) (e / 32) s with
    | (some ws, s) => (some (ws.take n), s)
    | r => r
  else match updRead s (base + elemOff f e) (packedBytes f n) with
    | (some bs, s) => (some (decWire f n bs), s)
    | (none, s) => (none, s)

/-- Write one MX block. -/
def writeBlockMx (base f : Nat) (acc : Bool × State) (b : Nat) (ws : List Word) : Bool × State :=
  let (x, cs) := mxEncode f ((ws ++ List.replicate (32 - ws.length) 0).map dec32)
  let r1 := updWrite acc.2 (base + blockOff f b) (packElems f cs)
  let r2 := updWrite r1.2 (base + scaleOff f b) (leBytes 1 x)
  (acc.1 || r1.1 || r2.1, r2.2)

/-- Write FP32 values as elements of a format, from element `e` of the region at `base`; true on failure. -/
def writeFmt (s : State) (base f e : Nat) (ws : List Word) : Bool × State :=
  if isMx f then
    ((chop 32 (ws.length + 1) ws).zipIdx).foldl (fun acc (b, i) => writeBlockMx base f acc (e / 32 + i) b) (false, s)
  else updWrite s (base + elemOff f e) (packElems f (ws.map fun w => (fmtEncode f false (dec32 w)).1))

/-! ### Descriptor fields (R191) and rounds (R352) -/

def cSched (w : BitVec 512) : Nat := dfld w 0xC 2
def cSrc (w : BitVec 512) : Nat := dfld w 0x10 8
def cDst (w : BitVec 512) : Nat := dfld w 0x18 8
def cFmt (w : BitVec 512) : Nat := dfld w 0xF 1
def cBytes (w : BitVec 512) : Nat := dfld w 0x20 8
def cRedop (w : BitVec 512) : Nat := dfld w 0x2A 1
def cFirst (w : BitVec 512) : Nat := dfld w 0x28 1
def cCount (w : BitVec 512) : Nat := dfld w 0x29 1
def cTimeout (w : BitVec 512) : Nat := dfld w 0x2C 4
def cGuard (w : BitVec 512) : Bool := decide (cOp w = 4)

/-- The schedules of the active image. -/
def schedules (s : State) : List (List Round) := match s.img.sec with | some sec => sec.schedules | none => []

/-- No rank. -/
def noRank : Half := 0xFFFF

/-- A round of GUARD_OR works on the guard record: 64 bytes, OR (R191). -/
def guardRound (r : Round) : Round :=
  { r with
    sendOff := 0, sendLen := if r.peer = noRank then 0 else 64, landOff := 0
    landLen := if r.peer = noRank ∧ r.sources = [] then 0 else 64, redop := 3, wire := 6, result := 6, sendDst := false
    srcFmt := 6, hasLocal := true, localDst := false, localOff := 0, localFmt := 6 }

/-- The sources of a round: the peer where the schedule lists none. -/
def srcsOf (r : Round) : List Half :=
  if r.landLen = 0 then [] else if r.sources = [] then (if r.peer = noRank then [] else [r.peer]) else r.sources

/-- Bytes that a round brings from each source. -/
def needOf (r : Round) : Nat := if srcsOf r = [] then 0 else wireBytes r.wire r.landLen

/-- The round sends. -/
def sends (r : Round) : Bool := decide (r.peer ≠ noRank) && decide (r.sendLen ≠ 0)

/-- A round reads of the die's input, which is BYTES long, no more than it holds. -/
def inputHolds (w : BitVec 512) (r : Round) : Bool :=
  (decide (r.peer = noRank) || r.sendDst || decide (r.sendLen = 0) || decide (wireBytes r.srcFmt (r.sendOff + r.sendLen) ≤ cBytes w)) &&
  (!r.hasLocal || r.localDst || decide (r.landLen = 0) || decide (wireBytes r.localFmt (r.localOff + r.landLen) ≤ cBytes w))

/-- A round and its descriptor agree: FMT is the round's wire format, REDOP the operation of a reducing round, and the
round keeps within BYTES. The descriptor and the schedule name these both, and the spec does not say what holds where
they differ: the descriptor is then DESC_FIELD (DESIGN CHOICE, log entry 78). -/
def roundAgrees (w : BitVec 512) (r : Round) : Bool :=
  cGuard w || (decide (cFmt w = r.wire) && (decide (r.redop = 0) || decide (cRedop w = r.redop)) && inputHolds w r)

/-- The rounds a descriptor runs; none when the schedule or a round does not exist, or a round does not agree with it. -/
def roundsOf (s : State) (w : BitVec 512) : Option (List CollRound) :=
  match (schedules s)[cSched w]? with
  | none => none
  | some rs =>
    if cFirst w + cCount w ≤ rs.length ∧ ((rs.drop (cFirst w)).take (cCount w)).all (roundAgrees w) then
      some (((rs.drop (cFirst w)).take (cCount w)).zipIdx.map fun (r, i) =>
        let r := if cGuard w then guardRound r else r
        { idx := cFirst w + i, r := r, granted := !(sends r), sent := !(sends r), got := (srcsOf r).map fun _ => 0 })
    else none

/-- Every rank that a list of rounds names is a member of the job. -/
def ranksOk (s : State) (rs : List CollRound) : Bool :=
  rs.all fun r => (decide (r.r.peer = noRank) || (rankMod s r.r.peer.toNat).isSome) &&
    (srcsOf r.r).all fun x => (rankMod s x.toNat).isSome

/-! ### Collectives in progress -/

/-- Find a collective by die and descriptor number. -/
def findColl (s : State) (d : Die) (i : Nat) : Option Coll :=
  s.coll.active.find? fun k => decide (k.d = d) && decide (k.i = i)

/-- Update a collective. -/
def updColl (s : State) (d : Die) (i : Nat) (f : Coll → Coll) : State :=
  { s with coll := { s.coll with active := s.coll.active.map fun k => if k.d = d ∧ k.i = i then f k else k } }

/-- Update one of its rounds. -/
def updRound (s : State) (d : Die) (i n : Nat) (f : CollRound → CollRound) : State :=
  updColl s d i fun k => { k with rounds := k.rounds.map fun r => if r.idx = n then f r else r }

/-- The dependency of a round has made its data final: it is complete, or lies outside the descriptor. -/
def depDone (k : Coll) (r : CollRound) : Bool :=
  match r.r.dep with
  | none => true
  | some n => match k.rounds.find? fun x => decide (x.idx = n) with
    | some x => x.fin
    | none => true

/-- The landing range of a round: none for a guard record or a round that receives nothing. -/
def landRange (k : Coll) (r : CollRound) : Option (Nat × Nat) :=
  if cGuard k.desc ∨ srcsOf r.r = [] then none
  else
    let at0 := if isMx r.r.result then r.r.landOff / 2048 * groupBytes r.r.result else elemOff r.r.result r.r.landOff
    some (cDst k.desc + at0, wireBytes r.r.result r.r.landLen)

/-- No other round granted and unfinished lands on the round's range (R353). -/
def landFree (s : State) (k : Coll) (r : CollRound) : Bool :=
  match landRange k r with
  | none => true
  | some (a, n) => s.coll.active.all fun k' => k'.rounds.all fun r' =>
      (decide (k'.d = k.d) && decide (k'.i = k.i) && decide (r'.idx = r.idx)) || !r'.grantOut || r'.fin ||
      match landRange k' r' with
      | some (b, m) => !(overlaps a n b m)
      | none => true

/-! ### Timers (R360) -/

/-- A peer that an unfinished round names holds the THERMAL_SLOW flag, or this module raises it. -/
def slowNow (s : State) (k : Coll) : Bool :=
  s.mem.slow || k.rounds.any fun r => !r.fin && (r.r.peer :: srcsOf r.r).any fun x =>
    match rankMod s x.toNat with
    | some m => decide (SMap.get 0 s.mem.peerSlow m.toNat ≠ 0)
    | none => false

/-- Bring a timer up to date, and set its rate. -/
def retimeColl (k : Coll) (s : State) : State :=
  let dt := s.clk - k.since
  let now := slowNow s k
  let s := if k.timed ∧ k.slow then { s with coll := { s.coll with stretchNs := s.coll.stretchNs + dt } } else s
  let s := if k.timed ∧ now ∧ ¬ k.slow then rsEvent s rCollErr 4 else s
  updColl s k.d k.i fun k =>
    { k with left4 := k.left4 - (if k.slow then dt else 4 * dt), since := s.clk, slow := now }

/-- Bring every timer up to date. -/
def retime (s : State) : State := s.coll.active.foldl (fun s k => retimeColl k s) s

/-! ### Verdicts (R50, R52) -/

/-- The guard reduction of an attempt ended in error (R52, R438): the verdict is not known, the streams are held,
and a peer's verdict record is asked for. -/
def indeterminate (s : State) (att : DWord) : State :=
  let s := updAttempt s att fun a => { a with verdict := some .indeterminate }
  let s := writeVerdict s att 3
  let s := rsEvent s rStepStat 8
  let ms := match s.plat with | some i => i.resolveTimeout | none => 0
  { s with step := { s.step with pollPeer := 0, pollAt := some (s.clk + 10000000),
                                 resolveAt := some (s.clk + ms * 1000000), resolveFailed := false } }

/-- The guard reduction of an attempt has completed: clear when no record held a cause (R50). -/
def guardVerdict (s : State) (att : DWord) (rec4 : Nat) : State :=
  match attempt s att with
  | none => s
  | some a =>
    if a.verdict.isSome then s
    else if rec4 % 128 = 0 then clearVerdict s att
    else
      let s := if a.causes = 0 then addCause s att gRemote 0xFFFF 0xFF else s
      setPoison s att

/-! ### Errors (R191, R363) -/

/-- Causes of COLL_ERR_INFO. -/
def ccTimeout : Nat := 1
def ccUnreach : Nat := 2
def ccMem : Nat := 3

/-- Every round lies on axis `a`. -/
def onAxis (a : Nat) (rs : List CollRound) : Bool := rs.all fun r => decide (r.r.axis.val = a)

/-- The site of a rank. -/
def rankSite (s : State) (r : Half) : Option Nat := (rankMod s r.toNat).map fun m => siteOf s.fab (rackOf m)

/-- A round names no site that a C-axis exchange lost (R286). -/
def roundKept (s : State) (r : CollRound) : Bool :=
  (r.r.peer :: srcsOf r.r).all fun x => decide (x = noRank) || match rankSite s x with
    | some n => decide (n ∉ s.upd.lost)
    | none => true

/-- The exchange that a collective works for, by the region it sends from and the one it lands in. -/
def pendOf (s : State) (k : Coll) : Option OuterPend :=
  (findPend s (dLayer k.desc).toNat).filter fun x =>
    decide (x.src = cSrc k.desc ∧ x.dst = cDst k.desc) && !x.ready && onAxis 2 k.rounds

/-- The rounds of a schedule that a rebuilt exchange runs (R286): those of the descriptor that name no lost site. -/
def keptRounds (s : State) (w : BitVec 512) : List CollRound := ((roundsOf s w).getD []).filter (roundKept s)

/-- A lagged exchange has ended in error: it begins again among the sites left, or is complete where none is left (R286).
Its rounds send their grants by GRANT_SEND. -/
def againLagged (s : State) (k : Coll) (x : OuterPend) : State :=
  let rs := keptRounds s k.desc
  if rs = [] then
    { s with upd := { s.upd with pend := s.upd.pend.map fun y => if y = x then { y with ready := true } else y } }
  else
    let n := (str s k.d .t).nextId
    let s := updStr s k.d .t fun y => { y with nextId := n + 1 }
    { s with coll := { s.coll with active := s.coll.active ++ [{ k with i := n, rounds := rs, left4 := cTimeout k.desc * 4000, since := s.clk }] } }

/-- What the error of a collective of a pass or of its outer step leaves to the Finisher (R286): a peer that did not
answer loses its site to the exchange; a lagged exchange begins again, and for any other the Finisher asks the peers
first. -/
def noteLost (s : State) (k : Coll) (cause : Nat) (peer : Half) : State :=
  let layer := (dLayer k.desc).toNat
  let s := match pendOf s k, rankSite s peer with
    | some _, some n => if cause ≠ ccMem ∧ n ∉ s.upd.lost then { s with upd := { s.upd with lost := s.upd.lost ++ [n] } } else s
    | _, _ => s
  match pendOf s k, updParams s with
  | some x, some p => if p.lagged then againLagged s k x else { s with upd := { s.upd with seek := layer :: s.upd.seek } }
  | none, some _ => if onAxis 1 k.rounds then { s with upd := { s.upd with seek := layer :: s.upd.seek } } else s
  | _, none => s

/-- A collective ends in error: recorded, ended, and its step dealt with as R363 says. Under a shadow image a list of rounds that ends
so is not begun again, and the module takes no update until recovery (DESIGN CHOICE, log entry 82). -/
def failColl (s : State) (k : Coll) (round cause : Nat) (peer : Half) (port : Nat) : State :=
  let s := rsEvent (collInfo s k round cause peer port) rCollErr (cause - 1)
  if s.img.st = .shadow then dropColl s k else
  let s := endColl s k
  let cd := BitVec.ofNat 8 k.d.val
  if verdictOf s k.att = some .clear then
    let s := noteLost s k cause peer
    (if s.upd.p2.any fun q => decide (q.att = k.att) then pass2Fault s (dLayer k.desc) cd p2Coll else s)
  else if cGuard k.desc then
    (if verdictOf s k.att = none ∧ (attempt s k.att).isSome then indeterminate (addCause s k.att gColl (dLayer k.desc) cd) k.att else s)
  else fastPoison s k.att gColl (dLayer k.desc) cd

/-! ### Sending (R353, R358) -/

/-- Bytes of payload that one packet carries (R299, R327). -/
def pktStep (f : Nat) : Nat :=
  if isMx f then groupBytes f * (if f = 12 then 3 else if f = 10 ∨ f = 11 then 2 else 1) else 4096

/-- Pad a payload to a multiple of 64 B. -/
def pad64 (bs : List Byte) : List Byte := bs ++ List.replicate ((64 - bs.length % 64) % 64) 0

/-- ADDR of COLL_GRANT and COLL_DATA (R300). -/
def collAddr (low round sched : Nat) : DWord := w64 (low % 2 ^ 40 + round % 256 * 2 ^ 40 + sched % 4096 * 2 ^ 48)

/-- Send the grants of a round to its sources. -/
def sendGrants (s : State) (k : Coll) (r : CollRound) : State :=
  let s := updRound s k.d k.i r.idx fun r => { r with grantOut := true }
  (srcsOf r.r).foldl (fun s x => match rankMod s x.toNat with
    | none => s
    | some m =>
      sendPkt s { blankPkt s ptCollGrant m 24 r.r.ep with
        addr := collAddr (needOf r.r) r.idx (cSched k.desc), txn := k.att.setWidth 16 }) s

/-- The data of a round's send; none on an error. -/
def sendData (s : State) (k : Coll) (r : Round) : Option (List Byte) × State :=
  if cGuard k.desc then (some k.record, s)
  else match readFmt s (if r.sendDst then cDst k.desc else cSrc k.desc) r.srcFmt r.sendOff r.sendLen with
    | (some ws, s) => (some (encWire r.wire ws), s)
    | (none, s) => (none, s)

/-- Send what is left of a round's data as packets to its peer, as far as its flow allows (R306). -/
def sendRound (s : State) (k : Coll) (r : CollRound) (m : Half) (data : List Byte) : State :=
  let st := pktStep r.r.wire
  let head : Packet := { blankPkt s ptCollData m r.r.ep (BitVec.ofNat 5 k.d.val) with
    fmt := BitVec.ofNat 8 (r.r.wire + 16 * r.r.redop), txn := k.att.setWidth 16 }
  let cs := chop st (data.length + 1) (data.drop r.pos)
  let n := min cs.length (collWindow - flowOut s head)
  let s := updRound s k.d k.i r.idx fun r => { r with pos := r.pos + n * st, sent := decide (n = cs.length) }
  ((cs.take n).zipIdx).foldl (fun s (c, i) =>
    sendCollPkt s (.coll k.d k.i r.idx)
      { head with addr := collAddr (r.pos + i * st) r.idx (cSched k.desc), payload := pad64 c }) s

/-! ### Receiving (R326) -/

/-- Combine two values: SUM, MAX, or OR of the codes of the result format (of the FP32 bits where that is MX). -/
def combine (redop res : Nat) (a b : Word) : Word :=
  match redop with
  | 2 => fmax a b
  | 3 =>
    if isMx res then a ||| b
    else loadElem res ((fmtEncode res false (dec32 a)).1 ||| (fmtEncode res false (dec32 b)).1) none
  | _ => fadd a b

/-- The part of a round's landing range that a packet writes: none for a guard record. -/
def landSpan (k : Coll) (r : CollRound) (p : Packet) : Option (Nat × Nat) :=
  let f := p.fmt.toNat % 16
  let g := r.r.result
  let per (b : Nat) : Nat := if isMx f then b / groupBytes f * 2048 else b * 8 / fmtBits f
  let e := r.r.landOff + per (fld p.addr 39 0)
  let n := min (r.r.landLen - per (fld p.addr 39 0)) (per p.payload.length)
  if cGuard k.desc then none
  else if isMx g then some (cDst k.desc + e / 2048 * groupBytes g, wireBytes g (n + e % 2048))
  else some (cDst k.desc + elemOff g e, packedBytes g n)

/-- Combine the elements of an arrival with the value so far; without one, or without a REDOP, the arrival is the
value. -/
def combineAll (redop res : Nat) (old : Option (List Word)) (new : List Word) : List Word :=
  match old with
  | some ws => if redop = 0 then new else (ws.zip new).map fun (a, b) => combine redop res a b
  | none => new

/-- Add arrivals that are next in the order of sources, each by the REDOP of its packet. -/
def takeEarly (res : Nat) : Nat → CollAcc → CollAcc
  | 0, a => a
  | n + 1, a =>
    match a.early.find? fun e => decide (e.1 = a.next) with
    | none => a
    | some e => takeEarly res n
        { a with next := a.next + 1, vals := some (combineAll e.2.1 res a.vals e.2.2), early := a.early.filter fun x => decide (x.1 ≠ e.1) }

/-- The local operand of a run of elements; none inside when the round has none or its first packet reduces nothing. -/
def localOperand (s : State) (k : Coll) (r : Round) (redop start n : Nat) : Option (Option (List Word)) × State :=
  if !r.hasLocal ∨ redop = 0 then (some none, s)
  else if cGuard k.desc then (some (some (decWire 6 n (k.record.drop start))), s)
  else match readFmt s (if r.localDst then cDst k.desc else cSrc k.desc) r.localFmt (r.localOff + start) n with
    | (some ws, s) => (some (some ws), s)
    | (none, s) => (none, s)

/-- Write the result of a run of elements. -/
def writeResult (s : State) (k : Coll) (r : CollRound) (start : Nat) (ws : List Word) : Bool × State :=
  if cGuard k.desc then
    (false, updColl s k.d k.i fun k => { k with record := spliceBytes k.record start (encWire 6 ws) })
  else writeFmt s (cDst k.desc) r.r.result (r.r.landOff + start) ws

/-- Work on one run of elements of a round as far as its arrivals allow: true when the round must end with MEM
(R329). -/
def workAcc (k : Coll) (r : CollRound) (s : State) (a : CollAcc) : Bool × State :=
  let put (s : State) (x : Option CollAcc) : State := updRound s k.d k.i r.idx fun r =>
    { r with acc := (r.acc.filter fun y => decide (y.start ≠ a.start)) ++ x.toList }
  match a.early.find? fun e => decide (e.1 = a.next) with
  | none => (false, s)
  | some e =>
  let first := if a.next = 0 ∧ a.vals.isNone then localOperand s k r.r e.2.1 a.start e.2.2.length else (some a.vals, s)
  match first with
  | (none, s) => (true, s)
  | (some v, s) =>
    let b := takeEarly r.r.result (srcsOf r.r).length { a with vals := v }
    if b.next < (srcsOf r.r).length then (false, put s (some b))
    else
      let (bad, s) := writeResult s k r a.start (b.vals.getD [])
      (bad, put s none)

/-! ### Progress -/

/-- Packets of a round that have no acknowledgement. -/
def roundOuts (s : State) (k : Coll) (n : Nat) : Nat :=
  (s.fab.outs.filter fun o => decide (o.user = .coll k.d k.i n)).length

/-- The round has sent, been acknowledged, and received everything (R353). -/
def roundDone (s : State) (k : Coll) (r : CollRound) : Bool :=
  r.sent && decide (roundOuts s k r.idx = 0) && r.got.all (fun g => decide (needOf r.r ≤ g)) && decide (r.acc = [])

/-- A round that is granted sends: it takes a transaction entry, where one is free (R307), and then its data. True when its source
meets an error. -/
def sendPart (k : Coll) (r : CollRound) (s : State) : Bool × State :=
  match rankMod s r.r.peer.toNat, (match r.entry with | some e => some e | none => freeTxn s false) with
  | some m, some e =>
    let s := if r.entry.isSome then s else updRound (useTxn s e).2 k.d k.i r.idx fun r => { r with entry := some e }
    match sendData s k r.r with
    | (some bs, s) => (false, sendRound s k r m bs)
    | (none, s) => (true, s)
  | _, _ => (false, s)

/-- One look at one round: send its data, work on its arrivals, and complete it. Arrivals that are only written need not wait for
the round's dependency (R318). -/
def workRound (d : Die) (i n : Nat) (s : State) : State :=
  match findColl s d i with
  | none => s
  | some k =>
    match k.rounds.find? fun r => decide (r.idx = n) with
    | none => s
    | some r =>
      if r.fin then s else
      let (bad, s) := if r.granted && !r.sent && depDone k r then sendPart k r s else (false, s)
      if bad then failColl s k n ccMem r.r.peer (roundPort s r.r)
      else
        let ready (a : CollAcc) : Bool := depDone k r || a.early.all fun e => decide (e.2.1 = 0)
        let (bad, s) := (r.acc.filter ready).foldl (fun acc a => if acc.1 then acc else workAcc k r acc.2 a) (false, s)
        if bad then failColl s k n ccMem r.r.peer (roundPort s r.r)
        else match findColl s d i with
          | none => s
          | some k => match k.rounds.find? fun r => decide (r.idx = n) with
            | none => s
            | some r =>
              let s := if r.sent && decide (roundOuts s k n = 0) then updRound s d i n fun r => { r with entry := none } else s
              if depDone k r && roundDone s k r then updRound s d i n fun r => { r with fin := true } else s

/-- Rounds complete in turn, and each may let others go on. -/
def progress (d : Die) (i : Nat) (s : State) : State :=
  match findColl s d i with
  | none => s
  | some k =>
    let ns := k.rounds.map (·.idx)
    retime (loopN (ns.length + 1) (fun _ s => ns.foldl (fun s n => workRound d i n s) s) s)

/-- Use the grants in hand for the rounds of a collective. -/
def useGrants (d : Die) (i : Nat) (s : State) : State :=
  match findColl s d i with
  | none => s
  | some k => k.rounds.foldl (fun s r =>
      if r.granted then s else
      match rankMod s r.r.peer.toNat with
      | none => s
      | some m =>
        let g := (cSched k.desc, r.idx, m, k.att.setWidth 16)
        if g ∈ s.coll.grants then
          updRound { s with coll := { s.coll with grants := s.coll.grants.erase g } } d i r.idx fun r => { r with granted := true }
        else s) s

/-! ### Issue (R191) -/

/-- The guard record of an attempt: cause bits and attempt number (R50). -/
def guardRecord (s : State) (att : DWord) : List Byte :=
  let c := match attempt s att with | some a => a.causes.toNat | none => 0
  leBytes 4 c ++ leBytes 8 att.toNat ++ leBytes 52 0

/-- The schedule that reduces the norms (R269). -/
def isNorm (s : State) (w : BitVec 512) : Bool :=
  match params s with | some p => decide (p.normSched = some (cSched w)) && !cGuard w | none => false

/-- The schedule by which a replica agrees on a layer's stash (R59). -/
def isStash (s : State) (w : BitVec 512) : Bool :=
  match params s with | some p => decide (p.stashSched = some (cSched w)) && !cGuard w | none => false

/-- The module's pool cannot hold the full stash of a layer that is in full mode (R59). -/
def stashLacks (s : State) (att : DWord) (layer : Nat) : Bool :=
  match stashPlan s layer with
  | some l => l.full && !(recomputeFlag s att layer) && !(poolFits l.fullPages (stashFree s))
  | none => false

/-- What the module sends in that agreement: FP32 one when its pool is short, else zero. -/
def stashVote (s : State) (att : DWord) (layer : Nat) : List Byte :=
  leBytes 4 (if stashLacks s att layer then 0x3F800000 else 0)

/-- The agreement has ended: a result that is not zero says that some module of the replica is short. Once the layer's mode
is settled it does not change (R179). -/
def stashAgreed (s : State) (k : Coll) : State :=
  if stashSettled s k.att (dLayer k.desc).toNat then s else
  match readWs s (cDst k.desc) 1 with
  | (some [w], s) => if w.toNat % 2 ^ 31 = 0 then s else stashFallback s k.att (dLayer k.desc).toNat
  | (_, s) => stashFallback s k.att (dLayer k.desc).toNat

/-- The collective exchanges the LAYER's outer deltas over the C axis in the pass in progress: its descriptors are DONE or
SENT. -/
def isExchange (s : State) (x : Stream) (w : BitVec 512) (rs : List CollRound) : Option Pass2 :=
  match s.upd.p2 with
  | some q =>
    if q.att = x.attempt ∧ layerOuter s q (dLayer w).toNat ∧ onAxis 2 rs ∧
      layerPhase s q (dLayer w).toNat 1 ∧ !(layerPhase s q (dLayer w).toNat 3) then some q else none
  | none => none

/-- The collective makes a sum over the A axis for phase 2 of the matrix rule (R274): it runs NS_SCHED for a descriptor of
its LAYER in the pass in progress. -/
def isNsSum (s : State) (att : DWord) (w : BitVec 512) : Bool :=
  (s.upd.p2.any fun q => decide (q.att = att)) && !cGuard w &&
  (descsOf s (dLayer w).toNat).any fun i =>
    let l := ldesc s i
    decide (lRule l = 1) && decide (lShards l ≠ 1) && !lFrozen l && decide (lNsSched l = cSched w)

/-- The module's part of the next sum over the A axis goes to the collective's source region. The matrices of a LAYER take
their sums in list order (DESIGN CHOICE, log entry 79); with none ready the collective waits for the U stream. -/
def nsSend (s : State) (w : BitVec 512) : ExStart × State :=
  match s.upd.ns.find? fun n => n.src.isNone && decide (lLayer (ldesc s n.i) = (dLayer w).toNat) with
  | none => (.wait, s)
  | some n =>
    let (bad, s) := updWrite s (cSrc w) (bytesOf (nsPart s n))
    if bad then (.bad, s)
    else (.go, { s with upd := { s.upd with ns := s.upd.ns.map fun m => if m.i = n.i then { m with src := some (cSrc w) } else m } })

/-- The collective gathers the LAYER's new masters over the B axis in the pass in progress. -/
def isGather (s : State) (att : DWord) (w : BitVec 512) (rs : List CollRound) : Option Pass2 :=
  match s.upd.p2, updParams s with
  | some q, some p =>
    if q.att = att ∧ cOp w = 1 ∧ layerOuter s q (dLayer w).toNat ∧ onAxis 1 rs ∧
      layerPhase s q (dLayer w).toNat (if p.lagged then 2 else 4) then some q else none
  | _, _ => none

/-- What a collective of the guard or the update prepares before it starts: the norms and the guard record, the
module's own norm vector, its vote on a stash, its part of a sum of the matrix rule, or the deltas of the outer step. -/
def prepare (s : State) (x : Stream) (w : BitVec 512) (rs : List CollRound) : ExStart × State :=
  if cGuard w then (.go, ensureNorms s x.attempt)
  else if isNorm s w ∧ x.inBody then (.go, memPut s (cSrc w) (bytesOf (ownSums s)))
  else if isStash s w ∧ x.inBody then (.go, memPut s (cSrc w) (stashVote s x.attempt (dLayer w).toNat))
  else if isNsSum s x.attempt w && nsWaits s (dLayer w).toNat then nsSend s w
  else match isExchange s x w rs with
    | some q => exchangeStart q (dLayer w).toNat (cSrc w) (cDst w) s
    | none => (.go, s)

/-- The reductions of the gradients over the B axis name the replicas of the step (R268): their peers are noted. -/
def noteReds (s : State) (att : DWord) (w : BitVec 512) (rs : List CollRound) : State :=
  if cGuard w || isNorm s w || isStash s w || (decide (cOp w ≠ 0) && decide (cOp w ≠ 2)) || (verdictOf s att).isSome then s else
  rs.foldl (fun s r =>
    let x := (att, r.r.peer)
    if r.r.axis.val = 1 ∧ r.r.redop ≠ 0 ∧ r.r.peer ≠ noRank ∧ x ∉ s.upd.redPeers then
      { s with upd := { s.upd with redPeers := x :: s.upd.redPeers } } else s) s

/-- A collective starts: its rounds that can send their grants do, and those granted go on. -/
def launch (k : Coll) (s : State) : State :=
  let s := retime { s with coll := { s.coll with active := s.coll.active ++ [k] } }
  let s := k.rounds.foldl (fun s r => match findColl s k.d k.i with
    | some k => if srcsOf r.r ≠ [] ∧ landFree s k r then sendGrants s k r else s
    | none => s) s
  progress k.d k.i (useGrants k.d k.i s)

/-! ### The rounds of a shadow image (R442) -/

/-- The descriptor that stands for list `j` of the SHADOW section: it names schedule `j` and address 0. DESIGN CHOICE (log entry 82):
list 0 holds the rounds of every site step, by which the reduced gradients come, and list 1 those of the gather of an outer
step; the number of a list is the schedule number of its packets, and its landing ranges are module addresses. -/
def shadowDesc (j : Nat) : BitVec 512 := BitVec.ofNat 512 (j * 2 ^ 96)

/-- A list of rounds of the SHADOW section. -/
def shadowRounds (s : State) (j : Nat) : List CollRound :=
  match s.img.sec with
  | some sec => (sec.shadow.getD j []).zipIdx.map fun (r, i) =>
      { idx := i, r := r, granted := !(sends r), sent := !(sends r), got := (srcsOf r).map fun _ => 0 }
  | none => []

/-- A list of rounds of the SHADOW section has brought everything. -/
def shadowTook (j : Nat) (s : State) : State :=
  if j = 0 then { s with upd := { s.upd with shadowGot := true } } else { s with upd := { s.upd with shadowOuter := true } }

/-- The collective engine runs a list of the SHADOW section on the step unit's behalf. -/
def startShadow (j : Nat) (s : State) : State :=
  let rs := shadowRounds s j
  if rs = [] then shadowTook j s
  else
    let n := (str s 0 .t).nextId
    let s := updStr s 0 .t fun y => { y with nextId := n + 1 }
    launch { d := 0, i := n, desc := shadowDesc j, att := s.upd.shadowAtt, rounds := rs, record := [], timed := false, left4 := 0,
             since := s.clk, pass2 := false } s

/-- A shadow image follows the site to attempt `att`: its rounds begin. -/
def shadowAt (att : DWord) (s : State) : State :=
  let s := s.coll.active.foldl dropColl s
  startShadow 0 { s with upd := { s.upd with shadowAtt := att, shadowGot := false, shadowOuter := false } }

/-- A shadow image's update of a step has ended: the next attempt follows. -/
def shadowNext (s : State) : State :=
  if s.img.st = .shadow ∧ s.upd.p2.isNone then shadowAt (s.upd.shadowAtt + 1) s else s

/-- A COLLECTIVE issues. A schedule or round that does not exist is DESC_FIELD, a rank outside the job DESC_REF with
NO_RANK (R296). -/
def runColl (d : Die) (c : Sid) (w : BitVec 512) (s : State) : State :=
  match roundsOf s w with
  | none => curFault s d c fField w
  | some rs =>
    if !ranksOk s rs then curFault (fabErr s 1 (blankPkt s ptCollData 0 0 (BitVec.ofNat 5 d.val)) none) d c fRef w
    else if 4 ≤ inUnit (str s d c) .collective then waitUnit s d c false
    else match prepare s (str s d c) w rs with
      | (.wait, s) => waitUnit s d c false
      | (.bad, s) => pass2Fault s (dLayer w) (BitVec.ofNat 8 d.val) p2Coll
      | (.go, s) =>
        let x := str s d c
        let e := entryOf x .collective w
        let k : Coll := { d := d, i := e.id, desc := w, att := x.attempt, rounds := rs
                          record := if cGuard w then guardRecord s x.attempt else []
                          timed := decide (cTimeout w ≠ 0), left4 := cTimeout w * 4000, since := s.clk
                          pass2 := decide (verdictOf s x.attempt = some .clear) }
        launch k (noteReds (startDesc s d c e) x.attempt w rs)

/-- REDUCE_SCATTER, ALL_GATHER, ALL_REDUCE, ALL_TO_ALL and GUARD_OR, by OP. -/
def doCollective (op : Nat) (d : Die) (c : Sid) (s : State) : State :=
  issueAs tCollective (fun w => decide (cOp w = op)) (runColl d c) d c s

/-! ### GRANT_SEND, COLLECTIVE_DONE, COLL_TIMEOUT -/

/-- GRANT_SEND: the grant of a round whose landing range has become free. -/
def doGrantSend (d : Die) (i n : Nat) (s : State) : State :=
  match findColl s d i with
  | none => s
  | some k => match k.rounds.find? fun r => decide (r.idx = n) with
    | none => s
    | some r => if !r.grantOut && !r.fin && decide (srcsOf r.r ≠ []) && landFree s k r then sendGrants s k r else s

/-- What follows a collective of the guard or the update when it completes: true when pass 2 met a fault. -/
def collResult (s : State) (k : Coll) : Bool × State :=
  if cGuard k.desc then (false, guardVerdict s k.att (leAt k.record 0 4))
  else if isNorm s k.desc ∧ (attempt s k.att).isSome ∧ verdictOf s k.att = none then
    match readWs s (cDst k.desc) (layerNos s).length with
    | (some ws, s) => (false, formNorms s k.att ws)
    | (none, s) => (false, formNorms s k.att [nan32])
  else if isStash s k.desc ∧ (attempt s k.att).isSome then (false, stashAgreed s k)
  else match s.upd.ns.find? fun n => isNsSum s k.att k.desc && decide (n.src = some (cSrc k.desc)) with
    | some n =>
      match readWs s (cDst k.desc) (nsPart s n).length with
      | (some ws, s) => (false, nsTake s n ws)
      | (none, s) => (true, s)
    | none => match isGather s k.att k.desc k.rounds with
      | some q => gatherLayer q (dLayer k.desc).toNat s
      | none => match pendOf s k with
        | none => (false, s)
        | some x => match s.upd.p2 with
          | some q => exchangeDone q (dLayer k.desc).toNat s
          | none => (false, { s with upd := { s.upd with pend := s.upd.pend.map fun y => if y = x then { y with ready := true } else y } })

/-- COLLECTIVE_DONE: a collective whose rounds have all completed signals its DONE_REF. The rounds of a shadow image are no
COLLECTIVE descriptor. -/
def doCollectiveDone (d : Die) (i : Nat) (s : State) : State :=
  match findColl s d i with
  | none => s
  | some k =>
    if !(k.rounds.all (·.fin)) then s else
    if s.img.st = .shadow then shadowTook (cSched k.desc) (dropColl s k) else
    let s := retime s
    let s := { s with coll := { s.coll with active := s.coll.active.filter fun x => !(decide (x.d = d) && decide (x.i = i)) } }
    let s := addReg64 s rCollDone 1
    let q := s.upd.p2
    let (bad, s) := collResult s k
    let s := if bad then pass2Fault s (dLayer k.desc) (BitVec.ofNat 8 d.val) p2Coll else s
    let s := match q, s.upd.fault with
      | some q, true => settleFin q s
      | _, _ => s
    match findInflight (str s d .t) .collective i with
    | some e => completeDesc s d .t e
    | none => s

/-- COLL_TIMEOUT: the stretched timer of a collective expires (R360). One whose rounds have all completed stands (R353). -/
def doCollTimeout (d : Die) (i : Nat) (s : State) : State :=
  match findColl s d i with
  | none => s
  | some k =>
    if !k.timed || k.rounds.all (·.fin) then s else
    let s := advanceTo (k.since + (if k.slow then k.left4 else (k.left4 + 3) / 4)) s
    let s := retime s
    let (r, peer, port) := firstOpen s k
    failColl s k r ccTimeout peer port

/-! ### Arrivals: tags (R353) -/

/-- An attempt begun and not yet ended carries this tag. -/
def liveTag (s : State) (tag : Half) : Bool :=
  s.step.attempts.any fun a => !a.recorded && decide (a.att.setWidth 16 = tag)

/-- The module's own attempt: that of the step begun last, the attempt base while none has begun (R220), and under a shadow image
that of the site. -/
def ownAttempt (s : State) : DWord :=
  if s.img.st = .shadow then s.upd.shadowAtt
  else if s.step.attempts = [] ∧ s.step.endedSteps = 0 then s.img.attBase
  else reg64 s rSyncAttempt

/-- How far a tag lies from the module's own attempt: 0 for any attempt in progress. -/
def tagDist (s : State) (tag : Half) : Int :=
  if liveTag s tag then 0
  else serialDiff 16 tag.toNat ((ownAttempt s).setWidth 16 : Half).toNat

/-- A grant or packet of another attempt is discarded. -/
def stale (s : State) : State := rsEvent (addReg s rCollStale 1) rCollErr 3

/-- Let every collective in progress use grants and go on. -/
def progressAll (s : State) : State :=
  s.coll.active.foldl (fun s k => progress k.d k.i (useGrants k.d k.i s)) s

/-- A COLL_GRANT arrives. -/
def takeGrant (p : Packet) (s : State) : State :=
  let k := tagDist s p.txn
  if k ≠ 0 ∧ k ≠ 1 then stale s
  else
    let g := (fld p.addr 59 48, fld p.addr 47 40, p.srcMod, p.txn)
    progressAll { s with coll := { s.coll with grants := s.coll.grants ++ [g] } }

/-- The collective, round and source place that a COLL_DATA packet belongs to. Its endpoint is the die that owns the round, or the
Plinth's (R295). -/
def dataRound (s : State) (p : Packet) : Option (Coll × CollRound × Nat) :=
  s.coll.active.findSome? fun k =>
    if cSched k.desc = fld p.addr 59 48 ∧ k.att.setWidth 16 = p.txn ∧ (p.dstEp.toNat = 24 ∨ p.dstEp.toNat = k.d.val) then
      match k.rounds.find? fun r => decide (r.idx = fld p.addr 47 40) && !r.fin with
      | some r =>
        let ms := (srcsOf r.r).map fun x => rankMod s x.toNat
        if some p.srcMod ∈ ms then some (k, r, ms.idxOf (some p.srcMod)) else none
      | none => none
    else none

/-- Add an arrival to the runs of a round. -/
def addArrival (acc : List CollAcc) (start i redop : Nat) (ws : List Word) : List CollAcc :=
  if acc.any fun a => decide (a.start = start) then
    acc.map fun a => if a.start = start then { a with early := a.early ++ [(i, redop, ws)] } else a
  else acc ++ [⟨start, 0, none, [(i, redop, ws)]⟩]

/-- A COLL_DATA packet arrives in flow order. -/
def takeData (p : Packet) (s : State) : State :=
  if tagDist s p.txn ≠ 0 then stale s
  else match dataRound s p with
    | none => s
    | some (k, r, i) =>
      let f := p.fmt.toNat % 16
      let off := fld p.addr 39 0
      let n := min p.payload.length (needOf r.r - off)
      let per (b : Nat) : Nat := if isMx f then b / groupBytes f * 2048 else b * 8 / fmtBits f
      let start := per off
      let cnt := min (r.r.landLen - start) (per n)
      if cnt = 0 then s else
      let s := updRound s k.d k.i r.idx fun r =>
        { r with got := r.got.zipIdx.map (fun (g, j) => if j = i then g + n else g),
                 acc := addArrival r.acc start i (p.fmt.toNat / 16) (decWire f cnt p.payload) }
      progress k.d k.i s

end Sys2Proof.Machine
end

