-- ==== Sys2Proof/Machine/FinisherRun.lean ====
section
/-! DEFINITION. Machine/FinisherRun.lean: the Finisher at work (R289 to R293): the outer phases it performs, and the commands by
which its work goes on. -/
namespace Sys2Proof.Machine
open Sys2Proof

/-! ### Outer phases (R284 to R286, R291) -/

/-- A collective of a LAYER is in progress in the pass. -/
def layerBusy (s : State) (q : Pass2) (layer : Nat) : Bool :=
  s.coll.active.any fun k => decide (k.att = q.att) && decide ((dLayer k.desc).toNat = layer)

/-- The image's COLLECTIVE that carries a LAYER's outer step over an axis: the exchange over C, or the gather over B. -/
def layerColl (s : State) (layer axis : Nat) : Option (Die × BitVec 512 × List CollRound) :=
  (updImg s).colls.findSome? fun (d, w) =>
    if (dLayer w).toNat = layer ∧ !cGuard w ∧ !isNorm s w ∧ !isStash s w ∧ (axis ≠ 1 ∨ cOp w = 1) then
      match roundsOf s w with
      | some rs => if rs ≠ [] ∧ onAxis axis rs ∧ ranksOk s rs then some (d, w, rs) else none
      | none => none
    else none

/-- The collective engine runs a COLLECTIVE for the Finisher, outside every stream. -/
def finStart (q : Pass2) (d : Die) (w : BitVec 512) (rs : List CollRound) (s : State) : State :=
  let n := (str s d .t).nextId
  let s := updStr s d .t fun y => { y with nextId := n + 1 }
  launch { d := d, i := n, desc := w, att := q.att, rounds := rs, record := [], timed := decide (cTimeout w ≠ 0)
           left4 := cTimeout w * 4000, since := s.clk, pass2 := true } s

/-- The exchange of a LAYER, among the sites left; where none is left, its own block is the result (R286). -/
def finExchange (q : Pass2) (layer : Nat) (s : State) : State :=
  match layerColl s layer 2 with
  | none => s
  | some (d, w, _) => match exchangeStart q layer (cSrc w) (cDst w) s with
    | (.go, s) =>
      let rs := keptRounds s w
      if rs = [] then (exchangeDone q layer s).2 else finStart q d w rs s
    | (_, s) => s

/-- The gather of a LAYER's new masters. -/
def finGather (p : JobParams) (q : Pass2) (layer : Nat) (s : State) : State :=
  if p.replicas ≤ 1 then (gatherLayer q layer s).2
  else match layerColl s layer 1 with
    | some (d, w, rs) => finStart q d w rs s
    | none => s

/-- The Finisher takes a LAYER's outer step on from its journalled phase: it encodes and sends, applies, or gathers. It leaves a
LAYER alone whose chunks are not all written, that is fenced (R70), that a collective works on, or of which it asks the
peers. -/
def finLayer (q : Pass2) (layer : Nat) (s : State) : State :=
  match updParams s with
  | none => s
  | some p =>
    if s.upd.p2 ≠ some q ∨ !(layerOuter s q layer) ∨ !(layerPhase s q layer 1) ∨ layerPhase s q layer 5 ∨ maqFence s layer ∨
      layer ∈ s.upd.seek ∨ layerBusy s q layer then s
    else if s.img.st = .shadow then (if s.upd.shadowOuter then (gatherLayer q layer s).2 else s)
    else if layerPhase s q layer (if p.lagged then 2 else 4) then finGather p q layer s
    else if layerPhase s q layer 3 then
      match findPend s layer with
      | some x => (applyLayer p q x layer s).2
      | none => s
    else finExchange q layer s

/-- The outer phases of every LAYER, in order. -/
def finOuter (q : Pass2) (s : State) : State := (layerNos s).foldl (fun s layer => finLayer q layer s) s

/-- The SHADOW section lists a gather. -/
def shadowGathers (s : State) : Bool := decide (s.img.st = .shadow) && !(shadowRounds s 1).isEmpty

/-! ### FINISHER_COMPLETE -/

/-- FINISHER_COMPLETE: the Finisher goes on with the step from the journal, and ends it when nothing is left. It waits for a
stack in EMERGENCY that caused the fault, for chunks that must be fetched, and for collectives. Where it cannot read or
write its journal it cannot complete the step (DESIGN CHOICE, log entry 79). -/
def doFinisherComplete (s : State) : State :=
  match s.upd.p2 with
  | none => s
  | some q =>
    if !(finActive s) || (s.upd.finWaitStack && anyEmergency s) then s
    else
      let (bad, s) := takeJournal s
      if bad then (if anyEmergency s then s else finishFail s)
      else shadowNext (settleFin q (withJerr (false, finOuter q (finCompute s))).2)

/-! ### FINISHER_FETCH_DONE (R292) -/

/-- The result of a LAYER's exchange can come from no collective: the peers' is fetched. -/
def ownSought (s : State) (i : Nat) : Bool :=
  let layer := lLayer (ldesc s i)
  decide (layer ∈ s.upd.seek) ||
    ((layerColl s layer 2).isNone && (decide (phaseOf s i < 3) || decide (phaseOf s i = 3 ∧ findPend s layer = none)))

/-- The Finisher waits for this chunk, or for this tile of the outer step: an owned tile partly written or whose exchange has
no result, and another owner's that no gather brings. -/
def wantsFetch (s : State) (q : Pass2) (i chunk : Nat) : Bool :=
  let l := ldesc s i
  let nc := nChunks l
  decide (i < ndesc s) && !(maqFence s (lLayer l)) &&
  (if chunk < nc then
    needFetch s i chunk || (needTile s q i chunk && decide (chunk ∉ ownedTiles s l) &&
      (decide (lLayer l ∈ s.upd.seek) || ((layerColl s (lLayer l) 1).isNone && !(shadowGathers s))))
   else needTile s q i (chunk - nc) && decide (chunk - nc ∈ ownedTiles s l) &&
      (decide (tileKey s i (chunk - nc) ∈ s.upd.partly) || ownSought s i))

/-- FINISHER_FETCH_DONE: a peer answers, and only an answer at the step in hand is taken. -/
def doFinisherFetchDone (desc : Fin 4096) (chunk : Nat) (srcStep : Option DWord) (data : List Byte) (s : State) : State :=
  match s.upd.p2 with
  | none => s
  | some q =>
    let l := ldesc s desc.val
    if !(finActive s) || !(wantsFetch s q desc.val chunk) then s
    else if srcStep = some q.step then shadowNext (settleFin q (withJerr (false, takeFetch s desc.val chunk data)).2)
    else nextPeer s (lLayer l) (decide (nChunks l ≤ chunk))

/-! ### Shadow updates (R293, R442) -/

/-- SHADOW_UPDATE: under a shadow image, a peer's step entry starts the update of the next step, which the Finisher
computes from the gradients that the rounds of the attempt have brought. -/
def doShadowUpdate (stepNum : DWord) (entry : List Byte) (s : State) : State :=
  if s.img.st ≠ .shadow ∨ s.upd.p2.isSome ∨ stepNum ≠ s.step.ctr + 1 ∨ leAt entry 0 8 ≠ stepNum.toNat ∨
      leAt entry 0x10 1 = 0 ∨ leAt entry 8 8 ≠ s.upd.shadowAtt.toNat ∨ !s.upd.shadowGot then s
  else match updParams s with
    | none => s
    | some p =>
      let s := setReg s rUpdLr (w32 (leAt entry 0x14 4))
      let s := setReg s rUpdGnorm (w32 (leAt entry 0x18 4))
      let s := setReg s rUpdClip (w32 (leAt entry 0x1C 4))
      let s := setReg s rUpdGradMul (w32 (leAt entry 0x20 4))
      let q : Pass2 := { step := stepNum, att := w64 (leAt entry 8 8), lr := w32 (leAt entry 0x14 4),
                         gc := fmul (reg s rUpdGradMul) (reg s rUpdClip), outer := everyNth stepNum.toNat p.h }
      let s := { s with upd := { s.upd with p2 := some q, hold := [], tiles := [], partly := [], signalled := [], lost := [], seek := [], fin := .shadow, tries := 0 } }
      let s := setReg64 s rUpdFinStep stepNum
      let (bad, s) := beginJournal p q (leAt entry 0x24 2) (entryFlags p stepNum.toNat true) s
      if bad then s else
      shadowNext (finOuter q (finCompute (tryCommit (countFrozen (if q.outer then startShadow 1 s else s)))))

end Sys2Proof.Machine
end

