-- ==== Sys2Proof/Machine/Fabric.lean ====
section
/-! DEFINITION. Machine/Fabric.lean: the receiving side of the fabric (10): checks, flows, admission, requests and replies,
acknowledgements, link retry, forwarding, management packets and routing epochs. -/
namespace Sys2Proof.Machine
open Sys2Proof

/-! ### Checks on arrival (R298 to R302, R310, R323) -/

/-- Reserved bits of ADDR are zero (R300). -/
def addrBitsOk (p : Packet) : Bool :=
  let a := p.addr.toNat
  match p.type.toNat with
  | 0x11 => decide (a < 2 ^ 8)
  | 0x12 => decide (a < 2 ^ 19)
  | 0x13 | 0x20 => decide (a < 2 ^ 60)
  | 0x30 => decide (a = 0)
  | 0x32 => decide (a < 2)
  | 0x33 => decide (a < 2 ^ 17)
  | _ => true

/-- FMT is what the type's row allows: a READ's length, a collective's format and REDOP, otherwise 0. -/
def fmtOk (p : Packet) : Bool :=
  match p.type.toNat with
  | 0x02 => decide (p.fmt.toNat < 128)
  | 0x20 => fmtKnown (p.fmt.toNat % 16) && decide (p.fmt.toNat / 16 ≤ 3)
  | _ => decide (p.fmt = 0)

/-- Bytes that a WRITE or READ touches. -/
def reqBytes (p : Packet) : Nat := if p.type = ptRead then 64 * (p.fmt.toNat % 128) else p.payload.length

/-- A WRITE or READ is 64 B-aligned, not empty, and crosses no 4 KiB boundary (R300). -/
def rangeForm (p : Packet) : Bool :=
  if p.type = ptWrite ∨ p.type = ptRead then
    decide (0 < reqBytes p) && decide (p.addr.toNat % 64 = 0) && decide (p.addr.toNat % 4096 + reqBytes p ≤ 4096)
  else true

/-- The packet has no reserved type, field or place (R300, R302). -/
def wellShaped (p : Packet) : Bool :=
  decide (typeClass p.type = some p.cls) && lenOk p && addrBitsOk p && fmtOk p && rangeForm p &&
  decide (p.scope ≠ 3) && (decide (p.scope = 0) || decide (p.cls = clMgmt))

/-- The epoch is CURRENT, the draining epoch, or a loaded next epoch (R323). -/
def epochOk (s : State) (e : BitVec 2) : Bool :=
  decide (e = s.fab.cur) || (s.fab.draining && decide (e = s.fab.drainEpoch)) || (s.fab.loaded && decide (e = s.fab.cur + 1))

/-- LSNs taken in sequence, with those seen out of turn. -/
def takeLsn : Nat → Half → List Half → Half × List Half
  | 0, n, seen => (n, seen)
  | fuel + 1, n, seen => if n ∈ seen then takeLsn fuel (n + 1) (seen.erase n) else (n, seen)

/-- The receiver's side of a link: flits are counted, the packet takes its credit, its LSN is taken, and a link control word
acknowledges it (R313, R317). -/
def noteArrival (s : State) (p : Packet) (ch : Chan) : State :=
  let s := addReg64 s rRxFlits (flits p)
  let l := link s ch
  let seen := if p.lsn ∈ l.rxSeen then l.rxSeen else l.rxSeen ++ [p.lsn]
  let r := takeLsn (seen.length + 1) l.rxNext seen
  let s := updLink s ch fun l =>
    { l with rxNext := r.1, rxSeen := r.2
             granted := if creditFree p ch then l.granted else creditAdd l.granted (pktVc p) (-(flits p : Int)) }
  emit s (.linkControl { about := ch, ack := r.1 - 1, naks := [], credits := [] })

/-! ### Forwarding (R310, R320, R324) -/

/-- Send a packet on through the router. It stays in the receive pool until it leaves. -/
def forward (s : State) (p : Packet) (ch : Chan) : State :=
  if p.cls = clColl then freeCredit (addrErr s p (some ch)) ch (pktVc p) (flits p)
  else if 24 < p.hops.toNat + 1 then freeCredit (dropLife s p (some ch)) ch (pktVc p) (flits p)
  else sendOn (poolHold s p ch) { pkt := { p with hops := p.hops + 1 }, at0 := s.clk, src := some (ch, poolKey p ch) }

/-- What an arriving packet meets at its end: the checks, in order, then the CRC, and `run`. -/
def atEnd (p : Packet) (ch : Chan) (run : State → State) (s : State) : State :=
  if !wellShaped p ∨ 27 ≤ p.dstEp.toNat then addrErr s p (some ch)
  else if tooOld s p then dropLife s p (some ch)
  else if !epochOk s p.epoch then fabErr s 9 p (some ch)
  else if p.crc.toNat ≠ pktCrc p then addReg (fabErr s 4 p (some ch)) rFabCrc 1
  else run s

/-- What every arriving packet meets: a quarantined link carries LINK_HELLO only (R351); a packet for another module that passes
the checks goes on through the router, which checks no CRC, and any other leaves the receive pool as soon as it is dealt
with. -/
def arrive (t : BitVec 6) (p : Packet) (ch : Chan) (run : State → State) (s : State) : State :=
  if p.type ≠ t ∨ ((link s ch).quar ≠ 0 ∧ t ≠ ptHello) then s
  else
    let s := noteArrival s p ch
    let own := p.dstMod = s.fab.modId ∨ (p.cls = clMgmt ∧ p.scope ≠ 0)
    if wellShaped p && decide (p.dstEp.toNat < 27) && !(tooOld s p) && epochOk s p.epoch && !decide own then forward s p ch
    else freeCredit (atEnd p ch run s) ch (pktVc p) (flits p)

/-! ### Admission (R298) -/

/-- Why a packet is not admitted. -/
inductive Deny where
  | job | protect
  deriving DecidableEq, Repr

/-- What an access asks of a permission (R298). -/
inductive Need where
  | read | write | reduce | any
  deriving DecidableEq, Repr

/-- The flat table grants the source module an access (R297, R298). -/
def flatGrant (s : State) (m : Half) (need : Need) : Bool := s.fab.flat.any fun x => match x.2 with
  | some e => decide (e.mod = m) && (match need with
    | .read => e.read | .write => e.write | .reduce => e.reduce | .any => e.read || e.write || e.reduce)
  | none => false

/-- Items 1 and 2 of R298: the job, or for JOB_ID 0 a flat-table grant at endpoint 24, 25 or 26; and a source that is a
member. -/
def admitSource (s : State) (p : Packet) (need : Need) : Option Deny :=
  if p.jobId = 0 ∧ ¬ (24 ≤ p.dstEp.toNat ∧ flatGrant s p.srcMod need) then some .job
  else if p.jobId ≠ 0 ∧ p.jobId ≠ jobOf s then some .job
  else if isMember s p.srcMod then none else some .protect

/-- The remote windows of the active image. -/
def remoteWins (s : State) : List RemoteWindow := match s.img.sec with | some sec => sec.remote | none => []

/-- A remote window holds a range with a permission. -/
def inRemote (s : State) (a n : Nat) (need : Need) : Bool := (remoteWins s).any fun w =>
  decide (w.base ≤ a) && decide (a + n ≤ w.base + w.len) && (match need with
    | .read => w.read | .write => w.write | .reduce => w.reduce | .any => true)

/-- Items 3 and 4 of R298 for a range at the packet's endpoint. -/
def admitRange (s : State) (p : Packet) (a n : Nat) (need : Need) : Bool :=
  (if p.dstEp.toNat = 24 then mappedRange s.mem a n && !inImage s a n else decide (a + n ≤ tsBytes)) && inRemote s a n need

/-- Record a refused packet: PROTECT, and JOB where the JOB_ID differs (R330). -/
def refuse (s : State) (p : Packet) (ch : Chan) (why : Deny) (code : Nat) : State :=
  let s := addReg s rProtErr 1
  let s := setReg s rFabErrSrc (w32 (p.srcMod.toNat * 65536 + p.srcEp.toNat * 2048 + code))
  let s := setReg s rFabErrInfo (fabInfo p (some ch))
  rsEvents s rFabErr (if why = .job then 0x00000C else 0x000004)

/-! ### Replies -/

/-- Status codes of R301. -/
def scOk : Nat := 0
def scStale : Nat := 1
def scRefused : Nat := 2
def scProtection : Nat := 3
def scMemError : Nat := 4
def scBusy : Nat := 5

/-- The reply to a request: READ_DATA where data is given, else STATUS with a code. -/
def replyPkt (s : State) (p : Packet) (code : Nat) (data : List Byte) : Packet :=
  let q := blankPkt s (if data = [] then ptStatus else ptReadData) p.srcMod p.srcEp p.dstEp
  { q with jobId := p.jobId, fseq := p.fseq, txn := p.txn, addr := if data = [] then w64 code else p.addr, payload := data }

/-- The flow entry of a packet at its destination (R303). A packet keeps the flow it was injected on, whatever
channel it arrives on. -/
def DstFlow.serves (f : DstFlow) (p : Packet) : Bool :=
  decide (f.srcMod = p.srcMod ∧ f.srcEp = p.srcEp ∧ f.dstEp = p.dstEp ∧ f.vc = 2 * p.cls.toNat)

/-- Update the flow entry of a packet. -/
def updFlow (s : State) (p : Packet) (f : DstFlow → DstFlow) : State :=
  { s with fab := { s.fab with dst := s.fab.dst.map fun g => if g.serves p then f g else g } }

/-- Answer a request, and keep the answer for duplicates: the 64 most recent (R305). -/
def answer (s : State) (p : Packet) (code : Nat) (data : List Byte) : State :=
  let s := updFlow s p fun f =>
    { f with replies := (f.replies ++ [(p.fseq, code, data)]).drop (f.replies.length + 1 - 64) }
  sendPkt s (replyPkt s p code data)

/-! ### Requests (R295, R298, R482) -/

/-- Refuse a request with PROTECTION. -/
def denyReq (s : State) (p : Packet) (ch : Chan) (why : Deny) : State :=
  answer (refuse s p ch why scProtection) p scProtection []

/-- The host window that holds a range. -/
def hostWin (s : State) (a n : Nat) (write : Bool) : Option Nat :=
  match s.img.sec with
  | none => none
  | some sec => (sec.hostWin.find? fun w => decide (w.base ≤ a) && decide (a + n ≤ w.base + w.len) &&
      (if write then w.write else w.read)).map fun w => w.host + (a - w.base)

/-- Completion timeout of a host read in ns (R482): the default range of PCIe, 50 ms. -/
def hostTimeoutNs : Nat := 50000000

/-- Non-posted requests that the endpoint has outstanding at most (R477). -/
def hostReadMax : Nat := 256

/-- A request to endpoint 26 (R482): MEM_ERROR without Bus Master Enable. -/
def hostReq (s : State) (p : Packet) (ch : Chan) (write : Bool) : State :=
  let n := reqBytes p
  match admitSource s p (if write then .write else .read) with
  | some why => denyReq s p ch why
  | none =>
    match hostWin s p.addr.toNat n write with
    | none => denyReq s p ch .protect
    | some h =>
      if !s.host.busMaster then answer s p scMemError []
      else if write then answer (emit s (.hostWrite h p.payload)) p scOk []
      else
        let t := s.host.nextTag
        let room := decide (s.host.reads.length < hostReadMax)
        let s := { s with host := { s.host with nextTag := t + 1, reads := s.host.reads ++ [⟨t, p, ch, s.clk + hostTimeoutNs⟩] } }
        let s := updFlow s p fun f => { f with busy := true }
        if room then emit s (.hostRead t h n) else s

/-- A request to the MSD mailbox, which only the management path reaches (R295): JOB_ID 0 with a flat-table grant. ADDR is an
offset in SEC_MBOX_DATA (DESIGN CHOICE, log entry 80). -/
def mboxReq (s : State) (p : Packet) (ch : Chan) (write : Bool) : State :=
  let a := p.addr.toNat
  let n := reqBytes p
  if p.jobId ≠ 0 then denyReq s p ch .job
  else match admitSource s p (if write then .write else .read) with
    | some why => denyReq s p ch why
    | none =>
      if 4096 < a + n then denyReq s p ch .protect
      else if write then
        answer ((List.range (n / 4)).foldl (fun s i => setReg s (rSecMbox + a + 4 * i) (w32 (leAt p.payload (4 * i) 4))) s) p scOk []
      else answer s p scOk ((List.range (n / 4)).flatMap fun i => leBytes 4 (reg s (rSecMbox + a + 4 * i)).toNat)

/-- A WRITE is performed in flow order. -/
def performWrite (p : Packet) (ch : Chan) (s : State) : State :=
  let a := p.addr.toNat
  let ep := p.dstEp.toNat
  if ep = 26 then hostReq s p ch true
  else if ep = 25 then mboxReq s p ch true
  else match admitSource s p .write with
    | some why => denyReq s p ch why
    | none =>
      if !admitRange s p a p.payload.length .write then denyReq s p ch .protect
      else if ep = 24 then
        match memWrite s a p.payload with
        | some (false, s) => answer s p scOk []
        | some (true, s) => answer s p scMemError []
        | none => denyReq s p ch .protect
      else answer (tsWrite s ⟨ep % 24, Nat.mod_lt _ (by decide)⟩ a p.payload 3) p scOk []

/-- A READ is performed in flow order. -/
def performRead (p : Packet) (ch : Chan) (s : State) : State :=
  let a := p.addr.toNat
  let ep := p.dstEp.toNat
  let n := reqBytes p
  let give (r : MemRead × State) : State := if r.1.bad then answer r.2 p scMemError [] else answer r.2 p scOk r.1.data
  if ep = 26 then hostReq s p ch false
  else if ep = 25 then mboxReq s p ch false
  else match admitSource s p .read with
    | some why => denyReq s p ch why
    | none =>
      if !admitRange s p a n .read then denyReq s p ch .protect
      else if ep = 24 then
        match memRead s a n with
        | some r => give r
        | none => denyReq s p ch .protect
      else give (tsRead s ⟨ep % 24, Nat.mod_lt _ (by decide)⟩ a n 3)

/-- A remote signal is refused (R209, R225). -/
def refuseSignal (s : State) (p : Packet) (reserved : Bool) : State :=
  let s := addReg s rSyncRefused 1
  let ref := fld p.addr 15 0
  let s := setReg s rSyncErrInfo (syncInfo 0 ⟨27, 0, true⟩ ref)
  let s := rsEvents s rSyncErrStat (if reserved then 0x90 else 0x80)
  answer (if reserved then secEvent s 2 3 (ref % 32768) else s) p scRefused []

/-- A SIGNAL is applied in flow order by the object's arbiter (R219, R220, R225). -/
def performSignal (p : Packet) (ch : Chan) (s : State) : State :=
  match admitSource s p .any with
  | some why => denyReq s p ch why
  | none =>
    let ref := fld p.addr 15 0
    let ep := p.dstEp.toNat
    let glob := ref.testBit 15
    if 24 < ep ∨ (glob ≠ decide (ep = 24)) then refuseSignal s p false
    else if glob ∧ ref % 32768 < 16 then refuseSignal s p true
    else if !glob ∧ (4096 ≤ ref ∨ (die s ⟨ep % 24, Nat.mod_lt _ (by decide)⟩).out) then refuseSignal s p false
    else
      let r : ObjRef := if glob then .glob ⟨ref % 32768, Nat.mod_lt _ (by decide)⟩
        else .loc ⟨ep % 24, Nat.mod_lt _ (by decide)⟩ ⟨ref % 4096, Nat.mod_lt _ (by decide)⟩
      let tag := if bitAt p.addr 63 then some (BitVec.ofNat 16 (fld p.addr 31 16)) else none
      let (s, more, rep) := addOnce s ⟨r, fld p.addr 62 32, tag, ⟨27, 0, true⟩⟩
      let s := addSignals (sigFuel more.length) more s
      answer s p (match rep with | .applied => scOk | .stale => scStale | .refused => scRefused) []

/-- Why a COLL_DATA packet is not admitted (R298): its job, its source, its endpoint, or the landing range that it would
write. -/
def denyColl (s : State) (p : Packet) : Option Deny :=
  match admitSource s p (if p.fmt.toNat / 16 = 0 then .write else .reduce) with
  | some why => some why
  | none =>
    if 24 < p.dstEp.toNat then some .protect
    else match dataRound s p with
      | none => none
      | some (k, r, _) => match landSpan k r p with
        | none => none
        | some (a, n) =>
          if mappedRange s.mem a n && !inImage s a n && inRemote s a n (if p.fmt.toNat / 16 = 0 then .write else .reduce) then none
          else some .protect

/-- A COLL_DATA packet is taken in flow order; its flow owes an acknowledgement within 2 µs (R309). -/
def performColl (p : Packet) (s : State) : State :=
  updFlow (takeData p s) p fun f => { f with ackDue := true, ackAt := some (f.ackAt.getD (s.clk + 2000)) }

/-- Perform a packet whose turn has come. -/
def perform (s : State) (p : Packet) (ch : Chan) : State :=
  match p.type.toNat with
  | 0x01 => performWrite p ch s
  | 0x02 => performRead p ch s
  | 0x03 => performSignal p ch s
  | _ => performColl p s

/-! ### Flows at the destination (R303 to R306) -/

/-- Packets held for earlier ones. -/
def heldCount (s : State) : Nat := s.fab.dst.foldl (fun n f => n + f.held.length) 0

/-- A packet is not admitted for lack of flow space (R305, R306): a request receives BUSY. -/
def flowFull (s : State) (p : Packet) (ch : Chan) : State :=
  let s := fabErr s 5 p (some ch)
  if p.cls = clColl then s else sendPkt s (replyPkt s p scBusy [])

/-- Perform the packets held for a flow as far as they are next. While a request of the flow waits for host memory none is
performed (R304). -/
def drainFlow : Nat → Packet → State → State
  | 0, _, s => s
  | n + 1, p, s =>
    match s.fab.dst.find? fun f => f.serves p with
    | none => s
    | some f =>
      if f.busy then s else
      match f.held.find? fun h => decide (h.1.fseq = f.point + 1) with
      | none => s
      | some (q, ch) =>
        let s := updFlow s p fun f => { f with point := f.point + 1, held := f.held.filter fun h => decide (h.1.fseq ≠ q.fseq) }
        drainFlow n p (perform s q ch)

/-- A duplicate (R305): a request is answered as it was the first time, a collective packet by an
acknowledgement. -/
def duplicate (s : State) (p : Packet) (f : DstFlow) : State :=
  if p.cls = clColl then updFlow s p fun f => { f with ackDue := true, ackAt := some (f.ackAt.getD (s.clk + 2000)) }
  else match f.replies.find? fun r => decide (r.1 = p.fseq) with
    | some (_, code, data) => sendPkt s (replyPkt s p code data)
    | none => s

/-- A request or collective packet reaches its flow. -/
def inbound (p : Packet) (ch : Chan) (s : State) : State :=
  let idle := s.fab.timers.flowIdle * 1000
  let s := { s with fab := { s.fab with dst := s.fab.dst.filter fun f => !(f.serves p && decide (f.last + idle ≤ s.clk)) } }
  let fresh : DstFlow := { srcMod := p.srcMod, srcEp := p.srcEp, dstEp := p.dstEp, vc := 2 * p.cls.toNat, point := 0xFFFF, last := s.clk }
  let s? : Option State :=
    if s.fab.dst.any fun f => f.serves p then some s
    else if 32768 ≤ s.fab.dst.length then none
    else some { s with fab := { s.fab with dst := s.fab.dst ++ [fresh] } }
  match s? with
  | none => flowFull s p ch
  | some s =>
    let s := updFlow s p fun f => { f with last := s.clk }
    match s.fab.dst.find? fun f => f.serves p with
    | none => s
    | some f =>
      let k := serialD 16 p.fseq.toNat f.point.toNat
      if k = 32768 ∧ p.cls = clColl then flowFull s p ch
      else if k = 0 ∨ 32768 ≤ k then duplicate s p f
      else if k = 1 ∧ ¬ f.busy then
        let s := updFlow s p fun f => { f with point := p.fseq }
        drainFlow (f.held.length + 1) p (perform s p ch)
      else if f.held.any fun h => decide (h.1.fseq = p.fseq) then s
      else if 65536 ≤ heldCount s then flowFull s p ch
      else updFlow s p fun f => { f with held := f.held ++ [(p, ch)] }

/-- WRITE_PACKET. -/
def doWritePacket (p : Packet) (ch : Chan) (s : State) : State := arrive ptWrite p ch (inbound p ch) s
/-- READ_PACKET. -/
def doReadPacket (p : Packet) (ch : Chan) (s : State) : State := arrive ptRead p ch (inbound p ch) s
/-- SIGNAL_PACKET. -/
def doSignalPacket (p : Packet) (ch : Chan) (s : State) : State := arrive ptSignal p ch (inbound p ch) s
/-- A COLL_DATA packet is admitted, or discarded before it reaches its flow. -/
def inboundColl (p : Packet) (ch : Chan) (s : State) : State :=
  match denyColl s p with
  | some why => refuse s p ch why 0xFF
  | none => inbound p ch s

/-- COLL_DATA. -/
def doCollData (p : Packet) (ch : Chan) (s : State) : State := arrive ptCollData p ch (inboundColl p ch) s
/-- COLL_GRANT. -/
def doCollGrant (p : Packet) (ch : Chan) (s : State) : State := arrive ptCollGrant p ch (takeGrant p) s

/-- PACKET_FORWARD: a packet of any type that is addressed to another module. -/
def doPacketForward (p : Packet) (ch : Chan) (s : State) : State :=
  if p.dstMod = s.fab.modId then s else arrive p.type p ch id s

/-! ### Host reads (R482) -/

/-- The outstanding host read with a tag. Outstanding are the first 256 of those asked for (R477). -/
def hostReadOf (s : State) (tag : Nat) : Option HostRead := (s.host.reads.take hostReadMax).find? fun r => decide (r.tag = tag)

/-- Forget a host read. -/
def dropHostRead (s : State) (tag : Nat) : State :=
  { s with host := { s.host with reads := s.host.reads.filter fun r => decide (r.tag ≠ tag) } }

/-- The oldest host read that waits goes out once fewer than 256 are outstanding (R477). -/
def nextHostRead (s : State) : State :=
  match s.host.reads[hostReadMax - 1]? with
  | none => s
  | some r =>
    let sent := { s with host := { s.host with reads := s.host.reads.set (hostReadMax - 1) { r with deadline := s.clk + hostTimeoutNs } } }
    (hostWin s r.req.addr.toNat (reqBytes r.req) false).elim sent fun h => emit sent (.hostRead r.tag h (reqBytes r.req))

/-- A host read has ended: its request is answered, and its flow goes on. -/
def hostDone (s : State) (r : HostRead) (code : Nat) (data : List Byte) : State :=
  let s := answer (updFlow s r.req fun f => { f with busy := false }) r.req code data
  match s.fab.dst.find? fun f => f.serves r.req with
  | some f => drainFlow (f.held.length + 1) r.req s
  | none => s

/-- HOST_READ_COMPLETION: the data goes back to the fabric requester. -/
def doHostReadCompletion (tag : Nat) (data : List Byte) (s : State) : State :=
  match hostReadOf s tag with
  | none => s
  | some r => if data.length ≠ reqBytes r.req then s else hostDone (nextHostRead (dropHostRead s tag)) r scOk data

/-- COMPLETION_TIMEOUT: the fabric request ends with MEM_ERROR, and the timeout is logged. -/
def doCompletionTimeout (tag : Nat) (s : State) : State :=
  match hostReadOf s tag with
  | none => s
  | some r =>
    let s := advanceTo r.deadline s
    hostDone (emit (nextHostRead (dropHostRead s tag)) (.aer "completion timeout")) r scMemError []

/-! ### How a transaction ends (R225, R307, R308) -/

/-- The answer code of a transaction that gave up. -/
def scUnreach : Nat := 255

/-- A remote SIGNAL ends (R225). -/
def endSignal (s : State) (d : Die) (c : Sid) (i ref code : Nat) : State :=
  let info (s : State) : State := setReg s (cdWin d.val + rCdSyncErrInfo) (syncInfo 0 ⟨d.val, sidNat c, true⟩ ref)
  match findInflight (str s d c) .signal i with
  | none => s
  | some e =>
    if code = scOk then completeDesc s d c e
    else if code = scStale then completeDesc (addReg s (cdWin d.val + rCdSyncStale) 1) d c e
    else
      let s := info s
      let s := if code = scUnreach then s else rsEvent s (cdWin d.val + rCdSyncErr) 2
      if e.silent then dropInflight s d c i else unitFault s d c fRef e

/-- A peer's verdict record has been read (R438): the first that holds CLEAR or POISON for the attempt decides. -/
def takeVerdict (s : State) (att : DWord) (data : List Byte) : State :=
  let off := 32 * (att.toNat % 2)
  let v := leAt data (off + 16) 1
  if verdictOf s att ≠ some .indeterminate ∨ leAt data off 8 ≠ att.toNat ∨ (v ≠ 1 ∧ v ≠ 2) then s
  else
    let s := { s with step := { s.step with pollAt := none, resolveAt := none, resolveFailed := false } }
    let s := rsEvent s rImgEvt 4
    let s := signalUnit s 6
    if v = 1 then clearVerdict s att else setPoison (addCause s att gRemote 0xFFFF 0xFF) att

/-- Bytes of a LAYER's copy in a slot: the working copies of its descriptors, one after the other (R69). -/
def maqBytes (s : State) (layer : Nat) : Nat :=
  (s.img.layers.filter fun l => decide (lLayer l = layer)).foldl (fun n l => n + wcBytes l * lElems l) 0

/-- Where slot `k` lies. -/
def maqSlotAt (sec : JobSections) (k : Nat) : Nat := sec.maqBase + sec.maqSlotBytes * k

/-- The payload of a chunk of a slot's export. -/
def maqData (s : State) (sec : JobSections) (k off n : Nat) : List Byte :=
  memBytes s.mem (maqSlotAt sec k + off) n ++ List.replicate ((64 - n % 64) % 64) 0

/-- A request by the flat path to index `i` (R297, R298): JOB_ID 0, and the module and endpoint of the entry. -/
def flatPkt (s : State) (t : BitVec 6) (e : FlatEntry) (a : Nat) (data : List Byte) : Packet :=
  { blankPkt s t e.mod (BitVec.ofNat 5 e.ep) 24 with jobId := e.jobId, addr := w64 a, payload := data }

/-- The next chunk of a slot's export to a fabric endpoint, where it has one to send and the fabric takes it. -/
def maqSend (sec : JobSections) (k : Nat) (e : FlatEntry) (a : Nat) (s : State) : State :=
  match SMap.get none s.maq.slots k with
  | none => s
  | some m =>
    let n := maqBytes s m.layer
    if !m.copied ∨ n ≤ m.sent then s else
    let k4 := min 4096 (n - m.sent)
    let data := maqData s sec k m.sent k4
    match sendReq s (.maquette k m.sent) false (flatPkt s ptWrite e (a + sec.maqSlotBytes * k + m.sent) data) with
    | none => s
    | some s => { s with maq := { s.maq with slots := SMap.upd none s.maq.slots k fun m => m.map fun m => { m with sent := m.sent + 4096 } } }

/-- Export as much of the completed slots as the destination takes now (R71): all of a slot to a host buffer, while
the link and Bus Master Enable allow; to a fabric endpoint as its flow allows. -/
def maqExport (s : State) : State :=
  match s.img.sec with
  | none => s
  | some sec =>
    let ks := s.maq.slots.map (·.1)
    match sec.maqDest with
    | .host a =>
      if !s.host.busMaster ∨ !s.host.linkUp then s else
      ks.foldl (fun s k => match SMap.get none s.maq.slots k with
        | some m =>
          let n := maqBytes s m.layer
          if !m.copied ∨ n ≤ m.sent then s else
          let s := emit s (.hostWrite (a + sec.maqSlotBytes * k) (memBytes s.mem (maqSlotAt sec k) n))
          { s with maq := { s.maq with slots := SMap.set none s.maq.slots k (some { m with sent := n }) } }
        | none => s) s
    | .fabric i a =>
      match SMap.get none s.fab.flat i.val with
      | none => s
      | some e => ks.foldl (fun s k => loopN 64 (fun _ s => maqSend sec k e a s) s) s

/-- A chunk of a Maquette export is answered: chunks count as acknowledged in order, and one that failed is sent
again with those after it. -/
def maqAck (s : State) (slot off code : Nat) : State :=
  maqExport { s with maq := { s.maq with slots := SMap.upd none s.maq.slots slot fun m => m.map fun m =>
      if code = scOk then (if off = m.acked then { m with acked := m.acked + 4096 } else m)
      else { m with sent := min m.sent off } } }

/-- The unit that waited for a transaction hears of its end. -/
def endTxn (s : State) (u : TxnUser) (code : Nat) (data : List Byte) : State :=
  match u with
  | .signal d c i ref => endSignal s d c i ref code
  | .verdict att => if data.length = 64 then takeVerdict s att data else s
  | .maquette slot off => maqAck s slot off code
  | .coll _ _ _ => s

/-- Transactions of a flow end in the order of their requests (R304). -/
def settleFlow : Nat → Packet → State → State
  | 0, _, s => s
  | n + 1, p, s =>
    match s.fab.outs.find? fun o => sameFlow o.pkt p with
    | none => s
    | some o => match o.answer with
      | none => s
      | some (code, data) =>
        let s := { s with fab := { s.fab with outs := s.fab.outs.filter fun x => decide (x.oid ≠ o.oid) } }
        settleFlow n p (endTxn s o.user code data)

/-- Give a transaction its answer. -/
def answerTxn (s : State) (o : OutPkt) (code : Nat) (data : List Byte) : State :=
  let s := { s with fab := { s.fab with outs := s.fab.outs.map fun x => if x.oid = o.oid then { x with answer := some (code, data) } else x } }
  settleFlow (s.fab.outs.length + 1) o.pkt s

/-- The payload of a packet, read again from its source (R308): a round's data, or a Maquette slot; none where the source meets
an error or is gone. -/
def reread (s : State) (o : OutPkt) : Option (List Byte) × State :=
  match o.user with
  | .coll d i n => match findColl s d i with
    | none => (none, s)
    | some k => match k.rounds.find? fun x => decide (x.idx = n) with
      | none => (none, s)
      | some r => match sendData s k r.r with
        | (some bs, s) => (some (pad64 ((bs.drop (fld o.pkt.addr 39 0)).take (pktStep r.r.wire))), s)
        | (none, s) => (none, s)
  | .maquette k off => match s.img.sec, SMap.get none s.maq.slots k with
    | some sec, some m => (some (maqData s sec k off (min 4096 (maqBytes s m.layer - off))), s)
    | _, _ => (none, s)
  | _ => (some [], s)

/-- Forget a packet that was sent. -/
def dropOut (s : State) (o : OutPkt) : State :=
  { s with fab := { s.fab with outs := s.fab.outs.filter fun x => decide (x.oid ≠ o.oid) } }

/-- A round of a collective ends in error, for the packet of it that does. -/
def failRound (s : State) (o : OutPkt) (d : Die) (i r cause : Nat) : State :=
  match findColl s d i with
  | some k =>
    let rr := (k.rounds.find? fun x => decide (x.idx = r)).map (·.r)
    failColl s k r cause ((rr.map (·.peer)).getD 0) ((rr.map (roundPort s)).getD 6)
  | none => dropOut s o

/-- A packet's flow has been used (R303). -/
def touchFlow (s : State) (p : Packet) : State :=
  { s with fab := { s.fab with src := s.fab.src.map fun g => if g.serves p then { g with last := s.clk } else g } }

/-- Send a packet again (R308), its payload read again, or give it up after E2E_RETRY_MAX retransmissions. -/
def resend (s : State) (o : OutPkt) : State :=
  if o.tries < s.fab.timers.e2eRetryMax then
    match reread s o with
    | (none, s) => match o.user with
      | .coll d i r => failRound s o d i r ccMem
      | _ => dropOut s o
    | (some bs, s) =>
      let s := addReg64 s rE2eRetx 1
      let p := { o.pkt with retx := true, epoch := s.fab.cur }
      let s := { s with fab := { s.fab with outs := s.fab.outs.map fun x =>
        if x.oid = o.oid then { x with tries := x.tries + 1, deadline := s.clk + rtoNs s x.far, pkt := p } else x } }
      sendPkt (touchFlow s p) { p with payload := bs }
  else
    let s := fabErr s 8 o.pkt none
    match o.user with
    | .coll d i r => failRound s o d i r ccUnreach
    | _ => answerTxn s o scUnreach []

/-- RTO_EXPIRE. -/
def doRtoExpire (txn : Nat) (s : State) : State :=
  match s.fab.outs.find? fun o => decide (o.oid = txn) && o.answer.isNone with
  | none => s
  | some o => resend (advanceTo o.deadline s) o

/-- The live transaction that a reply names (R307). -/
def txnOf (s : State) (p : Packet) : Option OutPkt :=
  s.fab.outs.find? fun o => decide (o.oid < 16384) && decide (o.pkt.txn = p.txn) && o.answer.isNone

/-- A READ_DATA arrives. -/
def takeReadData (p : Packet) (s : State) : State :=
  match txnOf s p with
  | none => s
  | some o => if o.pkt.type = ptRead then progressAll (answerTxn s o scOk p.payload) else s

/-- A STATUS arrives: BUSY is met with a retransmission. -/
def takeStatus (p : Packet) (s : State) : State :=
  match txnOf s p with
  | none => s
  | some o =>
    let code := fld p.addr 7 0
    if code = scBusy then resend s o else progressAll (answerTxn s o (if 5 < code then scRefused else code) [])

/-- READ_DATA. -/
def doReadData (p : Packet) (ch : Chan) (s : State) : State := arrive ptReadData p ch (takeReadData p) s
/-- STATUS. -/
def doStatus (p : Packet) (ch : Chan) (s : State) : State := arrive ptStatus p ch (takeStatus p) s

/-- An E2E_ACK arrives (R309): packets of the flow up to the acknowledged FSEQ are answered. Every flow of this module is on
the adaptive channel of its class, so an acknowledgement with RELIEF names none. -/
def takeE2eAck (p : Packet) (s : State) : State :=
  let hit (o : OutPkt) : Bool :=
    decide (16384 ≤ o.oid) && !bitAt p.addr 18 && decide (o.pkt.srcEp = p.dstEp ∧ o.pkt.dstMod = p.srcMod ∧ o.pkt.dstEp = p.srcEp) &&
    decide (o.pkt.cls.toNat = fld p.addr 17 16) && serialAtOrBefore 16 o.pkt.fseq.toNat (fld p.addr 15 0)
  progressAll { s with fab := { s.fab with outs := s.fab.outs.filter fun o => !hit o } }

/-- E2E_ACK. -/
def doE2eAck (p : Packet) (ch : Chan) (s : State) : State := arrive ptE2eAck p ch (takeE2eAck p) s

/-- E2E_ACK_TIMER: the acknowledgement interval of a collective flow ends. -/
def doE2eAckTimer (key : Nat) (s : State) : State :=
  match s.fab.dst[key]? with
  | none => s
  | some f =>
    if !f.ackDue then s else
    let s := advanceTo (f.ackAt.getD 0) s
    let s := { s with fab := { s.fab with dst := s.fab.dst.set key { f with ackDue := false, ackAt := none } } }
    sendPkt s { blankPkt s ptE2eAck f.srcMod f.srcEp f.dstEp with addr := w64 (f.point.toNat + f.vc / 2 * 65536) }

/-- FLOW_IDLE_EXPIRE: a flow with no traffic for FLOW_IDLE is freed, at its source when nothing is outstanding on
it. -/
def doFlowIdleExpire (source : Bool) (key : Nat) (s : State) : State :=
  let idle := s.fab.timers.flowIdle * 1000
  if source then
    match s.fab.src[key]? with
    | none => s
    | some f =>
      if s.fab.outs.any fun o => f.serves o.pkt then s else
      let s := advanceTo (f.last + idle) s
      { s with fab := { s.fab with src := s.fab.src.eraseIdx key } }
  else match s.fab.dst[key]? with
    | none => s
    | some f =>
      let s := advanceTo (f.last + idle) s
      { s with fab := { s.fab with dst := s.fab.dst.eraseIdx key } }

/-! ### Relief and replay-store room (R315, R316) -/

/-- RELIEF_MOVE: the candidates of the i-th waiting packet have had no credit for 2 µs, and it moves to the relief channel. One
that waits for replay-store room, or that needs no credit, does not. -/
def doReliefMove (i : Nat) (s : State) : State :=
  match s.fab.waiting[i]? with
  | none => s
  | some w => match w.dry with
    | none => s
    | some t =>
      if w.pkt.relief ∨ (candidates s w).any (hasCredit s w.pkt) then s else
      let s := advanceTo (t + 2000) s
      let s := addReg64 s rReliefPkts 1
      sendOn { s with fab := { s.fab with waiting := s.fab.waiting.eraseIdx i } } { w with pkt := { w.pkt with relief := true }, dry := none }

/-- A packet's route may leave on a port. -/
def leavesOn (s : State) (port : Nat) (p : Packet) : Bool :=
  match routeOf s p with
  | .dims ds => ds.any fun d => decide (2 + fld (dimEntry s p.epoch d) 9 8 = port)
  | _ => false

/-- REPLAY_STORE_SEND: packets waiting for room in a C port's replay store are tried again. -/
def doReplayStoreSend (port : Fin 6) (s : State) : State :=
  if port.val < 4 then s else retryWaiting s (leavesOn s port.val)

/-! ### Link retry and loss (R313, R314) -/

/-- A packet that a lost link to `peer` had not delivered goes out again on relief: on another link to the same peer, else by
the relief entry of the current bank unless it is a collective packet; with no link it is discarded, as a LINK_HELLO always
is. -/
def rescue (peer : Half) (s : State) (u : LinkPkt) : State :=
  if u.pkt.type = ptHello then s
  else
    let s := addReg64 s rReliefPkts 1
    let w : WaitPkt := { pkt := { u.pkt with relief := true }, at0 := u.sentAt, peer := some peer, cur := true }
    match pick s w true with
    | (some c, s) => depart s w c
    | (none, s) => keepWaiting s w

/-- Some link of a dimension carries traffic. -/
def dimAlive (s : State) (d : Nat) : Bool := (dimChans (dimEntry s s.fab.cur d)).any fun c => (link s c).usable

/-- ROUTE_NOTICE to every link peer at level 3 or above, once each (R314, R350); a loop link has none (R333). -/
def routeNotice (s : State) (d : Nat) (ch : Chan) (up : Bool) : State :=
  let ps := s.fab.links.foldl (fun (acc : List (Half × Chan)) (k, l) =>
    if l.usable ∧ 3 ≤ l.level ∧ chanOf k ≠ ch ∧ l.peer ≠ s.fab.modId ∧ acc.all (fun x => decide (x.1 ≠ l.peer)) then acc ++ [(l.peer, chanOf k)] else acc) []
  ps.foldl (fun s (m, c) =>
    let p := { blankPkt s ptRouteNotice m 24 24 with
      scope := 1, addr := w64 (d + (ch.port.val * 8 + ch.fibre.val % 8) * 1024 + b2n up * 65536) }
    toPeer s p c) s

/-- A link goes down: its packets are rescued, and the loss of a dimension's last link is told to the other
peers. -/
def linkDown (s : State) (ch : Chan) : State :=
  let l := link s ch
  let dm := chanDim s s.fab.cur ch
  let before := match dm with | some d => dimAlive s d | none => false
  let s := updLink s ch fun l => { l with accepted := false, peerAcc := false, up := false, unacked := [], closing := false, lockedAt := none }
  let s := addReg (fabErr s 7 (blankPkt s ptWrite 0 0 0) (some ch)) rLinkDownCnt 1
  let s := l.unacked.foldl (rescue l.peer) (showUsed s ch.port.val)
  match dm with
  | some d => if before && !(dimAlive s d) then routeNotice s d ch false else s
  | none => s

/-- Resend one packet of a link with its LSN, older by the time it was held (R310); the retry limit takes the link down. -/
def linkResend (s : State) (ch : Chan) (lsn : Half) : State :=
  match (link s ch).unacked.find? fun u => decide (u.pkt.lsn = lsn) with
  | none => s
  | some u =>
    if s.fab.timers.linkRetryMax ≤ u.retries then linkDown s ch
    else
      let s := addReg64 (addReg64 s rLinkRetx 1) rTxFlits (flits u.pkt)
      let p := aged u.pkt (s.clk - u.sentAt)
      let s := updLink s ch fun l => { l with unacked := l.unacked.map fun x =>
        if x.pkt.lsn = lsn then { pkt := p, retries := x.retries + 1, sentAt := s.clk } else x }
      emit s (.packet p (some ch))

/-- A link control word: acknowledgements free held packets, negative ones resend, and credit comes back. -/
def takeLcw (w : Lcw) (s : State) : State :=
  let s := updLink s w.about fun l =>
    { l with unacked := l.unacked.filter fun u => decide (u.pkt.lsn ∈ w.naks) || !(serialAtOrBefore 16 u.pkt.lsn.toNat w.ack.toNat),
             credit := w.credits.foldl (fun v c => creditAdd v c.1.val c.2) l.credit }
  let s := showUsed s w.about.port.val
  let s := w.naks.foldl (fun s n => linkResend s w.about n) s
  retryWaiting s fun _ => true

/-- LINK_ACK_TIMEOUT: no acknowledgement within 2 link round trips. -/
def doLinkAckTimeout (ch : Chan) (lsn : Half) (s : State) : State :=
  match (link s ch).unacked.find? fun u => decide (u.pkt.lsn = lsn) with
  | none => s
  | some u => linkResend (advanceTo (u.sentAt + 4 * Config.linkLatency (chanNo ch)) s) ch lsn

/-! ### Management packets (R261, R314, R324, R325) -/

/-- Forward a poison broadcast (R325): from an A peer on every B dimension, from B dimension d on those below. -/
def forwardPoison (p : Packet) (ch : Chan) (s : State) : State :=
  if ch.port.val < 2 then (bPeers s 8).foldl (sendCopyB p) s
  else match chanDim s s.fab.cur ch with
    | some d => if d < 8 then (bPeers s d).foldl (sendCopyB p) s else s
    | none => s

/-- A poison broadcast names an attempt of this module's job: the first copy acts. -/
def takePoison (p : Packet) (ch : Chan) (s : State) : State :=
  let att := w64 (leAt p.payload 0 8)
  let causes : BitVec 7 := BitVec.ofNat 7 (leAt p.payload 8 4)
  if p.jobId ≠ jobOf s ∨ att ∈ s.fab.seenPoison then s
  else
    let s := { s with fab := { s.fab with seenPoison := s.fab.seenPoison ++ [att] } }
    let s := forwardPoison p ch s
    match attempt s att with
    | some a => match a.verdict with
      | none => setPoison (addCause s att gRemote 0xFFFF 0xFF) att
      | some .indeterminate => addCause s att gRemote 0xFFFF 0xFF
      | some _ => s
    | none =>
      if s.img.st = .shadow then (if s.upd.p2.isNone ∧ s.upd.shadowAtt.toNat ≤ att.toNat then shadowAt (att + 1) s else s)
      else if (reg64 s rSyncAttempt).toNat < att.toNat then
        { s with step := { s.step with remotePoison := s.step.remotePoison ++ [(att, causes)] } }
      else s

/-- POISON_PACKET. -/
def doPoisonPacket (p : Packet) (ch : Chan) (s : State) : State := arrive ptPoison p ch (takePoison p ch) s

/-- POISON_REPEAT: the broadcast of a poisoned attempt is repeated every 200 µs until the step has ended. -/
def doPoisonRepeat (att : DWord) (s : State) : State :=
  match s.step.attempts.find? fun a => decide (a.att = att) && a.repeatAt.isSome && !a.recorded with
  | none => s
  | some a =>
    let s := advanceTo (a.repeatAt.getD 0) s
    let s := broadcast s (poisonPkt s a.step a.att a.causes)
    updAttempt s a.att fun a => { a with repeatAt := some (s.clk + poisonRepeatNs) }

/-- A peer's THERMAL_SLOW flag is held 3 ms after its last message. -/
def slowHoldNs : Nat := 3000000

/-- A THERMAL_SLOW message sets or clears its sender's flag. -/
def takeThermalSlow (p : Packet) (s : State) : State :=
  let v := if bitAt p.addr 0 then s.clk + slowHoldNs else 0
  retime { s with mem := { s.mem with peerSlow := SMap.set 0 s.mem.peerSlow p.srcMod.toNat v } }

/-- THERMAL_SLOW_PACKET. -/
def doThermalSlowPacket (p : Packet) (ch : Chan) (s : State) : State := arrive ptThermalSlow p ch (takeThermalSlow p) s

/-- THERMAL_SLOW_HOLD_EXPIRE: a peer's flag lapses. -/
def doThermalSlowHoldExpire (peer : Half) (s : State) : State :=
  let t := SMap.get 0 s.mem.peerSlow peer.toNat
  if t = 0 then s
  else
    let s := advanceTo t s
    retime { s with mem := { s.mem with peerSlow := SMap.set 0 s.mem.peerSlow peer.toNat 0 } }

/-- A notice that a dimension of a link peer went down or returned is kept. A level-2 link takes none (R350). -/
def takeRouteNotice (p : Packet) (ch : Chan) (s : State) : State :=
  let e := (p.srcMod, fld p.addr 9 0)
  if (link s ch).level = 2 then s
  else if bitAt p.addr 16 then { s with fab := { s.fab with peerDown := s.fab.peerDown.filter fun x => decide (x ≠ e) } }
  else if e ∈ s.fab.peerDown then s
  else { s with fab := { s.fab with peerDown := s.fab.peerDown ++ [e] } }

/-- ROUTE_NOTICE. -/
def doRouteNotice (p : Packet) (ch : Chan) (s : State) : State := arrive ptRouteNotice p ch (takeRouteNotice p ch) s

/-! ### Routing epochs (R319, R321, R322) -/

/-- The highest dimension set in ADAPT; 15 when none. -/
def highDim (w : Word) : Nat := (adaptDims w).foldl max 0

/-- A RACK entry passes the checks of LOAD (R321): RELIEF_DIM is the highest dimension of ADAPT, and every one of these is
PRESENT. An ADAPT of none has RELIEF_DIM 0xF; an entry of zeros that is not VALID passes (DESIGN CHOICE, log entry 80). -/
def rackOk (dim : SMap DWord) (w : Word) : Bool :=
  if adaptDims w = [] then decide (fld w 13 10 = 15) || (!(bitAt w 15) && decide (fld w 13 10 = 0))
  else decide (fld w 13 10 = highDim w) && (adaptDims w).all fun d => bitAt (SMap.get 0 dim d) 15

/-- A bank passes the checks of LOAD. -/
def bankOk (rack : SMap Word) (dim : SMap DWord) : Bool :=
  rack.all (fun (_, w) => rackOk dim w) &&
  dim.all fun (_, w) => !(bitAt w 15) || decide (fld w 7 0 ≠ 0)

/-- A command or bank write that is not permitted. -/
def epochBad (s : State) : State := rsEvent s rFabErr 11

/-- The module holds no packet of an epoch. -/
def epochClear (s : State) (e : BitVec 2) : Bool :=
  s.fab.waiting.all (fun w => decide (w.pkt.epoch ≠ e)) &&
  s.fab.dst.all (fun f => f.held.all fun h => decide (h.1.epoch ≠ e)) &&
  s.fab.links.all fun (_, l) => l.unacked.all fun u => decide (u.pkt.epoch ≠ e)

/-- A draining bank is freed once RETIRE's PKT_LIFE has passed and no packet of its epoch is held. -/
def freeBank (s : State) : State :=
  match s.fab.retireAt with
  | some t => if t ≤ s.clk ∧ epochClear s s.fab.drainEpoch then
      { s with fab := { s.fab with draining := false, retireAt := none } } else s
  | none => s

/-- OPEN. A bank that was LOADED is no longer: it must be checked again (DESIGN CHOICE, log entry 80). -/
def doEpochOpen (s : State) : State :=
  let s := freeBank s
  if s.fab.draining then epochBad s else { s with fab := { s.fab with isOpen := true, loaded := false } }

/-- LOAD. -/
def doEpochLoad (s : State) : State :=
  let b := bankOf (s.fab.cur + 1)
  if !s.fab.isOpen then epochBad s
  else if bankOk s.fab.rack[b] s.fab.dim[b] then { s with fab := { s.fab with isOpen := false, loaded := true } }
  else rsEvent s rFabErr 10

/-- INJECT. -/
def doEpochInject (s : State) : State :=
  if !s.fab.loaded then epochBad s
  else { s with fab := { s.fab with cur := s.fab.cur + 1, loaded := false, draining := true, drainEpoch := s.fab.cur, retireAt := none } }

/-- RETIRE: the drain timer starts, again where it ran. -/
def doEpochRetire (s : State) : State :=
  if !s.fab.draining then epochBad s
  else { s with fab := { s.fab with retireAt := some (s.clk + s.fab.timers.pktLife * 1000) } }

/-- VIEW. -/
def doEpochView (arg : Bool) (s : State) : State := { s with fab := { s.fab with view := arg } }

/-- A command word of FAB_EPOCH_CMD. -/
def epochCmd (v : Word) (s : State) : State :=
  match fld v 7 4 with
  | 1 => doEpochOpen s
  | 2 => doEpochLoad s
  | 3 => doEpochInject s
  | 4 => doEpochRetire s
  | 5 => doEpochView (bitAt v 0) s
  | _ => s

/-- The bank that VIEW shows. -/
def viewBank (s : State) : Fin 2 := bankOf (if s.fab.view then s.fab.cur else s.fab.cur + 1)

/-- A write to the FAB_RT window takes effect only while the bank it shows is open. -/
def writeRack (r : Nat) (v : Word) (s : State) : State :=
  if s.fab.view ∨ !s.fab.isOpen then epochBad s
  else { s with fab := { s.fab with rack := s.fab.rack.set (viewBank s) (SMap.set 0 s.fab.rack[viewBank s] r (v &&& rackMask)) } }

/-- A DIM entry. -/
def writeDim (d : Nat) (v : DWord) (s : State) : State :=
  if s.fab.view ∨ !s.fab.isOpen then epochBad s
  else { s with fab := { s.fab with dim := s.fab.dim.set (viewBank s) (SMap.set 0 s.fab.dim[viewBank s] d (v &&& dimMask)) } }

end Sys2Proof.Machine
end

