-- ==== Sys2Proof/Machine/Thermal.lean ====
section
/-! DEFINITION. Machine/Thermal.lean: the thermal bands of the stacks and THERMAL_SLOW (R260 to R263). -/
namespace Sys2Proof.Machine
open Sys2Proof

/-- An event that cuts input at once while shaping runs (R453). -/
def rampBreak (s : State) : State := if s.start.fin = .ready then rsEvent s rPwrErr 5 else s

/-- Entry and exit values of bands 1 HOT to 5 EMERGENCY in units of 0.25 °C. A reading enters HOT only above 85.0 °C. -/
def bandIn (s : State) (k : Nat) : Int :=
  (([341, 360, 368, 376, 380] : List Int).getD (k - 1) 380) - (min 40 (s.mem.bandOffsets.getD (k - 1) 0) : Nat)
def bandOut (s : State) (k : Nat) : Int :=
  (([332, 352, 360, 368, 352] : List Int).getD (k - 1) 352) - (min 40 (s.mem.bandOffsets.getD (k - 1) 0) : Nat)

/-- The highest of bands 1 to `n` whose entry value a reading has reached; 0 NORMAL. -/
def bandReached (s : State) (t : Int) : Nat → Nat
  | 0 => 0
  | k + 1 => if bandIn s (k + 1) ≤ t then k + 1 else bandReached s t k

/-- The band that a reading leaves a stack in that was in band `k`: bands are left one after another. -/
def bandLeft (s : State) (t : Int) : Nat → Nat
  | 0 => 0
  | k + 1 => if t ≤ bandOut s (k + 1) then bandLeft s t k else k + 1

/-- Distinct peers of the links that carry traffic, each with one of its channels; loop links lead to none (R333). -/
def linkPeers (s : State) : List (Half × Chan) :=
  s.fab.links.foldl (fun (acc : List (Half × Chan)) (k, l) =>
    if l.usable && decide (l.peer ≠ s.fab.modId) && acc.all (fun x => decide (x.1 ≠ l.peer)) then acc ++ [(l.peer, chanOf k)] else acc) []

/-- Send THERMAL_SLOW, set or clear, to every link peer. -/
def sendSlow (s : State) (on : Bool) : State :=
  (linkPeers s).foldl (fun s (m, c) =>
    let p := { blankPkt s ptThermalSlow m 24 24 with scope := 1, addr := w64 (b2n on) }
    toPeer s p c) s

/-- The time between repeats of THERMAL_SLOW: 1 ms. -/
def slowRepeatNs : Nat := 1000000

/-- THERMAL_SLOW follows the bands (R261): raised while a stack is in a throttle band or in EMERGENCY. -/
def checkSlow (s : State) : State :=
  let now := allDies.any fun n => stackThrottled s.mem.st[n]
  if now = s.mem.slow then s
  else
    let s := { s with mem := { s.mem with slow := now, slowRepeat := if now then some (s.clk + slowRepeatNs) else none } }
    retime (sendSlow s now)

/-- A memory event that names a stack. -/
def stackEvent (s : State) (bit : Nat) (n : Stack) : State :=
  rsEvent (setReg s rMemErrInfo (w32 (n.val * 2 ^ 27))) rMemErr bit

/-- A stack enters EMERGENCY (R263). A clear verdict makes it a pass-2 fault (R289), and the image stops at the end of
the step. -/
def enterEmergency (s : State) (n : Stack) : State :=
  if s.mem.st[n].emergency then s
  else
    let s := updStack s n fun x => { x with emergency := true, band := 5 }
    let s := rampBreak (stackEvent s 7 n)
    let s := if inPass2 s then pass2Fault s 0xFFFF (BitVec.ofNat 8 n.val) p2Emergency else s
    requestStop s 9

/-- A stack takes a band below EMERGENCY. -/
def takeBand (s : State) (n : Stack) (b : Nat) : State :=
  let old := s.mem.st[n].band
  let s := updStack s n fun x => { x with band := b, emergency := false }
  if 2 ≤ b ∧ old < b then stackEvent s 6 n else s

/-- STACK_TEMP_READ: a valid reading, in units of 0.25 °C, places the stack in its band; the third failed reading in a
row counts as THROTTLE25 (R260, R262). -/
def doStackTempRead (n : Stack) (temp : Option Int) (s : State) : State :=
  let x := s.mem.st[n]
  if !x.inService then s else
  match temp with
  | some t =>
    let failed := decide (3 ≤ x.fails)
    let s := updStack s n fun x =>
      { x with tempNow := unsign 16 t, tempMax := if !x.everValid ∨ sext 16 x.tempMax < t then unsign 16 t else x.tempMax,
               fails := 0, lastValid := s.clk, everValid := true }
    let up := bandReached s t 5
    let s :=
      if x.emergency then (if t ≤ bandOut s 5 then takeBand s n (if failed then up else bandLeft s t 4) else s)
      else if up = 5 then enterEmergency s n
      else takeBand s n (if failed then up else max up (bandLeft s t x.band))
    checkSlow s
  | none =>
    let s := updStack s n fun x => { x with fails := x.fails + 1 }
    if x.fails + 1 = 3 then
      let s := stackEvent s 8 n
      checkSlow (if x.emergency then s else takeBand s n (max x.band 4))
    else s

/-- STACK_SENSOR_TIMEOUT: 10 ms after the last valid reading, the stack enters EMERGENCY (R262). -/
def doStackSensorTimeout (n : Stack) (s : State) : State :=
  let x := s.mem.st[n]
  if !x.inService ∨ x.fails = 0 then s
  else checkSlow (enterEmergency (advanceTo (x.lastValid + 10000000) s) n)

/-- THERMAL_SLOW_REPEAT. -/
def doThermalSlowRepeat (s : State) : State :=
  match s.mem.slowRepeat with
  | none => s
  | some t =>
    let s := advanceTo t s
    sendSlow { s with mem := { s.mem with slowRepeat := some (s.clk + slowRepeatNs) } } true

end Sys2Proof.Machine
end

