-- ==== Sys2Proof/Machine/Links.lean ====
section
/-! DEFINITION. Machine/Links.lean: link identity (R346 to R351, R365) and the end of a routing bank's drain (R322). -/
namespace Sys2Proof.Machine
open Sys2Proof

/-! ### The peer expected on a link (R349) -/

/-- The end of a link that a LINK_HELLO must name. -/
structure LinkEnd where
  mod : Half
  port : Nat
  fibre : Nat
  line : Nat
  deriving DecidableEq, Repr

/-- Sites of a RING or CHAIN: one more than the highest site that the current RACK table reaches. -/
def siteCount (s : State) : Nat :=
  1 + s.fab.rack[bankOf s.fab.cur].foldl (fun m (r, w) => if bitAt w 15 then max m (siteOf s.fab r) else m)
    (siteOf s.fab (rackOf s.fab.modId))

/-- The module that a C port leads to in RING or CHAIN mode (R343). -/
def ringPeer (s : State) (plus : Bool) : Option Half :=
  let r := rackOf s.fab.modId
  let b := 2 ^ s.fab.bDims
  let n := siteCount s
  let at_ := siteOf s.fab r
  let dest := if plus then at_ + 1 else at_ + n - 1
  if s.fab.cMode = 2 ∧ ((plus ∧ n ≤ at_ + 1) ∨ (!plus ∧ at_ = 0)) then none
  else some (modIdOf (dest % n * b + r % b) (posOf s.fab.modId))

/-- The peer expected on a channel, if the fabric names one. -/
def expectedPeer (s : State) (ch : Chan) : Option LinkEnd :=
  let f := ch.fibre.val
  let w := ch.lambda.val
  if ch.port.val < 2 then
    let o := ((16 * ch.port.val + f) ^^^ (4 * w)) % 64
    some ⟨modIdOf (rackOf s.fab.modId) (posOf s.fab.modId ^^^ o), ch.port.val, f, w⟩
  else if 4 ≤ ch.port.val ∧ s.fab.cMode ≠ 0 then
    (ringPeer s (decide (ch.port.val = 4))).map fun m => ⟨m, 9 - ch.port.val, f, w⟩
  else (chanDim s s.fab.cur ch).map fun d => ⟨modIdOf (neighbour d (rackOf s.fab.modId)) (posOf s.fab.modId), ch.port.val, f, w⟩

/-! ### LINK_HELLO -/

/-- Protocol levels that the firmware supports (R350). -/
def levelMax : Nat := 3
def levelMin : Nat := 2

/-- FLAGS of a LINK_HELLO sent on a link. -/
def helloFlags (s : State) (l : Link) : Nat := b2n s.fab.settled + 2 * b2n l.accepted + 4 * b2n (decide (l.quar ≠ 0))

/-- The 64 bytes of a LINK_HELLO (R347). -/
def helloBytes (s : State) (ch : Chan) : List Byte :=
  let l := link s ch
  leBytes 2 s.fab.modId.toNat ++ leBytes 1 ch.port.val ++ leBytes 1 ch.fibre.val ++ leBytes 1 ch.lambda.val ++
  leBytes 1 (s.fab.cMode + 16 * s.fab.bDims) ++ leBytes 1 levelMax ++ leBytes 1 levelMin ++ leBytes 1 (helloFlags s l) ++
  leBytes 1 0 ++ leBytes 2 (jobOf s).toNat ++ leBytes 4 l.helloSeq.toNat ++ leBytes 32 s.fab.topoHash.toNat ++ leBytes 16 0

/-- Until the next LINK_HELLO of a link (R348): 1 s while it is accepted, else 100 ms. -/
def helloNs (l : Link) : Nat := if l.accepted ∧ l.quar = 0 then 1000000000 else 100000000

/-- Send LINK_HELLO on a channel. -/
def sendHello (s : State) (ch : Chan) : State :=
  let s := updLink s ch fun l => { l with helloSeq := l.helloSeq + 1, helloAt := some (s.clk + helloNs l) }
  let p := { blankPkt s ptHello ((expectedPeer s ch).elim 0xFFFF (·.mod)) 24 24 with scope := 1, payload := helloBytes s ch }
  toPeer s p ch

/-- The credit of a link that is not yet accepted: that of one management packet, for LINK_HELLO (DESIGN CHOICE, log entry
80). -/
def firstCredit : Vector Nat 8 := #v[0, 0, 0, 0, 0, 0, 2, 0]

/-- A channel returns to service other than from rest (R348, R385): its link must be accepted again. -/
def channelUp (s : State) (ch : Chan) : State :=
  sendHello (updLink s ch fun l =>
    { l with up := true, rest := false, closing := false, lockedAt := some s.clk, answered := false, accepted := false, peerAcc := false,
               dCnt := Vector.replicate 4 0, credit := firstCredit, granted := firstCredit }) ch

/-- Causes of PORTk_LINK_INFO. -/
def qId : Nat := 1
def qPlace : Nat := 2
def qHash : Nat := 3
def qLevel : Nat := 4
def qSilent : Nat := 5
def qUnsettled : Nat := 6
def qChanged : Nat := 7

/-- A link is quarantined (R349, R351): recorded in the port's registers with what its peer claimed, and told to
the BMC. -/
def quarantine (s : State) (ch : Chan) (cause : Nat) (claim : Option LinkEnd) : State :=
  let w := portWin ch.port.val
  let s := updLink s ch fun l => { l with quar := cause, accepted := false, peerAcc := false, helloAt := l.helloAt.map (min (s.clk + 100000000)) }
  let s := setReg s (w + rPLinkInfo) (w32 (ch.fibre.val * 2 ^ 28 + ch.lambda.val * 2 ^ 24 + cause * 2 ^ 20))
  let s := match claim with
    | some c => setReg s (w + rPLinkPeer) (w32 (c.mod.toNat * 65536 + c.port % 8 * 8192 + c.fibre % 16 * 512 + c.line % 16 * 32))
    | none => setReg s (w + rPLinkPeer) 0xFFFF0000
  emit (rsEvent s (w + rPLinkErr) (cause - 1)) (.pldmEvent 8)

/-- What a LINK_HELLO claims. -/
def helloPlace (p : Packet) : LinkEnd :=
  ⟨BitVec.ofNat 16 (leAt p.payload 0 2), leAt p.payload 2 1, leAt p.payload 3 1, leAt p.payload 4 1⟩

/-- The first check of R349 that a LINK_HELLO fails; 0 when all pass. -/
def helloCause (s : State) (ch : Chan) (p : Packet) : Nat :=
  let c := helloPlace p
  let lo := leAt p.payload 7 1
  let hi := leAt p.payload 6 1
  if ¬ (leAt p.payload 8 1).testBit 0 then qUnsettled
  else match expectedPeer s ch with
    | none => qId
    | some e =>
      if c.mod ≠ e.mod then qId
      else if c ≠ e then qPlace
      else if leAt p.payload 0x10 32 ≠ s.fab.topoHash.toNat ∨ leAt p.payload 5 1 ≠ s.fab.cMode + 16 * s.fab.bDims then qHash
      else if min hi levelMax < max lo levelMin then qLevel
      else 0

/-- The A peers that have answered with another rack number, whatever position they claim: by the position that the channel
leads to. -/
def aOther (s : State) : List Nat :=
  s.fab.links.foldl (fun (acc : List Nat) (k, l) =>
    if k < 512 ∧ l.answered ∧ l.peer ≠ 0xFFFF ∧ rackOf l.peer ≠ rackOf s.fab.modId then
      match expectedPeer s (chanOf k) with
      | some e => if posOf e.mod ≠ posOf s.fab.modId ∧ posOf e.mod ∉ acc then acc ++ [posOf e.mod] else acc
      | none => acc
    else acc) []

/-- The positions of A peers that have answered with this rack number and with the position that R332 gives. -/
def aAnswered (s : State) : List Nat :=
  s.fab.links.foldl (fun (acc : List Nat) (k, l) =>
    let q := posOf l.peer
    if k < 512 ∧ l.answered ∧ l.peer ≠ 0xFFFF ∧ rackOf l.peer = rackOf s.fab.modId ∧ q ≠ posOf s.fab.modId ∧
        (expectedPeer s (chanOf k)).any (fun e => decide (posOf e.mod = q)) ∧ q ∉ acc
    then acc ++ [q] else acc) []

/-- FAB_ID.VALID and OWN_ID (R346). -/
def checkOwnId (s : State) : State :=
  if s.start.idValid || !s.fab.settled then s
  else if 32 ≤ (aOther s).length then
    rsEvent (rsEvent s (portWin 0 + rPLinkErr) 7) (portWin 1 + rPLinkErr) 7
  else if 32 ≤ (aAnswered s).length then { s with start := { s.start with idValid := true } }
  else s

/-- Tell the other peers when a dimension has its first link again (R314). -/
def noticeReturn (s : State) (ch : Chan) (before : Bool) : State :=
  match chanDim s s.fab.cur ch with
  | some d => if !before && dimAlive s d then routeNotice s d ch true else s
  | none => s

/-- A LINK_HELLO is checked (R349). -/
def takeHello (p : Packet) (ch : Chan) (s : State) : State :=
  let c := helloPlace p
  let was := (link s ch).accepted
  let cause := helloCause s ch p
  let before := (chanDim s s.fab.cur ch).any (dimAlive s)
  let s := updLink s ch fun l => { l with peer := c.mod, answered := true, lockedAt := none }
  if cause ≠ 0 then
    if was then
      let s := linkDown s ch
      quarantine (updLink s ch fun l => { l with up := true }) ch qChanged (some c)
    else checkOwnId (quarantine s ch cause (some c))
  else
    let s := updLink s ch fun l =>
      { l with up := true, quar := 0, accepted := true, peerAcc := (leAt p.payload 8 1).testBit 1, level := min (leAt p.payload 6 1) levelMax }
    let s := if was then s else firstGrants s ch
    retryWaiting (checkOwnId (noticeReturn s ch before)) fun _ => true

/-- LINK_HELLO. -/
def doLinkHello (p : Packet) (ch : Chan) (s : State) : State := arrive ptHello p ch (takeHello p ch) s

/-- HELLO_TIMER. -/
def doHelloTimer (ch : Chan) (s : State) : State :=
  match (link s ch).helloAt with
  | none => s
  | some t => sendHello (advanceTo t s) ch

/-- HELLO_SILENT: no LINK_HELLO within 100 ms of lock. -/
def doHelloSilent (ch : Chan) (s : State) : State :=
  match (link s ch).lockedAt with
  | none => s
  | some t =>
    let s := advanceTo (t + 100000000) s
    quarantine (updLink s ch fun l => { l with lockedAt := none }) ch qSilent none

/-- EPOCH_DRAIN_DONE. -/
def doEpochDrainDone (s : State) : State :=
  match s.fab.retireAt with
  | none => s
  | some t => if epochClear s s.fab.drainEpoch then freeBank (advanceTo t s) else s

end Sys2Proof.Machine
end

