-- ==== Sys2Proof/Machine/Optics.lean ====
section
/-! DEFINITION. Machine/Optics.lean: the optical ports and the light source (12): rings, channels, rest slots, shutters,
feeds and codewords. -/
namespace Sys2Proof.Machine
open Sys2Proof

/-! ### Channels and rings -/

/-- Fibres per direction of a port (R366). -/
def portFibres (k : Nat) : Nat := if k < 2 then 16 else if k < 4 then 8 else 4

/-- The port has this channel's fibre. -/
def chanExists (ch : Chan) : Bool := decide (ch.fibre.val < portFibres ch.port.val)

/-- Every channel of the module. -/
def allChans : List Chan := (List.range 1536).filterMap fun n => if chanExists (chanOf n) then some (chanOf n) else none

/-- The key of a ring. -/
def ringNo (r : Ring) : Nat := 2 * chanNo r.ch + b2n r.rx

/-- A ring. -/
def ring (s : State) (r : Ring) : RingState := SMap.get {} s.opt.rings (ringNo r)

/-- Replace the optics. -/
def updOpt (s : State) (f : OptState → OptState) : State := { s with opt := f s.opt }

/-- Update a ring. -/
def updRing (s : State) (r : Ring) (f : RingState → RingState) : State :=
  updOpt s fun o => { o with rings := SMap.upd {} o.rings (ringNo r) f }

/-- The first feed of a port (R366). -/
def portFeed (k : Nat) : Nat := [0, 4, 8, 10, 12, 13].getD k 0

/-- The feed of a transmit fibre (R367). -/
def feedOf (ch : Chan) : Nat := portFeed ch.port.val + ch.fibre.val / 4

/-- The key of a shutter. -/
def shutNo (port : Fin 6) (fib : Fin 16) : Nat := 16 * port.val + fib.val

/-- A transmit shutter has been closed, and no light has opened it for good since (R390). -/
def shutHeld (s : State) (k : Nat) : Bool := decide (SMap.get 1 s.opt.closed k ≠ 0)

/-- A transmit shutter is closed now: neither open nor in one of its openings (R390). -/
def shutClosed (s : State) (k : Nat) : Bool := shutHeld s k && !decide (s.clk < SMap.get 0 s.opt.openUntil k)

/-- The number of the bundle of a port, and whether a direction of it is DOWN (R393, R406). -/
def bundleDown (s : State) (b dir : Nat) : Bool :=
  let gs := if b < 24 then (List.range 8).map (8 * b + ·)
    else if b < 48 then (List.range 4).map (192 + 4 * (b - 24) + ·)
    else if b < 50 then (List.range 16).map (288 + 16 * (b - 48) + ·)
    else if b < 52 then (List.range 8).map (320 + 8 * (b - 50) + ·)
    else (List.range 4).map (336 + 4 * (b - 52) + ·)
  gs.all fun g => ((SMap.get {} s.dl.groups (2 * g + dir)).lanes.all fun l => match l with | .off _ => true | _ => false)

/-- A ring holds its line: it is locked, or at rest for a planned calibration. -/
def ringHolds (x : RingState) : Bool := decide (x.st = .locked) || decide (x.st = .rest)

/-- The transmit direction of a channel is in service but for a planned rest: ring on its line, feed within limits,
shutter open, port bundle up. -/
def txServing (s : State) (ch : Chan) : Bool :=
  s.opt.on && chanExists ch && ringHolds (ring s ⟨ch, false⟩) && s.opt.feedOk.getLsbD (feedOf ch) &&
  !shutHeld s (shutNo ch.port ch.fibre) && !bundleDown s (48 + ch.port.val) 0 && !bundleDown s (48 + ch.port.val) 1

/-- Both directions of a channel are in service but for a planned rest. -/
def serving (s : State) (ch : Chan) : Bool := txServing s ch && ringHolds (ring s ⟨ch, true⟩)

/-- A channel leaves service without notice: its link goes down (R314), and no LINK_HELLO is due on it. -/
def channelLost (s : State) (ch : Chan) : State := updLink (linkDown s ch) ch fun l => { l with helloAt := none }

/-- Make a change, and carry out what it means for channels `chs`: one that left service without notice takes its link
down (R314), one that came into service sends LINK_HELLO (R348, R385). -/
def withChans (chs : List Chan) (f : State → State) (s : State) : State :=
  let before := chs.map (serving s)
  let s := f s
  (chs.zip before).foldl (fun s (ch, was) =>
    if was && !serving s ch then channelLost s ch
    else if !was && serving s ch then channelUp s ch
    else s) s

/-- PORTk_ERR_INFO and an optical event. -/
def portEvent (s : State) (bit : Nat) (ch : Chan) (rx : Bool) (seen cause : Nat) : State :=
  let w := portWin ch.port.val
  rsEvent (setReg s (w + rPortErrInfo)
    (w32 (ch.fibre.val * 2 ^ 28 + ch.lambda.val * 2 ^ 24 + b2n rx * 2 ^ 23 + seen * 2 ^ 19 + cause * 2 ^ 15))) (w + rPortErr) bit

/-! ### Ring lock (R376 to R382) -/

/-- The heat that moves a resonance by 100 GHz, at 36 GHz per mW. -/
def parkHeat : Int := 1280000

/-- A ring goes to its park position: the calibrated heater value less the heat of 100 GHz, and no less than none (R376). -/
def RingState.park (x : RingState) : RingState := { x with st := .parked, heater := max 0 (x.cal - parkHeat) }

/-- A ring goes to FAILED (R382). -/
def ringFail (s : State) (r : Ring) : State :=
  emit (portEvent (updRing s r fun x => { x with st := .failed }) 4 r.ch r.rx 0 4) (.pldmEvent 8)

/-- A ring parks after an acquisition or a VERIFY that failed; the fourth in a row is a failure. -/
def ringRetry (s : State) (r : Ring) : State :=
  let s := updRing s r fun x => { x.park with tries := x.tries + 1 }
  if 4 ≤ (ring s r).tries then ringFail s r else s

/-- The ring may acquire: parked or acquiring, and lit where it is a transmit ring. -/
def mayAcquire (s : State) (r : Ring) : Bool :=
  decide ((ring s r).st = .parked ∨ (ring s r).st = .acquire) && (r.rx || s.opt.feedOk.getLsbD (feedOf r.ch))

/-- RING_ACQUIRE_DONE: the sweep ends with a resonance at a heater value, in units of 1/512 mW, or without one. -/
def doRingAcquireDone (r : Ring) (found : Option Half) (s : State) : State :=
  if !mayAcquire s r then s else
  match found with
  | none => ringRetry s r
  | some h =>
    let again := (ring s r).relock
    let s := updRing s r fun x => { x with st := .verify, heater := 900 * (h.toNat : Int), relock := false }
    if again then addReg s (portWin r.ch.port.val + rRelocks) 1 else s

/-- A ring is on the wrong line (R380 to R382): it parks, and its channel leaves service; the third time within 10 s it
fails. -/
def mislock (s : State) (r : Ring) (seen : Fin 16) : State :=
  let ver := decide ((ring s r).st = .verify)
  let s := withChans [r.ch] (fun s => updRing s r fun x =>
    { x.park with relock := true, tries := x.tries + b2n ver,
                  mis := (x.mis.filter fun t => decide (s.clk < t + 10000000000)) ++ [s.clk] }) s
  let s := portEvent s 1 r.ch r.rx seen.val 2
  if 3 ≤ (ring s r).mis.length ∨ 4 ≤ (ring s r).tries then ringFail s r else s

/-- RING_VERIFY_DONE: the 250 µs measurement finds the ring's own tone, another, or none. -/
def doRingVerifyDone (r : Ring) (tone : Option (Fin 16)) (s : State) : State :=
  if (ring s r).st ≠ .verify then s else
  match tone with
  | none => ringRetry s r
  | some w =>
    if w = r.ch.lambda then withChans [r.ch] (fun s => updRing s r fun x => { x with st := .locked, cal := x.heater, tries := 0 }) s
    else mislock s r w

/-- LOCK_LOST. -/
def doLockLost (r : Ring) (s : State) : State :=
  if (ring s r).st ≠ .locked then s else
  portEvent (withChans [r.ch] (fun s => updRing s r fun x => { x.park with relock := true }) s) 0 r.ch r.rx 0 1

/-- DITHER_WINDOW. -/
def doDitherWindow (r : Ring) (tone : Option (Fin 16)) (s : State) : State :=
  if (ring s r).st ≠ .verify ∧ (ring s r).st ≠ .locked then s else
  match tone with
  | some w => if w = r.ch.lambda then s else mislock s r w
  | none => s

/-- The full range of a heater: 100 mW (R376). -/
def heaterMax : Int := 46080000

/-- An order hop outside a rest slot (R379): the channel leaves service without notice and the ring acquires again. -/
def hopNow (s : State) (r : Ring) : State :=
  portEvent (withChans [r.ch] (fun s => updRing s r fun x => { x.park with hop := false }) s) 3 r.ch r.rx 0 5

/-- What a heater's place in its range asks for (R379). -/
def checkHeater (s : State) (r : Ring) : State :=
  let h := (ring s r).heater
  if h ≤ 0 ∨ heaterMax ≤ h then hopNow s r
  else if h < heaterMax / 20 ∨ heaterMax - heaterMax / 20 < h then updRing s r fun x => { x with hop := true }
  else s

/-- The key of a ring bank. -/
def bankNo (port : Fin 6) (fib : Fin 16) (rx : Bool) : Nat := 32 * port.val + 2 * fib.val + b2n rx

/-- A ring's calibrated heater follows its bank's temperature; a locked or parked heater with it. -/
def RingState.warm (x : RingState) (corr : Int) : RingState :=
  let y := { x with cal := max 0 (min heaterMax (x.cal - corr)) }
  match x.st with
  | .locked => { y with heater := max 0 (min heaterMax (x.heater - corr)) }
  | .parked => y.park
  | _ => y

/-- RING_FEEDFORWARD: the bank's temperature, in 0.1 °C, is read, and each heater of the bank is corrected by
k_T × ΔT. k_T is in units of 0.1 GHz per °C and a mW moves a resonance 36 GHz, so the correction in units of 1/460,800
mW is 128 × k_T × ΔT. -/
def doRingFeedforward (port : Fin 6) (fib : Fin 16) (rx : Bool) (temp : Int) (s : State) : State :=
  if portFibres port.val ≤ fib.val then s else
  let k := bankNo port fib rx
  let dT : Int := match SMap.get none s.opt.bankT k with
    | some t => temp - t
    | none => 0
  let corr : Int := 128 * SMap.get 140 s.opt.kT k * dT
  let s := updOpt s fun o => { o with
    bankT := SMap.set none o.bankT k (some temp)
    bankMax := SMap.upd none o.bankMax k fun m => some (match m with | some x => max x temp | none => temp) }
  (List.range 16).foldl (fun s w =>
    let r : Ring := ⟨⟨port, fib, ⟨w % 16, Nat.mod_lt _ (by decide)⟩⟩, rx⟩
    if (ring s r).st = .off then s else
    let s := updRing s r fun x => x.warm corr
    if (ring s r).st = .locked then checkHeater s r else s) s

/-! ### Calibration rotation (R383 to R385) -/

/-- The line that rests by the timebase. -/
def restLine (s : State) : Nat := fld s.tb 25 22

/-- The length of a rest slot in ns. -/
def restSlotNs : Nat := 4194304

/-- ns since the rest slot in hand began. -/
def intoSlot (s : State) : Nat := s.tb.toNat % restSlotNs

/-- REST_PREPARE: RTT + 20 µs before its rest slot, a channel of the line that rests next takes no new packet. -/
def doRestPrepare (ch : Chan) (s : State) : State :=
  if !serving s ch ∨ ch.lambda.val ≠ (restLine s + 1) % 16 then s
  else
    let lead := 2 * Config.linkLatency (chanNo ch) + 20000
    let s := advance (restSlotNs - intoSlot s - lead) s
    updLink s ch fun l => { l with closing := true }

/-- A channel whose last packet is acknowledged rests: its last codeword carries REST. -/
def enterRest (s : State) (ch : Chan) : State :=
  let l := link s ch
  if l.closing ∧ !l.rest ∧ l.unacked = [] ∧ ch.lambda.val = restLine s ∧ SMap.get false s.opt.skip (chanNo ch) = false ∧
      (ring s ⟨ch, false⟩).st = .locked then
    let hop := (ring s ⟨ch, false⟩).hop
    let s := updRing (updLink s ch fun l => { l with rest := true }) ⟨ch, false⟩ fun x => { x with st := .rest, hop := false }
    if hop then portEvent s 3 ch false 0 5 else s
  else s

/-- The channels of a port on one line. -/
def lineChans (port : Fin 6) (w : Nat) : List Chan :=
  (List.range (portFibres port.val)).map fun f =>
    ⟨port, ⟨f % 16, Nat.mod_lt _ (by decide)⟩, ⟨w % 16, Nat.mod_lt _ (by decide)⟩⟩

/-- A channel skipped in the slot that has ended carries traffic again. -/
def endSkip (s : State) (ch : Chan) : State :=
  if SMap.get false s.opt.skip (chanNo ch) then
    updOpt (updLink s ch fun l => { l with closing := false, dCnt := Vector.replicate 4 0 }) fun o =>
      { o with skip := SMap.set false o.skip (chanNo ch) false }
  else s

/-- REST_SLOT: the rest slot of the next line begins on a port. Failed rings of that line are tried once more, and
its channels rest once their last packet is acknowledged. -/
def doRestSlot (port : Fin 6) (s : State) : State :=
  if !s.opt.on then s else
  let s := advance ((restSlotNs - intoSlot s) % restSlotNs) s
  let s := setFld s (portWin port.val + rPortStat) 31 28 (restLine s)
  let s := (lineChans port (restLine s + 15)).foldl endSkip s
  (lineChans port (restLine s)).foldl (fun s ch =>
    let s := [false, true].foldl (fun s rx =>
      if (ring s ⟨ch, rx⟩).st = .failed then updRing s ⟨ch, rx⟩ fun x => { x with st := .acquire, tries := 3 } else s) s
    enterRest s ch) s

/-- REST_CAL_DONE: calibration ends. The values are the movement of the lock point in units of 0.5 GHz, the heater in
units of 1/512 mW and k_T in units of 0.1 GHz per °C; all of them go to the flash log. -/
def doRestCalDone (ch : Chan) (vals : List Half) (s : State) : State :=
  if (ring s ⟨ch, false⟩).st ≠ .rest then s else
  let s := { s with flash := { s.flash with ringCal := SMap.set [] s.flash.ringCal (ringNo ⟨ch, false⟩) vals } }
  let s := updRing s ⟨ch, false⟩ fun x =>
    let h : Int := match vals[1]? with | some h => 900 * (h.toNat : Int) | none => x.heater
    { x with st := .locked, heater := h, cal := h }
  let s := match vals[2]? with
    | some k => updOpt s fun o => { o with kT := SMap.set 140 o.kT (bankNo ch.port ch.fibre false) (k.toNat : Int) }
    | none => s
  let s := updLink s ch fun l => { l with rest := false, closing := false, dCnt := Vector.replicate 4 0 }
  let s := match vals[0]? with
    | some d => if 40 < (sext 16 d.toNat).natAbs then portEvent s 5 ch false 0 8 else s
    | none => s
  retryWaiting (sendHello s ch) fun _ => true

/-- CAL_SKIP: no last acknowledgement by +2,000 µs. -/
def doCalSkip (ch : Chan) (s : State) : State :=
  let l := link s ch
  if !l.closing ∨ l.rest ∨ ch.lambda.val ≠ restLine s ∨ l.unacked = [] ∨ SMap.get false s.opt.skip (chanNo ch) then s
  else
    let s := if intoSlot s < 2000000 then advance (2000000 - intoSlot s) s else s
    let s := addReg s (portWin ch.port.val + rCalSkip) 1
    updOpt s fun o => { o with skip := SMap.set false o.skip (chanNo ch) true }

/-- LINK_CONTROL_WORD: the last acknowledgement of a channel lets it rest. -/
def doLinkControlWord (w : Lcw) (_ch : Chan) (s : State) : State := enterRest (takeLcw w s) w.about

/-! ### Shutters (R390) -/

/-- The channels of a fibre. -/
def fibreChans (port : Fin 6) (fib : Fin 16) : List Chan :=
  if fib.val < portFibres port.val then (List.range 16).map fun w => ⟨port, fib, ⟨w % 16, Nat.mod_lt _ (by decide)⟩⟩ else []

/-- Mark the lines of a receive fibre dark or lit. -/
def setDark (s : State) (port : Fin 6) (fib : Fin 16) (v : Bool) : State :=
  updOpt s fun o => { o with lol := (fibreChans port fib).foldl (fun m c => SMap.set false m (chanNo c) v) o.lol }

/-- The time between openings of a closed shutter, and their length. -/
def probeEvery : Nat := 500000000
def probeNs : Nat := 2000000

/-- SHUTTER_CLOSE: every line of a receive fibre has been dark for 1 ms. -/
def doShutterClose (port : Fin 6) (fib : Fin 16) (s : State) : State :=
  let k := shutNo port fib
  if !s.opt.on ∨ portFibres port.val ≤ fib.val ∨ SMap.get 1 s.opt.closed k ≠ 0 then s else
  let s := withChans (fibreChans port fib) (fun s =>
    updOpt (setDark s port fib true) fun o => { o with closed := SMap.set 1 o.closed k (s.clk + probeEvery + 1), openUntil := SMap.set 0 o.openUntil k 0 }) s
  portEvent s 6 ⟨port, fib, 0⟩ false 0 6

/-- SHUTTER_PROBE: a closed shutter opens for 2 ms. -/
def doShutterProbe (port : Fin 6) (fib : Fin 16) (s : State) : State :=
  let k := shutNo port fib
  let t := SMap.get 1 s.opt.closed k
  if !s.opt.on ∨ portFibres port.val ≤ fib.val ∨ t = 0 then s else
  let s := advanceTo (t - 1) s
  updOpt s fun o => { o with closed := SMap.set 1 o.closed k (s.clk + probeEvery + 1), openUntil := SMap.set 0 o.openUntil k (s.clk + probeNs) }

/-- SHUTTER_OPEN: light on the receive fibre opens the shutter, and it stays open. -/
def doShutterOpen (port : Fin 6) (fib : Fin 16) (s : State) : State :=
  let k := shutNo port fib
  if !s.opt.on ∨ portFibres port.val ≤ fib.val then s else
  withChans (fibreChans port fib) (fun s =>
    updOpt (setDark s port fib false) fun o => { o with closed := SMap.set 1 o.closed k 0, openUntil := SMap.set 0 o.openUntil k 0 }) s

/-! ### The LS-16 and its feeds (R372 to R375) -/

/-- The transmit channels of a feed. -/
def feedChans (j : Nat) : List Chan := allChans.filter fun c => decide (feedOf c = j)

/-- The port of a feed. -/
def feedPort (j : Nat) : Nat := if j < 4 then 0 else if j < 8 then 1 else if j < 10 then 2 else if j < 12 then 3 else if j < 13 then 4 else 5

/-- A feed is lost: its transmit rings park and its channels leave service without notice. -/
def loseFeed (s : State) (j : Nat) : State :=
  if !(s.opt.feedOk.getLsbD j) then s else
  let chs := feedChans j
  let s := withChans chs (fun s =>
    let s := updOpt s fun o => { o with feedOk := o.feedOk &&& ~~~(BitVec.ofNat 14 (2 ^ j)) }
    chs.foldl (fun s c => updRing s ⟨c, false⟩ RingState.park) s) s
  let s := rsEvent s rLsErr 2
  portEvent s 2 ⟨⟨feedPort j % 6, Nat.mod_lt _ (by decide)⟩, ⟨4 * (j - portFeed (feedPort j)) % 16, Nat.mod_lt _ (by decide)⟩, 0⟩ false 0 3

/-- Every feed goes dark. -/
def loseAllFeeds (s : State) : State := (List.range 14).foldl loseFeed s

/-- FEED_LOSS. -/
def doFeedLoss (j : Fin 14) (s : State) : State := loseFeed s j.val

/-- FEED_RETURN: a feed has held within its limits for 100 ms; its rings acquire again. -/
def doFeedReturn (j : Fin 14) (s : State) : State :=
  if !s.opt.on ∨ s.opt.feedOk.getLsbD j.val then s else
  let s := updOpt s fun o => { o with feedOk := o.feedOk ||| BitVec.ofNat 14 (2 ^ j.val) }
  (feedChans j.val).foldl (fun s c => updRing s ⟨c, false⟩ fun x => { x with st := .acquire }) s

/-- The MSD reads STATUS of the LS-16: bits 15:0 of the word, with GRID_OFS in 31:16; none when the transfer failed
three times. The whole module is dark when READY falls. -/
def readStatus (st : Option Word) (s : State) : State :=
  if !s.opt.present then s else
  match st with
  | none => rsEvent s rLsErr 5
  | some w =>
    let s := if 150 < (sext 16 (fld w 31 16)).natAbs then rsEvent s rLsErr 4 else s
    if bitAt w 0 then updOpt s fun o => { o with enabled := true }
    else loseAllFeeds (updOpt s fun o => { o with enabled := false })

/-- STATUS is read at an interrupt or a poll. DESIGN CHOICE: LS_FAULT_N is taken to be high again once STATUS reads no FAULT (log
entry 81). -/
def pollStatus (st : Option Word) (s : State) : State :=
  updOpt (readStatus st s) fun o => { o with fault := o.fault && st.all fun w => bitAt w 1 }

/-- LS_IBI. -/
def doLsIbi (st : Option Word) (s : State) : State := pollStatus st s
/-- LS_STATUS_POLL. -/
def doLsStatusPoll (st : Option Word) (s : State) : State := pollStatus st s

/-- LS_FAULT: LS_FAULT_N falls. STATUS and FEED_FAULT are read, and FEED_EN is cleared for each faulty feed. -/
def doLsFault (st : Word) (feedFault : Half) (s : State) : State :=
  if !s.opt.present then s else
  let s := rsEvent (updOpt s fun o => { o with fault := true }) rLsErr 1
  let s := readStatus (some st) s
  let en := s.opt.feedEn &&& ~~~(feedFault.setWidth 14)
  let s := emit (updOpt s fun o => { o with feedEn := en }) (.lsWrite 0x12 en.toNat)
  (List.range 14).foldl (fun s j => if feedFault.getLsbD j then loseFeed s j else s) s

/-! ### Codewords (R369, R370, R391) -/

/-- Counts of the second in hand, brought up to the present. -/
def fecNow (s : State) (x : FecSec) : FecSec :=
  let sec := s.clk / 1000000000
  if x.sec = sec then x
  else if x.sec + 1 = sec then { sec := sec, lastUnc := x.unc, lastCorr := x.corr }
  else { sec := sec }

/-- Count a codeword of a channel. -/
def countFec (s : State) (ch : Chan) (unc corr : Nat) : State :=
  updOpt s fun o => { o with fec := SMap.upd {} o.fec (chanNo ch) fun x =>
    let x := fecNow s x
    { x with unc := x.unc + unc, corr := x.corr + corr } }

/-- Deliver a packet to the row of its type. -/
def deliver (s : State) (ch : Chan) (p : Packet) : State :=
  match p.type.toNat with
  | 0x01 => doWritePacket p ch s
  | 0x02 => doReadPacket p ch s
  | 0x03 => doSignalPacket p ch s
  | 0x10 => doReadData p ch s
  | 0x11 => doStatus p ch s
  | 0x12 => doE2eAck p ch s
  | 0x13 => doCollGrant p ch s
  | 0x20 => doCollData p ch s
  | 0x30 => doLinkHello p ch s
  | 0x31 => doPoisonPacket p ch s
  | 0x32 => doThermalSlowPacket p ch s
  | 0x33 => doRouteNotice p ch s
  | _ => arrive p.type p ch id s

/-- Acknowledge packets of a channel negatively, four in one word (R313). -/
def nakPackets (s : State) (ch : Chan) (ps : List Packet) : State :=
  (chop 4 (ps.length + 1) (ps.map (·.lsn))).foldl (fun s ns =>
    emit s (.linkControl { about := ch, ack := (link s ch).rxNext - 1, naks := ns, credits := [] })) s

/-- A drop ring rests with its sender (R384), and takes an order hop that waits (R379). What its heater is after the hop is a free
value. -/
def rxRest (s : State) (ch : Chan) : State :=
  let r : Ring := ⟨ch, true⟩
  if (ring s r).hop then
    let (n, s) := drawFree s
    let h : Int := 900 * (((Config.freeWord n).toNat % 51201 : Nat) : Int)
    portEvent (updRing s r fun x => { x with st := .rest, hop := false, heater := h, cal := h }) 3 ch true 0 5
  else updRing s r fun x => { x with st := .rest }

/-- CODEWORD_RECEIVE: a codeword is counted, and its packets are delivered, or discarded and asked for again when it could
not be corrected. A resting receive ring resumes on the first codeword, and REST lets it recalibrate (R384). -/
def doCodewordReceive (ch : Chan) (hdr : BitVec 20) (symbols : Nat) (bad : Bool) (pkts : List Packet) (lcw : Option Lcw) (s : State) : State :=
  if !s.opt.on ∨ !chanExists ch ∨ !ringHolds (ring s ⟨ch, true⟩) then s else
  let w := portWin ch.port.val
  let s := addReg64 s (w + rFecCw) 1
  let s := if (ring s ⟨ch, true⟩).st = .rest then updRing s ⟨ch, true⟩ fun x => { x with st := .locked } else s
  let s := updOpt s fun o => { o with nextCw := SMap.set 0 o.nextCw (chanNo ch) ((fld hdr 9 0 + 1) % 1024) }
  if bad then
    let s := addReg64 s (w + rFecUnc) 1
    let s := countFec s ch 1 0
    let s := if (SMap.get {} s.opt.fec (chanNo ch)).unc = 17 then portEvent s 7 ch true 0 7 else s
    nakPackets s ch pkts
  else
    let s := countFec (addReg64 s (w + rFecSym) symbols) ch 0 symbols
    let s := pkts.foldl (fun s p => deliver s ch p) s
    let s := match bitAt hdr 11, lcw with
      | true, some l => doLinkControlWord l ch s
      | _, _ => s
    if bitAt hdr 10 ∧ (ring s ⟨ch, true⟩).st = .locked then rxRest s ch else s

end Sys2Proof.Machine
end

