-- ==== Sys2Proof/Machine/DieLinks.lean ====
section
/-! DEFINITION. Machine/DieLinks.lean: die links (13): lane roles, flits, steers, retrains, recalibration, the consequences of a
bundle that is DOWN, and CORE reset of a die (R415). -/
namespace Sys2Proof.Machine
open Sys2Proof

/-! ### A compute die leaves service (R92, R289, R415) -/

/-- CORE reset of a die: its streams, array, contexts and die-local objects; the waits of its streams on global
objects are given up. CDn.MEM and its stack go on. -/
def resetCore (s : State) (d : Die) : State :=
  let s := allSids.foldl (fun s c => withdrawReady s d c) (withdrawAll s (allSids.map fun c => (d, c)))
  let s := resetColls s d .t
  updDie s d fun x => { x with str := ⟨{}, {}, {}, {}⟩, arr := {}, ctx := ⟨{}, {}, {}, {}⟩, objs := [], objGen := 0, coreReset := true }

/-- A die's CORE leaves service: a pass-2 fault after a clear verdict (R289), and otherwise the active image stops with
CD_OUT. A shadow image runs on (R442). -/
def dieOut (s : State) (d : Die) : State :=
  let s := rampBreak (resetCore s d)
  let s := updDie s d fun x => { x with out := true }
  if s.img.st = .none ∨ s.img.st = .shadow then s
  else if inPass2 s ∧ s.upd.replay.isNone then pass2Fault s 0xFFFF (BitVec.ofNat 8 d.val) p2CdOut
  else if s.img.st = .verifying ∨ s.img.st = .loading then s
  else stopImage s 10

/-- CORE_RESET. -/
def doCoreReset (d : Die) (s : State) : State := dieOut s d

/-! ### Group-directions (R393 to R399) -/

/-- A group-direction. -/
def grp (s : State) (g : Nat) : GroupDir := SMap.get {} s.dl.groups g

/-- Update a group-direction. -/
def updGrp (s : State) (g : Nat) (f : GroupDir → GroupDir) : State :=
  { s with dl := { s.dl with groups := SMap.upd {} s.dl.groups g f } }

/-- The bundle of a group-direction (R393). -/
def bundleOf (g : Nat) : Nat :=
  let k := g / 2
  if k < 192 then k / 8 else if k < 288 then 24 + (k - 192) / 4 else if k < 320 then 48 + (k - 288) / 16
  else if k < 336 then 50 + (k - 320) / 8 else 52 + (k - 336) / 4

/-- The role of a lane. -/
def laneRole (x : GroupDir) (l : Nat) : LaneRole := x.lanes.getD l (.off 0)

/-- Lanes that hold a role. -/
def lanesWhere (x : GroupDir) (p : LaneRole → Bool) : List Nat := (List.range 68).filter fun l => p (laneRole x l)

/-- Kinds of roles. -/
def LaneRole.isSpare : LaneRole → Bool | .spare _ => true | _ => false
def LaneRole.isOff : LaneRole → Bool | .off _ => true | _ => false
def LaneRole.carries : LaneRole → Bool | .data _ => true | .check => true | _ => false
def LaneRole.onProbation : LaneRole → Bool | .spare b => b | _ => false

/-- DATA lanes of a group-direction. -/
def dataLanes (x : GroupDir) : Nat := (lanesWhere x fun r => match r with | .data _ => true | _ => false).length

/-- WIDTH of LINK_GRPg: 0 FULL, 1 HALF, 2 OUT. -/
def grpWidth (x : GroupDir) : Nat := if dataLanes x = 64 then 0 else if dataLanes x = 32 then 1 else 2

/-- The spare that takes a role: the lowest one that is not on probation (R398, R403). -/
def takingSpare (x : GroupDir) : Option Nat := (lanesWhere x fun r => r.isSpare && !r.onProbation).head?

/-- LINK_ERR_INFO and a die-link event. -/
def linkEvent (s : State) (bit g lane cause : Nat) : State :=
  rsEvent (setReg s rLinkErrInfo (w32 (g * 2 ^ 22 + lane % 128 * 2 ^ 15 + cause * 2 ^ 11))) rLinkErr bit

/-- The roles of `good` lanes by R399: data indices go to the lowest-numbered lanes not on probation, CHECK to the
next, and the rest are spares. `prob` are the lanes on probation, `why` the reason of each lane that is not good. -/
def planRoles (good prob : Nat → Bool) (why : Nat → Nat) : List LaneRole :=
  let n := ((List.range 68).filter good).length
  let nd := if 65 ≤ n then 64 else if 33 ≤ n then 32 else 0
  let firm := (List.range 68).filter fun l => good l && !prob l
  let nd := if nd = 64 ∧ firm.length < 65 then 32 else nd
  let nd := if nd = 32 ∧ firm.length < 33 then 0 else nd
  (List.range 68).map fun l =>
    if !good l then .off (why l)
    else if nd = 0 then .off 3
    else
      let i := firm.idxOf l
      if !prob l && decide (i < nd) then .data i
      else if !prob l && decide (i = nd) then .check
      else .spare (prob l)

/-- A lane failed while running: logged in flash (R403). -/
def logLane (s : State) (g lane : Nat) : State :=
  { s with flash := { s.flash with lanes := SMap.upd 0 s.flash.lanes (68 * g + lane) (· + 1) } }

/-- The bundle direction of a group-direction is DOWN. -/
def dirDown (s : State) (g : Nat) : Bool := bundleDown s (bundleOf g) (g % 2)

/-- What follows when a bundle direction went DOWN (R406). `before` are the channels that were in service. -/
def bundleLost (s : State) (g : Nat) (was : Bool) (before : List (Chan × Bool)) : State :=
  if was ∨ !dirDown s g then s
  else
    let b := bundleOf g
    let s := linkEvent s 4 g 127 0
    if h : 24 ≤ b ∧ b < 48 then dieOut s ⟨b - 24, by omega⟩
    else before.foldl (fun s (c, up) => if up && !serving s c then channelLost s c else s) s

/-- Channels of the port whose bundle this is, with whether they are in service. -/
def portServing (s : State) (g : Nat) : List (Chan × Bool) :=
  let b := bundleOf g
  if b < 48 then [] else (allChans.filter fun c => decide (c.port.val = b - 48)).map fun c => (c, serving s c)

/-- Give a group-direction new lanes, with OUT and what follows from it. -/
def setLanes (s : State) (g : Nat) (ls : List LaneRole) (lane cause : Nat) : State :=
  let was := dirDown s g
  let before := portServing s g
  let hadSpare := !(lanesWhere (grp s g) LaneRole.isSpare).isEmpty
  let oldW := grpWidth (grp s g)
  let s := updGrp s g fun x => { x with lanes := ls }
  let s := if hadSpare && (lanesWhere (grp s g) LaneRole.isSpare).isEmpty && decide (grpWidth (grp s g) ≠ 2) then linkEvent s 5 g lane cause else s
  let s := if oldW ≠ 2 ∧ grpWidth (grp s g) = 2 then linkEvent s 3 g lane cause else s
  bundleLost s g was before

/-- A group-direction goes OUT until the next start. -/
def groupOut (s : State) (g lane cause : Nat) : State :=
  let x := grp s g
  setLanes (updGrp s g fun x => { x with retrainAt := none, recal := none }) g
    ((List.range 68).map fun l => match laneRole x l with | .off r => .off r | _ => .off 4) lane cause

/-! ### Flits (R396, R397) -/

/-- Control commands of the CHECK lane. -/
def cmdNak : Nat := 1
def cmdSteer : Nat := 2
def cmdRetrain : Nat := 3
def cmdRecal : Nat := 4

/-- Flits sent on a group-direction and not acknowledged, oldest first. -/
def unackedFlits (x : GroupDir) : List (BitVec 6) :=
  (List.range (x.sent - x.acked).toNat).map fun i => x.acked + BitVec.ofNat 6 i

/-- A retrain begins (R404): at most 25 µs, with the bundle direction held. Below feature level 3 the group-direction
goes OUT instead (R409). -/
def beginRetrain (s : State) (g lane cause : Nat) : State :=
  if s.dl.level < 3 then groupOut s g lane cause
  else updGrp s g fun x => { x with retrainAt := some (s.clk + 25000), recal := none }

/-- Resend from the first unacknowledged flit; the eighth replay of one flit makes the group-direction retrain. -/
def replayFlits (s : State) (g : Nat) : State :=
  let x := grp s g
  if x.sent = x.acked then s
  else
    let s := updGrp s g fun x => { x with replays := x.replays + 1 }
    let s := linkEvent (addReg64 s rFlitRetry 1) 0 g 127 1
    let s := (unackedFlits x).foldl (fun s f => emit s (.flit g f.toNat)) s
    if x.replays + 1 = 8 then
      let s := setReg s rLinkErrInfo (w32 (g * 2 ^ 22 + 127 * 2 ^ 15 + 4 * 2 ^ 11))
      beginRetrain (if s.dl.level < 3 then s else emit s (.flitCmd g cmdRetrain 127)) g 127 4
    else s

/-- An acknowledgement frees the sender's flits up to it. -/
def ackFlits (s : State) (g : Nat) (ack : BitVec 6) : State :=
  let x := grp s g
  let n := (ack + 1 - x.acked).toNat
  if n = 0 ∨ (x.sent - x.acked).toNat < n then s
  else updGrp s g fun x => { x with acked := ack + 1, replays := 0 }

/-- FLIT_NAK: the sender replays. -/
def doFlitNak (g : Fin 688) (s : State) : State := replayFlits s g.val

/-- The other direction of a group. -/
def revDir (g : Nat) : Nat := if g % 2 = 0 then g + 1 else g - 1

/-- FLIT_RECEIVE: the receiver checks CRC and FSEQ. A good flit in order is taken, and its ACK frees flits of the
reverse direction; a failure or a gap sends NAK. -/
def doFlitReceive (g : Fin 688) (check : Word) (data : List Byte) (s : State) : State :=
  let x := grp s g.val
  let f := BitVec.ofNat 6 (fld check 15 10)
  if grpWidth x = 2 ∨ x.retrainAt.isSome then s
  else if fld check 31 16 ≠ crc16 data ∨ f ≠ x.rxNext then
    let s := updGrp s g.val fun x => if x.sent = x.rxNext then { x with sent := x.rxNext + 1 } else x
    emit s (.flitCmd (revDir g.val) cmdNak 0)
  else
    let s := updGrp s g.val fun x => { x with rxNext := f + 1, sent := if x.sent = f then f + 1 else x.sent }
    let s := ackFlits s (revDir g.val) (BitVec.ofNat 6 (fld check 9 4))
    if fld check 3 0 = cmdNak then replayFlits s (revDir g.val) else s

/-! ### Steers and retrains (R403 to R405) -/

/-- A recalibration ends and its role is steered back. -/
def endRecal (s : State) (g : Nat) : State :=
  updGrp s g fun x => match x.recal with
    | none => x
    | some r => { x with recal := none, lanes := (x.lanes.set r.lane (laneRole x r.spare)).set r.spare (laneRole x r.lane) }

/-- A lane fails and no spare can take its role: it is OFF, LIVE, and logged, and the group-direction retrains, or below feature
level 3 goes OUT (R404, R409). -/
def noSpareLeft (s : State) (g lane cause : Nat) : State :=
  let s := logLane s g lane
  if s.dl.level < 3 then groupOut s g lane cause
  else emit (updGrp s g fun x => { x with lanes := x.lanes.set lane (.off 4) }) (.flitCmd (revDir g) cmdRetrain lane)

/-- LANE_STEER: the role of a failing lane moves to the lowest spare; the lane is OFF, LIVE, and logged. When another lane of
the same flit has taken the last spare, this one starts a retrain (R405). -/
def doLaneSteer (g : Fin 688) (lane : Fin 68) (s : State) : State :=
  let x := grp s g.val
  if !(laneRole x lane.val).carries ∨ s.dl.level < 2 then s else
  match takingSpare x with
  | none => noSpareLeft s g.val lane.val x.cause
  | some sp =>
    let s := setLanes s g.val ((x.lanes.set sp (laneRole x lane.val)).set lane.val (.off 4)) lane.val x.cause
    let s := updGrp s g.val fun x => { x with replays := 0 }
    linkEvent (addReg (logLane s g.val lane.val) rLinkSteers 1) 1 g.val lane.val x.cause

/-- LANE_RETRAIN. -/
def doLaneRetrain (g : Fin 688) (s : State) : State :=
  let x := grp s g.val
  if grpWidth x = 2 ∨ x.retrainAt.isSome then s else beginRetrain s g.val 127 5

/-- LANE_FAILING: a lane is failing by its margin or its lock. A recalibration in hand ends first; then the receiver names a DATA or
CHECK lane for a steer, or for a retrain when no spare can take its role. At feature level 1, and at level 2 without a
spare, the group-direction goes OUT. A lane that fails during a retrain is scored as failed (R405). A spare that fails on
probation, or while it stands in for a lane being recalibrated, is logged (R398) and OFF (DEDUCED, log entry 81). -/
def doLaneFailing (g : Fin 688) (lane : Fin 68) (margin : Bool) (s : State) : State :=
  let stood := (laneRole (grp s g.val) lane.val).carries
  let s := if (grp s g.val).recal.isSome then endRecal s g.val else s
  let x := grp s g.val
  let r := laneRole x lane.val
  let cause := if margin then 2 else 3
  let off (s : State) : State := setLanes (logLane s g.val lane.val) g.val (x.lanes.set lane.val (.off 4)) lane.val cause
  if x.retrainAt.isSome then
    if r.isOff then s else updGrp (logLane s g.val lane.val) g.val fun x => { x with lanes := x.lanes.set lane.val (.off 4) }
  else if !r.carries then (if r.isSpare && (r.onProbation || stood) then off s else s)
  else if s.dl.level < 2 then groupOut (logLane s g.val lane.val) g.val lane.val cause
  else
    let s := setReg s rLinkErrInfo (w32 (g.val * 2 ^ 22 + lane.val * 2 ^ 15 + cause * 2 ^ 11))
    let s := updGrp s g.val fun x => { x with cause := cause }
    if (takingSpare x).isSome then emit s (.flitCmd (revDir g.val) cmdSteer lane.val)
    else noSpareLeft s g.val lane.val cause

/-- RETRAIN_DONE: the width follows from the lanes that pass; the roles are planned anew, and unacknowledged flits
replayed. -/
def doRetrainDone (g : Fin 688) (good : BitVec 68) (s : State) : State :=
  let x := grp s g.val
  match x.retrainAt with
  | none => s
  | some _ =>
    let ok (l : Nat) : Bool := good.getLsbD l && !(laneRole x l).isOff
    let failed := (List.range 68).filter fun l => !(laneRole x l).isOff && !ok l
    let oldW := grpWidth x
    let roles := planRoles ok (fun l => (laneRole x l).onProbation) fun l => match laneRole x l with | .off r => r | _ => 4
    let s := failed.foldl (fun s l => logLane s g.val l) s
    let s := updGrp s g.val fun x => { x with retrainAt := none, replays := 0 }
    let s := setLanes s g.val roles 127 5
    let s := if oldW = 0 ∧ grpWidth (grp s g.val) = 1 then linkEvent (addReg s rLinkHalves 1) 2 g.val 127 5 else s
    (unackedFlits x).foldl (fun s f => emit s (.flit g.val f.toNat)) s

/-! ### Recalibration (R401) -/

/-- LANE_RECAL: the lane's role moves to a spare for 50 µs; a spare lane is recalibrated where it is. -/
def doLaneRecal (g : Fin 688) (lane : Fin 68) (s : State) : State :=
  let x := grp s g.val
  if x.recal.isSome ∨ x.retrainAt.isSome ∨ (laneRole x lane.val).isOff then s
  else if (laneRole x lane.val).isSpare then
    updGrp s g.val fun x => { x with recal := some ⟨lane.val, lane.val, s.clk + 50000⟩ }
  else match takingSpare x with
    | none => s
    | some sp =>
      let s := updGrp s g.val fun x =>
        { x with recal := some ⟨lane.val, sp, s.clk + 50000⟩,
                 lanes := (x.lanes.set sp (laneRole x lane.val)).set lane.val (laneRole x sp) }
      emit s (.flitCmd g.val cmdRecal lane.val)

/-- Every lane that can be recalibrated has been, in this sweep. -/
def sweepWhole (s : State) : Bool :=
  (List.range 688).all fun g =>
    (lanesWhere (grp s g) LaneRole.isSpare).isEmpty ||
    (List.range 68).all fun l => (laneRole (grp s g) l).isOff || SMap.get false s.dl.swept (68 * g + l)

/-- LANE_RECAL_DONE: the role is steered back; a sweep of all group-directions counts in LANE_SWEEPS. -/
def doLaneRecalDone (g : Fin 688) (s : State) : State :=
  match (grp s g.val).recal with
  | none => s
  | some r =>
    let s := endRecal (advanceTo r.ends s) g.val
    let s := { s with dl := { s.dl with swept := SMap.set false s.dl.swept (68 * g.val + r.lane) true } }
    if sweepWhole s then satFld16 { s with dl := { s.dl with swept := [] } } rPatStat 0 else s

end Sys2Proof.Machine
end

