-- ==== Sys2Proof/Machine/Resets.lean ====
section
/-! DEFINITION. Machine/Resets.lean: the stages of a start, which windows are open, the four kinds of reset (R415 to R420) and
the hot-swap of the high-voltage side (R447, R513). -/
namespace Sys2Proof.Machine
open Sys2Proof

/-! ### Stages -/

/-- STAGE codes. -/
def stPower : Nat := 0
def stRom : Nat := 1
def stPlatform : Nat := 2
def stClocks : Nat := 3
def stIdentity : Nat := 4
def stDieLinks : Nat := 5
def stMemory : Nat := 6
def stSelftest : Nat := 7
def stOptics : Nat := 8
def stReplay : Nat := 9

/-- A stage has completed; REPLAY ends with the replay of the journal (R437). -/
def passed (s : State) (k : Nat) : Bool := s.start.passed.getLsbD k && (decide (k ≠ stReplay) || s.upd.replay.isNone)

/-- A stage completes. -/
def pass (s : State) (k : Nat) : State :=
  { s with start := { s.start with passed := s.start.passed ||| BitVec.ofNat 10 (2 ^ k) } }

/-- Stage `k` of a running start is the next to complete, those of `need` being complete. -/
def stageDue (s : State) (k : Nat) (need : List Nat) : Bool :=
  decide (s.start.fin = .running) && !passed s k && need.all (passed s)

/-- STAGE: the lowest-numbered stage not complete, or how the start ended (R418). -/
def stageCode (s : State) : Nat :=
  match s.start.fin with
  | .ready => 10
  | .mgmtOnly => 11
  | .romRecovery => 12
  | .running => ((List.range 10).find? fun k => !passed s k).getD 9

/-- The windows MOD, CLK/PWR, SEC and TEL have opened (R420, R421). -/
def earlyOpen (s : State) : Bool := passed s stClocks || decide (s.start.fin = .mgmtOnly)

/-- BAR0 offset lies in the MOD, CLK/PWR, SEC or TEL window (R487). -/
def inEarly (off : Nat) : Bool :=
  decide (off < 0x100000) || (decide (0x600000 ≤ off) && decide (off < 0x900000))

/-- The window of a BAR0 offset is open. -/
def windowOpen (s : State) (off : Nat) : Bool :=
  if inEarly off then earlyOpen s else decide (s.start.fin = .ready)

/-- A start ends in MGMT_ONLY (R421, R422). -/
def endMgmtOnly (s : State) : State :=
  signalUnit (rsEvent { s with start := { s.start with fin := .mgmtOnly } } rStartErr 0) 1

/-! ### COLD and WARM -/

/-- SOURCE codes of MOD_RESET_CAUSE. -/
def srcPower : Nat := 0
def srcHost : Nat := 1
def srcBmc : Nat := 2
def srcWatchdog : Nat := 3
def srcMsd : Nat := 4
def srcFull : Nat := 5

/-- What a start of either kind leaves: reset values, but for the queue, the elapsed time, what has left the module,
the free values drawn, flash, OTP, the variant and the high-voltage side. LS_EN falls. -/
def clearAll (s : State) : State :=
  let s := if s.opt.present then emit s (.lsEn false) else s
  { State.reset with
    pending := s.pending, clk := s.clk, free := s.free, out := s.out, flash := s.flash, otp := s.otp
    mem := { variant := s.mem.variant }
    host := { perst := s.host.perst }
    pwr := { mateA := s.pwr.mateA, mateB := s.pwr.mateB, closed := s.pwr.closed, latched := s.pwr.latched, undervolt := s.pwr.undervolt }
    start := { began := s.clk } }

/-- Note the cause of a start. -/
def setCause (s : State) (warm : Bool) (src : Nat) : State := setReg s rResetCause (w32 (b2n warm * 2 ^ 31 + src * 2 ^ 27))

/-- COLD reset: everything but flash and OTP (R415). While the hot-swap is closed the logic rails are good, so POWER is
complete. -/
def coldReset (s : State) (src : Nat) : State :=
  let s := clearAll (rampBreak s)
  setCause (if s.pwr.closed then pass s stPower else s) false src

/-- The stacks in service, by number. -/
def stacksIn (s : State) : BitVec 24 :=
  allDies.foldl (fun v n => if s.mem.st[n].inService then v ||| BitVec.ofNat 24 (2 ^ n.val) else v) 0

/-- WARM reset: every die but the AON domain, which keeps the timebase, the crystal, its mux and the lockout count. HBM
contents are held until MEMORY decides (R416), when the start that ends had brought them up. -/
def warmReset (s : State) (src : Nat) (keep : Bool) : State :=
  let b := rampBreak s
  let s := clearAll b
  let s := { s with
    tb := b.tb
    tbs := { b.tbs with absSet := false, steps := 0, frameErr := 0, frameOff := none, next := none }
    clocks := { s.clocks with xtal := b.clocks.xtal, failAt := none, mux := SMap.set {} [] 58 (SMap.get {} b.clocks.mux 58) }
    upd := { s.upd with partly := b.upd.partly, tiles := b.upd.tiles }
    sec := { s.sec with fails := b.sec.fails, lastFail := b.sec.lastFail }
    mem := { s.mem with hbm := b.mem.hbm, poison := b.mem.poison, ue := b.mem.ue, ce := b.mem.ce }
    start := { s.start with warm := true, keepable := keep && passed b stMemory, wasIn := stacksIn b, wasOut := allDies.map fun n => b.mem.st[n].chanOut } }
  setCause (pass s stPower) true src

/-- A write to MOD_RESET (R443): the key and TYPE decide. -/
def modResetEffect (m : Master) (v : Word) (s : State) : State :=
  let src := match m with | .host => srcHost | .bmc => srcBmc | _ => srcMsd
  if fld v 31 16 ≠ 0x5A5A then s
  else if fld v 1 0 = 1 then warmReset s src true
  else if fld v 1 0 = 2 then coldReset s src
  else s

/-- The access that writes MOD_RESET. -/
def writeModReset (m : Master) (v : Word) (s : State) : State :=
  if !windowOpen s rReset then busErr s m else modResetEffect m v (complete s m .sc [])

/-- MOD_RESET_WARM. -/
def doModResetWarm (m : Master) (v : Word) (s : State) : State := writeModReset m v s
/-- MOD_RESET_COLD. -/
def doModResetCold (m : Master) (v : Word) (s : State) : State := writeModReset m v s

/-! ### LINK (R417) -/

/-- The MSI-X table and its pending bits return to their reset values. -/
def clearMsix (s : State) : State :=
  { s with
    regs := s.regs.filter fun (off, _) => !(decide (rMsixTable ≤ off) && decide (off < rMsixTable + 0x8000))
    host := { s.host with pba := [], funcMask := false } }

/-- LINK_RESET. -/
def doLinkReset (s : State) : State :=
  let s := clearMsix (cancelAllSlots s)
  { s with host := { s.host with barSize := 4, memSpace := false, busMaster := false, d3hot := false, perst := true, linkUp := false } }

/-! ### The hot-swap (R444, R447, R513) -/

/-- The hot-swap opens: input is cut at once, and the logic side loses its supply and all it held. -/
def openSwap (s : State) : State :=
  if !s.pwr.closed then s else
  let s := clearAll (rampBreak s)
  { s with pwr := { s.pwr with closed := false }, clocks := {}, tb := 0 }

/-- The hot-swap closes, where nothing holds it open, with a soft start and a COLD reset. -/
def closeSwap (s : State) : State :=
  if s.pwr.closed ∨ s.pwr.latched ∨ s.pwr.mateA ∨ s.pwr.mateB ∨ s.pwr.undervolt then s
  else coldReset { s with pwr := { s.pwr with closed := true } } srcPower

/-- POWER_APPLIED: the 54 V input rises after having been absent, which ends a latched opening. -/
def doPowerApplied (s : State) : State :=
  let s := openSwap s
  closeSwap { s with pwr := { s.pwr with latched := false, undervolt := false } }

/-- HOTSWAP_CLOSE. -/
def doHotswapClose (s : State) : State :=
  closeSwap { s with pwr := { s.pwr with mateA := false, mateB := false, undervolt := false } }

/-- MATE_PIN_RISE: pin 0 is MATE_A_N, 1 MATE_B_N. -/
def doMatePinRise (pin : Fin 2) (s : State) : State :=
  openSwap { s with pwr := { s.pwr with mateA := s.pwr.mateA || decide (pin.val = 0), mateB := s.pwr.mateB || decide (pin.val = 1) } }

/-- A latched opening. -/
def latchOpen (s : State) : State :=
  if s.pwr.closed then openSwap { s with pwr := { s.pwr with latched := true } } else s

/-- HV_UNDERVOLTAGE. -/
def doHvUndervoltage (s : State) : State :=
  if s.pwr.closed then openSwap { s with pwr := { s.pwr with undervolt := true } } else s
/-- HV_OVERVOLTAGE. -/
def doHvOvervoltage (s : State) : State := latchOpen s
/-- HV_OVERCURRENT. -/
def doHvOvercurrent (s : State) : State := latchOpen s
/-- HV_OVERTEMP. -/
def doHvOvertemp (s : State) : State := latchOpen s

/-- SHUTDOWN. -/
def doShutdown (s : State) : State := if s.pwr.closed then latchOpen (emit s (.hv true)) else s

/-- THERMAL_TRIP: the AON domain sends SHUTDOWN without firmware (R466). -/
def doThermalTrip (s : State) : State := if s.pwr.closed then latchOpen (emit (rampBreak s) (.hv true)) else s

end Sys2Proof.Machine
end

