-- ==== Sys2Proof/Machine/Clocks.lean ====
section
/-! DEFINITION. Machine/Clocks.lean: crystal, muxes, watchdog (R455 to R460), DVFS and stretch (R461 to R463), die temperatures
(R464 to R466) and the timebase (R468 to R472). -/
namespace Sys2Proof.Machine
open Sys2Proof

/-- Record a clock, thermal or timebase event. -/
def clkEvent (s : State) (bit : Nat) : State := rsEvent s rClkErr bit

/-- The MSD requests a stop of the image by R201. -/
def msdStop (s : State) : State := requestStop s 1

/-! ### DVFS points and stretch -/

/-- The lowest DVFS point. -/
def lowestPoint (s : State) : Nat := (dvfsPoints s).length - 1

/-- The common target: the lowest point while both high-voltage links have been silent for 1 s (R446). -/
def commonTarget (s : State) : Nat := if s.pwr.stopped then lowestPoint s else s.pwr.target

/-- The point that the stack's band limits its die to (R465). -/
def bandLimit (s : State) (d : Die) : Nat :=
  let x := s.mem.st[d]
  let b := if x.emergency then 4 else x.band
  min (lowestPoint s) (if b = 2 then 2 else if b = 3 then 4 else if 4 ≤ b then 6 else 0)

/-- A die's own limit point, from its heat and its stack's band (R463). -/
def limitPoint (s : State) (d : Die) : Nat := max s.clocks.dies[d].limit (bandLimit s d)

/-- The point a die is to run at: the slower of the common target and its limit. -/
def wantedPoint (s : State) (d : Die) : Nat := max (commonTarget s) (limitPoint s d)

/-- Update the clock of a die. -/
def updClk (s : State) (d : Die) (f : DieClock → DieClock) : State :=
  { s with clocks := { s.clocks with dies := s.clocks.dies.set d (f s.clocks.dies[d]) } }

/-- DVFS_CHANGE: the die goes to the clock and the voltage of the point wanted; nothing in progress stops. -/
def doDvfsChange (d : Die) (s : State) : State :=
  if !passed s stClocks ∨ (die s d).coreReset then s else updClk s d fun x => { x with point := wantedPoint s d, volts := pointVolts s (wantedPoint s d) }

/-! ### Crystal and muxes -/

/-- The mux of a domain. -/
def mux (s : State) (k : Nat) : MuxState := SMap.get {} s.clocks.mux k

/-- Update the mux of a domain. -/
def updMux (s : State) (k : Nat) (f : MuxState → MuxState) : State :=
  { s with clocks := { s.clocks with mux := SMap.upd {} s.clocks.mux k f } }

/-- Sources of a mux: 0 the internal oscillator, 1 the crystal, 2 the domain's PLL. -/
def srcInternal : Nat := 0
def srcCrystal : Nat := 1
def srcPll : Nat := 2

/-- XTAL_STABLE: the AON and MSD muxes move to the crystal. One that failed is judged again only after the WARM reset that its
failure makes (R456). -/
def doXtalStable (s : State) : State :=
  if !passed s stPower ∨ s.clocks.xtal = .stable ∨ s.clocks.failAt.isSome then s
  else
    let s := { s with clocks := { s.clocks with xtal := .stable } }
    [57, 58].foldl (fun s k => updMux s k fun m => { m with src := srcCrystal }) s

/-- XTAL_TIMEOUT: 100 ms after the AON domain is released. -/
def doXtalTimeout (s : State) : State :=
  if s.start.fin ≠ .running ∨ !passed s stPower ∨ s.clocks.xtal = .stable ∨ passed s stClocks then s
  else endMgmtOnly (rsEvent (advanceTo (s.start.began + 100000000) s) rStartErr 9)

/-- XTAL_FAIL (R456). -/
def doXtalFail (s : State) : State :=
  if s.clocks.xtal ≠ .stable then s
  else
    let s := { s with clocks := { s.clocks with xtal := .failed, failAt := some s.clk } }
    let s := [57, 58].foldl (fun s k => updMux s k fun m => { m with src := srcInternal }) (clkEvent s 0)
    msdStop s

/-- XTAL_FAIL_RESET. -/
def doXtalFailReset (s : State) : State :=
  match s.clocks.failAt with
  | none => s
  | some t => warmReset (advanceTo (t + 100000000) s) srcMsd true

/-- MUX_SWITCH: the mux goes through its four stages. -/
def doMuxSwitch (dom : Fin 59) (src : Fin 8) (s : State) : State :=
  if !passed s stPower ∨ (mux s dom.val).dead then s
  else updMux s dom.val fun _ => { src := src.val, reqAt := some s.clk }

/-- Record a mux in CLK_MUX_INFO. -/
def muxInfo (s : State) (dom : Nat) (dead : Bool) : State := setReg s rMuxInfo (w32 (dom * 2 ^ 26 + b2n dead * 2 ^ 25))

/-- The time the watchdog gives a switch: 20 µs. -/
def muxNs : Nat := 20000

/-- MUX_FORCED: a switch not complete 20 µs after its request is forced; the domain's state is kept. -/
def doMuxForced (dom : Fin 59) (s : State) : State :=
  match (mux s dom.val).reqAt with
  | none => s
  | some t =>
    let s := advanceTo (t + muxNs) s
    clkEvent (muxInfo (updMux s dom.val fun m => { m with forced := true, reqAt := some s.clk }) dom.val false) 1

/-- MUX_DEAD: the new source of a forced switch fails too. A CORE domain takes its die out of service; any other makes
a WARM reset. -/
def doMuxDead (dom : Fin 59) (s : State) : State :=
  match (mux s dom.val).reqAt with
  | none => s
  | some t =>
    if !(mux s dom.val).forced then s
    else
      let s := advanceTo (t + muxNs) s
      let s := clkEvent (muxInfo (updMux s dom.val fun m => { m with dead := true, reqAt := none }) dom.val true) 2
      if h : dom.val < 24 then dieOut s ⟨dom.val, h⟩ else warmReset s srcWatchdog true

/-- HEARTBEAT_MISS. -/
def doHeartbeatMiss (s : State) : State :=
  if passed s stRom then warmReset s srcWatchdog true else s

/-! ### Die temperatures (R465, R466) -/

/-- Thresholds of R465 in 0.1 °C, lowered as the platform image asks, by at most 10 °C: 0 engage, 1 release, 2 cool, 3
trip. -/
def threshold (s : State) (k : Nat) : Int :=
  ([950, 930, 900, 1040] : List Int).getD k 0 - (min 100 (s.plat.elim 0 fun p => p.thermOffsets.getD k 0) : Nat)

/-- The thermal stretch level that a reading calls for, with level `old` before it. -/
def thermLevel (s : State) (t : Int) (old : Nat) : Nat :=
  if threshold s 0 ≤ t then min 4 (1 + ((t - threshold s 0) / 20).toNat)
  else if threshold s 1 < t ∧ 0 < old then 1
  else 0

/-- Give a die its thermal level: the timer of STRETCH_LIMIT_DOWN runs while it is above 0. -/
def setTherm (s : State) (d : Die) (l : Nat) : State :=
  let old := s.clocks.dies[d].therm
  let s := updClk s d fun x =>
    { x with therm := l, hotAt := if l = 0 then none else if old = 0 then some s.clk else x.hotAt,
             coolAt := if l = 0 then x.coolAt else none }
  if old = 0 ∧ 0 < l then clkEvent s 3 else s

/-- A die leaves service for heat. -/
def tripDie (s : State) (d : Die) (cause : Nat) : State :=
  if (die s d).out then s
  else dieOut (clkEvent (updClk s d fun x => { x with cause := cause }) 5) d

/-- CD_TEMP_READ: a reading in 0.1 °C, or one that failed. -/
def doCdTempRead (d : Die) (temp : Option Int) (s : State) : State :=
  if !passed s stClocks then s else
  match temp with
  | some t =>
    let s := updClk s d fun x =>
      { x with temp := t, tempMax := if x.ever then max x.tempMax t else t, ever := true, fails := 0, lastValid := s.clk }
    let s := setTherm s d (thermLevel s t s.clocks.dies[d].therm)
    let s := updClk s d fun x =>
      { x with coolAt := if t ≤ threshold s 2 ∧ x.therm = 0 then (match x.coolAt with | some c => some c | none => some s.clk) else none }
    if threshold s 3 ≤ t then tripDie s d 4 else s
  | none =>
    let n := s.clocks.dies[d].fails + 1
    let s := updClk s d fun x => { x with fails := n }
    if n = 3 then setTherm (clkEvent s 7) d 3 else s

/-- STRETCH_LIMIT_DOWN. -/
def doStretchLimitDown (d : Die) (s : State) : State :=
  match s.clocks.dies[d].hotAt with
  | none => s
  | some t =>
    let s := advanceTo (t + 1000000) s
    let old := s.clocks.dies[d].limit
    let s := updClk s d fun x => { x with hotAt := some s.clk, limit := min (lowestPoint s) (x.limit + 1) }
    if old < lowestPoint s then clkEvent s 4 else s

/-- COOL_LIMIT_UP. -/
def doCoolLimitUp (d : Die) (s : State) : State :=
  match s.clocks.dies[d].coolAt with
  | none => s
  | some t =>
    if s.clocks.dies[d].limit = 0 then s
    else
      let s := advanceTo (t + 20000000) s
      updClk s d fun x => { x with coolAt := some s.clk, limit := x.limit - 1 }

/-- CD_SENSOR_TIMEOUT: 10 ms after the last valid reading. -/
def doCdSensorTimeout (d : Die) (s : State) : State :=
  if s.clocks.dies[d].fails = 0 then s
  else tripDie (advanceTo (s.clocks.dies[d].lastValid + 10000000) s) d 3

/-- OTHER_DIE_TEMP_READ: 0 to 5 the photonic dies, 6 the Plinth, 7 the MSD; in 0.1 °C. -/
def doOtherDieTempRead (which : Fin 8) (temp : Option Int) (s : State) : State :=
  match temp with
  | none => s
  | some t =>
    let old : Int := (SMap.get none s.clocks.others which.val).getD 0
    let s := { s with clocks := { s.clocks with others := SMap.set none s.clocks.others which.val (some t) } }
    let s := if 1000 ≤ t ∧ old < 1000 then clkEvent s 6 else s
    if 1040 ≤ t ∧ old < 1040 then msdStop s else s

/-! ### Timebase (R468 to R472) -/

/-- Replace the timebase's discipline. -/
def updTb (s : State) (f : TimebaseState → TimebaseState) : State := { s with tbs := f s.tbs }

/-- RACKCLK_CHECK: RACKCLK measured against the crystal. -/
def doRackclkCheck (ppm : Int) (s : State) : State :=
  if s.clocks.xtal ≠ .stable then s
  else if -100 ≤ ppm ∧ ppm ≤ 100 then updTb s fun x => { x with rackClk := true }
  else clkEvent (updTb s fun x => { x with rackClk := false }) 10

/-- The timebase steps by `n` ns. Deadlines stand on the elapsed time and do not move (R472). -/
def stepTb (s : State) (n : Int) : State :=
  clkEvent (updTb { s with tb := s.tb + BitVec.ofInt 64 n } fun x => { x with steps := satInc 8 x.steps }) 8

/-- Bits 63:24 of the timebase, rounded to the nearest edge. -/
def edgeCount (s : State) : BitVec 40 := ((s.tb + 0x800000) >>> 24).setWidth 40

/-- Step bits 63:24 by `n`. -/
def stepUpper (s : State) (n : BitVec 40) : State := stepTb s (n.toInt * 16777216)

/-- What a frame says of the edge that follows it (R471). -/
def applyFrame (s : State) : State :=
  match s.tbs.next with
  | none => s
  | some v =>
    let off := v - edgeCount s
    let s := updTb s fun x => { x with next := none }
    if !s.tbs.absSet then
      let s := updTb s fun x => { x with absSet := true, frameOff := none }
      if off = 0 then s else stepUpper s off
    else if off = 0 then updTb s fun x => { x with frameOff := none }
    else if s.tbs.frameOff = some off then stepUpper (updTb s fun x => { x with frameOff := none }) off
    else updTb s fun x => { x with frameOff := some off }

/-- RACKSYNC_EDGE: e is sampled; a small one is slewed away, a larger one stepped away when two edges agree. -/
def doRacksyncEdge (s : State) : State :=
  let e := sext 24 (fld s.tb 23 0)
  let s := updTb s fun x => { x with phase := e, lastEdge := some s.clk }
  let s :=
    if e.natAbs ≤ 1000 then updTb s fun x => { x with slew := e, slewAcc := 0, big := none, st := .locked }
    else match s.tbs.big with
      | some b =>
        if (e - b).natAbs ≤ 100 then stepTb (updTb s fun x => { x with big := none, slew := 0, slewAcc := 0, st := .locked }) (-e)
        else updTb s fun x => { x with big := some e }
      | none => updTb s fun x => { x with big := some e }
  applyFrame s

/-- RACKSYNC_FRAME: a frame that passes its checks stands for the next edge; one that fails is ignored. -/
def doRacksyncFrame (bits : DWord) (s : State) : State :=
  if fld bits 63 56 ≠ 0x2D ∨ fld bits 15 0 ≠ crc16Bits 48 (fld bits 63 16) then
    clkEvent (updTb s fun x => { x with frameErr := satInc 8 x.frameErr }) 11
  else updTb s fun x => { x with next := some (BitVec.ofNat 40 (fld bits 55 16)) }

/-- TB_HOLDOVER: no edge for three periods. -/
def doTbHoldover (s : State) : State :=
  match s.tbs.lastEdge with
  | none => s
  | some t =>
    if s.tbs.st ≠ .locked then s
    else clkEvent (updTb (advanceTo (t + 50331648) s) fun x => { x with st := .holdover }) 9

end Sys2Proof.Machine
end

