-- ==== Sys2Proof/Machine/Power.lean ====
section
/-! DEFINITION. Machine/Power.lean: telemetry from the high-voltage side (R444 to R446) and draw shaping (R448 to R453). -/
namespace Sys2Proof.Machine
open Sys2Proof

/-- Record a power event. -/
def pwrEvent (s : State) (bit : Nat) : State := rsEvent s rPwrErr bit

/-- Replace the power state. -/
def updPwr (s : State) (f : PowerState → PowerState) : State := { s with pwr := f s.pwr }

/-- A one-bit field of PWR_STAT. -/
def pwrFlag (s : State) (bit : Nat) (v : Bool) : State := setFld s rPwrStat bit bit (b2n v)

/-! ### Settings, in the registers that show them (R448, R454) -/

def pMaxW (s : State) : Nat := fld (reg s rPwrCfg) 31 19
def rampUp (s : State) : Nat := fld (reg s rPwrCfg) 18 6
def windowNsPwr (s : State) : Nat := fld (reg s rPwrCfg) 5 0 * 100000000
def rampDown (s : State) : Nat := fld (reg s rPwrCfg2) 31 19
def floorPct (s : State) : Nat := fld (reg s rPwrCfg2) 18 12
def staggerN (s : State) : Nat := max 1 (fld (reg s rPwrCfg2) 11 5)

/-! ### Frames -/

/-- Give the dies power stretch level `l`. -/
def setLevel (s : State) (l : Nat) : State :=
  let was := s.pwr.level
  setFld (updPwr s fun p => { p with level := l, zeroAt := if l = 0 then (if was = 0 then p.zeroAt else some s.clk) else none }) rPwrStat 13 11 l

/-- The frame's CRC and SYNC hold. -/
def frameOk (f : BitVec 128) : Bool := decide (fld f 127 120 = 0xC3) && decide (fld f 15 0 = crc16Bits 112 (fld f 127 16))

/-- A link fails: HV_LINK when it had been good. -/
def linkFails (s : State) (b : Bool) : State :=
  let was := if b then s.pwr.okB else s.pwr.okA
  let s := pwrFlag (updPwr s fun p => if b then { p with okB := false } else { p with okA := false }) (if b then 8 else 7) false
  if was then pwrEvent s 8 else s

/-- The mean of the frames of the last 1 ms, in 0.1 mW. -/
def meanOf (fs : List (Nat × Nat)) : Nat := fs.foldl (fun n (_, p) => n + p) 0 / max 1 fs.length

/-- Take a new measurement: 1 ms mean, the means that can still be PEAK, and energy. A frame spans 10 µs, so its power in
0.1 mW is its energy in nJ. -/
def takePower (s : State) (p : Nat) : State :=
  let fs := (s.pwr.frames.filter fun (t, _) => decide (s.clk < t + 1000000)) ++ [(s.clk, p)]
  let m := meanOf fs
  let ms := (s.pwr.means.filter fun (t, q) => decide (s.clk < t + windowNsPwr s) && decide (m < q)) ++ [(s.clk, m)]
  let e := s.pwr.energy + p
  let s := updPwr s fun x => { x with frames := fs, means := ms, energy := e % 1000000 }
  setFld (addReg64 s rPwrEnergy (e / 1000000)) rPwrStat 31 16 (m / 10000)

/-- PEAK in units of 0.1 mW: the highest 1 ms mean within the last WINDOW (R449). -/
def peakOf (s : State) : Nat :=
  s.pwr.means.foldl (fun m (t, q) => if s.clk < t + windowNsPwr s then max m q else m) 0

/-- HV_FRAME: a frame that fails its checks fails its link; the newest valid one gives the measurement, once. -/
def doHvFrame (link : Fin 2) (frame : BitVec 128) (s : State) : State :=
  let b := decide (link.val = 1)
  if !s.pwr.closed then s
  else if !frameOk frame then linkFails s b
  else
    let s := updPwr s fun p => if b then { p with okB := true, lastB := s.clk } else { p with okA := true, lastA := s.clk }
    let s := pwrFlag s (if b then 8 else 7) true
    let s := if s.pwr.lost then setLevel (updPwr s fun p => { p with lost := false, stopped := false }) 0 else s
    let n : BitVec 8 := BitVec.ofNat 8 (fld frame 119 112)
    if s.pwr.seq = some n then s
    else
      let vin := fld frame 111 96
      let iin := fld frame 95 80
      let s := setReg s rPwrIn (w32 (iin * 65536 + vin))
      let w : BitVec 3 := BitVec.ofNat 3 (fld frame 20 18)
      let new : BitVec 3 := w &&& ~~~s.pwr.warn
      let s := rsEvents s rPwrErr (BitVec.ofNat 24 (b2n (bitAt new 0) * 4 + b2n (bitAt new 1) * 2 + b2n (bitAt new 2)))
      let s := updPwr s fun p => { p with seq := some n, ack := some n, warn := w, hvTemp := sext 16 (fld frame 47 32) }
      takePower s (vin * iin)

/-- ACK_SEQ. -/
def doAckSeq (s : State) : State :=
  match s.pwr.ack with
  | none => s
  | some _ => emit (updPwr s fun p => { p with ack := none }) (.hv false)

/-- HV_LINK_SILENT: a link silent for 30 µs. -/
def doHvLinkSilent (link : Fin 2) (s : State) : State :=
  let b := decide (link.val = 1)
  if (if b then s.pwr.okB else s.pwr.okA) then
    linkFails (advanceTo ((if b then s.pwr.lastB else s.pwr.lastA) + 30000) s) b
  else s

/-- HV_LINK_LOST: both links silent for 50 µs. -/
def doHvLinkLost (s : State) : State :=
  if !s.pwr.closed ∨ s.pwr.lost then s
  else
    let s := advanceTo (max s.pwr.lastA s.pwr.lastB + 50000) s
    let s := linkFails (linkFails s false) true
    setLevel (pwrEvent (updPwr s fun p => { p with lost := true }) 9) 2

/-- HV_LINK_STOP: both links silent for 1 s. -/
def doHvLinkStop (s : State) : State :=
  if !s.pwr.lost ∨ s.pwr.stopped then s
  else
    let s := advanceTo (max s.pwr.lastA s.pwr.lastB + 1000000000) s
    msdStop (updPwr s fun p => { p with stopped := true })

/-! ### Draw shaping (R449 to R453); powers in units of 0.01 W -/

/-- The interval that begins now begins one of the module's start ticks. -/
def beginsTick (s : State) : Bool :=
  let t := s.tb.toNat
  let k := (t + 262143) / 262144
  decide (k * 262144 < t + 10000) && decide (k % staggerN s = s.start.slot % staggerN s)

/-- FLOOR. -/
def floorOf (s : State) : Nat := min (pMaxW s * 100) (floorPct s * peakOf s / 10000)

/-- A die may run filler (R451). -/
def mayFill (s : State) (d : Die) : Bool :=
  !(die s d).out && decide (s.clocks.dies[d].therm = 0) && decide (limitPoint s d ≤ commonTarget s) && !stackThrottled s.mem.st[d]

/-- Filler that the dies can provide: 50 W each. -/
def fillerMax (s : State) : Nat := 5000 * (allDies.filter (mayFill s)).length

/-- The ceiling after one interval, and whether a rise is in progress (R450). -/
def nextCeiling (s : State) (d : Nat) : Nat × Bool :=
  let e := s.pwr.e
  let f := max (floorOf s) (e - rampDown s)
  if e < d then
    if bitAt (reg s rPwrStat) 10 || beginsTick s then (min (pMaxW s * 100) (e + rampUp s), true) else (e, false)
  else (max d f, false)

/-- The highest power stretch level permitted: the highest that some die may take (R452, R462). -/
def topLevel (s : State) : Nat := allDies.foldl (fun n d => max n (stretchCap s d)) 0

/-- The power stretch level, at most `top`, that removes `cut` from a demand to which the dies contribute `dd`: the lowest
level that does, alternating with the one below it unless it does so exactly (R452). -/
def levelFor (top cut dd : Nat) (high : Bool) : Nat :=
  match (([1, 2, 3, 4] : List Nat).take top).find? fun l => decide (8 * cut ≤ l * dd) with
  | none => top
  | some l => if l * dd = 8 * cut ∨ high then l else l - 1

/-- Record an event of shaping when its condition begins. -/
def onRise (s : State) (was now : Bool) (bit : Nat) : State := if now && !was then pwrEvent s bit else s

/-- POWER_SHAPE_TICK: one interval of 10 µs. -/
def doPowerShapeTick (s : State) : State :=
  if s.start.fin ≠ .ready then s else
  let s := advanceTo s.pwr.tickAt s
  let (n, s) := drawFree s
  let d := Config.demand n
  let dd := min d (Config.dieDemand n)
  let floor := floorOf s
  let down := s.pwr.e - rampDown s
  let c := if s.pwr.lost then (s.pwr.e, bitAt (reg s rPwrStat) 10) else nextCeiling s d
  let want := min c.1 (max d (max floor down))
  let cap := pMaxW s * 100 * 985 / 1000
  let target := min want cap
  let limited := decide (cap < want) && decide (cap < d)
  let fill := min (target - d) (fillerMax s)
  let cut := d - target
  let short := decide (fillerMax s < target - d)
  let exceed := decide (topLevel s * dd < 8 * cut)
  let s := onRise s s.pwr.short short 7
  let s := onRise s s.pwr.exceed exceed 6
  let s := onRise s s.pwr.limitAt.isSome limited 4
  let s := pwrFlag (pwrFlag s 10 c.2) 9 (decide (0 < fill))
  let s := setReg s rPwrShape (w32 (peakOf s / 10000 % 65536 * 65536 + c.1 / 100 % 65536))
  let l := if s.pwr.lost then 2 else if cut = 0 then 0 else levelFor (topLevel s) cut dd s.pwr.high
  let s := setLevel s l
  updPwr s fun p =>
    { p with e := c.1, high := !p.high, short := short, exceed := exceed, tickAt := s.clk + 10000,
             limitAt := if limited then (match p.limitAt with | some t => some t | none => some s.clk) else none }

/-- LIMIT_DVFS_DOWN: a cut for P_MAX has held for 1 ms. -/
def doLimitDvfsDown (s : State) : State :=
  match s.pwr.limitAt with
  | none => s
  | some t =>
    let s := advanceTo (t + 1000000) s
    let old := s.pwr.target
    let s := updPwr s fun p => { p with limitAt := some s.clk, target := min (lowestPoint s) (p.target + 1) }
    if old < lowestPoint s then pwrEvent s 3 else s

/-- LIMIT_DVFS_UP: power stretch has stood at 0 for 10 ms. -/
def doLimitDvfsUp (s : State) : State :=
  match s.pwr.zeroAt with
  | none => s
  | some t =>
    if s.pwr.target = 0 then s
    else
      let s := advanceTo (t + 10000000) s
      updPwr s fun p => { p with zeroAt := some s.clk, target := p.target - 1 }

end Sys2Proof.Machine
end

