-- ==== Sys2Proof/Machine/Start.lean ====
section
/-! DEFINITION. Machine/Start.lean: the stages of a start, from the ROM to READY (R408 to R430, R437). -/
namespace Sys2Proof.Machine
open Sys2Proof

/-- Record a start event. -/
def startEvent (s : State) (bit : Nat) : State := rsEvent s rStartErr bit

/-! ### ROM and PLATFORM (R424 to R428) -/

/-- The boot descriptor record in force: which copies it prefers; none when neither CRC holds. -/
def bootRecord (f : FlashState) : Option BootRecord :=
  match f.rec0, f.rec1 with
  | some a, some b => if serialAfter 32 b.seq.toNat a.seq.toNat then some b else some a
  | some a, none => some a
  | none, b => b

/-- Flash offset of a copy (R423). -/
def fwBase (b : Bool) : Nat := if b then 0x410000 else 0x10000
def piBase (b : Bool) : Nat := if b then 0x5000000 else 0x1000000

/-- Bytes of flash. -/
def flashBytes (s : State) (off len : Nat) : List Byte := (List.range len).map fun i => SMap.get 0 s.flash.bytes (off + i)

/-- A section entry. -/
structure Section where
  typ : Nat
  off : Nat
  len : Nat
  deriving DecidableEq, Repr

/-- The entry of a type; an empty one where there is none. -/
def sectionOf (es : List Section) (t : Nat) : Section := (es.find? fun e => decide (e.typ = t)).getD ⟨t, 0, 0⟩

/-- The sections begin after the header region, at 4 KiB boundaries, lie within LENGTH and do not overlap. -/
def sectionsOk (es : List Section) (len : Nat) : Bool :=
  (es.all fun e => decide (4096 ≤ e.off) && decide (e.off + e.len ≤ 4096 * len)) &&
  (List.range es.length).all fun i => (List.range i).all fun j =>
    !(overlaps (es.getD i ⟨0, 0, 0⟩).off (es.getD i ⟨0, 0, 0⟩).len (es.getD j ⟨0, 0, 0⟩).off (es.getD j ⟨0, 0, 0⟩).len)

/-- A field of a container in flash. -/
def flashNat (s : State) (off n : Nat) : Nat := leNat (flashBytes s off n)

/-- Every byte of a range of flash is 0. -/
def flashZero (s : State) (off len : Nat) : Bool :=
  s.flash.bytes.all fun e => !(decide (off ≤ e.1) && decide (e.1 < off + len)) || decide (e.2 = 0)

/-- Section entry `i` of the container at `o`, with its offset in bytes. -/
def flashSection (s : State) (o i : Nat) : Section :=
  ⟨flashNat s (o + 0x100 + 80 * i) 2, 4096 * flashNat s (o + 0x104 + 80 * i) 4, flashNat s (o + 0x108 + 80 * i) 4⟩

/-- The section entries in use of the container at `o`. -/
def flashSections (s : State) (o : Nat) : List Section := (List.range (min 16 (flashNat s (o + 6) 1))).map (flashSection s o)

/-- DIGEST of the section of a type. -/
def sectionDigest (s : State) (o t : Nat) : BitVec 512 :=
  match (List.range (flashSections s o).length).find? fun i => decide (flashNat s (o + 0x100 + 80 * i) 2 = t) with
  | some i => BitVec.ofNat 512 (flashNat s (o + 0x110 + 80 * i) 64)
  | none => 0

/-- The header region of a container of flash, in a copy of `units` units of 4 KiB, is laid out by R425: its kind, FORMAT,
ALG, reserved fields and sections. -/
def headerOk (s : State) (o magic units : Nat) : Bool :=
  let es := flashSections s o
  let len := flashNat s (o + 0xC) 4
  decide (flashNat s o 4 = magic) && decide (flashNat s (o + 4) 2 = 1) && decide (1 ≤ flashNat s (o + 6) 1) &&
  decide (flashNat s (o + 6) 1 ≤ 16) && decide (flashNat s (o + 8) 4 ≤ 64) && decide (len ≤ units) && sectionsOk es len &&
  decide (flashNat s (o + 0x600) 2 = 1) && flashZero s (o + 0x18) 5 && flashZero s (o + 0x1E) 226 && flashZero s (o + 0x602) 2 &&
  flashZero s (o + 0x70D) 2291 &&
  (List.range es.length).all fun i => flashZero s (o + 0x102 + 80 * i) 2 && flashZero s (o + 0x10C + 80 * i) 4

/-- A firmware copy whose signature and digests hold is one the ROM runs: the vendor's, at or above its counter. -/
def fwOk (s : State) (o : Nat) : Bool :=
  headerOk s o 0x57464E42 1024 && decide (flashNat s (o + 7) 1 = 0xFF) && decide (s.otp.ctrs[0] ≤ flashNat s (o + 8) 4)

/-- START_ROM: the preferred firmware copy, or else the other, is verified and runs. The operands say which copies
have a signature and digests that hold. -/
def doStartRom (aOk bOk : Bool) (s : State) : State :=
  if !stageDue s stRom [stPower] then s else
  let r := bootRecord s.flash
  let s := if r.isNone then startEvent s 10 else s
  let pref := r.elim false (·.fwB)
  let ok (b : Bool) : Bool := (if b then bOk else aOk) && fwOk s (fwBase b)
  if !ok pref && !ok (!pref) then { s with start := { s.start with fin := .romRecovery } }
  else
    let b := if ok pref then pref else !pref
    let s := if b = pref then s else startEvent s 2
    pass { s with start := { s.start with
      fwB := b, fwDigest := Config.sha512 (flashBytes s (fwBase b) 0x600), fwSvn := flashNat s (fwBase b + 8) 4 } } stRom

/-- The conditions of R311. A C round trip is at most 1.2 ms (R343), so an RTO_FAR within its range is at least twice the
longest. -/
def timersOk (t : FabTimers) : Bool :=
  decide (1000 ≤ t.pktLife) && decide (t.pktLife ≤ 65000) && decide (100 ≤ t.rtoNear) && decide (t.rtoNear ≤ 65000) &&
  decide (2500 ≤ t.rtoFar) && decide (t.rtoFar ≤ 65000) && decide (1 ≤ t.e2eRetryMax) && decide (t.e2eRetryMax ≤ 15) &&
  decide (1 ≤ t.linkRetryMax) && decide (t.linkRetryMax ≤ 15) && decide (10000 ≤ t.flowIdle) && decide (t.flowIdle ≤ 1000000) &&
  decide (t.pktLife + (t.e2eRetryMax + 1) * t.rtoFar < t.flowIdle)

/-- The state of a key slot; EMPTY for a number that names none. -/
def slotState (s : State) (n : Nat) : SlotSt := ((s.otp.slots.toList)[n]?).elim .empty (·.st)

/-- The platform copy at `o` of flash is well-formed: the header of R425 with each section of R427 once. -/
def platHeader (s : State) (o : Nat) : Bool :=
  headerOk s o 0x49504E42 16384 && decide (flashNat s (o + 6) 1 = 8) && flashZero s (o + 0x688) 133 &&
  (List.range 8).all fun t => (flashSections s o).any fun e => decide (e.typ = t + 1)

/-- What a copy holds: the contents of its sections, with what the header in flash says. TOPO_HASH is bytes 0 to 31 of the
digest of TOPOLOGY (R347). -/
def platOf (s : State) (o : Nat) (p : PlatformImage) : PlatformImage :=
  { p with svn := flashNat s (o + 8) 4, keySlot := flashNat s (o + 7) 1, minLevel := flashNat s (o + 0x1D) 1,
           digest := Config.sha512 (flashBytes s o 0x600), memDigest := sectionDigest s o 3, topoHash := (sectionDigest s o 4).setWidth 256 }

/-- A well-formed platform copy is one this module may use: its key slot is bound, its SVN is not below the counter, and
its timers and P_MAX lie in their ranges (R311, R445). DESIGN CHOICE: a copy with P_MAX out of its range is refused as one
with bad timers is (log 81). -/
def platOk (s : State) (p : PlatformImage) : Bool :=
  decide (slotState s p.keySlot = .bound) && decide (s.otp.ctrs[1] ≤ p.svn) && timersOk p.timers &&
  decide (1000 ≤ p.pMax) && decide (p.pMax ≤ 4400)

/-- The platform image of a copy: what a start takes from flash. `p` is what the sections hold, none where the signature or
a digest fails. -/
def platCopy (s : State) (b : Bool) (p : Option PlatformImage) : Option PlatformImage :=
  if platHeader s (piBase b) then (p.map (platOf s (piBase b))).filter (platOk s) else none

/-- START_PLATFORM: the preferred copy, or else the other, is read from flash section by section. An operand is what the
sections of a copy hold, none where its signature or a digest fails (R426, R428). -/
def doStartPlatform (a b : Option PlatformImage) (s : State) : State :=
  if !stageDue s stPlatform [stRom] then s else
  let pref := (bootRecord s.flash).elim false (·.piB)
  let get (x : Bool) : Option PlatformImage := platCopy s x (if x then b else a)
  match get pref, get (!pref) with
  | some p, _ => pass { s with plat := some p, start := { s.start with piB := pref } } stPlatform
  | none, some p => pass (startEvent { s with plat := some p, start := { s.start with piB := !pref } } 3) stPlatform
  | none, none => endMgmtOnly (startEvent s 4)

/-! ### CLOCKS (R418, R448, R512) -/

/-- The settings of the CLOCK, POWER and MEMORY sections that registers show. -/
def loadClockRegs (s : State) (p : PlatformImage) : State :=
  let s := setReg s rPwrCfg (w32 (p.pMax % 8192 * 2 ^ 19 + p.rampUp % 8192 * 64 + p.window % 64))
  let s := setReg s rPwrCfg2 (w32 (p.rampDown % 8192 * 2 ^ 19 + p.floorPct % 128 * 4096 + p.stagger % 128 * 32))
  setReg s rPatCfg (w32 (p.scrubPeriod % 256 * 2 ^ 24 + p.telPeriod % 1024 * 2 ^ 14 + p.lanePeriod % 1024 * 16))

/-- Every domain runs on its PLL, AON on the crystal, and each die at the voltage of its point. -/
def runDomains (s : State) : State :=
  { s with clocks := { s.clocks with
    mux := ((List.range 58).map fun k => (k, ({ src := srcPll } : MuxState))) ++ [(58, { src := srcCrystal })]
    dies := s.clocks.dies.map fun x => { x with volts := pointVolts s x.point } } }

/-- START_CLOCKS: the PLLs lock on the crystal, the straps are sampled twice, and the early windows open. -/
def doStartClocks (rack1 : BitVec 10) (slot1 : BitVec 6) (rack2 : BitVec 10) (slot2 : BitVec 6) (s : State) : State :=
  if !stageDue s stClocks [stPlatform] ∨ s.clocks.xtal ≠ .stable then s else
  match s.plat with
  | none => s
  | some p =>
    pass { runDomains (loadClockRegs s p) with
      start := { s.start with rack := rack2.toNat, slot := slot2.toNat, strapOk := decide (rack1 = rack2) && decide (slot1 = slot2) } } stClocks

/-! ### IDENTITY (R408 to R412) -/

/-- Fields of an identity record. -/
def recType (r : BitVec 128) : Nat := fld r 63 56
def recRev (r : BitVec 128) : Nat := fld r 87 80
def recInst (r : BitVec 128) : Nat := fld r 95 88
/-- Its CRC holds. -/
def recOk (r : BitVec 128) : Bool := decide (fld r 127 112 = crc16 (leBytes 14 r.toNat))

/-- The level of a die type and revision in the matrix. -/
def matrixLevel (s : State) (r : BitVec 128) : Option Nat :=
  (s.otp.idMatrix.find? fun e => bitAt e 31 && decide (fld e 19 16 = recType r) && decide (fld e 15 8 = recRev r)).map (fld · 3 0)

/-- What is wrong with the record read at slot `i`: 0 nothing, 1 UNLISTED, 2 ID_BAD, 3 ID_PLACE. -/
def recFault (s : State) (i : Nat) (r : BitVec 128) : Nat :=
  if !recOk r then 2 else if (matrixLevel s r).isNone then 1 else if recInst r ≠ i then 3 else 0

/-- The highest feature level that the firmware supports. -/
def fwLevel : Nat := 3

/-- The slots of each die type. -/
def typeSlots : List (List Nat) := [List.range 24, [24], (List.range 6).map (· + 25), [31]]

/-- START_IDENTITY: the 32 records are read and the feature level formed. -/
def doStartIdentity (records : List (BitVec 128)) (s : State) : State :=
  if !stageDue s stIdentity [stClocks] then s else
  let rs := (List.range 32).map fun i => records.getD i 0
  let s := { s with start := { s.start with ids := rs } }
  let minL := s.plat.elim 0 (·.minLevel)
  let bad := (List.range 32).filter fun i => decide (recFault s i (rs.getD i 0) ≠ 0)
  let plinth := (matrixLevel s (rs.getD 24 0)).getD 0
  match bad with
  | i :: _ =>
    let st := recFault s i (rs.getD i 0)
    let bits := bad.foldl (fun (v : BitVec 24) j => v ||| BitVec.ofNat 24 (2 ^ (recFault s j (rs.getD j 0) - 1))) 0
    let s := setReg s rIdLevel (w32 (plinth * 2 ^ 24 + minL % 16 * 2 ^ 20 + st * 2 ^ 16 + i))
    endMgmtOnly (startEvent (rsEvents s rIdErr bits) 5)
  | [] =>
    let lv (i : Nat) : Nat := (matrixLevel s (rs.getD i 0)).getD 0
    let level := (List.range 32).foldl (fun m i => min m (lv i)) (min plinth fwLevel)
    let lim := if level < min plinth fwLevel then ((List.range 32).find? fun i => decide (lv i = level)).getD 255 else 255
    let word (st : Nat) : Word := w32 (level * 2 ^ 28 + plinth * 2 ^ 24 + minL % 16 * 2 ^ 20 + st * 2 ^ 16 + lim)
    if level = 0 ∨ level < minL then
      endMgmtOnly (startEvent (rsEvent (setReg s rIdLevel (word 4 &&& 0x0FFFFFFF)) rIdErr 3) 5)
    else
      let mixed := typeSlots.any fun is => is.any fun i => decide (recRev (rs.getD i 0) ≠ recRev (rs.getD (is.headD 0) 0))
      let s := setReg s rIdLevel (word 0)
      let s := if mixed then rsEvent s rIdErr 4 else s
      pass { s with dl := { s.dl with level := level } } stIdentity

/-! ### DIE_LINKS (R398 to R400, R406) -/

/-- Why a lane is excluded at this start: 0 OTP, 1 IMAGE, 2 LOGGED, 3 TRAINING; none when it is good. -/
def laneWhy (s : State) (failed : List (Nat × BitVec 68)) (g l : Nat) : Option Nat :=
  let named (xs : List (Nat × BitVec 68)) : Bool := xs.any fun (h, m) => decide (h = g) && m.getLsbD l
  if (SMap.get 0 s.otp.badLanes g).getLsbD l then some 0
  else if s.plat.elim false (fun p => named p.excluded) then some 1
  else if 2 ≤ SMap.get 0 s.flash.lanes (68 * g + l) then some 2
  else if named failed then some 3
  else none

/-- The role that a byte of a role map gives a lane. -/
def mapRole (b : Byte) (prob : Bool) : LaneRole :=
  match fld b 7 6 with
  | 0 => .data (fld b 5 0)
  | 1 => .check
  | 2 => .spare prob
  | _ => .off 1

/-- The byte of a role map for a role. -/
def roleByte : LaneRole → Byte
  | .data i => BitVec.ofNat 8 (i % 64)
  | .check => 0x40
  | .spare b => BitVec.ofNat 8 (0x80 + b2n b)
  | .off r => BitVec.ofNat 8 (0xC0 + r % 64)

/-- Data lanes by R399 for `n` good lanes. -/
def goodWidth (n : Nat) : Nat := if 65 ≤ n then 64 else if 33 ≤ n then 32 else 0

/-- The lanes of a group-direction at a start, and whether they were planned anew. -/
def startLanes (s : State) (failed : List (Nat × BitVec 68)) (g : Nat) : List LaneRole × Bool :=
  let why := laneWhy s failed g
  let good (l : Nat) : Bool := (why l).isNone
  let prob (l : Nat) : Bool := decide (SMap.get 0 s.flash.lanes (68 * g + l) = 1)
  let map := s.plat.elim [] fun p => SMap.get [] p.lanePlan g
  let roles := (List.range 68).map fun l =>
    match why l with
    | some r => LaneRole.off r
    | none => mapRole (map.getD l 0xC0) (prob l)
  let x : GroupDir := { lanes := roles }
  let fits := (List.range 68).all fun l =>
    match fld (map.getD l 0xC0) 7 6 with
    | 0 => good l && !prob l
    | 1 => good l && !prob l
    | _ => true
  if decide (map.length = 68) && fits && decide (dataLanes x = goodWidth ((List.range 68).filter good).length) then (roles, false)
  else (planRoles good prob fun l => (why l).getD 3, true)

/-- START_DIE_LINKS: every lane is trained and the role plan set. A Plinth bundle that is DOWN keeps its die out. -/
def doStartDieLinks (failed : List (Nat × BitVec 68)) (s : State) : State :=
  if !stageDue s stDieLinks [stIdentity] then s else
  let plan := (List.range 688).map fun g => (g, startLanes s failed g)
  let s := { s with dl := { s.dl with groups := (plan.filter fun x => x.2.1.any fun r => !r.isOff || decide (r ≠ .off 0)).map fun x => (x.1, { lanes := x.2.1 }) } }
  let s := plan.foldl (fun s x =>
    if x.2.2 then
      linkEvent { s with flash := { s.flash with roleMaps := SMap.set [] s.flash.roleMaps x.1 (x.2.1.map roleByte) } } 6 x.1 127 5
    else s) s
  let s := (List.range 54).foldl (fun s b => [0, 1].foldl (fun s dir =>
    if bundleDown s b dir then
      let s := linkEvent s 4 0 127 5
      if h : 24 ≤ b ∧ b < 48 then updDie s ⟨b - 24, by omega⟩ fun x => { x with out := true } else s
    else s) s) s
  pass s stDieLinks

/-! ### MEMORY (R235, R248, R255 to R259, R416, R524) -/

/-- The stack that the module's variant takes (R234). -/
def wantedId (s : State) : StackId := ⟨if s.mem.variant then 12 else 16, 32, 32, 2⟩

/-- The operating point that a stack trains at, never faster than the plan's; a stack of another kind fails (R234, R235). -/
def trainPoint (s : State) (points : List StackTraining) (n : Nat) : Option Nat :=
  ((points[n]?).filter fun x => decide (x.id = wantedId s)).bind fun x =>
    x.point.map fun p => max p.val (s.plat.elim 0 fun i => i.stackPoints.getD n 0)

/-- A mask of the channels that a list names for a stack. -/
def chanMask (xs : List (Stack × Fin 32)) (n : Stack) : BitVec 32 :=
  xs.foldl (fun m x => if x.1 = n then m ||| BitVec.ofNat 32 (2 ^ x.2.val) else m) 0

/-- The channels of a stack that were mapped out before a WARM reset. -/
def wasOut (s : State) (n : Stack) : BitVec 32 := s.start.wasOut.getD n.val 0

/-- HBM contents are kept (R416). A channel that fails training and was in service before is to leave service, which R240 and
R258 allow only where contents are not kept. -/
def keepsHbm (s : State) (points : List StackTraining) (selfRefresh : Bool) (bad : List (Stack × Fin 32)) : Bool :=
  s.start.warm && s.start.keepable && selfRefresh &&
  (match s.plat with | some p => decide (s.flash.memDigest = some p.memDigest) | none => false) &&
  allDies.all fun n => !s.start.wasIn.getLsbD n.val ||
    ((trainPoint s points n.val).isSome && decide (chanMask bad n &&& ~~~wasOut s n = 0))

/-- One stack after training: channels mapped out, repairs applied again from the log, and the remap table rebuilt when
contents are kept. A start that keeps contents keeps the channels in service (R240, R258). -/
def startStack (s : State) (points : List StackTraining) (bad : List (Stack × Fin 32)) (kept : Bool) (n : Stack) : StackState :=
  let logged := chanMask s.flash.mapOut n
  let out := if kept then wasOut s n else chanMask (s.plat.elim [] (·.mapOut)) n ||| chanMask bad n ||| logged
  let rows := (s.flash.repairs.filter fun r => decide (r.1 = n.val)).map (·.2)
  let hard := min rows.length (Config.hardRepairs n.val)
  let remaps := if kept then s.flash.remaps.filter fun r => decide (r.1 = n.val) else []
  let x : StackState :=
    { chanOut := out, chanPend := logged &&& ~~~out, repaired := rows, hard := min 65535 hard, soft := min 65535 (rows.length - hard)
      usedSpares := rows.foldl (fun m r => SMap.upd 0 m (r / 2 ^ 32) (· + 1)) []
      remap := remaps.foldl (fun m (r : Nat × Nat × Option Nat) => SMap.set (some r.2.1) m r.2.1 r.2.2) []
      reserveUsed := (remaps.filter fun r => r.2.2.isSome).length }
  match trainPoint s points n.val with
  | some p => { x with inService := decide (popCount 32 out ≤ 4), point := p, rateLow := decide (s.plat.elim 0 (fun i => i.stackPoints.getD n.val 0) < p), lastValid := s.clk }
  | none => x

/-- START_MEMORY. -/
def doStartMemory (points : List StackTraining) (selfRefresh : Bool) (bad : List (Stack × Fin 32)) (s : State) : State :=
  if !stageDue s stMemory [stDieLinks] then s else
  match s.plat with
  | none => s
  | some p =>
    let kept := keepsHbm s points selfRefresh bad
    let st := Vector.ofFn (startStack s points bad kept)
    let m : MemState :=
      { variant := s.mem.variant, rowCeLimit := p.rowCeLimit, scrubHours := p.scrubPeriod, bandOffsets := p.bandOffsets, st := st,
        spread := p.spread, reserve := p.reserve }
    let s := if s.start.warm && !kept then startEvent s 1 else s
    let s := { s with
      mem := if kept then { m with hbm := s.mem.hbm, poison := s.mem.poison, ue := s.mem.ue, ce := s.mem.ce } else m
      flash := { s.flash with memDigest := some p.memDigest, remaps := if kept then s.flash.remaps else [] }
      start := { s.start with kept := kept } }
    let s := forDies (fun d s => updDie s d fun x => { x with ts := [], tsUe := [], tsCe := [] }) s
    let s := allDies.foldl (fun s n => if s.mem.st[n].inService then s else stackEvent s 11 n) s
    let used := allDies.foldl (fun u n => u + s.mem.st[n].reserveUsed) 0
    pass (setFld s rRetired 31 16 used) stMemory

/-! ### SELFTEST (R429) -/

/-- Show a self-test in MOD_SELFTEST and log it: TEST, PASS, CD and the dies that failed their latest test. -/
def noteTest (s : State) (test : Nat) (ok : Bool) (cd : Nat) : State :=
  let s := setReg s rSelftest (w32 (test * 2 ^ 30 + b2n ok * 2 ^ 29 + cd * 2 ^ 24 + s.start.testFailed.toNat))
  { s with flash := { s.flash with tests := s.flash.tests ++ [(test, cd, s.start.testFailed)] } }

/-- Hold out of service the dies of a mask. -/
def holdOut (s : State) (m : BitVec 24) : State :=
  forDies (fun d s => if m.getLsbD d.val then updDie s d fun x => { x with out := true, coreReset := true } else s) s

/-- START_SELFTEST: QUICK ends; the dies that failed are held out. -/
def doStartSelftest (failing : BitVec 24) (s : State) : State :=
  if !stageDue s stSelftest [stMemory] then s else
  let s := { s with start := { s.start with testFailed := failing } }
  let s := noteTest (holdOut s failing) 0 (decide (failing = 0)) 0
  let s := forDies (fun d s => updDie s d fun x => { x with ts := [], tsUe := [], tsCe := [] }) s
  pass (if failing = 0 then s else startEvent s 7) stSelftest

/-! ### OPTICS (R346, R374) -/

/-- The straps satisfy a rack position rule: ranges of rack numbers and of slot positions. -/
def positionOk (s : State) (p : PlatformImage) : Bool :=
  p.positions.any fun (r0, r1, s0, s1) =>
    decide (r0 ≤ s.start.rack) && decide (s.start.rack ≤ r1) && decide (s0 ≤ s.start.slot) && decide (s.start.slot ≤ s1)

/-- The fabric takes its identity, its default tables in bank 0 under epoch 0, its timers and its flat table. -/
def loadFabric (s : State) (p : PlatformImage) : State :=
  let settled := s.start.strapOk && positionOk s p
  { s with fab := { s.fab with
    settled := settled, modId := if settled then modIdOf s.start.rack s.start.slot else 0xFFFF
    cMode := p.cMode.val, bDims := p.bDims, topoHash := p.topoHash, timers := p.timers
    flat := p.flat.foldl (fun m e => SMap.set none m e.index.val (some e)) []
    rack := Vector.ofFn fun i : Fin 2 => if i.val = 0 then maskTable rackMask p.rackTable else []
    dim := Vector.ofFn fun i : Fin 2 => if i.val = 0 then maskTable dimMask p.dimTable else []
    cur := 0 } }

/-- The heater value of a ring that has locked, in units of 1/460,800 mW: the logged calibration, or else a free value in
range. -/
def lockHeater (s : State) (n : Nat) (r : Ring) : Int :=
  match (SMap.get [] s.flash.ringCal (ringNo r))[1]? with
  | some h => 900 * (h.toNat : Int)
  | none => 900 * (((Config.freeWord (n + ringNo r)).toNat % 51201 : Nat) : Int)

/-- Every ring of the module, by its key. -/
def allRings : List Ring := allChans.flatMap fun c => [(⟨c, false⟩ : Ring), ⟨c, true⟩]

/-- Step 1 of R374: every ring heater goes to its park position. -/
def parkAll (s : State) : State :=
  let (n, s) := drawFree s
  updOpt s fun o => { o with rings := allRings.map fun r => (ringNo r, ({ cal := lockHeater s n r } : RingState).park) }

/-- Every ring acquires its line and passes VERIFY, but for those that fail and transmit rings without light. -/
def acquireAll (s : State) (failed : List Ring) : State :=
  let st (k : Nat) (x : RingState) : RingState :=
    if failed.any fun r => decide (ringNo r = k) then { x with st := .failed }
    else if k % 2 = 0 ∧ !s.opt.feedOk.getLsbD (feedOf (chanOf (k / 2))) then x
    else { x with st := .locked, heater := x.cal }
  let s := updOpt s fun o => { o with rings := o.rings.map fun x => (x.1, st x.1 x.2) }
  (failed.filter fun r => chanExists r.ch).foldl (fun s r => emit (portEvent s 4 r.ch r.rx 0 4) (.pldmEvent 8)) s

/-- The feed and the source byte that a tag frame names (R373); none where its sync byte or its CRC-8 fails. -/
def tagFrame (w : Word) : Option (Nat × Byte) :=
  if fld w 31 24 = 0xA5 ∧ fld w 7 0 = crc8 [w.extractLsb' 24 8, w.extractLsb' 16 8, w.extractLsb' 8 8] then
    some (fld w 23 20, w.extractLsb' 8 8)
  else none

/-- Feed powers and tag frames (R374 step 4). Per feed: the frame decoded on it; none where the feed is not within its
limits. DESIGN CHOICE: a frame that does not check names no feed and no source, and the feed is used (log 81). -/
def takeFeeds (s : State) (feeds : List (Option Word)) : State :=
  let ok (j : Nat) : Bool := ((feeds[j]?).join).isSome
  let f (j : Nat) : Option (Nat × Byte) := ((feeds[j]?).join).bind tagFrame
  let idx := List.range 14
  let srcs := idx.filterMap fun j => (f j).map (·.2)
  let bits := idx.foldl (fun (v : BitVec 14) j => if ok j then v ||| BitVec.ofNat 14 (2 ^ j) else v) 0
  let s := updOpt s fun o =>
    { o with feedOk := bits, tagFeed := idx.foldl (fun m j => match f j with | some x => SMap.set 15 m j x.1 | none => m) [] }
  let s := if idx.any (fun j => (f j).any fun x => decide (x.1 ≠ j)) then rsEvent s rLsErr 3 else s
  let s := if srcs.any (fun b => decide (b ≠ srcs.headD 0)) then rsEvent s rLsErr 7 else s
  idx.foldl (fun s j => if !ok j then
    portEvent (rsEvent s rLsErr 2) 2 ⟨⟨feedPort j % 6, Nat.mod_lt _ (by decide)⟩, ⟨4 * (j - portFeed (feedPort j)) % 16, Nat.mod_lt _ (by decide)⟩, 0⟩ false 0 3
    else s) s

/-- Open every shutter and send LINK_HELLO on every channel in service. -/
def openAll (s : State) : State :=
  let s := updOpt s fun o => { o with closed := (List.range 96).filterMap fun k => if k % 16 < portFibres (k / 16) then some (k, 0) else none }
  allChans.foldl (fun s c => if serving s c then channelUp s c else s) s

/-- The optics stay dark for this start. -/
def darkOptics (s : State) : State := startEvent s 6

/-- START_OPTICS: the identity settles, and the six steps of R374 are taken. `lsStatus` has IF_LEVEL in 31:16 and STATUS
in 15:0; none when no LS-16 answers. -/
def doStartOptics (lsStatus : Option Word) (feeds : List (Option Word)) (failed : List Ring) (s : State) : State :=
  if !stageDue s stOptics [stDieLinks] then s else
  match s.plat with
  | none => s
  | some p =>
    let s := parkAll (pass (loadFabric s p) stOptics)
    match lsStatus with
    | none => darkOptics (rsEvent s rLsErr 0)
    | some w =>
      if fld w 31 16 ≠ 1 then darkOptics (rsEvent s rLsErr 6)
      else
        let s := updOpt s fun o => { o with present := true, feedEn := 0x3FFF }
        let s := emit (emit s (.lsEn true)) (.lsWrite 0x12 0x3FFF)
        if !bitAt w 0 then darkOptics s
        else openAll (acquireAll (takeFeeds (updOpt s fun o => { o with enabled := true, on := true }) feeds) failed)

/-! ### REPLAY and READY (R422, R437) -/

/-- START_REPLAY: at a start that kept HBM contents, a journal in PASS2 of the image that was active goes to the
Finisher. -/
def doStartReplay (imageOk : Bool) (s : State) : State :=
  if !stageDue s stReplay [stSelftest, stOptics] then s else
  let s := pass s stReplay
  match s.start.kept, s.flash.active with
  | true, some img =>
    let r := { s with upd := { s.upd with replay := some img } }
    if journalState r ≠ 1 then s
    else if !imageOk then signalUnit (startEvent { s with start := { s.start with replayFail := true } } 8) 4
    else
      let j := journalAt r
      let w (off : Nat) : Word := w32 (peekNat r (j + off) 4)
      let r := setReg (setReg (setReg (setReg r rUpdLr (w 0x14)) rUpdGnorm (w 0x18)) rUpdClip (w 0x1C)) rUpdGradMul (w 0x20)
      let n := w64 (peekNat r j 8)
      let q : Pass2 := { step := n, att := w64 (peekNat r (j + 8) 8), lr := w 0x14, gc := fmul (w 0x20) (w 0x1C),
                         outer := decide (peekNat r (j + 0x11) 1 % 2 = 1) }
      setReg64 { r with upd := { r.upd with p2 := some q, fin := .replay, tries := 0 } } rUpdFinStep n
  | _, _ => s

/-- START_READY: every window opens, the dies leave reset, and shaping and Patina run. -/
def doStartReady (s : State) : State :=
  if !stageDue s 10 [stPower, stRom, stPlatform, stClocks, stIdentity, stDieLinks, stMemory, stSelftest, stOptics, stReplay] then s else
  let s := { s with start := { s.start with fin := .ready, readyAt := s.clk }, flash := { s.flash with active := none } }
  let s := forDies (fun d s => updDie s d fun x => { x with coreReset := x.out }) s
  let s := updPwr s fun p => { p with tickAt := s.clk, e := meanOf p.frames / 100, zeroAt := some s.clk }
  let s := { s with tel := { s.tel with nextAt := some (s.clk + fld (reg s rPatCfg) 23 14 * 100000) } }
  signalUnit (startEvent s 0) 1

end Sys2Proof.Machine
end

