-- ==== Sys2Proof/Machine/Image.lean ====
section
/-! DEFINITION. Machine/Image.lean: job images (R425 to R436): the container, the activation checks, loading, re-homing (R42) and
the end of an image. -/
namespace Sys2Proof.Machine
open Sys2Proof

/-! ### The container (R425) -/

/-- Fields of the header of the container at module address `a`. -/
def hMagic (s : State) (a : Nat) : Nat := peekNat s a 4
def hFormat (s : State) (a : Nat) : Nat := peekNat s (a + 4) 2
def hSections (s : State) (a : Nat) : Nat := peekNat s (a + 6) 1
def hKeySlot (s : State) (a : Nat) : Nat := peekNat s (a + 7) 1
def hSvn (s : State) (a : Nat) : Nat := peekNat s (a + 8) 4
def hLength (s : State) (a : Nat) : Nat := peekNat s (a + 0xC) 4
def hJobId (s : State) (a : Nat) : Nat := peekNat s (a + 0x18) 2
def hRank (s : State) (a : Nat) : Nat := peekNat s (a + 0x1A) 2
def hFlags (s : State) (a : Nat) : Nat := peekNat s (a + 0x1C) 1
def hMin (s : State) (a : Nat) : Nat := peekNat s (a + 0x1D) 1

/-- Section entry `i`, with its offset in bytes. -/
def hSection (s : State) (a i : Nat) : Section :=
  ⟨peekNat s (a + 0x100 + 80 * i) 2, 4096 * peekNat s (a + 0x104 + 80 * i) 4, peekNat s (a + 0x108 + 80 * i) 4⟩

/-- The section entries in use. -/
def hEntries (s : State) (a : Nat) : List Section := (List.range (min 16 (hSections s a))).map (hSection s a)

/-- Every listed byte of a range is zero. The range is looked up in pieces of 2 KiB, over which addresses are mapped
uniformly. -/
def zeroRange (s : State) (a len : Nat) : Bool :=
  (List.range ((a % 2048 + len + 2047) / 2048)).all fun i =>
    let lo := max a (a / 2048 * 2048 + 2048 * i)
    let hi := min (a + len) (a / 2048 * 2048 + 2048 * (i + 1))
    match phys s.mem lo with
    | none => true
    | some k => s.mem.hbm.all fun (q, v) => !(decide (k ≤ q) && decide (q < k + (hi - lo))) || decide (v = 0)

/-- The section types that a job image holds (R431). -/
def jobTypes (shadow : Bool) : List Nat :=
  if shadow then [0x12, 0x13, 0x14, 0x16, 0x17, 0x18, 0x19, 0x1A, 0x1B]
  else [0x10, 0x11, 0x12, 0x13, 0x14, 0x15, 0x16, 0x17, 0x18, 0x19, 0x1A]

/-- The image's FLAGS has SHADOW. -/
def hShadow (s : State) (a : Nat) : Bool := (hFlags s a).testBit 0

/-- Entry `4d + c` of the STREAMS section: START (R432). -/
def streamStart (s : State) (a : Nat) (es : List Section) (n : Nat) : Nat := peekNat s (a + (sectionOf es 0x10).off + 16 * n) 8

/-- A range lies in a region of a class. -/
def inRegion (sec : JobSections) (cls : RegionClass) (a len : Nat) : Bool :=
  sec.regions.any fun r => decide (r.cls = cls ∧ r.base ≤ a ∧ a + len ≤ r.base + r.len)

/-- Size of a C replay store in units of 64 MiB: 1 GiB where the image names none (R315). -/
def storeUnits (x : Nat × Nat) : Nat := if x.2 = 0 then 16 else x.2

/-- The C replay stores are of 64 MiB to 4 GiB, in FIXED regions (R315). -/
def storesOk (sec : JobSections) : Bool :=
  sec.cstores.all fun x => decide (storeUnits x ≤ 64) && inRegion sec .fixed x.1 (2 ^ 26 * storeUnits x)

/-- FORMAT (R315, R352, R425, R431, R432). -/
def formatOk (s : State) (a len : Nat) (sec : JobSections) : Bool :=
  let sh := hShadow s a
  let es := hEntries s a
  decide (hMagic s a = 0x494A4E42) && decide (hFormat s a = 1) && decide (hSections s a = (jobTypes sh).length) &&
  decide (hLength s a = len) && decide (1 ≤ hJobId s a) && decide (hFlags s a ≤ 1) && decide (hSvn s a ≤ 64) &&
  decide (peekNat s (a + 0x600) 2 = 1) && zeroRange s (a + 0x1E) 226 && zeroRange s (a + 0x602) 2 && zeroRange s (a + 0x688) 2424 &&
  ((jobTypes sh).all fun t => es.any fun e => decide (e.typ = t)) && sectionsOk es len &&
  ((List.range es.length).all fun i => zeroRange s (a + 0x102 + 80 * i) 2 && zeroRange s (a + 0x10C + 80 * i) 4) &&
  decide ((sectionOf es 0x12).len = 131072) && decide ((sectionOf es 0x13).len = 512) &&
  decide (128 * sec.layerCount ≤ (sectionOf es 0x16).len) && decide (sec.layerCount ≤ 4096) && storesOk sec &&
  decide (sec.schedules.length ≤ 4096) && sec.schedules.all (fun rs => decide (rs.length ≤ 255)) &&
  (sh || (decide ((sectionOf es 0x11).len = 6291456) && decide (1536 ≤ (sectionOf es 0x10).len) &&
    (List.range 96).all fun n =>
      let p := streamStart s a es n
      decide (a ≤ p) && decide (p + 64 ≤ a + 4096 * len) && zeroRange s (a + (sectionOf es 0x10).off + 16 * n + 8) 8))

/-- The region lies wholly within one stack's local window or within the spread window (R434 code 1). -/
def regionOk (s : State) (a len : Nat) : Bool :=
  decide (a % 4096 = 0) &&
  (if a < 0x18000000000 then
    let n : Stack := ⟨a / 2 ^ 36 % 24, Nat.mod_lt _ (by decide)⟩
    s.mem.st[n].inService && decide (a % 2 ^ 36 + 4096 * len ≤ localSize s.mem n)
  else decide (spreadBase ≤ a) && decide (a - spreadBase + 4096 * len ≤ 24 * spreadOf s.mem))

/-! ### Tables of the image -/

/-- The rank table's entry for a rank (R296). -/
def rankEntry (s : State) (a : Nat) (es : List Section) (r : Nat) : Half := BitVec.ofNat 16 (peekNat s (a + (sectionOf es 0x12).off + 2 * r) 2)

/-- Every rank. -/
def allRanks : List Nat := List.range 65536

/-- A byte of the channel table. -/
def chanByte (s : State) (a : Nat) (es : List Section) (k : Nat) : Nat := peekNat s (a + (sectionOf es 0x13).off + k) 1

/-- The layer descriptors. -/
def imageLayers (s : State) (a : Nat) (es : List Section) (sec : JobSections) : List (BitVec 1024) :=
  (List.range sec.layerCount).map fun i => BitVec.ofNat 1024 (peekNat s (a + (sectionOf es 0x16).off + 128 * i) 128)

/-- The descriptors of a stream's program, from START to its first STEP_END. -/
def progFrom (s : State) (hi : Nat) : Nat → Nat → List (BitVec 512)
  | 0, _ => []
  | fuel + 1, p =>
    if hi < p + 64 then [] else
    let w := BitVec.ofNat 512 (peekNat s p 64)
    if dType w = tStep ∧ dOp w = 1 then [w] else w :: progFrom s hi fuel (p + 64)

/-- The program of stream `n` of the 96. -/
def streamProg (s : State) (a len : Nat) (es : List Section) (n : Nat) : List (BitVec 512) :=
  progFrom s (a + 4096 * len) (64 * len) (streamStart s a es n)

/-- The settings of a die. -/
def dieCfg (p : JobParams) (d : Nat) : DieCfg := p.dies.getD d ⟨[], 0, 0, 0, [], []⟩

/-- DEPTH of CDnn_TQ_CFG (R100). -/
def tqDepth (c : DieCfg) : Nat := min 32 (c.tqSize / 4)

/-! ### The checks of R434 -/

/-- Slot `n` may sign job images (R426, R505). -/
def jobSlotOk (s : State) (n : Nat) : Bool :=
  decide (slotState s n = .bound) && s.plat.elim false fun p => p.jobKeys.getLsbD n

/-- Module addresses whose byte is stored under a key. -/
def addrsOfKey (m : MemState) (k : Nat) : List Nat :=
  let n : Stack := ⟨k / 2 ^ 36 % 24, Nat.mod_lt _ (by decide)⟩
  let o := k % 2 ^ 36
  let pages := o / pageBytes :: (m.st[n].remap.filter fun x => decide (x.2 = some (o / pageBytes))).map (·.1)
  pages.flatMap fun p =>
    let o := p * pageBytes + o % pageBytes
    let u := (o - (capOf m n - spreadOf m)) / 2048
    let r := (n.val + 24 - u % 24) % 24
    [n.val * 2 ^ 36 + o, spreadBase + (24 * u + r) * 2048 + o % 2048].filter fun a => decide (phys m a = some k)

/-- A granule of a PERSISTENT region holds poison (code 11). -/
def persistPoison (s : State) (sec : JobSections) : Bool :=
  s.mem.poison.any fun g => (addrsOfKey s.mem (64 * g.1)).any fun a =>
    sec.regions.any fun r => decide (r.cls = .persistent) && overlaps a 64 r.base r.len

/-- STATE of the journal of an image being checked, and STEP_CTR as R288 loads it. -/
def jState (s : State) (sec : JobSections) : Nat := peekNat s (sec.journal + 0x10) 1
def loadedStep (s : State) (sec : JobSections) : DWord := if jState s sec = 2 then w64 (peekNat s sec.journal 8) else sec.params.initStep

/-- Pages of the stash pool in each stack: everything above the fixed regions of its local window that is mapped (R241,
R256). -/
def poolAt (s : State) (sec : JobSections) : List Nat :=
  allDies.map fun n =>
    let lo := ceilDiv (sec.highest.getD n.val 0) pageBytes
    let hi := localSize s.mem n / pageBytes
    let lost := (s.mem.st[n].remap.filter fun x => decide (x.2 = none) && decide (lo ≤ x.1) && decide (x.1 < hi)).length
    hi - lo - lost

/-- STASH_SHORT (R58): in some stack the pool cannot hold the recompute area and every checkpoint. -/
def stashShort (s : State) (sec : JobSections) : Bool :=
  (poolAt s sec).zipIdx.any fun x =>
    decide (x.1 < recomputeArea sec x.2 + sec.stash.foldl (fun n l => n + l.ckptPages.getD x.2 0) 0)

/-- A share list gives a stream that needs one nothing. -/
def unshared (shares : List Nat) (needs : Nat → Bool) : Bool := (List.range 4).any fun c => needs c && decide (shares.getD c 0 = 0)

/-- VEC_SHARE (R140) and TQ_SHARE (R100): on some die the shares are too many, or a stream that uses the unit has none. -/
def vecShareBad (s : State) (a len : Nat) (es : List Section) (p : JobParams) : Bool :=
  (List.range 24).any fun d =>
    let c := dieCfg p d
    decide (32 < c.vecShare.foldl (· + ·) 0) ||
    unshared c.vecShare fun k => (streamProg s a len es (4 * d + k)).any fun w => decide (dType w = tVector)
def tqShareBad (s : State) (a len : Nat) (es : List Section) (p : JobParams) : Bool :=
  (List.range 24).any fun d =>
    let c := dieCfg p d
    decide (tqDepth c < c.tqShare.foldl (· + ·) 0) ||
    unshared (c.tqShare.take 3 ++ [1]) fun k => (streamProg s a len es (4 * d + k)).any fun w => decide (dType w = tArray)

/-- The job's timers keep the conditions of R311 and raise none of the platform's. -/
def jobTimersOk (s : State) (t : FabTimers) : Bool :=
  timersOk t && (match s.plat with
    | none => true
    | some p =>
      decide (t.pktLife ≤ p.timers.pktLife) && decide (t.rtoNear ≤ p.timers.rtoNear) && decide (t.rtoFar ≤ p.timers.rtoFar) &&
      decide (t.e2eRetryMax ≤ p.timers.e2eRetryMax) && decide (t.linkRetryMax ≤ p.timers.linkRetryMax) && decide (t.flowIdle ≤ p.timers.flowIdle))

/-- A schedule names a position of this rack as an A peer. -/
def aPeer (s : State) (a : Nat) (es : List Section) (sec : JobSections) (q : Nat) : Bool :=
  (sec.schedules ++ sec.shadow).any fun rs => rs.any fun r =>
    decide (r.axis.val = 0) && decide (rankEntry s a es r.peer.toNat = modIdOf (rackOf s.fab.modId) q)

/-- CHAN_TABLE (R336). -/
def chanTableBad (s : State) (a : Nat) (es : List Section) (sec : JobSections) : Bool :=
  let w (ch : Chan) : Nat := chanByte s a es (chanNo ch)
  let own := posOf s.fab.modId
  ((aChans own own).any fun ch => decide (w ch ≠ 0)) ||
  (List.range 64).any fun q => decide (q ≠ own) &&
    (((aChans own q).all fun ch => decide (w ch % 16 = 0)) &&
        allRanks.any (fun r => decide (rankEntry s a es r = modIdOf (rackOf s.fab.modId) q)) ||
      ((aChans own q).all fun ch => decide (w ch / 16 = 0)) && aPeer s a es sec q)

/-- PROTO_LOW (R350). -/
def protoLow (s : State) (a : Nat) (es : List Section) : Bool :=
  s.fab.links.any fun (_, l) => l.accepted && decide (l.level < hMin s a) &&
    allRanks.any fun r => decide (rankEntry s a es r = l.peer)

/-- COLL_TIMEOUT (R361). -/
def collTimeoutBad (s : State) (a len : Nat) (es : List Section) (sec : JobSections) : Bool :=
  let t := sec.params.timers
  (List.range 96).any fun n => (streamProg s a len es n).any fun w =>
    decide (dType w = tCollective) && decide (cTimeout w ≠ 0) &&
    (let far := ((sec.schedules[cSched w]?).getD []).any fun r => decide (r.axis.val = 2)
     decide (cTimeout w ≤ (t.e2eRetryMax + 1) * (if far then t.rtoFar else t.rtoNear)))

/-- The addresses of a layer descriptor lie in PERSISTENT regions, G_ADDR in a FIXED one (R266). -/
def layerRegionsOk (sec : JobSections) (l : BitVec 1024) : Bool :=
  let p := sec.params
  let own := ((List.range (nChunks l)).filter fun t => decide (t % max 1 p.replicas = p.siteRank)).length
  let hold := inRegion sec .persistent
  hold (lW l) (4 * lElems l) && hold (lS1 l) (4 * lElems l) && (decide (lRule l ≠ 0) || hold (lS2 l) (4 * lElems l)) &&
  hold (lWc l) (wcBytes l * lElems l) && hold (lCountAddr l) 8 &&
  (!lOuter l || hold (lOuterAddr l) (own * (655360 + (if p.lagged then tileEnc p.outerFmt else 0)))) &&
  (!lGradCompute l || inRegion sec .fixed (lG l) (2 * lElems l))

/-- UPD_DESC (R267). -/
def updDescBad (sec : JobSections) (ls : List (BitVec 1024)) : Bool := !(layerListOk ls && ls.all (layerRegionsOk sec))

/-- The conditions of R434 that a container at `a` of `len` × 4 KiB breaks, by code. -/
def checkList (s : State) (a len : Nat) (expect : DWord) (sec : JobSections) (sigOk : Bool) : List (Nat × Bool) :=
  let es := hEntries s a
  let sh := hShadow s a
  let p := sec.params
  [ (1, !regionOk s a len), (2, !formatOk s a len sec), (3, !jobSlotOk s (hKeySlot s a)), (4, decide (hSvn s a < s.otp.ctrs[2])),
    (5, !sigOk), (6, !s.start.idValid), (7, decide (rankEntry s a es (hRank s a) ≠ s.fab.modId)),
    (8, !sh && allDies.any fun d => (die s d).out), (9, allDies.any fun n => !s.mem.st[n].inService),
    (10, allDies.any fun n => decide (localSize s.mem n < sec.highest.getD n.val 0)), (11, persistPoison s sec),
    (12, decide (jState s sec = 1) || s.start.replayFail), (13, decide (expect ≠ 0) && decide (expect ≠ loadedStep s sec)),
    (14, !sh && (decide (96 < p.seqInFlight) || decide (p.seqLen < 1) || decide (1048576 < p.seqLen))), (15, !sh && stashShort s sec),
    (16, !sh && vecShareBad s a len es p), (17, !sh && tqShareBad s a len es p), (18, updDescBad sec (imageLayers s a es sec)),
    (19, !jobTimersOk s p.timers), (20, chanTableBad s a es sec), (21, protoLow s a es), (22, !sh && collTimeoutBad s a len es sec) ]

/-- The lowest code that refuses an activation; 0 for none. -/
def refuseCode (s : State) (sec : JobSections) (sigOk : Bool) : Nat :=
  (((checkList s s.img.base.toNat s.img.len s.img.expect sec sigOk).find? (·.2)).map (·.1)).getD 0

/-! ### Activation (R433) -/

/-- Record an image event. -/
def imgEvent (s : State) (bit : Nat) : State := rsEvent s rImgEvt bit

/-- ACTIVATION: the Plinth consumes a count of object 0. -/
def doActivation (s : State) : State :=
  let o := getObj s (.glob 0)
  if s.start.fin ≠ .ready ∨ s.img.st ≠ .none ∨ o.count = 0 then s
  else
    let s := putObj s (.glob 0) { o with count := o.count - 1 }
    let s := { s with img :=
      { st := .verifying, lastStop := s.img.lastStop, base := reg64 s rImgBase, len := (reg s rImgLen).toNat, attBase := reg64 s rAttBase,
        expect := reg64 s rExpect } }
    imgEvent s 0

/-- The image state after an image has gone: nothing but the codes of R434 and R435. -/
def noImage (s : State) (refuse stop : Nat) : State := { s with img := { refuse := refuse, lastStop := stop } }

/-- An activation is refused (R433, R434). -/
def refuseImage (s : State) (code : Nat) : State :=
  let slot := hKeySlot s s.img.base.toNat
  let s := noImage s code s.img.lastStop
  let s := if 3 ≤ code ∧ code ≤ 5 then secEvent s 1 3 (if code = 3 then slot else if code = 4 then 2 else code) else s
  signalUnit (imgEvent s 2) 3

/-- The registers that count since activation return to 0 (R493). -/
def clearSince (s : State) : State :=
  let one : List Nat := [rSlotRedir, rSlotDrop, rStepPoison, rUpdOuterCtr, rUpdFrozen, rUpdRatioEx, rUpdNonfinite]
  let two : List Nat := [rArmGrants, rCollDone]
  let cd : List Nat := [rConvSat, rConvNan, rVecInstr, rVecIdxElem, rStrIssued]
  let dead (off : Nat) : Bool :=
    one.contains off || two.any (fun r => off = r || off = r + 4) ||
    (decide (rTelWait ≤ off) && decide (off < rTelWait + 0x1800)) ||
    (decide (0x1000000 ≤ off) && cd.any fun r => (off - 0x1000000) % 0x100000 = r || (off - 0x1000000) % 0x100000 = r + 4)
  { s with regs := s.regs.filter fun x => !dead x.1 }

/-- The global initial list acts as REARM (R210). -/
def initObjs (s : State) (sec : JobSections) : State := sec.syncInit.foldl (fun s x => rearmObj s (.glob x.1) x.2.1 x.2.2) s

/-- A die takes its settings, objects and program store. -/
def loadDie (p : JobParams) (att : Half) (prog : Nat → DWord) (d : Die) (s : State) : State :=
  let c := dieCfg p d.val
  let sh (xs : List Nat) (i : Nat) : Nat := xs.getD i 0
  let w := cdWin d.val
  let s := updDie s d fun x =>
    { x with str := idleStreams x.str, arr := {}, ctx := ⟨{}, {}, {}, {}⟩,
             prog := ((List.range 32768).map fun i => (i, prog i)).filter fun x => decide (x.2 ≠ 0) }
  let s := resetObjs s d att
  let s := setReg s (w + rTqCfg) (w32 (tqDepth c * 2 ^ 26 + c.tqSize % 1024 * 65536 + c.tqBase % 1024))
  let s := setReg s (w + rTqShare) (w32 (sh c.tqShare 2 % 256 * 65536 + sh c.tqShare 1 % 256 * 256 + sh c.tqShare 0 % 256))
  let s := setReg s (w + rVecCfg) (w32 (c.vecPrio.toNat * 2 ^ 24 + sh c.vecShare 3 % 64 * 2 ^ 18 + sh c.vecShare 2 % 64 * 4096 +
    sh c.vecShare 1 % 64 * 64 + sh c.vecShare 0 % 64))
  setReg s (w + rStrCfg) (w32 (sh c.moveWt 3 % 16 * 4096 + sh c.moveWt 2 % 16 * 256 + sh c.moveWt 1 % 16 * 16 + sh c.moveWt 0 % 16))

/-- The tiles that the prologue re-homes (R42): owned now, and by another module under S_PREV. -/
def rehomeList (s : State) (sec : JobSections) : List Nat :=
  let p := sec.params
  if p.sPrev = 0 then [] else
  (List.range s.img.layers.length).flatMap fun i =>
    let l := s.img.layers.getD i 0
    if !lOuter l then [] else
    (ownedTiles s l).filterMap fun t =>
      if p.prevOwner.getD (t % p.sPrev) 0xFFFF = s.img.rank then none else some (2 ^ 32 * i + t)

/-- Where the outer-step state of the tiles that stay with their owner lies under S_PREV and now, for one descriptor: source,
destination and bytes of each plane. -/
def keptPlanes (s : State) (p : JobParams) (l : BitVec 1024) : List (Nat × Nat × Nat) :=
  let old := (List.range (nChunks l)).filter fun t => decide (p.prevOwner.getD (t % p.sPrev) 0xFFFF = s.img.rank)
  let own := ownedTiles s l
  (own.filter fun t => decide (t ∈ old)).flatMap fun t =>
    let i := old.idxOf t
    let j := own.idxOf t
    let n := chunkLen l t
    [(planeA l i, planeA l j, 4 * n), (planeE l old.length i, planeE l own.length j, 2 * n),
      (planeU l old.length i, planeU l own.length j, 4 * n)] ++
    if p.lagged then [(planeP l p.outerFmt old.length i, planeP l p.outerFmt own.length j, tileEnc p.outerFmt)] else []

/-- Read the sources of a list of moves; none where a read meets an error. -/
def readMoves : List (Nat × Nat × Nat) → State → List (Nat × Nat × Option (List Byte)) × State
  | [], s => ([], s)
  | (a, b, n) :: ms, s =>
    let (r, s) := updRead s a n
    let (rs, s) := readMoves ms s
    ((b, n, r) :: rs, s)

/-- Tiles whose owner is unchanged keep their state (R42): the planes are ordered by the tiles owned, so their places change
with S (DESIGN CHOICE, log entry 78). -/
def keepTiles (s : State) (p : JobParams) : State :=
  if p.sPrev = 0 then s else
  let (ms, s) := readMoves ((s.img.layers.filter lOuter).flatMap (keptPlanes s p)) s
  ms.foldl (fun s m => match m.2.2 with
    | some bs => memPut s m.1 bs
    | none => memPoison s m.1 m.2.1) s

/-- FAB_CSTOREc_BASE and FAB_CSTOREc_SIZE show the replay stores that the image names; 0 where it names none. -/
def setStores (s : State) (cs : List (Nat × Nat)) : State :=
  [0, 1].foldl (fun s c =>
    match cs[c]? with
    | some x => setReg (setReg64 s (rCstoreBase + 16 * c) (w64 x.1)) (rCstoreSize + 16 * c) (w32 (storeUnits x))
    | none => setReg (setReg64 s (rCstoreBase + 16 * c) 0) (rCstoreSize + 16 * c) 0) s

/-- The image is loaded (R433 item 4). -/
def loadImage (s : State) (sec : JobSections) : State :=
  let a := s.img.base.toNat
  let es := hEntries s a
  let sh := hShadow s a
  let p := sec.params
  let prog (d : Die) (i : Nat) : DWord := if sh then 0 else w64 (peekNat s (a + (sectionOf es 0x11).off + 262144 * d.val + 8 * i) 8)
  let n := loadedStep s sec
  let s0 := s
  let img : ImageState :=
    { s.img with
      st := .loading, jobId := BitVec.ofNat 16 (hJobId s a), rank := BitVec.ofNat 16 (hRank s a), svn := hSvn s a, keySlot := hKeySlot s a,
      digest := Config.sha512 (memBytes s.mem a 0x600), isShadow := sh, sec := some sec,
      ranks := (allRanks.map fun r => (r, rankEntry s a es r)).filter fun x => decide (x.2 ≠ 0xFFFF),
      channels := (List.range 512).map fun k => BitVec.ofNat 8 (chanByte s a es k), layers := imageLayers s a es sec
      colls := if sh then [] else allDies.flatMap fun d =>
        ((streamProg s a s.img.len es (strNo d .t)).filter fun w => decide (dType w = tCollective)).map fun w => (d, w) }
  let s := clearSince { s with
    img := img
    sync := { s.sync with classes := sec.classes }
    step := { ctr := n, lossE := p.eInit, poolFree := poolAt s sec }
    maq := {}
    upd := {}
    coll := { stretchNs := s.coll.stretchNs }
    gang := ⟨none, none, none, none⟩
    fab := { s.fab with
      timers := p.timers
      flat := sec.flat.foldl (fun m e => if 128 ≤ e.index.val then SMap.set none m e.index.val (some e) else m) s.fab.flat }
    flash := { s.flash with images := s.flash.images ++ [(s.img.base, s.img.len, img.digest)], active := some img } }
  let s := keepTiles { s with upd := { s.upd with rehome := rehomeList s sec } } p
  let s := forDies (fun d s => loadDie p (s0.img.attBase.setWidth 16) (prog d) d s) s
  let s := setStores (initObjs s sec) sec.cstores
  let s := setReg64 s rStepCtr n
  let s := setReg (setReg s rArmPrio (p.armPrio.setWidth 32)) rArmTimeout p.armTimeout
  showScale (setReg64 s rUpdJournal (w64 sec.journal))

/-- All 96 streams begin their prologues (R433 item 5). -/
def beginPrologue (s : State) : State :=
  let a := s.img.base.toNat
  let es := hEntries s a
  let s := forStreams (fun d c s =>
    updStr s d c fun x => { x.idled with st := .issuing, prologue := true, pc := w64 (streamStart s a es (strNo d c)) }) s
  signalUnit (imgEvent { s with img := { s.img with st := .prologue } } 1) 2

/-- ACTIVATION_VERIFY_DONE: the checks end. `sec` is what the sections without a layout in the spec hold, and `sigOk` says
that the signature and every section digest verify. A stop requested meanwhile ends the activation (R436). -/
def doActivationVerifyDone (sec : JobSections) (sigOk : Bool) (s : State) : State :=
  if s.img.st ≠ .verifying then s
  else if s.img.stopReq then signalUnit (noImage s 0 s.img.stop) 3
  else
    let code := refuseCode s sec sigOk
    if code ≠ 0 then refuseImage s code
    else
      let s := loadImage s sec
      if s.img.isShadow then shadowAt (s.img.attBase + 1) { s with img := { s.img with st := .shadow } } else beginPrologue s

/-! ### Re-homing (R42) -/

/-- A prologue fault stops the image (R204). -/
def rehomeFail (s : State) (d : Die) : State :=
  stopImage (recordFault s d .u (2 ^ fPrologue) 0 (str s d .u).expect (str s d .u).pc) 5

/-- Take the planes of the j-th of `cnt` owned tiles: A and u from the bytes fetched, e as given. -/
def putRehomed (s : State) (l : BitVec 1024) (j cnt : Nat) (a e u : List Byte) : State :=
  memPut (memPut (memPut s (planeA l j) a) (planeE l cnt j) e) (planeU l cnt j) u

/-- REHOME_TILES: the outer-step state of one tile arrives: A, e and u from its previous owner, or A and u from another
site when that owner has left. A source at another step is a prologue fault, and so is none to fetch from while the
previous owner is a member. Where the owner has left and no second site is reachable the tile takes the master. -/
def doRehomeTiles (desc : Fin 4096) (tile : Nat) (srcStep : Option DWord) (data : List Byte) (s : State) : State :=
  let key := 2 ^ 32 * desc.val + tile
  match s.img.sec with
  | none => s
  | some sec =>
    if s.img.st ≠ .prologue ∨ key ∉ s.upd.rehome then s
    else
      let p := sec.params
      let l := ldesc s desc.val
      let n := chunkLen l tile
      let own := ownedTiles s l
      let j := own.idxOf tile
      let gone := decide (p.prevOwner.getD (tile % p.sPrev) 0xFFFF = 0xFFFF)
      let done (s : State) : State := { s with upd := { s.upd with rehome := s.upd.rehome.filter fun k => decide (k ≠ key) } }
      if gone ∧ (p.sites ≤ 1 ∨ srcStep = none) then
        done (putRehomed s l j own.length (memBytes s.mem (lW l + 4 * chunkElems * tile) (4 * n)) (List.replicate (2 * n) 0) (List.replicate (4 * n) 0))
      else if srcStep ≠ some s.step.ctr then rehomeFail s (chunkDie s l tile)
      else if gone then
        if data.length ≠ 8 * n then s
        else done (rsEvent (addReg (putRehomed s l j own.length (data.take (4 * n)) (List.replicate (2 * n) 0) (data.drop (4 * n))) rUpdResidLost 1) rUpdStat 6)
      else if data.length ≠ 10 * n then s
      else done (putRehomed s l j own.length (data.take (4 * n)) ((data.drop (4 * n)).take (2 * n)) (data.drop (6 * n)))

/-! ### The end of an image (R201, R435) -/

/-- A write to MOD_IMG_CTL: a 1 written to STOP requests a stop. -/
def writeImgCtl (v : Word) (s : State) : State := if bitAt v 16 ∧ bitAt v 0 then requestStop s 1 else s

/-- MOD_IMG_STOP. -/
def doModImgStop (v : Word) (s : State) : State :=
  if !windowOpen s rImgCtl then busErr s .host else writeImgCtl v (complete s .host .sc [])

/-- A die has no work of an image in progress. -/
def dieQuiet (s : State) (d : Die) : Bool :=
  (die s d).coreReset || ((die s d).arr.op.isNone && allSids.all fun c => ((str s d c).inflight.isEmpty && !(vctx s d c).running))

/-- Every stream is held. -/
def allHeld (s : State) : Bool := allDies.all fun d => (die s d).coreReset || allSids.all fun c => decide ((str s d c).st = .held)

/-- The image has stopped (R201, R438, R442). -/
def hasStopped (s : State) : Bool :=
  match s.img.st with
  | .none | .verifying | .loading => false
  | .shadow => s.img.halt || (s.img.stopReq && s.upd.p2.isNone)
  | _ =>
    s.img.halt || (s.img.stopReq && s.step.resolveFailed) ||
    (s.img.stopReq && allHeld s && s.step.attempts.all (·.recorded) && allDies.all (dieQuiet s) && s.coll.active.isEmpty &&
      s.upd.p2.isNone && s.maq.toCopy.isEmpty && s.maq.slots.isEmpty)

/-- An array operation runs on some die. -/
def anyOp (s : State) : Bool := allDies.any fun d => (die s d).arr.op.isSome

/-- IMAGE_STOPPED: STATE returns to NONE, the region reopens, and object 3 is signalled. The stop resets every stream
(R205): where an array operation still runs, its reset waits for the boundary and the stop with it (R91). -/
def doImageStopped (s : State) : State :=
  if !hasStopped s then s
  else if anyOp s then forDies (fun d s => updArr s d fun a => { a with op := a.op.map fun o => { o with reset := true } }) s
  else
    let s := s.coll.active.foldl dropColl s
    let s := withdrawAll s allStreams
    let s := forDies (fun d s => updDie s d fun x => { x with str := idleStreams x.str, arr := {}, ctx := ⟨{}, {}, {}, {}⟩ }) s
    let s := { s with
      sync := { s.sync with classes := [] }
      step := { ctr := s.step.ctr, lossE := s.step.lossE, cleanRun := s.step.cleanRun, poisonTotal := s.step.poisonTotal, poisonRun := s.step.poisonRun }
      maq := {}
      upd := {}
      coll := { stretchNs := s.coll.stretchNs }
      gang := ⟨none, none, none, none⟩
      fab := { s.fab with
        timers := s.plat.elim s.fab.timers (·.timers)
        flat := s.plat.elim [] fun p => p.flat.foldl (fun m e => SMap.set none m e.index.val (some e)) [] }
      flash := { s.flash with active := none } }
    let s := setStores s []
    signalUnit (imgEvent (noImage s 0 s.img.stop) 3) 3

end Sys2Proof.Machine
end

