-- ==== Sys2Proof/Machine/Maquette.lean ====
section
/-! DEFINITION. Machine/Maquette.lean: the rows of the Pointing engine, which copies and exports snapshots (R69 to R72). -/
namespace Sys2Proof.Machine
open Sys2Proof

/-- The lowest slot that holds nothing. -/
def freeMaqSlot (s : State) (sec : JobSections) : Option Nat :=
  (List.range sec.maqSlots).find? fun k => (SMap.get none s.maq.slots k).isNone

/-- The parts of a LAYER's copy: where each descriptor's working copy lies, and its length. -/
def maqParts (s : State) (layer : Nat) : List (Nat × Nat) :=
  (s.img.layers.filter fun l => decide (lLayer l = layer)).map fun l => (lWc l, wcBytes l * lElems l)

/-- MAQUETTE_COPY: the copy of the next layer starts, where a slot is free. -/
def doMaquetteCopy (layer : Nat) (s : State) : State :=
  match s.maq.toCopy, s.img.sec with
  | (n, l) :: rest, some sec =>
    if l ≠ layer then s else
    match freeMaqSlot s sec with
    | none => s
    | some k => { s with maq := { s.maq with toCopy := rest, slots := SMap.set none s.maq.slots k (some { layer := l, step := n, copied := false }) } }
  | _, _ => s

/-- Copy the k-th 64 bytes of a part to their place in a slot. Poison goes with the data (R250). -/
def copyPiece (dst : Nat) (part : Nat × Nat) (s : State) (k : Nat) : State :=
  let n := min 64 (part.2 - 64 * k)
  match memRead s (part.1 + 64 * k) n with
  | none => s
  | some (r, s) =>
    let s := memPut s (dst + 64 * k) r.data
    if r.bad then memPoison s (dst + 64 * k) n else s

/-- Copy one part, and give where the next one goes. -/
def copyPart (acc : Nat × State) (part : Nat × Nat) : Nat × State :=
  (acc.1 + part.2, (List.range (ceilDiv part.2 64)).foldl (copyPiece acc.1 part) acc.2)

/-- The slot that a layer is being copied into. -/
def copyingSlot (s : State) (layer : Nat) : Option Nat :=
  (s.maq.slots.find? fun x => match x.2 with
    | some m => decide (m.layer = layer) && !m.copied
    | none => false).map (·.1)

/-- MAQUETTE_COPY_DONE: the layer's copy is complete, and its export begins. The fence of R70 lifts. -/
def doMaquetteCopyDone (layer : Nat) (s : State) : State :=
  match copyingSlot s layer, s.img.sec with
  | some k, some sec =>
    let s := ((maqParts s layer).foldl copyPart (maqSlotAt sec k, s)).2
    maqExport { s with maq := { s.maq with slots := SMap.upd none s.maq.slots k fun m => m.map fun m => { m with copied := true } } }
  | _, _ => s

/-- Every layer of a snapshot step has been streamed. -/
def snapshotDone (s : State) (step : DWord) : Bool :=
  (s.img.layers.map lLayer).all fun l => decide ((step, l) ∈ s.maq.freed)

/-- MAQUETTE_SLOT_FREE: the destination has acknowledged the last byte of the slot. -/
def doMaquetteSlotFree (slot : Nat) (s : State) : State :=
  match SMap.get none s.maq.slots slot, s.img.sec with
  | some m, some sec =>
    let n := maqBytes s m.layer
    let whole := match sec.maqDest with
      | .host _ => decide (n ≤ m.sent)
      | .fabric _ _ => decide (n ≤ m.acked)
    if !m.copied ∨ !whole then s else
    let s := maqExport { s with maq := { s.maq with slots := SMap.set none s.maq.slots slot none, freed := s.maq.freed ++ [(m.step, m.layer)] } }
    if snapshotDone s m.step then
      rsEvent { s with maq := { s.maq with freed := s.maq.freed.filter fun x => decide (x.1 ≠ m.step) } } rStepStat 5
    else s
  | _, _ => s

/-- A held export to host memory starts the slots it had not finished again from their first byte (R417). -/
def restartExport (s : State) : State :=
  match s.img.sec with
  | none => s
  | some sec => match sec.maqDest with
    | .host _ => maqExport { s with maq := { s.maq with slots := s.maq.slots.map fun x => (x.1, x.2.map fun m => { m with sent := 0 }) } }
    | .fabric _ _ => s

end Sys2Proof.Machine
end

