-- ==== Sys2Proof/Machine/Recovery.lean ====
section
/-! DEFINITION. Machine/Recovery.lean: the read of peers' verdict records (R438), and the recovery commands (R429, R439, R440). -/
namespace Sys2Proof.Machine
open Sys2Proof

/-! ### An indeterminate verdict (R438) -/

/-- 10 ms. -/
def pollNs : Nat := 10000000

/-- The B-axis peers of the GUARD_OR schedule, in round order. -/
def guardPeers (sec : JobSections) : List Half :=
  ((sec.schedules.getD sec.params.guardSched []).filter fun r => decide (r.axis.val = 1)).map (·.peer)

/-- The attempt whose verdict is indeterminate. -/
def pollAttempt (s : State) : Option DWord :=
  (s.step.attempts.find? fun a => decide (a.verdict = some .indeterminate)).map (·.att)

/-- The READ of the record of attempt `att` from the peer of a rank. -/
def pollRead (s : State) (sec : JobSections) (att : DWord) (rank : Half) : State :=
  match rankMod s rank.toNat with
  | none => s
  | some m =>
    let a := (sec.verdictRing + 32 * (att.toNat % 4)) / 64 * 64
    (sendReq s (.verdict att) true { blankPkt s ptRead m 24 24 with fmt := 1, addr := w64 a }).getD s

/-- VERDICT_POLL. -/
def doVerdictPoll (s : State) : State :=
  match s.step.pollAt, pollAttempt s, s.img.sec with
  | some t, some att, some sec =>
    let s := advanceTo t s
    let ps := guardPeers sec
    let s := match ps[s.step.pollPeer % ps.length]? with
      | some r => pollRead s sec att r
      | none => s
    { s with step := { s.step with pollPeer := s.step.pollPeer + 1, pollAt := some (t + pollNs) } }
  | _, _, _ => s

/-- RESOLVE_TIMEOUT: no record has decided; the streams stay held. -/
def doResolveTimeout (s : State) : State :=
  match s.step.resolveAt with
  | none => s
  | some t =>
    let s := advanceTo t s
    let s := { s with step := { s.step with pollAt := none, resolveAt := none, resolveFailed := true } }
    signalUnit (imgEvent s 5) 6

/-! ### Recovery commands: how they begin and end (R439) -/

def rcvNotPermitted : Nat := 1
def rcvNoImage : Nat := 2
def rcvNoStep : Nat := 3
def rcvSourceStep : Nat := 4
def rcvUnreachable : Nat := 5
def rcvMem : Nat := 6
def rcvDiscard : Nat := 7
def rcvSelftestFail : Nat := 8
def rcvAborted : Nat := 9

/-- The command has ended: DONE, or FAILED with a cause; object 5 is signalled. -/
def rcvEnd (s : State) (cause : Nat) : State :=
  signalUnit { s with rcv := { s.rcv with st := if cause = 0 then .done else .failed, cause := cause, img := none, left := [] } } 5

/-- A command starts. -/
def rcvStart (s : State) (cmd : Nat) (v : Word) : State := { s with rcv := { st := .running, cmd := cmd, word := v } }

/-- A command that fails as it starts. -/
def rcvFail (s : State) (cmd : Nat) (v : Word) (cause : Nat) : State := rcvEnd (rcvStart s cmd v) cause

/-- The image named by MOD_IMG_BASE and MOD_IMG_LEN, verified by R426 and not activated. -/
def namedImage (s : State) : Option ImageState :=
  let a := (reg64 s rImgBase).toNat
  let len := (reg s rImgLen).toNat
  if !mappedRange s.mem a (4096 * len) then none else
  match Config.verifiedImage (memBytes s.mem a (4096 * len)) with
  | none => none
  | some sec =>
    if formatOk s a len sec ∧ jobSlotOk s (hKeySlot s a) ∧ s.otp.ctrs[2] ≤ hSvn s a then
      some { base := reg64 s rImgBase, len := len, sec := some sec, layers := imageLayers s a (hEntries s a) sec }
    else none

/-- The state in which the update's tables are those of the image being recovered, for looking things up. -/
def under (s : State) (img : ImageState) : State := { s with upd := { s.upd with replay := some img } }

/-- The chunks COPY fetches: with INNER every chunk, with OUTER every owned outer tile. -/
def copyList (s : State) (img : ImageState) (inner outer : Bool) : List Nat :=
  let u := under s img
  (List.range img.layers.length).flatMap fun i =>
    let l := ldesc u i
    (if inner then (List.range (nChunks l)).map fun k => 2 * chunkKey i k else []) ++
    (if outer && lOuter l then (ownedTiles u l).map fun t => 2 * chunkKey i t + 1 else [])

/-- The pages of the PERSISTENT regions that hold a poisoned granule, as 2^32 × stack + page. -/
def poisonedPages (s : State) (sec : JobSections) : List Nat :=
  s.mem.poison.foldl (fun ps g =>
    (addrsOfKey s.mem (64 * g.1)).foldl (fun ps a =>
      match mapAddr s.mem a with
      | none => ps
      | some (n, o) =>
        let k := 2 ^ 32 * n.val + o / pageBytes
        if k ∈ ps ∨ !(sec.regions.any fun r => decide (r.cls = .persistent) && overlaps a 64 r.base r.len) then ps else ps ++ [k]) ps) []

/-- COPY (R440). -/
def rcvCopy (s : State) (v : Word) : State :=
  let t := reg64 s rExpect
  if t = 0 then rcvFail s 1 v rcvNoStep
  else match namedImage s with
    | none => rcvFail s 1 v rcvNoImage
    | some img =>
      let ks := copyList s img (bitAt v 26) (bitAt v 25)
      let s := rcvStart s 1 v
      { s with rcv := { s.rcv with img := some img, step := t, left := ks, total := ks.length } }

/-- RESTORE. -/
def rcvRestore (s : State) (v : Word) : State :=
  match namedImage s with
  | none => rcvFail s 2 v rcvNoImage
  | some img =>
    let ks := match img.sec with | some sec => poisonedPages s sec | none => []
    let s := rcvStart s 2 v
    { s with rcv := { s.rcv with img := some img, step := s.step.ctr, left := ks, total := ks.length } }

/-- One owned outer tile takes the master, with zero momentum and residual; true where memory refused. -/
def resetTile (u : State) (l : BitVec 1024) (acc : Bool × State) (jt : Nat × Nat) : Bool × State :=
  let cnt := (ownedTiles u l).length
  let n := chunkLen l jt.2
  let (m, s) := updRead acc.2 (lW l + 4 * chunkElems * jt.2) (4 * n)
  match m with
  | none => (true, s)
  | some w =>
    let (b1, s) := updWrite s (planeA l jt.1) w
    let (b2, s) := updWrite s (planeU l cnt jt.1) (List.replicate (4 * n) 0)
    let (b3, s) := updWrite s (planeE l cnt jt.1) (List.replicate (2 * n) 0)
    (acc.1 || b1 || b2 || b3, s)

/-- OUTER_RESET. -/
def rcvOuterReset (s : State) (v : Word) : State :=
  match namedImage s with
  | none => rcvFail s 3 v rcvNoImage
  | some img =>
    let u := under s img
    let (bad, s) := (img.layers.filter lOuter).foldl (fun acc l =>
      ((ownedTiles u l).zipIdx.map fun x => (x.2, x.1)).foldl (resetTile u l) acc) (false, rcvStart s 3 v)
    if bad then rcvEnd s rcvMem else s

/-- SELFTEST_FULL. -/
def rcvFull (s : State) (v : Word) : State := if bitAt v 27 then rcvStart s 4 v else rcvFail s 4 v rcvDiscard

/-- SELFTEST_CD: the die's CORE is reset. -/
def rcvTestCd (s : State) (v : Word) : State :=
  if h : fld v 24 20 < 24 then resetCore (rcvStart s 5 v) ⟨fld v 24 20, h⟩ else rcvFail s 5 v rcvNotPermitted

/-- The die of the SELFTEST_CD that runs. -/
def rcvDie (s : State) : Die := ⟨fld s.rcv.word 24 20 % 24, Nat.mod_lt _ (by decide)⟩

/-- The running command ends without a result; a die under test leaves reset unless it is out of service. -/
def rcvStop (s : State) (cause : Nat) : State :=
  rcvEnd (if s.rcv.cmd = 5 then updDie s (rcvDie s) fun x => { x with coreReset := x.out } else s) cause

/-- A command may start: at READY with no image; SELFTEST_CD also under a shadow image. -/
def rcvPermitted (s : State) (cmd : Nat) : Bool :=
  decide (s.start.fin = .ready) && (decide (s.img.st = .none) || (decide (cmd = 5) && decide (s.img.st = .shadow)))

/-- A recovery command word. While a command runs only ABORT is permitted; one that is not permitted then changes
nothing, MOD_RCV_STAT included. -/
def rcvCommand (v : Word) (s : State) : State :=
  let cmd := fld v 31 28
  if cmd = 0 then s
  else if s.rcv.st = .running then (if cmd = 6 then rcvStop s rcvAborted else s)
  else if !rcvPermitted s cmd then rcvFail s cmd v rcvNotPermitted
  else match cmd with
    | 1 => rcvCopy s v
    | 2 => rcvRestore s v
    | 3 => rcvOuterReset s v
    | 4 => rcvFull s v
    | 5 => rcvTestCd s v
    | _ => rcvFail s cmd v rcvNotPermitted

/-- What a write to MOD_RCV_CMD does. -/
def rcvEffect (v : Word) (s : State) : State := rcvCommand v (setReg s rRcvCmd (v &&& maskWord rRcvCmd))

/-- A host write to MOD_RCV_CMD. -/
def writeRcv (v : Word) (s : State) : State :=
  if !windowOpen s rRcvCmd then busErr s .host else rcvEffect v (complete s .host .sc [])

/-- COPY. -/
def doCopy (v : Word) (s : State) : State := writeRcv v s
/-- RESTORE. -/
def doRestore (v : Word) (s : State) : State := writeRcv v s
/-- OUTER_RESET. -/
def doOuterReset (v : Word) (s : State) : State := writeRcv v s
/-- SELFTEST_FULL. -/
def doSelftestFull (v : Word) (s : State) : State := writeRcv v s
/-- SELFTEST_CD. -/
def doSelftestCd (v : Word) (s : State) : State := writeRcv v s
/-- ABORT. -/
def doAbort (v : Word) (s : State) : State := writeRcv v s

/-! ### What COPY and RESTORE fetch -/

/-- Write a chunk of COPY: master, state, working copy and, after the first chunk, the update count; true on failure. -/
def putCopy (s : State) (l : BitVec 1024) (k : Nat) (data : List Byte) : Bool × State :=
  let n := innerLen l k
  let (b1, s) := putInner s l k (data.take n)
  let (b2, s) := if k = 0 then updWrite s (lCountAddr l) (data.drop n) else (false, s)
  (b1 || b2, s)

/-- Bytes of a chunk of COPY. -/
def copyLen (l : BitVec 1024) (k : Nat) : Nat := innerLen l k + (if k = 0 then 8 else 0)

/-- Write A and u of the j-th of `cnt` owned tiles, with residual 0, which is counted. -/
def putTile (s : State) (l : BitVec 1024) (t j cnt : Nat) (data : List Byte) : Bool × State :=
  let n := chunkLen l t
  let (b1, s) := updWrite s (planeA l j) (data.take (4 * n))
  let (b2, s) := updWrite s (planeU l cnt j) (data.drop (4 * n))
  let (b3, s) := updWrite s (planeE l cnt j) (List.replicate (2 * n) 0)
  (b1 || b2 || b3, rsEvent (addReg s rUpdResidLost 1) rUpdStat 6)

/-- A fetch is done, or has met a fault of memory. -/
def rcvTook (key : Nat) (r : Bool × State) : State :=
  if r.1 then rcvEnd r.2 rcvMem else { r.2 with rcv := { r.2.rcv with left := r.2.rcv.left.filter fun k => decide (k ≠ key) } }

/-- What a source supplied for COPY: chunk `chunk` of descriptor `i`, or the owned tile that `chunk` names beyond the
chunks. -/
def copyTake (s : State) (img : ImageState) (i chunk : Nat) (data : List Byte) : State :=
  let u := under s img
  let l := ldesc u i
  let nc := nChunks l
  if chunk < nc then
    if 2 * chunkKey i chunk ∉ s.rcv.left ∨ data.length ≠ copyLen l chunk then s
    else rcvTook (2 * chunkKey i chunk) (putCopy s l chunk data)
  else
    let t := chunk - nc
    let own := ownedTiles u l
    if 2 * chunkKey i t + 1 ∉ s.rcv.left ∨ data.length ≠ 8 * chunkLen l t then s
    else rcvTook (2 * chunkKey i t + 1) (putTile s l t (own.idxOf t) own.length data)

/-- A page that RESTORE was given, written whole. -/
def restoreTake (s : State) (n page : Nat) (data : List Byte) : State :=
  let key := 2 ^ 32 * n + page
  if key ∉ s.rcv.left ∨ data.length ≠ pageBytes then s else rcvTook key (updWrite s (2 ^ 36 * n + pageBytes * page) data)

/-- A source answers a recovery command: no answer is UNREACHABLE, another step SOURCE_STEP. -/
def rcvFetch (desc : Fin 4096) (chunk : Nat) (srcStep : Option DWord) (data : List Byte) (s : State) : State :=
  match s.rcv.img, srcStep with
  | none, _ => s
  | some _, none => rcvEnd s rcvUnreachable
  | some img, some n =>
    if n ≠ s.rcv.step then rcvEnd s rcvSourceStep
    else if s.rcv.cmd = 1 then copyTake s img desc.val chunk data
    else restoreTake s desc.val chunk data

/-- FINISHER_FETCH_DONE: a source answers the Finisher, or the recovery command that runs. -/
def doFetchDone (desc : Fin 4096) (chunk : Nat) (srcStep : Option DWord) (data : List Byte) (s : State) : State :=
  if s.rcv.st = .running then rcvFetch desc chunk srcStep data s else doFinisherFetchDone desc chunk srcStep data s

/-! ### The end of a command -/

/-- Everything that COPY fetches has come (R440): the journal step entry, STEP_CTR and REPLAY_FAIL. -/
def copyDone (s : State) : State :=
  match s.rcv.img.bind (·.sec) with
  | none => rcvEnd s 0
  | some sec =>
    let old := memBytes s.mem sec.journal 64
    let (bad, s) := updWrite s sec.journal (spliceBytes (spliceBytes old 0 (leBytes 8 s.rcv.step.toNat)) 0x10 [2])
    if bad then rcvEnd s rcvMem else
    let s := { s with step := { s.step with ctr := s.rcv.step }, start := { s.start with replayFail := false } }
    rcvEnd (setReg64 s rStepCtr s.rcv.step) 0

/-- SELFTEST_CD ends: a die that fails stays out of service; one that had been out for a failed test returns. -/
def cdTested (s : State) (d : Die) (ok : Bool) : State :=
  let bit := BitVec.ofNat 24 (2 ^ d.val)
  let was := s.start.testFailed.getLsbD d.val
  let s := { s with start := { s.start with testFailed := if ok then s.start.testFailed &&& ~~~bit else s.start.testFailed ||| bit } }
  let s := updDie s d fun x =>
    let out := if ok then x.out && !was else true
    { x with out := out, coreReset := out, ts := [], tsUe := [], tsCe := [] }
  noteTest s 1 ok d.val

/-- Draw the dies that failed SELFTEST_FULL, which the command's end does not name. -/
def drawFailed (s : State) : State :=
  forDies (fun d s =>
    let (k, s) := drawFree s
    if Config.freeBit k then { s with start := { s.start with testFailed := s.start.testFailed ||| BitVec.ofNat 24 (2 ^ d.val) } } else s)
    { s with start := { s.start with testFailed := 0 } }

/-- SELFTEST_FULL ends: its result is logged, and a WARM reset follows that keeps nothing. -/
def fullTested (s : State) (ok : Bool) : State :=
  let s := if ok then { s with start := { s.start with testFailed := 0 } } else drawFailed s
  warmReset (noteTest s 2 ok 0) srcFull false

/-- RCV_DONE: the running command ends with a cause, 0 where it succeeds. COPY and RESTORE succeed only with everything
fetched. -/
def doRcvDone (cause : Fin 16) (s : State) : State :=
  if s.rcv.st ≠ .running ∨ (cause.val = 0 ∧ s.rcv.left ≠ []) then s
  else
    let tested := decide (cause.val = 0) || decide (cause.val = rcvSelftestFail)
    match s.rcv.cmd with
    | 1 => if cause.val = 0 then copyDone s else rcvEnd s cause.val
    | 4 => if tested then fullTested (rcvEnd s cause.val) (decide (cause.val = 0)) else rcvStop s cause.val
    | 5 => if tested then rcvEnd (cdTested s (rcvDie s) (decide (cause.val = 0))) cause.val else rcvStop s cause.val
    | _ => rcvEnd s cause.val

end Sys2Proof.Machine
end

