-- ==== Sys2Proof/Machine/Flags.lean ====
section
/-! DEFINITION. Machine/Flags.lean: what each register reads as. Registers that mirror the state of a unit are composed here from
that state; every other one is stored. -/
namespace Sys2Proof.Machine
open Sys2Proof

/-! ### Helpers -/

/-- A mask of dies or stacks as a number. -/
def maskNat (p : Fin 24 → Bool) : Nat := (List.finRange 24).foldl (fun n d => n + if p d then 2 ^ d.val else 0) 0

/-- The low (`o` = 0) or high (`o` = 4) word of a 64-bit value. -/
def halfOf (v : DWord) (o : Nat) : Word := if o = 0 then v.setWidth 32 else (v >>> 32).setWidth 32

/-- How many of the numbers below `n` satisfy `p`. -/
def countTo (n : Nat) (p : Nat → Bool) : Nat := ((List.range n).filter p).length

/-! ### MOD window -/

/-- CD_OUT of MOD_START_STAT. -/
def cdOut (s : State) : Nat := maskNat fun d => (die s d).out

/-- MOD_START_STAT. -/
def startStat (s : State) : Word :=
  w32 (stageCode s * 2 ^ 28 + b2n s.start.kept * 2 ^ 27 + b2n s.start.fwB * 2 ^ 26 + b2n s.start.piB * 2 ^ 25 + cdOut s)

/-- The code of MOD_IMG_STAT.STATE. -/
def imgCode : ImgSt → Nat
  | .none => 0 | .verifying => 1 | .loading => 2 | .prologue => 3 | .running => 4 | .stopping => 5 | .shadow => 6

/-- MOD_IMG_STAT. -/
def imgStat (s : State) : Word :=
  w32 (imgCode s.img.st * 2 ^ 29 + s.img.refuse * 2 ^ 24 + (if s.img.stop ≠ 0 then s.img.stop else s.img.lastStop) * 2 ^ 20)

/-- MOD_IMG_JOB. -/
def imgJob (s : State) : Word := if jobActive s then s.img.rank ++ s.img.jobId else 0

/-- The code of MOD_RCV_STAT.STATE. -/
def rcvCode : RcvSt → Nat
  | .idle => 0 | .running => 1 | .done => 2 | .failed => 3

/-- MOD_RCV_STAT. -/
def rcvStat (s : State) : Word :=
  let r := s.rcv
  let pct := if r.st = .done then 100 else if r.total = 0 then 0 else (r.total - r.left.length) * 100 / r.total
  w32 (rcvCode r.st * 2 ^ 30 + r.cmd * 2 ^ 26 + r.cause * 2 ^ 22 + pct)

/-- MOD_ELOG_STAT. -/
def elogStat (s : State) : Word := w32 (b2n s.host.elogLost * 2 ^ 31 + s.host.elog.length)

/-- Word `k` of the pending bit array. -/
def pbaWord (s : State) (k : Nat) : Word := w32 ((List.range 32).foldl (fun n i => n + b2n (SMap.get false s.host.pba (32 * k + i)) * 2 ^ i) 0)

/-- The size of a BAR2 segment as a power of two (R479). -/
def segBits (s : State) : Nat := 24 + s.host.barSize

/-- HOST_SEGi: bits of BASE below the segment size read 0. -/
def hostSeg (s : State) (i : Nat) : DWord :=
  let v := reg64 s (rHostSeg + 8 * i)
  (v >>> segBits s <<< segBits s) ||| (v &&& 3)

/-- ARM_STAT. -/
def armStat (s : State) : Word :=
  let busy := allDies.any fun d => (die s d).arr.op.isSome
  w32 (b2n busy * 2 ^ 31 + fld (reg s rArmStat) 30 29 * 2 ^ 29 + maskNat fun d => (die s d).arr.op.isNone)

/-- COLL_STAT. -/
def collStat (s : State) : Word := w32 (s.coll.active.length % 128 * 65536 + min 65535 s.coll.grants.length)

/-- A word of the identity record of slot `i`. -/
def idDie (s : State) (i k : Nat) : Word := w32 (((s.start.ids[i]?).getD 0).toNat / 2 ^ (32 * k))

/-- LINK_STAT. Nothing is counted before the lanes have been trained. DESIGN CHOICE: a bundle counts once in BUNDLES_DOWN
whether one of its directions is DOWN or both, which keeps the field in its stated range. -/
def linkStat (s : State) : Word :=
  if !passed s stDieLinks then 0 else
  let w (k : Nat) : Nat := countTo 688 fun g => decide (grpWidth (grp s g) = k)
  w32 ((countTo 54 fun b => bundleDown s b 0 || bundleDown s b 1) * 2 ^ 26 + w 2 * 1024 + w 1)

/-- LINK_GRPg. -/
def linkGrp (s : State) (g : Nat) : Word :=
  if !passed s stDieLinks then 0x80000000 else
  let x := grp s g
  let spares := (lanesWhere x LaneRole.isSpare).length
  w32 (grpWidth x * 2 ^ 30 + b2n (decide (spares = 0)) * 2 ^ 29 + b2n x.retrainAt.isSome * 2 ^ 28 +
    b2n (!(lanesWhere x LaneRole.onProbation).isEmpty) * 2 ^ 27 + (lanesWhere x LaneRole.isOff).length * 8192 + spares * 128)

/-- LINK_LANE_MAPw. -/
def laneMap (s : State) (w : Nat) : Word :=
  let x := grp s (fld (reg s rLaneSel) 9 0)
  w32 ((List.range 4).foldl (fun n i => n + (roleByte (laneRole x (4 * w + i))).toNat * 256 ^ i) 0)

/-- Registers of the MOD window that are composed. -/
def modView (s : State) (off : Nat) : Option Word :=
  if off = rStartStat then some (startStat s)
  else if off = rImgCtl then some (w32 (b2n s.img.stopReq))
  else if off = rImgStat then some (imgStat s)
  else if off = rImgJob then some (imgJob s)
  else if off = rRcvStat then some (rcvStat s)
  else if off = rElogStat then some (elogStat s)
  else if rPba ≤ off ∧ off < rPba + 256 then some (pbaWord s ((off - rPba) / 4))
  else if rHostSeg ≤ off ∧ off < rHostSeg + 512 then some (halfOf (hostSeg s ((off - rHostSeg) / 8)) (off % 8))
  else if off = rArmStat then some (armStat s)
  else if off = rCollStat then some (collStat s)
  else if off = rCollStretch ∨ off = rCollStretch + 4 then some (halfOf (w64 (s.coll.stretchNs / 1000)) (off - rCollStretch))
  else if rIdDie ≤ off ∧ off < rIdDie + 512 then some (idDie s ((off - rIdDie) / 16) (off % 16 / 4))
  else if rIdMatrix ≤ off ∧ off < rIdMatrix + 256 then some (if s.start.ids.isEmpty then 0 else (s.otp.idMatrix[(off - rIdMatrix) / 4]?).getD 0)
  else if off = rLinkStat then some (linkStat s)
  else if rLaneMap ≤ off ∧ off < rLaneMap + 68 then some (laneMap s ((off - rLaneMap) / 4))
  else if rLinkGrp ≤ off ∧ off < rLinkGrp + 2752 then some (linkGrp s ((off - rLinkGrp) / 4))
  else none

/-! ### SYNC, UPD, FAB -/

/-- Streams that wait on module-global objects. -/
def globWaiters (s : State) : Nat :=
  allDies.foldl (fun n d => allSids.foldl (fun n c =>
    n + match (str s d c).st, (str s d c).waitRef with
      | .waitSync, some (.glob _) => 1
      | _, _ => 0) n) 0

/-- SYNC_STAT. -/
def syncStat (s : State) : Word := w32 ((armedSlots s).length * 65536 + globWaiters s)

/-- The code of UPD_FIN_STAT.CASE. -/
def finCode : FinCase → Nat
  | .idle => 0 | .replay => 1 | .shadow => 2 | .finish => 3

/-- UPD_FIN_STAT: the first LAYER not yet committed is the one in progress. -/
def updFinStat (s : State) : Word :=
  let layer := if s.upd.fin = .idle then 0xFFFF else ((layerNos s).find? fun l => !layerCommitted s l).getD 0xFFFF
  w32 (finCode s.upd.fin * 2 ^ 30 + layer)

/-- FAB_ID. -/
def fabId (s : State) : Word := w32 (b2n s.start.idValid * 2 ^ 31 + if s.fab.settled then s.fab.modId.toNat else 0)

/-- Transaction entries in use (R307): those of requests, and those of collective rounds that send. -/
def txnInUse (s : State) : Nat := (usedTxn s).length

/-- FAB_STAT. -/
def fabStat (s : State) : Word := w32 ((s.fab.dst.length + 3) / 4 * 2 ^ 17 + min 32767 (txnInUse s))

/-- FAB_EPOCH. -/
def fabEpoch (s : State) : Word :=
  let f := s.fab
  w32 (b2n f.view * 256 + b2n f.retireAt.isSome * 128 + b2n f.draining * 64 + b2n f.loaded * 32 + b2n f.isOpen * 16 +
    f.drainEpoch.toNat * 4 + f.cur.toNat)

/-- FAB_LIFE and FAB_RTO. -/
def fabLife (s : State) : Word := w32 (s.fab.timers.flowIdle / 1000 * 65536 + s.fab.timers.pktLife / 1000)
def fabRto (s : State) : Word :=
  let t := s.fab.timers
  w32 (t.linkRetryMax * 2 ^ 28 + t.e2eRetryMax * 2 ^ 24 + t.rtoFar / 100 * 4096 + t.rtoNear / 100)

/-- Composed registers of the SYNC, FAB and UPD windows. -/
def fabView (s : State) (off : Nat) : Option Word :=
  if off = rSyncStat then some (syncStat s)
  else if off = rUpdFinStat then some (updFinStat s)
  else if off = rFabId then some (fabId s)
  else if off = rFabJob then some ((jobOf s).setWidth 32)
  else if off = rFabStat then some (fabStat s)
  else if off = rFabEpoch then some (fabEpoch s)
  else if off = rFabLife then some (fabLife s)
  else if off = rFabRto then some (fabRto s)
  else if rRtRack ≤ off ∧ off < rRtRack + 4096 then some (SMap.get 0 s.fab.rack[viewBank s] ((off - rRtRack) / 4))
  else if rRtDim ≤ off ∧ off < rRtDim + 80 then some (halfOf (SMap.get 0 s.fab.dim[viewBank s] ((off - rRtDim) / 8)) (off % 8))
  else none

/-! ### PORT -/

/-- The channels of a port. -/
def portChanList (k : Nat) : List Chan := allChans.filter fun c => decide (c.port.val = k)

/-- PORTk_STAT. -/
def portStat (s : State) (k : Nat) : Word :=
  let n := if k < 2 then 4 else if k < 4 then 2 else 1
  let feeds := (List.range n).foldl (fun v i => v + b2n (s.opt.feedOk.getLsbD (portFeed k + i)) * 2 ^ i) 0
  let cs := portChanList k
  w32 (fld (reg s (portWin k + rPortStat)) 31 28 * 2 ^ 28 + feeds * 2 ^ 24 +
    (cs.filter fun c => txServing s c && !(link s c).rest).length * 512 + (cs.filter fun c => decide ((ring s ⟨c, true⟩).st = .locked)).length)

/-- The highest of a port's ring-bank readings, in units of 0.25 °C as 16 bits; 0 where there is none. -/
def bankHigh (m : SMap (Option Int)) (k : Nat) : Nat :=
  let ts := m.filterMap fun x => if x.1 / 32 = k then x.2 else none
  match ts with
  | [] => 0
  | t :: ts => unsign 16 ((ts.foldl max t) * 2 / 5)

/-- PORTk_TEMP. -/
def portTemp (s : State) (k : Nat) : Word := w32 (bankHigh s.opt.bankMax k * 65536 + bankHigh s.opt.bankT k)

/-- PORTk_SHUTTER. -/
def portShutter (s : State) (k : Nat) : Word := w32 ((List.range 16).foldl (fun n f => n + b2n (shutClosed s (16 * k + f)) * 2 ^ f) 0)

/-- The code of a ring's state (R376). -/
def ringCode : RingSt → Nat
  | .off => 0 | .parked => 1 | .acquire => 2 | .verify => 3 | .locked => 4 | .rest => 5 | .failed => 6

/-- The lock error of a ring: 0 while it is not locked. -/
def lockErr (s : State) (r : Ring) : Nat := if (ring s r).st = .locked then (Config.lockError (ringNo r) s.clk).toNat else 0

/-- A heater in units of 1/512 mW. -/
def heaterCode (s : State) (r : Ring) : Nat := min 65535 ((ring s r).heater / 900).toNat

/-- Words of PORTk_CHc. Received powers are known while the drop ring is locked. -/
def chWord (s : State) (c : Chan) (k : Nat) : Word :=
  let t : Ring := ⟨c, false⟩
  let r : Ring := ⟨c, true⟩
  let q := chanNo c
  match k with
  | 0 => w32 (ringCode (ring s t).st * 2 ^ 28 + ringCode (ring s r).st * 2 ^ 24 + b2n (txServing s c && !(link s c).rest) * 2 ^ 23 +
      b2n (SMap.get false s.opt.lol q) * 2 ^ 22 + lockErr s t * 256 + lockErr s r)
  | 1 => w32 (heaterCode s r * 65536 + heaterCode s t)
  | 2 => if (ring s r).st = .locked then Config.opticalPower (2 * q) s.clk ++ Config.opticalPower (2 * q + 1) s.clk else 0x80008000
  | _ =>
    let f := fecNow s (SMap.get {} s.opt.fec q)
    w32 (min 65535 f.lastUnc * 65536 + min 65535 (f.lastCorr / 1024))

/-- The links of a port. -/
def portLinks (s : State) (k : Nat) : List Link := s.fab.links.filterMap fun x => if x.1 / 256 = k then some x.2 else none

/-- PORTk_LINK_STAT. -/
def pLinkStat (s : State) (k : Nat) : Word :=
  let ls := portLinks s k
  let acc := ls.filter fun l => l.accepted
  let level := match acc with
    | [] => 0
    | l :: ls => ls.foldl (fun n l => min n l.level) l.level
  w32 (level * 2 ^ 24 + min 255 (ls.filter fun l => decide (l.quar ≠ 0)).length * 65536 + min 255 acc.length * 256)

/-- PORTk_QUAR_FIB. -/
def quarFib (s : State) (k : Nat) : Word :=
  w32 ((List.range 16).foldl (fun n f =>
    n + b2n (s.fab.links.any fun x => decide (x.1 / 16 = 16 * k + f) && decide (x.2.quar ≠ 0)) * 2 ^ f) 0)

/-- LS_STAT. -/
def lsStat (s : State) : Word :=
  w32 (b2n s.opt.present * 2 ^ 31 + b2n s.opt.enabled * 2 ^ 30 + b2n s.opt.fault * 2 ^ 29 + s.opt.feedOk.toNat)

/-- LS_FEEDj. -/
def lsFeed (s : State) (j : Nat) : Word :=
  let ok := s.opt.feedOk.getLsbD j
  let p := if ok then Config.opticalPower (10000 + j) s.clk else 0x8000
  w32 (p.toNat * 65536 + SMap.get 15 s.opt.tagFeed j * 4096 + b2n ok)

/-- Composed registers of the PORT window. -/
def portView (s : State) (off : Nat) : Option Word :=
  if off = rLsStat then some (lsStat s)
  else if off = rLsSerial then some (if s.opt.present then Config.lsSerial else 0)
  else if rLsFeed ≤ off ∧ off < rLsFeed + 56 then some (lsFeed s ((off - rLsFeed) / 4))
  else if portWin 0 ≤ off ∧ off < portWin 6 then
    let k := (off - portWin 0) / 0x10000
    let o := (off - portWin 0) % 0x10000
    if o = rPortStat then some (portStat s k)
    else if o = rPortTemp then some (portTemp s k)
    else if o = rPortShutter then some (portShutter s k)
    else if rPortCh ≤ o ∧ o < rPortCh + 16 * portChans k then
      let c := (o - rPortCh) / 16
      some (chWord s (chanOf (256 * k + c)) (o % 16 / 4))
    else if o = rPLinkStat then some (pLinkStat s k)
    else if o = rPQuarFib then some (quarFib s k)
    else none
  else none

/-! ### MEM -/

/-- MEM_CFG and MEM_STAT. -/
def memCfg (s : State) : Word := w32 (b2n s.mem.variant * 2 ^ 31 + s.mem.spread * 65536 + s.mem.reserve)
def memStat (s : State) : Word :=
  w32 (b2n s.mem.slow * 2 ^ 31 + b2n (allDies.any fun n => s.mem.st[n].emergency) * 2 ^ 30 + maskNat fun n => s.mem.st[n].inService)

/-- The registers of stack `n` (R264). -/
def stackView (s : State) (n : Stack) (o : Nat) : Option Word :=
  let x := s.mem.st[n]
  if o = 0 then some (w32 (b2n x.inService * 2 ^ 31 + x.point * 2 ^ 28 + (if x.emergency then 5 else x.band) * 2 ^ 25 +
      b2n (!x.repairs.isEmpty) * 2 ^ 24 + popCount 32 x.chanOut * 65536 + (if x.inService then (pcsOf x).length else 0)))
  else if o = 4 then some (w32 (x.tempMax * 65536 + x.tempNow))
  else if o = 8 then some x.chanOut
  else if o = 0xC then some x.chanPend
  else if o = 0x1C then some (w32 (x.hard * 65536 + x.soft))
  else if o = 0x28 then some (w32 (if x.inService then localSize s.mem n / pageBytes else 0))
  else none

/-- Composed registers of the MEM window. -/
def memView (s : State) (off : Nat) : Option Word :=
  if off = rMemCfg then some (memCfg s)
  else if off = rMemStat then some (memStat s)
  else if h : stWin 0 ≤ off ∧ off < stWin 24 then stackView s ⟨(off - stWin 0) / 0x40, by simp [stWin] at h ⊢; omega⟩ ((off - stWin 0) % 0x40)
  else none

/-! ### CLK/PWR -/

/-- The code of CLK_STAT.XTAL. -/
def xtalCode : Xtal → Nat
  | .starting => 0 | .stable => 1 | .failed => 2

/-- CLK_STAT. -/
def clkStat (s : State) : Word :=
  w32 (xtalCode s.clocks.xtal * 2 ^ 30 + b2n s.tbs.rackClk * 2 ^ 29 + commonTarget s * 2 ^ 24 +
    maskNat fun d => decide (commonTarget s < s.clocks.dies[d].point) || decide (0 < dieStretch s d))

/-- CAUSE of CLK_CDnn. -/
def cdCause (s : State) (d : Die) : Nat :=
  let x := s.clocks.dies[d]
  if x.cause ≠ 0 then x.cause
  else if 3 ≤ x.fails then 3
  else if 0 < x.therm ∨ 0 < x.limit then 1
  else if 0 < bandLimit s d then 2 else 0

/-- CLK_CDnn. -/
def clkCd (s : State) (d : Die) : Word :=
  let x := s.clocks.dies[d]
  w32 (unsign 12 x.temp * 2 ^ 20 + limitPoint s d * 2 ^ 17 + dieStretch s d * 2 ^ 14 + x.therm * 2 ^ 11 + cdCause s d * 256 +
    (x.tempMax / 5).toNat % 256)

/-- The code of TB_STAT.STATE, and TB_STAT. -/
def tbCode : TbSt → Nat
  | .free => 0 | .locked => 1 | .holdover => 2
def tbStat (s : State) : Word :=
  let t := s.tbs
  w32 (tbCode t.st * 2 ^ 30 + b2n t.absSet * 2 ^ 29 + b2n t.rackClk * 2 ^ 28 + t.steps * 256 + t.frameErr)

/-- Bytes of stack `n` scrubbed in the present scrub period, and those that should have been (R475). -/
def scrubDone (s : State) (n : Stack) : Nat :=
  let x := s.mem.st[n]
  min (capOf s.mem n) (x.scrubPass * capOf s.mem n + x.scrubPos - (s.clk - s.start.readyAt) / scrubNs s * capOf s.mem n)
def scrubDue (s : State) (n : Stack) : Nat := (s.clk - s.start.readyAt) % scrubNs s * capOf s.mem n / scrubNs s

/-- Stacks in service. -/
def inServiceList (s : State) : List Stack := allDies.filter fun n => s.mem.st[n].inService

/-- PAT_STAT. -/
def patStat (s : State) : Word :=
  let ns := if s.start.fin = .ready then inServiceList s else []
  let pct := match ns with
    | [] => 0
    | ns => ns.foldl (fun m n => min m (scrubDone s n * 100 / max 1 (capOf s.mem n))) 100
  let behind := ns.any fun n => decide (scrubDone s n + capOf s.mem n / 64 < scrubDue s n)
  w32 (pct * 2 ^ 25 + b2n behind * 2 ^ 24 + fld (reg s rPatStat) 15 0)

/-- Composed registers of the CLK/PWR window. -/
def clkView (s : State) (off : Nat) : Option Word :=
  if off = rClkStat then some (clkStat s)
  else if off = rTb ∨ off = rTb + 4 then some (halfOf s.tb (off - rTb))
  else if off = rTbStat then some (tbStat s)
  else if off = rTbPhase then some (w32 (unsign 32 s.tbs.phase))
  else if h : rClkCd ≤ off ∧ off < rClkCd + 96 then some (clkCd s ⟨(off - rClkCd) / 4, by omega⟩)
  else if off = rPatStat then some (patStat s)
  else none

/-! ### SEC and TEL -/

/-- SEC_MBOX_CTL and SEC_MBOX_STAT. -/
def mboxCtl (s : State) : Word := w32 (b2n (decide (s.sec.mbox = .busy)) * 2 ^ 31 + fld (reg s rSecMboxCtl) 12 0)
def mboxCode : MboxSt → Nat
  | .idle => 0 | .busy => 1 | .done => 2
def mboxStat (s : State) : Word := w32 (mboxCode s.sec.mbox * 2 ^ 30 + s.sec.mboxLen % 8192)

/-- The code of a key slot's state (R503). -/
def slotCode : SlotSt → Nat
  | .empty => 0 | .bound => 1 | .revoked => 2 | .damaged => 3

/-- SEC_SLOTS. -/
def secSlots (s : State) : Word :=
  w32 (s.plat.elim 0 (fun p => p.keySlot % 4) * 4096 + (List.range 4).foldl (fun n i => n + b2n (jobSlotOk s i) * 2 ^ (8 + i)) 0 +
    (List.range 4).foldl (fun n i => n + slotCode (slotState s i) * 4 ^ i) 0)

/-- SEC_CTRS. -/
def secCtrs (s : State) : Word := w32 (s.otp.ctrs[2] % 128 * 65536 + s.otp.ctrs[1] % 128 * 256 + s.otp.ctrs[0] % 128)

/-- TEL_STAT. -/
def telStat (s : State) : Word :=
  w32 (b2n (ctlBit s rTelCtl 0 && !s.tel.held) * 2 ^ 31 + b2n s.tel.held * 2 ^ 30)

/-- Composed registers of the SEC and TEL windows. -/
def secView (s : State) (off : Nat) : Option Word :=
  if off = rSecMboxCtl then some (mboxCtl s)
  else if off = rSecMboxStat then some (mboxStat s)
  else if off = rSecSlots then some (secSlots s)
  else if off = rSecCtrs then some (secCtrs s)
  else if off = rTelStat then some (telStat s)
  else none

/-! ### CD windows -/

/-- CDnn_ARR_STAT. -/
def arrStat (s : State) (d : Die) : Word :=
  let a := (die s d).arr
  w32 (fld (reg s (cdWin d.val + rArrStat)) 31 11 * 2048 + b2n a.hold * 1024 + b2n a.draining * 512 + b2n a.op.isSome * 256)

/-- CDnn_TQ_STAT counts the slots of each stream that are not FREE (R102). -/
def tqStat (s : State) (d : Die) : Word :=
  let occ (c : Sid) : Nat := (die s d).arr.queue.foldl (fun n e => if e.tile.c = c then n + tileSlots e.tile else n) 0
  w32 (occ .f + occ .b * 256 + occ .u * 65536)

/-- CDnn_VEC_STAT. -/
def vecStat (s : State) (d : Die) : Word :=
  w32 (allSids.foldl (fun n c =>
    let x := vctx s d c
    n + (b2n x.faulted * 8 + b2n x.waitTq * 2 + b2n x.running) * 16 ^ sidNat c) 0)

/-- The code of a stream's state (R206). -/
def strCode : StrSt → Nat
  | .idle => 0 | .issuing => 1 | .waitSync => 2 | .waitUnit => 3 | .waitGang => 4 | .waitVerdict => 5 | .poisonPath => 6 | .held => 7

/-- CDnn_STR_STAT. -/
def strStat (s : State) (d : Die) : Word :=
  w32 (allSids.foldl (fun n c =>
    let x := str s d c
    n + (b2n x.faulted * 128 + b2n x.prologue * 64 + strCode x.st) * 256 ^ sidNat c) 0)

/-- A word of CDnn_SYNC_OBJi. -/
def cdObj (s : State) (d : Die) (i : Fin 4096) (k : Nat) : Word :=
  let o := getObj s (.loc d i)
  let waits := allSids.foldl (fun n c => n + b2n (o.waiters.any fun w => decide (w.who = .stream d c)) * 2 ^ sidNat c) 0
  match k with
  | 0 => w32 (b2n o.err * 2 ^ 31 + o.count)
  | 1 => w32 (o.cause.toNat * 2 ^ 28 + waits * 65536 + o.gen.toNat)
  | 2 => w32 o.ahead
  | _ => 0

/-- Composed registers of a die's window. -/
def cdView (s : State) (d : Die) (o : Nat) : Option Word :=
  if o = rArrStat then some (arrStat s d)
  else if o = rTqStat then some (tqStat s d)
  else if o = rVecStat then some (vecStat s d)
  else if rStrPc ≤ o ∧ o < rStrPc + 32 then some (halfOf (str s d (sidOf ((o - rStrPc) / 8))).pc (o % 8))
  else if o = rStrStat then some (strStat s d)
  else if rStrStep ≤ o ∧ o < rStrStep + 32 then some (halfOf (str s d (sidOf ((o - rStrStep) / 8))).step (o % 8))
  else if h : rCdObj ≤ o ∧ o < rCdObj + 65536 then some (cdObj s d ⟨(o - rCdObj) / 16, by omega⟩ (o % 16 / 4))
  else none

/-! ### Every register -/

/-- The composed word at a BAR0 offset, if its register is composed. -/
def viewWord (s : State) (off : Nat) : Option Word :=
  if off < 0x100000 then modView s off
  else if off < 0x300000 then fabView s off
  else if off < 0x400000 then portView s off
  else if off < 0x500000 then fabView s off
  else if off < 0x600000 then memView s off
  else if off < 0x700000 then clkView s off
  else if off < 0x900000 then secView s off
  else if h : 0x1000000 ≤ off ∧ off < 0x1000000 + 24 * 0x100000 then
    cdView s ⟨(off - 0x1000000) / 0x100000, by omega⟩ ((off - 0x1000000) % 0x100000)
  else none

/-- The word at a BAR0 offset as a read finds it, by its access type (R11); a WO register reads 0. -/
def readWord (s : State) (off : Nat) : Word :=
  match regRow off with
  | none => 0
  | some r => match r.ty with
    | .wo => 0
    | .rs => (rsReg s off).word
    | _ => (viewWord s off).getD (reg s off)

end Sys2Proof.Machine
end

