-- ==== Sys2Proof/Machine/Security.lean ====
section
/-! DEFINITION. Machine/Security.lean: management over MCTP and the mailbox (R498 to R501), owner keys and anti-rollback (R502 to
R506), attestation (R507, R508) and the updating of flash (R424). -/
namespace Sys2Proof.Machine
open Sys2Proof

/-! ### Paths, requests and responses (R498 to R501) -/

/-- The number of a path in SEC_LOG_POP. -/
def pathNo : Path → Fin 3
  | .i3c => 0 | .vdm => 1 | .mbox => 2

/-- Status codes of R500. -/
def msOk : Nat := 0
def msBusy : Nat := 1
def msLength : Nat := 2
def msAuth : Nat := 3
def msNonce : Nat := 4
def msState : Nat := 5
def msExhausted : Nat := 6
def msNotFound : Nat := 7
def msCommand : Nat := 8

/-- Commands of R500. -/
def mcGetNonce : Nat := 0x01
def mcGetAttest : Nat := 0x02
def mcGetCert : Nat := 0x03
def mcReadLog : Nat := 0x04
def mcOwner : Nat := 0x10
def mcReset : Nat := 0x20
def mcEpoch : Nat := 0x21
def mcFlashWrite : Nat := 0x22
def mcFlashPrefer : Nat := 0x23
def mcRecover : Nat := 0x24

/-- Byte `i` of SEC_MBOX_DATA. -/
def mboxByte (s : State) (i : Nat) : Byte := BitVec.ofNat 8 ((reg s (rSecMbox + i / 4 * 4)).toNat / 256 ^ (i % 4))

/-- Bytes of SEC_MBOX_DATA. -/
def mboxBytes (s : State) (off len : Nat) : List Byte := (List.range len).map fun i => mboxByte s (off + i)

/-- Put a message into SEC_MBOX_DATA, word by word; a last word is filled with zeros. -/
def mboxPut (s : State) (bs : List Byte) : State :=
  (List.range ((bs.length + 3) / 4)).foldl (fun s k => setReg s (rSecMbox + 4 * k) (w32 (leAt bs (4 * k) 4))) s

/-- A vendor-defined message: vendor ID, COMMAND, STATUS, LENGTH, body. -/
def vendorMsg (cmd status : Nat) (body : List Byte) : List Byte :=
  leBytes 2 0x1FB5 ++ leBytes 1 cmd ++ leBytes 1 status ++ leBytes 4 body.length ++ body

/-- The response of the mailbox is in place: DONE. -/
def mboxAnswer (s : State) (cmd status : Nat) (body : List Byte) : State :=
  let m := (vendorMsg cmd status body).take 4096
  let s := mboxPut s m
  { s with sec := { s.sec with mbox := .done, mboxLen := m.length } }

/-- Answer a request on its path. -/
def respond (s : State) (p : Path) (cmd status : Nat) (body : List Byte) : State :=
  match p with
  | .mbox => mboxAnswer s cmd status body
  | p => emit s (.response p status body)

/-- A path takes requests: at READY and in MGMT_ONLY. In ROM_RECOVERY only I3C does, and only to write firmware. -/
def pathServes (s : State) (p : Path) (flashFw : Bool) : Bool :=
  match s.start.fin with
  | .ready | .mgmtOnly => true
  | .romRecovery => decide (p = .i3c) && flashFw
  | .running => false

/-- The request stands on its path: on the mailbox, GO has been written with a request of this command and, where it
is given, this body. -/
def reqStands (s : State) (p : Path) (cmd : Nat) (body : Option (List Byte)) : Bool :=
  decide (p ≠ .mbox) ||
  (decide (s.sec.mbox = .busy) && decide ((mboxByte s 2).toNat = cmd) &&
    match body with
    | some b => decide (leNat (mboxBytes s 4 4) = b.length) && decide (mboxBytes s 8 b.length = b)
    | none => true)

/-- Serve a request. -/
def serve (p : Path) (cmd : Nat) (body : Option (List Byte)) (run : State → State) (s : State) : State :=
  if pathServes s p false && reqStands s p cmd body then run s else s

/-- A write of GO (R509): the request is taken, and answered at once where its length or its command is wrong. RESET is
not a command of the mailbox. -/
def mboxGo (len : Nat) (s : State) : State :=
  if s.sec.mbox = .busy then s else
  let cmd := (mboxByte s 2).toNat
  let s := { s with sec := { s.sec with mbox := .busy, mboxLen := 0 } }
  if len < 8 ∨ 4096 < len ∨ leNat (mboxBytes s 4 4) + 8 ≠ len then mboxAnswer s cmd msLength []
  else if leNat (mboxBytes s 0 2) ≠ 0x1FB5 ∨ cmd ∉ [mcGetNonce, mcGetAttest, mcGetCert, mcReadLog, mcOwner, mcEpoch, mcFlashWrite, mcFlashPrefer, mcRecover] then
    mboxAnswer s cmd msCommand []
  else s

/-! ### Nonces and the owner commands (R502 to R505) -/

/-- 60 s. -/
def minuteNs : Nat := 60000000000

/-- The nonce of a path, while it is valid. -/
def liveNonce (s : State) (p : Path) : Option (BitVec 256) :=
  match s.sec.nonces[pathNo p] with
  | some (n, t) => if s.clk ≤ t + minuteNs then some n else none
  | none => none

/-- Replace the nonce of a path. -/
def setNonce (s : State) (p : Path) (n : Option (BitVec 256 × Nat)) : State :=
  { s with sec := { s.sec with nonces := s.sec.nonces.set (pathNo p) n } }

/-- GET_NONCE. -/
def doGetNonce (p : Path) (s : State) : State :=
  serve p mcGetNonce (some []) (fun s =>
    let (k, s) := drawFree s
    let n := Config.nonce k
    respond (setNonce s p (some (n, s.clk))) p mcGetNonce msOk (leBytes 32 n.toNat)) s

/-- NONCE_EXPIRE. -/
def doNonceExpire (p : Path) (s : State) : State :=
  match s.sec.nonces[pathNo p] with
  | none => s
  | some (_, t) => setNonce (advanceTo (t + minuteNs) s) p none

/-- The lockout count after 60 s without a failure (R504). -/
def coolLockout (s : State) : State :=
  if s.sec.lastFail + minuteNs ≤ s.clk then { s with sec := { s.sec with fails := 0 } } else s

/-- LOCKOUT_EXPIRE. -/
def doLockoutExpire (s : State) : State :=
  if s.sec.fails = 0 then s
  else
    let s := advanceTo (s.sec.lastFail + minuteNs) s
    { s with sec := { s.sec with fails := 0 } }

/-- An OWNER command fails authorisation. -/
def ownerFail (s : State) (p : Path) (signer status : Nat) : State :=
  let s := setReg s rSecAuthFail (w32 (satInc 16 (reg s rSecAuthFail).toNat))
  let s := secEvent s 0 (pathNo p).val signer
  let s := { s with sec := { s.sec with fails := s.sec.fails + 1, lastFail := s.clk } }
  respond (if s.sec.fails == 8 then secEvent s 7 (pathNo p).val signer else s) p mcOwner status []

/-- The identity record of the MSD (R411). -/
def msdRecord (s : State) : BitVec 128 := (s.start.ids[31]?).getD 0

/-- SIGNER, ARG and ARG2 of a body. -/
def ownerSigner (b : List Byte) : Nat := leAt b 0x30 1
def ownerArg (b : List Byte) : Nat := leAt b 0x32 2
def ownerArg2 (b : List Byte) : Nat := leAt b 0x34 4

/-- SIGNER names a BOUND slot. -/
def signerBound (s : State) (b : List Byte) : Bool := decide (slotState s (ownerSigner b) = .bound)

/-- An OWNER command of operation `op` (R504): length, lockout, nonce, target and signature in turn, then `act` answers
with a status; a success returns the lockout count to 0. A body of another operation is not this command. -/
def owner (op : Nat) (p : Path) (b : List Byte) (sigOk : Bool) (act : State → Nat × State) (s : State) : State :=
  if b.length = 324 ∧ leAt b 0x31 1 ≠ op then s else
  serve p mcOwner (some b) (fun s =>
    if b.length ≠ 324 then respond s p mcOwner msLength [] else
    let s := coolLockout s
    let n := liveNonce s p
    let s := setNonce s p none
    if 8 ≤ s.sec.fails then respond s p mcOwner msState []
    else if n ≠ some (BitVec.ofNat 256 (leAt b 0 32)) then ownerFail s p (ownerSigner b) msNonce
    else if leAt b 0x20 16 ≠ (msdRecord s).toNat ∨ !sigOk then ownerFail s p (ownerSigner b) msAuth
    else
      let (st, s) := act s
      let s := if st = msOk then { s with sec := { s.sec with fails := 0 } } else s
      respond s p mcOwner st []) s

/-- Replace a key slot. -/
def putSlot (s : State) (n : Nat) (x : KeySlot) : State :=
  if h : n < 4 then { s with otp := { s.otp with slots := s.otp.slots.set n x } } else s

/-- Who may bind slot `n`: a BOUND slot, or the vendor key for slot 0 while all four are EMPTY. -/
def bindSigner (s : State) (b : List Byte) (n : Nat) : Bool :=
  signerBound s b || (decide (ownerSigner b = 0xFF) && decide (n = 0) && (List.range 4).all fun i => decide (slotState s i = .empty))

/-- BIND: the key, then its marker. -/
def actBind (p : Path) (b : List Byte) (s : State) : Nat × State :=
  let n := ownerArg b
  if 4 ≤ n ∨ slotState s n ≠ .empty ∨ !bindSigner s b n then (msState, s)
  else (msOk, secEvent (putSlot s n { st := .bound, key := (b.drop 0x38).take 133 }) 3 (pathNo p).val n)

/-- REVOKE: another BOUND slot signs. -/
def actRevoke (p : Path) (b : List Byte) (s : State) : Nat × State :=
  let n := ownerArg b
  if 4 ≤ n ∨ slotState s n ≠ .bound ∨ !signerBound s b ∨ ownerSigner b = n then (msState, s)
  else
    let key := ((s.otp.slots.toList)[n]?).elim [] (·.key)
    (msOk, secEvent (putSlot s n { st := .revoked, key := key }) 3 (pathNo p).val n)

/-- The SVN of a kind in use: the running firmware, the platform copy, the active job image. -/
def svnInUse (s : State) (kind : Nat) : Option Nat :=
  match kind with
  | 0 => some s.start.fwSvn
  | 1 => s.plat.map (·.svn)
  | 2 => if jobActive s then some s.img.svn else none
  | _ => none

/-- ADVANCE: the counter's fuses are blown up to the value; there are 64. -/
def actAdvance (p : Path) (b : List Byte) (s : State) : Nat × State :=
  let v := ownerArg b % 256
  let kind := ownerArg b / 256 % 4
  if h : kind < 3 then
    if s.otp.ctrs[kind] = 64 then (msExhausted, secEvent s 5 (pathNo p).val kind)
    else match svnInUse s kind with
      | none => (msState, s)
      | some n =>
        if !signerBound s b ∨ v ≤ s.otp.ctrs[kind] ∨ n < v ∨ 64 < v then (msState, s)
        else (msOk, secEvent { s with otp := { s.otp with ctrs := s.otp.ctrs.set kind v } } 4 (pathNo p).val kind)
  else (msState, s)

/-- LOG_CLEAR: an entry of the flash log for a map-out or a failed lane is removed. -/
def actLogClear (p : Path) (b : List Byte) (s : State) : Nat × State :=
  let k := ownerArg2 b
  let e : Stack × Fin 32 := (⟨k / 32 % 24, Nat.mod_lt _ (by decide)⟩, ⟨k % 32, Nat.mod_lt _ (by decide)⟩)
  let gone (s : State) : Nat × State := (msOk, secEvent s 6 (pathNo p).val k)
  if !signerBound s b then (msState, s)
  else if ownerArg b = 0 ∧ k < 768 ∧ e ∈ s.flash.mapOut then
    gone { s with flash := { s.flash with mapOut := s.flash.mapOut.filter fun x => decide (x ≠ e) } }
  else if ownerArg b = 1 ∧ SMap.get 0 s.flash.lanes k ≠ 0 then
    gone { s with flash := { s.flash with lanes := SMap.set 0 s.flash.lanes k 0 } }
  else (msNotFound, s)

/-- OWNER_BIND. -/
def doOwnerBind (p : Path) (b : List Byte) (sigOk : Bool) (s : State) : State := owner 1 p b sigOk (actBind p b) s
/-- OWNER_REVOKE. -/
def doOwnerRevoke (p : Path) (b : List Byte) (sigOk : Bool) (s : State) : State := owner 2 p b sigOk (actRevoke p b) s
/-- OWNER_ADVANCE. -/
def doOwnerAdvance (p : Path) (b : List Byte) (sigOk : Bool) (s : State) : State := owner 3 p b sigOk (actAdvance p b) s
/-- OWNER_LOG_CLEAR. -/
def doOwnerLogClear (p : Path) (b : List Byte) (sigOk : Bool) (s : State) : State := owner 4 p b sigOk (actLogClear p b) s

/-! ### Attestation (R507, R508) -/

/-- A 64-byte digest. -/
def digestBytes (d : BitVec 512) : List Byte := leBytes 64 d.toNat

/-- The hash of a slot's key; zero for an EMPTY slot. -/
def keyHash (s : State) (n : Nat) : List Byte :=
  match (s.otp.slots.toList)[n]? with
  | some x => if x.st = .empty then List.replicate 64 0 else digestBytes (Config.sha512 x.key)
  | none => List.replicate 64 0

/-- The report up to its signature: bytes 0x000 to 0x423. -/
def reportBody (s : State) (nonce : BitVec 256) : List Byte :=
  let job := jobActive s
  leBytes 4 0x54524E42 ++ leBytes 2 1 ++ leBytes 2 1192 ++ leBytes 32 nonce.toNat ++ leBytes 8 s.tb.toNat ++
  leBytes 8 (reg64 s rStepCtr).toNat ++ leBytes 4 (startStat s).toNat ++ leBytes 4 (reg s rIdLevel).toNat ++
  leBytes 4 (fabId s).toNat ++ leBytes 4 (imgJob s).toNat ++ leBytes 4 (imgStat s).toNat ++ leBytes 4 0 ++
  digestBytes s.start.fwDigest ++ digestBytes (s.plat.elim 0 (·.digest)) ++ digestBytes (if job then s.img.digest else 0) ++
  leBytes 1 s.start.fwSvn ++ leBytes 1 (s.plat.elim 0 (·.svn)) ++ leBytes 1 (if job then s.img.svn else 0) ++ leBytes 1 0 ++
  leBytes 4 (secCtrs s).toNat ++ leBytes 4 (secSlots s).toNat ++ leBytes 4 0 ++
  (List.range 4).flatMap (keyHash s) ++ (List.range 32).flatMap (fun i => leBytes 16 ((s.start.ids[i]?).getD 0).toNat) ++
  leBytes 2 1 ++ leBytes 2 0

/-- The signed report. -/
def report (s : State) (nonce : BitVec 256) : List Byte :=
  let b := reportBody s nonce
  let h := Config.sha512 b
  b ++ leBytes 66 (Config.signR h).toNat ++ leBytes 66 (Config.signS h).toNat

/-- GET_ATTEST. -/
def doGetAttest (p : Path) (nonce : BitVec 256) (s : State) : State :=
  serve p mcGetAttest (some (leBytes 32 nonce.toNat)) (fun s => respond s p mcGetAttest msOk (report s nonce)) s

/-- GET_CERT. -/
def doGetCert (p : Path) (s : State) : State :=
  serve p mcGetCert (some []) (fun s => respond s p mcGetCert msOk (Config.deviceCert ++ Config.caCert)) s

/-! ### The flash log (R423, R500) -/

/-- Entries of a log class, each as the numbers it holds. DESIGN CHOICE: the spec names what the log holds and gives no
class codes or layout. -/
def logEntries (f : FlashState) (cls : Nat) : List (List Nat) :=
  match cls with
  | 0 => f.repairs.map fun x => [x.1, x.2]
  | 1 => f.remaps.map fun x => [x.1, x.2.1, x.2.2.elim 0 (· + 1)]
  | 2 => f.mapOut.map fun x => [x.1.val, x.2.val]
  | 3 => f.lanes.map fun x => [x.1, x.2]
  | 4 => f.ringCal.map fun x => x.1 :: x.2.map (·.toNat)
  | 5 => f.memDigest.elim [] fun d => [[d.toNat]]
  | 6 => f.images.map fun x => [x.1.toNat, x.2.1, x.2.2.toNat]
  | 7 => f.tests.map fun x => [x.1, x.2.1, x.2.2.toNat]
  | 8 => f.roleMaps.map fun x => x.1 :: x.2.map (·.toNat)
  | _ => []

/-- READ_LOG: entries from the first one asked for on. -/
def doReadLog (p : Path) (cls first : Nat) (s : State) : State :=
  serve p mcReadLog none (fun s =>
    let es := (logEntries s.flash cls).drop first
    if es = [] then respond s p mcReadLog msNotFound []
    else respond s p mcReadLog msOk (es.flatMap fun e => e.flatMap (leBytes 64))) s

/-! ### Resets, epochs and recovery from the BMC -/

/-- RESET: MCTP only. -/
def doReset (p : Path) (v : Word) (s : State) : State :=
  if p = .mbox ∨ !pathServes s p false then s else modResetEffect .bmc (0x5A5A0000 ||| (v &&& 3)) (respond s p mcReset msOk [])

/-- EPOCH. -/
def doEpoch (p : Path) (v : Word) (s : State) : State :=
  serve p mcEpoch none (fun s => respond (epochCmd v s) p mcEpoch msOk []) s

/-- RECOVER: a word as MOD_RCV_CMD. STATE answers one that may not start now. -/
def doRecover (p : Path) (v : Word) (s : State) : State :=
  serve p mcRecover none (fun s =>
    let cmd := fld v 31 28
    let now := if s.rcv.st = .running then decide (cmd = 6) else rcvPermitted s cmd && decide (cmd ≤ 5)
    respond (rcvEffect v s) p mcRecover (if now ∨ cmd = 0 then msOk else msState) []) s

/-! ### Flash copies (R424) -/

/-- Copy B of a kind is the preferred one. -/
def prefersB (s : State) (pi : Bool) : Bool := (bootRecord s.flash).elim false fun r => if pi then r.piB else r.fwB

/-- FLASH_WRITE: data goes into the copy that is not preferred. -/
def doFlashWrite (p : Path) (pi : Bool) (off : Nat) (data : List Byte) (s : State) : State :=
  if !(pathServes s p (!pi) && reqStands s p mcFlashWrite none) then s
  else if (if pi then 0x4000000 else 0x400000) < off + data.length then respond s p mcFlashWrite msLength []
  else
    let a := (if pi then piBase (!prefersB s pi) else fwBase (!prefersB s pi)) + off
    let bytes := data.zipIdx.foldl (fun m x => SMap.set 0 m (a + x.2) x.1) s.flash.bytes
    respond { s with flash := { s.flash with bytes := bytes } } p mcFlashWrite msOk []

/-- Write the boot descriptor record that is not in force with a new preference. -/
def writeBoot (f : FlashState) (pi copy : Bool) : FlashState :=
  let new (r : BootRecord) (n : Word) : BootRecord := if pi then { r with seq := n, piB := copy } else { r with seq := n, fwB := copy }
  match f.rec0, f.rec1 with
  | some a, some b => if serialAfter 32 b.seq.toNat a.seq.toNat then { f with rec0 := some (new b (b.seq + 1)) } else { f with rec1 := some (new a (a.seq + 1)) }
  | some a, none => { f with rec1 := some (new a (a.seq + 1)) }
  | none, some b => { f with rec0 := some (new b (b.seq + 1)) }
  | none, none => { f with rec1 := some (new ⟨0, false, false⟩ 1) }

/-- A copy whose signature and digests hold passes R426. -/
def copyPasses (s : State) (pi copy : Bool) : Bool :=
  let o := piBase copy
  if pi then platHeader s o && decide (slotState s (flashNat s (o + 7) 1) = .bound) && decide (s.otp.ctrs[1] ≤ flashNat s (o + 8) 4)
  else fwOk s (fwBase copy)

/-- FLASH_PREFER: a copy that passes R426 becomes the preferred one. `ok` says that its signature and digests hold. -/
def doFlashPrefer (p : Path) (pi copy ok : Bool) (s : State) : State :=
  if !(pathServes s p (!pi) && reqStands s p mcFlashPrefer none) then s
  else if !(ok && copyPasses s pi copy) then respond s p mcFlashPrefer msState []
  else respond { s with flash := writeBoot s.flash pi copy } p mcFlashPrefer msOk []

/-! ### MCTP and PLDM (R498, R499) -/

/-- SET_ENDPOINT_ID: the bus owner of a binding assigns the module's endpoint ID. -/
def doSetEndpointId (p : Path) (eid : Byte) (s : State) : State :=
  if p = .mbox ∨ !pathServes s p false then s
  else emit { s with sec := { s.sec with eid := s.sec.eid.set (pathNo p) eid } } (.response p msOk [eid])

/-- A numeric sensor: temperatures in 0.1 °C, W, units of 10 mV and 10 mA; none for an ID that is not one (R499). -/
def numericSensor (s : State) (id : Nat) : Option Int :=
  if h : 1 ≤ id ∧ id ≤ 24 then some s.clocks.dies[id - 1].temp
  else if h : 25 ≤ id ∧ id ≤ 48 then some (sext 16 s.mem.st[id - 25].tempNow * 5 / 2)
  else if 49 ≤ id ∧ id ≤ 56 then some ((SMap.get none s.clocks.others (id - 49)).getD 0)
  else if id = 57 then some (fld (reg s rPwrStat) 31 16 : Nat)
  else if id = 58 then some (fld (reg s rPwrIn) 15 0 : Nat)
  else if id = 59 then some (fld (reg s rPwrIn) 31 16 : Nat)
  else if id = 60 then some s.pwr.hvTemp
  else none

/-- A state sensor. -/
def stateSensor (s : State) (id : Nat) : Option Nat :=
  if id = 100 then some (stageCode s)
  else if id = 101 then some (imgCode s.img.st)
  else if id = 102 then some (lsStat s).toNat
  else none

/-- The latest telemetry frame. -/
def telBytes (s : State) : List Byte := (List.range 64).flatMap fun k => leBytes 4 (reg s (rTelFrame + 4 * k)).toNat

/-- PLDM types and commands that the answers below are given for. PRESUMED: the codes are those of DSP0248. -/
def pldmPlatform : Nat := 2
def pldmSensor : Nat := 0x11
def pldmStateSensor : Nat := 0x21
def pldmPdr : Nat := 0x51
/-- The record handle of the OEM PDR with the telemetry frame. DESIGN CHOICE: the spec gives none. -/
def pdrFrame : Nat := 0x1000

/-- What a PLDM request is answered with: sensors and the telemetry frame from the state, anything else as the DMTF
standards lay it out. -/
def pldmAnswer (s : State) (type cmd arg : Nat) : List Byte :=
  let other := Config.pldmData type cmd arg
  if type ≠ pldmPlatform then other
  else if cmd = pldmSensor then (numericSensor s arg).elim other fun v => leBytes 4 (unsign 32 v)
  else if cmd = pldmStateSensor then (stateSensor s arg).elim other (leBytes 4)
  else if cmd = pldmPdr ∧ arg = pdrFrame then telBytes s
  else other

/-- PLDM_REQUEST. -/
def doPldmRequest (p : Path) (type : BitVec 6) (cmd : Byte) (arg : Nat) (s : State) : State :=
  if p = .mbox ∨ !pathServes s p false then s else emit s (.response p msOk (pldmAnswer s type.toNat cmd.toNat arg))

end Sys2Proof.Machine
end

