-- ==== Sys2Proof/Machine/Telemetry.lean ====
section
/-! DEFINITION. Machine/Telemetry.lean: the telemetry frame, its host ring (R496, R497) and the wear levelling of the flash log
(R474). -/
namespace Sys2Proof.Machine
open Sys2Proof

/-- A temperature in units of 0.5 °C in one byte; readings below 0 °C give 0. -/
def halfDeg (t : Int) : List Byte := leBytes 1 (min 255 t.toNat)

/-- A cause of R495 summed over the 96 streams. -/
def waitSum (s : State) (x : Nat) : Nat := (List.range 96).foldl (fun n k => n + (reg64 s (rTelWait + k * 0x40 + 8 * x)).toNat) 0

/-- FLAGS of the frame. -/
def frameFlags (s : State) : Nat :=
  b2n s.mem.slow + 2 * b2n (ctlBit s rPwrStat 10) + 4 * b2n (ctlBit s rPwrStat 9) + 8 * b2n (decide (s.tbs.st = .locked))

/-- The highest stretch in force on any die. -/
def maxStretch (s : State) : Nat := allDies.foldl (fun n d => max n (dieStretch s d)) 0

/-- Bytes 0x00 to 0xFB of the frame with number `seq`. -/
def frameBody (s : State) (seq : Nat) : List Byte :=
  let word (off : Nat) : List Byte := leBytes 4 (readWord s off).toNat
  leBytes 8 s.tb.toNat ++ leBytes 4 seq ++ leBytes 1 (stageCode s) ++ leBytes 1 (imgCode s.img.st) ++
  leBytes 2 (if bitAt (fabId s) 31 then fld (fabId s) 15 0 else 0xFFFF) ++ leBytes 8 (reg64 s rStepCtr).toNat ++
  leBytes 2 (fld (reg s rPwrStat) 31 16) ++ leBytes 2 (fld (reg s rPwrShape) 15 0) ++ leBytes 1 (maxStretch s) ++
  leBytes 1 (commonTarget s) ++ leBytes 2 0 ++
  allDies.flatMap (fun d => halfDeg (s.clocks.dies[d].temp / 5)) ++
  allDies.flatMap (fun d => halfDeg (sext 16 s.mem.st[d].tempNow / 2)) ++
  (List.range 8).flatMap (fun k => halfDeg ((SMap.get none s.clocks.others k).getD 0 / 5)) ++
  leBytes 4 (fld (memStat s) 23 0) ++ leBytes 4 (cdOut s) ++
  word rTxFlits ++ word (rTxFlits + 4) ++ word rRxFlits ++ word (rRxFlits + 4) ++
  (List.range 6).flatMap (fun k => leBytes 2 (fld (portStat s k) 17 9)) ++ word rLinkStat ++
  (List.range 8).flatMap (fun x => leBytes 8 (waitSum s x)) ++
  word rCeTotal ++ word (rCeTotal + 4) ++ word rUeTotal ++ leBytes 4 (frameFlags s) ++
  word rPwrEnergy ++ word (rPwrEnergy + 4) ++ List.replicate 32 0 ++ leBytes 4 seq

/-- The frame of 256 bytes. -/
def frameBytes (s : State) (seq : Nat) : List Byte :=
  let b := frameBody s seq
  b ++ leBytes 4 (crc32c b)

/-- Frames that the ring holds, as a power of two: 4 to 16, other values acting as 4. -/
def ringLog2 (s : State) : Nat :=
  let l := fld (reg s rTelRingLen) 4 0
  if 4 ≤ l ∧ l ≤ 16 then l else 4

/-- Deliver a frame to the host ring; without Bus Master Enable it is skipped and RING_HELD set (R482). -/
def ringFrame (s : State) (f : List Byte) : State :=
  if !ctlBit s rTelCtl 0 then s
  else if !s.host.busMaster then { s with tel := { s.tel with held := true } }
  else
    let head := (reg s rTelRingHead).toNat
    let s := emit s (.hostWrite ((reg64 s rTelRingBase).toNat + 256 * (head % 2 ^ ringLog2 s)) f)
    let s := { addReg s rTelRingHead 1 with tel := { s.tel with held := false } }
    if ctlBit s rTelCtl 1 then moduleEvent s 14 else s

/-- Put a frame at TEL_FRAME. -/
def putFrame (s : State) (f : List Byte) : State :=
  (List.range 64).foldl (fun s k => setReg s (rTelFrame + 4 * k) (w32 (leAt f (4 * k) 4))) s

/-- TELEMETRY_FRAME: a TEL_PERIOD has passed. FRAME_SEQ counts the frame itself. -/
def doTelemetryFrame (s : State) : State :=
  match s.tel.nextAt with
  | none => s
  | some t =>
    let s := advanceTo t s
    let n := (s.tel.seq + 1) % 2 ^ 32
    let f := frameBytes s n
    let s := { s with tel := { s.tel with seq := n, nextAt := some (t + fld (reg s rPatCfg) 23 14 * 100000) } }
    ringFrame (putFrame s f) f

/-- The least time between two erases. -/
def eraseNs : Nat := 1000000000

/-- FLASH_WEAR_LEVEL: a block of the flash log is erased, at most once per second, and not while a start is in progress.
What the log holds is kept. -/
def doFlashWearLevel (blk : Nat) (s : State) : State :=
  if s.start.fin ≠ .ready then s else
  let s := advanceTo s.flash.wearAt s
  { s with flash := { s.flash with erased := SMap.upd 0 s.flash.erased blk (· + 1), wearAt := s.clk + eraseNs } }

end Sys2Proof.Machine
end

