-- ==== Sys2Proof/Machine/Host.lean ====
section
/-! DEFINITION. Machine/Host.lean: the PCIe endpoint: register accesses (R11 to R16, R488 to R490), BAR2 (R479 to R481), messages
(R484, R486) and power states (R482, R483). -/
namespace Sys2Proof.Machine
open Sys2Proof

/-! ### Masters -/

/-- What master `m` holds of a 64-bit access. -/
def mport (s : State) : Master → MasterPort
  | .host => s.host.host
  | .bmc => s.host.bmc
  | .msd => s.host.msd
  | .plinth => s.host.plinth

/-- Replace what master `m` holds. -/
def setMport (s : State) (m : Master) (p : MasterPort) : State :=
  match m with
  | .host => { s with host := { s.host with host := p } }
  | .bmc => { s with host := { s.host with bmc := p } }
  | .msd => { s with host := { s.host with msd := p } }
  | .plinth => { s with host := { s.host with plinth := p } }

/-- Memory requests from the host reach the module (R420, R481, R483). -/
def hostOpen (s : State) : Bool := s.host.memSpace && earlyOpen s && !s.host.d3hot

/-- A memory request of the host: an Unsupported Request where none is accepted (R481). -/
def hostMem (run : State → State) (s : State) : State :=
  if hostOpen s then run s else complete (emit s (.aer "unsupported request")) .host .ur []

/-- An access of master `m`. -/
def byMaster (m : Master) (run : State → State) (s : State) : State :=
  match m with
  | .host => hostMem run s
  | _ => run s

/-- A register word is there, and its window is open. -/
def wordOpen (s : State) (off : Nat) : Bool := (regRow off).isSome && decide (off % 4 = 0) && windowOpen s off

/-! ### Reads -/

/-- MOD_ELOG_POP: the oldest entry of the Plinth error log, which is removed; LOST clears when the log empties (R490). -/
def popElog (s : State) : Word × State :=
  match s.host.elog with
  | [] => (0, s)
  | (w, b) :: es =>
    (w32 (2 ^ 31 + b * 2 ^ 26 + w),
      { s with host := { s.host with elog := es, elogLost := s.host.elogLost && !es.isEmpty } })

/-- SEC_LOG_POP (R509). -/
def popSecLog (s : State) : Word × State :=
  match s.sec.log with
  | [] => (0, s)
  | (e, p, d) :: es => (w32 (2 ^ 31 + e * 65536 + p * 16384 + d), { s with sec := { s.sec with log := es } })

/-- SEC_AUTH_FAIL: the count, which returns to 0 (R504). -/
def takeAuthFail (s : State) : Word × State := (reg s rSecAuthFail, setReg s rSecAuthFail 0)

/-- A read of a register word by master `m`, with its effects: RC registers pop or clear (R13), and the halves of a 64-bit
register are paired by the latch (R16). -/
def readEffect (m : Master) (off : Nat) (s : State) : Word × State :=
  if off = rElogPop then popElog s
  else if off = rSecLogPop then popSecLog s
  else if off = rSecAuthFail then takeAuthFail s
  else if isHighWord off then ((mport s m).latch, s)
  else if isLowWord off then (readWord s off, setMport s m { mport s m with latch := readWord s (off + 4) })
  else (readWord s off, s)

/-- A read access. -/
def regRead (m : Master) (off : Nat) (s : State) : State :=
  if wordOpen s off then complete (readEffect m off s).2 m .sc (leBytes 4 (readEffect m off s).1.toNat) else busErr s m

/-! ### Writes -/

/-- A masked write (R11). -/
def maskedWord (old v mask : Word) : Word :=
  let m := v >>> 16 &&& mask &&& 0xFFFF
  (old &&& ~~~m) ||| (v &&& m)

/-- Send the message that vector `v` has pending, if it may leave (R484). -/
def sendPending (v : Nat) (s : State) : State :=
  if SMap.get false s.host.pba v && msixOpen s v then
    emit { s with host := { s.host with pba := SMap.set false s.host.pba v false } } (.msix v)
  else s

/-- Send every pending message that may leave. -/
def sendAllPending (s : State) : State := s.host.pba.foldl (fun s x => sendPending x.1 s) s

/-- A write to a word of the MSI-X table. -/
def writeMsix (off : Nat) (v : Word) (s : State) : State :=
  let s := setReg s off (v &&& maskWord off)
  if (off - rMsixTable) % 16 = 12 then sendPending ((off - rMsixTable) / 16) s else s

/-- A write to TEL_CTL: setting RING_EN starts HEAD at 0 (R497). -/
def writeTelCtl (v : Word) (s : State) : State :=
  let new := maskedWord (reg s rTelCtl) v 3
  let start := !ctlBit s rTelCtl 0 && bitAt new 0
  let s := setReg s rTelCtl new
  let s := if start then setReg s rTelRingHead 0 else s
  { s with tel := { s.tel with held := s.tel.held && bitAt new 0 && !start } }

/-- A write to SEC_MBOX_CTL: LENGTH is kept, and GO sends the request (R509). -/
def writeMboxCtl (v : Word) (s : State) : State :=
  let s := setReg s rSecMboxCtl (v &&& 0x1FFF)
  if bitAt v 31 then mboxGo (fld v 12 0) s else s

/-- A write to SYNC_HW_OBJn arms or disarms slot n. -/
def writeSlot (n : Fin 1024) (v : Word) (s : State) : State := if bitAt v 31 then armSlot n v s else disarmSlot n v s

/-- The slot that an offset of the host-wait slots belongs to. -/
def slotAt (off : Nat) : Fin 1024 := ⟨(off - rHwObj) / 16 % 1024, Nat.mod_lt _ (by decide)⟩

/-- A write to a register of the host-wait slots (R230, R231). -/
def writeHw (off : Nat) (v : Word) (s : State) : State :=
  if (off - rHwObj) % 16 = 0 then writeSlot (slotAt off) v s
  else if slotArmed s (slotAt off) then s
  else setReg s off (v &&& maskWord off)

/-- A write to an RW register word (R11), with what each register does beside holding the value. -/
def writeRw (off : Nat) (v : Word) (s : State) : State :=
  if off = rRcvCmd then rcvEffect v s
  else if off = rLaneSel then (if fld v 9 0 ≤ 687 then setReg s off (v &&& maskWord off) else s)
  else if off = rSecMboxCtl then writeMboxCtl v s
  else if rSecMbox ≤ off ∧ off < rSecMbox + 4096 then (if s.sec.mbox = .busy then s else setReg s off v)
  else if off = rTelRingLen then (if ctlBit s rTelCtl 0 then s else setReg s off (v &&& maskWord off))
  else if rHwObj ≤ off ∧ off < rHwObj + 16384 then writeHw off v s
  else if rRtRack ≤ off ∧ off < rRtRack + 4096 then writeRack ((off - rRtRack) / 4) v s
  else if rMsixTable ≤ off ∧ off < rMsixTable + 0x8000 then writeMsix off v s
  else setReg s off (v &&& maskWord off)

/-- A write to an RM register. -/
def writeRm (off : Nat) (v : Word) (s : State) : State :=
  if off = rImgCtl then writeImgCtl v s
  else if off = rSyncCtl then writeSyncCtl v s
  else if off = rTelCtl then writeTelCtl v s
  else setReg s off (maskedWord (reg s off) v (maskWord off))

/-- A write to an RS register: bits 31:24 are the sequence written back (R489). -/
def writeRs (off : Nat) (v : Word) (s : State) : State :=
  { s with rs := SMap.set {} s.rs off ((rsReg s off).clear (BitVec.ofNat 8 (fld v 31 24))) }

/-- A write to a WO register. -/
def writeWo (m : Master) (off : Nat) (v : Word) (s : State) : State :=
  if off = rReset then modResetEffect m v s
  else if off = rFabEpochCmd then epochCmd v s
  else s

/-- A write to a 32-bit register by its access type (R11). -/
def applyWrite (m : Master) (off : Nat) (v : Word) (s : State) : State :=
  match (regRow off).map RegRow.ty with
  | some .rw => writeRw off v s
  | some .rm => writeRm off v s
  | some .rs => writeRs off v s
  | some .wo => writeWo m off v s
  | _ => s

/-- Both halves of a 64-bit register take effect (R16). -/
def applyWide (off : Nat) (v : DWord) (s : State) : State :=
  match (regRow off).map RegRow.ty with
  | some .rw =>
    if rRtDim ≤ off ∧ off < rRtDim + 80 then writeDim ((off - rRtDim) / 8) v s
    else if off = rTelRingBase ∧ ctlBit s rTelCtl 0 then s
    else setReg64 s off (v &&& (maskWord (off + 4) ++ maskWord off))
  | _ => s

/-- The low half that a write of the high half at `off` takes: the one held for that register, else the current one. -/
def lowHalf (m : Master) (off : Nat) (s : State) : Word :=
  match (mport s m).held with
  | some (o, x) => if o = off - 4 then x else readWord s (off - 4)
  | none => readWord s (off - 4)

/-- The held half is used up when it belongs to the register at `off - 4`. -/
def dropHeld (m : Master) (off : Nat) (s : State) : State :=
  match (mport s m).held with
  | some (o, _) => if o = off - 4 then setMport s m { mport s m with held := none } else s
  | none => s

/-- A write of the high half. -/
def writeHigh (m : Master) (off : Nat) (v : Word) (s : State) : State :=
  applyWide (off - 4) (v ++ lowHalf m off s) (dropHeld m off s)

/-- A write of the low half is held. -/
def holdLow (m : Master) (off : Nat) (v : Word) (s : State) : State :=
  setMport s m { mport s m with held := some (off, v) }

/-- What a write to a register word does. -/
def writeEffect (m : Master) (off : Nat) (v : Word) (s : State) : State :=
  if isLowWord off then holdLow m off v s
  else if isHighWord off then writeHigh m off v s
  else applyWrite m off v s

/-- A write access. -/
def regWrite (m : Master) (off : Nat) (v : Word) (s : State) : State :=
  if wordOpen s off then writeEffect m off v (complete s m .sc []) else busErr s m

/-! ### Rows: registers -/

/-- REGISTER_WRITE. -/
def doRegisterWrite (m : Master) (off : Nat) (v : Word) (s : State) : State := byMaster m (regWrite m off v) s
/-- RS_CLEAR_WRITE. -/
def doRsClearWrite (m : Master) (off : Nat) (v : Word) (s : State) : State := byMaster m (regWrite m off v) s
/-- REG64_LOW_READ. -/
def doReg64LowRead (m : Master) (off : Nat) (s : State) : State := byMaster m (regRead m off) s
/-- REG64_LOW_WRITE. -/
def doReg64LowWrite (m : Master) (off : Nat) (v : Word) (s : State) : State := byMaster m (regWrite m off v) s
/-- REG64_HIGH_WRITE. -/
def doReg64HighWrite (m : Master) (off : Nat) (v : Word) (s : State) : State := byMaster m (regWrite m off v) s

/-- An access of `size` bytes at `off` is one that R488 permits, and both its words are there and open. -/
def accessOk (s : State) (off size : Nat) : Bool :=
  (decide (size = 4) && wordOpen s off) ||
  (decide (size = 8) && decide (off % 8 = 0) && wordOpen s off && wordOpen s (off + 4))

/-- BAR0_RESERVED_ACCESS. An 8-byte access acts as one to its low word and then one to its high word (R488), so a low word
that is there has been read before the high one fails. -/
def doBar0ReservedAccess (m : Master) (off size : Nat) (write : Bool) (s : State) : State :=
  byMaster m (fun s =>
    if accessOk s off size then s
    else if size = 8 ∧ off % 8 = 0 ∧ wordOpen s off = true ∧ write = false then busErr (readEffect m off s).2 m
    else busErr s m) s

/-- MOD_ELOG_POP. -/
def doModElogPop (m : Master) (s : State) : State := byMaster m (regRead m rElogPop) s
/-- SEC_LOG_POP. -/
def doSecLogPop (m : Master) (s : State) : State := byMaster m (regRead m rSecLogPop) s
/-- SEC_AUTH_FAIL_READ. -/
def doSecAuthFailRead (m : Master) (s : State) : State := byMaster m (regRead m rSecAuthFail) s

/-- HW_SLOT_ARM. -/
def doHwSlotArm (n : Fin 1024) (v : Word) (s : State) : State := hostMem (regWrite .host (rHwObj + 16 * n.val) v) s
/-- HW_SLOT_DISARM. -/
def doHwSlotDisarm (n : Fin 1024) (v : Word) (s : State) : State := hostMem (regWrite .host (rHwObj + 16 * n.val) v) s
/-- SYNC_HW_DISABLE. -/
def doSyncHwDisable (v : Word) (s : State) : State := hostMem (regWrite .host rSyncCtl v) s

/-- The word of FAB_EPOCH_CMD for a command: CMD in bits 7:4, ARG in bit 0. -/
def epochWord (cmd : Nat) (arg : BitVec 24) : Word := w32 (cmd * 16 + fld arg 0 0)

/-- A routing epoch command from the host. -/
def hostEpoch (cmd : Nat) (arg : BitVec 24) (s : State) : State := hostMem (regWrite .host rFabEpochCmd (epochWord cmd arg)) s

/-! ### BAR2 (R479 to R481) -/

/-- The module address of a BAR2 offset and whether its segment permits writes; none where the segment is disabled. -/
def segAddr (s : State) (off : Nat) : Option (Nat × Bool) :=
  let v := hostSeg s (off / 2 ^ segBits s)
  if bitAt v 0 then some ((v.toNat / 2 ^ 24) * 2 ^ 24 + off % 2 ^ segBits s, bitAt v 1) else none

/-- The offset lies in the BAR. -/
def inBar2 (s : State) (off : Nat) : Bool := decide (off / 2 ^ segBits s < 64)

/-- A TLP that crosses a 4 KiB boundary, is empty or is longer than `max` bytes is malformed. -/
def malformed (off len max : Nat) : Bool := decide (len = 0) || decide (max < len) || decide (4096 < off % 4096 + len)

/-- A malformed TLP: fatal, and discarded. -/
def malformedTlp (s : State) : State := emit s (.aer "malformed TLP")

/-- The range touches a stack in EMERGENCY. -/
def inEmergency (s : State) (a len : Nat) : Bool := (gransOf s.mem a len).any fun x => s.mem.st[granStack x.1].emergency

/-- A write through BAR2. -/
def bar2WriteAt (s : State) (off : Nat) (data : List Byte) : State :=
  match segAddr s off with
  | some (a, true) =>
    if inImage s a data.length then busErr s .host
    else match memWrite s a data with
      | some (false, s) => complete s .host .sc []
      | _ => busErr s .host
  | _ => busErr s .host

/-- BAR2_WRITE. -/
def doBar2Write (off : Nat) (data : List Byte) (ep : Bool) (s : State) : State :=
  hostMem (fun s =>
    if malformed off data.length 512 then malformedTlp s
    else if !inBar2 s off then complete (emit s (.aer "unsupported request")) .host .ur []
    else if ep then emit s (.aer "poisoned TLP received")
    else bar2WriteAt s off data) s

/-- A read through BAR2. -/
def bar2ReadAt (s : State) (off len : Nat) : State :=
  match segAddr s off with
  | none => busErr s .host
  | some (a, _) =>
    if inEmergency s a len then busErr s .host
    else match memRead s a len with
      | none => busErr s .host
      | some (r, s) =>
        if r.bad then complete (emit s (.aer "poisoned TLP egress")) .host .ep r.data
        else complete s .host .sc r.data

/-- BAR2_READ. Every earlier write has taken effect: the commands run in order (R480). -/
def doBar2Read (off len : Nat) (s : State) : State :=
  hostMem (fun s =>
    if malformed off len 4096 then malformedTlp s
    else if !inBar2 s off then complete (emit s (.aer "unsupported request")) .host .ur []
    else bar2ReadAt s off len) s

/-- ENABLE of segment `i` clears. -/
def disableSeg (s : State) (i : Nat) : State := setReg s (rHostSeg + 8 * i) (reg s (rHostSeg + 8 * i) &&& ~~~1)

/-- Configuration requests are served: until CLOCKS has ended they are answered with retry status (R420). -/
def cfgServed (run : State → State) (s : State) : State := if earlyOpen s then run s else s

/-- BAR2_RESIZE: size 0 is 1 GiB and 6 is 64 GiB. A write of the size in force changes nothing. -/
def doBar2Resize (size : Fin 7) (s : State) : State :=
  cfgServed (fun s =>
    if s.host.barSize = size.val then s
    else (List.range 64).foldl disableSeg { s with host := { s.host with barSize := size.val } }) s

/-! ### Power states, the link and messages -/

/-- D3HOT_ENTER. -/
def doD3hotEnter (s : State) : State := cfgServed (fun s => { s with host := { s.host with d3hot := true } }) s
/-- D0_RETURN: the messages held leave. -/
def doD0Return (s : State) : State := cfgServed (fun s => sendAllPending { s with host := { s.host with d3hot := false } }) s

/-- BUS_MASTER_ENABLE: when it is set, held messages and a held export go on (R482). -/
def doBusMasterEnable (en : Bool) (s : State) : State :=
  cfgServed (fun s =>
    let s := { s with host := { s.host with busMaster := en } }
    if en then maqExport (sendAllPending s) else s) s

/-- MSIX_UNMASK: a configuration write clears the function mask, or a host write clears the mask of one vector. -/
def doMsixUnmask (v : Option (Fin 2048)) (s : State) : State :=
  match v with
  | none => cfgServed (fun s => sendAllPending { s with host := { s.host with funcMask := false } }) s
  | some v => hostMem (regWrite .host (rMsixTable + 16 * v.val + 12) 0) s

/-- MSIX_WINDOW_END: a coalescing window ends; an event within it sends one more message and opens a new window. -/
def doMsixWindowEnd (v : Fin 16) (pldm : Bool) (s : State) : State :=
  if pldm then
    match s.host.pldmWin[v] with
    | none => s
    | some w =>
      let s := advanceTo w.ends s
      let s := { s with host := { s.host with pldmWin := s.host.pldmWin.set v none } }
      if w.event then pldmEventOf s v else s
  else
    match s.host.win[v] with
    | none => s
    | some w =>
      let s := advanceTo w.ends s
      let s := { s with host := { s.host with win := s.host.win.set v none } }
      if w.event then moduleEvent s v else s

/-- PCIE_LINK_UP: the endpoint is enabled once the firmware runs (R418). DESIGN CHOICE: Memory Space Enable is set with the
link, since no command carries the host's configuration of it. -/
def doPcieLinkUp (s : State) : State :=
  if !passed s stRom ∨ s.start.fin = .romRecovery ∨ s.host.linkUp = true then s
  else restartExport { s with host := { s.host with perst := false, linkUp := true, memSpace := true } }

end Sys2Proof.Machine
end

