-- ==== Sys2Proof/Machine/VecDesc.lean ====
section
/-! DEFINITION. Machine/VecDesc.lean: VECTOR descriptors (R139, R186): starting a program in a context, and the passes of
the update that the rule library runs (R268, R270). -/
namespace Sys2Proof.Machine
open Sys2Proof

/-- ENTRY of a vector program descriptor. -/
def vEntry (w : BitVec 512) : Nat := dfld w 0xC 2

/-- PARAM0 to PARAM5. -/
def vParams (w : BitVec 512) : List DWord := (List.range 6).map fun i => w64 (dfld w (0x10 + 8 * i) 8)

/-- The state of a context when a program starts in it (R139). -/
def startCtx (w : BitVec 512) (id : Nat) (y : VCtx) : VCtx :=
  { y with running := true, pc := vEntry w, vl := 2048, sregs := [], loops := [], layer := dLayer w, params := vParams w,
           loadUe := false, id := id, waitTq := false, faulted := false }

/-- A program of the rule library starts in its context (R137, R139). Its instructions are not given: how many it issues
is free. -/
def startPass (d : Die) (c : Sid) (w : BitVec 512) (s : State) : State :=
  let (i, s) := drawFree (updCtx s d c (startCtx w (str s d c).nextId))
  addReg64 s (cdWin d.val + rVecInstr) (Config.freeWord i).toNat

/-- A program of the rule library met an error on a load: LOAD_UE, and at its END the fault of its descriptor (R168).
Which of its instructions met it, and at which address, is free. -/
def passFault (d : Die) (c : Sid) (w : BitVec 512) (s : State) : State :=
  let (i, s) := drawFree s
  let (j, s) := drawFree s
  let (k, s) := drawFree s
  let s := setReg s (cdWin d.val + rVecErrInfo) (w32 (sidNat c * 2 ^ 30 + fld (Config.freeWord i) 29 7 * 2 ^ 7))
  let s := setReg64 s (cdWin d.val + rVecErrAddr) (Config.freeWord j ++ Config.freeWord k)
  let s := updCtx (rsEvent s (cdWin d.val + rVecErr) 4) d c fun x => { x with running := false, faulted := true }
  curFault s d c fUnit w

/-- A program of the rule library reaches END: its context is free and the descriptor completes. -/
def passEnd (d : Die) (c : Sid) (w : BitVec 512) (s : State) : State :=
  passOver (updCtx s d c fun x => { x with running := false }) d c w

/-- Pass 1 of the descriptor's LAYER on this die. -/
def runPass1 (d : Die) (c : Sid) (w : BitVec 512) (s : State) : State :=
  let (bad, s) := pass1 d (dLayer w).toNat (startPass d c w s)
  if bad then passFault d c w s else passEnd d c w s

/-- Phase 1 of the LAYER's matrices in several shards, which the descriptor's program begins with; it then waits for phase 2
to end. -/
def runShards (d : Die) (c : Sid) (w : BitVec 512) (s : State) : State :=
  match s.upd.p2 with
  | none => s
  | some q =>
    let (bad, s) := nsBegin q (dLayer w).toNat s
    if bad then passFault d c w s else waitUnit s d c false

/-- Pass 2 of the descriptor's LAYER on this die: it waits for the layer's Maquette copy. -/
def runPass2 (d : Die) (c : Sid) (w : BitVec 512) (s : State) : State :=
  if maqFence s (dLayer w).toNat then waitUnit (rsEvent s rStepStat 6) d c false
  else if nsWaits s (dLayer w).toNat ∧ inPass2 s then runShards d c w s
  else
    let (bad, s) := pass2 d (dLayer w).toNat (startPass d c w s)
    if bad then passFault d c w s else passEnd d c w s

/-- A VECTOR issues once its context runs no program (R137): a program of the rule library, which acts whole, or a program
started in the context. -/
def runVector (d : Die) (c : Sid) (w : BitVec 512) (s : State) : State :=
  let p := params s
  if (vctx s d c).running then waitUnit s d c false
  else if c = .u ∧ (p.bind (·.rulePass1)) = some (vEntry w) then runPass1 d c w s
  else if c = .u ∧ (p.bind (·.rulePass2)) = some (vEntry w) then runPass2 d c w s
  else
    let e := entryOf (str s d c) .vector w
    startDesc (updCtx s d c (startCtx w e.id)) d c e

/-- VECTOR. -/
def doVector (d : Die) (c : Sid) (s : State) : State := issueAs tVector (fun _ => true) (runVector d c) d c s

end Sys2Proof.Machine
end

