-- ==== Sys2Proof/Machine/Vector.lean ====
section
/-! DEFINITION. Machine/Vector.lean: one meaning for each vector instruction of R150. -/
namespace Sys2Proof.Machine
open Sys2Proof

/-- NOP, 0x00: nothing. -/
def execNop (v : VIns) (s : State) : Host.Outcome State Fault Refusal :=
  .next (vecRun 0x00 v (scIll v) false (fun s => vecStep s v id) s)

/-- END, 0x01: the program ends (R162). -/
def execEndProg (v : VIns) (s : State) : Host.Outcome State Fault Refusal :=
  .next (vecRun 0x01 v (scIll v) false (vecEnd v) s)

/-- LOOP, 0x02: the body runs sa times. -/
def execLoop (v : VIns) (s : State) : Host.Outcome State Fault Refusal :=
  .next (vecRun 0x02 v (scIll v) false (vecLoop 0x02 v fun x => (x.sreg v.ra).toNat) s)

/-- LOOPI, 0x03: the body runs IMM times. -/
def execLoopi (v : VIns) (s : State) : Host.Outcome State Fault Refusal :=
  .next (vecRun 0x03 v (scIll v) false (vecLoop 0x03 v fun _ => v.imm.toNat) s)

/-- ENDLOOP, 0x04: the end of a loop body. -/
def execEndloop (v : VIns) (s : State) : Host.Outcome State Fault Refusal :=
  .next (vecRun 0x04 v (scIll v) false (vecEndLoop v) s)

/-- SETVL, 0x05 (R145): VL becomes the smallest of sa, 2,048 and IMM, and sd takes the rest. -/
def execSetvl (v : VIns) (s : State) : Host.Outcome State Fault Refusal :=
  .next (vecRun 0x05 v (scIll v) false (fun s => vecStep s v fun x =>
    let n := min (x.sreg v.ra).toNat (min 2048 (if v.imm = 0 then 2048 else v.imm.toNat))
    { x.setS v.rd (x.sreg v.ra - w64 n) with vl := n }) s)

/-- SPARAM, 0x06: sd = descriptor parameter IMM. -/
def execSparam (v : VIns) (s : State) : Host.Outcome State Fault Refusal :=
  .next (vecScalar 0x06 v (decide (5 < v.imm.toNat)) (fun x => x.params.getD v.imm.toNat 0) s)

/-- SLI, 0x08: sd = sign-extended IMM. -/
def execSli (v : VIns) (s : State) : Host.Outcome State Fault Refusal :=
  .next (vecScalar 0x08 v false (fun _ => simm v) s)

/-- SLIH, 0x09: the high half of sd = IMM. -/
def execSlih (v : VIns) (s : State) : Host.Outcome State Fault Refusal :=
  .next (vecScalar 0x09 v false (fun x => v.imm ++ (x.sreg v.rd).setWidth 32) s)

/-- SADD, 0x0A. -/
def execSadd (v : VIns) (s : State) : Host.Outcome State Fault Refusal :=
  .next (vecScalar 0x0A v false (fun x => x.sreg v.ra + x.sreg v.rb) s)

/-- SADDI, 0x0B. -/
def execSaddi (v : VIns) (s : State) : Host.Outcome State Fault Refusal :=
  .next (vecScalar 0x0B v false (fun x => x.sreg v.ra + simm v) s)

/-- SSUB, 0x0C. -/
def execSsub (v : VIns) (s : State) : Host.Outcome State Fault Refusal :=
  .next (vecScalar 0x0C v false (fun x => x.sreg v.ra - x.sreg v.rb) s)

/-- SMULI, 0x0D. -/
def execSmuli (v : VIns) (s : State) : Host.Outcome State Fault Refusal :=
  .next (vecScalar 0x0D v false (fun x => x.sreg v.ra * simm v) s)

/-- SSHLI, 0x0E. -/
def execSshli (v : VIns) (s : State) : Host.Outcome State Fault Refusal :=
  .next (vecScalar 0x0E v false (fun x => x.sreg v.ra <<< fld v.imm 5 0) s)

/-- SSHRI, 0x0F. -/
def execSshri (v : VIns) (s : State) : Host.Outcome State Fault Refusal :=
  .next (vecScalar 0x0F v false (fun x => x.sreg v.ra >>> fld v.imm 5 0) s)

/-- TQPOP, 0x18 (R164). -/
def execTqpop (v : VIns) (s : State) : Host.Outcome State Fault Refusal :=
  .next (vecRun 0x18 v (scIll v || decide (v.ctx = .t) || decide (fld v.imm 17 16 = 3)) false (vecPop v) s)

/-- TQREL, 0x19 (R165). -/
def execTqrel (v : VIns) (s : State) : Host.Outcome State Fault Refusal :=
  .next (vecRun 0x19 v (scIll v || decide (v.ctx = .t)) false (vecRel v) s)

/-- VGUARD, 0x1A (R166). -/
def execVguard (v : VIns) (s : State) : Host.Outcome State Fault Refusal :=
  .next (vecVguard v s)

/-- VUNSC, 0x1B (R166). -/
def execVunsc (v : VIns) (s : State) : Host.Outcome State Fault Refusal :=
  .next (vecVunsc v s)

/-- VADD, 0x20. -/
def execVadd (v : VIns) (s : State) : Host.Outcome State Fault Refusal :=
  .next (vecBin 0x20 fadd v s)

/-- VADDI, 0x21. -/
def execVaddi (v : VIns) (s : State) : Host.Outcome State Fault Refusal :=
  .next (vecBinI 0x21 fadd v s)

/-- VSUB, 0x22. -/
def execVsub (v : VIns) (s : State) : Host.Outcome State Fault Refusal :=
  .next (vecBin 0x22 fsub v s)

/-- VSUBI, 0x23. -/
def execVsubi (v : VIns) (s : State) : Host.Outcome State Fault Refusal :=
  .next (vecBinI 0x23 fsub v s)

/-- VMUL, 0x24. -/
def execVmul (v : VIns) (s : State) : Host.Outcome State Fault Refusal :=
  .next (vecBin 0x24 fmul v s)

/-- VMULI, 0x25. -/
def execVmuli (v : VIns) (s : State) : Host.Outcome State Fault Refusal :=
  .next (vecBinI 0x25 fmul v s)

/-- VMAX, 0x26. -/
def execVmax (v : VIns) (s : State) : Host.Outcome State Fault Refusal :=
  .next (vecBin 0x26 fmax v s)

/-- VMAXI, 0x27. -/
def execVmaxi (v : VIns) (s : State) : Host.Outcome State Fault Refusal :=
  .next (vecBinI 0x27 fmax v s)

/-- VMIN, 0x28. -/
def execVmin (v : VIns) (s : State) : Host.Outcome State Fault Refusal :=
  .next (vecBin 0x28 fmin v s)

/-- VMINI, 0x29. -/
def execVmini (v : VIns) (s : State) : Host.Outcome State Fault Refusal :=
  .next (vecBinI 0x29 fmin v s)

/-- VFMA, 0x2A. -/
def execVfma (v : VIns) (s : State) : Host.Outcome State Fault Refusal :=
  .next (vecTri 0x2A ffma v s)

/-- VFMAI, 0x2B. -/
def execVfmai (v : VIns) (s : State) : Host.Outcome State Fault Refusal :=
  .next (vecTriI 0x2B ffma v s)

/-- VFMS, 0x2C. -/
def execVfms (v : VIns) (s : State) : Host.Outcome State Fault Refusal :=
  .next (vecTri 0x2C ffms v s)

/-- VFMSI, 0x2D. -/
def execVfmsi (v : VIns) (s : State) : Host.Outcome State Fault Refusal :=
  .next (vecTriI 0x2D ffms v s)

/-- VFNMA, 0x2E. -/
def execVfnma (v : VIns) (s : State) : Host.Outcome State Fault Refusal :=
  .next (vecTri 0x2E ffnma v s)

/-- VFNMAI, 0x2F. -/
def execVfnmai (v : VIns) (s : State) : Host.Outcome State Fault Refusal :=
  .next (vecTriI 0x2F ffnma v s)

/-- VABS, 0x30. -/
def execVabs (v : VIns) (s : State) : Host.Outcome State Fault Refusal :=
  .next (vecUn 0x30 fabs v s)

/-- VNEG, 0x31. -/
def execVneg (v : VIns) (s : State) : Host.Outcome State Fault Refusal :=
  .next (vecUn 0x31 fneg v s)

/-- VMOV, 0x32. -/
def execVmov (v : VIns) (s : State) : Host.Outcome State Fault Refusal :=
  .next (vecUn 0x32 id v s)

/-- VMOVI, 0x33. -/
def execVmovi (v : VIns) (s : State) : Host.Outcome State Fault Refusal :=
  .next (vecGen 0x33 (fun _ => v.imm) v s)

/-- VRNDF, 0x34 (R154). -/
def execVrndf (v : VIns) (s : State) : Host.Outcome State Fault Refusal :=
  .next (vecConv 0x34 (rndFmtBad v.fmt) (rndF v.fmt v.sat) v s)

/-- VCVTIF, 0x35. -/
def execVcvtif (v : VIns) (s : State) : Host.Outcome State Fault Refusal :=
  .next (vecUn 0x35 cvtIF v s)

/-- VCVTFI, 0x36 (R154). -/
def execVcvtfi (v : VIns) (s : State) : Host.Outcome State Fault Refusal :=
  .next (vecConv 0x36 false cvtFI v s)

/-- VBCAST, 0x37. -/
def execVbcast (v : VIns) (s : State) : Host.Outcome State Fault Refusal :=
  .next (vecWhole 0x37 (fun x _ => x.lane v.ra 0) v s)

/-- VEXP2, 0x38 (R157). -/
def execVexp2 (v : VIns) (s : State) : Host.Outcome State Fault Refusal :=
  .next (vecUn 0x38 fexp2 v s)

/-- VLOG2, 0x39 (R157). -/
def execVlog2 (v : VIns) (s : State) : Host.Outcome State Fault Refusal :=
  .next (vecUn 0x39 flog2 v s)

/-- VRCP, 0x3A (R157). -/
def execVrcp (v : VIns) (s : State) : Host.Outcome State Fault Refusal :=
  .next (vecUn 0x3A frcp v s)

/-- VRSQRT, 0x3B (R157). -/
def execVrsqrt (v : VIns) (s : State) : Host.Outcome State Fault Refusal :=
  .next (vecUn 0x3B frsqrt v s)

/-- VSQRT, 0x3C (R157). -/
def execVsqrt (v : VIns) (s : State) : Host.Outcome State Fault Refusal :=
  .next (vecUn 0x3C fsqrt v s)

/-- VDIV, 0x3D (R157). -/
def execVdiv (v : VIns) (s : State) : Host.Outcome State Fault Refusal :=
  .next (vecBin 0x3D fdiv v s)

/-- VTANH, 0x3E (R157). -/
def execVtanh (v : VIns) (s : State) : Host.Outcome State Fault Refusal :=
  .next (vecUn 0x3E ftanh v s)

/-- VIADD, 0x40. -/
def execViadd (v : VIns) (s : State) : Host.Outcome State Fault Refusal :=
  .next (vecBin 0x40 (· + ·) v s)

/-- VIADDI, 0x41. -/
def execViaddi (v : VIns) (s : State) : Host.Outcome State Fault Refusal :=
  .next (vecBinI 0x41 (· + ·) v s)

/-- VISUB, 0x42. -/
def execVisub (v : VIns) (s : State) : Host.Outcome State Fault Refusal :=
  .next (vecBin 0x42 (· - ·) v s)

/-- VISUBI, 0x43. -/
def execVisubi (v : VIns) (s : State) : Host.Outcome State Fault Refusal :=
  .next (vecBinI 0x43 (· - ·) v s)

/-- VIMUL, 0x44. -/
def execVimul (v : VIns) (s : State) : Host.Outcome State Fault Refusal :=
  .next (vecBin 0x44 (· * ·) v s)

/-- VIMULI, 0x45. -/
def execVimuli (v : VIns) (s : State) : Host.Outcome State Fault Refusal :=
  .next (vecBinI 0x45 (· * ·) v s)

/-- VAND, 0x46. -/
def execVand (v : VIns) (s : State) : Host.Outcome State Fault Refusal :=
  .next (vecBin 0x46 (· &&& ·) v s)

/-- VANDI, 0x47. -/
def execVandi (v : VIns) (s : State) : Host.Outcome State Fault Refusal :=
  .next (vecBinI 0x47 (· &&& ·) v s)

/-- VOR, 0x48. -/
def execVor (v : VIns) (s : State) : Host.Outcome State Fault Refusal :=
  .next (vecBin 0x48 (· ||| ·) v s)

/-- VORI, 0x49. -/
def execVori (v : VIns) (s : State) : Host.Outcome State Fault Refusal :=
  .next (vecBinI 0x49 (· ||| ·) v s)

/-- VXOR, 0x4A. -/
def execVxor (v : VIns) (s : State) : Host.Outcome State Fault Refusal :=
  .next (vecBin 0x4A (· ^^^ ·) v s)

/-- VXORI, 0x4B. -/
def execVxori (v : VIns) (s : State) : Host.Outcome State Fault Refusal :=
  .next (vecBinI 0x4B (· ^^^ ·) v s)

/-- VSHL, 0x4C. -/
def execVshl (v : VIns) (s : State) : Host.Outcome State Fault Refusal :=
  .next (vecBin 0x4C ishl v s)

/-- VSHLI, 0x4D. -/
def execVshli (v : VIns) (s : State) : Host.Outcome State Fault Refusal :=
  .next (vecBinI 0x4D ishl v s)

/-- VSHR, 0x4E. -/
def execVshr (v : VIns) (s : State) : Host.Outcome State Fault Refusal :=
  .next (vecBin 0x4E ishr v s)

/-- VSHRI, 0x4F. -/
def execVshri (v : VIns) (s : State) : Host.Outcome State Fault Refusal :=
  .next (vecBinI 0x4F ishr v s)

/-- VSRA, 0x50. -/
def execVsra (v : VIns) (s : State) : Host.Outcome State Fault Refusal :=
  .next (vecBin 0x50 isra v s)

/-- VSRAI, 0x51. -/
def execVsrai (v : VIns) (s : State) : Host.Outcome State Fault Refusal :=
  .next (vecBinI 0x51 isra v s)

/-- VIDX, 0x52. -/
def execVidx (v : VIns) (s : State) : Host.Outcome State Fault Refusal :=
  .next (vecGen 0x52 w32 v s)

/-- VSLIDE, 0x53. -/
def execVslide (v : VIns) (s : State) : Host.Outcome State Fault Refusal :=
  .next (vecWhole 0x53 (slideLane v) v s)

/-- VCMPEQ, 0x58. -/
def execVcmpeq (v : VIns) (s : State) : Host.Outcome State Fault Refusal :=
  .next (vecCmp 0x58 feq v s)

/-- VCMPEQI, 0x59. -/
def execVcmpeqi (v : VIns) (s : State) : Host.Outcome State Fault Refusal :=
  .next (vecCmpI 0x59 feq v s)

/-- VCMPLT, 0x5A. -/
def execVcmplt (v : VIns) (s : State) : Host.Outcome State Fault Refusal :=
  .next (vecCmp 0x5A flt v s)

/-- VCMPLTI, 0x5B. -/
def execVcmplti (v : VIns) (s : State) : Host.Outcome State Fault Refusal :=
  .next (vecCmpI 0x5B flt v s)

/-- VCMPLE, 0x5C. -/
def execVcmple (v : VIns) (s : State) : Host.Outcome State Fault Refusal :=
  .next (vecCmp 0x5C fle v s)

/-- VCMPLEI, 0x5D. -/
def execVcmplei (v : VIns) (s : State) : Host.Outcome State Fault Refusal :=
  .next (vecCmpI 0x5D fle v s)

/-- VCMPUN, 0x5E. -/
def execVcmpun (v : VIns) (s : State) : Host.Outcome State Fault Refusal :=
  .next (vecCmp 0x5E funord v s)

/-- VICMPEQ, 0x60. -/
def execVicmpeq (v : VIns) (s : State) : Host.Outcome State Fault Refusal :=
  .next (vecCmp 0x60 ieq v s)

/-- VICMPEQI, 0x61. -/
def execVicmpeqi (v : VIns) (s : State) : Host.Outcome State Fault Refusal :=
  .next (vecCmpI 0x61 ieq v s)

/-- VICMPLT, 0x62. -/
def execVicmplt (v : VIns) (s : State) : Host.Outcome State Fault Refusal :=
  .next (vecCmp 0x62 ilt v s)

/-- VICMPLTI, 0x63. -/
def execVicmplti (v : VIns) (s : State) : Host.Outcome State Fault Refusal :=
  .next (vecCmpI 0x63 ilt v s)

/-- MAND, 0x68. -/
def execMand (v : VIns) (s : State) : Host.Outcome State Fault Refusal :=
  .next (vecMask 0x68 (· && ·) v s)

/-- MOR, 0x69. -/
def execMor (v : VIns) (s : State) : Host.Outcome State Fault Refusal :=
  .next (vecMask 0x69 (· || ·) v s)

/-- MXOR, 0x6A. -/
def execMxor (v : VIns) (s : State) : Host.Outcome State Fault Refusal :=
  .next (vecMask 0x6A (· != ·) v s)

/-- MANDN, 0x6B. -/
def execMandn (v : VIns) (s : State) : Host.Outcome State Fault Refusal :=
  .next (vecMask 0x6B (fun a b => a && !b) v s)

/-- VCPOP, 0x70. -/
def execVcpop (v : VIns) (s : State) : Host.Outcome State Fault Refusal :=
  .next (vecCpop v s)

/-- VIOTA, 0x71. -/
def execViota (v : VIns) (s : State) : Host.Outcome State Fault Refusal :=
  .next (vecIota v s)

/-- VRANK, 0x72. -/
def execVrank (v : VIns) (s : State) : Host.Outcome State Fault Refusal :=
  .next (vecWhole 0x72 (rankLane v) v s)

/-- VRSUM, 0x78 (R156). -/
def execVrsum (v : VIns) (s : State) : Host.Outcome State Fault Refusal :=
  .next (vecRed 0x78 (fun x => (treeSum x v, none)) v s)

/-- VRSUMP, 0x79 (R156). -/
def execVrsump (v : VIns) (s : State) : Host.Outcome State Fault Refusal :=
  .next (vecRed 0x79 (fun x => let p := treePair x v fun w => (w, 0); (p.1, some p.2)) v s)

/-- VRSSQP, 0x7A (R156). -/
def execVrssqp (v : VIns) (s : State) : Host.Outcome State Fault Refusal :=
  .next (vecRed 0x7A (fun x => let p := treePair x v fun w => pairOf ((dec32 w).mul (dec32 w)); (p.1, some p.2)) v s)

/-- VRMAX, 0x7B (R156). -/
def execVrmax (v : VIns) (s : State) : Host.Outcome State Fault Refusal :=
  .next (vecRed 0x7B (fun x => (redMax v x, none)) v s)

/-- VRMIN, 0x7C (R156). -/
def execVrmin (v : VIns) (s : State) : Host.Outcome State Fault Refusal :=
  .next (vecRed 0x7C (fun x => (redMin v x, none)) v s)

/-- VRMAXI, 0x7D (R156). -/
def execVrmaxi (v : VIns) (s : State) : Host.Outcome State Fault Refusal :=
  .next (vecRed 0x7D (fun x => (redMax v x, some (redMaxIdx v x))) v s)

/-- VPADD, 0x80 (R155). -/
def execVpadd (v : VIns) (s : State) : Host.Outcome State Fault Refusal :=
  .next (vecPadd v s)

/-- VPNORM, 0x81 (R155). -/
def execVpnorm (v : VIns) (s : State) : Host.Outcome State Fault Refusal :=
  .next (vecPnorm v s)

/-- VDADD, 0x84 (R155). -/
def execVdadd (v : VIns) (s : State) : Host.Outcome State Fault Refusal :=
  .next (vecD2 0x84 dadd v s)

/-- VDMUL, 0x85 (R155). -/
def execVdmul (v : VIns) (s : State) : Host.Outcome State Fault Refusal :=
  .next (vecD2 0x85 dmul v s)

/-- VDFMA, 0x86 (R155). -/
def execVdfma (v : VIns) (s : State) : Host.Outcome State Fault Refusal :=
  .next (vecDfma v s)

/-- VCVTDF, 0x87 (R155). -/
def execVcvtdf (v : VIns) (s : State) : Host.Outcome State Fault Refusal :=
  .next (vecCvtDF v s)

/-- VCVTFD, 0x88 (R155). -/
def execVcvtfd (v : VIns) (s : State) : Host.Outcome State Fault Refusal :=
  .next (vecCvtFD v s)

/-- VLD, 0x90: unit stride. -/
def execVld (v : VIns) (s : State) : Host.Outcome State Fault Refusal :=
  .next (vecLoad 0x90 fmtKnown false addrUnit v s)

/-- VLDS, 0x91: strided. -/
def execVlds (v : VIns) (s : State) : Host.Outcome State Fault Refusal :=
  .next (vecLoad 0x91 plainFmt false addrStride v s)

/-- VLDX, 0x92: element gather. -/
def execVldx (v : VIns) (s : State) : Host.Outcome State Fault Refusal :=
  .next (vecLoad 0x92 plainFmt true addrIndex v s)

/-- VLDRI, 0x93: row indexed. -/
def execVldri (v : VIns) (s : State) : Host.Outcome State Fault Refusal :=
  .next (vecRow 0x93 v (fun x j => runLoad 0x93 v false true (List.range x.vl) (addrRow x v j)) s)

/-- VST, 0x98: unit stride. -/
def execVst (v : VIns) (s : State) : Host.Outcome State Fault Refusal :=
  .next (vecStore 0x98 fmtKnown false addrUnit v s)

/-- VSTS, 0x99: strided. -/
def execVsts (v : VIns) (s : State) : Host.Outcome State Fault Refusal :=
  .next (vecStore 0x99 plainFmt false addrStride v s)

/-- VSTX, 0x9A: element scatter. -/
def execVstx (v : VIns) (s : State) : Host.Outcome State Fault Refusal :=
  .next (vecStore 0x9A plainFmt true addrIndex v s)

/-- VSTRI, 0x9B: row indexed. -/
def execVstri (v : VIns) (s : State) : Host.Outcome State Fault Refusal :=
  .next (vecRow 0x9B v (fun x j => runStore 0x9B v false (List.range x.vl) (addrRow x v j)) s)

/-- VSTXA, 0x9C: element scatter-add. -/
def execVstxa (v : VIns) (s : State) : Host.Outcome State Fault Refusal :=
  .next (vecScatterAdd v s)

/-- VADDRI, 0x9D: row-indexed add. -/
def execVaddri (v : VIns) (s : State) : Host.Outcome State Fault Refusal :=
  .next (vecRow 0x9D v (fun x j => runAdd 0x9D v false (List.range x.vl) (addrRow x v j)) s)

end Sys2Proof.Machine
end

