-- ==== Sys2Proof/Machine/Meanings.lean ====
section
/-! DEFINITION. Machine/Meanings.lean: the meaning of each command but the vector instructions, in the order of the opcode table.
Each is total and answers a next state; what it does stands in the file of its unit. -/
namespace Sys2Proof.Machine
open Sys2Proof

/-- REGISTER_WRITE (R11). -/
def execRegisterWrite (m : Master) (off : BitVec 26) (v : Word) (s : State) : Host.Outcome State Fault Refusal :=
  .next (doRegisterWrite m off.toNat v s)

/-- RS_CLEAR_WRITE (R489). -/
def execRsClearWrite (m : Master) (off : BitVec 26) (v : Word) (s : State) : Host.Outcome State Fault Refusal :=
  .next (doRsClearWrite m off.toNat v s)

/-- REG64_LOW_READ (R16). -/
def execReg64LowRead (m : Master) (off : BitVec 26) (s : State) : Host.Outcome State Fault Refusal :=
  .next (doReg64LowRead m off.toNat s)

/-- REG64_LOW_WRITE (R16). -/
def execReg64LowWrite (m : Master) (off : BitVec 26) (v : Word) (s : State) : Host.Outcome State Fault Refusal :=
  .next (doReg64LowWrite m off.toNat v s)

/-- REG64_HIGH_WRITE (R16). -/
def execReg64HighWrite (m : Master) (off : BitVec 26) (v : Word) (s : State) : Host.Outcome State Fault Refusal :=
  .next (doReg64HighWrite m off.toNat v s)

/-- BAR0_RESERVED_ACCESS (R15). -/
def execBar0ReservedAccess (m : Master) (off : BitVec 26) (size : Nat) (write : Bool) (s : State) : Host.Outcome State Fault Refusal :=
  .next (doBar0ReservedAccess m off.toNat size write s)

/-- MOD_ELOG_POP (R490). -/
def execModElogPop (m : Master) (s : State) : Host.Outcome State Fault Refusal :=
  .next (doModElogPop m s)

/-- SEC_LOG_POP (R490). -/
def execSecLogPop (m : Master) (s : State) : Host.Outcome State Fault Refusal :=
  .next (doSecLogPop m s)

/-- SEC_AUTH_FAIL_READ (R504). -/
def execSecAuthFailRead (m : Master) (s : State) : Host.Outcome State Fault Refusal :=
  .next (doSecAuthFailRead m s)

/-- BAR2_WRITE (R479). -/
def execBar2Write (off : BitVec 36) (data : List Byte) (ep : Bool) (s : State) : Host.Outcome State Fault Refusal :=
  .next (doBar2Write off.toNat data ep s)

/-- BAR2_READ (R480). -/
def execBar2Read (off : BitVec 36) (len : Nat) (s : State) : Host.Outcome State Fault Refusal :=
  .next (doBar2Read off.toNat len s)

/-- BAR2_RESIZE (R479). -/
def execBar2Resize (size : Fin 7) (s : State) : Host.Outcome State Fault Refusal :=
  .next (doBar2Resize size s)

/-- OBJ_SIGNAL (R227). -/
def execObjSignal (idx : Fin 32768) (v : Word) (s : State) : Host.Outcome State Fault Refusal :=
  .next (hostMem (doObjSignal idx v) s)

/-- OBJ_DEC (R214). -/
def execObjDec (idx : Fin 32768) (v : Word) (s : State) : Host.Outcome State Fault Refusal :=
  .next (hostMem (doObjDec idx v) s)

/-- OBJ_REARM (R227). -/
def execObjRearm (idx : Fin 32768) (v : Word) (s : State) : Host.Outcome State Fault Refusal :=
  .next (hostMem (doObjRearm idx v) s)

/-- HW_SLOT_ARM (R230). -/
def execHwSlotArm (n : Fin 1024) (v : Word) (s : State) : Host.Outcome State Fault Refusal :=
  .next (doHwSlotArm n v s)

/-- HW_SLOT_DISARM (R231). -/
def execHwSlotDisarm (n : Fin 1024) (v : Word) (s : State) : Host.Outcome State Fault Refusal :=
  .next (doHwSlotDisarm n v s)

/-- SYNC_HW_DISABLE (R231). -/
def execSyncHwDisable (v : Word) (s : State) : Host.Outcome State Fault Refusal :=
  .next (doSyncHwDisable v s)

/-- WAITER_TIMEOUT (R223). -/
def execWaiterTimeout (o : ObjRef) (w : Who) (s : State) : Host.Outcome State Fault Refusal :=
  .next (doWaiterTimeout o w s)

/-- ACTIVATION_VERIFY_DONE (R433). -/
def execActivationVerifyDone (sec : JobSections) (sigOk : Bool) (s : State) : Host.Outcome State Fault Refusal :=
  .next (doActivationVerifyDone sec sigOk s)

/-- REHOME_TILES (R42). -/
def execRehomeTiles (desc : Fin 4096) (tile : Nat) (srcStep : Option DWord) (data : List Byte) (s : State) : Host.Outcome State Fault Refusal :=
  .next (doRehomeTiles desc tile srcStep data s)

/-- MOD_IMG_STOP (R201). -/
def execModImgStop (v : Word) (s : State) : Host.Outcome State Fault Refusal :=
  .next (hostMem (doModImgStop v) s)

/-- DESC_FETCH (R174). -/
def execDescFetch (d : Die) (c : Sid) (s : State) : Host.Outcome State Fault Refusal :=
  .next (doDescFetch d c s)

/-- ARRAY (R182). -/
def execArray (d : Die) (c : Sid) (s : State) : Host.Outcome State Fault Refusal :=
  .next (doArray d c s)

/-- GANG_TIMEOUT (R90). -/
def execGangTimeout (c : Sid) (s : State) : Host.Outcome State Fault Refusal :=
  .next (doGangTimeout c s)

/-- ARRAY_BOUNDARY (R84). -/
def execArrayBoundary (d : Die) (parity : List Nat) (s : State) : Host.Outcome State Fault Refusal :=
  .next (doArrayBoundary d parity s)

/-- TILE_DRAIN_START (R103). -/
def execTileDrainStart (d : Die) (s : State) : Host.Outcome State Fault Refusal :=
  .next (doTileDrainStart d s)

/-- TILE_PUSH (R102). -/
def execTilePush (d : Die) (s : State) : Host.Outcome State Fault Refusal :=
  .next (doTilePush d s)

/-- VECTOR (R186). -/
def execVector (d : Die) (c : Sid) (s : State) : Host.Outcome State Fault Refusal :=
  .next (doVector d c s)

/-- MOVE_COPY (R187). -/
def execMoveCopy (d : Die) (c : Sid) (s : State) : Host.Outcome State Fault Refusal :=
  .next (doMoveCopy d c s)

/-- MOVE_ZERO (R187). -/
def execMoveZero (d : Die) (c : Sid) (s : State) : Host.Outcome State Fault Refusal :=
  .next (doMoveZero d c s)

/-- MOVE_DONE (R193). -/
def execMoveDone (d : Die) (c : Sid) (i : Nat) (s : State) : Host.Outcome State Fault Refusal :=
  .next (doMoveDone d c i s)

/-- SIGNAL (R189). -/
def execSignal (d : Die) (c : Sid) (s : State) : Host.Outcome State Fault Refusal :=
  .next (doSignal d c s)

/-- WAIT_AT_LEAST (R190). -/
def execWaitAtLeast (d : Die) (c : Sid) (s : State) : Host.Outcome State Fault Refusal :=
  .next (doWaitAtLeast d c s)

/-- WAIT_TAKE (R190). -/
def execWaitTake (d : Die) (c : Sid) (s : State) : Host.Outcome State Fault Refusal :=
  .next (doWaitTake d c s)

/-- REDUCE_SCATTER (R191). -/
def execReduceScatter (d : Die) (c : Sid) (s : State) : Host.Outcome State Fault Refusal :=
  .next (doCollective 0 d c s)

/-- ALL_GATHER (R191). -/
def execAllGather (d : Die) (c : Sid) (s : State) : Host.Outcome State Fault Refusal :=
  .next (doCollective 1 d c s)

/-- ALL_REDUCE (R191). -/
def execAllReduce (d : Die) (c : Sid) (s : State) : Host.Outcome State Fault Refusal :=
  .next (doCollective 2 d c s)

/-- ALL_TO_ALL (R191). -/
def execAllToAll (d : Die) (c : Sid) (s : State) : Host.Outcome State Fault Refusal :=
  .next (doCollective 3 d c s)

/-- GUARD_OR (R191). -/
def execGuardOr (d : Die) (c : Sid) (s : State) : Host.Outcome State Fault Refusal :=
  .next (doCollective 4 d c s)

/-- COLLECTIVE_DONE (R191). -/
def execCollectiveDone (d : Die) (i : Nat) (s : State) : Host.Outcome State Fault Refusal :=
  .next (doCollectiveDone d i s)

/-- STEP_BEGIN (R198). -/
def execStepBegin (d : Die) (c : Sid) (s : State) : Host.Outcome State Fault Refusal :=
  .next (doStepBegin d c s)

/-- STEP_END (R198). -/
def execStepEnd (d : Die) (c : Sid) (s : State) : Host.Outcome State Fault Refusal :=
  .next (doStepEnd d c s)

/-- GUARD (R199). -/
def execGuard (d : Die) (c : Sid) (s : State) : Host.Outcome State Fault Refusal :=
  .next (doGuard d c s)

/-- LOSS (R192). -/
def execLoss (d : Die) (c : Sid) (s : State) : Host.Outcome State Fault Refusal :=
  .next (doLoss d c s)

/-- MAQUETTE_COPY (R69). -/
def execMaquetteCopy (layer : Nat) (s : State) : Host.Outcome State Fault Refusal :=
  .next (doMaquetteCopy layer s)

/-- MAQUETTE_COPY_DONE (R70). -/
def execMaquetteCopyDone (layer : Nat) (s : State) : Host.Outcome State Fault Refusal :=
  .next (doMaquetteCopyDone layer s)

/-- MAQUETTE_SLOT_FREE (R71). -/
def execMaquetteSlotFree (slot : Nat) (s : State) : Host.Outcome State Fault Refusal :=
  .next (doMaquetteSlotFree slot s)

/-- FINISHER_FETCH_DONE (R292). -/
def execFinisherFetchDone (desc : Fin 4096) (chunk : Nat) (srcStep : Option DWord) (data : List Byte) (s : State) : Host.Outcome State Fault Refusal :=
  .next (doFetchDone desc chunk srcStep data s)

/-- SHADOW_UPDATE (R293). -/
def execShadowUpdate (stepNum : DWord) (entry : List Byte) (s : State) : Host.Outcome State Fault Refusal :=
  .next (doShadowUpdate stepNum entry s)

/-- ROW_REPAIR_DONE (R255). -/
def execRowRepairDone (st : Stack) (row : Nat) (s : State) : Host.Outcome State Fault Refusal :=
  .next (doRowRepairDone st row s)

/-- PATROL_SCRUB (R253). -/
def execPatrolScrub (st : Stack) (s : State) : Host.Outcome State Fault Refusal :=
  .next (doPatrolScrub st s)

/-- STACK_TEMP_READ (R260). -/
def execStackTempRead (st : Stack) (temp : Option Int) (s : State) : Host.Outcome State Fault Refusal :=
  .next (doStackTempRead st temp s)

/-- STACK_SENSOR_TIMEOUT (R262). -/
def execStackSensorTimeout (st : Stack) (s : State) : Host.Outcome State Fault Refusal :=
  .next (doStackSensorTimeout st s)

/-- THERMAL_SLOW_HOLD_EXPIRE (R261). -/
def execThermalSlowHoldExpire (peer : Half) (s : State) : Host.Outcome State Fault Refusal :=
  .next (doThermalSlowHoldExpire peer s)

/-- WRITE_PACKET (R298). -/
def execWritePacket (p : Packet) (ch : Chan) (s : State) : Host.Outcome State Fault Refusal :=
  .next (doWritePacket p ch s)

/-- READ_PACKET (R298). -/
def execReadPacket (p : Packet) (ch : Chan) (s : State) : Host.Outcome State Fault Refusal :=
  .next (doReadPacket p ch s)

/-- SIGNAL_PACKET (R225). -/
def execSignalPacket (p : Packet) (ch : Chan) (s : State) : Host.Outcome State Fault Refusal :=
  .next (doSignalPacket p ch s)

/-- READ_DATA (R307). -/
def execReadData (p : Packet) (ch : Chan) (s : State) : Host.Outcome State Fault Refusal :=
  .next (doReadData p ch s)

/-- STATUS (R301). -/
def execStatus (p : Packet) (ch : Chan) (s : State) : Host.Outcome State Fault Refusal :=
  .next (doStatus p ch s)

/-- E2E_ACK (R309). -/
def execE2eAck (p : Packet) (ch : Chan) (s : State) : Host.Outcome State Fault Refusal :=
  .next (doE2eAck p ch s)

/-- COLL_GRANT (R353). -/
def execCollGrant (p : Packet) (ch : Chan) (s : State) : Host.Outcome State Fault Refusal :=
  .next (doCollGrant p ch s)

/-- COLL_DATA (R326). -/
def execCollData (p : Packet) (ch : Chan) (s : State) : Host.Outcome State Fault Refusal :=
  .next (doCollData p ch s)

/-- LINK_HELLO (R349). -/
def execLinkHello (p : Packet) (ch : Chan) (s : State) : Host.Outcome State Fault Refusal :=
  .next (doLinkHello p ch s)

/-- POISON_PACKET (R325). -/
def execPoisonPacket (p : Packet) (ch : Chan) (s : State) : Host.Outcome State Fault Refusal :=
  .next (doPoisonPacket p ch s)

/-- THERMAL_SLOW_PACKET (R261). -/
def execThermalSlowPacket (p : Packet) (ch : Chan) (s : State) : Host.Outcome State Fault Refusal :=
  .next (doThermalSlowPacket p ch s)

/-- ROUTE_NOTICE (R314). -/
def execRouteNotice (p : Packet) (ch : Chan) (s : State) : Host.Outcome State Fault Refusal :=
  .next (doRouteNotice p ch s)

/-- PACKET_FORWARD (R320). -/
def execPacketForward (p : Packet) (ch : Chan) (s : State) : Host.Outcome State Fault Refusal :=
  .next (doPacketForward p ch s)

/-- RTO_EXPIRE (R308). -/
def execRtoExpire (txn : Nat) (s : State) : Host.Outcome State Fault Refusal :=
  .next (doRtoExpire txn s)

/-- FLOW_IDLE_EXPIRE (R303). -/
def execFlowIdleExpire (source : Bool) (key : Nat) (s : State) : Host.Outcome State Fault Refusal :=
  .next (doFlowIdleExpire source key s)

/-- E2E_ACK_TIMER (R309). -/
def execE2eAckTimer (key : Nat) (s : State) : Host.Outcome State Fault Refusal :=
  .next (doE2eAckTimer key s)

/-- RELIEF_MOVE (R316). -/
def execReliefMove (i : Nat) (s : State) : Host.Outcome State Fault Refusal :=
  .next (doReliefMove i s)

/-- LINK_CONTROL_WORD (R313). -/
def execLinkControlWord (w : Lcw) (ch : Chan) (s : State) : Host.Outcome State Fault Refusal :=
  .next (doLinkControlWord w ch s)

/-- GRANT_SEND (R353). -/
def execGrantSend (d : Die) (i : Nat) (round : Nat) (s : State) : Host.Outcome State Fault Refusal :=
  .next (doGrantSend d i round s)

/-- COLL_TIMEOUT (R360). -/
def execCollTimeout (d : Die) (i : Nat) (s : State) : Host.Outcome State Fault Refusal :=
  .next (doCollTimeout d i s)

/-- POISON_REPEAT (R324). -/
def execPoisonRepeat (attempt : DWord) (s : State) : Host.Outcome State Fault Refusal :=
  .next (doPoisonRepeat attempt s)

/-- EPOCH_OPEN (R322). -/
def execEpochOpen (arg : BitVec 24) (s : State) : Host.Outcome State Fault Refusal :=
  .next (hostEpoch 1 arg s)

/-- EPOCH_LOAD (R322). -/
def execEpochLoad (arg : BitVec 24) (s : State) : Host.Outcome State Fault Refusal :=
  .next (hostEpoch 2 arg s)

/-- EPOCH_INJECT (R322). -/
def execEpochInject (arg : BitVec 24) (s : State) : Host.Outcome State Fault Refusal :=
  .next (hostEpoch 3 arg s)

/-- EPOCH_RETIRE (R322). -/
def execEpochRetire (arg : BitVec 24) (s : State) : Host.Outcome State Fault Refusal :=
  .next (hostEpoch 4 arg s)

/-- EPOCH_VIEW (R331). -/
def execEpochView (arg : BitVec 24) (s : State) : Host.Outcome State Fault Refusal :=
  .next (hostEpoch 5 arg s)

/-- CODEWORD_RECEIVE (R370). -/
def execCodewordReceive (ch : Chan) (hdr : BitVec 20) (symbols : Nat) (bad : Bool) (pkts : List Packet) (lcw : Option Lcw) (s : State) : Host.Outcome State Fault Refusal :=
  .next (doCodewordReceive ch hdr symbols bad pkts lcw s)

/-- MOD_RESET_WARM (R443). -/
def execModResetWarm (m : Master) (v : Word) (s : State) : Host.Outcome State Fault Refusal :=
  .next (byMaster m (doModResetWarm m v) s)

/-- MOD_RESET_COLD (R443). -/
def execModResetCold (m : Master) (v : Word) (s : State) : Host.Outcome State Fault Refusal :=
  .next (byMaster m (doModResetCold m v) s)

/-- CORE_RESET (R415). -/
def execCoreReset (d : Die) (s : State) : Host.Outcome State Fault Refusal :=
  .next (doCoreReset d s)

/-- START_ROM (R424). -/
def execStartRom (aOk : Bool) (bOk : Bool) (s : State) : Host.Outcome State Fault Refusal :=
  .next (doStartRom aOk bOk s)

/-- START_PLATFORM (R428). -/
def execStartPlatform (a : Option PlatformImage) (b : Option PlatformImage) (s : State) : Host.Outcome State Fault Refusal :=
  .next (doStartPlatform a b s)

/-- START_CLOCKS (R418). -/
def execStartClocks (rack1 : BitVec 10) (slot1 : BitVec 6) (rack2 : BitVec 10) (slot2 : BitVec 6) (s : State) : Host.Outcome State Fault Refusal :=
  .next (doStartClocks rack1 slot1 rack2 slot2 s)

/-- START_IDENTITY (R410). -/
def execStartIdentity (records : List (BitVec 128)) (s : State) : Host.Outcome State Fault Refusal :=
  .next (doStartIdentity records s)

/-- START_DIE_LINKS (R400). -/
def execStartDieLinks (failed : List (Nat × BitVec 68)) (s : State) : Host.Outcome State Fault Refusal :=
  .next (doStartDieLinks failed s)

/-- START_MEMORY (R235). -/
def execStartMemory (points : List StackTraining) (selfRefresh : Bool) (bad : List (Stack × Fin 32)) (s : State) : Host.Outcome State Fault Refusal :=
  .next (doStartMemory points selfRefresh bad s)

/-- START_SELFTEST (R429). -/
def execStartSelftest (failing : BitVec 24) (s : State) : Host.Outcome State Fault Refusal :=
  .next (doStartSelftest failing s)

/-- START_OPTICS (R374). -/
def execStartOptics (lsStatus : Option Word) (feeds : List (Option Word)) (failed : List Ring) (s : State) : Host.Outcome State Fault Refusal :=
  .next (doStartOptics lsStatus feeds failed s)

/-- START_REPLAY (R437). -/
def execStartReplay (imageOk : Bool) (s : State) : Host.Outcome State Fault Refusal :=
  .next (doStartReplay imageOk s)

/-- COPY (R440). -/
def execCopy (v : Word) (s : State) : Host.Outcome State Fault Refusal :=
  .next (hostMem (doCopy v) s)

/-- RESTORE (R439). -/
def execRestore (v : Word) (s : State) : Host.Outcome State Fault Refusal :=
  .next (hostMem (doRestore v) s)

/-- OUTER_RESET (R439). -/
def execOuterReset (v : Word) (s : State) : Host.Outcome State Fault Refusal :=
  .next (hostMem (doOuterReset v) s)

/-- SELFTEST_FULL (R429). -/
def execSelftestFull (v : Word) (s : State) : Host.Outcome State Fault Refusal :=
  .next (hostMem (doSelftestFull v) s)

/-- SELFTEST_CD (R429). -/
def execSelftestCd (v : Word) (s : State) : Host.Outcome State Fault Refusal :=
  .next (hostMem (doSelftestCd v) s)

/-- ABORT (R439). -/
def execAbort (v : Word) (s : State) : Host.Outcome State Fault Refusal :=
  .next (hostMem (doAbort v) s)

/-- RCV_DONE (R439). -/
def execRcvDone (cause : Fin 16) (s : State) : Host.Outcome State Fault Refusal :=
  .next (doRcvDone cause s)

/-- HV_FRAME (R444). -/
def execHvFrame (link : Fin 2) (frame : BitVec 128) (s : State) : Host.Outcome State Fault Refusal :=
  .next (doHvFrame link frame s)

/-- HV_LINK_SILENT (R446). -/
def execHvLinkSilent (link : Fin 2) (s : State) : Host.Outcome State Fault Refusal :=
  .next (doHvLinkSilent link s)

/-- MATE_PIN_RISE (R513). -/
def execMatePinRise (pin : Fin 2) (s : State) : Host.Outcome State Fault Refusal :=
  .next (doMatePinRise pin s)

/-- DVFS_CHANGE (R463). -/
def execDvfsChange (d : Die) (s : State) : Host.Outcome State Fault Refusal :=
  .next (doDvfsChange d s)

/-- CD_TEMP_READ (R465). -/
def execCdTempRead (d : Die) (temp : Option Int) (s : State) : Host.Outcome State Fault Refusal :=
  .next (doCdTempRead d temp s)

/-- STRETCH_LIMIT_DOWN (R465). -/
def execStretchLimitDown (d : Die) (s : State) : Host.Outcome State Fault Refusal :=
  .next (doStretchLimitDown d s)

/-- COOL_LIMIT_UP (R465). -/
def execCoolLimitUp (d : Die) (s : State) : Host.Outcome State Fault Refusal :=
  .next (doCoolLimitUp d s)

/-- CD_SENSOR_TIMEOUT (R466). -/
def execCdSensorTimeout (d : Die) (s : State) : Host.Outcome State Fault Refusal :=
  .next (doCdSensorTimeout d s)

/-- RACKCLK_CHECK (R468). -/
def execRackclkCheck (ppm : Int) (s : State) : Host.Outcome State Fault Refusal :=
  .next (doRackclkCheck ppm s)

/-- RACKSYNC_FRAME (R471). -/
def execRacksyncFrame (bits : DWord) (s : State) : Host.Outcome State Fault Refusal :=
  .next (doRacksyncFrame bits s)

/-- MSIX_UNMASK (R484). -/
def execMsixUnmask (v : Option (Fin 2048)) (s : State) : Host.Outcome State Fault Refusal :=
  .next (doMsixUnmask v s)

/-- MSIX_WINDOW_END (R486). -/
def execMsixWindowEnd (v : Fin 16) (pldm : Bool) (s : State) : Host.Outcome State Fault Refusal :=
  .next (doMsixWindowEnd v pldm s)

/-- SET_ENDPOINT_ID (R498). -/
def execSetEndpointId (path : Path) (eid : Byte) (s : State) : Host.Outcome State Fault Refusal :=
  .next (doSetEndpointId path eid s)

/-- PLDM_REQUEST (R499). -/
def execPldmRequest (path : Path) (type : BitVec 6) (cmd : Byte) (arg : Nat) (s : State) : Host.Outcome State Fault Refusal :=
  .next (doPldmRequest path type cmd arg s)

/-- GET_NONCE (R500). -/
def execGetNonce (path : Path) (s : State) : Host.Outcome State Fault Refusal :=
  .next (doGetNonce path s)

/-- GET_ATTEST (R508). -/
def execGetAttest (path : Path) (nonce : BitVec 256) (s : State) : Host.Outcome State Fault Refusal :=
  .next (doGetAttest path nonce s)

/-- GET_CERT (R507). -/
def execGetCert (path : Path) (s : State) : Host.Outcome State Fault Refusal :=
  .next (doGetCert path s)

/-- READ_LOG (R500). -/
def execReadLog (path : Path) (cls : Nat) (first : Nat) (s : State) : Host.Outcome State Fault Refusal :=
  .next (doReadLog path cls first s)

/-- OWNER_BIND (R505). -/
def execOwnerBind (path : Path) (body : List Byte) (sigOk : Bool) (s : State) : Host.Outcome State Fault Refusal :=
  .next (doOwnerBind path body sigOk s)

/-- OWNER_REVOKE (R505). -/
def execOwnerRevoke (path : Path) (body : List Byte) (sigOk : Bool) (s : State) : Host.Outcome State Fault Refusal :=
  .next (doOwnerRevoke path body sigOk s)

/-- OWNER_ADVANCE (R505). -/
def execOwnerAdvance (path : Path) (body : List Byte) (sigOk : Bool) (s : State) : Host.Outcome State Fault Refusal :=
  .next (doOwnerAdvance path body sigOk s)

/-- OWNER_LOG_CLEAR (R505). -/
def execOwnerLogClear (path : Path) (body : List Byte) (sigOk : Bool) (s : State) : Host.Outcome State Fault Refusal :=
  .next (doOwnerLogClear path body sigOk s)

/-- NONCE_EXPIRE (R504). -/
def execNonceExpire (path : Path) (s : State) : Host.Outcome State Fault Refusal :=
  .next (doNonceExpire path s)

/-- RESET (R500). -/
def execReset (path : Path) (v : Word) (s : State) : Host.Outcome State Fault Refusal :=
  .next (doReset path v s)

/-- EPOCH (R501). -/
def execEpoch (path : Path) (v : Word) (s : State) : Host.Outcome State Fault Refusal :=
  .next (doEpoch path v s)

/-- FLASH_WRITE (R424). -/
def execFlashWrite (path : Path) (pi : Bool) (off : Nat) (data : List Byte) (s : State) : Host.Outcome State Fault Refusal :=
  .next (doFlashWrite path pi off data s)

/-- FLASH_PREFER (R424). -/
def execFlashPrefer (path : Path) (pi : Bool) (copy : Bool) (ok : Bool) (s : State) : Host.Outcome State Fault Refusal :=
  .next (doFlashPrefer path pi copy ok s)

/-- RECOVER (R500). -/
def execRecover (path : Path) (v : Word) (s : State) : Host.Outcome State Fault Refusal :=
  .next (doRecover path v s)

/-- OTHER_DIE_TEMP_READ (R466). -/
def execOtherDieTempRead (which : Fin 8) (temp : Option Int) (s : State) : Host.Outcome State Fault Refusal :=
  .next (doOtherDieTempRead which temp s)

/-- COMPLETION_TIMEOUT (R482). -/
def execCompletionTimeout (tag : Nat) (s : State) : Host.Outcome State Fault Refusal :=
  .next (doCompletionTimeout tag s)

/-- HOST_READ_COMPLETION (R482). -/
def execHostReadCompletion (tag : Nat) (data : List Byte) (s : State) : Host.Outcome State Fault Refusal :=
  .next (doHostReadCompletion tag data s)

/-- BUS_MASTER_ENABLE (R482). -/
def execBusMasterEnable (en : Bool) (s : State) : Host.Outcome State Fault Refusal :=
  .next (doBusMasterEnable en s)

/-- ROW_CE_AGE (R254). -/
def execRowCeAge (st : Stack) (row : Nat) (s : State) : Host.Outcome State Fault Refusal :=
  .next (doRowCeAge st row s)

/-- LINK_ACK_TIMEOUT (R313). -/
def execLinkAckTimeout (ch : Chan) (lsn : Half) (s : State) : Host.Outcome State Fault Refusal :=
  .next (doLinkAckTimeout ch lsn s)

/-- REPLAY_STORE_SEND (R315). -/
def execReplayStoreSend (port : Fin 6) (s : State) : Host.Outcome State Fault Refusal :=
  .next (doReplayStoreSend port s)

/-- HELLO_TIMER (R348). -/
def execHelloTimer (ch : Chan) (s : State) : Host.Outcome State Fault Refusal :=
  .next (doHelloTimer ch s)

/-- HELLO_SILENT (R349). -/
def execHelloSilent (ch : Chan) (s : State) : Host.Outcome State Fault Refusal :=
  .next (doHelloSilent ch s)

/-- LS_IBI (R372). -/
def execLsIbi (status : Option Word) (s : State) : Host.Outcome State Fault Refusal :=
  .next (doLsIbi status s)

/-- LS_STATUS_POLL (R372). -/
def execLsStatusPoll (status : Option Word) (s : State) : Host.Outcome State Fault Refusal :=
  .next (doLsStatusPoll status s)

/-- LS_FAULT (R375). -/
def execLsFault (status : Word) (feedFault : Half) (s : State) : Host.Outcome State Fault Refusal :=
  .next (doLsFault status feedFault s)

/-- FEED_LOSS (R375). -/
def execFeedLoss (j : Fin 14) (s : State) : Host.Outcome State Fault Refusal :=
  .next (doFeedLoss j s)

/-- FEED_RETURN (R375). -/
def execFeedReturn (j : Fin 14) (s : State) : Host.Outcome State Fault Refusal :=
  .next (doFeedReturn j s)

/-- RING_ACQUIRE_DONE (R376). -/
def execRingAcquireDone (r : Ring) (found : Option Half) (s : State) : Host.Outcome State Fault Refusal :=
  .next (doRingAcquireDone r found s)

/-- RING_VERIFY_DONE (R376). -/
def execRingVerifyDone (r : Ring) (tone : Option (Fin 16)) (s : State) : Host.Outcome State Fault Refusal :=
  .next (doRingVerifyDone r tone s)

/-- LOCK_LOST (R377). -/
def execLockLost (r : Ring) (s : State) : Host.Outcome State Fault Refusal :=
  .next (doLockLost r s)

/-- RING_FEEDFORWARD (R378). -/
def execRingFeedforward (port : Fin 6) (fib : Fin 16) (rx : Bool) (temp : Int) (s : State) : Host.Outcome State Fault Refusal :=
  .next (doRingFeedforward port fib rx temp s)

/-- DITHER_WINDOW (R380). -/
def execDitherWindow (r : Ring) (tone : Option (Fin 16)) (s : State) : Host.Outcome State Fault Refusal :=
  .next (doDitherWindow r tone s)

/-- REST_PREPARE (R384). -/
def execRestPrepare (ch : Chan) (s : State) : Host.Outcome State Fault Refusal :=
  .next (doRestPrepare ch s)

/-- REST_SLOT (R383). -/
def execRestSlot (port : Fin 6) (s : State) : Host.Outcome State Fault Refusal :=
  .next (doRestSlot port s)

/-- REST_CAL_DONE (R384). -/
def execRestCalDone (ch : Chan) (vals : List Half) (s : State) : Host.Outcome State Fault Refusal :=
  .next (doRestCalDone ch vals s)

/-- SHUTTER_CLOSE (R390). -/
def execShutterClose (port : Fin 6) (fib : Fin 16) (s : State) : Host.Outcome State Fault Refusal :=
  .next (doShutterClose port fib s)

/-- SHUTTER_PROBE (R390). -/
def execShutterProbe (port : Fin 6) (fib : Fin 16) (s : State) : Host.Outcome State Fault Refusal :=
  .next (doShutterProbe port fib s)

/-- SHUTTER_OPEN (R390). -/
def execShutterOpen (port : Fin 6) (fib : Fin 16) (s : State) : Host.Outcome State Fault Refusal :=
  .next (doShutterOpen port fib s)

/-- FLIT_RECEIVE (R397). -/
def execFlitReceive (g : Fin 688) (check : Word) (data : List Byte) (s : State) : Host.Outcome State Fault Refusal :=
  .next (doFlitReceive g check data s)

/-- FLIT_NAK (R397). -/
def execFlitNak (g : Fin 688) (s : State) : Host.Outcome State Fault Refusal :=
  .next (doFlitNak g s)

/-- LANE_STEER (R403). -/
def execLaneSteer (g : Fin 688) (lane : Fin 68) (s : State) : Host.Outcome State Fault Refusal :=
  .next (doLaneSteer g lane s)

/-- LANE_RETRAIN (R404). -/
def execLaneRetrain (g : Fin 688) (s : State) : Host.Outcome State Fault Refusal :=
  .next (doLaneRetrain g s)

/-- LANE_RECAL (R401). -/
def execLaneRecal (g : Fin 688) (lane : Fin 68) (s : State) : Host.Outcome State Fault Refusal :=
  .next (doLaneRecal g lane s)

/-- LANE_FAILING (R403). -/
def execLaneFailing (g : Fin 688) (lane : Fin 68) (margin : Bool) (s : State) : Host.Outcome State Fault Refusal :=
  .next (doLaneFailing g lane margin s)

/-- LANE_RECAL_DONE (R401). -/
def execLaneRecalDone (g : Fin 688) (s : State) : Host.Outcome State Fault Refusal :=
  .next (doLaneRecalDone g s)

/-- RETRAIN_DONE (R404). -/
def execRetrainDone (g : Fin 688) (good : BitVec 68) (s : State) : Host.Outcome State Fault Refusal :=
  .next (doRetrainDone g good s)

/-- MUX_SWITCH (R459). -/
def execMuxSwitch (dom : Fin 59) (src : Fin 8) (s : State) : Host.Outcome State Fault Refusal :=
  .next (doMuxSwitch dom src s)

/-- MUX_FORCED (R460). -/
def execMuxForced (dom : Fin 59) (s : State) : Host.Outcome State Fault Refusal :=
  .next (doMuxForced dom s)

/-- MUX_DEAD (R460). -/
def execMuxDead (dom : Fin 59) (s : State) : Host.Outcome State Fault Refusal :=
  .next (doMuxDead dom s)

/-- FLASH_WEAR_LEVEL (R474). -/
def execFlashWearLevel (blk : Nat) (s : State) : Host.Outcome State Fault Refusal :=
  .next (doFlashWearLevel blk s)

/-- CAL_SKIP (R384). -/
def execCalSkip (ch : Chan) (s : State) : Host.Outcome State Fault Refusal :=
  .next (doCalSkip ch s)

/-- ACTIVATION (R433). -/
def execActivation (s : State) : Host.Outcome State Fault Refusal :=
  .next (doActivation s)

/-- IMAGE_STOPPED (R435). -/
def execImageStopped (s : State) : Host.Outcome State Fault Refusal :=
  .next (doImageStopped s)

/-- GANG_GRANT (R87). -/
def execGangGrant (s : State) : Host.Outcome State Fault Refusal :=
  .next (doGangGrant s)

/-- STEP_UNIT_END_STEP (R198). -/
def execStepUnitEndStep (s : State) : Host.Outcome State Fault Refusal :=
  .next (doStepUnitEndStep s)

/-- FINISHER_COMPLETE (R289). -/
def execFinisherComplete (s : State) : Host.Outcome State Fault Refusal :=
  .next (doFinisherComplete s)

/-- THERMAL_SLOW_REPEAT (R261). -/
def execThermalSlowRepeat (s : State) : Host.Outcome State Fault Refusal :=
  .next (doThermalSlowRepeat s)

/-- EPOCH_DRAIN_DONE (R322). -/
def execEpochDrainDone (s : State) : Host.Outcome State Fault Refusal :=
  .next (doEpochDrainDone s)

/-- POWER_APPLIED (R415). -/
def execPowerApplied (s : State) : Host.Outcome State Fault Refusal :=
  .next (doPowerApplied s)

/-- LINK_RESET (R417). -/
def execLinkReset (s : State) : Host.Outcome State Fault Refusal :=
  .next (doLinkReset s)

/-- XTAL_STABLE (R455). -/
def execXtalStable (s : State) : Host.Outcome State Fault Refusal :=
  .next (doXtalStable s)

/-- XTAL_TIMEOUT (R418). -/
def execXtalTimeout (s : State) : Host.Outcome State Fault Refusal :=
  .next (doXtalTimeout s)

/-- START_READY (R422). -/
def execStartReady (s : State) : Host.Outcome State Fault Refusal :=
  .next (doStartReady s)

/-- XTAL_FAIL (R456). -/
def execXtalFail (s : State) : Host.Outcome State Fault Refusal :=
  .next (doXtalFail s)

/-- XTAL_FAIL_RESET (R456). -/
def execXtalFailReset (s : State) : Host.Outcome State Fault Refusal :=
  .next (doXtalFailReset s)

/-- VERDICT_POLL (R438). -/
def execVerdictPoll (s : State) : Host.Outcome State Fault Refusal :=
  .next (doVerdictPoll s)

/-- RESOLVE_TIMEOUT (R438). -/
def execResolveTimeout (s : State) : Host.Outcome State Fault Refusal :=
  .next (doResolveTimeout s)

/-- HV_LINK_LOST (R446). -/
def execHvLinkLost (s : State) : Host.Outcome State Fault Refusal :=
  .next (doHvLinkLost s)

/-- HV_LINK_STOP (R446). -/
def execHvLinkStop (s : State) : Host.Outcome State Fault Refusal :=
  .next (doHvLinkStop s)

/-- SHUTDOWN (R447). -/
def execShutdown (s : State) : Host.Outcome State Fault Refusal :=
  .next (doShutdown s)

/-- ACK_SEQ (R444). -/
def execAckSeq (s : State) : Host.Outcome State Fault Refusal :=
  .next (doAckSeq s)

/-- HV_UNDERVOLTAGE (R447). -/
def execHvUndervoltage (s : State) : Host.Outcome State Fault Refusal :=
  .next (doHvUndervoltage s)

/-- HV_OVERVOLTAGE (R447). -/
def execHvOvervoltage (s : State) : Host.Outcome State Fault Refusal :=
  .next (doHvOvervoltage s)

/-- HV_OVERCURRENT (R447). -/
def execHvOvercurrent (s : State) : Host.Outcome State Fault Refusal :=
  .next (doHvOvercurrent s)

/-- HV_OVERTEMP (R447). -/
def execHvOvertemp (s : State) : Host.Outcome State Fault Refusal :=
  .next (doHvOvertemp s)

/-- HOTSWAP_CLOSE (R513). -/
def execHotswapClose (s : State) : Host.Outcome State Fault Refusal :=
  .next (doHotswapClose s)

/-- POWER_SHAPE_TICK (R450). -/
def execPowerShapeTick (s : State) : Host.Outcome State Fault Refusal :=
  .next (doPowerShapeTick s)

/-- LIMIT_DVFS_DOWN (R452). -/
def execLimitDvfsDown (s : State) : Host.Outcome State Fault Refusal :=
  .next (doLimitDvfsDown s)

/-- LIMIT_DVFS_UP (R452). -/
def execLimitDvfsUp (s : State) : Host.Outcome State Fault Refusal :=
  .next (doLimitDvfsUp s)

/-- HEARTBEAT_MISS (R460). -/
def execHeartbeatMiss (s : State) : Host.Outcome State Fault Refusal :=
  .next (doHeartbeatMiss s)

/-- THERMAL_TRIP (R466). -/
def execThermalTrip (s : State) : Host.Outcome State Fault Refusal :=
  .next (doThermalTrip s)

/-- RACKSYNC_EDGE (R470). -/
def execRacksyncEdge (s : State) : Host.Outcome State Fault Refusal :=
  .next (doRacksyncEdge s)

/-- TB_HOLDOVER (R472). -/
def execTbHoldover (s : State) : Host.Outcome State Fault Refusal :=
  .next (doTbHoldover s)

/-- TELEMETRY_FRAME (R496). -/
def execTelemetryFrame (s : State) : Host.Outcome State Fault Refusal :=
  .next (doTelemetryFrame s)

/-- D3HOT_ENTER (R483). -/
def execD3hotEnter (s : State) : Host.Outcome State Fault Refusal :=
  .next (doD3hotEnter s)

/-- D0_RETURN (R483). -/
def execD0Return (s : State) : Host.Outcome State Fault Refusal :=
  .next (doD0Return s)

/-- LOCKOUT_EXPIRE (R504). -/
def execLockoutExpire (s : State) : Host.Outcome State Fault Refusal :=
  .next (doLockoutExpire s)

/-- PCIE_LINK_UP (R417). -/
def execPcieLinkUp (s : State) : Host.Outcome State Fault Refusal :=
  .next (doPcieLinkUp s)

end Sys2Proof.Machine
end

