-- ==== Sys2Proof/Machine/Dispatch.lean ====
section
/-! DEFINITION. Machine/Dispatch.lean: one arm for each command of the opcode table. -/
namespace Sys2Proof.Machine
open Sys2Proof

/-- What a command does to everything but the queue. -/
def exec (i : Instr) (s : State) : Host.Outcome State Fault Refusal :=
  match i with
  | .registerWrite m off v => Sys2Proof.Machine.execRegisterWrite m off v s
  | .rsClearWrite m off v => Sys2Proof.Machine.execRsClearWrite m off v s
  | .reg64LowRead m off => Sys2Proof.Machine.execReg64LowRead m off s
  | .reg64LowWrite m off v => Sys2Proof.Machine.execReg64LowWrite m off v s
  | .reg64HighWrite m off v => Sys2Proof.Machine.execReg64HighWrite m off v s
  | .bar0ReservedAccess m off size write => Sys2Proof.Machine.execBar0ReservedAccess m off size write s
  | .modElogPop m => Sys2Proof.Machine.execModElogPop m s
  | .secLogPop m => Sys2Proof.Machine.execSecLogPop m s
  | .secAuthFailRead m => Sys2Proof.Machine.execSecAuthFailRead m s
  | .bar2Write off data ep => Sys2Proof.Machine.execBar2Write off data ep s
  | .bar2Read off len => Sys2Proof.Machine.execBar2Read off len s
  | .bar2Resize size => Sys2Proof.Machine.execBar2Resize size s
  | .objSignal idx v => Sys2Proof.Machine.execObjSignal idx v s
  | .objDec idx v => Sys2Proof.Machine.execObjDec idx v s
  | .objRearm idx v => Sys2Proof.Machine.execObjRearm idx v s
  | .hwSlotArm n v => Sys2Proof.Machine.execHwSlotArm n v s
  | .hwSlotDisarm n v => Sys2Proof.Machine.execHwSlotDisarm n v s
  | .syncHwDisable v => Sys2Proof.Machine.execSyncHwDisable v s
  | .waiterTimeout o w => Sys2Proof.Machine.execWaiterTimeout o w s
  | .activationVerifyDone sec sigOk => Sys2Proof.Machine.execActivationVerifyDone sec sigOk s
  | .rehomeTiles desc tile srcStep data => Sys2Proof.Machine.execRehomeTiles desc tile srcStep data s
  | .modImgStop v => Sys2Proof.Machine.execModImgStop v s
  | .descFetch d c => Sys2Proof.Machine.execDescFetch d c s
  | .array d c => Sys2Proof.Machine.execArray d c s
  | .gangTimeout c => Sys2Proof.Machine.execGangTimeout c s
  | .arrayBoundary d parity => Sys2Proof.Machine.execArrayBoundary d parity s
  | .tileDrainStart d => Sys2Proof.Machine.execTileDrainStart d s
  | .tilePush d => Sys2Proof.Machine.execTilePush d s
  | .vector d c => Sys2Proof.Machine.execVector d c s
  | .moveCopy d c => Sys2Proof.Machine.execMoveCopy d c s
  | .moveZero d c => Sys2Proof.Machine.execMoveZero d c s
  | .moveDone d c idx => Sys2Proof.Machine.execMoveDone d c idx s
  | .signal d c => Sys2Proof.Machine.execSignal d c s
  | .waitAtLeast d c => Sys2Proof.Machine.execWaitAtLeast d c s
  | .waitTake d c => Sys2Proof.Machine.execWaitTake d c s
  | .reduceScatter d c => Sys2Proof.Machine.execReduceScatter d c s
  | .allGather d c => Sys2Proof.Machine.execAllGather d c s
  | .allReduce d c => Sys2Proof.Machine.execAllReduce d c s
  | .allToAll d c => Sys2Proof.Machine.execAllToAll d c s
  | .guardOr d c => Sys2Proof.Machine.execGuardOr d c s
  | .collectiveDone d idx => Sys2Proof.Machine.execCollectiveDone d idx s
  | .stepBegin d c => Sys2Proof.Machine.execStepBegin d c s
  | .stepEnd d c => Sys2Proof.Machine.execStepEnd d c s
  | .guard d c => Sys2Proof.Machine.execGuard d c s
  | .loss d c => Sys2Proof.Machine.execLoss d c s
  | .maquetteCopy layer => Sys2Proof.Machine.execMaquetteCopy layer s
  | .maquetteCopyDone layer => Sys2Proof.Machine.execMaquetteCopyDone layer s
  | .maquetteSlotFree slot => Sys2Proof.Machine.execMaquetteSlotFree slot s
  | .finisherFetchDone desc chunk srcStep data => Sys2Proof.Machine.execFinisherFetchDone desc chunk srcStep data s
  | .shadowUpdate stepNum entry => Sys2Proof.Machine.execShadowUpdate stepNum entry s
  | .nop v => Sys2Proof.Machine.execNop v s
  | .endProg v => Sys2Proof.Machine.execEndProg v s
  | .loop v => Sys2Proof.Machine.execLoop v s
  | .loopi v => Sys2Proof.Machine.execLoopi v s
  | .endloop v => Sys2Proof.Machine.execEndloop v s
  | .setvl v => Sys2Proof.Machine.execSetvl v s
  | .sparam v => Sys2Proof.Machine.execSparam v s
  | .sli v => Sys2Proof.Machine.execSli v s
  | .slih v => Sys2Proof.Machine.execSlih v s
  | .sadd v => Sys2Proof.Machine.execSadd v s
  | .saddi v => Sys2Proof.Machine.execSaddi v s
  | .ssub v => Sys2Proof.Machine.execSsub v s
  | .smuli v => Sys2Proof.Machine.execSmuli v s
  | .sshli v => Sys2Proof.Machine.execSshli v s
  | .sshri v => Sys2Proof.Machine.execSshri v s
  | .tqpop v => Sys2Proof.Machine.execTqpop v s
  | .tqrel v => Sys2Proof.Machine.execTqrel v s
  | .vguard v => Sys2Proof.Machine.execVguard v s
  | .vunsc v => Sys2Proof.Machine.execVunsc v s
  | .vadd v => Sys2Proof.Machine.execVadd v s
  | .vaddi v => Sys2Proof.Machine.execVaddi v s
  | .vsub v => Sys2Proof.Machine.execVsub v s
  | .vsubi v => Sys2Proof.Machine.execVsubi v s
  | .vmul v => Sys2Proof.Machine.execVmul v s
  | .vmuli v => Sys2Proof.Machine.execVmuli v s
  | .vmax v => Sys2Proof.Machine.execVmax v s
  | .vmaxi v => Sys2Proof.Machine.execVmaxi v s
  | .vmin v => Sys2Proof.Machine.execVmin v s
  | .vmini v => Sys2Proof.Machine.execVmini v s
  | .vfma v => Sys2Proof.Machine.execVfma v s
  | .vfmai v => Sys2Proof.Machine.execVfmai v s
  | .vfms v => Sys2Proof.Machine.execVfms v s
  | .vfmsi v => Sys2Proof.Machine.execVfmsi v s
  | .vfnma v => Sys2Proof.Machine.execVfnma v s
  | .vfnmai v => Sys2Proof.Machine.execVfnmai v s
  | .vabs v => Sys2Proof.Machine.execVabs v s
  | .vneg v => Sys2Proof.Machine.execVneg v s
  | .vmov v => Sys2Proof.Machine.execVmov v s
  | .vmovi v => Sys2Proof.Machine.execVmovi v s
  | .vrndf v => Sys2Proof.Machine.execVrndf v s
  | .vcvtif v => Sys2Proof.Machine.execVcvtif v s
  | .vcvtfi v => Sys2Proof.Machine.execVcvtfi v s
  | .vbcast v => Sys2Proof.Machine.execVbcast v s
  | .vexp2 v => Sys2Proof.Machine.execVexp2 v s
  | .vlog2 v => Sys2Proof.Machine.execVlog2 v s
  | .vrcp v => Sys2Proof.Machine.execVrcp v s
  | .vrsqrt v => Sys2Proof.Machine.execVrsqrt v s
  | .vsqrt v => Sys2Proof.Machine.execVsqrt v s
  | .vdiv v => Sys2Proof.Machine.execVdiv v s
  | .vtanh v => Sys2Proof.Machine.execVtanh v s
  | .viadd v => Sys2Proof.Machine.execViadd v s
  | .viaddi v => Sys2Proof.Machine.execViaddi v s
  | .visub v => Sys2Proof.Machine.execVisub v s
  | .visubi v => Sys2Proof.Machine.execVisubi v s
  | .vimul v => Sys2Proof.Machine.execVimul v s
  | .vimuli v => Sys2Proof.Machine.execVimuli v s
  | .vand v => Sys2Proof.Machine.execVand v s
  | .vandi v => Sys2Proof.Machine.execVandi v s
  | .vor v => Sys2Proof.Machine.execVor v s
  | .vori v => Sys2Proof.Machine.execVori v s
  | .vxor v => Sys2Proof.Machine.execVxor v s
  | .vxori v => Sys2Proof.Machine.execVxori v s
  | .vshl v => Sys2Proof.Machine.execVshl v s
  | .vshli v => Sys2Proof.Machine.execVshli v s
  | .vshr v => Sys2Proof.Machine.execVshr v s
  | .vshri v => Sys2Proof.Machine.execVshri v s
  | .vsra v => Sys2Proof.Machine.execVsra v s
  | .vsrai v => Sys2Proof.Machine.execVsrai v s
  | .vidx v => Sys2Proof.Machine.execVidx v s
  | .vslide v => Sys2Proof.Machine.execVslide v s
  | .vcmpeq v => Sys2Proof.Machine.execVcmpeq v s
  | .vcmpeqi v => Sys2Proof.Machine.execVcmpeqi v s
  | .vcmplt v => Sys2Proof.Machine.execVcmplt v s
  | .vcmplti v => Sys2Proof.Machine.execVcmplti v s
  | .vcmple v => Sys2Proof.Machine.execVcmple v s
  | .vcmplei v => Sys2Proof.Machine.execVcmplei v s
  | .vcmpun v => Sys2Proof.Machine.execVcmpun v s
  | .vicmpeq v => Sys2Proof.Machine.execVicmpeq v s
  | .vicmpeqi v => Sys2Proof.Machine.execVicmpeqi v s
  | .vicmplt v => Sys2Proof.Machine.execVicmplt v s
  | .vicmplti v => Sys2Proof.Machine.execVicmplti v s
  | .mand v => Sys2Proof.Machine.execMand v s
  | .mor v => Sys2Proof.Machine.execMor v s
  | .mxor v => Sys2Proof.Machine.execMxor v s
  | .mandn v => Sys2Proof.Machine.execMandn v s
  | .vcpop v => Sys2Proof.Machine.execVcpop v s
  | .viota v => Sys2Proof.Machine.execViota v s
  | .vrank v => Sys2Proof.Machine.execVrank v s
  | .vrsum v => Sys2Proof.Machine.execVrsum v s
  | .vrsump v => Sys2Proof.Machine.execVrsump v s
  | .vrssqp v => Sys2Proof.Machine.execVrssqp v s
  | .vrmax v => Sys2Proof.Machine.execVrmax v s
  | .vrmin v => Sys2Proof.Machine.execVrmin v s
  | .vrmaxi v => Sys2Proof.Machine.execVrmaxi v s
  | .vpadd v => Sys2Proof.Machine.execVpadd v s
  | .vpnorm v => Sys2Proof.Machine.execVpnorm v s
  | .vdadd v => Sys2Proof.Machine.execVdadd v s
  | .vdmul v => Sys2Proof.Machine.execVdmul v s
  | .vdfma v => Sys2Proof.Machine.execVdfma v s
  | .vcvtdf v => Sys2Proof.Machine.execVcvtdf v s
  | .vcvtfd v => Sys2Proof.Machine.execVcvtfd v s
  | .vld v => Sys2Proof.Machine.execVld v s
  | .vlds v => Sys2Proof.Machine.execVlds v s
  | .vldx v => Sys2Proof.Machine.execVldx v s
  | .vldri v => Sys2Proof.Machine.execVldri v s
  | .vst v => Sys2Proof.Machine.execVst v s
  | .vsts v => Sys2Proof.Machine.execVsts v s
  | .vstx v => Sys2Proof.Machine.execVstx v s
  | .vstri v => Sys2Proof.Machine.execVstri v s
  | .vstxa v => Sys2Proof.Machine.execVstxa v s
  | .vaddri v => Sys2Proof.Machine.execVaddri v s
  | .rowRepairDone st row => Sys2Proof.Machine.execRowRepairDone st row s
  | .patrolScrub st => Sys2Proof.Machine.execPatrolScrub st s
  | .stackTempRead st temp => Sys2Proof.Machine.execStackTempRead st temp s
  | .stackSensorTimeout st => Sys2Proof.Machine.execStackSensorTimeout st s
  | .thermalSlowHoldExpire peer => Sys2Proof.Machine.execThermalSlowHoldExpire peer s
  | .writePacket p ch => Sys2Proof.Machine.execWritePacket p ch s
  | .readPacket p ch => Sys2Proof.Machine.execReadPacket p ch s
  | .signalPacket p ch => Sys2Proof.Machine.execSignalPacket p ch s
  | .readData p ch => Sys2Proof.Machine.execReadData p ch s
  | .status p ch => Sys2Proof.Machine.execStatus p ch s
  | .e2eAck p ch => Sys2Proof.Machine.execE2eAck p ch s
  | .collGrant p ch => Sys2Proof.Machine.execCollGrant p ch s
  | .collData p ch => Sys2Proof.Machine.execCollData p ch s
  | .linkHello p ch => Sys2Proof.Machine.execLinkHello p ch s
  | .poisonPacket p ch => Sys2Proof.Machine.execPoisonPacket p ch s
  | .thermalSlowPacket p ch => Sys2Proof.Machine.execThermalSlowPacket p ch s
  | .routeNotice p ch => Sys2Proof.Machine.execRouteNotice p ch s
  | .packetForward p ch => Sys2Proof.Machine.execPacketForward p ch s
  | .rtoExpire txn => Sys2Proof.Machine.execRtoExpire txn s
  | .flowIdleExpire source key => Sys2Proof.Machine.execFlowIdleExpire source key s
  | .e2eAckTimer key => Sys2Proof.Machine.execE2eAckTimer key s
  | .reliefMove idx => Sys2Proof.Machine.execReliefMove idx s
  | .linkControlWord w ch => Sys2Proof.Machine.execLinkControlWord w ch s
  | .grantSend d idx round => Sys2Proof.Machine.execGrantSend d idx round s
  | .collTimeout d idx => Sys2Proof.Machine.execCollTimeout d idx s
  | .poisonRepeat attempt => Sys2Proof.Machine.execPoisonRepeat attempt s
  | .epochOpen arg => Sys2Proof.Machine.execEpochOpen arg s
  | .epochLoad arg => Sys2Proof.Machine.execEpochLoad arg s
  | .epochInject arg => Sys2Proof.Machine.execEpochInject arg s
  | .epochRetire arg => Sys2Proof.Machine.execEpochRetire arg s
  | .epochView arg => Sys2Proof.Machine.execEpochView arg s
  | .codewordReceive ch hdr symbols bad pkts lcw => Sys2Proof.Machine.execCodewordReceive ch hdr symbols bad pkts lcw s
  | .modResetWarm m v => Sys2Proof.Machine.execModResetWarm m v s
  | .modResetCold m v => Sys2Proof.Machine.execModResetCold m v s
  | .coreReset d => Sys2Proof.Machine.execCoreReset d s
  | .startRom aOk bOk => Sys2Proof.Machine.execStartRom aOk bOk s
  | .startPlatform a b => Sys2Proof.Machine.execStartPlatform a b s
  | .startClocks rack1 slot1 rack2 slot2 => Sys2Proof.Machine.execStartClocks rack1 slot1 rack2 slot2 s
  | .startIdentity records => Sys2Proof.Machine.execStartIdentity records s
  | .startDieLinks failed => Sys2Proof.Machine.execStartDieLinks failed s
  | .startMemory points selfRefresh bad => Sys2Proof.Machine.execStartMemory points selfRefresh bad s
  | .startSelftest failing => Sys2Proof.Machine.execStartSelftest failing s
  | .startOptics lsStatus feeds failed => Sys2Proof.Machine.execStartOptics lsStatus feeds failed s
  | .startReplay imageOk => Sys2Proof.Machine.execStartReplay imageOk s
  | .copy v => Sys2Proof.Machine.execCopy v s
  | .restore v => Sys2Proof.Machine.execRestore v s
  | .outerReset v => Sys2Proof.Machine.execOuterReset v s
  | .selftestFull v => Sys2Proof.Machine.execSelftestFull v s
  | .selftestCd v => Sys2Proof.Machine.execSelftestCd v s
  | .abort v => Sys2Proof.Machine.execAbort v s
  | .rcvDone cause => Sys2Proof.Machine.execRcvDone cause s
  | .hvFrame link frame => Sys2Proof.Machine.execHvFrame link frame s
  | .hvLinkSilent link => Sys2Proof.Machine.execHvLinkSilent link s
  | .matePinRise pin => Sys2Proof.Machine.execMatePinRise pin s
  | .dvfsChange d => Sys2Proof.Machine.execDvfsChange d s
  | .cdTempRead d temp => Sys2Proof.Machine.execCdTempRead d temp s
  | .stretchLimitDown d => Sys2Proof.Machine.execStretchLimitDown d s
  | .coolLimitUp d => Sys2Proof.Machine.execCoolLimitUp d s
  | .cdSensorTimeout d => Sys2Proof.Machine.execCdSensorTimeout d s
  | .rackclkCheck ppm => Sys2Proof.Machine.execRackclkCheck ppm s
  | .racksyncFrame bits => Sys2Proof.Machine.execRacksyncFrame bits s
  | .msixUnmask v => Sys2Proof.Machine.execMsixUnmask v s
  | .msixWindowEnd v pldm => Sys2Proof.Machine.execMsixWindowEnd v pldm s
  | .setEndpointId path eid => Sys2Proof.Machine.execSetEndpointId path eid s
  | .pldmRequest path type cmd arg => Sys2Proof.Machine.execPldmRequest path type cmd arg s
  | .getNonce path => Sys2Proof.Machine.execGetNonce path s
  | .getAttest path nonce => Sys2Proof.Machine.execGetAttest path nonce s
  | .getCert path => Sys2Proof.Machine.execGetCert path s
  | .readLog path cls first => Sys2Proof.Machine.execReadLog path cls first s
  | .ownerBind path body sigOk => Sys2Proof.Machine.execOwnerBind path body sigOk s
  | .ownerRevoke path body sigOk => Sys2Proof.Machine.execOwnerRevoke path body sigOk s
  | .ownerAdvance path body sigOk => Sys2Proof.Machine.execOwnerAdvance path body sigOk s
  | .ownerLogClear path body sigOk => Sys2Proof.Machine.execOwnerLogClear path body sigOk s
  | .nonceExpire path => Sys2Proof.Machine.execNonceExpire path s
  | .reset path v => Sys2Proof.Machine.execReset path v s
  | .epoch path v => Sys2Proof.Machine.execEpoch path v s
  | .flashWrite path pi off data => Sys2Proof.Machine.execFlashWrite path pi off data s
  | .flashPrefer path pi copy ok => Sys2Proof.Machine.execFlashPrefer path pi copy ok s
  | .recover path v => Sys2Proof.Machine.execRecover path v s
  | .otherDieTempRead which temp => Sys2Proof.Machine.execOtherDieTempRead which temp s
  | .completionTimeout tag => Sys2Proof.Machine.execCompletionTimeout tag s
  | .hostReadCompletion tag data => Sys2Proof.Machine.execHostReadCompletion tag data s
  | .busMasterEnable en => Sys2Proof.Machine.execBusMasterEnable en s
  | .rowCeAge st row => Sys2Proof.Machine.execRowCeAge st row s
  | .linkAckTimeout ch lsn => Sys2Proof.Machine.execLinkAckTimeout ch lsn s
  | .replayStoreSend port => Sys2Proof.Machine.execReplayStoreSend port s
  | .helloTimer ch => Sys2Proof.Machine.execHelloTimer ch s
  | .helloSilent ch => Sys2Proof.Machine.execHelloSilent ch s
  | .lsIbi status => Sys2Proof.Machine.execLsIbi status s
  | .lsStatusPoll status => Sys2Proof.Machine.execLsStatusPoll status s
  | .lsFault status feedFault => Sys2Proof.Machine.execLsFault status feedFault s
  | .feedLoss j => Sys2Proof.Machine.execFeedLoss j s
  | .feedReturn j => Sys2Proof.Machine.execFeedReturn j s
  | .ringAcquireDone r found => Sys2Proof.Machine.execRingAcquireDone r found s
  | .ringVerifyDone r tone => Sys2Proof.Machine.execRingVerifyDone r tone s
  | .lockLost r => Sys2Proof.Machine.execLockLost r s
  | .ringFeedforward port fib rx temp => Sys2Proof.Machine.execRingFeedforward port fib rx temp s
  | .ditherWindow r tone => Sys2Proof.Machine.execDitherWindow r tone s
  | .restPrepare ch => Sys2Proof.Machine.execRestPrepare ch s
  | .restSlot port => Sys2Proof.Machine.execRestSlot port s
  | .restCalDone ch vals => Sys2Proof.Machine.execRestCalDone ch vals s
  | .shutterClose port fib => Sys2Proof.Machine.execShutterClose port fib s
  | .shutterProbe port fib => Sys2Proof.Machine.execShutterProbe port fib s
  | .shutterOpen port fib => Sys2Proof.Machine.execShutterOpen port fib s
  | .flitReceive g check data => Sys2Proof.Machine.execFlitReceive g check data s
  | .flitNak g => Sys2Proof.Machine.execFlitNak g s
  | .laneSteer g lane => Sys2Proof.Machine.execLaneSteer g lane s
  | .laneRetrain g => Sys2Proof.Machine.execLaneRetrain g s
  | .laneRecal g lane => Sys2Proof.Machine.execLaneRecal g lane s
  | .laneFailing g lane margin => Sys2Proof.Machine.execLaneFailing g lane margin s
  | .laneRecalDone g => Sys2Proof.Machine.execLaneRecalDone g s
  | .retrainDone g good => Sys2Proof.Machine.execRetrainDone g good s
  | .muxSwitch dom src => Sys2Proof.Machine.execMuxSwitch dom src s
  | .muxForced dom => Sys2Proof.Machine.execMuxForced dom s
  | .muxDead dom => Sys2Proof.Machine.execMuxDead dom s
  | .flashWearLevel blk => Sys2Proof.Machine.execFlashWearLevel blk s
  | .calSkip ch => Sys2Proof.Machine.execCalSkip ch s
  | .activation => Sys2Proof.Machine.execActivation s
  | .imageStopped => Sys2Proof.Machine.execImageStopped s
  | .gangGrant => Sys2Proof.Machine.execGangGrant s
  | .stepUnitEndStep => Sys2Proof.Machine.execStepUnitEndStep s
  | .finisherComplete => Sys2Proof.Machine.execFinisherComplete s
  | .thermalSlowRepeat => Sys2Proof.Machine.execThermalSlowRepeat s
  | .epochDrainDone => Sys2Proof.Machine.execEpochDrainDone s
  | .powerApplied => Sys2Proof.Machine.execPowerApplied s
  | .linkReset => Sys2Proof.Machine.execLinkReset s
  | .xtalStable => Sys2Proof.Machine.execXtalStable s
  | .xtalTimeout => Sys2Proof.Machine.execXtalTimeout s
  | .startReady => Sys2Proof.Machine.execStartReady s
  | .xtalFail => Sys2Proof.Machine.execXtalFail s
  | .xtalFailReset => Sys2Proof.Machine.execXtalFailReset s
  | .verdictPoll => Sys2Proof.Machine.execVerdictPoll s
  | .resolveTimeout => Sys2Proof.Machine.execResolveTimeout s
  | .hvLinkLost => Sys2Proof.Machine.execHvLinkLost s
  | .hvLinkStop => Sys2Proof.Machine.execHvLinkStop s
  | .shutdown => Sys2Proof.Machine.execShutdown s
  | .ackSeq => Sys2Proof.Machine.execAckSeq s
  | .hvUndervoltage => Sys2Proof.Machine.execHvUndervoltage s
  | .hvOvervoltage => Sys2Proof.Machine.execHvOvervoltage s
  | .hvOvercurrent => Sys2Proof.Machine.execHvOvercurrent s
  | .hvOvertemp => Sys2Proof.Machine.execHvOvertemp s
  | .hotswapClose => Sys2Proof.Machine.execHotswapClose s
  | .powerShapeTick => Sys2Proof.Machine.execPowerShapeTick s
  | .limitDvfsDown => Sys2Proof.Machine.execLimitDvfsDown s
  | .limitDvfsUp => Sys2Proof.Machine.execLimitDvfsUp s
  | .heartbeatMiss => Sys2Proof.Machine.execHeartbeatMiss s
  | .thermalTrip => Sys2Proof.Machine.execThermalTrip s
  | .racksyncEdge => Sys2Proof.Machine.execRacksyncEdge s
  | .tbHoldover => Sys2Proof.Machine.execTbHoldover s
  | .telemetryFrame => Sys2Proof.Machine.execTelemetryFrame s
  | .d3hotEnter => Sys2Proof.Machine.execD3hotEnter s
  | .d0Return => Sys2Proof.Machine.execD0Return s
  | .lockoutExpire => Sys2Proof.Machine.execLockoutExpire s
  | .pcieLinkUp => Sys2Proof.Machine.execPcieLinkUp s

end Sys2Proof.Machine
end

