-- ==== Sys2Proof/Machine/Step.lean ====
section
/-! DEFINITION. Machine/Step.lean: one step: the command at the front of the queue, or a nanosecond of time. -/
namespace Sys2Proof.Machine
open Sys2Proof

/-- The state without its queue's front command. -/
def State.withPending (s : State) (q : List Instr) : State := { s with pending := q }

/-- One step. DESIGN CHOICE: on an empty queue one nanosecond passes. -/
def step (s : State) : Host.Outcome State Fault Refusal :=
  match s.pending with
  | [] => .next (advance 1 s)
  | i :: rest => exec i (s.withPending rest)

/-- The command that a table word spells, put at the front of the queue; no row has an encoding. -/
def State.withFetchWord (s : State) (nbits w : Nat) : State :=
  match decodeTableWord nbits w with
  | some i => s.withPending (i :: s.pending)
  | none => s

end Sys2Proof.Machine
end

