-- ==== Sys2Proof/Safety.lean ====
section
/-! DEFINITION. Safety.lean: what counts as a safe run, and the invariants of a state that the statements use. -/
namespace Sys2Proof.Machine
open Sys2Proof

/-- A step that goes on. -/
def Runs (s : State) : Prop := ∃ t, step s = .next t

/-- Every sparse store of module memory is in its canonical form. -/
def MemState.wf (m : MemState) : Bool :=
  SMap.wf 0 m.hbm && SMap.wf false m.poison && SMap.wf false m.ue && SMap.wf false m.ce

/-- The anti-rollback counters lie within the fuses there are for them (R506). -/
def OtpState.wf (o : OtpState) : Bool := o.ctrs.toList.all fun n => decide (n ≤ 64)

/-! ### Frames -/

/-- The components of the state. -/
inductive Comp where
  | pending | clk | tb | free | out | regs | rs | host | sync | dies | gang | step | maq | img | upd | mem | fab | coll | plat | opt | dl | flash | otp | start | rcv | pwr | clocks | tbs | sec | tel
  deriving DecidableEq, Repr

/-- `s` with the components of `K` at their reset values. -/
def State.erase (K : Comp → Bool) (s : State) : State :=
  { pending := if K .pending then State.reset.pending else s.pending
    clk := if K .clk then State.reset.clk else s.clk
    tb := if K .tb then State.reset.tb else s.tb
    free := if K .free then State.reset.free else s.free
    out := if K .out then State.reset.out else s.out
    regs := if K .regs then State.reset.regs else s.regs
    rs := if K .rs then State.reset.rs else s.rs
    host := if K .host then State.reset.host else s.host
    sync := if K .sync then State.reset.sync else s.sync
    dies := if K .dies then State.reset.dies else s.dies
    gang := if K .gang then State.reset.gang else s.gang
    step := if K .step then State.reset.step else s.step
    maq := if K .maq then State.reset.maq else s.maq
    img := if K .img then State.reset.img else s.img
    upd := if K .upd then State.reset.upd else s.upd
    mem := if K .mem then State.reset.mem else s.mem
    fab := if K .fab then State.reset.fab else s.fab
    coll := if K .coll then State.reset.coll else s.coll
    plat := if K .plat then State.reset.plat else s.plat
    opt := if K .opt then State.reset.opt else s.opt
    dl := if K .dl then State.reset.dl else s.dl
    flash := if K .flash then State.reset.flash else s.flash
    otp := if K .otp then State.reset.otp else s.otp
    start := if K .start then State.reset.start else s.start
    rcv := if K .rcv then State.reset.rcv else s.rcv
    pwr := if K .pwr then State.reset.pwr else s.pwr
    clocks := if K .clocks then State.reset.clocks else s.clocks
    tbs := if K .tbs then State.reset.tbs else s.tbs
    sec := if K .sec then State.reset.sec else s.sec
    tel := if K .tel then State.reset.tel else s.tel }

/-- `t` differs from `s` in the components `ks` at most. -/
def changesOnly (ks : List Comp) (s t : State) : Prop :=
  t.erase (fun c => decide (c ∈ ks)) = s.erase (fun c => decide (c ∈ ks))

/-! ### Register accesses -/

/-- Master `m` may access the register word at `off`: its window is open, and for the host the module accepts memory requests. -/
def mayAccess (s : State) (m : Master) (off : Nat) : Prop := (m = .host → hostOpen s = true) ∧ wordOpen s off = true

/-- `off` holds a 32-bit register of access type `ty`. -/
def plainReg (off : Nat) (ty : RegTy) : Prop :=
  (regRow off).map RegRow.ty = some ty ∧ isLowWord off = false ∧ isHighWord off = false

/-- Every register word but those at `offs` is as before. -/
def sameRegsBut (offs : List Nat) (s t : State) : Prop := ∀ o, o ∉ offs → reg t o = reg s o

/-! ## Predicates of the statements -/

/-! ### Module memory -/

/-- The byte at a module address, whatever errors it holds; 0 where unmapped. -/
def byteAt (m : MemState) (a : Nat) : Byte :=
  match phys m a with
  | some p => SMap.get 0 m.hbm p
  | none => 0

/-- No two addresses of the range are one byte. -/
def distinctBytes (m : MemState) (a len : Nat) : Prop :=
  ∀ i j, i < len → j < len → phys m (a + i) = phys m (a + j) → i = j

/-- A mapped range of stacks outside EMERGENCY, with no command parity error to come, no row repair in hand and no error not
yet found. -/
def cleanRange (m : MemState) (a len : Nat) : Prop :=
  mappedRange m a len = true ∧ m.parity = 0 ∧
  ∀ g ∈ gransOf m a len, m.st[granStack g.1].emergency = false ∧ m.st[granStack g.1].repairs = [] ∧ SMap.get false m.ue g.1 = false ∧ SMap.get false m.ce g.1 = false

/-- No granule of the range is poisoned. -/
def unpoisoned (m : MemState) (a len : Nat) : Prop := ∀ g ∈ gransOf m a len, SMap.get false m.poison g.1 = false

/-- `data` stands at `a` in `t`, and every byte of memory elsewhere is as in `s`. -/
def storedAt (a : Nat) (data : List Byte) (s t : MemState) : Prop :=
  (∀ i (h : i < data.length), byteAt t (a + i) = data[i]) ∧
  (∀ b, (∀ i, i < data.length → phys s b ≠ phys s (a + i)) → byteAt t b = byteAt s b)

/-! ### Synchronisation -/

/-- How the waiter `w` ended in `t`: the status its slot or its stream shows. -/
def endedWith (t : State) (w : Waiter) (status : Nat) : Prop :=
  match w.who with
  | .slot n => fld (reg t (rHwStat + 16 * n.val)) 31 28 = status ∧ slotArmed t n = false
  | .stream d c => (str t d c).waiter = status

/-- Every waiter wants more than the count: none is held back only by an earlier TAKE. -/
def unserved (o : SyncObj) : Prop := ∀ w ∈ o.waiters, o.count < w.v

/-- Every waiter is a host-wait slot, and no slot waits twice. -/
def slotWaiters (o : SyncObj) : Prop :=
  (∀ w ∈ o.waiters, ∃ n, w.who = .slot n) ∧ (o.waiters.map Waiter.who).Nodup

/-! ### Stacks -/

/-- Every stack but `n` is as before. -/
def otherStacks (n : Stack) (s t : State) : Prop := ∀ m, m ≠ n → t.mem.st[m] = s.mem.st[m]

/-- The contents and marks of module memory are as before. -/
def sameContents (s t : State) : Prop :=
  t.mem.hbm = s.mem.hbm ∧ t.mem.poison = s.mem.poison ∧ t.mem.ue = s.mem.ue ∧ t.mem.ce = s.mem.ce

/-- Time has passed to `e`, if that lay ahead; the status registers, memory contents and streams have not changed by it. -/
def passedTo (e : Nat) (s t : State) : Prop := t.clk = max s.clk e

/-! ### The fabric -/

/-- A packet of type `ty` arrives for this module and meets no check of R298 to R302, R310 and R323; its CRC is right (R299). -/
def accepted (s : State) (ty : BitVec 6) (p : Packet) (ch : Chan) : Prop :=
  p.type = ty ∧ ((link s ch).quar = 0 ∨ ty = ptHello) ∧ wellShaped p = true ∧ tooOld s p = false ∧
  epochOk s p.epoch = true ∧ (p.dstMod = s.fab.modId ∨ (p.cls = clMgmt ∧ p.scope ≠ 0)) ∧
  p.dstEp.toNat < 27 ∧ p.crc.toNat = pktCrc p

/-! ### Streams -/

/-- Stream `c` of die `d` has moved on over one descriptor, which counts as issued. -/
def movedOn (d : Die) (c : Sid) (s t : State) : Prop :=
  (str t d c).pc = (str s d c).pc + 64 ∧ (str t d c).expect = (str s d c).expect + 1 ∧ (str t d c).cur = none ∧
  (str t d c).waitRef = none ∧ reg64 t (cdWin d.val + rStrIssued) = reg64 s (cdWin d.val + rStrIssued) + 1

/-- Every stream but `c` of die `d` is as before. -/
def otherStreams (d : Die) (c : Sid) (s t : State) : Prop := ∀ e k, e ≠ d ∨ k ≠ c → str t e k = str s e k

/-- The stash mode of the descriptor's layer is settled for the attempt, or needs no settling. -/
def modeSettled (s : State) (d : Die) (c : Sid) (w : BitVec 512) : Prop := stashTake s d c w = (true, s)

/-- The descriptor `w` stands at issue in stream `c` of die `d`, the mode of its layer is settled, and its gate runs it. -/
def issuing (s : State) (d : Die) (c : Sid) (ty : Nat) (w : BitVec 512) : Prop :=
  atIssue s d c ty = some w ∧ modeSettled s d c w ∧ gateRuns s (str s d c) w = true

/-- `t` with the note that the issue of `w` makes beside its effect: a layer whose recompute descriptor a B stream has issued counts
as recomputed. -/
def issueNoted (s : State) (d : Die) (c : Sid) (w : BitVec 512) (t : State) : State :=
  if (str t d c).pc = (str s d c).pc then t else noteRecompute t c (str s d c).attempt w

/-- No object lists the stream as a waiter. -/
def notWaiting (s : State) (d : Die) (c : Sid) : Prop := ∀ o, ∀ w ∈ (getObj s o).waiters, w.who ≠ .stream d c

/-- The descriptor at a module address. -/
def descAt (s : State) (pc : DWord) : BitVec 512 :=
  BitVec.ofNat 512 (leNat ((List.range 64).map fun i => byteAt s.mem (pc.toNat + i)))

/-- The stream may fetch, and a sound, mapped descriptor of the image stands at its program pointer. -/
def fetchable (s : State) (d : Die) (c : Sid) : Prop :=
  mayAct s d c = true ∧ (str s d c).cur = none ∧ pcOk s (str s d c).pc = true ∧ cleanRange s.mem (str s d c).pc.toNat 64 ∧
  unpoisoned s.mem (str s d c).pc.toNat 64

/-- The stream stands in a step body, outside the poison path and pass 2. -/
def inStep (s : State) (d : Die) (c : Sid) : Prop :=
  (str s d c).prologue = false ∧ (str s d c).poison = false ∧ (str s d c).pass2 = false

/-- The tile store of a die holds no error. -/
def soundStore (s : State) (d : Die) : Prop := (die s d).tsUe = [] ∧ (die s d).tsCe = []

/-- The byte of a tile store. -/
def tsByte (s : State) (d : Die) (o : Nat) : Byte := SMap.get 0 (die s d).ts o

/-! ### The vector engine -/

/-- The OPCODE of a vector instruction (R150). -/
def vecOpcode : Instr → Nat
  | .nop _ => 0x00
  | .endProg _ => 0x01
  | .loop _ => 0x02
  | .loopi _ => 0x03
  | .endloop _ => 0x04
  | .setvl _ => 0x05
  | .sparam _ => 0x06
  | .sli _ => 0x08
  | .slih _ => 0x09
  | .sadd _ => 0x0A
  | .saddi _ => 0x0B
  | .ssub _ => 0x0C
  | .smuli _ => 0x0D
  | .sshli _ => 0x0E
  | .sshri _ => 0x0F
  | .tqpop _ => 0x18
  | .tqrel _ => 0x19
  | .vguard _ => 0x1A
  | .vunsc _ => 0x1B
  | .vadd _ => 0x20
  | .vaddi _ => 0x21
  | .vsub _ => 0x22
  | .vsubi _ => 0x23
  | .vmul _ => 0x24
  | .vmuli _ => 0x25
  | .vmax _ => 0x26
  | .vmaxi _ => 0x27
  | .vmin _ => 0x28
  | .vmini _ => 0x29
  | .vfma _ => 0x2A
  | .vfmai _ => 0x2B
  | .vfms _ => 0x2C
  | .vfmsi _ => 0x2D
  | .vfnma _ => 0x2E
  | .vfnmai _ => 0x2F
  | .vabs _ => 0x30
  | .vneg _ => 0x31
  | .vmov _ => 0x32
  | .vmovi _ => 0x33
  | .vrndf _ => 0x34
  | .vcvtif _ => 0x35
  | .vcvtfi _ => 0x36
  | .vbcast _ => 0x37
  | .vexp2 _ => 0x38
  | .vlog2 _ => 0x39
  | .vrcp _ => 0x3A
  | .vrsqrt _ => 0x3B
  | .vsqrt _ => 0x3C
  | .vdiv _ => 0x3D
  | .vtanh _ => 0x3E
  | .viadd _ => 0x40
  | .viaddi _ => 0x41
  | .visub _ => 0x42
  | .visubi _ => 0x43
  | .vimul _ => 0x44
  | .vimuli _ => 0x45
  | .vand _ => 0x46
  | .vandi _ => 0x47
  | .vor _ => 0x48
  | .vori _ => 0x49
  | .vxor _ => 0x4A
  | .vxori _ => 0x4B
  | .vshl _ => 0x4C
  | .vshli _ => 0x4D
  | .vshr _ => 0x4E
  | .vshri _ => 0x4F
  | .vsra _ => 0x50
  | .vsrai _ => 0x51
  | .vidx _ => 0x52
  | .vslide _ => 0x53
  | .vcmpeq _ => 0x58
  | .vcmpeqi _ => 0x59
  | .vcmplt _ => 0x5A
  | .vcmplti _ => 0x5B
  | .vcmple _ => 0x5C
  | .vcmplei _ => 0x5D
  | .vcmpun _ => 0x5E
  | .vicmpeq _ => 0x60
  | .vicmpeqi _ => 0x61
  | .vicmplt _ => 0x62
  | .vicmplti _ => 0x63
  | .mand _ => 0x68
  | .mor _ => 0x69
  | .mxor _ => 0x6A
  | .mandn _ => 0x6B
  | .vcpop _ => 0x70
  | .viota _ => 0x71
  | .vrank _ => 0x72
  | .vrsum _ => 0x78
  | .vrsump _ => 0x79
  | .vrssqp _ => 0x7A
  | .vrmax _ => 0x7B
  | .vrmin _ => 0x7C
  | .vrmaxi _ => 0x7D
  | .vpadd _ => 0x80
  | .vpnorm _ => 0x81
  | .vdadd _ => 0x84
  | .vdmul _ => 0x85
  | .vdfma _ => 0x86
  | .vcvtdf _ => 0x87
  | .vcvtfd _ => 0x88
  | .vld _ => 0x90
  | .vlds _ => 0x91
  | .vldx _ => 0x92
  | .vldri _ => 0x93
  | .vst _ => 0x98
  | .vsts _ => 0x99
  | .vstx _ => 0x9A
  | .vstri _ => 0x9B
  | .vstxa _ => 0x9C
  | .vaddri _ => 0x9D
  | _ => 0xFF

/-- The opcodes that R150 gives no instruction. -/
def reservedOps : List Nat := [0x07] ++ List.range' 0x10 8 ++ [0x1C, 0x1D, 0x1E, 0x1F, 0x3F, 0x54, 0x55, 0x56, 0x57, 0x5F, 0x64, 0x65, 0x66, 0x67,
  0x6C, 0x6D, 0x6E, 0x6F, 0x73, 0x74, 0x75, 0x76, 0x77, 0x7E, 0x7F, 0x82, 0x83, 0x89, 0x8A, 0x8B, 0x8C, 0x8D, 0x8E, 0x8F, 0x94, 0x95, 0x96, 0x97] ++
  List.range' 0x9E 98

/-- The context may issue: its program runs and waits for no tile, and the word of the program store at its program counter is the
instruction `i` with the operands of `v`. -/
def vecReady (s : State) (v : VIns) (i : Instr) : Prop :=
  (vctx s v.die v.ctx).running = true ∧ (die s v.die).coreReset = false ∧ (vctx s v.die v.ctx).waitTq = false ∧
  (vctx s v.die v.ctx).pc ≤ 32767 ∧ SMap.get 0 (die s v.die).prog (vctx s v.die v.ctx).pc = BitVec.ofNat 8 (vecOpcode i) ++ v.w

/-- The instruction is counted; every other context and every stream is as before. -/
def vecCounted (v : VIns) (s t : State) : Prop :=
  reg64 t (cdWin v.die.val + rVecInstr) = reg64 s (cdWin v.die.val + rVecInstr) + 1 ∧
  (∀ e c, e ≠ v.die ∨ c ≠ v.ctx → vctx t e c = vctx s e c) ∧ ∀ e c, str t e c = str s e c

/-- The context has moved on one instruction and may have changed in its vector registers only. -/
def vecStepped (v : VIns) (s t : State) : Prop :=
  vctx t v.die v.ctx = { vctx s v.die v.ctx with pc := (vctx s v.die v.ctx).pc + 1, vregs := (vctx t v.die v.ctx).vregs }

/-- What each lane of vector register `r` holds: `f` in an active lane, +0 in an inactive one below VL where ZERO is set, else what it held. -/
def laneResult (v : VIns) (s t : State) (r : Nat) (f : Nat → Word) : Prop :=
  ∀ i, i < 2048 → (vctx t v.die v.ctx).lane r i =
    if i < (vctx s v.die v.ctx).vl ∧ (vctx s v.die v.ctx).maskBit v.mask i = true then f i
    else if i < (vctx s v.die v.ctx).vl ∧ v.zero = true then 0 else (vctx s v.die v.ctx).lane r i

/-- Every vector register but `rs` is as before. -/
def otherLanes (v : VIns) (s t : State) (rs : List Nat) : Prop :=
  (vctx s v.die v.ctx).vl ≤ 2048 → ∀ r i, r ∉ rs → i < 2048 → (vctx t v.die v.ctx).lane r i = (vctx s v.die v.ctx).lane r i

/-- The instruction completes, and writes `f` to the lanes of vd alone. -/
def laneOp (v : VIns) (s t : State) (f : Nat → Word) : Prop :=
  vecCounted v s t ∧ vecStepped v s t ∧ laneResult v s t v.rd f ∧ otherLanes v s t [v.rd]

/-- The same for an instruction that writes the pair vd and vd + 1: `f` gives the two words of a lane. -/
def pairOp (v : VIns) (s t : State) (f : Nat → Word × Word) : Prop :=
  vecCounted v s t ∧ vecStepped v s t ∧ laneResult v s t v.rd (fun i => (f i).1) ∧ laneResult v s t (v.rd + 1) (fun i => (f i).2) ∧
  otherLanes v s t [v.rd, v.rd + 1]

/-- The instruction completes, and writes `f` to the bits of mask register MD alone. -/
def maskOp (v : VIns) (s t : State) (f : Nat → Bool) : Prop :=
  vecCounted v s t ∧
  vctx t v.die v.ctx = { vctx s v.die v.ctx with pc := (vctx s v.die v.ctx).pc + 1, masks := (vctx t v.die v.ctx).masks } ∧
  (∀ k i, k < 8 → i < 2048 → (vctx t v.die v.ctx).maskBit k i =
    if k ≠ v.md then (vctx s v.die v.ctx).maskBit k i
    else if i < (vctx s v.die v.ctx).vl ∧ (vctx s v.die v.ctx).maskBit v.mask i = true then f i
    else if i < (vctx s v.die v.ctx).vl ∧ v.zero = true then false else (vctx s v.die v.ctx).maskBit k i)

/-- The instruction completes, and writes `x` to scalar register sd alone; s0 stays 0. -/
def scalarOp (v : VIns) (s t : State) (x : DWord) : Prop :=
  vecCounted v s t ∧
  vctx t v.die v.ctx = { vctx s v.die v.ctx with pc := (vctx s v.die v.ctx).pc + 1, sregs := (vctx t v.die v.ctx).sregs } ∧
  ∀ r, (vctx t v.die v.ctx).sreg r = if r = v.rd ∧ r ≠ 0 then x else (vctx s v.die v.ctx).sreg r

/-- Reading `n` bytes at a place meets no error and changes nothing. -/
def quietPlace (s : State) (p : Place) (n : Nat) : Prop :=
  match p with
  | .ts d _ => soundStore s d
  | .hbm a => cleanRange s.mem a n ∧ unpoisoned s.mem a n
  | .bad => False

/-- The place that lane `i` of a memory instruction reaches. -/
def lanePlace (v : VIns) (a : DWord) : Place := placeOf v.die v.space a.toNat

/-- The scale byte of lane `i`'s block in an MX load. -/
def scalePlace (s : State) (v : VIns) (i : Nat) : Place :=
  placeOf v.die v.space ((vctx s v.die v.ctx).sreg v.rc + w64 (i / 32)).toNat

/-- What an error-free load puts in lane `i`: the element at its address, with its block's scale for an MX format. -/
def loaded (s : State) (v : VIns) (a : DWord) (i : Nat) : List Word :=
  laneWords v.fmt i (peekPlace s (lanePlace v a) (colSpan v.fmt))
    (if isMx v.fmt then some (leNat (peekPlace s (scalePlace s v i) 1)) else none)

/-- The code that a store of lane `i` writes in a format without block scale. -/
def storedCode (s : State) (v : VIns) (i : Nat) : Nat :=
  if v.fmt = 0 then ((vctx s v.die v.ctx).lane64 v.rd i).toNat
  else if v.fmt = 1 then ((vctx s v.die v.ctx).lane v.rd i).toNat
  else (fmtEncode v.fmt v.sat (dec32 ((vctx s v.die v.ctx).lane v.rd i))).1

/-- The lanes `ls` reach separate places of the die's own tile store, permitted and aligned, `n` bytes each. -/
def separateLanes (s : State) (v : VIns) (ls : List Nat) (addr : Nat → DWord) (n : Nat) : Prop :=
  v.space = 0 ∧ soundStore s v.die ∧ (∀ i ∈ ls, laneFault s v true (addr i) = none) ∧
  ∀ i ∈ ls, ∀ j ∈ ls, i ≠ j → (addr i).toNat + n ≤ (addr j).toNat ∨ (addr j).toNat + n ≤ (addr i).toNat

/-- The tile store of the die holds `bytes i` at the address of each lane of `ls`, and its other bytes are as before. -/
def lanesStored (s t : State) (v : VIns) (ls : List Nat) (addr : Nat → DWord) (n : Nat) (bytes : Nat → List Byte) : Prop :=
  (∀ i ∈ ls, ∀ k, k < n → some (tsByte t v.die ((addr i).toNat + k)) = (bytes i)[k]?) ∧
  ∀ o, (∀ i ∈ ls, ∀ k, k < n → o ≠ (addr i).toNat + k) → tsByte t v.die o = tsByte s v.die o

/-- The instruction is counted, the context moves on, and it changes nothing in the context. -/
def vecMoved (v : VIns) (s t : State) : Prop :=
  vecCounted v s t ∧ vctx t v.die v.ctx = { vctx s v.die v.ctx with pc := (vctx s v.die v.ctx).pc + 1 }

/-! ### Packets at their destination -/

/-- The packet is the next of its flow, which is live, holds nothing for later and waits for no host read. -/
def inTurn (s : State) (p : Packet) : Prop :=
  ∃ f, s.fab.dst.filter (fun g => g.serves p) = [f] ∧ serialD 16 p.fseq.toNat f.point.toNat = 1 ∧ f.held = [] ∧ f.busy = false ∧
    s.clk < f.last + s.fab.timers.flowIdle * 1000

/-- The packet leaves the receive pool of its channel, and its credit is granted again (R317). -/
def poolFreed (p : Packet) (ch : Chan) (s : State) : State := freeCredit s ch (pktVc p) (flits p)

/-- The arrival of `p` on `ch` is noted: its flits are counted, and a link control word acknowledges it. -/
def noted (p : Packet) (ch : Chan) (s t : State) : Prop :=
  reg64 t rRxFlits = reg64 s rRxFlits + w64 (flits p) ∧
  .linkControl ⟨ch, (link t ch).rxNext - 1, [], []⟩ ∈ t.out ∧
  ((link s ch).rxSeen = [] → p.lsn = (link s ch).rxNext → (link t ch).rxNext = p.lsn + 1) ∧
  (p.relief = false → ∀ c, chanNo c ≠ chanNo ch → link t c = link s c) ∧
  t.fab = { s.fab with links := t.fab.links, dst := t.fab.dst, turn := t.fab.turn }

/-- The flow of `p` stands at its FSEQ, and keeps the reply for duplicates. -/
def replied (p : Packet) (code : Nat) (data : List Byte) (s t : State) : Prop :=
  t.fab.dst = s.fab.dst.map fun f => if f.serves p then
    { f with point := p.fseq, last := s.clk, replies := (f.replies ++ [(p.fseq, code, data)]).drop (f.replies.length + 1 - 64) } else f

/-- A die's tile store holds `data` at `a`, and nothing else of the die has changed. -/
def tileStored (d : Die) (a : Nat) (data : List Byte) (s t : State) : Prop :=
  (∀ i (h : i < data.length), tsByte t d (a + i) = data[i]) ∧ (∀ o, o < a ∨ a + data.length ≤ o → tsByte t d o = tsByte s d o) ∧
  die t d = { die s d with ts := (die t d).ts } ∧ ∀ e, e ≠ d → die t e = die s e

/-- The flow of a request that waited for host memory keeps its reply for duplicates, waits no longer, and is otherwise as
before. -/
def keptReply (p : Packet) (code : Nat) (data : List Byte) (s t : State) : Prop :=
  t.fab = { s.fab with dst := s.fab.dst.map fun f => if f.serves p then
    { f with busy := false, replies := (f.replies ++ [(p.fseq, code, data)]).drop (f.replies.length + 1 - 64) } else f }

/-- One request is outstanding, made by `u`, and `p` names it. -/
def awaiting (s : State) (o : OutPkt) (u : TxnUser) (p : Packet) : Prop :=
  s.fab.outs = [o] ∧ o.oid < 16384 ∧ o.pkt.txn = p.txn ∧ o.answer = none ∧ o.user = u

/-- The packets of this unit carry no payload. -/
def noPayload (u : TxnUser) : Prop := (∃ d c i ref, u = .signal d c i ref) ∨ ∃ att, u = .verdict att

/-! ### Optics -/

/-- The link of a channel carries nothing, and must be accepted again. -/
def leftService (t : State) (c : Chan) : Prop := (link t c).up = false ∧ (link t c).accepted = false

/-- Every ring but `r` is as before. -/
def otherRings (r : Ring) (s t : State) : Prop := ∀ q, ringNo q ≠ ringNo r → ring t q = ring s q

/-! ### Starts -/

/-- A start leaves everything at its reset value but the components `ks`; time, flash, OTP and the module's variant are kept. -/
def clearedBut (ks : List Comp) (s t : State) : Prop :=
  changesOnly (ks ++ [.pending, .clk, .free, .out, .flash, .otp, .mem, .host]) State.reset t ∧ t.pending = s.pending ∧ t.clk = s.clk ∧
  t.flash = s.flash ∧ t.otp = s.otp ∧ t.mem.variant = s.mem.variant ∧ t.host = { perst := s.host.perst }

/-- The registers are at their reset values, but for the cause of the start. -/
def causeNoted (warm : Bool) (src : Nat) (t : State) : Prop :=
  reg t rResetCause = w32 (b2n warm * 2 ^ 31 + src * 2 ^ 27) ∧ ∀ o, o ≠ rResetCause → reg t o = resetWord o

/-- A COLD start from `s` gives `t`: memory contents, timebase, crystal and registers are at reset; POWER is complete. -/
def coldStarted (src : Nat) (s t : State) : Prop :=
  clearedBut [.regs, .pwr, .start] s t ∧ t.mem = { variant := s.mem.variant } ∧ causeNoted false src t ∧
  t.start = { began := s.clk, passed := 1 } ∧
  t.pwr = { closed := true, latched := s.pwr.latched, mateA := s.pwr.mateA, mateB := s.pwr.mateB, undervolt := s.pwr.undervolt }

/-- A WARM start from `s` gives `t`: memory contents, timebase, crystal and lockout count are kept. -/
def warmStarted (src : Nat) (s t : State) : Prop :=
  clearedBut [.regs, .pwr, .start, .tb, .tbs, .clocks, .sec, .upd] s t ∧ causeNoted true src t ∧
  t.mem = { variant := s.mem.variant, hbm := s.mem.hbm, poison := s.mem.poison, ue := s.mem.ue, ce := s.mem.ce } ∧
  t.start = { began := s.clk, passed := 1, warm := true, keepable := passed s stMemory, wasIn := stacksIn s,
              wasOut := allDies.map fun n => s.mem.st[n].chanOut } ∧
  t.pwr = { closed := s.pwr.closed, latched := s.pwr.latched, mateA := s.pwr.mateA, mateB := s.pwr.mateB, undervolt := s.pwr.undervolt } ∧
  t.tb = s.tb ∧ t.clocks = { xtal := s.clocks.xtal, mux := t.clocks.mux } ∧ t.sec = { fails := s.sec.fails, lastFail := s.sec.lastFail } ∧
  t.upd = { partly := s.upd.partly, tiles := s.upd.tiles }

/-- The hot-swap has opened: the logic side holds nothing, and the module does not answer. -/
def supplyCut (s t : State) : Prop :=
  clearedBut [.pwr, .start] s t ∧ t.mem = { variant := s.mem.variant } ∧ t.start = { began := s.clk } ∧ t.pwr.closed = false ∧ hostOpen t = false

/-- The stage that a command ends, and the stages that must have ended before it (R418). -/
def stageOf : Instr → Option (Nat × List Nat)
  | .startRom _ _ => some (1, [0])
  | .startPlatform _ _ => some (2, [1])
  | .startClocks _ _ _ _ => some (3, [2])
  | .startIdentity _ => some (4, [3])
  | .startDieLinks _ => some (5, [4])
  | .startMemory _ _ _ => some (6, [5])
  | .startSelftest _ => some (7, [6])
  | .startOptics _ _ _ => some (8, [5])
  | .startReplay _ => some (9, [7, 8])
  | .startReady => some (10, [0, 1, 2, 3, 4, 5, 6, 7, 8, 9])
  | _ => none

/-- The start stands where command `i` ends its stage. -/
def startAt (s : State) (i : Instr) : Prop := ∃ k need, stageOf i = some (k, need) ∧ stageDue s k need = true

/-- Event `bit` of MOD_START_ERR is set. -/
def startNoted (t : State) (bit : Nat) : Prop := (rsReg t rStartErr).ev.getLsbD bit = true

/-- The preferred copy of a pair, and whether that copy or the other is taken, given which copies pass. -/
def copyTaken (pref aOk bOk : Bool) : Option Bool :=
  if (if pref then bOk else aOk) = true then some pref else if (if pref then aOk else bOk) = true then some !pref else none

/-! ### Clocks and power -/

/-- Event `bit` of the clock, thermal and timebase events is set. -/
def clkNoted (t : State) (bit : Nat) : Prop := (rsReg t rClkErr).ev.getLsbD bit = true

/-- Event `bit` of the power events is set. -/
def pwrNoted (t : State) (bit : Nat) : Prop := (rsReg t rPwrErr).ev.getLsbD bit = true

/-- The clock state of every die but `d`, and every mux, is as before. -/
def otherClocks (d : Die) (s t : State) : Prop :=
  t.clocks = { s.clocks with dies := t.clocks.dies } ∧ ∀ e : Die, e ≠ d → t.clocks.dies[e] = s.clocks.dies[e]

/-- A running image begins to stop after the highest step in flight (R201). -/
def stopAsked (s t : State) : Prop := s.img.st = .running → t.img.st = .stopping ∧ t.img.stopReq = true ∧ t.step.stopStep.isSome = true

/-! ### Recovery and management -/

/-- A command that puts the word `v` to MOD_RCV_CMD: one of the host's rows, or RECOVER over MCTP. -/
def asksRecovery (s : State) (i : Instr) (v : Word) : Prop :=
  (i ∈ [Instr.copy v, .restore v, .outerReset v, .selftestFull v, .selftestCd v, .abort v] ∧ mayAccess s .host rRcvCmd) ∨
  (∃ p, i = .recover p v ∧ p ≠ .mbox ∧ s.start.fin = .ready)

/-- `t` is `u` after object 5 has been signalled, and after a response where there is one. -/
def rcvSignalled (u t : State) : Prop := ∃ o, t = { signalUnit u 5 with out := o ++ (signalUnit u 5).out }

/-- Recovery command `cmd` has failed with `cause`. -/
def rcvFailed (cmd cause : Nat) (u : State) : Prop := u.rcv.st = .failed ∧ u.rcv.cmd = cmd ∧ u.rcv.cause = cause

/-- No two bytes of the two ranges are one byte of memory. -/
def apart (m : MemState) (a la b lb : Nat) : Prop := ∀ i j, i < la → j < lb → phys m (a + i) ≠ phys m (b + j)

/-- A request of management command `cmd` stands on a path that serves it. -/
def served (s : State) (p : Path) (cmd : Nat) (body : Option (List Byte)) : Prop :=
  (s.start.fin = .ready ∨ s.start.fin = .mgmtOnly) ∧ reqStands s p cmd body = true

/-- An OWNER body of operation `op` with the path's live nonce and the module's identity, outside a lockout. -/
def ownerSound (s : State) (p : Path) (b : List Byte) (op : Nat) : Prop :=
  b.length = 324 ∧ leAt b 0x31 1 = op ∧ served s p mcOwner (some b) ∧ (s.sec.fails < 8 ∨ s.sec.lastFail + 60000000000 ≤ s.clk) ∧
  liveNonce s p = some (BitVec.ofNat 256 (leAt b 0 32)) ∧ leAt b 0x20 16 = (msdRecord s).toNat

/-- An authorised OWNER command has succeeded in `u`: its nonce is spent, the lockout count is 0, and SEC_EVT has event `bit`. -/
def ownerDone (u : State) (p : Path) (bit : Nat) : Prop :=
  u.sec.nonces[pathNo p] = none ∧ u.sec.fails = 0 ∧ (rsReg u rSecEvt).ev.getLsbD bit = true

/-- The rows of OWNER, by operation. -/
def ownerRow (op : Nat) (p : Path) (b : List Byte) (ok : Bool) : Instr :=
  match op with | 1 => .ownerBind p b ok | 2 => .ownerRevoke p b ok | 3 => .ownerAdvance p b ok | _ => .ownerLogClear p b ok

/-! ### Invariants -/

/-- The counters of R506 lie within their fuses and no slot has gone back (R503): what one state says of the next. -/
def otpForward (s t : State) : Prop :=
  (∀ k : Fin 3, s.otp.ctrs[k] ≤ t.otp.ctrs[k]) ∧
  ∀ n, (slotState s n = .revoked → slotState t n = .revoked) ∧ (slotState s n = .damaged → slotState t n = .damaged) ∧
    (slotState s n = .bound → slotState t n = .bound ∨ slotState t n = .revoked)

/-- The row that issues a descriptor of a type and operation in stream `c` of die `d`. -/
def issueRow (d : Die) (c : Sid) (w : BitVec 512) (i : Instr) : Prop :=
  match dType w with
  | 1 => i = .array d c
  | 2 => i = .vector d c
  | 3 => i = if dOp w = 0 then .moveCopy d c else .moveZero d c
  | 4 => i = .signal d c
  | 5 => i = if wtMode w = 0 then .waitAtLeast d c else .waitTake d c
  | 6 => (i, cOp w) ∈ [(.reduceScatter d c, 0), (.allGather d c, 1), (.allReduce d c, 2), (.allToAll d c, 3), (.guardOr d c, 4)]
  | 7 => (i, dOp w) ∈ [(.stepBegin d c, 0), (.stepEnd d c, 1), (.guard d c, 2), (.loss d c, 3)]
  | _ => False

end Sys2Proof.Machine
end

