-- ==== Sys2Proof/Certificates/Slice0/Obligations.lean ====
section
/-! DEFINITION. Certificates/Slice0/Obligations.lean: the statements for the provers, one definition each. -/
open Sys2Proof Sys2Proof.Machine

/-- The machine's step: with a command at the front of the queue, it is that command's effect on the state with the queue's rest; no command touches
the queue, and none ends in a fault or a refusal. On an empty queue one nanosecond passes, which is the model's choice (log entry 1). -/
def Obligations.StepRunsTheFrontCommand : Prop :=
  (∀ s i q, s.pending = i :: q → step s = exec i (s.withPending q)) ∧
  (∀ s, s.pending = [] → ∃ t, step s = .next t ∧ t.clk = s.clk + 1 ∧ t.pending = []) ∧
  (∀ i s, ∃ t, exec i s = .next t ∧ t.pending = s.pending)

/-- R415, R443, R503, R506. After reset the registers hold the reset values of their tables, the start stands at POWER with every window closed, no
image is active, and nothing is queued or sent.
Rests on the model's own choices and readings of log entry 5. -/
def Obligations.AfterReset : Prop :=
  (∀ o, reg State.reset o = resetWord o) ∧ State.reset.pending = [] ∧ State.reset.out = [] ∧ stageCode State.reset = 0 ∧
  (∀ o, windowOpen State.reset o = false) ∧ imgCode State.reset.img.st = 0 ∧ State.reset.tb = 0 ∧
  (∀ d c, str State.reset d c = {} ∧ vctx State.reset d c = {}) ∧ (∀ i, getObj State.reset i = {}) ∧
  fld (reg State.reset rPwrCfg) 31 19 = 4400 ∧ fld (reg State.reset rPwrCfg2) 18 12 = 85 ∧ fld (reg State.reset rTelRingLen) 4 0 = 4 ∧
  MemState.wf State.reset.mem = true ∧ OtpState.wf State.reset.otp = true

/-- REGISTER_WRITE to a 32-bit register changes what its access type says (R11): under RM, bits 31:16 select which implemented bits of
15:0 change; under RO and RC nothing changes; IMG_LEN (RW) takes the value. The write completes. An access that is not permitted
ends in a bus error or Completer Abort, and changes nothing else.
R15, R488. An access whose size is not 4 or 8 bytes, or to a word that is reserved or whose window is closed, ends in Completer Abort
with an AER entry for the host and in a bus error exception for another master, and changes nothing else. -/
def Obligations.RegisterAccess : Prop :=
  ((∀ m off v s, mayAccess s m off.toNat → plainReg off.toNat .rm → off.toNat ∉ [rImgCtl, rSyncCtl, rTelCtl] →
    ∃ t, exec (.registerWrite m off v) s = .next t ∧
      (∀ i, i < 32 → bitAt (reg t off.toNat) i =
        if i < 16 ∧ bitAt (maskWord off.toNat) i = true ∧ bitAt v (i + 16) = true then bitAt v i else bitAt (reg s off.toNat) i) ∧
      sameRegsBut [off.toNat] s t ∧ t.out = .completion m .sc [] :: s.out ∧ changesOnly [.regs, .out] s t) ∧
  (∀ m off v s, mayAccess s m off.toNat → plainReg off.toNat .ro ∨ plainReg off.toNat .rc →
    ∃ t, exec (.registerWrite m off v) s = .next t ∧
      t.out = .completion m .sc [] :: s.out ∧ changesOnly [.out] s t) ∧
  (∀ m off v s, off.toNat = rImgLen → mayAccess s m off.toNat →
    ∃ t, exec (.registerWrite m off v) s = .next t ∧ reg t rImgLen = v ∧
      sameRegsBut [rImgLen] s t ∧ t.out = .completion m .sc [] :: s.out ∧ changesOnly [.regs, .out] s t) ∧
  (∀ m off v s, (m = .host → hostOpen s = true) → wordOpen s off.toNat = false →
    ∃ t, exec (.registerWrite m off v) s = .next t ∧
      t.out = (if m = .host then [.completion .host .ca [], .aer "completer abort"] else [.busError m]) ++ s.out ∧
      changesOnly [.out] s t)) ∧
  ((∀ m off n w s, (m = .host → hostOpen s = true) → wordOpen s off.toNat = false ∨ (n ≠ 4 ∧ n ≠ 8) ∨ (n = 8 ∧ off.toNat % 8 ≠ 0) →
    ∃ t, exec (.bar0ReservedAccess m off n w) s = .next t ∧
      t.out = (if m = .host then [.completion .host .ca [], .aer "completer abort"] else [.busError m]) ++ s.out ∧
      changesOnly [.out] s t))

/-- R16. A read of the low half of a 64-bit register gives the low half and latches the high half, which that master's next read of a high
half gives; a write of the low half is held, replaces what was held, and changes no register; a write of the high half of a stored
register applies both halves together, with the current low half where none is held for that register, and uses the held half up.
What REGISTER_WRITE leaves in a register that takes a value only at times: LANE_SEL takes a lane below 688, TEL_RING_LEN a value
while the ring is disabled, a word of the mailbox while it is not busy, VAL and TIMEOUT of a host-wait slot while it is not armed, and a
word of the MSI-X table, other than vector control, always. Nothing else changes. A host whose requests are not
accepted gets an Unsupported Request.
Rests on the model's own choices and readings of log entries 8, 10 and 11. -/
def Obligations.RegisterGatesAndHalves : Prop :=
  ((∀ m off s, mayAccess s m off.toNat → isLowWord off.toNat = true → off.toNat ∉ [rElogPop, rSecLogPop, rSecAuthFail] →
    ∃ t, exec (.reg64LowRead m off) s = .next t ∧ (mport t m).latch = readWord s (off.toNat + 4) ∧
      (mport t m).held = (mport s m).held ∧ (∀ n, n ≠ m → mport t n = mport s n) ∧
      t.out = .completion m .sc (leBytes 4 (readWord s off.toNat).toNat) :: s.out ∧ changesOnly [.host, .out] s t ∧
      ∀ hi u, (mport u m).latch = (mport t m).latch → mayAccess u m hi.toNat → isHighWord hi.toNat = true →
        hi.toNat ∉ [rElogPop, rSecLogPop, rSecAuthFail] →
        ∃ x, exec (.reg64LowRead m hi) u = .next x ∧
          x.out = .completion m .sc (leBytes 4 (readWord s (off.toNat + 4)).toNat) :: u.out ∧ changesOnly [.out] u x) ∧
  (∀ m off v s, mayAccess s m off.toNat → isLowWord off.toNat = true →
    ∃ t, exec (.reg64LowWrite m off v) s = .next t ∧ (mport t m).held = some (off.toNat, v) ∧
      (mport t m).latch = (mport s m).latch ∧ (∀ n, n ≠ m → mport t n = mport s n) ∧
      t.out = .completion m .sc [] :: s.out ∧ changesOnly [.host, .out] s t) ∧
  (∀ m off v s, mayAccess s m off.toNat → isLowWord off.toNat = false → isHighWord off.toNat = true → 4 ≤ off.toNat →
    (regRow (off.toNat - 4)).map RegRow.ty = some .rw → ¬ (rRtDim ≤ off.toNat - 4 ∧ off.toNat - 4 < rRtDim + 80) →
    ¬ (off.toNat - 4 = rTelRingBase ∧ ctlBit s rTelCtl 0 = true) →
    ∃ t, exec (.reg64HighWrite m off v) s = .next t ∧
      (∀ x, (mport s m).held = some (off.toNat - 4, x) → reg t (off.toNat - 4) = x &&& maskWord (off.toNat - 4)) ∧
      ((∀ x, (mport s m).held ≠ some (off.toNat - 4, x)) →
        reg t (off.toNat - 4) = readWord s (off.toNat - 4) &&& maskWord (off.toNat - 4)) ∧
      reg t off.toNat = v &&& maskWord off.toNat ∧ (∀ x, (mport t m).held ≠ some (off.toNat - 4, x)) ∧
      sameRegsBut [off.toNat - 4, off.toNat] s t ∧ t.out = .completion m .sc [] :: s.out ∧ changesOnly [.regs, .host, .out] s t) ∧
  (∀ m, (mport State.reset m).held = none ∧ (mport State.reset m).latch = 0)) ∧
  ((∀ m off v s, off.toNat = rLaneSel → mayAccess s m off.toNat →
    ∃ t, exec (.registerWrite m off v) s = .next t ∧
      reg t rLaneSel = (if fld v 9 0 ≤ 687 then v &&& 0x3FF else reg s rLaneSel) ∧
      sameRegsBut [rLaneSel] s t ∧ t.out = .completion m .sc [] :: s.out ∧ changesOnly [.regs, .out] s t) ∧
  (∀ m off v s, off.toNat = rTelRingLen → mayAccess s m off.toNat →
    ∃ t, exec (.registerWrite m off v) s = .next t ∧
      reg t rTelRingLen = (if ctlBit s rTelCtl 0 then reg s rTelRingLen else v &&& 0x1F) ∧
      sameRegsBut [rTelRingLen] s t ∧ t.out = .completion m .sc [] :: s.out ∧ changesOnly [.regs, .out] s t) ∧
  (∀ m off v s, mayAccess s m off.toNat → plainReg off.toNat .rw → rSecMbox ≤ off.toNat → off.toNat < rSecMbox + 4096 →
    ∃ t, exec (.registerWrite m off v) s = .next t ∧
      reg t off.toNat = (if s.sec.mbox = .busy then reg s off.toNat else v) ∧
      sameRegsBut [off.toNat] s t ∧ t.out = .completion m .sc [] :: s.out ∧ changesOnly [.regs, .out] s t) ∧
  (∀ m off v s, mayAccess s m off.toNat → plainReg off.toNat .rw → rHwObj ≤ off.toNat → off.toNat < rHwObj + 16384 → off.toNat % 16 ≠ 0 →
    ∃ t, exec (.registerWrite m off v) s = .next t ∧
      reg t off.toNat = (if slotArmed s (slotAt off.toNat) then reg s off.toNat else v &&& maskWord off.toNat) ∧
      sameRegsBut [off.toNat] s t ∧ t.out = .completion m .sc [] :: s.out ∧ changesOnly [.regs, .out] s t) ∧
  (∀ m off v s, mayAccess s m off.toNat → plainReg off.toNat .rw → rMsixTable ≤ off.toNat → off.toNat < rMsixTable + 0x8000 → off.toNat % 16 ≠ 12 →
    ∃ t, exec (.registerWrite m off v) s = .next t ∧ reg t off.toNat = v &&& maskWord off.toNat ∧
      sameRegsBut [off.toNat] s t ∧ t.out = .completion m .sc [] :: s.out ∧ changesOnly [.regs, .out] s t) ∧
  (∀ off v s, hostOpen s = false →
    ∃ t, exec (.registerWrite .host off v) s = .next t ∧
      t.out = .completion .host .ur [] :: .aer "unsupported request" :: s.out ∧ changesOnly [.out] s t))

/-- R489. A sequence written back to a sequence-cleared status register clears every event whose stamp is at or before it, and no other; a
sequence after SEQ clears nothing. SEQ and the stamps stay.
R489, R490. Events recorded together advance SEQ by one, take it as their stamp and set their bits; the other events stay, with
their stamps, but that the stamp of a set bit that would fall 128 behind becomes SEQ - 127. Outside the SEC window each event adds an
entry to the error log while it has room, and LOST is set when one finds none.
R490, R504. A read of MOD_ELOG_POP takes the oldest entry of the Plinth error log, one of SEC_LOG_POP the oldest of the security log,
and one of SEC_AUTH_FAIL the count of OWNER failures, which returns to 0 while the lockout count stays; an empty log reads 0. -/
def Obligations.StatusRegisters : Prop :=
  (∀ m off v s, mayAccess s m off.toNat → plainReg off.toNat .rs →
    ∃ t, exec (.rsClearWrite m off v) s = .next t ∧
      (∀ i : Fin 24, (rsReg t off.toNat).ev.getLsbD i.val =
        ((rsReg s off.toNat).ev.getLsbD i.val &&
          (serialAfter 8 (fld v 31 24) (rsReg s off.toNat).seq.toNat || serialAfter 8 (rsReg s off.toNat).stamps[i].toNat (fld v 31 24)))) ∧
      (rsReg t off.toNat).seq = (rsReg s off.toNat).seq ∧ (rsReg t off.toNat).stamps = (rsReg s off.toNat).stamps ∧
      (∀ o, o ≠ off.toNat → rsReg t o = rsReg s o) ∧
      t.out = .completion m .sc [] :: s.out ∧ changesOnly [.rs, .out] s t) ∧
  (∀ s off (bits : BitVec 24), bits ≠ 0 →
    (rsReg (rsEvents s off bits) off).seq = (rsReg s off).seq + 1 ∧
    (rsReg (rsEvents s off bits) off).ev = (rsReg s off).ev ||| bits ∧
    (∀ i : Fin 24, bits.getLsbD i.val = true → (rsReg (rsEvents s off bits) off).stamps[i] = (rsReg s off).seq + 1) ∧
    (∀ i : Fin 24, bits.getLsbD i.val = false → serialD 8 ((rsReg s off).seq + 1).toNat (rsReg s off).stamps[i].toNat < 128 →
      (rsReg (rsEvents s off bits) off).stamps[i] = (rsReg s off).stamps[i]) ∧
    (∀ i : Fin 24, bits.getLsbD i.val = false → (rsReg s off).ev.getLsbD i.val = true →
      128 ≤ serialD 8 ((rsReg s off).seq + 1).toNat (rsReg s off).stamps[i].toNat →
      (rsReg (rsEvents s off bits) off).stamps[i] = (rsReg s off).seq + 1 - 127) ∧
    (∀ o, o ≠ off → rsReg (rsEvents s off bits) o = rsReg s o) ∧
    (inSecWindow off = true → (rsEvents s off bits).host.elog = s.host.elog) ∧
    (inSecWindow off = false → s.host.elog.length + 24 ≤ 256 →
      (rsEvents s off bits).host.elog = s.host.elog ++ ((List.range 24).filter fun i => bits.getLsbD i).map fun i => (off / 4, i)) ∧
    (inSecWindow off = false → 256 ≤ s.host.elog.length →
      (rsEvents s off bits).host.elog = s.host.elog ∧ (rsEvents s off bits).host.elogLost = true) ∧
    changesOnly [.rs, .host, .out] s (rsEvents s off bits)) ∧
  ((∀ m s, mayAccess s m rElogPop → s.host.elog = [] →
    ∃ t, exec (.modElogPop m) s = .next t ∧ t.out = .completion m .sc [0, 0, 0, 0] :: s.out ∧ changesOnly [.out] s t) ∧
  (∀ m s w b es, mayAccess s m rElogPop → s.host.elog = (w, b) :: es → w < 2 ^ 26 → b < 32 →
    ∃ t, exec (.modElogPop m) s = .next t ∧ t.host.elog = es ∧ t.host.elogLost = (s.host.elogLost && decide (es ≠ [])) ∧
      t.out = .completion m .sc (leBytes 4 (2 ^ 31 + b * 2 ^ 26 + w)) :: s.out ∧
      t.host = { s.host with elog := t.host.elog, elogLost := t.host.elogLost } ∧ changesOnly [.host, .out] s t) ∧
  (∀ m s, mayAccess s m rSecLogPop → s.sec.log = [] →
    ∃ t, exec (.secLogPop m) s = .next t ∧ t.out = .completion m .sc [0, 0, 0, 0] :: s.out ∧ changesOnly [.out] s t) ∧
  (∀ m s e p d es, mayAccess s m rSecLogPop → s.sec.log = (e, p, d) :: es → e < 2 ^ 15 → p < 4 → d < 2 ^ 14 →
    ∃ t, exec (.secLogPop m) s = .next t ∧ t.sec = { s.sec with log := es } ∧
      t.out = .completion m .sc (leBytes 4 (2 ^ 31 + e * 2 ^ 16 + p * 2 ^ 14 + d)) :: s.out ∧ changesOnly [.sec, .out] s t) ∧
  (∀ m s, mayAccess s m rSecAuthFail →
    ∃ t, exec (.secAuthFailRead m) s = .next t ∧ reg t rSecAuthFail = 0 ∧ t.sec.fails = s.sec.fails ∧
      t.out = .completion m .sc (leBytes 4 (reg s rSecAuthFail).toNat) :: s.out ∧ sameRegsBut [rSecAuthFail] s t ∧
      changesOnly [.regs, .out] s t))

/-- R243, R251. A write to a mapped range with no pending error stores its bytes, and only them; a granule written whole is no longer
poisoned, the mark of any other granule stays, and a write that a stack in EMERGENCY would take part in stores nothing. An unmapped
range is written nowhere.
R249, R250. A read of a mapped range with no pending error gives the bytes it holds and says whether a granule of it is poisoned, and
changes nothing; an unmapped range is not read. A read that finds an uncorrectable granule poisons it and says so.
Rests on the model's own choices and readings of log entries 3 and 76. -/
def Obligations.ModuleMemory : Prop :=
  ((∀ s a bs, cleanRange s.mem a bs.length → distinctBytes s.mem a bs.length →
    ∃ t, memWrite s a bs = some (false, t) ∧ storedAt a bs s.mem t.mem ∧
      (∀ g ∈ gransOf s.mem a bs.length, a ≤ g.2 → g.2 + 64 ≤ a + bs.length → SMap.get false t.mem.poison g.1 = false) ∧
      (∀ g, (∀ q ∈ gransOf s.mem a bs.length, a ≤ q.2 ∧ q.2 + 64 ≤ a + bs.length → q.1 ≠ g) →
        SMap.get false t.mem.poison g = SMap.get false s.mem.poison g) ∧
      changesOnly [.mem] s t) ∧
  (∀ s a bs, mappedRange s.mem a bs.length = true → (∃ g ∈ gransOf s.mem a bs.length, s.mem.st[granStack g.1].emergency = true) →
    memWrite s a bs = some (true, s)) ∧
  (∀ s a bs, mappedRange s.mem a bs.length = false → memWrite s a bs = none)) ∧
  ((∀ s a len, cleanRange s.mem a len → memRead s a len =
      some (⟨(List.range len).map fun i => byteAt s.mem (a + i), (gransOf s.mem a len).any fun g => SMap.get false s.mem.poison g.1⟩, s)) ∧
  (∀ s a len, mappedRange s.mem a len = false → memRead s a len = none) ∧
  (∀ s g a, s.mem.st[granStack g].emergency = false → SMap.get false s.mem.ue g = true →
    ∃ t, touchGran s g a = t ∧ (rowOf s.mem.st[granStack g] (granOff g) ∉ s.mem.st[granStack g].repaired →
      SMap.get 0 s.mem.st[granStack g].usedSpares (rowOf s.mem.st[granStack g] (granOff g) / 2 ^ 32) +
        (s.mem.st[granStack g].repairs.filter fun r => decide (r / 2 ^ 32 = rowOf s.mem.st[granStack g] (granOff g) / 2 ^ 32)).length <
        s.mem.st[granStack g].spareRows →
      SMap.get false t.mem.poison g = true ∧ SMap.get false t.mem.ue g = false ∧
      reg t rUeTotal = reg s rUeTotal + 1 ∧ (rsReg t rMemErr).ev.getLsbD 2 = true ∧
      rowOf s.mem.st[granStack g] (granOff g) ∈ t.mem.st[granStack g].repairs)))

/-- R479 to R481. A write through an enabled, writable BAR2 segment stores its bytes at the module address the segment gives, and
completes; a write to a read-only or disabled segment, to the active job image or to an unmapped or EMERGENCY range ends in Completer
Abort; an offset beyond the segments in Unsupported Request; a malformed request, or one received poisoned, is logged and discarded.
R480, R481. A read through an enabled BAR2 segment returns the bytes there, with EP where a granule is poisoned; a disabled segment,
an unmapped range and a stack in EMERGENCY end it in Completer Abort. A change of the BAR2 size clears ENABLE of every segment.
Rests on the model's own choices and readings of log entries 8, 13 and 16. -/
def Obligations.HostMemoryWindow : Prop :=
  ((∀ off data s a, hostOpen s = true → malformed off.toNat data.length 512 = false → inBar2 s off.toNat = true →
    segAddr s off.toNat = some (a, true) → inImage s a data.length = false → cleanRange s.mem a data.length →
    distinctBytes s.mem a data.length →
    ∃ t, exec (.bar2Write off data false) s = .next t ∧ storedAt a data s.mem t.mem ∧
      t.out = .completion .host .sc [] :: s.out ∧ changesOnly [.mem, .out] s t) ∧
  (∀ off data s, hostOpen s = true → malformed off.toNat data.length 512 = false → inBar2 s off.toNat = true →
    (segAddr s off.toNat = none ∨ (∃ a, segAddr s off.toNat = some (a, false)) ∨
      (∃ a, segAddr s off.toNat = some (a, true) ∧ (inImage s a data.length = true ∨ mappedRange s.mem a data.length = false))) →
    ∃ t, exec (.bar2Write off data false) s = .next t ∧
      t.out = .completion .host .ca [] :: .aer "completer abort" :: s.out ∧ changesOnly [.out] s t) ∧
  (∀ off data ep s, hostOpen s = true → malformed off.toNat data.length 512 = false → inBar2 s off.toNat = false →
    ∃ t, exec (.bar2Write off data ep) s = .next t ∧
      t.out = .completion .host .ur [] :: .aer "unsupported request" :: s.out ∧ changesOnly [.out] s t) ∧
  (∀ off data ep s, hostOpen s = true → malformed off.toNat data.length 512 = true →
    ∃ t, exec (.bar2Write off data ep) s = .next t ∧ t.out = .aer "malformed TLP" :: s.out ∧ changesOnly [.out] s t) ∧
  (∀ off data s, hostOpen s = true → malformed off.toNat data.length 512 = false → inBar2 s off.toNat = true →
    ∃ t, exec (.bar2Write off data true) s = .next t ∧ t.out = .aer "poisoned TLP received" :: s.out ∧ changesOnly [.out] s t)) ∧
  ((∀ off len s a w, hostOpen s = true → malformed off.toNat len 4096 = false → inBar2 s off.toNat = true →
    segAddr s off.toNat = some (a, w) → cleanRange s.mem a len → unpoisoned s.mem a len →
    ∃ t, exec (.bar2Read off len) s = .next t ∧
      t.out = .completion .host .sc ((List.range len).map fun i => byteAt s.mem (a + i)) :: s.out ∧ changesOnly [.out] s t) ∧
  (∀ off len s a w, hostOpen s = true → malformed off.toNat len 4096 = false → inBar2 s off.toNat = true →
    segAddr s off.toNat = some (a, w) → cleanRange s.mem a len → ¬ unpoisoned s.mem a len →
    ∃ t, exec (.bar2Read off len) s = .next t ∧
      t.out = .completion .host .ep ((List.range len).map fun i => byteAt s.mem (a + i)) :: .aer "poisoned TLP egress" :: s.out ∧
      changesOnly [.out] s t) ∧
  (∀ off len s, hostOpen s = true → malformed off.toNat len 4096 = false → inBar2 s off.toNat = true →
    (segAddr s off.toNat = none ∨ ∃ a w, segAddr s off.toNat = some (a, w) ∧
      (inEmergency s a len = true ∨ mappedRange s.mem a len = false)) →
    ∃ t, exec (.bar2Read off len) s = .next t ∧
      t.out = .completion .host .ca [] :: .aer "completer abort" :: s.out ∧ changesOnly [.out] s t) ∧
  (∀ (n : Fin 7) s, earlyOpen s = true → s.host.barSize ≠ n.val →
    ∃ t, exec (.bar2Resize n) s = .next t ∧ t.host = { s.host with barSize := n.val } ∧
      (∀ i, i < 64 → bitAt (reg t (rHostSeg + 8 * i)) 0 = false ∧
        ∀ j, 0 < j → j < 32 → bitAt (reg t (rHostSeg + 8 * i)) j = bitAt (reg s (rHostSeg + 8 * i)) j) ∧
      (∀ o, (∀ i, i < 64 → o ≠ rHostSeg + 8 * i) → reg t o = reg s o) ∧ changesOnly [.host, .regs] s t) ∧
  (∀ (n : Fin 7) s, s.host.barSize = n.val → exec (.bar2Resize n) s = .next s))

/-- R482, R483. Entry to D3hot closes the BARs, and D0 keeps all state and sends every message held; Bus Master Enable and the masks of
MSI-X hold messages as pending bits and, when they open, one message leaves for each pending bit that may leave.
R486, R499. The first event of an enabled vector sends its message and opens a window of 10 µs; an event within it is noted; when the
window ends, a noted event sends one more message and opens a new window, and otherwise the window closes. PLDM events do the same.
Rests on the model's own choices and readings of log entry 12. -/
def Obligations.HostMessages : Prop :=
  ((∀ s, earlyOpen s = true → ∃ t, exec .d3hotEnter s = .next t ∧ t = { s with host := { s.host with d3hot := true } } ∧
    hostOpen t = false ∧ ∀ v, msixOpen t v = false) ∧
  (∀ s v, msixOpen s v = false → (msixDue s v).out = s.out ∧ SMap.get false (msixDue s v).host.pba v = true) ∧
  (∀ s, earlyOpen s = true → ∃ t, exec .d0Return s = .next t ∧ t.host.d3hot = false ∧
    (∀ v, SMap.get false t.host.pba v = true → SMap.get false s.host.pba v = true ∧ msixOpen t v = false) ∧
    (∀ v, SMap.get false s.host.pba v = true → msixOpen t v = true → .msix v ∈ t.out ∧ SMap.get false t.host.pba v = false) ∧
    t.host = { s.host with d3hot := false, pba := t.host.pba } ∧ changesOnly [.host, .out] s t) ∧
  (∀ s, earlyOpen s = true → ∃ t, exec (.busMasterEnable false) s = .next t ∧
    t = { s with host := { s.host with busMaster := false } } ∧ ∀ v, msixOpen t v = false) ∧
  (∀ s, earlyOpen s = true → s.img.sec = none → ∃ t, exec (.busMasterEnable true) s = .next t ∧ t.host.busMaster = true ∧
    (∀ v, SMap.get false s.host.pba v = true → msixOpen t v = true → .msix v ∈ t.out ∧ SMap.get false t.host.pba v = false) ∧
    changesOnly [.host, .out] s t) ∧
  (∀ s, earlyOpen s = true → ∃ t, exec (.msixUnmask none) s = .next t ∧ t.host.funcMask = false ∧
    (∀ v, SMap.get false s.host.pba v = true → msixOpen t v = true → .msix v ∈ t.out ∧ SMap.get false t.host.pba v = false) ∧
    changesOnly [.host, .out] s t) ∧
  (∀ s (v : Fin 2048), mayAccess s .host (rMsixTable + 16 * v.val + 12) → plainReg (rMsixTable + 16 * v.val + 12) .rw →
    ∃ t, exec (.msixUnmask (some v)) s = .next t ∧ bitAt (reg t (rMsixTable + 16 * v.val + 12)) 0 = false ∧
    (SMap.get false s.host.pba v.val = true → s.host.funcMask = false → s.host.busMaster = true → s.host.d3hot = false →
      .msix v.val ∈ t.out ∧ SMap.get false t.host.pba v.val = false) ∧
    sameRegsBut [rMsixTable + 16 * v.val + 12] s t ∧ changesOnly [.host, .regs, .out] s t)) ∧
  ((∀ s (v : Fin 16), s.host.win[v] = none → (moduleEvent s v).host.win[v] = some ⟨s.clk + 10000, false⟩ ∧
    (msixOpen s v.val = true → (moduleEvent s v).out = .msix v.val :: s.out)) ∧
  (∀ s (v : Fin 16) w, s.host.win[v] = some w → (moduleEvent s v).host.win[v] = some { w with event := true } ∧
    (moduleEvent s v).out = s.out) ∧
  (∀ s (v : Fin 16) w, s.host.win[v] = some w → w.event = false →
    ∃ t, exec (.msixWindowEnd v false) s = .next t ∧ t.host.win[v] = none ∧ t.out = s.out ∧
      t.clk = max s.clk w.ends ∧ (∀ x, x ≠ v → t.host.win[x] = s.host.win[x]) ∧ changesOnly [.host, .clk, .tb, .tbs, .regs, .dies] s t) ∧
  (∀ s (v : Fin 16) w, s.host.win[v] = some w → w.event = true → msixOpen s v.val = true →
    ∃ t, exec (.msixWindowEnd v false) s = .next t ∧ t.host.win[v] = some ⟨max s.clk w.ends + 10000, false⟩ ∧
      t.out = .msix v.val :: s.out ∧ changesOnly [.host, .out, .clk, .tb, .tbs, .regs, .dies] s t) ∧
  (∀ s (v : Fin 16) w, s.host.pldmWin[v] = some w → w.event = false →
    ∃ t, exec (.msixWindowEnd v true) s = .next t ∧ t.host.pldmWin[v] = none ∧ t.out = s.out ∧
      changesOnly [.host, .clk, .tb, .tbs, .regs, .dies] s t) ∧
  (∀ s (v : Fin 16) w, s.host.pldmWin[v] = some w → w.event = true →
    ∃ t, exec (.msixWindowEnd v true) s = .next t ∧ t.host.pldmWin[v] = some ⟨max s.clk w.ends + 10000, false⟩ ∧
      t.out = .pldmEvent v.val :: s.out ∧ changesOnly [.host, .out, .clk, .tb, .tbs, .regs, .dies] s t))

/-- What the arbiter does to one object (R211, R213 to R216, R219): a DEC beyond COUNT and an ADD beyond the greatest count put it into
ERROR with their cause, leave COUNT and AHEAD, and end every waiter OBJ_ERROR; an ADD otherwise is counted, and with no waiter the count is
the sum; an object in ERROR ignores ADD and DEC, keeps its first cause, and ends a new wait OBJ_ERROR at once; only a re-arm ends ERROR. When a
waiter leaves, those behind it are evaluated.
R219 step 5. Waiters are evaluated in arrival order: one for AT_LEAST ends when the count has reached its value, one for TAKE when it
has and no earlier TAKE stays pending, and its value is subtracted; the others stay, in order.
Rests on the model's own choices and readings of log entry 17. -/
def Obligations.ArbiterRules : Prop :=
  ((∀ o : SyncObj, ∀ n, o.err = false → o.count < n → (o.dec n).obj = { o with err := true, cause := 1, waiters := [] } ∧
    (o.dec n).ended = o.waiters.map (·, 3) ∧ (o.dec n).newErr = true) ∧
  (∀ o : SyncObj, ∀ n, o.err = false → 2147483647 < o.count + n → (o.add n).obj = { o with err := true, cause := 2, waiters := [] } ∧
    (o.add n).ended = o.waiters.map (·, 3) ∧ (o.add n).newErr = true) ∧
  (∀ o : SyncObj, ∀ n, o.err = false → 2147483647 < o.ahead + n → (o.addAhead n).obj = { o with err := true, cause := 2, waiters := [] } ∧
    (o.addAhead n).ended = o.waiters.map (·, 3)) ∧
  (∀ o : SyncObj, ∀ n, o.err = false → o.count + n ≤ 2147483647 → (o.add n).obj.err = false ∧
    (o.add n).obj.count + (((o.add n).ended.filter fun e => e.1.take).map fun e => e.1.v).sum = o.count + n) ∧
  (∀ o : SyncObj, ∀ n, o.err = false → o.ahead + n ≤ 2147483647 → (o.addAhead n).obj = { o with ahead := o.ahead + n } ∧
    (o.addAhead n).ended = []) ∧
  (∀ o : SyncObj, ∀ n, o.err = false → n ≤ o.count → (o.dec n).obj.err = false ∧
    (o.dec n).obj.count + (((o.dec n).ended.filter fun e => e.1.take).map fun e => e.1.v).sum + n = o.count) ∧
  (∀ o : SyncObj, ∀ n c w, o.err = true → (o.add n).obj = o ∧ (o.addAhead n).obj = o ∧ (o.dec n).obj = o ∧ (o.setError c).obj = o ∧
    (o.wait w).obj = o ∧ (o.wait w).ended = [(w, 3)]) ∧
  (∀ o : SyncObj, ∀ n g, (o.rearm n g).obj = { count := n, gen := g } ∧ (o.rearm n g).ended = o.waiters.map (·, 4)) ∧
  (∀ o : SyncObj, ∀ x, (∀ w ∈ (o.leave x).obj.waiters, w.who ≠ x ∧ w ∈ o.waiters ∧ (o.err = false → w.take = false → (o.leave x).obj.count < w.v)) ∧
    (∀ e ∈ (o.leave x).ended, e.2 = 1 ∧ e.1.who ≠ x ∧ e.1 ∈ o.waiters) ∧
    (o.leave x).obj.count + (((o.leave x).ended.filter fun e => e.1.take).map fun e => e.1.v).sum = o.count ∧
    (unserved o → (o.leave x).obj = o.withdraw x ∧ (o.leave x).ended = []))) ∧
  (∀ ws : List Waiter, ∀ n,
    ((evalWaiters ws n false).2.2.map Prod.snd).all (· = 1) = true ∧
    (∀ w ∈ (evalWaiters ws n false).2.1, w ∈ ws) ∧
    ((evalWaiters ws n false).2.1 ++ (evalWaiters ws n false).2.2.map Prod.fst).Perm ws ∧
    (∀ w ∈ (evalWaiters ws n false).2.1, w.take = false → (evalWaiters ws n false).1 < w.v) ∧
    (∀ w l, (evalWaiters ws n false).2.1.filter (·.take) = w :: l → (evalWaiters ws n false).1 < w.v) ∧
    (evalWaiters ws n false).1 + (((evalWaiters ws n false).2.2.filter fun e => e.1.take).map fun e => e.1.v).sum = n)

/-- R214, R227, R229. OBJ_SIGNAL adds its amount to an object whose class permits it, OBJ_DEC subtracts, and OBJ_REARM starts the next
generation with COUNT 0 when the generation matches; each is counted or logged as the rules say and completes. A DEC beyond COUNT leaves it,
puts the object into ERROR, ends every waiter OBJ_ERROR and sets UNDERFLOW.
R227, R229. A write to OBJ_SIGNAL, OBJ_DEC or OBJ_REARM that sets a reserved bit or that the object's class does not permit is
discarded: Completer Abort and one HOST_PROTECT event. Objects 1 to 15 are always READ and object 0 always SIGNAL to the host.
Rests on the model's own choices and readings of log entries 8 and 13. -/
def Obligations.HostObjects : Prop :=
  ((∀ (i : Fin 32768) v s, hostOpen s = true → bitAt v 31 = false → hostClass s i.val = 1 ∨ hostClass s i.val = 2 → v.toNat ≠ 0 →
    (getObj s (.glob i)).err = false → (getObj s (.glob i)).count + v.toNat ≤ 2147483647 → slotWaiters (getObj s (.glob i)) →
    ∃ t, exec (.objSignal i v) s = .next t ∧ getObj t (.glob i) = ((getObj s (.glob i)).add v.toNat).obj ∧
      (∀ e ∈ ((getObj s (.glob i)).add v.toNat).ended, endedWith t e.1 1) ∧
      (∀ j, j ≠ i → getObj t (.glob j) = getObj s (.glob j)) ∧ reg64 t rSyncSignals = reg64 s rSyncSignals + 1 ∧
      t.out.head? = some (.completion .host .sc []) ∧ changesOnly [.sync, .regs, .rs, .host, .out, .upd] s t) ∧
  (∀ (i : Fin 32768) v s, hostOpen s = true → bitAt v 31 = false → hostClass s i.val = 2 → v.toNat ≠ 0 →
    (getObj s (.glob i)).err = false → v.toNat ≤ (getObj s (.glob i)).count → slotWaiters (getObj s (.glob i)) →
    ∃ t, exec (.objDec i v) s = .next t ∧ getObj t (.glob i) = ((getObj s (.glob i)).dec v.toNat).obj ∧
      (∀ j, j ≠ i → getObj t (.glob j) = getObj s (.glob j)) ∧
      t.out.head? = some (.completion .host .sc []) ∧ changesOnly [.sync, .regs, .rs, .host, .out] s t) ∧
  (∀ (i : Fin 32768) v s, hostOpen s = true → bitAt v 31 = false → hostClass s i.val = 2 → (getObj s (.glob i)).err = false →
    (getObj s (.glob i)).count < v.toNat →
    ∃ t, exec (.objDec i v) s = .next t ∧
      getObj t (.glob i) = { getObj s (.glob i) with err := true, cause := 1, waiters := [] } ∧
      (∀ w ∈ (getObj s (.glob i)).waiters, endedWith t w 3) ∧ (rsReg t rSyncErrStat).ev.getLsbD 0 = true ∧
      reg t rSyncErrInfo = w32 (2 ^ 28 + 26 * 2 ^ 22 + 0x8000 + i.val) ∧
      (∀ j, j ≠ i → getObj t (.glob j) = getObj s (.glob j)) ∧
      t.out.head? = some (.completion .host .sc []) ∧ changesOnly [.sync, .regs, .rs, .host, .out, .dies, .img] s t) ∧
  (∀ (i : Fin 32768) (v : Word) s, hostOpen s = true → fld v 31 16 = 0 → hostClass s i.val = 2 →
    (getObj s (.glob i)).gen = v.setWidth 16 → slotWaiters (getObj s (.glob i)) →
    ∃ t, exec (.objRearm i v) s = .next t ∧ getObj t (.glob i) = { gen := (getObj s (.glob i)).gen + 1 } ∧
      (∀ w ∈ (getObj s (.glob i)).waiters, endedWith t w 4) ∧
      (∀ j, j ≠ i → getObj t (.glob j) = getObj s (.glob j)) ∧
      t.out.head? = some (.completion .host .sc []) ∧ changesOnly [.sync, .regs, .rs, .host, .out] s t) ∧
  (∀ (i : Fin 32768) (v : Word) s, hostOpen s = true → fld v 31 16 = 0 → hostClass s i.val = 2 →
    (getObj s (.glob i)).gen ≠ v.setWidth 16 →
    ∃ t, exec (.objRearm i v) s = .next t ∧ t.sync = s.sync ∧ (rsReg t rSyncErrStat).ev.getLsbD 6 = true ∧
      t.out.head? = some (.completion .host .sc []) ∧ changesOnly [.regs, .rs, .host, .out] s t)) ∧
  ((∀ (i : Fin 32768) v s, hostOpen s = true → bitAt v 31 = true ∨ (hostClass s i.val ≠ 1 ∧ hostClass s i.val ≠ 2) →
    ∃ t, exec (.objSignal i v) s = .next t ∧ t.sync = s.sync ∧ (rsReg t rSyncErrStat).ev.getLsbD 5 = true ∧
      t.out.head? = some (.completion .host .ca []) ∧ changesOnly [.regs, .rs, .host, .out] s t) ∧
  (∀ (i : Fin 32768) v s, hostOpen s = true → bitAt v 31 = true ∨ hostClass s i.val ≠ 2 →
    ∃ t, exec (.objDec i v) s = .next t ∧ t.sync = s.sync ∧ (rsReg t rSyncErrStat).ev.getLsbD 5 = true ∧
      t.out.head? = some (.completion .host .ca []) ∧ changesOnly [.regs, .rs, .host, .out] s t) ∧
  (∀ (i : Fin 32768) (v : Word) s, hostOpen s = true → fld v 31 16 ≠ 0 ∨ hostClass s i.val ≠ 2 →
    ∃ t, exec (.objRearm i v) s = .next t ∧ t.sync = s.sync ∧ (rsReg t rSyncErrStat).ev.getLsbD 5 = true ∧
      t.out.head? = some (.completion .host .ca []) ∧ changesOnly [.regs, .rs, .host, .out] s t) ∧
  (∀ s, hostClass s 0 = 1 ∧ (∀ i, 0 < i → i < 16 → hostClass s i = 0) ∧ (s.img.st = .none → ∀ i, 16 ≤ i → hostClass s i = 2)))

/-- R230, R231. Arming a disarmed slot with a permitted vector, object and class on a count that does not yet satisfy it registers the slot
as the object's last waiter, with its deadline; one that is satisfied ends DONE at once, with its message; one that is refused stays
disarmed and sets HOST_PROTECT. Disarming ends the wait CANCELLED without a message, and so does clearing HW_EN for every armed slot.
R223, R219 step 6. The deadline of a pending waiter passes: the waiter ends TIMEOUT, a slot with its message, and the object keeps its
count and its other waiters.
Rests on the model's own choices and readings of log entry 11. -/
def Obligations.HostWaits : Prop :=
  ((∀ (n : Fin 1024) v s, mayAccess s .host (rHwObj + 16 * n.val) → plainReg (rHwObj + 16 * n.val) .rw → bitAt v 31 = true →
    ctlBit s rSyncCtl 1 = true → slotArmed s n = false → 64 ≤ fld v 25 15 → 16 ≤ fld v 14 0 →
    (bitAt v 30 = true → hostClass s (fld v 14 0) = 2) → ∀ i : Fin 32768, i.val = fld v 14 0 →
    (getObj s (.glob i)).err = false → (getObj s (.glob i)).waiters = [] →
    ∃ t, exec (.hwSlotArm n v) s = .next t ∧
      (slotVal s n ≤ (getObj s (.glob i)).count →
        fld (reg t (rHwStat + 16 * n.val)) 31 28 = 1 ∧ slotArmed t n = false ∧ (getObj t (.glob i)).waiters = [] ∧
        (getObj t (.glob i)).count = (getObj s (.glob i)).count - (if bitAt v 30 then slotVal s n else 0) ∧
        (msixOpen s (fld v 25 15) = true → .msix (fld v 25 15) ∈ t.out)) ∧
      ((getObj s (.glob i)).count < slotVal s n →
        slotArmed t n = true ∧ reg t (rHwStat + 16 * n.val) = reg s (rHwStat + 16 * n.val) ∧ (getObj t (.glob i)).count = (getObj s (.glob i)).count ∧
        (getObj t (.glob i)).waiters =
          [⟨.slot n, bitAt v 30, slotVal s n, if (reg s (rHwTmo + 16 * n.val)).toNat = 0 then none
            else some (s.clk + (reg s (rHwTmo + 16 * n.val)).toNat * 1000)⟩]) ∧
      (∀ j, j ≠ i → getObj t (.glob j) = getObj s (.glob j)) ∧ changesOnly [.sync, .regs, .host, .out] s t) ∧
  (∀ (n : Fin 1024) v s, mayAccess s .host (rHwObj + 16 * n.val) → plainReg (rHwObj + 16 * n.val) .rw → bitAt v 31 = true →
    ctlBit s rSyncCtl 1 = true → slotArmed s n = false →
    fld v 25 15 < 64 ∨ fld v 14 0 < 16 ∨ (bitAt v 30 = true ∧ hostClass s (fld v 14 0) ≠ 2) →
    ∃ t, exec (.hwSlotArm n v) s = .next t ∧ t.sync = s.sync ∧ slotArmed t n = false ∧
      (rsReg t rSyncErrStat).ev.getLsbD 5 = true ∧ .completion .host .sc [] ∈ t.out ∧ changesOnly [.regs, .rs, .host, .out] s t) ∧
  (∀ (n : Fin 1024) v s, mayAccess s .host (rHwObj + 16 * n.val) → plainReg (rHwObj + 16 * n.val) .rw → bitAt v 31 = true →
    ctlBit s rSyncCtl 1 = false → ∃ t, exec (.hwSlotArm n v) s = .next t ∧ changesOnly [.out] s t) ∧
  (∀ (n : Fin 1024) v s, mayAccess s .host (rHwObj + 16 * n.val) → plainReg (rHwObj + 16 * n.val) .rw → bitAt v 31 = false →
    slotArmed s n = true → ∀ i : Fin 32768, i.val = fld (reg s (rHwObj + 16 * n.val)) 14 0 → slotWaiters (getObj s (.glob i)) →
    ∃ t, exec (.hwSlotDisarm n v) s = .next t ∧ slotArmed t n = false ∧ fld (reg t (rHwStat + 16 * n.val)) 31 28 = 5 ∧
      getObj t (.glob i) = ((getObj s (.glob i)).leave (.slot n)).obj ∧ (∀ j, j ≠ i → getObj t (.glob j) = getObj s (.glob j)) ∧
      (∀ e ∈ ((getObj s (.glob i)).leave (.slot n)).ended, endedWith t e.1 1) ∧
      (unserved (getObj s (.glob i)) → t.out = .completion .host .sc [] :: s.out ∧
        sameRegsBut [rHwObj + 16 * n.val, rHwStat + 16 * n.val] s t) ∧ changesOnly [.sync, .regs, .host, .out] s t) ∧
  (∀ v s, mayAccess s .host rSyncCtl → ctlBit s rSyncCtl 1 = true → bitAt v 17 = true → bitAt v 1 = false →
    (∀ i, unserved (getObj s (.glob i))) →
    ∃ t, exec (.syncHwDisable v) s = .next t ∧ ctlBit t rSyncCtl 1 = false ∧
      (∀ n, (rHwObj + 16 * n.val, reg s (rHwObj + 16 * n.val)) ∈ s.regs → slotArmed s n = true →
        slotArmed t n = false ∧ fld (reg t (rHwStat + 16 * n.val)) 31 28 = 5) ∧
      t.out = .completion .host .sc [] :: s.out ∧ changesOnly [.sync, .regs, .out] s t)) ∧
  ((∀ (i : Fin 32768) (n : Fin 1024) s w e, (getObj s (.glob i)).waiters.find? (fun w => decide (w.who = .slot n)) = some w →
    w.deadline = some e → slotArmed s n = true → unserved (getObj s (.glob i)) →
    ∃ t, exec (.waiterTimeout (.glob i) (.slot n)) s = .next t ∧ t.clk = max s.clk e ∧
      getObj t (.glob i) = (getObj s (.glob i)).withdraw (.slot n) ∧
      fld (reg t (rHwStat + 16 * n.val)) 31 28 = 2 ∧ slotArmed t n = false ∧
      changesOnly [.clk, .tb, .tbs, .dies, .sync, .regs, .host, .out] s t) ∧
  (∀ o d c s w e x, (getObj s o).waiters.find? (fun w => decide (w.who = .stream d c)) = some w → w.deadline = some e →
    unserved (getObj s o) → (str s d c).prologue = true → (str s d c).cur = some x → s.img.st ≠ .none →
    ∃ t, exec (.waiterTimeout o (.stream d c)) s = .next t ∧ t.clk = max s.clk e ∧
      getObj t o = (getObj s o).withdraw (.stream d c) ∧ (str t d c).waiter = 2 ∧ (str t d c).faulted = true ∧
      (rsReg t (cdWin d.val + rStrErr)).ev.getLsbD 7 = true ∧ (rsReg t (cdWin d.val + rStrErr)).ev.getLsbD 10 = true ∧
      t.img.st = .stopping ∧ t.img.halt = true) ∧
  (∀ o d c s w e x, (getObj s o).waiters.find? (fun w => decide (w.who = .stream d c)) = some w → w.deadline = some e →
    unserved (getObj s o) → (str s d c).prologue = false → (str s d c).poison = false → (str s d c).pass2 = false → (str s d c).cur = some x →
    ∃ t, exec (.waiterTimeout o (.stream d c)) s = .next t ∧ t.clk = max s.clk e ∧
      (str t d c).poison = true ∧ (str t d c).st = .poisonPath))

/-- R253 to R255. Patrol scrub reads the next interleave unit of a stack in service and goes round; a repair that ends is the first in hand
on its pseudo-channel, moves its row to the repaired ones, counts it, logs it in flash, poisons the granules of the row that were
uncorrectable and corrects the correctable ones; a row of the table of correctable errors is dropped one scrub period after its last error.
Rests on the model's own choices and readings of log entries 7, 72 and 76. -/
def Obligations.MemoryMaintenance : Prop :=
  (∀ (n : Stack) s, s.mem.st[n].inService = true → s.mem.st[n].emergency = false → s.mem.parity = 0 → (∀ m : Stack, s.mem.st[m].repairs = []) →
    (∀ i, i < 32 → SMap.get false s.mem.ue ((n.val * 2 ^ 36 + s.mem.st[n].scrubPos) / 64 + i) = false ∧
      SMap.get false s.mem.ce ((n.val * 2 ^ 36 + s.mem.st[n].scrubPos) / 64 + i) = false) →
    ∃ t, exec (.patrolScrub n) s = .next t ∧
      t.mem.st[n] = { s.mem.st[n] with
        scrubPos := if capOf s.mem n ≤ s.mem.st[n].scrubPos + 2048 then 0 else s.mem.st[n].scrubPos + 2048
        scrubPass := s.mem.st[n].scrubPass + (if capOf s.mem n ≤ s.mem.st[n].scrubPos + 2048 then 1 else 0) } ∧
      otherStacks n s t ∧ sameContents s t ∧ changesOnly [.mem] s t) ∧
  (∀ (n : Stack) s, s.mem.st[n].inService = false ∨ s.mem.st[n].emergency = true → exec (.patrolScrub n) s = .next s) ∧
  (∀ (n : Stack) row s, s.mem.st[n].repairs.find? (fun r => decide (r / 2 ^ 36 = row / 2 ^ 36)) = some row →
    ∃ t, exec (.rowRepairDone n row) s = .next t ∧ row ∉ t.mem.st[n].repairs ∧ row ∈ t.mem.st[n].repaired ∧
      (∀ r, r ≠ row → (r ∈ t.mem.st[n].repairs ↔ r ∈ s.mem.st[n].repairs)) ∧
      t.flash.repairs = s.flash.repairs ++ [(n.val, row)] ∧ (rsReg t rMemErr).ev.getLsbD 3 = true ∧
      (∀ g, SMap.get false s.mem.ue g = true → granStack g = n → rowOf s.mem.st[n] (granOff g) = row →
        SMap.get false t.mem.ue g = false ∧ SMap.get false t.mem.poison g = true) ∧
      (∀ g, SMap.get false s.mem.ce g = true → granStack g = n → rowOf s.mem.st[n] (granOff g) = row → SMap.get false t.mem.ce g = false) ∧
      (∀ g, granStack g ≠ n → SMap.get false t.mem.ue g = SMap.get false s.mem.ue g ∧
        SMap.get false t.mem.poison g = SMap.get false s.mem.poison g) ∧
      t.mem.hbm = s.mem.hbm ∧ otherStacks n s t ∧ changesOnly [.mem, .flash, .regs, .rs, .host, .out] s t) ∧
  (∀ (n : Stack) row r s, s.mem.st[n].ceRows.find? (fun r => decide (r.row = row)) = some r →
    ∃ t, exec (.rowCeAge n row) s = .next t ∧ t.clk = max s.clk (r.hits.headD 0 + s.mem.scrubHours * 3600000000000) ∧
      t.mem.st[n] = { s.mem.st[n] with ceRows := s.mem.st[n].ceRows.filter fun q => decide (q.row ≠ row) } ∧
      otherStacks n s t ∧ sameContents s t ∧ changesOnly [.mem, .clk, .tb, .tbs, .regs, .dies] s t) ∧
  (∀ s g, SMap.get false s.mem.ce g = true → SMap.get false s.mem.ue g = false → s.mem.st[granStack g].emergency = false →
    s.mem.st[granStack g].ceRows = [] → 1 < s.mem.rowCeLimit →
    ∃ t, touchGran s g 0 = t ∧ SMap.get false t.mem.ce g = false ∧ reg64 t rCeTotal = reg64 s rCeTotal + 1 ∧
      t.mem.st[granStack g].ceRows = [⟨rowOf s.mem.st[granStack g] (granOff g), [s.clk]⟩] ∧ changesOnly [.mem, .regs] s t)

/-- R260 to R263, with the entry values of the table (no offsets). A valid reading of 95.0 °C or more puts a stack into EMERGENCY, from which only
a reading of 88.0 °C or less takes it; another reading leaves it in the band that R260 gives, entered at its entry value and left at its exit value.
The third failed reading in a row is treated as THROTTLE25 with SENSOR_FAIL, and 10 ms after the last valid one the stack enters EMERGENCY.
R261. THERMAL_SLOW is repeated every 1 ms while it is set; the flag of a peer is held for 3 ms after its last message and then
lapses; a clear ends it at once.
Rests on the model's own choices and readings of log entry 44. -/
def Obligations.StackTemperatures : Prop :=
  ((∀ (n : Stack) (x : Int) s, s.mem.st[n].inService = true → s.mem.bandOffsets = [] → s.mem.st[n].emergency = false → s.mem.st[n].fails < 3 →
    s.mem.st[n].band ≤ 4 → 380 ≤ x →
    ∃ t, exec (.stackTempRead n (some x)) s = .next t ∧ t.mem.st[n].emergency = true ∧ t.mem.st[n].band = 5 ∧ t.mem.slow = true ∧
      (rsReg t rMemErr).ev.getLsbD 7 = true ∧ t.mem.st[n].fails = 0 ∧ t.mem.st[n].lastValid = s.clk ∧ otherStacks n s t ∧ sameContents s t ∧
      changesOnly [.out, .regs, .rs, .host, .sync, .dies, .step, .img, .upd, .mem, .fab, .coll] s t) ∧
  (∀ (n : Stack) (x : Int) s, s.mem.st[n].inService = true → s.mem.bandOffsets = [] → s.mem.st[n].emergency = false → s.mem.st[n].fails < 3 →
    s.mem.st[n].band ≤ 4 → x < 380 →
    ∃ t, exec (.stackTempRead n (some x)) s = .next t ∧ t.mem.st[n].emergency = false ∧ t.mem.st[n].band ≤ 4 ∧
      (∀ k, k < 4 → [341, 360, 368, 376].getD k 0 ≤ x → k + 1 ≤ t.mem.st[n].band) ∧
      (∀ k, k + 1 = t.mem.st[n].band → [341, 360, 368, 376].getD k 0 ≤ x ∨ (k + 1 ≤ s.mem.st[n].band ∧ [332, 352, 360, 368].getD k 0 < x)) ∧
      (∀ k, t.mem.st[n].band ≤ k → k < s.mem.st[n].band → x ≤ [332, 352, 360, 368].getD k 0) ∧
      t.mem.st[n].fails = 0 ∧ t.mem.st[n].lastValid = s.clk ∧ t.mem.st[n].tempNow = unsign 16 x ∧
      (t.mem.slow = true ↔ ∃ m : Stack, 2 ≤ t.mem.st[m].band ∨ t.mem.st[m].emergency = true) ∧ otherStacks n s t ∧ sameContents s t ∧
      changesOnly [.out, .regs, .rs, .host, .mem, .fab, .coll] s t) ∧
  (∀ (n : Stack) (x : Int) s, s.mem.st[n].inService = true → s.mem.bandOffsets = [] → s.mem.st[n].emergency = true →
    ∃ t, exec (.stackTempRead n (some x)) s = .next t ∧ (t.mem.st[n].emergency = true ↔ 352 < x) ∧ otherStacks n s t ∧ sameContents s t ∧
      changesOnly [.out, .regs, .rs, .host, .mem, .fab, .coll] s t) ∧
  (∀ (n : Stack) s, s.mem.st[n].inService = true → s.mem.st[n].emergency = false → s.mem.st[n].fails = 2 → s.mem.st[n].band ≤ 4 →
    ∃ t, exec (.stackTempRead n none) s = .next t ∧ t.mem.st[n].band = 4 ∧ t.mem.st[n].fails = 3 ∧ (rsReg t rMemErr).ev.getLsbD 8 = true ∧
      otherStacks n s t ∧ sameContents s t ∧ changesOnly [.out, .regs, .rs, .host, .mem, .fab, .coll] s t) ∧
  (∀ (n : Stack) s, s.mem.st[n].inService = true → s.mem.st[n].fails ≠ 0 → s.mem.st[n].emergency = false →
    ∃ t, exec (.stackSensorTimeout n) s = .next t ∧ t.clk = max s.clk (s.mem.st[n].lastValid + 10000000) ∧ t.mem.st[n].emergency = true ∧
      t.mem.slow = true ∧ (rsReg t rMemErr).ev.getLsbD 7 = true ∧ otherStacks n s t ∧ sameContents s t)) ∧
  ((∀ s x, s.mem.slowRepeat = some x →
    ∃ t, exec .thermalSlowRepeat s = .next t ∧ t.clk = max s.clk x ∧ t.mem = { s.mem with slowRepeat := some (max s.clk x + 1000000) } ∧
      changesOnly [.clk, .tb, .tbs, .regs, .dies, .mem, .fab, .out] s t) ∧
  (∀ s (p : Half), SMap.get 0 s.mem.peerSlow p.toNat ≠ 0 →
    ∃ t, exec (.thermalSlowHoldExpire p) s = .next t ∧ t.clk = max s.clk (SMap.get 0 s.mem.peerSlow p.toNat) ∧
      SMap.get 0 t.mem.peerSlow p.toNat = 0 ∧ (∀ q, q ≠ p.toNat → SMap.get 0 t.mem.peerSlow q = SMap.get 0 s.mem.peerSlow q) ∧
      t.mem = { s.mem with peerSlow := t.mem.peerSlow } ∧ changesOnly [.clk, .tb, .tbs, .out, .regs, .rs, .host, .dies, .mem, .coll] s t) ∧
  (∀ s p ch, accepted s ptThermalSlow p ch → bitAt p.addr 0 = true →
    ∃ t, exec (.thermalSlowPacket p ch) s = .next t ∧ SMap.get 0 t.mem.peerSlow p.srcMod.toNat = s.clk + 3000000 ∧
      t.mem = { s.mem with peerSlow := t.mem.peerSlow } ∧ changesOnly [.out, .regs, .rs, .host, .mem, .fab, .coll] s t) ∧
  (∀ s p ch, accepted s ptThermalSlow p ch → bitAt p.addr 0 = false →
    ∃ t, exec (.thermalSlowPacket p ch) s = .next t ∧ SMap.get 0 t.mem.peerSlow p.srcMod.toNat = 0 ∧
      t.mem = { s.mem with peerSlow := t.mem.peerSlow } ∧ changesOnly [.out, .regs, .rs, .host, .mem, .fab, .coll] s t))

/-- R174, R200. A fetch reads the 64-byte descriptor at the program pointer and puts it at issue when its SEQ is the one expected and its
fields are sound; on the poison path it passes over one that does not run on poison and is not the step's STEP_END. Nothing else moves.
R202 to R204, R525. A wrong SEQ is DESC_SEQ and a program pointer outside the image PC. In a step body the fault poisons the step and
the stream steps over the descriptor onto the poison path, which begins at the boundary of its array operation while one runs; in a prologue it stops the image with cause 5, and on the poison path with cause
6. The die's registers show the fault.
Rests on the model's own choices and readings of log entries 20, 21 and 75. -/
def Obligations.DescriptorFetch : Prop :=
  ((∀ s d c, fetchable s d c → dSeq (descAt s (str s d c).pc) = (str s d c).expect → (str s d c).poison = false →
    staticFault c (str s d c).inBody (descAt s (str s d c).pc) = none →
    ∃ t, exec (.descFetch d c) s = .next t ∧ str t d c = { str s d c with cur := some (descAt s (str s d c).pc) } ∧
      otherStreams d c s t ∧ changesOnly [.dies] s t) ∧
  (∀ s d c, fetchable s d c → dSeq (descAt s (str s d c).pc) = (str s d c).expect → (str s d c).poison = true →
    dRunOnPoison (descAt s (str s d c).pc) = false → (str s d c).pc ≠ (str s d c).endAddr →
    ∃ t, exec (.descFetch d c) s = .next t ∧ movedOn d c s t ∧ (str t d c).st = .poisonPath ∧ otherStreams d c s t ∧
      changesOnly [.dies, .regs] s t) ∧
  (∀ s d c, mayAct s d c = false ∨ (str s d c).cur ≠ none → exec (.descFetch d c) s = .next s)) ∧
  ((∀ s d c, fetchable s d c → dSeq (descAt s (str s d c).pc) ≠ (str s d c).expect → inStep s d c → s.coll.active = [] →
    notWaiting s d c →
    ∃ t, exec (.descFetch d c) s = .next t ∧ (str t d c).poison = true ∧ (str t d c).st = (if opRuns s d c then .issuing else .poisonPath) ∧ (str t d c).faulted = true ∧
      (str t d c).pc = (str s d c).pc + 64 ∧ (str t d c).expect = (str s d c).expect + 1 ∧
      (rsReg t (cdWin d.val + rStrErr)).ev.getLsbD 4 = true ∧ reg64 t (cdWin d.val + rStrErrAddr) = (str s d c).pc ∧
      (verdictOf s (str s d c).attempt = none → attempt s (str s d c).attempt ≠ none →
        verdictOf t (str s d c).attempt = some .poison)) ∧
  (∀ s d c, mayAct s d c = true → (str s d c).cur = none → pcOk s (str s d c).pc = false → (str s d c).prologue = true →
    ∃ t, exec (.descFetch d c) s = .next t ∧ t.img.st = .stopping ∧ t.img.halt = true ∧
      t.img.stop = (if s.img.stop = 0 then 5 else s.img.stop) ∧ (str t d c).pc = (str s d c).pc ∧
      (rsReg t (cdWin d.val + rStrErr)).ev.getLsbD 6 = true ∧ (rsReg t (cdWin d.val + rStrErr)).ev.getLsbD 10 = true ∧
      changesOnly [.out, .regs, .rs, .host, .dies, .img] s t) ∧
  (∀ s d c, fetchable s d c → dSeq (descAt s (str s d c).pc) ≠ (str s d c).expect → (str s d c).prologue = false →
    (str s d c).poison = true →
    ∃ t, exec (.descFetch d c) s = .next t ∧ t.img.st = .stopping ∧ t.img.halt = true ∧
      t.img.stop = (if s.img.stop = 0 then 6 else s.img.stop) ∧
      (rsReg t (cdWin d.val + rStrErr)).ev.getLsbD 4 = true ∧ (rsReg t (cdWin d.val + rStrErr)).ev.getLsbD 11 = true ∧
      changesOnly [.out, .regs, .rs, .host, .dies, .img] s t))

/-- R178. A descriptor whose gate excludes it takes one issue slot and makes its DONE signal, whatever its type; a gate other than ALWAYS
runs nothing in a prologue, NOT_FIRST runs in every step but the first of the activation, RECOMPUTE by the layer's recompute flag, and the Q and H gates run on the steps they
name; RECOMPUTE without a LAYER is DESC_FIELD. R59, R60, R179: before the gate of the first descriptor of a layer on an F stream is decided, the
layer's stash mode is settled, and a layer in full mode that fits takes its pages; a recompute descriptor that a B stream issues counts its
layer as recomputed. -/
def Obligations.Gates : Prop :=
  (∀ s d c w i, atIssue s d c (dType w) = some w → issueRow d c w i → (dType w = 3 → dOp w ≤ 1) → (dType w = 5 → wtMode w ≤ 1) →
    modeSettled s d c w → gateRuns s (str s d c) w = false →
    ∃ u, exec i s = .next (signals u (doneSig d c (str s d c) w)) ∧ movedOn d c s u ∧ otherStreams d c s u ∧
      changesOnly [.dies, .regs] s u) ∧
  (∀ s x w, dGate w = 0 → gateRuns s x w = true) ∧
  (∀ s x w, dGate w ≠ 0 → x.inBody = false → gateRuns s x w = false) ∧
  (∀ s x w, dGate w = 6 → x.inBody = true → (gateRuns s x w = true ↔ x.step ≠ s.step.first)) ∧
  (∀ s x w p n, params s = some p → x.inBody = true → n = x.step.toNat →
    (dGate w = 1 → (gateRuns s x w = true ↔ recomputeFlag s x.attempt (dLayer w).toNat = true)) ∧
    (dGate w = 2 → (gateRuns s x w = true ↔ p.q ≠ 0 ∧ n % p.q = 0)) ∧
    (dGate w = 3 → (gateRuns s x w = true ↔ p.q ≠ 0 ∧ 1 < n ∧ (n - 1) % p.q = 0)) ∧
    (dGate w = 4 → (gateRuns s x w = true ↔ p.h ≠ 0 ∧ n % p.h = 0)) ∧
    (dGate w = 5 → (gateRuns s x w = true ↔ p.h ≠ 0 ∧ 1 < n ∧ (n - 1) % p.h = 0))) ∧
  (∀ c b w, dGate w = 1 → dLayer w = 0xFFFF → typeBad c b w = false → staticFault c b w = some fField) ∧
  (∀ s d c w i, atIssue s d c (dType w) = some w → issueRow d c w i → (dType w = 3 → dOp w ≤ 1) → (dType w = 5 → wtMode w ≤ 1) →
    (stashTake s d c w).1 = true → exec i s = exec i (stashTake s d c w).2) ∧
  (∀ s d w l, (str s d .f).inBody = true → (str s d .f).poison = false → stashPlan s (dLayer w).toNat = some l →
    stashSettled s (str s d .f).attempt (dLayer w).toNat = false → l.full = true →
    recomputeFlag s (str s d .f).attempt (dLayer w).toNat = false → poolFits l.fullPages (stashFree s) = true →
    stashTake s d .f w = (true, { s with step := { s.step with
      stash := s.step.stash ++ [((str s d .f).attempt, (dLayer w).toNat, l.fullPages)] } })) ∧
  (∀ s c att w a, attempt s att = some a → c = .b → dGate w = 1 →
    ∃ b, attempt (noteRecompute s c att w) att = some b ∧ (dLayer w).toNat ∈ b.recomputed ∧
      b = { a with recomputed := b.recomputed } ∧ changesOnly [.step] s (noteRecompute s c att w))

/-- R176, R213, R219, R220. A signal that makes no waiter end adds its amount to an object: to a global one always; to a local one when it
carries no tag or the tag of the object's generation, to AHEAD one generation early, and not at all when it is stale, which is counted.
A global one is counted. The DONE signal of a descriptor names DONE_REF and DONE_COUNT, with the stream's tag; a count of 0 makes none.
R189, R190, R222, R225. A local SIGNAL issues, applies its amount and then its DONE signal. A WAIT on an object whose count has reached
its value issues at once, takes the value in TAKE mode and makes its DONE signal; otherwise the stream waits as the object's last waiter,
with its deadline; on an object in ERROR the stream takes the poison path.
Rests on the model's own choices and readings of log entry 17. -/
def Obligations.Signals : Prop :=
  ((∀ s i n tag src, (getObj s (.glob i)).err = false → (getObj s (.glob i)).waiters = [] → (getObj s (.glob i)).count + n ≤ 2147483647 →
    getObj (signals s [⟨.glob i, n, tag, src⟩]) (.glob i) = { getObj s (.glob i) with count := (getObj s (.glob i)).count + n } ∧
    (∀ j, j ≠ i → getObj (signals s [⟨.glob i, n, tag, src⟩]) (.glob j) = getObj s (.glob j)) ∧
    reg64 (signals s [⟨.glob i, n, tag, src⟩]) rSyncSignals = reg64 s rSyncSignals + 1 ∧
    changesOnly [.sync, .regs, .upd, .step, .host, .out] s (signals s [⟨.glob i, n, tag, src⟩])) ∧
  (∀ s d i n tag src, (getObj s (.loc d i)).err = false → (getObj s (.loc d i)).waiters = [] →
    (getObj s (.loc d i)).count + n ≤ 2147483647 → tag = none ∨ tag = some (getObj s (.loc d i)).gen →
    getObj (signals s [⟨.loc d i, n, tag, src⟩]) (.loc d i) = { getObj s (.loc d i) with count := (getObj s (.loc d i)).count + n } ∧
    (∀ e j, e ≠ d ∨ j ≠ i → getObj (signals s [⟨.loc d i, n, tag, src⟩]) (.loc e j) = getObj s (.loc e j)) ∧
    changesOnly [.dies] s (signals s [⟨.loc d i, n, tag, src⟩])) ∧
  (∀ s d i n src, (getObj s (.loc d i)).err = false → (getObj s (.loc d i)).ahead + n ≤ 2147483647 →
    getObj (signals s [⟨.loc d i, n, some ((getObj s (.loc d i)).gen + 1), src⟩]) (.loc d i) =
      { getObj s (.loc d i) with ahead := (getObj s (.loc d i)).ahead + n } ∧
    changesOnly [.dies] s (signals s [⟨.loc d i, n, some ((getObj s (.loc d i)).gen + 1), src⟩])) ∧
  (∀ s d i n (k : Half) src, (getObj s (.loc d i)).err = false → k ≠ 0 → k.toNat < 32768 →
    signals s [⟨.loc d i, n, some ((getObj s (.loc d i)).gen - k), src⟩] = addReg s (cdWin d.val + rCdSyncStale) 1) ∧
  (∀ d c x w, doneSig d c x w =
    if dDoneCount w = 0 then []
    else [⟨refObj d (dDoneRef w), dDoneCount w, if x.inBody then some (x.attempt.setWidth 16) else none, ⟨d.val, sidNat c, false⟩⟩])) ∧
  ((∀ s d c w, issuing s d c 4 w → sgTarget w = 0 →
    ∃ u, exec (.signal d c) s = .next (issueNoted s d c w (signals u
        (⟨sgObj w, sgCount w, streamTag (str s d c), ⟨d.val, sidNat c, false⟩⟩ :: doneSig d c (str s d c) w))) ∧
      movedOn d c s u ∧ otherStreams d c s u ∧ changesOnly [.dies, .regs] s u) ∧
  (∀ s d c w, issuing s d c 5 w → wtMode w = 0 → (getObj s (refObj d (wtRef w))).err = false →
    (getObj s (refObj d (wtRef w))).waiters = [] → wtValue w ≤ (getObj s (refObj d (wtRef w))).count →
    ∃ u, exec (.waitAtLeast d c) s = .next (issueNoted s d c w (signals u (doneSig d c (str s d c) w))) ∧ movedOn d c s u ∧ (str u d c).waiter = 1 ∧
      getObj u (refObj d (wtRef w)) = getObj s (refObj d (wtRef w)) ∧ otherStreams d c s u ∧ changesOnly [.dies, .regs, .sync] s u) ∧
  (∀ s d c w, issuing s d c 5 w → wtMode w = 1 → (getObj s (refObj d (wtRef w))).err = false →
    (getObj s (refObj d (wtRef w))).waiters = [] → wtValue w ≤ (getObj s (refObj d (wtRef w))).count →
    ∃ u, exec (.waitTake d c) s = .next (issueNoted s d c w (signals u (doneSig d c (str s d c) w))) ∧ movedOn d c s u ∧ (str u d c).waiter = 1 ∧
      getObj u (refObj d (wtRef w)) =
        { getObj s (refObj d (wtRef w)) with count := (getObj s (refObj d (wtRef w))).count - wtValue w } ∧
      otherStreams d c s u ∧ changesOnly [.dies, .regs, .sync] s u) ∧
  (∀ s d c w, issuing s d c 5 w → (getObj s (refObj d (wtRef w))).err = false →
    (getObj s (refObj d (wtRef w))).waiters = [] → (getObj s (refObj d (wtRef w))).count < wtValue w → wtMode w ≤ 1 →
    ∃ t, exec (if wtMode w = 0 then .waitAtLeast d c else .waitTake d c) s = .next t ∧ (str t d c).st = .waitSync ∧
      (str t d c).waitRef = some (refObj d (wtRef w)) ∧ (str t d c).pc = (str s d c).pc ∧ (str t d c).cur = some w ∧
      getObj t (refObj d (wtRef w)) = { getObj s (refObj d (wtRef w)) with
        waiters := [⟨.stream d c, decide (wtMode w = 1), wtValue w, if wtTimeout w = 0 then none else some (s.clk + wtTimeout w * 1000)⟩] } ∧
      otherStreams d c s t ∧ changesOnly [.dies, .regs, .sync] s t) ∧
  (∀ s d c w, issuing s d c 5 w → (getObj s (refObj d (wtRef w))).err = true → wtMode w ≤ 1 → (str s d c).prologue = false →
    ∃ t, exec (if wtMode w = 0 then .waitAtLeast d c else .waitTake d c) s = .next (issueNoted s d c w t) ∧ movedOn d c s t ∧ (str t d c).poison = true ∧
      (str t d c).st = .poisonPath ∧ (str t d c).waiter = 3 ∧ otherStreams d c s t ∧ changesOnly [.dies, .regs, .sync] s t))

/-- R187. MOVE_COPY over tile stores copies every byte of every row, and MOVE_ZERO clears them, and no other byte of the tile store changes;
the move is in progress until MOVE_DONE, which takes it out and makes its DONE signal, or raises MOVE_UE when it met an error. A copy of
one row of 64 bytes to memory stores it there. A range that is not permitted is DESC_RANGE before anything is written; eight moves in
progress make the stream wait.
Rests on the model's own choices and readings of log entry 22. -/
def Obligations.Moves : Prop :=
  (∀ s d c w, issuing s d c 3 w → dOp w = 0 → mvSrcSpace w = 0 → mvDstSpace w = 0 → moveRangeOk s d w = true →
    inUnit (str s d c) .move < 8 → moveOverlaps d w = false → mvRowBytes w % 64 = 0 → mvRowBytes w ≤ mvDstPitch w → soundStore s d →
    ∃ t, exec (.moveCopy d c) s = .next (issueNoted s d c w t) ∧ movedOn d c s t ∧
      (str t d c).inflight = (str s d c).inflight ++ [entryOf (str s d c) .move w] ∧
      (∀ r i, r < mvRows w → i < mvRowBytes w →
        tsByte t d (mvDst w + r * mvDstPitch w + i) = tsByte s d (mvSrc w + r * mvSrcPitch w + i)) ∧
      (∀ o, (∀ r i, r < mvRows w → i < mvRowBytes w → o ≠ mvDst w + r * mvDstPitch w + i) → tsByte t d o = tsByte s d o) ∧
      otherStreams d c s t ∧ changesOnly [.dies, .regs] s t) ∧
  (∀ s d c w, issuing s d c 3 w → dOp w = 1 → mvDstSpace w = 0 → moveRangeOk s d w = true → inUnit (str s d c) .move < 8 →
    mvRowBytes w ≤ mvDstPitch w → soundStore s d →
    ∃ t, exec (.moveZero d c) s = .next (issueNoted s d c w t) ∧ movedOn d c s t ∧
      (str t d c).inflight = (str s d c).inflight ++ [entryOf (str s d c) .move w] ∧
      (∀ r i, r < mvRows w → i < mvRowBytes w → tsByte t d (mvDst w + r * mvDstPitch w + i) = 0) ∧
      (∀ o, (∀ r i, r < mvRows w → i < mvRowBytes w → o ≠ mvDst w + r * mvDstPitch w + i) → tsByte t d o = tsByte s d o) ∧
      otherStreams d c s t ∧ changesOnly [.dies, .regs] s t) ∧
  (∀ s d c w, issuing s d c 3 w → dOp w = 0 → mvSrcSpace w = 0 → mvDstSpace w = 1 → moveRangeOk s d w = true →
    inUnit (str s d c) .move < 8 → mvRows w = 1 → mvRowBytes w = 64 → soundStore s d → cleanRange s.mem (mvDst w) 64 →
    distinctBytes s.mem (mvDst w) 64 →
    ∃ t, exec (.moveCopy d c) s = .next (issueNoted s d c w t) ∧ movedOn d c s t ∧
      storedAt (mvDst w) ((List.range 64).map fun i => tsByte s d (mvSrc w + i)) s.mem t.mem ∧
      otherStreams d c s t ∧ changesOnly [.dies, .regs, .mem] s t) ∧
  (∀ s d c i e, findInflight (str s d c) .move i = some e → e.bad = false → e.silent = false →
    ∃ u, exec (.moveDone d c i) s = .next (signals u (doneSig d c (str s d c) e.desc)) ∧
      str u d c = { str s d c with inflight := (str s d c).inflight.filter fun x => decide (x.id ≠ i) } ∧
      otherStreams d c s u ∧ changesOnly [.dies] s u) ∧
  (∀ s d c i e, findInflight (str s d c) .move i = some e → e.bad = true → e.silent = false → inStep s d c → s.coll.active = [] →
    (∀ o, unserved (getObj s o)) →
    ∃ t, exec (.moveDone d c i) s = .next t ∧ (str t d c).poison = true ∧ (rsReg t (cdWin d.val + rStrErr)).ev.getLsbD 8 = true ∧
      reg64 t (cdWin d.val + rStrErrAddr) = e.addr ∧ ∀ o, (getObj t o).count = (getObj s o).count) ∧
  (∀ s d c w, issuing s d c 3 w → dOp w ≤ 1 → moveRangeOk s d w = false → inStep s d c → s.coll.active = [] →
    (∀ o, unserved (getObj s o)) →
    ∃ t, exec (if dOp w = 0 then .moveCopy d c else .moveZero d c) s = .next (issueNoted s d c w t) ∧ (str t d c).poison = true ∧
      (rsReg t (cdWin d.val + rStrErr)).ev.getLsbD 3 = true ∧ (∀ e o, tsByte t e o = tsByte s e o) ∧ ∀ o, (getObj t o).count = (getObj s o).count) ∧
  (∀ s d c w, issuing s d c 3 w → dOp w ≤ 1 → moveRangeOk s d w = true → 8 ≤ inUnit (str s d c) .move →
    ∃ t, exec (if dOp w = 0 then .moveCopy d c else .moveZero d c) s = .next t ∧
      str t d c = { str s d c with st := .waitUnit, fabricWait := false } ∧ otherStreams d c s t ∧ changesOnly [.dies] s t)

/-- R198, R200, R220. STEP_BEGIN of a stream's first step begins step STEP_CTR + 1 as the first attempt of the activation; after a clear
verdict it begins the next step, and after a poisoned one that has ended the same step again, each as the next attempt. The stream enters
the step body and leaves its prologue or the poison path, and takes the addresses of its STEP_END. Without its verdict it waits, and a
step beyond the stop step or beyond LAST is held.
R192, R199, R200. STEP_END reports the stream's arrival to the step unit, leaves the step body, and takes the program pointer and the
SEQ back to the STEP_BEGIN it names. GUARD with a clear verdict starts pass 2, in which a U stream is held after a fault of the pass, with poison takes the poison path, and waits while there is no
verdict. LOSS records the loss; a loss that is not finite is a cause in the guard record.
Rests on the model's own choices and readings of log entries 18, 19 and 20. -/
def Obligations.StepDescriptors : Prop :=
  ((∀ s d c w, issuing s d c 7 w → dOp w = 0 → dfld w 0x12 2 = 0 → dDoneCount w = 0 → s.upd.rehome = [] →
    s.step.stopStep = none → dfld w 0x18 8 = 0 → s.step.remotePoison = [] →
    verdictOf s (nextAttempt s (str s d c)) ≠ some .poison →
    (str s d c).begunAny = false ∨ verdictOf s (str s d c).attempt = some .clear ∨
      (verdictOf s (str s d c).attempt = some .poison ∧ ∃ a, attempt s (str s d c).attempt = some a ∧ a.recorded = true) →
    ∃ t, exec (.stepBegin d c) s = .next (issueNoted s d c w t) ∧ movedOn d c s t ∧ (str t d c).inBody = true ∧ (str t d c).begunAny = true ∧
      (str t d c).prologue = false ∧ (str t d c).poison = false ∧ (str t d c).pass2 = false ∧
      (str t d c).step = (if (str s d c).begunAny = false then s.step.ctr + 1
        else if verdictOf s (str s d c).attempt = some .poison then (str s d c).step else (str s d c).step + 1) ∧
      (str t d c).attempt = (if (str s d c).begunAny then (str s d c).attempt + 1 else s.img.attBase + 1) ∧
      (str t d c).endAddr = w64 (dfld w 0x20 8) ∧ (str t d c).endSeq = BitVec.ofNat 16 (dfld w 0x28 2) ∧
      (∃ a, attempt t (str t d c).attempt = some a ∧ strNo d c ∈ a.begun) ∧
      otherStreams d c s t ∧ changesOnly [.dies, .regs, .step, .img] s t) ∧
  (∀ s d c w, issuing s d c 7 w → dOp w = 0 → (str s d c).begunAny = true → attempt s (str s d c).attempt ≠ none →
    verdictOf s (str s d c).attempt = none ∨ verdictOf s (str s d c).attempt = some .indeterminate →
    ∃ t, exec (.stepBegin d c) s = .next t ∧ str t d c = { str s d c with st := .waitVerdict } ∧ otherStreams d c s t ∧
      changesOnly [.dies] s t) ∧
  (∀ s d c w m, issuing s d c 7 w → dOp w = 0 → (str s d c).begunAny = true → verdictOf s (str s d c).attempt = some .clear →
    s.step.stopStep = some m → m.toNat < ((str s d c).step + 1).toNat →
    ∃ t, exec (.stepBegin d c) s = .next t ∧ str t d c = { str s d c with st := .held } ∧ otherStreams d c s t ∧
      changesOnly [.dies] s t)) ∧
  ((∀ s d c w, issuing s d c 7 w → dOp w = 1 →
    ∃ u, exec (.stepEnd d c) s = .next (issueNoted s d c w (signals u (doneSig d c (str s d c) w))) ∧
      (str u d c).inBody = false ∧ (str u d c).poison = false ∧ (str u d c).pass2 = false ∧ (str u d c).st = .issuing ∧
      (str u d c).pc = w64 (dfld w 0x10 8) ∧ (str u d c).expect = BitVec.ofNat 16 (dfld w 0x18 2) ∧ (str u d c).cur = none ∧
      (∀ a, attempt s (str s d c).attempt = some a →
        attempt u (str s d c).attempt = some { a with ended := a.ended ++ [strNo d c] }) ∧
      otherStreams d c s u ∧ changesOnly [.dies, .regs, .step] s u) ∧
  (∀ s d c w, issuing s d c 7 w → dOp w = 2 → verdictOf s (str s d c).attempt = some .clear →
    ∃ u, exec (.guard d c) s = .next (issueNoted s d c w (lateGuard d c (signals u (doneSig d c (str s d c) w)))) ∧ movedOn d c s u ∧ (str u d c).pass2 = true ∧
      otherStreams d c s u ∧ changesOnly [.dies, .regs] s u) ∧
  (∀ s d c w, issuing s d c 7 w → dOp w = 2 → verdictOf s (str s d c).attempt = some .poison → (str s d c).poison = false →
    s.coll.active = [] →
    ∃ t, exec (.guard d c) s = .next t ∧ (str t d c).poison = true ∧ (str t d c).pc = (str s d c).pc ∧
      (str t d c).st = (if ((die s d).arr.ready.get c).isSome && opRuns s d c then .issuing else .poisonPath) ∧ otherStreams d c s t) ∧
  (∀ s d, (attempt s (str s d .u).attempt).any (·.finisher) = false → s.upd.fault = true →
    (s.upd.p2.any fun q => decide (q.att = (str s d .u).attempt)) = true →
    str (lateGuard d .u s) d .u = { str s d .u with st := .held } ∧ otherStreams d .u s (lateGuard d .u s) ∧
      changesOnly [.dies] s (lateGuard d .u s)) ∧
  (∀ s d c, c ≠ .u ∨ ((attempt s (str s d .u).attempt).any (·.finisher) = false ∧ s.upd.fault = false) → lateGuard d c s = s) ∧
  (∀ s d c w, issuing s d c 7 w → dOp w = 2 → verdictOf s (str s d c).attempt = none →
    ∃ t, exec (.guard d c) s = .next t ∧ str t d c = { str s d c with st := .waitVerdict } ∧ otherStreams d c s t ∧
      changesOnly [.dies] s t) ∧
  (∀ s d c w v, issuing s d c 7 w → dOp w = 3 → cleanRange s.mem (dfld w 0x10 8) 4 → unpoisoned s.mem (dfld w 0x10 8) 4 →
    v = w32 (leNat ((List.range 4).map fun i => byteAt s.mem (dfld w 0x10 8 + i))) →
    ∃ u, exec (.loss d c) s = .next (issueNoted s d c w (signals u (doneSig d c (str s d c) w))) ∧ movedOn d c s u ∧
      (∀ a, attempt s (str s d c).attempt = some a → ∃ b, attempt u (str s d c).attempt = some b ∧ b.loss = some v ∧
        b.causes.getLsbD 0 = (a.causes.getLsbD 0 || (nonFinite32 v && decide (a.verdict ≠ some .clear))) ∧
        b.verdict = a.verdict) ∧
      otherStreams d c s u ∧ changesOnly [.dies, .regs, .step] s u))

/-- R86, R183, R193. An ARRAY descriptor that passes its checks asserts the stream's ready with its OP_TAG and waits for the gang, whose timer
starts at the first ready; while an operation runs, or one of the stream is in progress, the stream waits.
R87 to R92, R203. With every core in service, the grant goes to the first stream of the priority order that is ready on all 24 dies: with
equal tags its readies end, the grant is counted and every die starts the operation of its descriptor. Unequal tags grant nothing: GANG_MISMATCH,
and the stream faults on every die. A gang timer that expires does the same with GANG_TIMEOUT. The reference tag is held by the most dies, and is
the lowest of those.
Rests on the model's own choices and readings of log entries 24 and 77. -/
def Obligations.ArrayOperations : Prop :=
  ((∀ s d c w, issuing s d c 1 w → formatBad w = false → itemsBad w = false → arrayRangeOk w = true → (die s d).arr.op = none →
    inUnit (str s d c) .array = 0 →
    ∃ t, exec (.array d c) s = .next t ∧ (die t d).arr = { (die s d).arr with ready := (die s d).arr.ready.put c (some (aTag w)) } ∧
      str t d c = { str s d c with st := .waitGang } ∧ t.gang = s.gang.put c (some ((s.gang.get c).getD s.clk)) ∧
      otherStreams d c s t ∧ (∀ e, e ≠ d → die t e = die s e) ∧ changesOnly [.dies, .gang] s t) ∧
  (∀ s d c w, issuing s d c 1 w → formatBad w = false → itemsBad w = false → arrayRangeOk w = true →
    (die s d).arr.op ≠ none ∨ 1 ≤ inUnit (str s d c) .array →
    ∃ t, exec (.array d c) s = .next t ∧ str t d c = { str s d c with st := .waitUnit, fabricWait := false } ∧ (die t d).arr = (die s d).arr ∧
      otherStreams d c s t ∧ changesOnly [.dies] s t) ∧
  (∀ s d c w, issuing s d c 1 w → formatBad w = true → inStep s d c → s.coll.active = [] →
    ∃ t, exec (.array d c) s = .next (issueNoted s d c w t) ∧ (str t d c).poison = true ∧
      (rsReg t (cdWin d.val + rArrErr)).ev.getLsbD 1 = true ∧ (rsReg t (cdWin d.val + rStrErr)).ev.getLsbD 9 = true ∧
      (die t d).arr.op.map (fun o => { o with reset := false }) = (die s d).arr.op.map (fun o => { o with reset := false }))) ∧
  ((∀ s c g, gangWhole s = true → (armOrder s).find? (allReady s) = some c → (∀ d, (die s d).arr.ready.get c = some g) →
    (∀ d, (str s d c).cur ≠ none) → (∀ d, notWaiting s d c) →
    ∃ t, exec .gangGrant s = .next t ∧ t.gang = s.gang.put c none ∧ reg64 t rArmGrants = reg64 s rArmGrants + 1 ∧
      (∀ d, (die t d).arr.ready.get c = none) ∧
      (∀ d w, (str s d c).cur = some w → aItemCount w ≠ 0 → (∃ o, (die t d).arr.op = some o ∧ o.desc = w ∧ o.c = c ∧ o.ends = aItemCount w) ∧
        ∃ e ∈ (str t d c).inflight, e.unit = .array ∧ e.desc = w) ∧
      (∀ d w, (str s d c).cur = some w → aItemCount w = 0 → (die t d).arr.op = none ∧ (die t d).arr.acc = (die s d).arr.acc)) ∧
  (∀ s c, gangWhole s = true → (armOrder s).find? (allReady s) = some c →
    (∃ d e, (die s d).arr.ready.get c ≠ (die s e).arr.ready.get c) → (∀ d, inStep s d c) → s.coll.active = [] →
    ∃ t, exec .gangGrant s = .next t ∧ (rsReg t rArmErr).ev.getLsbD 0 = true ∧ reg64 t rArmGrants = reg64 s rArmGrants ∧
      t.gang.get c = none ∧ ∀ d, (str t d c).poison = true ∧ (die t d).arr.ready.get c = none ∧ (die t d).arr.op = none ∧
        (rsReg t (cdWin d.val + rArrErr)).ev.getLsbD 0 = true ∧ (rsReg t (cdWin d.val + rStrErr)).ev.getLsbD 9 = true) ∧
  (∀ s c t0, s.gang.get c = some t0 → (reg s rArmTimeout).toNat ≠ 0 → allReady s c = false → (∀ d, inStep s d c) → s.coll.active = [] →
    (∀ d, ((die s d).arr.ready.get c).isSome = true → opRuns s d c = false) →
    ∃ t, exec (.gangTimeout c) s = .next t ∧ t.clk = max s.clk (t0 + (reg s rArmTimeout).toNat * 1000) ∧
      (rsReg t rArmErr).ev.getLsbD 1 = true ∧ t.gang.get c = none ∧
      ∀ d, (str t d c).poison = true ∧ (die t d).arr.ready.get c = none ∧ (rsReg t (cdWin d.val + rStrErr)).ev.getLsbD 9 = true) ∧
  (∀ ts : List (Die × Half), ts ≠ [] → (∃ x ∈ ts, x.2 = refTag ts) ∧
    ∀ x ∈ ts, (ts.filter fun y => decide (y.2 = x.2)).length < (ts.filter fun y => decide (y.2 = refTag ts)).length ∨
      ((ts.filter fun y => decide (y.2 = x.2)).length = (ts.filter fun y => decide (y.2 = refTag ts)).length ∧
        (refTag ts).toNat ≤ x.2.toNat)) ∧
  (∀ s, gangWhole s = false → exec .gangGrant s = .next s))

/-- R100 to R107. At its boundary an operation whose visits have all run leaves the array; a parity error found there marks the tiles its items contribute to,
and faults the stream. The drain takes the oldest finished tile whose share has a free slot into the lowest one. When the drain ends, the tile stands in its
slot, 256 rows of 256 words with +0 beyond its rows and columns, and its entry is READY with the stream's next SEQ.
R123 to R125. A chain adds its products exactly, so their order does not matter. A NaN product, or infinities of both signs, make it NaN;
infinities of one sign make that infinity; finite products make their exact sum, and a sum of -0 products alone is -0.
Rests on the model's own choices and readings of log entries 24 and 77. -/
def Obligations.FinishedTiles : Prop :=
  ((∀ s d o, (die s d).arr.op = some o → o.ends ≤ o.next → o.poison = false → o.reset = false →
    ∃ t, exec (.arrayBoundary d []) s = .next t ∧ (die t d).arr = { (die s d).arr with op := none, hold := false } ∧
      (∀ c, str t d c = str s d c) ∧ (∀ e, e ≠ d → die t e = die s e) ∧ changesOnly [.dies] s t) ∧
  (∀ s d o e js, (die s d).arr.op = some o → o.ends ≤ o.next → js ≠ [] → findInflight (str s d o.c) .array o.id = some e →
    e.onPath = false → inStep s d o.c → s.coll.active = [] →
    ∃ t, exec (.arrayBoundary d js) s = .next t ∧ (die t d).arr.op = none ∧ (str t d o.c).poison = true ∧
      (rsReg t (cdWin d.val + rArrErr)).ev.getLsbD 3 = true ∧ (rsReg t (cdWin d.val + rStrErr)).ev.getLsbD 9 = true ∧
      ∀ q ∈ (die t d).arr.queue, js.any (isTileOf o q.tile) = true → q.tile.flags / 64 % 2 = 1) ∧
  (∀ s d x k, (die s d).arr.draining = false → (die s d).arr.acc.find? (fun t => (freeSlot s d t).isSome) = some x →
    freeSlot s d x = some k →
    ∃ t, exec (.tileDrainStart d) s = .next t ∧
      (die t d).arr = { (die s d).arr with draining := true, queue := (die s d).arr.queue ++ [⟨.filling, 0, k, x, false⟩] } ∧
      (∀ i, i < tileSlots x → (shareOf s d x.c).1 ≤ k + i ∧ k + i < (shareOf s d x.c).1 + (shareOf s d x.c).2 ∧
        slotUsed (die s d).arr.queue (k + i) = false) ∧ (∀ e, e ≠ d → die t e = die s e) ∧ changesOnly [.dies] s t) ∧
  (∀ s d q, (die s d).arr.queue.find? (fun q => decide (q.st = .filling)) = some q → q.drop = false → (die s d).arr.op = none →
    q.tile.last = false → tileSlots q.tile = 1 → q.tile.fp64 = false → findInflight (str s d q.tile.c) .array q.tile.id = none → soundStore s d →
    ∃ t, exec (.tilePush d) s = .next t ∧
      (∀ r c, r < 256 → c < 256 → ∀ i, i < 4 → some (tsByte t d ((tqRegion s d).1 + q.slot * 262144 + 4 * (256 * r + c) + i)) =
        (leBytes 4 (if r < q.tile.rows ∧ c < q.tile.cols then (q.tile.hi.getD (r * q.tile.cols + c) 0).toNat else 0))[i]?) ∧
      (die t d).arr.draining = false ∧
      (die t d).arr.queue = (die s d).arr.queue.map (fun r => if r = q then { r with st := .ready, seq := SMap.get 0 (die s d).arr.pushed (sidNat q.tile.c) } else r) ∧
      SMap.get 0 (die t d).arr.pushed (sidNat q.tile.c) = (SMap.get 0 (die s d).arr.pushed (sidNat q.tile.c) + 1) % 2 ^ 32 ∧
      (∀ c, str t d c = str s d c) ∧ (∀ e, e ≠ d → die t e = die s e) ∧ changesOnly [.dies, .regs] s t)) ∧
  ((∀ ps qs : List Machine.Num, ps.Perm qs → (ps.foldl Chain.add {}).value = (qs.foldl Chain.add {}).value) ∧
  (∀ ps : List Machine.Num, .nan ∈ ps ∨ (.inf true ∈ ps ∧ .inf false ∈ ps) → (ps.foldl Chain.add {}).value = .nan) ∧
  (∀ (ps : List Machine.Num) b, .inf b ∈ ps → .inf (!b) ∉ ps → .nan ∉ ps → (ps.foldl Chain.add {}).value = .inf b) ∧
  (∀ (ps : List (Bool × Nat × Int)), (∀ p ∈ ps, -298 ≤ p.2.2) → ps ≠ [] →
    ((ps.map fun p => Machine.Num.fin p.1 p.2.1 p.2.2).foldl Chain.add {}).value =
      ofInt ((ps.map fun p => (if p.1 then -(p.2.1 : Int) else (p.2.1 : Int)) * 2 ^ (p.2.2 + 298).toNat).sum) (-298)
        (ps.all fun p => p.1 && decide (p.2.1 = 0))))

/-- R146, R150, R151. The lane-wise arithmetic and logic instructions: each active lane of vd takes the operation of the same lane of va, vb
and vc or of IMM; an inactive lane below VL keeps its value or, with ZERO, becomes +0; lanes from VL on and other registers stay. VCPOP, VIOTA,
VRSUM, VRSUMP, VRSSQP, VRMAX, VRMIN and VRMAXI complete likewise: one instruction issued, and only vector registers of the context change; what
they write is stated under Reductions. -/
def Obligations.LaneArithmetic : Prop :=
  (∀ p ∈ ([(.vadd, fadd), (.vsub, fsub), (.vmul, fmul), (.vmax, fmax), (.vmin, fmin), (.vdiv, fdiv), (.viadd, (· + ·)), (.visub, (· - ·)),
      (.vimul, (· * ·)), (.vand, (· &&& ·)), (.vor, (· ||| ·)), (.vxor, (· ^^^ ·)), (.vshl, fun a b => a <<< (b.toNat % 32)),
      (.vshr, fun a b => a >>> (b.toNat % 32)), (.vsra, fun a b => a.sshiftRight (b.toNat % 32))] :
      List ((VIns → Instr) × (Word → Word → Word))),
    ∀ v s, vecReady s v (p.1 v) → regsBad s v [(v.rd, 1), (v.ra, 1), (v.rb, 1)] = false →
    ∃ t, exec (p.1 v) s = .next t ∧
      laneOp v s t (fun i => p.2 ((vctx s v.die v.ctx).lane v.ra i) ((vctx s v.die v.ctx).lane v.rb i)) ∧ changesOnly [.dies, .regs] s t) ∧
  (∀ p ∈ ([(.vaddi, fadd), (.vsubi, fsub), (.vmuli, fmul), (.vmaxi, fmax), (.vmini, fmin), (.viaddi, (· + ·)), (.visubi, (· - ·)),
      (.vimuli, (· * ·)), (.vandi, (· &&& ·)), (.vori, (· ||| ·)), (.vxori, (· ^^^ ·)), (.vshli, fun a b => a <<< (b.toNat % 32)),
      (.vshri, fun a b => a >>> (b.toNat % 32)), (.vsrai, fun a b => a.sshiftRight (b.toNat % 32))] :
      List ((VIns → Instr) × (Word → Word → Word))),
    ∀ v s, vecReady s v (p.1 v) → regsBad s v [(v.rd, 1), (v.ra, 1)] = false →
    ∃ t, exec (p.1 v) s = .next t ∧ laneOp v s t (fun i => p.2 ((vctx s v.die v.ctx).lane v.ra i) v.imm) ∧ changesOnly [.dies, .regs] s t) ∧
  (∀ p ∈ ([(.vfma, fun a b c => enc32 (((dec32 a).mul (dec32 b)).add (dec32 c))),
      (.vfms, fun a b c => enc32 (((dec32 a).mul (dec32 b)).add (dec32 (fneg c)))),
      (.vfnma, fun a b c => enc32 (((dec32 (fneg a)).mul (dec32 b)).add (dec32 c)))] : List ((VIns → Instr) × (Word → Word → Word → Word))),
    ∀ v s, vecReady s v (p.1 v) → regsBad s v [(v.rd, 1), (v.ra, 1), (v.rb, 1), (v.rc, 1)] = false →
    ∃ t, exec (p.1 v) s = .next t ∧ laneOp v s t (fun i => p.2 ((vctx s v.die v.ctx).lane v.ra i) ((vctx s v.die v.ctx).lane v.rb i)
      ((vctx s v.die v.ctx).lane v.rc i)) ∧ changesOnly [.dies, .regs] s t) ∧
  (∀ p ∈ ([(.vfmai, fun a b c => enc32 (((dec32 a).mul (dec32 b)).add (dec32 c))),
      (.vfmsi, fun a b c => enc32 (((dec32 a).mul (dec32 b)).add (dec32 (fneg c)))),
      (.vfnmai, fun a b c => enc32 (((dec32 (fneg a)).mul (dec32 b)).add (dec32 c)))] : List ((VIns → Instr) × (Word → Word → Word → Word))),
    ∀ v s, vecReady s v (p.1 v) → regsBad s v [(v.rd, 1), (v.ra, 1), (v.rc, 1)] = false →
    ∃ t, exec (p.1 v) s = .next t ∧ laneOp v s t (fun i => p.2 ((vctx s v.die v.ctx).lane v.ra i) v.imm ((vctx s v.die v.ctx).lane v.rc i)) ∧
      changesOnly [.dies, .regs] s t) ∧
  (∀ p ∈ ([(.vabs, fun a => a &&& 0x7FFFFFFF), (.vneg, fun a => a ^^^ 0x80000000), (.vmov, id), (.vsqrt, fun a => enc32 (dec32 a).sqrt),
      (.vcvtif, fun a => enc32 (ofInt a.toInt 0 false)), (.vexp2, fexp2), (.vlog2, flog2), (.vrcp, frcp), (.vrsqrt, frsqrt), (.vtanh, ftanh)] :
      List ((VIns → Instr) × (Word → Word))),
    ∀ v s, vecReady s v (p.1 v) → regsBad s v [(v.rd, 1), (v.ra, 1)] = false →
    ∃ t, exec (p.1 v) s = .next t ∧ laneOp v s t (fun i => p.2 ((vctx s v.die v.ctx).lane v.ra i)) ∧ changesOnly [.dies, .regs] s t) ∧
  (∀ v s, regsBad s v [(v.rd, 1)] = false →
    (vecReady s v (.vmovi v) → ∃ t, exec (.vmovi v) s = .next t ∧ laneOp v s t (fun _ => v.imm) ∧ changesOnly [.dies, .regs] s t) ∧
    (vecReady s v (.vidx v) → ∃ t, exec (.vidx v) s = .next t ∧ laneOp v s t (fun i => BitVec.ofNat 32 i) ∧ changesOnly [.dies, .regs] s t)) ∧
  (∀ v s, regsBad s v [(v.rd, 1), (v.ra, 1)] = false →
    (vecReady s v (.vbcast v) → ∃ t, exec (.vbcast v) s = .next t ∧ laneOp v s t (fun _ => (vctx s v.die v.ctx).lane v.ra 0) ∧ changesOnly [.dies, .regs] s t) ∧
    (vecReady s v (.vslide v) → ∃ t, exec (.vslide v) s = .next t ∧ laneOp v s t (fun i =>
        if 0 ≤ (i : Int) - v.imm.toInt ∧ (i : Int) - v.imm.toInt < (vctx s v.die v.ctx).vl
        then (vctx s v.die v.ctx).lane v.ra ((i : Int) - v.imm.toInt).toNat else 0) ∧ changesOnly [.dies, .regs] s t) ∧
    (vecReady s v (.vrank v) → ∃ t, exec (.vrank v) s = .next t ∧ laneOp v s t (fun i => BitVec.ofNat 32 ((List.range i).filter fun j =>
        decide (j < (vctx s v.die v.ctx).vl) && (vctx s v.die v.ctx).maskBit v.mask j &&
        decide ((vctx s v.die v.ctx).lane v.ra j = (vctx s v.die v.ctx).lane v.ra i)).length) ∧ changesOnly [.dies, .regs] s t) ∧
    (vecReady s v (.vunsc v) → ∃ t, exec (.vunsc v) s = .next t ∧ laneOp v s t (fun i =>
        scaleBy (-(match attempt s (str s v.die v.ctx).attempt with | some a => a.lossExp | none => s.step.lossE))
          ((vctx s v.die v.ctx).lane v.ra i)) ∧ changesOnly [.dies, .regs] s t)) ∧
  (∀ v s, vecReady s v (.vcpop v) → regsBad s v [(v.rd, 1)] = false →
    ∃ t, exec (.vcpop v) s = .next t ∧ vecCounted v s t ∧ vecStepped v s t ∧ changesOnly [.dies, .regs] s t) ∧
  (∀ v s, vecReady s v (.viota v) → regsBad s v [(v.rd, 1)] = false →
    ∃ t, exec (.viota v) s = .next t ∧ vecCounted v s t ∧ vecStepped v s t ∧ changesOnly [.dies, .regs] s t) ∧
  (∀ v s, vecReady s v (.vrsum v) → regsBad s v [(v.rd, 1), (v.ra, 1)] = false →
    ∃ t, exec (.vrsum v) s = .next t ∧ vecCounted v s t ∧ vecStepped v s t ∧ changesOnly [.dies, .regs] s t) ∧
  (∀ v s, vecReady s v (.vrsump v) → regsBad s v [(v.rd, 1), (v.ra, 1)] = false →
    ∃ t, exec (.vrsump v) s = .next t ∧ vecCounted v s t ∧ vecStepped v s t ∧ changesOnly [.dies, .regs] s t) ∧
  (∀ v s, vecReady s v (.vrssqp v) → regsBad s v [(v.rd, 1), (v.ra, 1)] = false →
    ∃ t, exec (.vrssqp v) s = .next t ∧ vecCounted v s t ∧ vecStepped v s t ∧ changesOnly [.dies, .regs] s t) ∧
  (∀ v s, vecReady s v (.vrmax v) → regsBad s v [(v.rd, 1), (v.ra, 1)] = false →
    ∃ t, exec (.vrmax v) s = .next t ∧ vecCounted v s t ∧ vecStepped v s t ∧ changesOnly [.dies, .regs] s t) ∧
  (∀ v s, vecReady s v (.vrmin v) → regsBad s v [(v.rd, 1), (v.ra, 1)] = false →
    ∃ t, exec (.vrmin v) s = .next t ∧ vecCounted v s t ∧ vecStepped v s t ∧ changesOnly [.dies, .regs] s t) ∧
  (∀ v s, vecReady s v (.vrmaxi v) → regsBad s v [(v.rd, 1), (v.ra, 1)] = false →
    ∃ t, exec (.vrmaxi v) s = .next t ∧ vecCounted v s t ∧ vecStepped v s t ∧ changesOnly [.dies, .regs] s t)

/-- R150, R152 to R155. Compares and mask operations write the active bits of MD alone; the conversions round to the format and count each
saturated and each NaN element; the pair and FP64 instructions work on even register pairs.
Rests on the model's own choices and readings of log entries 26 and 27. -/
def Obligations.MasksConversionsAndPairs : Prop :=
  (∀ p ∈ ([(.vcmpeq, feq), (.vcmplt, flt), (.vcmple, fle), (.vcmpun, fun a b => isNan a || isNan b), (.vicmpeq, fun a b => decide (a = b)),
      (.vicmplt, fun a b => decide (a.toInt < b.toInt))] : List ((VIns → Instr) × (Word → Word → Bool))),
    ∀ v s, vecReady s v (p.1 v) → v.md ≠ 0 → fld v.w 51 50 = 0 → regsBad s v [(v.ra, 1), (v.rb, 1)] = false →
    ∃ t, exec (p.1 v) s = .next t ∧ maskOp v s t (fun i => p.2 ((vctx s v.die v.ctx).lane v.ra i) ((vctx s v.die v.ctx).lane v.rb i)) ∧
      changesOnly [.dies, .regs] s t) ∧
  (∀ p ∈ ([(.vcmpeqi, feq), (.vcmplti, flt), (.vcmplei, fle), (.vicmpeqi, fun a b => decide (a = b)),
      (.vicmplti, fun a b => decide (a.toInt < b.toInt))] : List ((VIns → Instr) × (Word → Word → Bool))),
    ∀ v s, vecReady s v (p.1 v) → v.md ≠ 0 → fld v.w 51 50 = 0 → regsBad s v [(v.ra, 1)] = false →
    ∃ t, exec (p.1 v) s = .next t ∧ maskOp v s t (fun i => p.2 ((vctx s v.die v.ctx).lane v.ra i) v.imm) ∧ changesOnly [.dies, .regs] s t) ∧
  (∀ p ∈ ([(.mand, fun a b => a && b), (.mor, fun a b => a || b), (.mxor, fun a b => a != b), (.mandn, fun a b => a && !b)] :
      List ((VIns → Instr) × (Bool → Bool → Bool))),
    ∀ v s, vecReady s v (p.1 v) → v.md ≠ 0 → fld v.w 51 50 = 0 →
    ∃ t, exec (p.1 v) s = .next t ∧ maskOp v s t (fun i => p.2 ((vctx s v.die v.ctx).maskBit v.ma i) ((vctx s v.die v.ctx).maskBit v.mb i)) ∧
      changesOnly [.dies, .regs] s t) ∧
  (∀ v s, vecReady s v (.vrndf v) → v.fmt ≤ 7 → regsBad s v [(v.rd, 1), (v.ra, 1)] = false →
    ∃ t, exec (.vrndf v) s = .next t ∧ laneOp v s t (fun i => (rndF v.fmt v.sat ((vctx s v.die v.ctx).lane v.ra i)).1) ∧
      reg64 t (cdWin v.die.val + rConvSat) = reg64 s (cdWin v.die.val + rConvSat) + w64 (((vctx s v.die v.ctx).active v).filter fun i =>
        decide ((rndF v.fmt v.sat ((vctx s v.die v.ctx).lane v.ra i)).2 = .sat)).length ∧ changesOnly [.dies, .regs] s t) ∧
  (∀ v s, vecReady s v (.vcvtfi v) → regsBad s v [(v.rd, 1), (v.ra, 1)] = false →
    ∃ t, exec (.vcvtfi v) s = .next t ∧ laneOp v s t (fun i => match dec32 ((vctx s v.die v.ctx).lane v.ra i) with
        | .nan => 0
        | .inf n => if n then 0x80000000 else 0x7FFFFFFF
        | .fin n m e => BitVec.ofInt 32 (max (-(2 ^ 31)) (min (2 ^ 31 - 1) (roundInt n m e)))) ∧ changesOnly [.dies, .regs] s t) ∧
  (∀ v s, vecReady s v (.vcvtdf v) → v.fmt = 0 → regsBad s v [(v.rd, 1), (v.ra, 2)] = false → v.rd % 2 = 0 → v.ra % 2 = 0 →
    ∃ t, exec (.vcvtdf v) s = .next t ∧ laneOp v s t (fun i => BitVec.ofNat 32 (fFP32.encode v.sat (dec64 ((vctx s v.die v.ctx).lane64 v.ra i))).1) ∧
      changesOnly [.dies, .regs] s t) ∧
  (∀ v s, vecReady s v (.vcvtfd v) → regsBad s v [(v.rd, 2), (v.ra, 1)] = false → v.rd % 2 = 0 → v.ra % 2 = 0 →
    ∃ t, exec (.vcvtfd v) s = .next t ∧ pairOp v s t (fun i => ((enc64 (dec32 ((vctx s v.die v.ctx).lane v.ra i))).setWidth 32,
      (enc64 (dec32 ((vctx s v.die v.ctx).lane v.ra i)) >>> 32).setWidth 32)) ∧ changesOnly [.dies, .regs] s t) ∧
  (∀ p ∈ ([(.vdadd, dadd), (.vdmul, dmul)] : List ((VIns → Instr) × (DWord → DWord → DWord))),
    ∀ v s, vecReady s v (p.1 v) → regsBad s v [(v.rd, 2), (v.ra, 2), (v.rb, 2)] = false → v.rd % 2 = 0 → v.ra % 2 = 0 → v.rb % 2 = 0 →
    ∃ t, exec (p.1 v) s = .next t ∧ pairOp v s t (fun i =>
      ((p.2 ((vctx s v.die v.ctx).lane64 v.ra i) ((vctx s v.die v.ctx).lane64 v.rb i)).setWidth 32,
       (p.2 ((vctx s v.die v.ctx).lane64 v.ra i) ((vctx s v.die v.ctx).lane64 v.rb i) >>> 32).setWidth 32)) ∧ changesOnly [.dies, .regs] s t) ∧
  (∀ v s, vecReady s v (.vdfma v) → regsBad s v [(v.rd, 2), (v.ra, 2), (v.rb, 2), (v.rc, 2)] = false → v.rd % 2 = 0 → v.ra % 2 = 0 → v.rb % 2 = 0 →
    v.rc % 2 = 0 →
    ∃ t, exec (.vdfma v) s = .next t ∧ pairOp v s t (fun i =>
      ((dfma ((vctx s v.die v.ctx).lane64 v.ra i) ((vctx s v.die v.ctx).lane64 v.rb i) ((vctx s v.die v.ctx).lane64 v.rc i)).setWidth 32,
       (dfma ((vctx s v.die v.ctx).lane64 v.ra i) ((vctx s v.die v.ctx).lane64 v.rb i) ((vctx s v.die v.ctx).lane64 v.rc i) >>> 32).setWidth 32)) ∧
      changesOnly [.dies, .regs] s t) ∧
  (∀ v s, vecReady s v (.vpadd v) → regsBad s v [(v.rd, 2), (v.ra, 2), (v.rb, 2)] = false → v.rd % 2 = 0 → v.ra % 2 = 0 → v.rb % 2 = 0 →
    ∃ t, exec (.vpadd v) s = .next t ∧ pairOp v s t (fun i => pairAdd ((vctx s v.die v.ctx).lane v.ra i) ((vctx s v.die v.ctx).lane (v.ra + 1) i)
      ((vctx s v.die v.ctx).lane v.rb i) ((vctx s v.die v.ctx).lane (v.rb + 1) i)) ∧ changesOnly [.dies, .regs] s t) ∧
  (∀ v s, vecReady s v (.vpnorm v) → regsBad s v [(v.rd, 2), (v.ra, 2)] = false → v.rd % 2 = 0 → v.ra % 2 = 0 →
    ∃ t, exec (.vpnorm v) s = .next t ∧ pairOp v s t (fun i => pairNorm ((vctx s v.die v.ctx).lane v.ra i)
      ((vctx s v.die v.ctx).lane (v.ra + 1) i)) ∧ changesOnly [.dies, .regs] s t)

/-- R150, R156. The reductions write element 0 of vd, and VRSUMP, VRSSQP and VRMAXI element 1 too; VCPOP writes element 0 and VIOTA every
lane below VL. No other element of vd and no other register changes. A sum without special lanes is the fixed tree of the active lanes; one
with a NaN lane, or infinities of both signs, is the canonical NaN. VRMAX starts from minus infinity and VRMIN from plus infinity.
Rests on the model's own choices and readings of log entry 27. -/
def Obligations.Reductions : Prop :=
  (∀ v s, regsBad s v [(v.rd, 1), (v.ra, 1)] = false →
    (vecReady s v (.vrsum v) → ∃ t, exec (.vrsum v) s = .next t ∧ vecCounted v s t ∧ vecStepped v s t ∧ (vctx t v.die v.ctx).lane v.rd 0 = treeSum (vctx s v.die v.ctx) v ∧
      (∀ r i, i < 2048 → r ≠ v.rd ∨ i ≠ 0 → (vctx t v.die v.ctx).lane r i = (vctx s v.die v.ctx).lane r i) ∧ changesOnly [.dies, .regs] s t) ∧
    (vecReady s v (.vrsump v) → ∃ t, exec (.vrsump v) s = .next t ∧ vecCounted v s t ∧ vecStepped v s t ∧
      ((vctx t v.die v.ctx).lane v.rd 0, (vctx t v.die v.ctx).lane v.rd 1) = treePair (vctx s v.die v.ctx) v (fun w => (w, 0)) ∧
      (∀ r i, i < 2048 → r ≠ v.rd ∨ 1 < i → (vctx t v.die v.ctx).lane r i = (vctx s v.die v.ctx).lane r i) ∧ changesOnly [.dies, .regs] s t) ∧
    (vecReady s v (.vrssqp v) → ∃ t, exec (.vrssqp v) s = .next t ∧ vecCounted v s t ∧ vecStepped v s t ∧
      ((vctx t v.die v.ctx).lane v.rd 0, (vctx t v.die v.ctx).lane v.rd 1) =
        treePair (vctx s v.die v.ctx) v (fun w => pairOf ((dec32 w).mul (dec32 w))) ∧
      (∀ r i, i < 2048 → r ≠ v.rd ∨ 1 < i → (vctx t v.die v.ctx).lane r i = (vctx s v.die v.ctx).lane r i) ∧ changesOnly [.dies, .regs] s t) ∧
    (vecReady s v (.vrmax v) → ∃ t, exec (.vrmax v) s = .next t ∧ vecCounted v s t ∧ vecStepped v s t ∧
      (vctx t v.die v.ctx).lane v.rd 0 = (((vctx s v.die v.ctx).active v).map ((vctx s v.die v.ctx).lane v.ra)).foldl fmax 0xFF800000 ∧
      (∀ r i, i < 2048 → r ≠ v.rd ∨ i ≠ 0 → (vctx t v.die v.ctx).lane r i = (vctx s v.die v.ctx).lane r i) ∧ changesOnly [.dies, .regs] s t) ∧
    (vecReady s v (.vrmin v) → ∃ t, exec (.vrmin v) s = .next t ∧ vecCounted v s t ∧ vecStepped v s t ∧
      (vctx t v.die v.ctx).lane v.rd 0 = (((vctx s v.die v.ctx).active v).map ((vctx s v.die v.ctx).lane v.ra)).foldl fmin 0x7F800000 ∧
      (∀ r i, i < 2048 → r ≠ v.rd ∨ i ≠ 0 → (vctx t v.die v.ctx).lane r i = (vctx s v.die v.ctx).lane r i) ∧ changesOnly [.dies, .regs] s t) ∧
    (vecReady s v (.vrmaxi v) → ∃ t, exec (.vrmaxi v) s = .next t ∧ vecCounted v s t ∧ vecStepped v s t ∧
      (vctx t v.die v.ctx).lane v.rd 0 = (((vctx s v.die v.ctx).active v).map ((vctx s v.die v.ctx).lane v.ra)).foldl fmax 0xFF800000 ∧
      (∀ r i, i < 2048 → r ≠ v.rd ∨ 1 < i → (vctx t v.die v.ctx).lane r i = (vctx s v.die v.ctx).lane r i) ∧
      ((vctx s v.die v.ctx).active v = [] → (vctx t v.die v.ctx).lane v.rd 1 = 0xFFFFFFFF) ∧
      ((vctx s v.die v.ctx).active v ≠ [] → (vctx s v.die v.ctx).vl ≤ 2048 → ∃ i ∈ (vctx s v.die v.ctx).active v,
        (vctx t v.die v.ctx).lane v.rd 1 = BitVec.ofNat 32 i ∧
        (isNan ((vctx t v.die v.ctx).lane v.rd 0) = false → (vctx s v.die v.ctx).lane v.ra i = (vctx t v.die v.ctx).lane v.rd 0) ∧
        (isNan ((vctx t v.die v.ctx).lane v.rd 0) = true → isNan ((vctx s v.die v.ctx).lane v.ra i) = true)) ∧
      changesOnly [.dies, .regs] s t)) ∧
  (∀ v s, regsBad s v [(v.rd, 1)] = false →
    (vecReady s v (.vcpop v) → ∃ t, exec (.vcpop v) s = .next t ∧ vecCounted v s t ∧ vecStepped v s t ∧
      (vctx t v.die v.ctx).lane v.rd 0 = BitVec.ofNat 32 ((vctx s v.die v.ctx).active v).length ∧
      (∀ r i, i < 2048 → r ≠ v.rd ∨ i ≠ 0 → (vctx t v.die v.ctx).lane r i = (vctx s v.die v.ctx).lane r i) ∧ changesOnly [.dies, .regs] s t) ∧
    (vecReady s v (.viota v) → ∃ t, exec (.viota v) s = .next t ∧ vecCounted v s t ∧ vecStepped v s t ∧
      (∀ i, i < 2048 → (vctx t v.die v.ctx).lane v.rd i = if i < (vctx s v.die v.ctx).vl
        then BitVec.ofNat 32 (((vctx s v.die v.ctx).active v).filter fun j => decide (j < i)).length else (vctx s v.die v.ctx).lane v.rd i) ∧
      otherLanes v s t [v.rd] ∧ changesOnly [.dies, .regs] s t)) ∧
  (∀ x v, ((x.active v).map (x.lane v.ra)).any isNan = true ∨
      (0x7F800000 ∈ (x.active v).map (x.lane v.ra) ∧ 0xFF800000 ∈ (x.active v).map (x.lane v.ra)) → treeSum x v = nan32) ∧
  (∀ (f : Word → Word → Word) a b c d, treeRoot f 11 [some a, some b, some c, some d] = some (f (f a b) (f c d)) ∧
    treeRoot f 11 [some a, none, none, some d] = some (f a d) ∧ treeRoot f 11 [none, some b, none, none] = some b)

/-- R145, R150. The scalar instructions write sd alone, and s0 stays 0; SETVL sets VL to the smallest of sa, 2,048 and IMM (an IMM of 0 counts
as 2,048) and sd to the rest; loops push, repeat and pop a frame, and a count of 0 goes on behind the matching ENDLOOP. -/
def Obligations.ScalarInstructions : Prop :=
  (∀ p ∈ ([(.sli, fun _ v => v.imm.signExtend 64), (.slih, fun x v => v.imm ++ (x.sreg v.rd).setWidth 32),
      (.sadd, fun x v => x.sreg v.ra + x.sreg v.rb), (.saddi, fun x v => x.sreg v.ra + v.imm.signExtend 64),
      (.ssub, fun x v => x.sreg v.ra - x.sreg v.rb), (.smuli, fun x v => x.sreg v.ra * v.imm.signExtend 64),
      (.sshli, fun x v => x.sreg v.ra <<< (v.imm.toNat % 64)), (.sshri, fun x v => x.sreg v.ra >>> (v.imm.toNat % 64))] :
      List ((VIns → Instr) × (VCtx → VIns → DWord))),
    ∀ v s, vecReady s v (p.1 v) → v.rc = 0 →
    ∃ t, exec (p.1 v) s = .next t ∧ scalarOp v s t (p.2 (vctx s v.die v.ctx) v) ∧ changesOnly [.dies, .regs] s t) ∧
  (∀ v s, vecReady s v (.sparam v) → v.rc = 0 → v.imm.toNat ≤ 5 →
    ∃ t, exec (.sparam v) s = .next t ∧ scalarOp v s t ((vctx s v.die v.ctx).params.getD v.imm.toNat 0) ∧ changesOnly [.dies, .regs] s t) ∧
  (∀ v s n, vecReady s v (.setvl v) → v.rc = 0 → n = min ((vctx s v.die v.ctx).sreg v.ra).toNat (min 2048 (if v.imm = 0 then 2048 else v.imm.toNat)) →
    ∃ t, exec (.setvl v) s = .next t ∧ vecCounted v s t ∧ (vctx t v.die v.ctx).vl = n ∧ n ≤ 2048 ∧
      (∀ r, (vctx t v.die v.ctx).sreg r =
        if r = v.rd ∧ r ≠ 0 then (vctx s v.die v.ctx).sreg v.ra - w64 n else (vctx s v.die v.ctx).sreg r) ∧
      vctx t v.die v.ctx = { vctx s v.die v.ctx with pc := (vctx s v.die v.ctx).pc + 1, vl := n, sregs := (vctx t v.die v.ctx).sregs } ∧
      changesOnly [.dies, .regs] s t) ∧
  (∀ v s, vecReady s v (.nop v) → v.rc = 0 → ∃ t, exec (.nop v) s = .next t ∧ vecMoved v s t ∧ changesOnly [.dies, .regs] s t) ∧
  (∀ p ∈ ([(.loop, fun x v => (x.sreg v.ra).toNat), (.loopi, fun _ v => v.imm.toNat)] : List ((VIns → Instr) × (VCtx → VIns → Nat))),
    ∀ v s, vecReady s v (p.1 v) → v.rc = 0 → (vctx s v.die v.ctx).loops.length < 4 →
    (p.2 (vctx s v.die v.ctx) v ≠ 0 → ∃ t, exec (p.1 v) s = .next t ∧ vecCounted v s t ∧ vctx t v.die v.ctx =
      { vctx s v.die v.ctx with
          pc := (vctx s v.die v.ctx).pc + 1
          loops := ⟨(vctx s v.die v.ctx).pc + 1, p.2 (vctx s v.die v.ctx) v⟩ :: (vctx s v.die v.ctx).loops } ∧
      changesOnly [.dies, .regs] s t) ∧
    (p.2 (vctx s v.die v.ctx) v = 0 → (∀ k, (vctx s v.die v.ctx).pc < k → progOp s v.die k = 0x04 → k ≤ 32767 →
      (∀ j, (vctx s v.die v.ctx).pc < j → j < k → progOp s v.die j ∉ [0x02, 0x03, 0x04]) →
      ∃ t, exec (p.1 v) s = .next t ∧ vecCounted v s t ∧ vctx t v.die v.ctx = { vctx s v.die v.ctx with pc := k + 1 } ∧
        changesOnly [.dies, .regs] s t))) ∧
  (∀ v s f fs, vecReady s v (.endloop v) → v.rc = 0 → (vctx s v.die v.ctx).loops = f :: fs →
    ∃ t, exec (.endloop v) s = .next t ∧ vecCounted v s t ∧ vctx t v.die v.ctx =
      (if f.left ≤ 1 then { vctx s v.die v.ctx with pc := (vctx s v.die v.ctx).pc + 1, loops := fs }
       else { vctx s v.die v.ctx with pc := f.start, loops := { f with left := f.left - 1 } :: fs }) ∧ changesOnly [.dies, .regs] s t)

/-- R139, R162, R164 to R166, R186. A VECTOR descriptor starts its program in the stream's context: ENTRY, PARAM0 to PARAM5, VL 2,048, scalar
registers 0, no loop; END completes it with its DONE signal. TQPOP takes the oldest READY tile of the stream, with the tag expected, as HELD and
gives its slot, or waits; TQREL frees the oldest HELD one. VGUARD and a popped tile report non-finite values to the step guard.
Rests on the model's own choices and readings of log entries 25 and 26. -/
def Obligations.VectorPrograms : Prop :=
  (∀ s d c w, issuing s d c 2 w → c ≠ .u → (vctx s d c).running = false →
    ∃ t, exec (.vector d c) s = .next (issueNoted s d c w t) ∧ movedOn d c s t ∧
      (str t d c).inflight = (str s d c).inflight ++ [entryOf (str s d c) .vector w] ∧
      vctx t d c = ⟨true, dfld w 0xC 2, 2048, [], (vctx s d c).vregs, (vctx s d c).masks, [], dLayer w,
        [w64 (dfld w 0x10 8), w64 (dfld w 0x18 8), w64 (dfld w 0x20 8), w64 (dfld w 0x28 8), w64 (dfld w 0x30 8), w64 (dfld w 0x38 8)],
        false, (str s d c).nextId, false, false⟩ ∧
      otherStreams d c s t ∧ (∀ e k, e ≠ d ∨ k ≠ c → vctx t e k = vctx s e k) ∧ changesOnly [.dies, .regs] s t) ∧
  (∀ v s e, vecReady s v (.endProg v) → v.rc = 0 → (vctx s v.die v.ctx).loops = [] → (vctx s v.die v.ctx).loadUe = false →
    findInflight (str s v.die v.ctx) .vector (vctx s v.die v.ctx).id = some e → e.silent = false →
    ∃ u, exec (.endProg v) s = .next (signals u (doneSig v.die v.ctx (str s v.die v.ctx) e.desc)) ∧
      (vctx u v.die v.ctx).running = false ∧
      str u v.die v.ctx = { str s v.die v.ctx with inflight := (str s v.die v.ctx).inflight.filter fun x => decide (x.id ≠ e.id) } ∧
      otherStreams v.die v.ctx s u ∧ changesOnly [.dies, .regs] s u) ∧
  (∀ v s q, vecReady s v (.tqpop v) → v.rc = 0 → v.ctx ≠ .t → fld v.imm 17 16 ≠ 3 → oldest (die s v.die).arr v.ctx .ready = some q →
    q.tile.tag = v.imm.setWidth 16 → q.tile.nf = 0 →
    ∃ t, exec (.tqpop v) s = .next t ∧
      (die t v.die).arr.queue = (die s v.die).arr.queue.map (fun r => if r = q then { r with st := .held } else r) ∧
      (∀ r, (vctx t v.die v.ctx).sreg r =
        if r = v.rd ∧ r ≠ 0 then w64 ((tqRegion s v.die).1 + q.slot * 262144) else (vctx s v.die v.ctx).sreg r) ∧
      (vctx t v.die v.ctx).pc = (vctx s v.die v.ctx).pc + 1 ∧ (str t v.die v.ctx).tqWait = false ∧ changesOnly [.dies, .regs] s t) ∧
  (∀ v s, vecReady s v (.tqpop v) → v.rc = 0 → v.ctx ≠ .t → fld v.imm 17 16 ≠ 3 → oldest (die s v.die).arr v.ctx .ready = none →
    ∃ t, exec (.tqpop v) s = .next t ∧ vctx t v.die v.ctx = { vctx s v.die v.ctx with waitTq := true } ∧
      (str t v.die v.ctx).tqWait = true ∧ (die t v.die).arr = (die s v.die).arr ∧ changesOnly [.dies, .regs] s t) ∧
  (∀ v s q, vecReady s v (.tqrel v) → v.rc = 0 → v.ctx ≠ .t → oldest (die s v.die).arr v.ctx .held = some q →
    ∃ t, exec (.tqrel v) s = .next t ∧ (die t v.die).arr = { (die s v.die).arr with queue := (die s v.die).arr.queue.erase q } ∧
      vecMoved v s t ∧ changesOnly [.dies, .regs] s t) ∧
  (∀ v s a, vecReady s v (.vguard v) → fld v.imm 1 0 ≠ 3 → regsBad s v [(v.ra, 1)] = false → attempt s (str s v.die v.ctx).attempt = some a →
    ∃ t, exec (.vguard v) s = .next t ∧ vecMoved v s t ∧ (∃ b, attempt t (str s v.die v.ctx).attempt = some b ∧ b.verdict = a.verdict ∧
        b.causes = if (((vctx s v.die v.ctx).active v).all fun i => !nonFinite32 ((vctx s v.die v.ctx).lane v.ra i)) = true ∨
          a.verdict = some .clear then a.causes else a.causes ||| BitVec.ofNat 7 (2 ^ fld v.imm 1 0)) ∧
      changesOnly [.dies, .regs, .step] s t)

/-- R167, R168. A vector fault ends the program and is a descriptor fault of its stream, and CDnn_VEC_ERR names it: an illegal instruction before
an odd register pair, a reserved opcode, a program counter past the store before either (both fault at the next command for the context, DESIGN
CHOICE, log entry 25, as is that a command which is not the next instruction of the program does nothing), a lane selector beyond 2,047, a wrong tile tag and a release with nothing
held, and an error met by a load, which is raised at END.
Rests on the model's own choices and readings of log entries 25, 26 and 75. -/
def Obligations.VectorFaults : Prop :=
  (∀ v s, vecReady s v (.nop v) → v.rc ≠ 0 → inStep s v.die v.ctx → s.coll.active = [] →
    (∀ e, findInflight (str s v.die v.ctx) .vector (vctx s v.die v.ctx).id = some e → e.onPath = false) →
    ∃ t, exec (.nop v) s = .next t ∧ (vctx t v.die v.ctx).running = false ∧ (rsReg t (cdWin v.die.val + rVecErr)).ev.getLsbD 0 = true ∧
      (str t v.die v.ctx).poison = true ∧ (rsReg t (cdWin v.die.val + rStrErr)).ev.getLsbD 9 = true) ∧
  (∀ v s, vecReady s v (.vdadd v) → regsBad s v [(v.rd, 2), (v.ra, 2), (v.rb, 2)] = false → v.rd % 2 = 1 ∨ v.ra % 2 = 1 ∨ v.rb % 2 = 1 →
    inStep s v.die v.ctx → s.coll.active = [] →
    (∀ e, findInflight (str s v.die v.ctx) .vector (vctx s v.die v.ctx).id = some e → e.onPath = false) →
    ∃ t, exec (.vdadd v) s = .next t ∧ (vctx t v.die v.ctx).running = false ∧ (rsReg t (cdWin v.die.val + rVecErr)).ev.getLsbD 6 = true ∧
      (str t v.die v.ctx).poison = true ∧ (∀ e k, (vctx t e k).running = true → vctx t e k = vctx s e k)) ∧
  (∀ v s, vecReady s v (.vld v) → memIll s v fmtKnown false false = false → v.fmt = 0 → v.rd % 2 = 1 →
    inStep s v.die v.ctx → s.coll.active = [] →
    (∀ e, findInflight (str s v.die v.ctx) .vector (vctx s v.die v.ctx).id = some e → e.onPath = false) →
    ∃ t, exec (.vld v) s = .next t ∧ (vctx t v.die v.ctx).running = false ∧ (rsReg t (cdWin v.die.val + rVecErr)).ev.getLsbD 6 = true ∧
      (str t v.die v.ctx).poison = true) ∧
  (∀ v s i, (vctx s v.die v.ctx).running = true → (die s v.die).coreReset = false → (vctx s v.die v.ctx).waitTq = false →
    (vctx s v.die v.ctx).pc ≤ 32767 → (fld (SMap.get 0 (die s v.die).prog (vctx s v.die v.ctx).pc) 63 56 ∈ reservedOps) →
    i ∈ [Instr.vadd v, .nop v, .vld v] → inStep s v.die v.ctx → s.coll.active = [] →
    (∀ e, findInflight (str s v.die v.ctx) .vector (vctx s v.die v.ctx).id = some e → e.onPath = false) →
    ∃ t, exec i s = .next t ∧ (vctx t v.die v.ctx).running = false ∧ (rsReg t (cdWin v.die.val + rVecErr)).ev.getLsbD 0 = true ∧
      (str t v.die v.ctx).poison = true) ∧
  (∀ v s i, (i ∈ [Instr.vadd v, .nop v, .vld v, .tqrel v]) →
    SMap.get 0 (die s v.die).prog (vctx s v.die v.ctx).pc ≠ BitVec.ofNat 8 (vecOpcode i) ++ v.w →
    (vctx s v.die v.ctx).pc ≤ 32767 → (fld (SMap.get 0 (die s v.die).prog (vctx s v.die v.ctx).pc) 63 56 ∉ reservedOps) →
    exec i s = .next s) ∧
  (∀ v s, (vctx s v.die v.ctx).running = true → (die s v.die).coreReset = false → (vctx s v.die v.ctx).waitTq = false →
    32767 < (vctx s v.die v.ctx).pc → (vctx s v.die v.ctx).loops = [] → inStep s v.die v.ctx → s.coll.active = [] →
    (∀ e, findInflight (str s v.die v.ctx) .vector (vctx s v.die v.ctx).id = some e → e.onPath = false) →
    ∃ t, exec (.vadd v) s = .next t ∧ (vctx t v.die v.ctx).running = false ∧ (rsReg t (cdWin v.die.val + rVecErr)).ev.getLsbD 8 = true ∧
      (str t v.die v.ctx).poison = true) ∧
  (∀ v s, vecReady s v (.vldri v) → memIll s v (fun f => decide (f = 1)) false true = false → 2048 ≤ ((vctx s v.die v.ctx).sreg v.rc).toNat →
    inStep s v.die v.ctx → s.coll.active = [] →
    (∀ e, findInflight (str s v.die v.ctx) .vector (vctx s v.die v.ctx).id = some e → e.onPath = false) →
    ∃ t, exec (.vldri v) s = .next t ∧ (vctx t v.die v.ctx).running = false ∧ (rsReg t (cdWin v.die.val + rVecErr)).ev.getLsbD 2 = true ∧
      (str t v.die v.ctx).poison = true) ∧
  (∀ v s q, vecReady s v (.tqpop v) → v.rc = 0 → v.ctx ≠ .t → fld v.imm 17 16 ≠ 3 → oldest (die s v.die).arr v.ctx .ready = some q →
    q.tile.tag ≠ v.imm.setWidth 16 → inStep s v.die v.ctx → s.coll.active = [] →
    (∀ e, findInflight (str s v.die v.ctx) .vector (vctx s v.die v.ctx).id = some e → e.onPath = false) →
    ∃ t, exec (.tqpop v) s = .next t ∧ (vctx t v.die v.ctx).running = false ∧ (rsReg t (cdWin v.die.val + rArrErr)).ev.getLsbD 4 = true ∧
      (str t v.die v.ctx).poison = true) ∧
  (∀ v s, vecReady s v (.endProg v) → v.rc = 0 → (vctx s v.die v.ctx).loops = [] → (vctx s v.die v.ctx).loadUe = true → inStep s v.die v.ctx →
    s.coll.active = [] → (∀ e, findInflight (str s v.die v.ctx) .vector (vctx s v.die v.ctx).id = some e → e.onPath = false) →
    ∃ t, exec (.endProg v) s = .next t ∧ (vctx t v.die v.ctx).running = false ∧ (str t v.die v.ctx).poison = true ∧
      (rsReg t (cdWin v.die.val + rStrErr)).ev.getLsbD 9 = true)

/-- R152, R158 to R160. A load whose active lanes reach permitted, error-free places puts each lane's element into vd (and vd + 1 for FP64); a
row-indexed load does so for all lanes when the selected lane is active, and nothing otherwise. Memory stays.
Rests on the model's own choices and readings of log entries 25 and 26. -/
def Obligations.VectorLoads : Prop :=
  (∀ p ∈ ([(.vld, fmtKnown, false, addrUnit), (.vlds, plainFmt, false, addrStride), (.vldx, plainFmt, true, addrIndex)] :
      List ((VIns → Instr) × (Nat → Bool) × Bool × (VCtx → VIns → Nat → DWord))),
    ∀ v s, vecReady s v (p.1 v) → memIll s v p.2.1 false p.2.2.1 = false → (v.fmt = 0 → v.rd % 2 = 0) → mxBad (vctx s v.die v.ctx) v = false → (vctx s v.die v.ctx).vl ≤ 2048 →
    (∀ i ∈ (vctx s v.die v.ctx).active v, laneFault s v false (p.2.2.2 (vctx s v.die v.ctx) v i) = none ∧
      quietPlace s (lanePlace v (p.2.2.2 (vctx s v.die v.ctx) v i)) (colSpan v.fmt) ∧
      (isMx v.fmt = true → placeOk s (scalePlace s v i) 1 = true ∧ quietPlace s (scalePlace s v i) 1)) →
    ∃ t, exec (p.1 v) s = .next t ∧ vecCounted v s t ∧ vecStepped v s t ∧
      laneResult v s t v.rd (fun i => (loaded s v (p.2.2.2 (vctx s v.die v.ctx) v i) i).getD 0 0) ∧
      (v.fmt = 0 → laneResult v s t (v.rd + 1) (fun i => (loaded s v (p.2.2.2 (vctx s v.die v.ctx) v i) i).getD 1 0)) ∧
      otherLanes v s t (if v.fmt = 0 then [v.rd, v.rd + 1] else [v.rd]) ∧ changesOnly [.dies, .regs] s t) ∧
  (∀ v s j, vecReady s v (.vldri v) → memIll s v (fun f => decide (f = 1)) false true = false → j = ((vctx s v.die v.ctx).sreg v.rc).toNat → j < 2048 →
    (vctx s v.die v.ctx).vl ≤ 2048 → (vctx s v.die v.ctx).maskBit v.mask j = true →
    (∀ i, i < (vctx s v.die v.ctx).vl → laneFault s v false (addrRow (vctx s v.die v.ctx) v j i) = none ∧
      quietPlace s (lanePlace v (addrRow (vctx s v.die v.ctx) v j i)) 4) →
    ∃ t, exec (.vldri v) s = .next t ∧ vecCounted v s t ∧ vecStepped v s t ∧
      (∀ i, i < 2048 → (vctx t v.die v.ctx).lane v.rd i = if i < (vctx s v.die v.ctx).vl
        then BitVec.ofNat 32 (leNat (peekPlace s (lanePlace v (addrRow (vctx s v.die v.ctx) v j i)) 4)) else (vctx s v.die v.ctx).lane v.rd i) ∧
      otherLanes v s t [v.rd] ∧ changesOnly [.dies, .regs] s t) ∧
  (∀ v s, vecReady s v (.vldri v) → memIll s v (fun f => decide (f = 1)) false true = false → ((vctx s v.die v.ctx).sreg v.rc).toNat < 2048 →
    (vctx s v.die v.ctx).maskBit v.mask ((vctx s v.die v.ctx).sreg v.rc).toNat = false →
    ∃ t, exec (.vldri v) s = .next t ∧ vecMoved v s t ∧ changesOnly [.dies, .regs] s t)

/-- R153, R158 to R161. A store into the tile store writes each active lane's element at its address, FP32 and FP64 as they are and narrower formats
rounded, and no other byte; VSTXA and VADDRI add each lane to the FP32 value there.
Rests on the model's own choices and readings of log entries 25, 28 and 29. -/
def Obligations.VectorStores : Prop :=
  (∀ p ∈ ([(.vst, fmtKnown, false, addrUnit), (.vsts, plainFmt, false, addrStride), (.vstx, plainFmt, true, addrIndex)] :
      List ((VIns → Instr) × (Nat → Bool) × Bool × (VCtx → VIns → Nat → DWord))),
    ∀ v s, vecReady s v (p.1 v) → memIll s v p.2.1 true p.2.2.1 = false → (v.fmt = 0 → v.rd % 2 = 0) → v.fmt ≤ 6 → v.sr = false →
    separateLanes s v ((vctx s v.die v.ctx).active v) (p.2.2.2 (vctx s v.die v.ctx) v) (colSpan v.fmt) →
    ∃ t, exec (p.1 v) s = .next t ∧
      lanesStored s t v ((vctx s v.die v.ctx).active v) (p.2.2.2 (vctx s v.die v.ctx) v) (colSpan v.fmt)
        (fun i => leBytes (colSpan v.fmt) (storedCode s v i)) ∧
      vecMoved v s t ∧ changesOnly [.dies, .regs] s t) ∧
  (∀ v s, vecReady s v (.vst v) → memIll s v fmtKnown true false = false → v.sr = true → v.space = 1 → mxBad (vctx s v.die v.ctx) v = false →
    s.mem.ue = [] → s.mem.ce = [] → s.mem.parity = 0 →
    (∀ i ∈ (vctx s v.die v.ctx).active v, laneFault s v true (addrUnit (vctx s v.die v.ctx) v i) = none) →
    ∃ t, exec (.vst v) s = .next t ∧ (vctx t v.die v.ctx).pc = (vctx s v.die v.ctx).pc + 1 ∧ (vctx t v.die v.ctx).vregs = (vctx s v.die v.ctx).vregs) ∧
  (∀ v s, vecReady s v (.vst v) → memIll s v fmtKnown true false = false → 7 ≤ v.fmt → v.sr = false → mxBad (vctx s v.die v.ctx) v = false → v.space = 0 →
    soundStore s v.die → (∀ i ∈ (vctx s v.die v.ctx).active v, laneFault s v true (addrUnit (vctx s v.die v.ctx) v i) = none ∧
      (isMx v.fmt = true → placeOk s (scalePlace s v i) 1 = true ∧ isProtected s (scalePlace s v i) 1 = false)) →
    ∃ t, exec (.vst v) s = .next t ∧ vecMoved v s t ∧
      (∀ o, (∀ i ∈ (vctx s v.die v.ctx).active v, (isMx v.fmt = true → scalePlace s v i ≠ .ts v.die o) ∧
        ∀ k, k < colSpan v.fmt → o ≠ (addrUnit (vctx s v.die v.ctx) v i).toNat + k) → tsByte t v.die o = tsByte s v.die o) ∧
      changesOnly [.dies, .regs] s t) ∧
  (∀ v s, vecReady s v (.vstxa v) → memIll s v (fun f => decide (f = 1)) false true = false →
    separateLanes s v ((vctx s v.die v.ctx).active v) (addrIndex (vctx s v.die v.ctx) v) 4 →
    ∃ t, exec (.vstxa v) s = .next t ∧
      lanesStored s t v ((vctx s v.die v.ctx).active v) (addrIndex (vctx s v.die v.ctx) v) 4 (fun i => leBytes 4
        (fadd (BitVec.ofNat 32 (leNat ((List.range 4).map fun k => tsByte s v.die ((addrIndex (vctx s v.die v.ctx) v i).toNat + k))))
          ((vctx s v.die v.ctx).lane v.rd i)).toNat) ∧
      vecMoved v s t ∧ changesOnly [.dies, .regs] s t) ∧
  (∀ v s j, memIll s v (fun f => decide (f = 1)) false true = false → j = ((vctx s v.die v.ctx).sreg v.rc).toNat → j < 2048 →
    (vctx s v.die v.ctx).maskBit v.mask j = true →
    separateLanes s v (List.range (vctx s v.die v.ctx).vl) (addrRow (vctx s v.die v.ctx) v j) 4 →
    (vecReady s v (.vstri v) → ∃ t, exec (.vstri v) s = .next t ∧
      lanesStored s t v (List.range (vctx s v.die v.ctx).vl) (addrRow (vctx s v.die v.ctx) v j) 4
        (fun i => leBytes 4 ((vctx s v.die v.ctx).lane v.rd i).toNat) ∧ vecMoved v s t ∧ changesOnly [.dies, .regs] s t) ∧
    (vecReady s v (.vaddri v) → ∃ t, exec (.vaddri v) s = .next t ∧
      lanesStored s t v (List.range (vctx s v.die v.ctx).vl) (addrRow (vctx s v.die v.ctx) v j) 4 (fun i => leBytes 4
        (fadd (BitVec.ofNat 32 (leNat ((List.range 4).map fun k => tsByte s v.die ((addrRow (vctx s v.die v.ctx) v j i).toNat + k))))
          ((vctx s v.die v.ctx).lane v.rd i)).toNat) ∧ vecMoved v s t ∧ changesOnly [.dies, .regs] s t)) ∧
  (∀ v s, memIll s v (fun f => decide (f = 1)) false true = false → ((vctx s v.die v.ctx).sreg v.rc).toNat < 2048 →
    (vctx s v.die v.ctx).maskBit v.mask ((vctx s v.die v.ctx).sreg v.rc).toNat = false →
    (vecReady s v (.vstri v) → ∃ t, exec (.vstri v) s = .next t ∧ vecMoved v s t ∧ changesOnly [.dies, .regs] s t) ∧
    (vecReady s v (.vaddri v) → ∃ t, exec (.vaddri v) s = .next t ∧ vecMoved v s t ∧ changesOnly [.dies, .regs] s t))

/-- R191, R296, R352, R353. A COLLECTIVE descriptor of each OP whose schedule, rounds and ranks exist issues and stays in progress in the engine,
with its rounds and its timer, and grants a round that has sources; four in progress make the stream wait; a schedule or round that does not
exist is DESC_FIELD, and a rank outside the job NO_RANK and DESC_REF.
R353. A grant for the module's own attempt, or the one after, is kept for the round it names; one of any other attempt is stale: it is
counted and dropped.
Rests on the model's own choices and readings of log entries 36, 37 and 78. -/
def Obligations.CollectiveIssue : Prop :=
  ((∀ p ∈ ([(.reduceScatter, 0), (.allGather, 1), (.allReduce, 2), (.allToAll, 3), (.guardOr, 4)] : List ((Die → Sid → Instr) × Nat)),
    ∀ s d w rs u, issuing s d .t 6 w → cOp w = p.2 → roundsOf s w = some rs → ranksOk s rs = true →
    inUnit (str s d .t) .collective < 4 → prepare s (str s d .t) w rs = (.go, u) → s.coll.active = [] → s.coll.grants = [] →
    ∃ t, exec (p.1 d .t) s = .next t ∧ movedOn d .t u t ∧
      (str t d .t).inflight = (str u d .t).inflight ++ [entryOf (str u d .t) .collective w] ∧
      (∃ k, t.coll.active = [k] ∧ k.d = d ∧ k.i = (str u d .t).nextId ∧ k.desc = w ∧ k.att = (str u d .t).attempt ∧
        k.timed = decide (cTimeout w ≠ 0) ∧ k.rounds.map (·.r) = rs.map (·.r) ∧ (∀ r ∈ k.rounds, r.sent = !sends r.r) ∧
        (∀ r, rs = [r] → srcsOf r.r ≠ [] → ∀ x ∈ k.rounds, x.grantOut = true)) ∧ otherStreams d .t u t) ∧
  (∀ p ∈ ([(.reduceScatter, 0), (.allGather, 1), (.allReduce, 2), (.allToAll, 3), (.guardOr, 4)] : List ((Die → Sid → Instr) × Nat)),
    ∀ s d w rs, issuing s d .t 6 w → cOp w = p.2 → roundsOf s w = some rs → ranksOk s rs = true → 4 ≤ inUnit (str s d .t) .collective →
    ∃ t, exec (p.1 d .t) s = .next t ∧ str t d .t = { str s d .t with st := .waitUnit, fabricWait := false } ∧ otherStreams d .t s t ∧
      changesOnly [.dies] s t) ∧
  (∀ p ∈ ([(.reduceScatter, 0), (.allGather, 1), (.allReduce, 2), (.allToAll, 3), (.guardOr, 4)] : List ((Die → Sid → Instr) × Nat)),
    ∀ s d w, issuing s d .t 6 w → cOp w = p.2 → inStep s d .t → s.coll.active = [] →
    (roundsOf s w = none → ∃ t, exec (p.1 d .t) s = .next t ∧ (str t d .t).poison = true ∧
      (rsReg t (cdWin d.val + rStrErr)).ev.getLsbD 1 = true) ∧
    (∀ rs, roundsOf s w = some rs → ranksOk s rs = false → ∃ t, exec (p.1 d .t) s = .next t ∧ (str t d .t).poison = true ∧
      (rsReg t (cdWin d.val + rStrErr)).ev.getLsbD 2 = true ∧ (rsReg t rFabErr).ev.getLsbD 1 = true))) ∧
  ((∀ s p ch, accepted s ptCollGrant p ch → tagDist s p.txn = 0 ∨ tagDist s p.txn = 1 → s.coll.active = [] →
    ∃ t, exec (.collGrant p ch) s = .next t ∧
      t.coll.grants = s.coll.grants ++ [(fld p.addr 59 48, fld p.addr 47 40, p.srcMod, p.txn)] ∧ t.coll.active = [] ∧
      changesOnly [.regs, .fab, .out, .coll] s t) ∧
  (∀ s p ch, accepted s ptCollGrant p ch → tagDist s p.txn ≠ 0 → tagDist s p.txn ≠ 1 →
    ∃ t, exec (.collGrant p ch) s = .next t ∧ reg t rCollStale = reg s rCollStale + 1 ∧ (rsReg t rCollErr).ev.getLsbD 3 = true ∧
      t.coll = s.coll ∧ changesOnly [.regs, .rs, .host, .fab, .out] s t) ∧
  (∀ s p ch, accepted s ptCollGrant p ch → s.coll.active = [] → (∃ a ∈ s.step.attempts, a.recorded = false ∧ a.att.setWidth 16 = p.txn) →
    ∃ t, exec (.collGrant p ch) s = .next t ∧ (fld p.addr 59 48, fld p.addr 47 40, p.srcMod, p.txn) ∈ t.coll.grants))

/-- R50, R52, R191, R212, R360, R363. A collective whose rounds are complete leaves the engine, is counted and makes its DONE signal; a guard
reduction without causes clears the attempt and one with a cause poisons it. A timer that expires ends a collective with COLL_TIMEOUT: its
completion object takes the error, and the step is poisoned, or its verdict is indeterminate when it was the guard reduction.
R59. An agreement on a stash whose result is not zero switches its layer and every later one to checkpoint mode; by which schedule, and in
which bytes, is the model's choice (entry 23).
R326, R329. The arrivals of a run are combined in the order of the round's sources, whatever the order in which they come, on top of the local
operand. SUM adds in FP32, MAX takes the larger, and without a REDOP the last arrival is the value.
Rests on the model's own choices and readings of log entries 23, 32, 37, 78 and 80. -/
def Obligations.CollectiveEnds : Prop :=
  ((∀ s d i k e, s.coll.active = [k] → k.d = d → k.i = i → k.rounds.all (·.fin) = true → cGuard k.desc = false → isNorm s k.desc = false →
    isStash s k.desc = false → s.upd.p2 = none → s.upd.pend = [] → s.img.st ≠ .shadow → findInflight (str s d .t) .collective i = some e → e.silent = false →
    ∃ u, exec (.collectiveDone d i) s = .next (signals u (doneSig d .t (str s d .t) e.desc)) ∧ u.coll.active = [] ∧
      reg64 u rCollDone = reg64 s rCollDone + 1 ∧
      str u d .t = { str s d .t with inflight := (str s d .t).inflight.filter fun x => decide (x.id ≠ i) } ∧
      otherStreams d .t s u ∧ changesOnly [.dies, .regs, .rs, .host, .out, .coll] s u) ∧
  (∀ s d i k a, s.coll.active = [k] → k.d = d → k.i = i → k.rounds.all (·.fin) = true → cGuard k.desc = true →
    attempt s k.att = some a → a.verdict = none → findInflight (str s d .t) .collective i = none → s.upd.p2 = none → s.img.st ≠ .shadow →
    ∃ t, exec (.collectiveDone d i) s = .next t ∧ t.coll.active = [] ∧
      (leAt k.record 0 4 % 128 = 0 → verdictOf t k.att = some .clear) ∧ (leAt k.record 0 4 % 128 ≠ 0 → verdictOf t k.att = some .poison)) ∧
  (∀ s d i k a, s.coll.active = [k] → k.d = d → k.i = i → k.timed = true → k.rounds.all (·.fin) = false → s.img.st ≠ .shadow →
    cGuard k.desc = false → attempt s k.att = some a →
    a.verdict = none → (getObj s (refObj d (dDoneRef k.desc))).err = false → (getObj s (refObj d (dDoneRef k.desc))).waiters = [] →
    ∃ t, exec (.collTimeout d i) s = .next t ∧ t.coll.active = [] ∧ (rsReg t rCollErr).ev.getLsbD 0 = true ∧
      (getObj t (refObj d (dDoneRef k.desc))).err = true ∧ (getObj t (refObj d (dDoneRef k.desc))).cause = 3 ∧
      verdictOf t k.att = some .poison ∧ t.clk = max s.clk (k.since + (if k.slow then k.left4 else (k.left4 + 3) / 4))) ∧
  (∀ s d i k, findColl s d i = some k → k.timed = false ∨ k.rounds.all (·.fin) = true → exec (.collTimeout d i) s = .next s) ∧
  (∀ s d i k a, s.coll.active = [k] → k.d = d → k.i = i → k.timed = true → k.rounds.all (·.fin) = false → s.img.st ≠ .shadow →
    cGuard k.desc = true → attempt s k.att = some a →
    a.verdict = none → (getObj s (refObj d (dDoneRef k.desc))).err = false → (getObj s (refObj d (dDoneRef k.desc))).waiters = [] →
    ∃ t, exec (.collTimeout d i) s = .next t ∧ t.coll.active = [] ∧ verdictOf t k.att = some .indeterminate ∧
      (rsReg t rStepStat).ev.getLsbD 8 = true ∧ t.step.pollAt = some (t.clk + 10000000)) ∧
  (∀ s d i k sec, s.coll.active = [k] → k.d = d → k.i = i → k.rounds.all (·.fin) = true → cGuard k.desc = false → isNorm s k.desc = false →
    isStash s k.desc = true → s.img.sec = some sec → (attempt s k.att).isSome = true → findInflight (str s d .t) .collective i = none →
    stashSettled s k.att (dLayer k.desc).toNat = false → s.upd.p2 = none → s.img.st ≠ .shadow →
    cleanRange s.mem (cDst k.desc) 4 → unpoisoned s.mem (cDst k.desc) 4 →
    ∃ t, exec (.collectiveDone d i) s = .next t ∧ t.coll.active = [] ∧
      (peekNat s (cDst k.desc) 4 % 2 ^ 31 = 0 → t.step = s.step) ∧
      (peekNat s (cDst k.desc) 4 % 2 ^ 31 ≠ 0 → (rsReg t rStepStat).ev.getLsbD 2 = true ∧
        ∀ a, attempt t k.att = some a → a.stashFallback = true ∧
          ∀ l ∈ sec.stash, (dLayer k.desc).toNat ≤ l.layer → l.layer ∈ a.recompute)) ∧
  (∀ s d i n k r x m, findColl s d i = some k → k.rounds.find? (fun r => decide (r.idx = n)) = some r → r.grantOut = false → r.fin = false →
    srcsOf r.r = [x] → rankMod s x.toNat = some m → landFree s k r = true →
    ∃ u, exec (.grantSend d i n) s = .next (sendPkt u { blankPkt s ptCollGrant m 24 r.r.ep with
        addr := collAddr (needOf r.r) n (cSched k.desc), txn := k.att.setWidth 16 }) ∧
      (∃ k', findColl u d i = some k' ∧ ∃ r', k'.rounds.find? (fun r => decide (r.idx = n)) = some r' ∧ r'.grantOut = true ∧
        r'.got = r.got ∧ r'.sent = r.sent) ∧ changesOnly [.coll] s u)) ∧
  ((∀ redop res start (v0 : Option (List Word)) (ws : List (List Word)) early, early.Perm (ws.zipIdx.map fun x => (x.2, redop, x.1)) →
    takeEarly res ws.length ⟨start, 0, v0, early⟩ =
      ⟨start, ws.length, ws.foldl (fun o w => some (combineAll redop res o w)) v0, []⟩) ∧
  (∀ res start v0 (ws : List (List Word)) (early : List (Nat × Nat × List Word)) i, 0 < i → (∀ e ∈ early, i ≤ e.1) → early ≠ [] →
    takeEarly res ws.length ⟨start, 0, v0, early⟩ = ⟨start, 0, v0, early⟩) ∧
  (∀ res (a b : List Word), a.length = b.length → combineAll 1 res (some a) b = List.zipWith fadd a b ∧
    combineAll 2 res (some a) b = List.zipWith fmax a b ∧ combineAll 0 res (some a) b = b))

/-- R295, R298, R301, R303 to R305, R482. A WRITE or READ that comes in its flow's turn and passes admission is performed and answered on its
flow: a WRITE stores its bytes in module memory, a tile store or the MSD mailbox, or goes to the host window's address; a READ returns the bytes,
MEM_ERROR for a poisoned range, or asks the host for them, and holds its flow till then. One that fails admission is counted, recorded and answered PROTECTION, and stores nothing.
Rests on the model's own choices and readings of log entries 38 and 80. -/
def Obligations.FabricRequests : Prop :=
  (∀ s p ch, accepted s ptWrite p ch → inTurn s p → admitSource s p .write = none → p.dstEp = 24 →
    admitRange s p p.addr.toNat p.payload.length .write = true → cleanRange s.mem p.addr.toNat p.payload.length →
    distinctBytes s.mem p.addr.toNat p.payload.length →
    ∃ u, exec (.writePacket p ch) s = .next (poolFreed p ch (sendPkt u (replyPkt s p 0 []))) ∧ noted p ch s u ∧ replied p 0 [] s u ∧
      storedAt p.addr.toNat p.payload s.mem u.mem ∧ changesOnly [.regs, .fab, .out, .mem] s u) ∧
  (∀ s p ch d, accepted s ptWrite p ch → inTurn s p → admitSource s p .write = none → p.dstEp.toNat = d.val → soundStore s d →
    admitRange s p p.addr.toNat p.payload.length .write = true →
    ∃ u, exec (.writePacket p ch) s = .next (poolFreed p ch (sendPkt u (replyPkt s p 0 []))) ∧ noted p ch s u ∧ replied p 0 [] s u ∧
      tileStored d p.addr.toNat p.payload s u ∧ changesOnly [.regs, .fab, .out, .dies] s u) ∧
  (∀ s p ch h, accepted s ptWrite p ch → inTurn s p → admitSource s p .write = none → p.dstEp = 26 → s.host.busMaster = true →
    hostWin s p.addr.toNat p.payload.length true = some h →
    ∃ u, exec (.writePacket p ch) s = .next (poolFreed p ch (sendPkt u (replyPkt s p 0 []))) ∧ noted p ch s u ∧ replied p 0 [] s u ∧
      .hostWrite h p.payload ∈ u.out ∧ changesOnly [.regs, .fab, .out] s u) ∧
  (∀ s p ch, accepted s ptWrite p ch → inTurn s p → admitSource s p .write = none → p.dstEp = 24 →
    admitRange s p p.addr.toNat p.payload.length .write = true → inEmergency s p.addr.toNat p.payload.length = true →
    ∃ u, exec (.writePacket p ch) s = .next (poolFreed p ch (sendPkt u (replyPkt s p 4 []))) ∧ noted p ch s u ∧ replied p 4 [] s u ∧
      changesOnly [.regs, .fab, .out] s u) ∧
  (∀ s p ch, accepted s ptRead p ch → inTurn s p → admitSource s p .read = none → p.dstEp = 24 →
    admitRange s p p.addr.toNat (reqBytes p) .read = true → cleanRange s.mem p.addr.toNat (reqBytes p) →
    unpoisoned s.mem p.addr.toNat (reqBytes p) →
    ∃ u data, exec (.readPacket p ch) s = .next (poolFreed p ch (sendPkt u (replyPkt s p 0 data))) ∧ noted p ch s u ∧ replied p 0 data s u ∧
      data = (List.range (reqBytes p)).map (fun i => byteAt s.mem (p.addr.toNat + i)) ∧ changesOnly [.regs, .fab, .out] s u) ∧
  (∀ s p ch, accepted s ptRead p ch → inTurn s p → admitSource s p .read = none → p.dstEp = 24 →
    admitRange s p p.addr.toNat (reqBytes p) .read = true → cleanRange s.mem p.addr.toNat (reqBytes p) →
    ¬ unpoisoned s.mem p.addr.toNat (reqBytes p) →
    ∃ u, exec (.readPacket p ch) s = .next (poolFreed p ch (sendPkt u (replyPkt s p 4 []))) ∧ noted p ch s u ∧ replied p 4 [] s u ∧
      changesOnly [.regs, .fab, .out] s u) ∧
  (∀ s p ch d, accepted s ptRead p ch → inTurn s p → admitSource s p .read = none → p.dstEp.toNat = d.val → soundStore s d →
    admitRange s p p.addr.toNat (reqBytes p) .read = true →
    ∃ u data, exec (.readPacket p ch) s = .next (poolFreed p ch (sendPkt u (replyPkt s p 0 data))) ∧ noted p ch s u ∧ replied p 0 data s u ∧
      data = (List.range (reqBytes p)).map (fun i => tsByte s d (p.addr.toNat + i)) ∧ changesOnly [.regs, .fab, .out] s u) ∧
  (∀ s p ch h, accepted s ptRead p ch → inTurn s p → admitSource s p .read = none → p.dstEp = 26 → s.host.busMaster = true →
    hostWin s p.addr.toNat (reqBytes p) false = some h →
    ∃ t, exec (.readPacket p ch) s = .next t ∧ t.host.reads = s.host.reads ++ [⟨s.host.nextTag, p, ch, s.clk + 50000000⟩] ∧
      t.host.nextTag = s.host.nextTag + 1 ∧ (s.host.reads.length < 256 → .hostRead s.host.nextTag h (reqBytes p) ∈ t.out) ∧ noted p ch s t ∧
      (∀ g ∈ t.fab.dst, g.serves p = true → g.point = p.fseq ∧ g.busy = true) ∧ changesOnly [.regs, .fab, .out, .host] s t) ∧
  (∀ s p ch n, accepted s ptWrite p ch → inTurn s p → p.dstEp = 25 → p.jobId = 0 → admitSource s p .write = none →
    p.payload.length = 4 * n → p.addr.toNat + p.payload.length ≤ 4096 →
    ∃ u, exec (.writePacket p ch) s = .next (poolFreed p ch (sendPkt u (replyPkt s p 0 []))) ∧ replied p 0 [] s u ∧
      (∀ i, i < n → reg u (rSecMbox + p.addr.toNat + 4 * i) = BitVec.ofNat 32 (leAt p.payload (4 * i) 4)) ∧
      changesOnly [.regs, .fab, .out] s u) ∧
  (∀ s p ch, accepted s ptRead p ch → inTurn s p → p.dstEp = 25 → p.jobId = 0 → admitSource s p .read = none →
    p.addr.toNat + reqBytes p ≤ 4096 →
    ∃ u data, exec (.readPacket p ch) s = .next (poolFreed p ch (sendPkt u (replyPkt s p 0 data))) ∧ replied p 0 data s u ∧
      data = ((List.range (reqBytes p / 4)).flatMap fun i => leBytes 4 (reg s (rSecMbox + p.addr.toNat + 4 * i)).toNat) ∧
      changesOnly [.regs, .fab, .out] s u) ∧
  (∀ s p ch why, accepted s ptWrite p ch → inTurn s p → admitSource s p .write = some why → p.dstEp ≠ 25 →
    ∃ u, exec (.writePacket p ch) s = .next (poolFreed p ch (sendPkt u (replyPkt s p 3 []))) ∧ replied p 3 [] s u ∧ reg u rProtErr = reg s rProtErr + 1 ∧
      (rsReg u rFabErr).ev.getLsbD 2 = true ∧ (why = .job → (rsReg u rFabErr).ev.getLsbD 3 = true) ∧
      changesOnly [.regs, .rs, .host, .fab, .out] s u) ∧
  (∀ s p ch, accepted s ptRead p ch → inTurn s p → admitSource s p .read = none → p.dstEp.toNat < 25 →
    admitRange s p p.addr.toNat (reqBytes p) .read = false →
    ∃ u, exec (.readPacket p ch) s = .next (poolFreed p ch (sendPkt u (replyPkt s p 3 []))) ∧ replied p 3 [] s u ∧ reg u rProtErr = reg s rProtErr + 1 ∧
      (rsReg u rFabErr).ev.getLsbD 2 = true ∧ changesOnly [.regs, .rs, .host, .fab, .out] s u)

/-- R209, R225, R303 to R305, R309, R326, R353. A SIGNAL in its turn adds to the object it names and is answered OK, and one to an object reserved
for the module's own units is counted and REFUSED. COLL_DATA of the round in hand joins its arrivals; the packet that completes a round of one
source lands it and the round is final. A duplicate request is answered as it was, and a packet that comes early, or while its flow waits for the host, is held for
its turn. COLL_DATA that admission refuses, as one that would land in the active image, is counted and discarded.
Rests on the model's own choices and readings of log entries 17, 38 and 80. -/
def Obligations.FabricFlows : Prop :=
  (∀ s p ch (i : Fin 32768), accepted s ptSignal p ch → inTurn s p → admitSource s p .any = none → p.dstEp = 24 →
    fld p.addr 15 0 = 32768 + i.val → 16 ≤ i.val → (getObj s (.glob i)).err = false → (getObj s (.glob i)).waiters = [] →
    (getObj s (.glob i)).count + fld p.addr 62 32 ≤ 2147483647 →
    ∃ u, exec (.signalPacket p ch) s = .next (poolFreed p ch (sendPkt u (replyPkt s p 0 []))) ∧ replied p 0 [] s u ∧
      getObj u (.glob i) = { getObj s (.glob i) with count := (getObj s (.glob i)).count + fld p.addr 62 32 } ∧
      (∀ j, j ≠ i → getObj u (.glob j) = getObj s (.glob j)) ∧ reg64 u rSyncSignals = reg64 s rSyncSignals + 1 ∧
      changesOnly [.regs, .fab, .out, .sync] s u) ∧
  (∀ s p ch d (i : Fin 4096), accepted s ptSignal p ch → inTurn s p → admitSource s p .any = none → p.dstEp.toNat = d.val →
    fld p.addr 15 0 = i.val → (die s d).out = false → (getObj s (.loc d i)).err = false → (getObj s (.loc d i)).waiters = [] →
    bitAt p.addr 63 = true → fld p.addr 31 16 = (getObj s (.loc d i)).gen.toNat →
    (getObj s (.loc d i)).count + fld p.addr 62 32 ≤ 2147483647 →
    ∃ u, exec (.signalPacket p ch) s = .next (poolFreed p ch (sendPkt u (replyPkt s p 0 []))) ∧ replied p 0 [] s u ∧
      getObj u (.loc d i) = { getObj s (.loc d i) with count := (getObj s (.loc d i)).count + fld p.addr 62 32 } ∧
      (∀ e j, e ≠ d ∨ j ≠ i → getObj u (.loc e j) = getObj s (.loc e j)) ∧ changesOnly [.regs, .fab, .out, .dies] s u) ∧
  (∀ s p ch, accepted s ptSignal p ch → inTurn s p → admitSource s p .any = none → p.dstEp = 24 → 32768 ≤ fld p.addr 15 0 →
    fld p.addr 15 0 < 32784 →
    ∃ u, exec (.signalPacket p ch) s = .next (poolFreed p ch (sendPkt u (replyPkt s p 2 []))) ∧ replied p 2 [] s u ∧
      reg u rSyncRefused = reg s rSyncRefused + 1 ∧ (rsReg u rSyncErrStat).ev.getLsbD 7 = true ∧ (rsReg u rSyncErrStat).ev.getLsbD 4 = true ∧
      (rsReg u rSecEvt).ev.getLsbD 2 = true ∧ changesOnly [.regs, .rs, .host, .fab, .out, .sec] s u) ∧
  (∀ s p ch ty, ty = ptWrite ∨ ty = ptRead ∨ ty = ptSignal → accepted s ty p ch →
    ∀ f r, s.fab.dst.filter (fun g => g.serves p) = [f] → s.clk < f.last + s.fab.timers.flowIdle * 1000 →
    serialD 16 p.fseq.toNat f.point.toNat = 0 ∨ 32768 ≤ serialD 16 p.fseq.toNat f.point.toNat →
    f.replies.find? (fun r => decide (r.1 = p.fseq)) = some r →
    ∃ u, exec (if ty = ptWrite then .writePacket p ch else if ty = ptRead then .readPacket p ch else .signalPacket p ch) s =
        .next (poolFreed p ch (sendPkt u (replyPkt s p r.2.1 r.2.2))) ∧ noted p ch s u ∧ changesOnly [.regs, .fab, .out] s u) ∧
  (∀ s p ch f, accepted s ptWrite p ch → s.fab.dst.filter (fun g => g.serves p) = [f] →
    s.clk < f.last + s.fab.timers.flowIdle * 1000 →
    1 < serialD 16 p.fseq.toNat f.point.toNat ∨ (f.busy = true ∧ serialD 16 p.fseq.toNat f.point.toNat = 1) →
    serialD 16 p.fseq.toNat f.point.toNat < 32768 → f.held = [] → heldCount s < 65536 →
    ∃ t, exec (.writePacket p ch) s = .next t ∧ noted p ch s t ∧
      (∀ g ∈ t.fab.dst, g.serves p = true → g = { f with held := [(p, ch)], last := s.clk }) ∧ changesOnly [.regs, .fab, .out] s t) ∧
  (∀ s p ch k r x, accepted s ptCollData p ch → inTurn s p → denyColl s p = none → tagDist s p.txn = 0 → s.coll.active = [k] →
    k.rounds = [r] → cGuard k.desc = false → k.timed = false → cSched k.desc = fld p.addr 59 48 → k.att.setWidth 16 = p.txn →
    r.idx = fld p.addr 47 40 → fld p.addr 39 0 = 0 → r.fin = false → r.r.dep = none → r.sent = true → roundOuts s k r.idx = 0 →
    srcsOf r.r = [x] → rankMod s x.toNat = some p.srcMod → r.got = [0] → r.acc = [] → p.fmt.toNat / 16 = 0 →
    p.fmt.toNat % 16 = r.r.wire → isMx r.r.wire = false → 0 < fmtBits r.r.wire → isMx r.r.result = false → needOf r.r ≤ p.payload.length →
    cleanRange s.mem (cDst k.desc + elemOff r.r.result r.r.landOff) (packedBytes r.r.result r.r.landLen) →
    distinctBytes s.mem (cDst k.desc + elemOff r.r.result r.r.landOff) (packedBytes r.r.result r.r.landLen) →
    ∃ t k' r', exec (.collData p ch) s = .next t ∧ t.coll.active = [k'] ∧ k'.rounds = [r'] ∧ r'.fin = true ∧ k'.desc = k.desc ∧
      storedAt (cDst k.desc + elemOff r.r.result r.r.landOff)
        (packElems r.r.result ((decWire r.r.wire r.r.landLen p.payload).map fun w => (fmtEncode r.r.result false (dec32 w)).1))
        s.mem t.mem ∧
      (∀ g ∈ t.fab.dst, g.serves p = true → g.point = p.fseq ∧ g.ackDue = true) ∧ changesOnly [.regs, .fab, .out, .mem, .coll] s t) ∧
  (∀ s p ch, accepted s ptCollData p ch → inTurn s p → denyColl s p = none → tagDist s p.txn ≠ 0 →
    ∃ t, exec (.collData p ch) s = .next t ∧ reg t rCollStale = reg s rCollStale + 1 ∧ (rsReg t rCollErr).ev.getLsbD 3 = true ∧
      t.coll = s.coll ∧ (∀ g ∈ t.fab.dst, g.serves p = true → g.point = p.fseq ∧ g.ackDue = true) ∧
      changesOnly [.regs, .rs, .host, .fab, .out] s t) ∧
  (∀ s p ch, accepted s ptCollData p ch → denyColl s p ≠ none →
    ∃ t, exec (.collData p ch) s = .next t ∧ reg t rProtErr = reg s rProtErr + 1 ∧ (rsReg t rFabErr).ev.getLsbD 2 = true ∧
      t.fab.dst = s.fab.dst ∧ changesOnly [.regs, .rs, .host, .fab, .out] s t) ∧
  (∀ s p k r i a n, dataRound s p = some (k, r, i) → landSpan k r p = some (a, n) → inImage s a n = true → denyColl s p ≠ none)

/-- R225, R301, R304, R305, R307 to R309, R315, R316, R482. The answer of a request ends it for the unit that waits: READ_DATA decides a verdict
that was indeterminate, STATUS completes a remote SIGNAL, counts a stale one and faults a refused one, and BUSY is met with a retransmission.
E2E_ACK ends the collective packets it covers, and its timer sends one. A timer that runs out retransmits, and after the limit gives up with an
event. An idle flow is freed. Data or a timeout of a host read answers its requester. A packet that has
waited 2 µs for credit moves to relief, one that waits for room alone does not, and one that waited for replay-store room goes when a link takes it.
Rests on the model's own choices and readings of log entries 38, 39 and 80. -/
def Obligations.FabricAnswers : Prop :=
  (∀ s p ch o att, accepted s ptReadData p ch → awaiting s o (.verdict att) p → s.coll.active = [] → o.pkt.type = ptRead → p.payload.length = 64 →
    verdictOf s att = some .indeterminate → leAt p.payload (32 * (att.toNat % 2)) 8 = att.toNat →
    leAt p.payload (32 * (att.toNat % 2) + 16) 1 = 2 →
    ∃ t, exec (.readData p ch) s = .next t ∧ t.fab.outs = [] ∧ verdictOf t att = some .poison ∧ t.step.pollAt = none ∧
      t.step.resolveAt = none ∧ (rsReg t rImgEvt).ev.getLsbD 4 = true) ∧
  (∀ s p ch, accepted s ptReadData p ch → txnOf s p = none →
    ∃ t, exec (.readData p ch) s = .next t ∧ noted p ch s t ∧ t.fab.dst = s.fab.dst ∧ changesOnly [.regs, .fab, .out] s t) ∧
  (∀ s p ch o d c i ref e, accepted s ptStatus p ch → awaiting s o (.signal d c i ref) p → fld p.addr 7 0 = 0 →
    findInflight (str s d c) .signal i = some e → e.silent = false → s.coll.active = [] →
    ∃ u, exec (.status p ch) s = .next (poolFreed p ch (signals u (doneSig d c (str s d c) e.desc))) ∧ u.fab.outs = [] ∧
      str u d c = { str s d c with inflight := (str s d c).inflight.filter fun x => decide (x.id ≠ e.id) } ∧ otherStreams d c s u ∧
      changesOnly [.regs, .fab, .out, .dies] s u) ∧
  (∀ s p ch o d c i ref e, accepted s ptStatus p ch → awaiting s o (.signal d c i ref) p → fld p.addr 7 0 = 1 →
    findInflight (str s d c) .signal i = some e → e.silent = false → s.coll.active = [] →
    ∃ u, exec (.status p ch) s = .next (poolFreed p ch (signals u (doneSig d c (str s d c) e.desc))) ∧ u.fab.outs = [] ∧
      reg u (cdWin d.val + rCdSyncStale) = reg s (cdWin d.val + rCdSyncStale) + 1 ∧ otherStreams d c s u ∧
      changesOnly [.regs, .fab, .out, .dies] s u) ∧
  (∀ s p ch o d c i ref e, accepted s ptStatus p ch → awaiting s o (.signal d c i ref) p → fld p.addr 7 0 = 2 → s.coll.active = [] →
    findInflight (str s d c) .signal i = some e → e.silent = false → inStep s d c → e.onPath = false →
    ∃ t, exec (.status p ch) s = .next t ∧ t.fab.outs = [] ∧ (rsReg t (cdWin d.val + rCdSyncErr)).ev.getLsbD 2 = true ∧
      (rsReg t (cdWin d.val + rStrErr)).ev.getLsbD 2 = true ∧ (str t d c).poison = true ∧ (str t d c).faulted = true) ∧
  (∀ s p ch o u, accepted s ptStatus p ch → awaiting s o u p → fld p.addr 7 0 = 5 → o.tries < s.fab.timers.e2eRetryMax → noPayload u →
    ∃ v, exec (.status p ch) s = .next (poolFreed p ch (sendPkt v { o.pkt with retx := true, epoch := s.fab.cur, payload := [] })) ∧
      (∃ n, v.fab.outs = [{ o with tries := o.tries + 1, deadline := n, pkt := { o.pkt with retx := true, epoch := s.fab.cur } }]) ∧
      reg64 v rE2eRetx = reg64 s rE2eRetx + 1 ∧ changesOnly [.regs, .fab, .out] s v) ∧
  (∀ s p ch, accepted s ptE2eAck p ch → s.coll.active = [] →
    ∃ t, exec (.e2eAck p ch) s = .next t ∧ noted p ch s { t with fab := { t.fab with outs := s.fab.outs } } ∧
      t.fab.outs = s.fab.outs.filter (fun o => !(decide (16384 ≤ o.oid) && !bitAt p.addr 18 &&
        decide (o.pkt.srcEp = p.dstEp ∧ o.pkt.dstMod = p.srcMod ∧ o.pkt.dstEp = p.srcEp) && decide (o.pkt.cls.toNat = fld p.addr 17 16) &&
        serialAtOrBefore 16 o.pkt.fseq.toNat (fld p.addr 15 0))) ∧ changesOnly [.regs, .fab, .out] s t) ∧
  (∀ s k f n, s.fab.dst[k]? = some f → f.ackDue = true → f.ackAt = some n →
    ∃ u, exec (.e2eAckTimer k) s = .next (sendPkt u { blankPkt s ptE2eAck f.srcMod f.srcEp f.dstEp with
        addr := w64 (f.point.toNat + f.vc / 2 * 65536) }) ∧
      u.fab = { s.fab with dst := s.fab.dst.set k { f with ackDue := false, ackAt := none } } ∧ u.clk = max s.clk n ∧
      changesOnly [.fab] (advanceTo n s) u) ∧
  (∀ s o, s.fab.outs.find? (fun x => decide (x.oid = o.oid) && x.answer.isNone) = some o → o.tries < s.fab.timers.e2eRetryMax →
    noPayload o.user →
    ∃ u, exec (.rtoExpire o.oid) s = .next (sendPkt u { o.pkt with retx := true, epoch := s.fab.cur, payload := [] }) ∧
      u.clk = max s.clk o.deadline ∧ reg64 u rE2eRetx = reg64 (advanceTo o.deadline s) rE2eRetx + 1 ∧
      (∀ x ∈ u.fab.outs, x.oid = o.oid → 0 < x.tries ∧ u.clk + 1000 * (if x.far then s.fab.timers.rtoFar else s.fab.timers.rtoNear) =
        x.deadline) ∧
      changesOnly [.regs, .fab] (advanceTo o.deadline s) u) ∧
  (∀ s o k off sec m, s.fab.outs.find? (fun x => decide (x.oid = o.oid) && x.answer.isNone) = some o → o.tries < s.fab.timers.e2eRetryMax →
    o.user = .maquette k off → s.img.sec = some sec → SMap.get none s.maq.slots k = some m →
    ∃ u, exec (.rtoExpire o.oid) s = .next (sendPkt u { o.pkt with
        retx := true, epoch := s.fab.cur, payload := maqData s sec k off (min 4096 (maqBytes s m.layer - off)) }) ∧
      reg64 u rE2eRetx = reg64 (advanceTo o.deadline s) rE2eRetx + 1 ∧ changesOnly [.regs, .fab] (advanceTo o.deadline s) u) ∧
  (∀ s o att, s.fab.outs = [o] → o.oid < 16384 → o.answer = none → o.user = .verdict att → s.fab.timers.e2eRetryMax ≤ o.tries →
    ∃ t, exec (.rtoExpire o.oid) s = .next t ∧ t.fab.outs = [] ∧ (rsReg t rFabErr).ev.getLsbD 8 = true ∧
      changesOnly [.regs, .rs, .host, .fab, .out] (advanceTo o.deadline s) t) ∧
  (∀ s k f, s.fab.src[k]? = some f → (∀ o ∈ s.fab.outs, f.serves o.pkt = false) →
    ∃ t, exec (.flowIdleExpire true k) s = .next t ∧ t.fab = { s.fab with src := s.fab.src.eraseIdx k } ∧
      t.clk = max s.clk (f.last + s.fab.timers.flowIdle * 1000) ∧
      changesOnly [.fab] (advanceTo (f.last + s.fab.timers.flowIdle * 1000) s) t) ∧
  (∀ s k f, s.fab.dst[k]? = some f →
    ∃ t, exec (.flowIdleExpire false k) s = .next t ∧ t.fab = { s.fab with dst := s.fab.dst.eraseIdx k } ∧
      t.clk = max s.clk (f.last + s.fab.timers.flowIdle * 1000) ∧
      changesOnly [.fab] (advanceTo (f.last + s.fab.timers.flowIdle * 1000) s) t) ∧
  (∀ s tag r data, hostReadOf s tag = some r → s.host.reads.length ≤ 256 → data.length = reqBytes r.req → (∀ f ∈ s.fab.dst, f.serves r.req = true → f.held = []) →
    ∃ u, exec (.hostReadCompletion tag data) s = .next (sendPkt u (replyPkt s r.req 0 data)) ∧ keptReply r.req 0 data s u ∧
      u.host = { s.host with reads := s.host.reads.filter fun x => decide (x.tag ≠ tag) } ∧ changesOnly [.host, .fab] s u) ∧
  (∀ s tag r, hostReadOf s tag = some r → s.host.reads.length ≤ 256 → (∀ f ∈ s.fab.dst, f.serves r.req = true → f.held = []) →
    ∃ u, exec (.completionTimeout tag) s = .next (sendPkt u (replyPkt s r.req 4 [])) ∧ keptReply r.req 4 [] s u ∧
      u.host = { s.host with reads := s.host.reads.filter fun x => decide (x.tag ≠ tag) } ∧ u.clk = max s.clk r.deadline ∧
      u.out = .aer "completion timeout" :: s.out ∧ changesOnly [.host, .fab, .out] (advanceTo r.deadline s) u) ∧
  (∀ s i w n, s.fab.waiting[i]? = some w → w.pkt.relief = false → w.dry = some n → (candidates s w).any (hasCredit s w.pkt) = false →
    ∃ u, exec (.reliefMove i) s = .next (sendOn u { w with pkt := { w.pkt with relief := true }, dry := none }) ∧
      u.fab = { s.fab with waiting := s.fab.waiting.eraseIdx i } ∧ u.clk = max s.clk (n + 2000) ∧
      reg64 u rReliefPkts = reg64 (advanceTo (n + 2000) s) rReliefPkts + 1 ∧ changesOnly [.regs, .fab] (advanceTo (n + 2000) s) u) ∧
  (∀ s i w, s.fab.waiting[i]? = some w → w.pkt.relief = true ∨ w.dry = none ∨ (candidates s w).any (hasCredit s w.pkt) = true →
    exec (.reliefMove i) s = .next s) ∧
  (∀ s (port : Fin 6) w u, 4 ≤ port.val → s.fab.waiting = [w] → leavesOn s port.val w.pkt = true →
    (∀ c, pick { s with fab := { s.fab with waiting := [] } } w false = (some c, u) → exec (.replayStoreSend port) s = .next (depart u w c)) ∧
    (pick { s with fab := { s.fab with waiting := [] } } w false = (none, u) → candidates u w ≠ [] →
      ∃ t, exec (.replayStoreSend port) s = .next t ∧ t.fab.waiting = [{ w with dry := dryAt u w }] ∧ changesOnly [.fab] u t))

/-- R14, R19, R299, R303, R310, R313, R315 to R317, R320, R324, R331, R337. A packet sent carries its CRC, and goes to the module itself, is an
addressing error when its rack is not VALID, or leaves on a link of its route that takes it: on the A axis by the counters, elsewhere by the most free
credit. AGE grows by its residence and the link's latency. On the link it receives the next LSN, uses its credit and is held until acknowledged;
without a link it waits, and a management packet is dropped and counted. A packet for another module stays in the receive pool, and is sent on with
one hop more. A reserved endpoint and a wrong CRC are counted. A link receives back the credit of what leaves the pool.
R319, R321, R322, R323. OPEN opens the inactive bank, which is then no longer checked (the model's choice, log entry 80); LOAD checks it and makes it the next epoch, or keeps it open with an event; INJECT makes
it CURRENT and the old epoch drains; RETIRE starts the wait of one PKT_LIFE, after which the bank, holding no packet, is free and its epoch
is no longer accepted. VIEW changes only what is shown. A command out of its turn is an event and changes nothing else.
Rests on the model's own choices and readings of log entries 40, 41 and 80. -/
def Obligations.PacketRouting : Prop :=
  ((∀ s p, p.dstMod = s.fab.modId → sendPkt s p = emit s (.packet { p with crc := BitVec.ofNat 32 (pktCrc p) } none)) ∧
  (∀ s p, rackOf p.dstMod ≠ rackOf s.fab.modId → bitAt (rackEntry s p.epoch (rackOf p.dstMod)) 15 = false →
    reg (sendPkt s p) rAddrErr = reg s rAddrErr + 1 ∧ (rsReg (sendPkt s p) rFabErr).ev.getLsbD 0 = true ∧
    changesOnly [.regs, .rs, .host, .out] s (sendPkt s p)) ∧
  (∀ s p w u, w = ({ pkt := { p with crc := BitVec.ofNat 32 (pktCrc p) }, at0 := s.clk } : WaitPkt) →
    (∃ q, routeOf s p = .rack q) ∨ (∃ ds, routeOf s p = .dims ds) →
    (∀ c, pick s w true = (some c, u) → sendPkt s p = depart u w c) ∧ (pick s w true = (none, u) → sendPkt s p = parkPkt u w)) ∧
  (∀ s w fresh, byWeight s w = false → (pick s w fresh).2 = s ∧
    (∀ c, (pick s w fresh).1 = some c → c ∈ candidates s w ∧ linkTakes s w.pkt c = true ∧ ∀ x ∈ candidates s w, linkTakes s w.pkt x = true →
      (link s x).credit.toArray.getD (pktVc w.pkt) 0 ≤ (link s c).credit.toArray.getD (pktVc w.pkt) 0) ∧
    ((pick s w fresh).1 = none → ∀ x ∈ candidates s w, linkTakes s w.pkt x = false)) ∧
  (∀ s w c u, byWeight s w = true → pick s w true = (some c, u) → c ∈ candidates s w ∧ linkTakes s w.pkt c = true ∧ changesOnly [.fab] s u ∧
    ∀ x, dOf u w.pkt.cls x = dOf s w.pkt.cls x + (if x ∈ candidates s w then (chanWeight s w.pkt.cls x : Int) else 0) -
      (if x = c then (((candidates s w).map (chanWeight s w.pkt.cls)).foldl (· + ·) 0 : Int) else 0)) ∧
  (∀ s w c q, w.src = none → q = aged { w.pkt with dateline := dateline s w.pkt c } (s.clk - w.at0 + Config.linkLatency (chanNo c)) →
    q.age.toNat = min 65535 (w.pkt.age.toNat + (s.clk - w.at0 + Config.linkLatency (chanNo c) + 999) / 1000) ∧
    (tooOld s q = false → depart s w c = putOnLink s q c) ∧
    (tooOld s q = true → reg (depart s w c) rDropLife = reg s rDropLife + 1 ∧ changesOnly [.regs, .rs, .host, .out] s (depart s w c))) ∧
  (∀ s p c, (link (putOnLink s p c) c).txLsn = (link s c).txLsn + 1 ∧
    (link (putOnLink s p c) c).unacked = (link s c).unacked ++ [⟨{ p with lsn := (link s c).txLsn }, 0, s.clk⟩] ∧
    (c.port.val < 4 ∨ p.cls ≠ clColl → ∀ v : Fin 8, (link (putOnLink s p c) c).credit[v] =
      if v.val = pktVc p then (link s c).credit[v] - flits p else (link s c).credit[v]) ∧
    (4 ≤ c.port.val → p.cls = clColl → (link (putOnLink s p c) c).credit = (link s c).credit) ∧
    (∀ x, chanNo x ≠ chanNo c → link (putOnLink s p c) x = link s x) ∧
    (putOnLink s p c).out = .packet { p with lsn := (link s c).txLsn } (some c) :: s.out ∧
    reg64 (putOnLink s p c) rTxFlits = reg64 s rTxFlits + w64 (flits p) ∧ changesOnly [.fab, .regs, .out] s (putOnLink s p c)) ∧
  (∀ s p q, routeOf s p = .rack q → aEligible s p.cls q = [] → (p.cls = clMgmt → sendPkt s p = addReg s rMgmtDrop 1) ∧
    (p.cls ≠ clMgmt → p.relief = false → sendPkt s p = { s with fab := { s.fab with waiting := s.fab.waiting ++
      [{ pkt := { p with crc := BitVec.ofNat 32 (pktCrc p) }, at0 := s.clk, dry := some s.clk }] } })) ∧
  (∀ s p ch, (link s ch).quar = 0 → wellShaped p = true → tooOld s p = false → epochOk s p.epoch = true → p.dstMod ≠ s.fab.modId →
    p.dstEp.toNat < 27 → p.cls ≠ clMgmt → p.cls ≠ clColl → p.hops.toNat < 24 →
    ∃ u, exec (.packetForward p ch) s = .next (sendOn (poolHold u p ch)
        { pkt := { p with hops := p.hops + 1 }, at0 := s.clk, src := some (ch, poolKey p ch) }) ∧
      noted p ch s u ∧ u.fab.dst = s.fab.dst ∧ changesOnly [.regs, .fab, .out] s u) ∧
  (∀ s p ch, (link s ch).quar = 0 → wellShaped p = true → tooOld s p = true → p.dstMod ≠ s.fab.modId → p.dstEp.toNat < 27 →
    ∃ t, exec (.packetForward p ch) s = .next t ∧ reg t rDropLife = reg s rDropLife + 1 ∧ (rsReg t rFabErr).ev.getLsbD 6 = true ∧
      changesOnly [.regs, .rs, .host, .fab, .out] s t) ∧
  (∀ s p ch, (link s ch).quar = 0 → p.dstMod ≠ s.fab.modId → 27 ≤ p.dstEp.toNat →
    ∃ t, exec (.packetForward p ch) s = .next t ∧ reg t rAddrErr = reg s rAddrErr + 1 ∧ (rsReg t rFabErr).ev.getLsbD 0 = true ∧
      changesOnly [.regs, .rs, .host, .fab, .out] s t) ∧
  (∀ i ∈ ([(.writePacket, ptWrite), (.readPacket, ptRead), (.signalPacket, ptSignal), (.readData, ptReadData), (.status, ptStatus),
      (.e2eAck, ptE2eAck), (.collGrant, ptCollGrant), (.collData, ptCollData), (.linkHello, ptHello), (.poisonPacket, ptPoison),
      (.thermalSlowPacket, ptThermalSlow), (.routeNotice, ptRouteNotice)] : List ((Packet → Chan → Instr) × BitVec 6)),
    ∀ s p ch, accepted s i.2 { p with crc := BitVec.ofNat 32 (pktCrc p) } ch → p.crc.toNat ≠ pktCrc p →
    ∃ t, exec (i.1 p ch) s = .next t ∧ reg t rFabCrc = reg s rFabCrc + 1 ∧ (rsReg t rFabErr).ev.getLsbD 4 = true ∧ noted p ch s t ∧
      t.fab.dst = s.fab.dst ∧ changesOnly [.regs, .rs, .host, .fab, .out] s t) ∧
  (∀ s ch (v : Fin 8) n, v.val % 2 = 0 → 0 < n → ch.port.val < 4 ∨ v.val ≠ 4 →
    (freeCredit s ch v.val n).out = .linkControl ⟨ch, (link s ch).rxNext - 1, [], [(v, n)]⟩ :: s.out ∧
    (link (freeCredit s ch v.val n) ch).granted[v] = (link s ch).granted[v] + n ∧ changesOnly [.fab, .out] s (freeCredit s ch v.val n)) ∧
  (∀ s ch (v : Fin 8) n, v.val = 4 ∨ v.val = 5 → 4 ≤ ch.port.val → freeCredit s ch v.val n = s)) ∧
  ((∀ s a, mayAccess s .host rFabEpochCmd → s.fab.draining = false → s.fab.retireAt = none →
    exec (.epochOpen a) s = .next { complete s .host .sc [] with fab := { s.fab with isOpen := true, loaded := false } }) ∧
  (∀ s a, mayAccess s .host rFabEpochCmd → s.fab.isOpen = true →
    bankOk s.fab.rack[bankOf (s.fab.cur + 1)] s.fab.dim[bankOf (s.fab.cur + 1)] = true →
    ∃ t, exec (.epochLoad a) s = .next t ∧ t = { complete s .host .sc [] with fab := { s.fab with isOpen := false, loaded := true } } ∧
      epochOk t (s.fab.cur + 1) = true) ∧
  (∀ s a, mayAccess s .host rFabEpochCmd → s.fab.isOpen = true →
    bankOk s.fab.rack[bankOf (s.fab.cur + 1)] s.fab.dim[bankOf (s.fab.cur + 1)] = false →
    ∃ t, exec (.epochLoad a) s = .next t ∧ (rsReg t rFabErr).ev.getLsbD 10 = true ∧ changesOnly [.out, .rs, .host] s t) ∧
  (∀ s a, mayAccess s .host rFabEpochCmd → s.fab.loaded = true →
    ∃ t, exec (.epochInject a) s = .next t ∧ t.fab.cur = s.fab.cur + 1 ∧ t.fab.loaded = false ∧ t.fab.draining = true ∧
      t.fab.drainEpoch = s.fab.cur ∧ epochOk t s.fab.cur = true ∧ epochOk t (s.fab.cur + 1) = true ∧ t.fab.rack = s.fab.rack ∧
      t.fab.dim = s.fab.dim ∧ t.out = .completion .host .sc [] :: s.out ∧ changesOnly [.fab, .out] s t) ∧
  (∀ s a, mayAccess s .host rFabEpochCmd → s.fab.draining = true → exec (.epochRetire a) s =
    .next { complete s .host .sc [] with fab := { s.fab with retireAt := some (s.clk + s.fab.timers.pktLife * 1000) } }) ∧
  (∀ s n, s.fab.retireAt = some n → epochClear s s.fab.drainEpoch = true →
    ∃ t, exec .epochDrainDone s = .next t ∧ t.clk = max s.clk n ∧ t.fab = { s.fab with draining := false, retireAt := none } ∧
      (s.fab.loaded = false → s.fab.drainEpoch ≠ s.fab.cur → epochOk t s.fab.drainEpoch = false) ∧ changesOnly [.fab] (advanceTo n s) t) ∧
  (∀ s n, s.fab.retireAt = some n → epochClear s s.fab.drainEpoch = false → exec .epochDrainDone s = .next s) ∧
  (∀ s a, mayAccess s .host rFabEpochCmd →
    exec (.epochView a) s = .next { complete s .host .sc [] with fab := { s.fab with view := a.getLsbD 0 } }) ∧
  (∀ s a i, mayAccess s .host rFabEpochCmd →
    (i = .epochOpen a ∧ s.fab.draining = true ∧ s.fab.retireAt = none) ∨ (i = .epochLoad a ∧ s.fab.isOpen = false) ∨
      (i = .epochInject a ∧ s.fab.loaded = false) ∨ (i = .epochRetire a ∧ s.fab.draining = false) →
    ∃ t, exec i s = .next t ∧ (rsReg t rFabErr).ev.getLsbD 11 = true ∧ changesOnly [.out, .rs, .host] s t))

/-- R48, R313, R314, R324, R325, R346 to R351, R438. A link control word frees what it acknowledges and returns credit; a link acknowledgement
that does not come within two round trips resends the packet, older by that time, and past the limit takes the link down. LINK_HELLO of the expected peer accepts the link; one that fails a
check, or silence, quarantines it with its cause. LINK_HELLO is repeated with the next sequence number. A POISON packet of this job poisons its
attempt, and the poisoned attempt is told again every 200 µs; a route notice is kept until it is taken back.
Rests on the model's own choices and readings of log entries 42, 43 and 80. -/
def Obligations.FabricLinks : Prop :=
  (∀ s (w : Lcw) ch, w.naks = [] → s.fab.waiting = [] → (link s w.about).closing = false →
    ∃ t, exec (.linkControlWord w ch) s = .next t ∧
      (link t w.about).unacked = (link s w.about).unacked.filter (fun u => !serialAtOrBefore 16 u.pkt.lsn.toNat w.ack.toNat) ∧
      (∀ v n, w.credits = [(v, n)] → ∀ x : Fin 8, (link t w.about).credit[x] =
        if x = v then (link s w.about).credit[x] + n else (link s w.about).credit[x]) ∧
      (∀ c, chanNo c ≠ chanNo w.about → link t c = link s c) ∧ changesOnly [.regs, .fab] s t) ∧
  (∀ s ch lsn u, (link s ch).unacked.find? (fun u => decide (u.pkt.lsn = lsn)) = some u → u.retries < s.fab.timers.linkRetryMax →
    ∃ t, exec (.linkAckTimeout ch lsn) s = .next t ∧ t.clk = max s.clk (u.sentAt + 4 * Config.linkLatency (chanNo ch)) ∧
      t.out = .packet (aged u.pkt (t.clk - u.sentAt)) (some ch) :: s.out ∧
      reg64 t rLinkRetx = reg64 (advanceTo (u.sentAt + 4 * Config.linkLatency (chanNo ch)) s) rLinkRetx + 1 ∧
      reg64 t rTxFlits = reg64 (advanceTo (u.sentAt + 4 * Config.linkLatency (chanNo ch)) s) rTxFlits + w64 (flits u.pkt) ∧
      (link t ch).unacked = (link s ch).unacked.map (fun x =>
        if x.pkt.lsn = lsn then ⟨aged u.pkt (t.clk - u.sentAt), x.retries + 1, t.clk⟩ else x) ∧
      (∀ c, chanNo c ≠ chanNo ch → link t c = link s c) ∧ changesOnly [.regs, .fab, .out] (advanceTo (u.sentAt + 4 * Config.linkLatency (chanNo ch)) s) t) ∧
  (∀ s ch lsn u, (link s ch).unacked = [u] → u.pkt.lsn = lsn → u.pkt.type = ptHello → s.fab.timers.linkRetryMax ≤ u.retries →
    chanDim s s.fab.cur ch = none →
    ∃ t, exec (.linkAckTimeout ch lsn) s = .next t ∧ (link t ch).up = false ∧ (link t ch).accepted = false ∧ (link t ch).unacked = [] ∧
      reg t rLinkDownCnt = reg (advanceTo (u.sentAt + 4 * Config.linkLatency (chanNo ch)) s) rLinkDownCnt + 1 ∧ (rsReg t rFabErr).ev.getLsbD 7 = true ∧
      (∀ c, chanNo c ≠ chanNo ch → link t c = link s c) ∧ changesOnly [.regs, .rs, .host, .fab, .out] (advanceTo (u.sentAt + 4 * Config.linkLatency (chanNo ch)) s) t) ∧
  (∀ s p ch, accepted s ptHello p ch → helloCause s ch p = 0 → s.fab.waiting = [] → s.start.idValid = true → chanDim s s.fab.cur ch = none →
    p.relief = false →
    ∃ t, exec (.linkHello p ch) s = .next t ∧ (link t ch).up = true ∧ (link t ch).accepted = true ∧ (link t ch).quar = 0 ∧
      (link t ch).peer.toNat = leAt p.payload 0 2 ∧ (link t ch).peerAcc = (leAt p.payload 8 1).testBit 1 ∧
      (link t ch).level = min (leAt p.payload 6 1) 3 ∧ (link t ch).lockedAt = none ∧
      ((link s ch).accepted = false → ∀ v : Fin 8, v.val = 0 ∨ v.val = 2 ∨ v.val = 4 →
        (link t ch).granted[v] = max (linkWindow s ch.port.val v.val) ((link s ch).granted[v])) ∧
      (∀ c, chanNo c ≠ chanNo ch → link t c = link s c) ∧ changesOnly [.regs, .fab, .out] s t) ∧
  (∀ s p ch, accepted s ptHello p ch → helloCause s ch p ≠ 0 → (link s ch).accepted = false → s.start.idValid = true → p.relief = false →
    ∃ t, exec (.linkHello p ch) s = .next t ∧ (link t ch).quar = helloCause s ch p ∧ (link t ch).accepted = false ∧
      (rsReg t (portWin ch.port.val + rPLinkErr)).ev.getLsbD (helloCause s ch p - 1) = true ∧
      fld (reg t (portWin ch.port.val + rPLinkInfo)) 22 20 = helloCause s ch p ∧
      fld (reg t (portWin ch.port.val + rPLinkPeer)) 31 16 = leAt p.payload 0 2 ∧
      (∀ c, chanNo c ≠ chanNo ch → link t c = link s c) ∧ changesOnly [.regs, .rs, .host, .fab, .out] s t) ∧
  (∀ s ch p, (leAt p.payload 8 1).testBit 0 = false → helloCause s ch p = 6) ∧
  (∀ s ch p e, (leAt p.payload 8 1).testBit 0 = true → expectedPeer s ch = some e → BitVec.ofNat 16 (leAt p.payload 0 2) ≠ e.mod →
    helloCause s ch p = 1) ∧
  (∀ s ch n, (link s ch).helloAt = some n →
    ∃ u p, exec (.helloTimer ch) s = .next (toPeer u p ch) ∧ u.clk = max s.clk n ∧
      link u ch = { link s ch with helloSeq := (link s ch).helloSeq + 1, helloAt := some (u.clk +
        if (link s ch).accepted = true ∧ (link s ch).quar = 0 then 1000000000 else 100000000) } ∧
      p.type = ptHello ∧ leAt p.payload 0 2 = s.fab.modId.toNat ∧ leAt p.payload 12 4 = ((link s ch).helloSeq + 1).toNat ∧
      changesOnly [.fab] (advanceTo n s) u) ∧
  (∀ s ch n, (link s ch).lockedAt = some n →
    ∃ t, exec (.helloSilent ch) s = .next t ∧ t.clk = max s.clk (n + 100000000) ∧ (link t ch).quar = 5 ∧ (link t ch).lockedAt = none ∧
      (rsReg t (portWin ch.port.val + rPLinkErr)).ev.getLsbD 4 = true ∧
      fld (reg t (portWin ch.port.val + rPLinkInfo)) 22 20 = 5 ∧
      changesOnly [.regs, .rs, .host, .fab, .out] (advanceTo (n + 100000000) s) t) ∧
  (∀ s p ch a, accepted s ptPoison p ch → p.jobId = jobOf s → w64 (leAt p.payload 0 8) ∉ s.fab.seenPoison →
    attempt s (w64 (leAt p.payload 0 8)) = some a → a.verdict = none → s.coll.active = [] →
    ∃ t, exec (.poisonPacket p ch) s = .next t ∧ verdictOf t (w64 (leAt p.payload 0 8)) = some .poison ∧
      w64 (leAt p.payload 0 8) ∈ t.fab.seenPoison) ∧
  (∀ s p ch, accepted s ptPoison p ch → p.jobId ≠ jobOf s ∨ w64 (leAt p.payload 0 8) ∈ s.fab.seenPoison →
    ∃ t, exec (.poisonPacket p ch) s = .next t ∧ noted p ch s t ∧ changesOnly [.regs, .fab, .out] s t) ∧
  (∀ s att a n, s.step.attempts = [a] → a.att = att → a.repeatAt = some n → a.recorded = false →
    ∃ u t, exec (.poisonRepeat att) s = .next t ∧ u = broadcast (advanceTo n s) (poisonPkt s a.step att a.causes) ∧ t.out = u.out ∧
      t.fab = u.fab ∧ t.clk = max s.clk n ∧ t.step.attempts = [{ a with repeatAt := some (t.clk + 200000) }] ∧ changesOnly [.step] u t) ∧
  (∀ s p ch, accepted s ptRouteNotice p ch → (link s ch).level ≠ 2 → bitAt p.addr 16 = false → (p.srcMod, fld p.addr 9 0) ∉ s.fab.peerDown →
    ∃ t, exec (.routeNotice p ch) s = .next t ∧ t.fab.peerDown = s.fab.peerDown ++ [(p.srcMod, fld p.addr 9 0)] ∧
      changesOnly [.regs, .fab, .out] s t) ∧
  (∀ s p ch, accepted s ptRouteNotice p ch → (link s ch).level ≠ 2 → bitAt p.addr 16 = true →
    ∃ t, exec (.routeNotice p ch) s = .next t ∧ (p.srcMod, fld p.addr 9 0) ∉ t.fab.peerDown ∧
      (∀ e, e ≠ (p.srcMod, fld p.addr 9 0) → (e ∈ t.fab.peerDown ↔ e ∈ s.fab.peerDown)) ∧ changesOnly [.regs, .fab, .out] s t)

/-- R415, R443, R456, R460, R500. A WARM or COLD reset asked for with the key 0x5A5A, from any master or over MCTP, starts the module
anew: COLD keeps flash and OTP alone, WARM the AON domain, the timebase and, until MEMORY decides, the memory contents. Another key or TYPE does
nothing. What the heartbeat and the crystal's failure cause is a WARM reset with its own SOURCE.
R417, R418, R482. A LINK reset closes the BARs and takes BAR sizes, the MSI-X table with its pending bits and Bus Master Enable back to
their reset values, and ends every armed host wait without a message; where no other waiter stood only behind these, nothing else of the module changes. When the link comes up again, with the
firmware running, the module is enabled on it. The setting of Memory Space Enable with the link is the model's choice (log entry 16).
R92, R415. CORE reset takes a die out of service: its streams, array, contexts and objects return to reset and its tile store is kept; outside
pass 2 it stops a running image with CD_OUT. The other dies keep their state, where no waiter stood only behind those of this die.
R447, R466, R513. The hot-swap opens below 44 V or when a mating pin rises, and closes again once that is over, with a COLD start of SOURCE
"power applied". Overvoltage, overcurrent, overtemperature, SHUTDOWN and a thermal trip open it latched: then neither the voltage nor the pins
close it, but only the input applied anew after an absence.
Rests on the model's own choices and readings of log entries 45, 50 and 51. -/
def Obligations.Resets : Prop :=
  ((∀ m v s, mayAccess s m rReset → fld v 31 16 = 0x5A5A → fld v 1 0 = 1 →
    ∃ t, exec (.modResetWarm m v) s = .next t ∧ warmStarted (match m with | .host => 1 | .bmc => 2 | _ => 4) s t) ∧
  (∀ m v s, mayAccess s m rReset → fld v 31 16 = 0x5A5A → fld v 1 0 = 2 → s.pwr.closed = true →
    ∃ t, exec (.modResetCold m v) s = .next t ∧ coldStarted (match m with | .host => 1 | .bmc => 2 | _ => 4) s t) ∧
  (∀ m v s i, i = .modResetWarm m v ∨ i = .modResetCold m v → mayAccess s m rReset →
    fld v 31 16 ≠ 0x5A5A ∨ fld v 1 0 = 0 ∨ fld v 1 0 = 3 → exec i s = .next (complete s m .sc [])) ∧
  (∀ p v s, p ≠ .mbox → s.start.fin = .ready ∨ s.start.fin = .mgmtOnly → fld v 1 0 = 1 →
    ∃ t, exec (.reset p v) s = .next t ∧ warmStarted 2 s t ∧ .response p msOk [] ∈ t.out) ∧
  (∀ p v s, p ≠ .mbox → s.start.fin = .ready ∨ s.start.fin = .mgmtOnly → fld v 1 0 = 2 → s.pwr.closed = true →
    ∃ t, exec (.reset p v) s = .next t ∧ coldStarted 2 s t ∧ .response p msOk [] ∈ t.out) ∧
  (∀ s, passed s stRom = true → ∃ t, exec .heartbeatMiss s = .next t ∧ warmStarted 3 s t) ∧
  (∀ s n, s.clocks.failAt = some n → ∃ t, exec .xtalFailReset s = .next t ∧ warmStarted 4 (advanceTo (n + 100000000) s) t)) ∧
  ((∀ s, (∀ o, unserved (getObj s o)) → ∃ t, exec .linkReset s = .next t ∧
    t.host = { s.host with pba := [], funcMask := false, barSize := 4, memSpace := false, busMaster := false, d3hot := false, perst := true, linkUp := false } ∧
    (∀ n, slotArmed t n = false) ∧ (∀ o, rMsixTable ≤ o → o < rMsixTable + 0x8000 → reg t o = resetWord o) ∧
    (∀ o, (o < rMsixTable ∨ rMsixTable + 0x8000 ≤ o) → (o < rHwObj ∨ rHwObj + 0x4000 ≤ o) → reg t o = reg s o) ∧
    (∀ v, msixOpen t v = false) ∧ hostOpen t = false ∧ changesOnly [.regs, .host, .sync] s t) ∧
  (∀ s, passed s stRom = true → s.start.fin ≠ .romRecovery → s.host.linkUp = false → s.img.sec = none →
    exec .pcieLinkUp s = .next { s with host := { s.host with perst := false, linkUp := true, memSpace := true } }) ∧
  (∀ s, passed s stRom = false → exec .pcieLinkUp s = .next s)) ∧
  ((∀ d s, (∀ c e i, (str s d c).waitRef = some (.loc e i) → e = d) → (∀ o, unserved (getObj s o)) → s.coll.active = [] →
    s.upd.p2 = none → s.img.st = .running →
    ∃ t, exec (.coreReset d) s = .next t ∧ (∀ c, str t d c = {} ∧ vctx t d c = {}) ∧ (die t d).arr = {} ∧
      (∀ i, getObj t (.loc d i) = {}) ∧ (die t d).out = true ∧ (die t d).coreReset = true ∧ (die t d).ts = (die s d).ts ∧
      (die t d).prog = (die s d).prog ∧ t.img.st = .stopping ∧ t.img.halt = true ∧ t.img.stop = (if s.img.stop = 0 then 10 else s.img.stop) ∧
      (∀ e, e ≠ d → die t e = die s e) ∧ t.mem = s.mem) ∧
  (∀ d s, (∀ c e i, (str s d c).waitRef = some (.loc e i) → e = d) → (∀ o, unserved (getObj s o)) → s.coll.active = [] →
    s.img.st = .none →
    ∃ t, exec (.coreReset d) s = .next t ∧ (∀ c, str t d c = {} ∧ vctx t d c = {}) ∧ (die t d).out = true ∧ t.img = s.img ∧
      (∀ e, e ≠ d → die t e = die s e) ∧ t.mem = s.mem)) ∧
  ((∀ s, ∃ t, exec .powerApplied s = .next t ∧ ((s.pwr.mateA = true ∨ s.pwr.mateB = true) → s.pwr.closed = false →
      t.pwr.closed = false ∧ t.pwr.latched = false) ∧
    (s.pwr.mateA = false → s.pwr.mateB = false → s.pwr.closed = false → coldStarted 0 { s with pwr := {} } t)) ∧
  (∀ s, s.pwr.closed = false → s.pwr.latched = false →
    ∃ t, exec .hotswapClose s = .next t ∧ coldStarted 0 { s with pwr := {} } t) ∧
  (∀ s, s.pwr.closed = false → s.pwr.latched = true →
    ∃ t, exec .hotswapClose s = .next t ∧ t.pwr.closed = false ∧ t.pwr.latched = true ∧ changesOnly [.pwr] s t) ∧
  (∀ s, s.pwr.closed = true → ∃ t, exec .hvUndervoltage s = .next t ∧ supplyCut s t ∧ t.pwr.undervolt = true ∧ t.pwr.latched = s.pwr.latched) ∧
  (∀ pin s, s.pwr.closed = true → ∃ t, exec (.matePinRise pin) s = .next t ∧ supplyCut s t ∧
    t.pwr.mateA = (s.pwr.mateA || decide (pin = 0)) ∧ t.pwr.mateB = (s.pwr.mateB || decide (pin = 1)) ∧ t.pwr.latched = s.pwr.latched) ∧
  (∀ pin s, s.pwr.closed = false → exec (.matePinRise pin) s = .next { s with pwr := { s.pwr with
    mateA := s.pwr.mateA || decide (pin = 0), mateB := s.pwr.mateB || decide (pin = 1) } }) ∧
  (∀ i s, i ∈ [Instr.hvOvervoltage, .hvOvercurrent, .hvOvertemp, .shutdown, .thermalTrip] → s.pwr.closed = true →
    ∃ t, exec i s = .next t ∧ supplyCut s t ∧ t.pwr.latched = true ∧ (i = .shutdown ∨ i = .thermalTrip → .hv true ∈ t.out)) ∧
  (∀ i s, i ∈ [Instr.hvUndervoltage, .hvOvervoltage, .hvOvercurrent, .hvOvertemp, .shutdown, .thermalTrip] → s.pwr.closed = false →
    exec i s = .next s))

/-- R54 to R56, R73, R74. The step unit ends a step that every stream has left: its record is written at the next place of the ring and the step
object signalled; a poisoned step lowers the loss scale, keeps STEP_CTR, and counts, and at the poison limit a stop is requested; a committed one ends
the run of poisoned steps.
R55, R271, R275, R288. When every descriptor of the pass is committed, the step commits: STEP_CTR becomes its number, the pass ends, the
loss-scale rule counts a clean step, and the attempt is committed; with a descriptor open, the pass goes on. An element of which a stored value
would not be finite is kept.
R69 to R71, R250. The copy of the next layer of a snapshot takes a free slot; when it is complete its bytes stand in the slot, and its export
begins; a slot whose export is whole is free again, and STEP_SNAPSHOT is recorded when every layer has been freed.
Rests on the model's own choices and readings of log entries 18, 30, 31, 35, 71 and 78. -/
def Obligations.StepsEnd : Prop :=
  ((∀ s a, endable s = some a → a.verdict = some .poison →
    ∃ t, exec .stepUnitEndStep s = .next t ∧ t.step.poisonRun = s.step.poisonRun + 1 ∧
      t.step.poisonTotal = min 65535 (s.step.poisonTotal + 1) ∧ t.step.ctr = s.step.ctr ∧ (rsReg t rStepStat).ev.getLsbD 1 = true ∧
      (∃ b, attempt t a.att = some b ∧ b.recorded = true ∧ b.repeatAt = none) ∧ (∀ e ∈ t.step.stash, e.1 ≠ a.att) ∧
      (∀ p, params s = some p → t.step.cleanRun = 0 ∧ t.step.lossE = max (s.step.lossE - 1) p.eMin ∧
        (p.poisonLimit ≤ s.step.poisonRun + 1 → (rsReg t rStepStat).ev.getLsbD 7 = true ∧
          (s.img.st = .running → t.img.stopReq = true ∧ t.img.st = .stopping)))) ∧
  (∀ s a, endable s = some a → a.verdict = some .clear →
    ∃ t, exec .stepUnitEndStep s = .next t ∧ t.step.poisonRun = 0 ∧ t.step.poisonTotal = s.step.poisonTotal ∧ t.step.ctr = s.step.ctr ∧
      t.step.lossE = s.step.lossE ∧ (∃ b, attempt t a.att = some b ∧ b.recorded = true) ∧ (∀ e ∈ t.step.stash, e.1 ≠ a.att)) ∧
  (∀ s a sec, endable s = some a → a.verdict = some .clear → s.img.sec = some sec →
    cleanRange s.mem (sec.stepRing + 64 * (s.step.endedSteps % max 1 sec.stepRingLen)) 64 →
    distinctBytes s.mem (sec.stepRing + 64 * (s.step.endedSteps % max 1 sec.stepRingLen)) 64 →
    ∃ t, exec .stepUnitEndStep s = .next t ∧ t.step.endedSteps = s.step.endedSteps + 1 ∧ (rsReg t rStepStat).ev.getLsbD 0 = true ∧
      storedAt (sec.stepRing + 64 * (s.step.endedSteps % max 1 sec.stepRingLen)) (recordBytes s a) s.mem t.mem) ∧
  (∀ s, endable s = none → exec .stepUnitEndStep s = .next s)) ∧
  ((∀ s q p, s.upd.p2 = some q → updParams s = some p → s.upd.replay = none → s.img.st ≠ .shadow → s.img.sec.map (·.params) = some p →
    (List.range (ndesc s)).all (descCommitted s q) = true →
    (tryCommit s).step.ctr = q.step ∧ reg64 (tryCommit s) rStepCtr = q.step ∧ (tryCommit s).upd.p2 = none ∧
    (tryCommit s).step.cleanRun = (if s.step.cleanRun + 1 = p.growth then 0 else s.step.cleanRun + 1) ∧
    (tryCommit s).step.lossE = (if s.step.cleanRun + 1 = p.growth then min (s.step.lossE + 1) p.eMax else s.step.lossE) ∧
    ∀ a, attempt s q.att = some a → ∃ b, attempt (tryCommit s) q.att = some b ∧ b.committed = true ∧ b.verdict = a.verdict) ∧
  (∀ s q p i, s.upd.p2 = some q → updParams s = some p → i < ndesc s → descCommitted s q i = false →
    (tryCommit s).step = s.step ∧ (tryCommit s).upd = s.upd ∧ changesOnly [.maq] s (tryCommit s)) ∧
  (∀ c b e o, elemUpd c b e = some o → nonFinite32 o.w = false ∧ nonFinite32 o.s1 = false ∧ (c.rule = 0 → nonFinite32 o.s2 = false)) ∧
  (∀ c b e, c.rule = 0 → elemUpd c b e = none → ∃ o, o = elementRule c e (scaledGrad c b e.g) ∧
    (nonFinite32 o.w = true ∨ nonFinite32 o.s1 = true ∨ nonFinite32 o.s2 = true))) ∧
  ((∀ s layer n rest sec k, s.maq.toCopy = (n, layer) :: rest → s.img.sec = some sec → freeMaqSlot s sec = some k →
    exec (.maquetteCopy layer) s = .next { s with maq := { s.maq with toCopy := rest, slots := SMap.set none s.maq.slots k (some { layer := layer, step := n, copied := false }) } }) ∧
  (∀ s layer sec, s.img.sec = some sec → freeMaqSlot s sec = none → exec (.maquetteCopy layer) s = .next s) ∧
  (∀ s layer sec k a n m, s.img.sec = some sec → copyingSlot s layer = some k → maqParts s layer = [(a, n)] →
    cleanRange s.mem a n → unpoisoned s.mem a n → cleanRange s.mem (maqSlotAt sec k) n → distinctBytes s.mem (maqSlotAt sec k) n →
    (∀ i j, i < n → j < n → phys s.mem (a + i) ≠ phys s.mem (maqSlotAt sec k + j)) → SMap.get none s.maq.slots k = some m →
    ∃ t, exec (.maquetteCopyDone layer) s = .next t ∧
      storedAt (maqSlotAt sec k) ((List.range n).map fun i => byteAt s.mem (a + i)) s.mem t.mem ∧
      (∃ m', SMap.get none t.maq.slots k = some m' ∧ m'.copied = true ∧ m'.layer = m.layer ∧ m'.step = m.step) ∧
      changesOnly [.out, .regs, .rs, .host, .maq, .mem, .fab] s t) ∧
  (∀ s slot m sec, s.img.sec = some sec → SMap.get none s.maq.slots slot = some m → m.copied = true →
    (∃ h, sec.maqDest = .host h ∧ maqBytes s m.layer ≤ m.sent) ∨ (∃ i a, sec.maqDest = .fabric i a ∧ maqBytes s m.layer ≤ m.acked) →
    ∃ t, exec (.maquetteSlotFree slot) s = .next t ∧ SMap.get none t.maq.slots slot = none ∧ t.mem = s.mem ∧
      ((∀ l ∈ s.img.layers.map lLayer, (m.step, l) ∈ s.maq.freed ++ [(m.step, m.layer)]) → (rsReg t rStepStat).ev.getLsbD 5 = true) ∧
      changesOnly [.out, .regs, .rs, .host, .maq, .fab] s t))

/-- R288, R433 to R436. ACTIVATION takes a count of object 0 and latches the operands; when the checks end, the lowest code that fails
refuses the image, and otherwise it is loaded: every stream begins its prologue at its START, STEP_CTR is taken from the journal or the image,
the job's timers apply, and object 2 is signalled; a shadow image starts no stream, and follows the site from the attempt after the attempt base.
Rests on the model's own choices and readings of log entries 18, 60, 61, 78 and 82. -/
def Obligations.ImageActivation : Prop :=
  (∀ s, s.start.fin = .ready → s.img.st = .none → (getObj s (.glob 0)).count ≠ 0 →
    ∃ t, exec .activation s = .next t ∧ t.img.st = .verifying ∧ t.img.base = reg64 s rImgBase ∧ t.img.len = (reg s rImgLen).toNat ∧
      t.img.attBase = reg64 s rAttBase ∧ t.img.expect = reg64 s rExpect ∧ t.img.stopReq = false ∧
      getObj t (.glob 0) = { getObj s (.glob 0) with count := (getObj s (.glob 0)).count - 1 } ∧
      (rsReg t rImgEvt).ev.getLsbD 0 = true ∧ changesOnly [.img, .sync, .rs, .host, .out] s t) ∧
  (∀ s, s.start.fin ≠ .ready ∨ s.img.st ≠ .none ∨ (getObj s (.glob 0)).count = 0 → exec .activation s = .next s) ∧
  (∀ s sec ok, s.img.st = .verifying → s.img.stopReq = false → refuseCode s sec ok ≠ 0 →
    ∃ t, exec (.activationVerifyDone sec ok) s = .next t ∧ t.img.st = .none ∧ t.img.refuse = refuseCode s sec ok ∧ t.img.sec = none ∧
      (rsReg t rImgEvt).ev.getLsbD 2 = true ∧ t.mem = s.mem ∧ t.step = s.step ∧ t.fab = s.fab ∧ t.flash = s.flash) ∧
  (∀ s sec ok, s.img.st = .verifying → s.img.stopReq = false → refuseCode s sec ok = 0 → hShadow s s.img.base.toNat = false →
    (getObj (loadImage s sec) (.glob 2)).waiters = [] →
    ∃ t, exec (.activationVerifyDone sec ok) s = .next t ∧ t.img.st = .prologue ∧ t.img.sec = some sec ∧
      t.img.jobId = BitVec.ofNat 16 (hJobId s s.img.base.toNat) ∧ t.step.ctr = loadedStep s sec ∧ t.fab.timers = sec.params.timers ∧
      (rsReg t rImgEvt).ev.getLsbD 1 = true ∧ (sec.params.sPrev = 0 → t.mem = s.mem) ∧
      ∀ d c, str t d c = { ({} : Stream) with
        step := (str s d c).step
        st := .issuing
        prologue := true
        pc := w64 (streamStart s s.img.base.toNat (hEntries s s.img.base.toNat) (strNo d c)) }) ∧
  (∀ s sec ok, s.img.st = .verifying → s.img.stopReq = false → refuseCode s sec ok = 0 → hShadow s s.img.base.toNat = true →
    ∃ t, exec (.activationVerifyDone sec ok) s = .next t ∧ t.img.st = .shadow ∧ t.step.ctr = loadedStep s sec ∧
      t.fab.timers = sec.params.timers ∧ t.upd.shadowAtt = s.img.attBase + 1) ∧
  (∀ s sec ok, s.img.st = .verifying → s.img.stopReq = true →
    ∃ t, exec (.activationVerifyDone sec ok) s = .next t ∧ t.img.st = .none ∧ t.img.refuse = 0 ∧ t.img.lastStop = s.img.stop)

/-- R42, R52, R201, R204, R434 to R438. A stop is requested by MOD_IMG_CTL and takes the highest step begun as the last; when the image has stopped
and no array operation runs, its state is gone but for STEP_CTR, and object 3 is signalled. A re-homed tile takes its planes, or the master where its owner has left and no site
answers, and one from another step stops the image.
While a verdict is indeterminate the next peer is asked every 10 ms, until the wait is given up.
Rests on the model's own choices and readings of log entries 61, 62 and 63. -/
def Obligations.ImageStopAndVerdicts : Prop :=
  (∀ s v, hostOpen s = true → windowOpen s rImgCtl = true → bitAt v 16 = true → bitAt v 0 = true → s.img.st = .running →
    ∃ t, exec (.modImgStop v) s = .next t ∧ t.img.st = .stopping ∧ t.img.stopReq = true ∧
      t.img.stop = (if s.img.stop = 0 then 1 else s.img.stop) ∧
      t.step.stopStep = some (s.step.stopStep.getD (highestStep s.step)) ∧ t.out = .completion .host .sc [] :: s.out ∧
      changesOnly [.out, .step, .img] s t) ∧
  (∀ s v, hostOpen s = true → windowOpen s rImgCtl = true → bitAt v 16 = false ∨ bitAt v 0 = false →
    ∃ t, exec (.modImgStop v) s = .next t ∧ t.out = .completion .host .sc [] :: s.out ∧ changesOnly [.out] s t) ∧
  (∀ s, hasStopped s = true → anyOp s = true → ∃ t, exec .imageStopped s = .next t ∧ t.img = s.img ∧ changesOnly [.dies] s t) ∧
  (∀ s, hasStopped s = true → anyOp s = false → (getObj s (.glob 3)).waiters = [] →
    ∃ t, exec .imageStopped s = .next t ∧ t.img = { refuse := 0, lastStop := s.img.stop } ∧
      (∀ d c, str t d c = { ({} : Stream) with step := (str s d c).step }) ∧
      t.step.ctr = s.step.ctr ∧ t.step.attempts = [] ∧ t.maq = {} ∧ t.upd = {} ∧ t.sync.classes = [] ∧ t.coll.active = [] ∧
      t.fab.timers = (match s.plat with | some p => p.timers | none => s.fab.timers) ∧ t.flash.active = none ∧
      (rsReg t rImgEvt).ev.getLsbD 3 = true ∧ t.mem = s.mem) ∧
  (∀ s, hasStopped s = false → exec .imageStopped s = .next s) ∧
  (∀ s desc tile n data sec l cnt j, s.img.sec = some sec → s.img.st = .prologue → 2 ^ 32 * desc.val + tile ∈ s.upd.rehome →
    l = ldesc s desc.val → n = chunkLen l tile → cnt = (ownedTiles s l).length → j = (ownedTiles s l).idxOf tile →
    sec.params.prevOwner.getD (tile % sec.params.sPrev) 0xFFFF ≠ 0xFFFF → data.length = 10 * n →
    ∃ t, exec (.rehomeTiles desc tile (some s.step.ctr) data) s = .next t ∧
      t.upd.rehome = s.upd.rehome.filter (fun k => decide (k ≠ 2 ^ 32 * desc.val + tile)) ∧
      t.mem = (memPut (memPut (memPut s (planeA l j) (data.take (4 * n))) (planeE l cnt j) ((data.drop (4 * n)).take (2 * n)))
        (planeU l cnt j) (data.drop (6 * n))).mem) ∧
  (∀ s (desc : Fin 4096) tile data sec l n cnt j, s.img.sec = some sec → s.img.st = .prologue → 2 ^ 32 * desc.val + tile ∈ s.upd.rehome →
    l = ldesc s desc.val → n = chunkLen l tile → cnt = (ownedTiles s l).length → j = (ownedTiles s l).idxOf tile →
    sec.params.prevOwner.getD (tile % sec.params.sPrev) 0xFFFF = 0xFFFF →
    ∃ t, exec (.rehomeTiles desc tile none data) s = .next t ∧
      t.upd.rehome = s.upd.rehome.filter (fun k => decide (k ≠ 2 ^ 32 * desc.val + tile)) ∧
      t.mem = (memPut (memPut (memPut s (planeA l j) (memBytes s.mem (lW l + 4 * 65536 * tile) (4 * n)))
        (planeE l cnt j) (List.replicate (2 * n) 0)) (planeU l cnt j) (List.replicate (4 * n) 0)).mem) ∧
  (∀ s (desc : Fin 4096) tile src data sec, s.img.sec = some sec → s.img.st = .prologue → 2 ^ 32 * desc.val + tile ∈ s.upd.rehome →
    sec.params.prevOwner.getD (tile % sec.params.sPrev) 0xFFFF ≠ 0xFFFF → src ≠ some s.step.ctr →
    ∃ t, exec (.rehomeTiles desc tile src data) s = .next t ∧ t.img.st = .stopping ∧ t.img.halt = true ∧
      t.img.stop = (if s.img.stop = 0 then 5 else s.img.stop) ∧ t.mem = s.mem ∧ t.upd = s.upd) ∧
  (∀ s n att sec r m v, s.step.pollAt = some n → pollAttempt s = some att → s.img.sec = some sec →
    (guardPeers sec)[s.step.pollPeer % (guardPeers sec).length]? = some r → rankMod s r.toNat = some m →
    sendReq (advanceTo n s) (.verdict att) true { blankPkt s ptRead m 24 24 with
      fmt := 1
      addr := w64 ((sec.verdictRing + 32 * (att.toNat % 4)) / 64 * 64) } = some v →
    ∃ t, exec .verdictPoll s = .next t ∧ t.fab = v.fab ∧ t.out = v.out ∧ t.step.pollPeer = s.step.pollPeer + 1 ∧
      t.step.pollAt = some (n + 10000000) ∧ t.clk = max s.clk n ∧ changesOnly [.step] v t) ∧
  (∀ s n, s.step.resolveAt = some n → (getObj s (.glob 6)).waiters = [] →
    ∃ t, exec .resolveTimeout s = .next t ∧ t.clk = max s.clk n ∧
      t.step = { s.step with pollAt := none, resolveAt := none, resolveFailed := true } ∧ (rsReg t rImgEvt).ev.getLsbD 5 = true ∧
      t.dies = (advanceTo n s).dies)

/-- R289, R291 to R293, R437, R442. The Finisher waits for the stack that caused a fault; when the step is complete it ends a journal replay with
object 4, or the step of a fault, whose U streams go on at their STEP_END. A chunk it needs is taken from a peer at the same step; the next peer is
asked after any other answer; with none left a LAYER whose exchange lost its sites is reduced again among those left, and for any other chunk a
running image stops, as it does when the journal cannot be read. A shadow update of the next step, whose gradients its rounds have brought, takes the
values of its step entry.
Rests on the model's own choices and readings of log entries 34, 79 and 82. -/
def Obligations.FinisherSteps : Prop :=
  (∀ s q, s.upd.p2 = some q → s.upd.finWaitStack = true → (∃ n : Stack, s.mem.st[n].emergency = true) →
    exec .finisherComplete s = .next s) ∧
  (∀ s q v u r, s.upd.p2 = some q → finActive s = true → s.upd.finWaitStack = false → takeJournal s = (false, v) →
    u = (withJerr (false, finOuter q (finCompute v))).2 → u.upd.p2 = none → u.upd.replay = some r → u.img.st ≠ .shadow →
    (getObj u (.glob 4)).waiters = [] →
    ∃ t, exec .finisherComplete s = .next t ∧ t.upd.replay = none ∧ t.upd.fin = .idle ∧ t.upd.tries = 0 ∧
      (rsReg t rUpdStat).ev.getLsbD 8 = true ∧ reg64 t rSyncSignals = reg64 u rSyncSignals + 1 ∧ t.mem = u.mem) ∧
  (∀ s q v u a, s.upd.p2 = some q → finActive s = true → s.upd.finWaitStack = false → takeJournal s = (false, v) →
    u = (withJerr (false, finOuter q (finCompute v))).2 → u.upd.p2 = none → u.upd.replay = none → u.upd.fault = true →
    attempt u q.att = some a → a.recorded = false → u.img.st ≠ .none → u.img.st ≠ .shadow →
    ∃ t, exec .finisherComplete s = .next t ∧ t.upd.fault = false ∧ t.upd.fin = .idle ∧ t.upd.finRun = u.upd.finRun + 1 ∧
      (rsReg t rUpdStat).ev.getLsbD 8 = true ∧ (∃ b, attempt t q.att = some b ∧ b.recorded = true ∧ b.finisher = true) ∧
      (t.img.halt = false → ∀ d, (str u d .u).inBody = true → (str u d .u).pass2 = true → (str u d .u).attempt = q.att →
        (str t d .u).st = .issuing ∧ (str t d .u).pass2 = false ∧ (str t d .u).pc = (str u d .u).endAddr)) ∧
  (∀ s q v, s.upd.p2 = some q → finActive s = true → s.upd.finWaitStack = false → takeJournal s = (true, v) → anyEmergency v = false →
    v.upd.replay = none → v.img.st ≠ .none →
    ∃ t, exec .finisherComplete s = .next t ∧ (rsReg t rUpdStat).ev.getLsbD 9 = true ∧ t.img.st = .stopping ∧
      t.img.stop = (if v.img.stop = 0 then 11 else v.img.stop)) ∧
  (∀ s q (desc : Fin 4096) chunk data v, s.upd.p2 = some q → finActive s = true → wantsFetch s q desc.val chunk = true →
    chunk < nChunks (ldesc s desc.val) → chunkDone s desc.val chunk = false → data.length = innerLen (ldesc s desc.val) chunk →
    putInner s (ldesc s desc.val) chunk data = (false, v) →
    ∃ t, exec (.finisherFetchDone desc chunk (some q.step) data) s = .next t ∧
      t = shadowNext (settleFin q (withJerr (false, finishDescs (advanceChunk { v with upd := { v.upd with tries := 0 } } desc.val chunk))).2)) ∧
  (∀ s q (desc : Fin 4096) chunk src data, s.upd.p2 = some q → finActive s = true → wantsFetch s q desc.val chunk = true →
    src ≠ some q.step → s.upd.tries + 1 < fetchPeers s (decide (nChunks (ldesc s desc.val) ≤ chunk)) →
    exec (.finisherFetchDone desc chunk src data) s = .next { s with upd := { s.upd with tries := s.upd.tries + 1 } }) ∧
  (∀ s q (desc : Fin 4096) chunk src data, s.upd.p2 = some q → finActive s = true → wantsFetch s q desc.val chunk = true →
    src ≠ some q.step → fetchPeers s (decide (nChunks (ldesc s desc.val) ≤ chunk)) ≤ s.upd.tries + 1 → s.upd.replay = none →
    s.img.st ≠ .none → chunk < nChunks (ldesc s desc.val) ∨ lLayer (ldesc s desc.val) ∉ s.upd.seek →
    ∃ t, exec (.finisherFetchDone desc chunk src data) s = .next t ∧ (rsReg t rUpdStat).ev.getLsbD 9 = true ∧ t.img.st = .stopping ∧
      t.img.halt = true ∧ t.img.stop = (if s.img.stop = 0 then 11 else s.img.stop) ∧ changesOnly [.out, .regs, .rs, .host, .img, .upd] s t) ∧
  (∀ s q (desc : Fin 4096) chunk src data, s.upd.p2 = some q → finActive s = true → wantsFetch s q desc.val chunk = true →
    src ≠ some q.step → fetchPeers s true ≤ s.upd.tries + 1 → nChunks (ldesc s desc.val) ≤ chunk →
    lLayer (ldesc s desc.val) ∈ s.upd.seek →
    exec (.finisherFetchDone desc chunk src data) s = .next { s with upd := { s.upd with
      tries := 0
      seek := s.upd.seek.filter fun l => decide (l ≠ lLayer (ldesc s desc.val)) } }) ∧
  (∀ s n entry p, s.img.st = .shadow → s.upd.p2 = none → n = s.step.ctr + 1 → leAt entry 0 8 = n.toNat → leAt entry 0x10 1 ≠ 0 →
    leAt entry 8 8 = s.upd.shadowAtt.toNat → s.upd.shadowGot = true → updParams s = some p →
    ∃ t, exec (.shadowUpdate n entry) s = .next t ∧ reg t rUpdLr = w32 (leAt entry 0x14 4) ∧ reg t rUpdGnorm = w32 (leAt entry 0x18 4) ∧
      reg t rUpdClip = w32 (leAt entry 0x1C 4) ∧ reg t rUpdGradMul = w32 (leAt entry 0x20 4) ∧ reg64 t rUpdFinStep = n ∧
      t.upd.fin = .shadow ∧ (∀ q, t.upd.p2 = some q → q.step = n ∧ q.att = w64 (leAt entry 8 8) ∧ q.lr = w32 (leAt entry 0x14 4))) ∧
  (∀ s n entry, s.img.st ≠ .shadow ∨ s.upd.p2 ≠ none ∨ n ≠ s.step.ctr + 1 ∨ leAt entry 8 8 ≠ s.upd.shadowAtt.toNat ∨ s.upd.shadowGot = false →
    exec (.shadowUpdate n entry) s = .next s)

/-- R372, R374, R375. STATUS without READY darkens every feed, a GRID_OFS beyond 150 and a transfer that failed are events, and LS_FAULT_N turns off
each faulty feed. A feed that is lost parks its transmit rings and takes its channels out of service; one that is back for 100 ms lets its rings
acquire.
R313, R369, R370, R391. A codeword is counted; one that was corrected adds its symbols and delivers its packets, and one that was not counts as
uncorrectable and asks for its packets again.
Rests on the model's own choices and readings of log entries 48, 58 and 81. -/
def Obligations.LightAndCodewords : Prop :=
  ((∀ i st s, i = .lsIbi st ∨ i = .lsStatusPoll st → s.opt.present = true →
    (st = none → ∃ t, exec i s = .next t ∧ (rsReg t rLsErr).ev.getLsbD 5 = true ∧ changesOnly [.rs, .host, .out] s t) ∧
    (∀ w, st = some w → bitAt w 0 = true → ∃ t, exec i s = .next t ∧ t.opt = { s.opt with enabled := true, fault := s.opt.fault && bitAt w 1 } ∧
      (150 < (sext 16 (fld w 31 16)).natAbs → (rsReg t rLsErr).ev.getLsbD 4 = true) ∧ changesOnly [.opt, .rs, .host, .out] s t) ∧
    (∀ w, st = some w → bitAt w 0 = false → ∃ t, exec i s = .next t ∧ t.opt.enabled = false ∧ t.opt.feedOk = 0 ∧
      ∀ c j, c ∈ feedChans j → s.opt.feedOk.getLsbD j = true → (ring t ⟨c, false⟩).st = .parked)) ∧
  (∀ w ff s, s.opt.present = true → bitAt w 0 = true →
    ∃ t, exec (.lsFault w ff) s = .next t ∧ t.opt.fault = true ∧ (rsReg t rLsErr).ev.getLsbD 1 = true ∧
      t.opt.feedEn = s.opt.feedEn &&& ~~~(ff.setWidth 14) ∧ .lsWrite 0x12 t.opt.feedEn.toNat ∈ t.out ∧
      ∀ j, j < 14 → t.opt.feedOk.getLsbD j = (s.opt.feedOk.getLsbD j && !ff.getLsbD j)) ∧
  (∀ (j : Fin 14) s, s.opt.feedOk.getLsbD j.val = true →
    ∃ t, exec (.feedLoss j) s = .next t ∧ (∀ k, k < 14 → t.opt.feedOk.getLsbD k = (s.opt.feedOk.getLsbD k && decide (k ≠ j.val))) ∧
      (∀ c ∈ feedChans j.val, (ring t ⟨c, false⟩).st = .parked ∧ (serving s c = true → leftService t c)) ∧
      (∀ q, (q.rx = true ∨ q.ch ∉ feedChans j.val) → chanExists q.ch = true → ring t q = ring s q) ∧
      (rsReg t rLsErr).ev.getLsbD 2 = true ∧ (rsReg t (portWin (feedPort j.val) + rPortErr)).ev.getLsbD 2 = true ∧
      changesOnly [.out, .regs, .rs, .host, .fab, .opt] s t) ∧
  (∀ (j : Fin 14) s, s.opt.on = true → s.opt.feedOk.getLsbD j.val = false →
    ∃ t, exec (.feedReturn j) s = .next t ∧ t.opt.feedOk.getLsbD j.val = true ∧ (∀ c ∈ feedChans j.val, (ring t ⟨c, false⟩).st = .acquire) ∧
      (∀ q, (q.rx = true ∨ q.ch ∉ feedChans j.val) → chanExists q.ch = true → ring t q = ring s q) ∧ changesOnly [.opt] s t)) ∧
  ((∀ ch hdr n s, s.opt.on = true → chanExists ch = true → (ring s ⟨ch, true⟩).st = .locked → bitAt hdr 10 = false →
    ∃ t, exec (.codewordReceive ch hdr n false [] none) s = .next t ∧
      reg64 t (portWin ch.port.val + rFecCw) = reg64 s (portWin ch.port.val + rFecCw) + 1 ∧
      reg64 t (portWin ch.port.val + rFecSym) = reg64 s (portWin ch.port.val + rFecSym) + w64 n ∧ t.opt.rings = s.opt.rings ∧
      changesOnly [.regs, .opt] s t) ∧
  (∀ ch hdr n p s, s.opt.on = true → chanExists ch = true → (ring s ⟨ch, true⟩).st = .locked → bitAt hdr 10 = false → p.type = ptWrite →
    ∃ u t, exec (.codewordReceive ch hdr n false [p] none) s = .next t ∧ exec (.writePacket p ch) u = .next t ∧
      reg64 u (portWin ch.port.val + rFecCw) = reg64 s (portWin ch.port.val + rFecCw) + 1 ∧ changesOnly [.regs, .opt] s u) ∧
  (∀ ch hdr n p s, s.opt.on = true → chanExists ch = true → (ring s ⟨ch, true⟩).st = .locked →
    (SMap.get ({} : FecSec) s.opt.fec (chanNo ch)).unc < 16 →
    ∃ t, exec (.codewordReceive ch hdr n true [p] none) s = .next t ∧
      reg64 t (portWin ch.port.val + rFecCw) = reg64 s (portWin ch.port.val + rFecCw) + 1 ∧
      reg64 t (portWin ch.port.val + rFecUnc) = reg64 s (portWin ch.port.val + rFecUnc) + 1 ∧ t.fab = s.fab ∧
      t.out = .linkControl ⟨ch, (link s ch).rxNext - 1, [p.lsn], []⟩ :: s.out ∧ changesOnly [.regs, .opt, .out] s t) ∧
  (∀ ch hdr n s, s.opt.on = true → chanExists ch = true → (ring s ⟨ch, true⟩).st = .rest → bitAt hdr 10 = false →
    ∃ t, exec (.codewordReceive ch hdr n false [] none) s = .next t ∧ (ring t ⟨ch, true⟩).st = .locked ∧ otherRings ⟨ch, true⟩ s t) ∧
  (∀ ch hdr n s, s.opt.on = true → chanExists ch = true → (ring s ⟨ch, true⟩).st = .locked → bitAt hdr 10 = true →
    ∃ t, exec (.codewordReceive ch hdr n false [] none) s = .next t ∧ (ring t ⟨ch, true⟩).st = .rest ∧ otherRings ⟨ch, true⟩ s t))

/-- R376 to R382. An acquisition that finds a resonance goes to VERIFY with its heater and counts as a RELOCK after a loss; the ring's own tone locks
it; another tone is a MISLOCK and none a failed try, the fourth of which in a row fails the ring. A lost lock parks the ring and takes its channel
out of service; it parks at its calibrated value less the heat of 100 GHz. The heaters of a bank follow its temperature by k_T.
Rests on the model's own choices and readings of log entries 46, 47 and 81. -/
def Obligations.RingControl : Prop :=
  (∀ r h s, mayAcquire s r = true →
    ∃ t, exec (.ringAcquireDone r (some h)) s = .next t ∧ (ring t r).st = .verify ∧ (ring t r).heater = 900 * (h.toNat : Int) ∧
      (ring t r).relock = false ∧ ((ring s r).relock = true →
        reg t (portWin r.ch.port.val + rRelocks) = reg s (portWin r.ch.port.val + rRelocks) + 1) ∧ otherRings r s t ∧
      changesOnly [.opt, .regs] s t) ∧
  (∀ i r s, (i = .ringAcquireDone r none ∧ mayAcquire s r = true) ∨ (i = .ringVerifyDone r none ∧ (ring s r).st = .verify) →
    ∃ t, exec i s = .next t ∧ (ring t r).tries = (ring s r).tries + 1 ∧
      (ring t r).st = (if (ring s r).tries < 3 then .parked else .failed) ∧
      (3 ≤ (ring s r).tries → (rsReg t (portWin r.ch.port.val + rPortErr)).ev.getLsbD 4 = true) ∧ otherRings r s t ∧
      changesOnly [.opt, .regs, .rs, .host, .out] s t) ∧
  (∀ r s, (ring s r).st = .verify →
    ∃ t, exec (.ringVerifyDone r (some r.ch.lambda)) s = .next t ∧ ring t r = { ring s r with st := .locked, cal := (ring s r).heater, tries := 0 } ∧ otherRings r s t ∧
      changesOnly [.opt, .fab, .regs, .rs, .host, .out] s t) ∧
  (∀ i r w s, (i = .ringVerifyDone r (some w) ∧ (ring s r).st = .verify) ∨ (i = .ditherWindow r (some w) ∧ (ring s r).st = .locked) →
    w ≠ r.ch.lambda → (ring s r).mis = [] → (ring s r).tries < 3 →
    ∃ t, exec i s = .next t ∧ (ring t r).st = .parked ∧ (ring t r).relock = true ∧ (ring t r).mis = [s.clk] ∧
      (rsReg t (portWin r.ch.port.val + rPortErr)).ev.getLsbD 1 = true ∧ (serving s r.ch = true → leftService t r.ch) ∧ otherRings r s t ∧
      changesOnly [.opt, .fab, .regs, .rs, .host, .out] s t) ∧
  (∀ r w s, (ring s r).st = .locked → w ≠ r.ch.lambda →
    2 ≤ ((ring s r).mis.filter fun n => decide (s.clk < n + 10000000000)).length →
    ∃ t, exec (.ditherWindow r (some w)) s = .next t ∧ (ring t r).st = .failed) ∧
  (∀ r s, (ring s r).st = .locked → exec (.ditherWindow r (some r.ch.lambda)) s = .next s ∧ exec (.ditherWindow r none) s = .next s) ∧
  (∀ r s, (ring s r).st = .locked →
    ∃ t, exec (.lockLost r) s = .next t ∧ ring t r = { ring s r with st := .parked, heater := max 0 ((ring s r).cal - 1280000), relock := true } ∧
      (rsReg t (portWin r.ch.port.val + rPortErr)).ev.getLsbD 0 = true ∧ (serving s r.ch = true → leftService t r.ch) ∧ otherRings r s t ∧
      changesOnly [.opt, .fab, .regs, .rs, .host, .out] s t) ∧
  (∀ (port : Fin 6) (fib : Fin 16) rx temp s prev, fib.val < portFibres port.val → SMap.get none s.opt.bankT (bankNo port fib rx) = some prev →
    ∃ t, exec (.ringFeedforward port fib rx temp) s = .next t ∧ SMap.get none t.opt.bankT (bankNo port fib rx) = some temp ∧
      (∀ w h, (ring s ⟨⟨port, fib, w⟩, rx⟩).st = .locked →
        h = (ring s ⟨⟨port, fib, w⟩, rx⟩).heater - 128 * SMap.get 140 s.opt.kT (bankNo port fib rx) * (temp - prev) →
        2304000 ≤ h → h ≤ 43776000 → ring t ⟨⟨port, fib, w⟩, rx⟩ = { ring s ⟨⟨port, fib, w⟩, rx⟩ with
          heater := h
          cal := max 0 (min 46080000 ((ring s ⟨⟨port, fib, w⟩, rx⟩).cal - 128 * SMap.get 140 s.opt.kT (bankNo port fib rx) * (temp - prev))) }) ∧
      (∀ q, (∀ w, ringNo q ≠ ringNo ⟨⟨port, fib, w⟩, rx⟩) → ring t q = ring s q) ∧ changesOnly [.opt, .fab, .regs, .rs, .host, .out] s t)

/-- R383 to R385, R390. A channel of the line that rests next closes to new packets a round trip and 20 µs before its slot, and rests once its last packet is acknowledged; calibration that
ends returns it to service with its new heater and k_T, which go to the flash log; one with packets still out by +2,000 µs is skipped and counted.
At a rest slot the failed rings of its line are tried again. A receive fibre that is dark closes its transmit shutter, which opens for 2 ms every
500 ms and stays open when light returns.
Rests on the model's own choices and readings of log entries 46 and 47. -/
def Obligations.RestAndShutters : Prop :=
  (∀ ch s, serving s ch = true → ch.lambda.val = (restLine s + 1) % 16 →
    ∃ u t, exec (.restPrepare ch) s = .next t ∧ u = advance (4194304 - intoSlot s - (2 * Config.linkLatency (chanNo ch) + 20000)) s ∧ link t ch = { link s ch with closing := true } ∧
      (∀ c, chanNo c ≠ chanNo ch → link t c = link s c) ∧ changesOnly [.fab] u t) ∧
  (∀ (w : Lcw) ch s, w.naks = [] → s.fab.waiting = [] → (link s w.about).closing = true → (link s w.about).rest = false →
    (∀ u ∈ (link s w.about).unacked, serialAtOrBefore 16 u.pkt.lsn.toNat w.ack.toNat = true) → w.about.lambda.val = restLine s →
    SMap.get false s.opt.skip (chanNo w.about) = false → (ring s ⟨w.about, false⟩).st = .locked →
    ∃ t, exec (.linkControlWord w ch) s = .next t ∧ (link t w.about).rest = true ∧ (link t w.about).unacked = [] ∧
      (ring t ⟨w.about, false⟩).st = .rest ∧ otherRings ⟨w.about, false⟩ s t) ∧
  (∀ ch d h k s, (ring s ⟨ch, false⟩).st = .rest →
    ∃ t, exec (.restCalDone ch [d, h, k]) s = .next t ∧ (ring t ⟨ch, false⟩).st = .locked ∧
      (ring t ⟨ch, false⟩).heater = 900 * (h.toNat : Int) ∧ SMap.get 140 t.opt.kT (bankNo ch.port ch.fibre false) = (k.toNat : Int) ∧
      SMap.get [] t.flash.ringCal (ringNo ⟨ch, false⟩) = [d, h, k] ∧ (link t ch).rest = false ∧ (link t ch).closing = false ∧
      (40 < (sext 16 d.toNat).natAbs → (rsReg t (portWin ch.port.val + rPortErr)).ev.getLsbD 5 = true) ∧ otherRings ⟨ch, false⟩ s t ∧
      changesOnly [.out, .regs, .rs, .host, .fab, .opt, .flash] s t) ∧
  (∀ ch s, (link s ch).closing = true → (link s ch).rest = false → ch.lambda.val = restLine s → (link s ch).unacked ≠ [] →
    SMap.get false s.opt.skip (chanNo ch) = false → 2000000 ≤ intoSlot s →
    ∃ t, exec (.calSkip ch) s = .next t ∧ reg t (portWin ch.port.val + rCalSkip) = reg s (portWin ch.port.val + rCalSkip) + 1 ∧
      t.opt = { s.opt with skip := SMap.set false s.opt.skip (chanNo ch) true } ∧ changesOnly [.regs, .opt] s t) ∧
  (∀ (port : Fin 6) s, s.opt.on = true →
    ∃ u t, exec (.restSlot port) s = .next t ∧ u = advance ((4194304 - intoSlot s) % 4194304) s ∧ t.clk = u.clk ∧
      fld (reg t (portWin port.val + rPortStat)) 31 28 = restLine u ∧
      (∀ ch rx, ch ∈ lineChans port (restLine u) → (ring s ⟨ch, rx⟩).st = .failed →
        (ring t ⟨ch, rx⟩).st = .acquire ∧ (ring t ⟨ch, rx⟩).tries = 3)) ∧
  (∀ (port : Fin 6) (fib : Fin 16) s, s.opt.on = true → fib.val < portFibres port.val → SMap.get 1 s.opt.closed (shutNo port fib) = 0 →
    ∃ t, exec (.shutterClose port fib) s = .next t ∧ SMap.get 1 t.opt.closed (shutNo port fib) = s.clk + 500000001 ∧
      (∀ c ∈ fibreChans port fib, SMap.get false t.opt.lol (chanNo c) = true ∧ (serving s c = true → leftService t c)) ∧
      (rsReg t (portWin port.val + rPortErr)).ev.getLsbD 6 = true ∧ changesOnly [.opt, .fab, .regs, .rs, .host, .out] s t) ∧
  (∀ (port : Fin 6) (fib : Fin 16) s n, s.opt.on = true → fib.val < portFibres port.val →
    SMap.get 1 s.opt.closed (shutNo port fib) = n + 1 →
    ∃ t, exec (.shutterProbe port fib) s = .next t ∧ t.clk = max s.clk n ∧ SMap.get 0 t.opt.openUntil (shutNo port fib) = t.clk + 2000000 ∧
      SMap.get 1 t.opt.closed (shutNo port fib) = t.clk + 500000001 ∧ shutClosed t (shutNo port fib) = false ∧
      changesOnly [.opt] (advanceTo n s) t) ∧
  (∀ (port : Fin 6) (fib : Fin 16) s, s.opt.on = true → fib.val < portFibres port.val →
    ∃ t, exec (.shutterOpen port fib) s = .next t ∧ SMap.get 1 t.opt.closed (shutNo port fib) = 0 ∧ shutClosed t (shutNo port fib) = false ∧
      (∀ c ∈ fibreChans port fib, SMap.get false t.opt.lol (chanNo c) = false) ∧ t.opt.rings = s.opt.rings ∧
      changesOnly [.opt, .fab, .regs, .rs, .host, .out] s t)

/-- R396, R397, R403 to R405, R409. A flit that is whole and next is taken, and its ACK frees the flits of the other direction; any other is met with
NAK. NAK replays the unacknowledged flits, and the eighth replay begins a retrain. A failing lane is named for a steer, or with no spare for a
retrain; a steer gives its role to the lowest spare and logs it. A retrain plans the roles of the lanes that pass, counts a width that halved and
replays the flits.
Rests on the model's own choices and readings of log entries 49 and 81. -/
def Obligations.DieLinkFlits : Prop :=
  (∀ (g : Fin 688) chk data s, grpWidth (grp s g.val) ≠ 2 → (grp s g.val).retrainAt = none → fld chk 31 16 = crc16 data →
    fld chk 15 10 = (grp s g.val).rxNext.toNat → fld chk 3 0 ≠ 1 →
    ∃ t, exec (.flitReceive g chk data) s = .next t ∧ (grp t g.val).rxNext = (grp s g.val).rxNext + 1 ∧
      (∀ n, n = (BitVec.ofNat 6 (fld chk 9 4) + 1 - (grp s (revDir g.val)).acked).toNat → 0 < n →
        n ≤ ((grp s (revDir g.val)).sent - (grp s (revDir g.val)).acked).toNat →
        (grp t (revDir g.val)).acked = BitVec.ofNat 6 (fld chk 9 4) + 1 ∧ (grp t (revDir g.val)).replays = 0) ∧ changesOnly [.dl] s t) ∧
  (∀ (g : Fin 688) chk data s, grpWidth (grp s g.val) ≠ 2 → (grp s g.val).retrainAt = none →
    fld chk 31 16 ≠ crc16 data ∨ fld chk 15 10 ≠ (grp s g.val).rxNext.toNat →
    ∃ t, exec (.flitReceive g chk data) s = .next t ∧ (grp t g.val).rxNext = (grp s g.val).rxNext ∧
      t.out = .flitCmd (revDir g.val) 1 0 :: s.out ∧ changesOnly [.dl, .out] s t) ∧
  (∀ (g : Fin 688) s, (grp s g.val).sent ≠ (grp s g.val).acked → (grp s g.val).replays ≠ 7 →
    ∃ t, exec (.flitNak g) s = .next t ∧ grp t g.val = { grp s g.val with replays := (grp s g.val).replays + 1 } ∧
      reg64 t rFlitRetry = reg64 s rFlitRetry + 1 ∧ (rsReg t rLinkErr).ev.getLsbD 0 = true ∧
      (∀ f ∈ unackedFlits (grp s g.val), .flit g.val f.toNat ∈ t.out) ∧ changesOnly [.dl, .regs, .rs, .host, .out] s t) ∧
  (∀ (g : Fin 688) s, (grp s g.val).sent ≠ (grp s g.val).acked → (grp s g.val).replays = 7 → 3 ≤ s.dl.level →
    ∃ t, exec (.flitNak g) s = .next t ∧ (grp t g.val).retrainAt = some (s.clk + 25000) ∧ .flitCmd g.val 3 127 ∈ t.out ∧
      changesOnly [.dl, .regs, .rs, .host, .out] s t) ∧
  (∀ (g : Fin 688), revDir g.val < 688 ∧ revDir (revDir g.val) = g.val ∧ revDir g.val ≠ g.val)

/-- R398, R399, R401, R403 to R405, R409. A steer moves the role of a lane to the spare and logs the lane; a retrain holds the group-direction for at
most 25 µs and below feature level 3 takes it OUT. A lane that fails with no spare is OFF and asks for a retrain, and one that fails during a
retrain is scored failed. After it, a lane that did not pass is OFF, and of the lanes that pass 64, 32 or none carry data.
A recalibration lends the role of a lane to a spare for 50 µs and gives it back. -/
def Obligations.DieLinkLanes : Prop :=
  (∀ (g : Fin 688) (lane : Fin 68) s sp, (laneRole (grp s g.val) lane.val).carries = true → 2 ≤ s.dl.level →
    takingSpare (grp s g.val) = some sp →
    ∃ t, exec (.laneSteer g lane) s = .next t ∧ laneRole (grp t g.val) sp = laneRole (grp s g.val) lane.val ∧
      laneRole (grp t g.val) lane.val = .off 4 ∧
      (∀ l, l ≠ sp → l ≠ lane.val → laneRole (grp t g.val) l = laneRole (grp s g.val) l) ∧
      (grp t g.val).replays = 0 ∧ (∀ h, h ≠ g.val → grp t h = grp s h) ∧ reg t rLinkSteers = reg s rLinkSteers + 1 ∧
      (rsReg t rLinkErr).ev.getLsbD 1 = true ∧
      SMap.get 0 t.flash.lanes (68 * g.val + lane.val) = SMap.get 0 s.flash.lanes (68 * g.val + lane.val) + 1) ∧
  (∀ (g : Fin 688) (lane : Fin 68) s, (laneRole (grp s g.val) lane.val).carries = true → 3 ≤ s.dl.level →
    takingSpare (grp s g.val) = none →
    ∃ t, exec (.laneSteer g lane) s = .next t ∧ t.out = .flitCmd (revDir g.val) 3 lane.val :: s.out ∧
      grp t g.val = { grp s g.val with lanes := (grp s g.val).lanes.set lane.val (.off 4) } ∧ (∀ h, h ≠ g.val → grp t h = grp s h) ∧
      SMap.get 0 t.flash.lanes (68 * g.val + lane.val) = SMap.get 0 s.flash.lanes (68 * g.val + lane.val) + 1 ∧
      changesOnly [.out, .flash, .dl] s t) ∧
  (∀ (g : Fin 688) s, grpWidth (grp s g.val) ≠ 2 → (grp s g.val).retrainAt = none → 3 ≤ s.dl.level →
    ∃ t, exec (.laneRetrain g) s = .next t ∧ grp t g.val = { grp s g.val with retrainAt := some (s.clk + 25000), recal := none } ∧
      (∀ h, h ≠ g.val → grp t h = grp s h) ∧ changesOnly [.dl] s t) ∧
  (∀ (g : Fin 688) s, grpWidth (grp s g.val) ≠ 2 → (grp s g.val).retrainAt = none → s.dl.level < 3 →
    ∃ t, exec (.laneRetrain g) s = .next t ∧ grpWidth (grp t g.val) = 2 ∧ (rsReg t rLinkErr).ev.getLsbD 3 = true ∧
      ∀ l, l < 68 → (laneRole (grp t g.val) l).isOff = true) ∧
  (∀ (g : Fin 688) (lane : Fin 68) m s sp, (grp s g.val).recal = none → (grp s g.val).retrainAt = none →
    (laneRole (grp s g.val) lane.val).carries = true → 2 ≤ s.dl.level → takingSpare (grp s g.val) = some sp →
    ∃ t, exec (.laneFailing g lane m) s = .next t ∧ t.out = .flitCmd (revDir g.val) 2 lane.val :: s.out ∧
      grp t g.val = { grp s g.val with cause := if m then 2 else 3 } ∧ (∀ h, h ≠ g.val → grp t h = grp s h) ∧
      reg t rLinkErrInfo = w32 (g.val * 2 ^ 22 + lane.val * 2 ^ 15 + (if m then 2 else 3) * 2 ^ 11) ∧
      changesOnly [.out, .regs, .dl] s t) ∧
  (∀ (g : Fin 688) (lane : Fin 68) m s n, (grp s g.val).recal = none → (grp s g.val).retrainAt = some n →
    (laneRole (grp s g.val) lane.val).isOff = false →
    ∃ t, exec (.laneFailing g lane m) s = .next t ∧ laneRole (grp t g.val) lane.val = .off 4 ∧
      SMap.get 0 t.flash.lanes (68 * g.val + lane.val) = SMap.get 0 s.flash.lanes (68 * g.val + lane.val) + 1 ∧
      changesOnly [.flash, .dl] s t) ∧
  (∀ (g : Fin 688) (lane : Fin 68) m s, (grp s g.val).recal = none → (grp s g.val).retrainAt = none →
    (laneRole (grp s g.val) lane.val).carries = true → 3 ≤ s.dl.level → takingSpare (grp s g.val) = none →
    ∃ t, exec (.laneFailing g lane m) s = .next t ∧ t.out = .flitCmd (revDir g.val) 3 lane.val :: s.out ∧
      laneRole (grp t g.val) lane.val = .off 4 ∧ (∀ l, l ≠ lane.val → laneRole (grp t g.val) l = laneRole (grp s g.val) l) ∧
      SMap.get 0 t.flash.lanes (68 * g.val + lane.val) = SMap.get 0 s.flash.lanes (68 * g.val + lane.val) + 1 ∧
      changesOnly [.out, .regs, .flash, .dl] s t) ∧
  (∀ (g : Fin 688) good s n, (grp s g.val).retrainAt = some n →
    ∃ t, exec (.retrainDone g good) s = .next t ∧ (grp t g.val).retrainAt = none ∧ (grp t g.val).replays = 0 ∧
      (∀ l, l < 68 → good.getLsbD l = false → (laneRole (grp t g.val) l).isOff = true) ∧
      (∀ l r, l < 68 → laneRole (grp s g.val) l = .off r → laneRole (grp t g.val) l = .off r) ∧
      (∀ f ∈ unackedFlits (grp s g.val), .flit g.val f.toNat ∈ t.out) ∧
      (grpWidth (grp s g.val) = 0 → grpWidth (grp t g.val) = 1 → reg t rLinkHalves = reg s rLinkHalves + 1 ∧
        (rsReg t rLinkErr).ev.getLsbD 2 = true)) ∧
  (∀ good why, 65 ≤ ((List.range 68).filter good).length → dataLanes { lanes := planRoles good (fun _ => false) why } = 64 ∧
    (lanesWhere { lanes := planRoles good (fun _ => false) why } fun r => decide (r = .check)).length = 1 ∧
    (lanesWhere { lanes := planRoles good (fun _ => false) why } LaneRole.isSpare).length = ((List.range 68).filter good).length - 65) ∧
  (∀ good why, 33 ≤ ((List.range 68).filter good).length → ((List.range 68).filter good).length < 65 →
    dataLanes { lanes := planRoles good (fun _ => false) why } = 32 ∧
    (lanesWhere { lanes := planRoles good (fun _ => false) why } fun r => decide (r = .check)).length = 1 ∧
    (lanesWhere { lanes := planRoles good (fun _ => false) why } LaneRole.isSpare).length = ((List.range 68).filter good).length - 33) ∧
  (∀ good why, ((List.range 68).filter good).length < 33 → ∀ l, (laneRole { lanes := planRoles good (fun _ => false) why } l).isOff = true) ∧
  (∀ (g : Fin 688) (lane : Fin 68) s sp, (grp s g.val).recal = none → (grp s g.val).retrainAt = none →
    (laneRole (grp s g.val) lane.val).carries = true → takingSpare (grp s g.val) = some sp →
    ∃ t, exec (.laneRecal g lane) s = .next t ∧ (grp t g.val).recal = some ⟨lane.val, sp, s.clk + 50000⟩ ∧
      laneRole (grp t g.val) sp = laneRole (grp s g.val) lane.val ∧ laneRole (grp t g.val) lane.val = laneRole (grp s g.val) sp ∧
      t.out = .flitCmd g.val 4 lane.val :: s.out ∧ (∀ h, h ≠ g.val → grp t h = grp s h) ∧ changesOnly [.dl, .out] s t) ∧
  (∀ (g : Fin 688) r s, (grp s g.val).recal = some r → r.lane < 68 → r.spare < 68 → (grp s g.val).lanes.length = 68 →
    ∃ t, exec (.laneRecalDone g) s = .next t ∧ t.clk = max s.clk r.ends ∧ (grp t g.val).recal = none ∧
      laneRole (grp t g.val) r.lane = laneRole (grp s g.val) r.spare ∧ laneRole (grp t g.val) r.spare = laneRole (grp s g.val) r.lane ∧
      (∀ h, h ≠ g.val → grp t h = grp s h) ∧
      (t.dl.swept ≠ [] → SMap.get false t.dl.swept (68 * g.val + r.lane) = true))

/-- R418, R421, R424, R455. ROM takes the preferred firmware copy, else the other with FW_FALLBACK, else ends in ROM_RECOVERY; a copy passes by
its signature and by its header in flash (R425). PLATFORM does likewise, or ends in MGMT_ONLY with PI_BAD: the image in use has a bound key
slot, an SVN at or above its counter and P_MAX in its range (refusal by P_MAX is the model's choice, log entry 81). The AON and MSD muxes move to a stable crystal; without one in 100 ms the start ends in MGMT_ONLY with CLOCK.
CLOCKS opens the early windows and takes the straps. A stage ends only in its turn.
Rests on the model's own choices and readings of log entries 60 and 81. -/
def Obligations.StartFromFlash : Prop :=
  (∀ s i k need, stageOf i = some (k, need) → stageDue s k need = false → exec i s = .next s) ∧
  (∀ aOk bOk s b, startAt s (.startRom aOk bOk) →
    copyTaken ((bootRecord s.flash).elim false (·.fwB)) (aOk && fwOk s (fwBase false)) (bOk && fwOk s (fwBase true)) = some b →
    ∃ t, exec (.startRom aOk bOk) s = .next t ∧ passed t stRom = true ∧ t.start.fwB = b ∧
      (b ≠ (bootRecord s.flash).elim false (·.fwB) → startNoted t 2) ∧ (bootRecord s.flash = none → startNoted t 10) ∧
      changesOnly [.out, .rs, .host, .start] s t) ∧
  (∀ aOk bOk s, startAt s (.startRom aOk bOk) → (aOk && fwOk s (fwBase false)) = false → (bOk && fwOk s (fwBase true)) = false →
    ∃ t, exec (.startRom aOk bOk) s = .next t ∧ t.start.fin = .romRecovery ∧
    stageCode t = 12 ∧ (passed s stClocks = false → hostOpen t = false) ∧ (bootRecord s.flash = none → startNoted t 10) ∧ changesOnly [.out, .rs, .host, .start] s t) ∧
  (∀ a b s c p, startAt s (.startPlatform a b) →
    copyTaken ((bootRecord s.flash).elim false (·.piB)) (platCopy s false a).isSome (platCopy s true b).isSome = some c →
    platCopy s c (if c = true then b else a) = some p →
    ∃ t, exec (.startPlatform a b) s = .next t ∧ passed t stPlatform = true ∧ t.plat = some p ∧ t.start.piB = c ∧
      (c ≠ (bootRecord s.flash).elim false (·.piB) → startNoted t 3) ∧ changesOnly [.out, .rs, .host, .plat, .start] s t) ∧
  (∀ s c x p, platCopy s c x = some p → slotState s p.keySlot = .bound ∧ s.otp.ctrs[1] ≤ p.svn ∧ 1000 ≤ p.pMax ∧ p.pMax ≤ 4400 ∧
    p.keySlot = flashNat s (piBase c + 7) 1 ∧ p.svn = flashNat s (piBase c + 8) 4 ∧ platHeader s (piBase c) = true) ∧
  (∀ a b s, startAt s (.startPlatform a b) → platCopy s false a = none → platCopy s true b = none →
    ∃ u, exec (.startPlatform a b) s = .next (signalUnit u 1) ∧ u.start.fin = .mgmtOnly ∧ startNoted u 4 ∧ startNoted u 0 ∧
      changesOnly [.out, .rs, .host, .start] s u) ∧
  (∀ s, passed s stPower = true → s.clocks.xtal ≠ .stable → s.clocks.failAt = none →
    ∃ t, exec .xtalStable s = .next t ∧ t.clocks.xtal = .stable ∧ (mux t 57).src = srcCrystal ∧ (mux t 58).src = srcCrystal ∧
      (∀ k, k ≠ 57 → k ≠ 58 → mux t k = mux s k) ∧ changesOnly [.clocks] s t) ∧
  (∀ s, s.start.fin = .running → passed s stPower = true → passed s stClocks = false → s.clocks.xtal ≠ .stable →
    ∃ u, exec .xtalTimeout s = .next (signalUnit u 1) ∧ u.clk = max s.clk (s.start.began + 100000000) ∧ u.start.fin = .mgmtOnly ∧
      startNoted u 9 ∧ startNoted u 0) ∧
  (∀ r1 s1 r2 s2 s p, startAt s (.startClocks r1 s1 r2 s2) → s.clocks.xtal = .stable → s.plat = some p →
    ∃ t, exec (.startClocks r1 s1 r2 s2) s = .next t ∧ passed t stClocks = true ∧ (∀ o, inEarly o = true → windowOpen t o = true) ∧
      (∀ k, k < 58 → (mux t k).src = srcPll) ∧ (mux t 58).src = srcCrystal ∧ t.start.strapOk = (decide (r1 = r2) && decide (s1 = s2)) ∧
      t.start.rack = r2.toNat ∧ t.start.slot = s2.toNat ∧ changesOnly [.regs, .start, .clocks] s t) ∧
  (∀ i s, stageOf i = some (3, [2]) → s.clocks.xtal ≠ .stable → exec i s = .next s)

/-- R408, R410, R399, R400, R406. The feature level is the lowest of the firmware's and of every die's level in the matrix. A die that is unlisted,
bad or out of place, a level below MIN_LEVEL or level 0 ends the start in MGMT_ONLY. DIE_LINKS gives each group-direction the width of R399 from
its good lanes and turns the others off; a Plinth bundle that is DOWN keeps its die out of service.
Rests on the model's own choices and readings of log entries 49 and 56. -/
def Obligations.IdentityAndDieLinks : Prop :=
  (∀ rs s p, startAt s (.startIdentity rs) → s.plat = some p → (∀ i, i < 32 → recFault s i (rs.getD i 0) = 0) →
    (∀ i l, i < 32 → matrixLevel s (rs.getD i 0) = some l → 1 ≤ l ∧ p.minLevel ≤ l) → p.minLevel ≤ 3 →
    ∃ t, exec (.startIdentity rs) s = .next t ∧ passed t stIdentity = true ∧ t.dl.level ≤ 3 ∧
      (∀ i l, i < 32 → matrixLevel s (rs.getD i 0) = some l → t.dl.level ≤ l) ∧
      (t.dl.level = 3 ∨ ∃ i, i < 32 ∧ matrixLevel s (rs.getD i 0) = some t.dl.level) ∧
      fld (reg t rIdLevel) 31 28 = t.dl.level % 16 ∧ changesOnly [.out, .regs, .rs, .host, .dl, .start] s t) ∧
  (∀ rs s i, startAt s (.startIdentity rs) → i < 32 → recFault s i (rs.getD i 0) ≠ 0 →
    ∃ u, exec (.startIdentity rs) s = .next (signalUnit u 1) ∧ u.start.fin = .mgmtOnly ∧ startNoted u 5 ∧ u.dl = s.dl ∧
      (rsReg u rIdErr).ev.getLsbD (recFault s i (rs.getD i 0) - 1) = true) ∧
  (∀ rs s p i l, startAt s (.startIdentity rs) → s.plat = some p → (∀ j, j < 32 → recFault s j (rs.getD j 0) = 0) →
    i < 32 → matrixLevel s (rs.getD i 0) = some l → l = 0 ∨ l < p.minLevel →
    ∃ u, exec (.startIdentity rs) s = .next (signalUnit u 1) ∧ u.start.fin = .mgmtOnly ∧ startNoted u 5 ∧ u.dl = s.dl ∧
      (rsReg u rIdErr).ev.getLsbD 3 = true) ∧
  (∀ bad s, startAt s (.startDieLinks bad) →
    ∃ t, exec (.startDieLinks bad) s = .next t ∧ passed t stDieLinks = true ∧
      (∀ g, g < 688 → (∀ l, l < 68 → SMap.get 0 s.flash.lanes (68 * g + l) ≠ 1) →
        dataLanes (grp t g) = goodWidth ((List.range 68).filter fun l => (laneWhy s bad g l).isNone).length) ∧
      (∀ g l r, g < 688 → l < 68 → laneWhy s bad g l = some r → laneRole (grp t g) l = .off r) ∧
      (∀ d : Die, bundleDown t (24 + d.val) 0 = true ∨ bundleDown t (24 + d.val) 1 = true → (die t d).out = true) ∧
      (∀ d : Die, bundleDown t (24 + d.val) 0 = false → bundleDown t (24 + d.val) 1 = false → die t d = die s d) ∧
      changesOnly [.out, .regs, .rs, .host, .dies, .dl, .flash, .start] s t)

/-- R416, R429, R248, R374, R346. MEMORY keeps HBM contents, and with them the channels in service, only under the three conditions of a WARM start
and where no channel in service before fails training (read from R240 and R258, log entry 76), else they are lost; a stack that is not of the kind the
variant takes fails (R234). SELFTEST holds
failing dies out of service. OPTICS settles the module's identity from its straps and either leaves the optics dark or lights, acquires and opens; every ring parks first.
READY opens every window, frees the dies in service from reset and signals object 1.
Rests on the model's own choices and readings of log entries 57, 58, 59, 76 and 81. -/
def Obligations.StartToReady : Prop :=
  (∀ pts sr bad s p, startAt s (.startMemory pts sr bad) → s.plat = some p →
    ∃ t, exec (.startMemory pts sr bad) s = .next t ∧ passed t stMemory = true ∧
      (t.start.kept = true ↔ s.start.warm = true ∧ s.start.keepable = true ∧ sr = true ∧ s.flash.memDigest = some p.memDigest ∧
        ∀ n : Stack, s.start.wasIn.getLsbD n.val = true → ((pts[n.val]?).bind (·.point)).isSome = true ∧ (pts[n.val]?).map (·.id) = some (wantedId s) ∧
          ∀ c : Fin 32, (n, c) ∈ bad → (wasOut s n).getLsbD c.val = true) ∧
      (t.start.kept = true → sameContents s t ∧ ∀ n : Stack, t.mem.st[n].chanOut = wasOut s n) ∧
      (t.start.kept = false → t.mem.hbm = [] ∧ t.mem.poison = [] ∧ t.mem.ue = [] ∧ t.mem.ce = [] ∧ (s.start.warm = true → startNoted t 1)) ∧
      (∀ n : Stack, ((pts[n.val]?).bind (·.point)).isNone = true ∨ (pts[n.val]?).map (·.id) ≠ some (wantedId s) → t.mem.st[n].inService = false) ∧
      t.flash.memDigest = some p.memDigest ∧ (∀ d, (die t d).ts = []) ∧ changesOnly [.out, .regs, .rs, .host, .dies, .mem, .flash, .start] s t) ∧
  (∀ f s, startAt s (.startSelftest f) →
    ∃ t, exec (.startSelftest f) s = .next t ∧ passed t stSelftest = true ∧
      (∀ d : Die, (die t d).out = (f.getLsbD d.val || (die s d).out) ∧ (die t d).coreReset = (f.getLsbD d.val || (die s d).coreReset) ∧
        (die t d).ts = []) ∧
      (f ≠ 0 → startNoted t 7) ∧ reg t rSelftest = w32 ((if f = 0 then 1 else 0) * 2 ^ 29 + f.toNat) ∧ t.mem = s.mem ∧
      changesOnly [.out, .regs, .rs, .host, .dies, .flash, .start] s t) ∧
  (∀ ls fs bad s p, startAt s (.startOptics ls fs bad) → s.plat = some p →
    ∃ t, exec (.startOptics ls fs bad) s = .next t ∧ passed t stOptics = true ∧
      t.fab.settled = (s.start.strapOk && positionOk s p) ∧
      t.fab.modId = (if t.fab.settled = true then modIdOf s.start.rack s.start.slot else 0xFFFF) ∧ t.fab.timers = p.timers ∧ t.fab.cur = 0 ∧
      t.fab.rack[(0 : Fin 2)] = maskTable rackMask p.rackTable ∧ t.fab.dim[(0 : Fin 2)] = maskTable dimMask p.dimTable ∧
      (ls = none → startNoted t 6 ∧ t.opt = { s.opt with rings := t.opt.rings } ∧ (rsReg t rLsErr).ev.getLsbD 0 = true) ∧
      (∀ w, ls = some w → fld w 31 16 ≠ 1 → startNoted t 6 ∧ t.opt = { s.opt with rings := t.opt.rings } ∧
        (rsReg t rLsErr).ev.getLsbD 6 = true) ∧
      (t.opt.on = false → ∀ r : Ring, chanExists r.ch = true → (ring t r).st = .parked) ∧
      (∀ w, ls = some w → fld w 31 16 = 1 → .lsEn true ∈ t.out) ∧
      (∀ w, ls = some w → fld w 31 16 = 1 → bitAt w 0 = false → startNoted t 6 ∧ t.opt.enabled = s.opt.enabled) ∧
      (∀ w, ls = some w → fld w 31 16 = 1 → bitAt w 0 = true → t.opt.on = true ∧ t.opt.enabled = true ∧
        ∀ r : Ring, chanExists r.ch = true → r ∈ bad → (ring t r).st = .failed)) ∧
  (∀ s ok, startAt s (.startReplay ok) → s.start.kept = false →
    ∃ t, exec (.startReplay ok) s = .next t ∧ t.upd = s.upd ∧ t.start.passed.getLsbD 9 = true ∧ changesOnly [.start] s t) ∧
  (∀ s img, startAt s (.startReplay false) → s.start.kept = true → s.flash.active = some img →
    journalState { s with upd := { s.upd with replay := some img } } = 1 →
    ∃ u, exec (.startReplay false) s = .next (signalUnit u 4) ∧ startNoted u 8 ∧ u.start.replayFail = true ∧ u.upd = s.upd) ∧
  (∀ s img, startAt s (.startReplay true) → s.start.kept = true → s.flash.active = some img →
    journalState { s with upd := { s.upd with replay := some img } } = 1 →
    ∃ t q, exec (.startReplay true) s = .next t ∧ t.upd.replay = some img ∧ t.upd.p2 = some q ∧ t.upd.fin = .replay ∧
      q.step = w64 (peekNat s (journalAt { s with upd := { s.upd with replay := some img } }) 8) ∧ passed t stReplay = false ∧
      t.mem = s.mem ∧ changesOnly [.regs, .upd, .start] s t) ∧
  (∀ s, startAt s .startReady →
    ∃ u, exec .startReady s = .next (signalUnit u 1) ∧ u.start.fin = .ready ∧ stageCode u = 10 ∧ (∀ o, windowOpen u o = true) ∧
      startNoted u 0 ∧ (∀ d, die u d = { die s d with coreReset := (die s d).out }) ∧ u.mem = s.mem ∧ u.fab = s.fab ∧ u.opt = s.opt ∧
      changesOnly [.out, .rs, .host, .dies, .flash, .start, .pwr, .tel] s u)

/-- R456, R459, R460, R463. A failing crystal moves the AON and MSD muxes to the internal oscillator and stops the image. A mux switch is forced
after 20 µs; where the source fails too, a CORE domain takes its die out of service by the CORE reset that CORE_RESET makes (`dieOut`), and any other
causes a WARM reset by the watchdog. A die runs at the slower of the common target, its own limit point and what its stack's band allows, at the voltage of that point (R461).
Rests on the model's own choices and readings of log entry 52. -/
def Obligations.ClocksAndMuxes : Prop :=
  (∀ s, s.clocks.xtal = .stable →
    ∃ t, exec .xtalFail s = .next t ∧ t.clocks.xtal = .failed ∧ t.clocks.failAt = some s.clk ∧ (mux t 57).src = srcInternal ∧
      (mux t 58).src = srcInternal ∧ (∀ k, k ≠ 57 → k ≠ 58 → mux t k = mux s k) ∧ clkNoted t 0 ∧ stopAsked s t ∧
      changesOnly [.out, .rs, .host, .step, .img, .clocks] s t) ∧
  (∀ (dom : Fin 59) (src : Fin 8) s, passed s stPower = true → (mux s dom.val).dead = false →
    ∃ t, exec (.muxSwitch dom src) s = .next t ∧ (mux t dom.val).src = src.val ∧ (mux t dom.val).reqAt = some s.clk ∧
      (∀ k, k ≠ dom.val → mux t k = mux s k) ∧ changesOnly [.clocks] s t) ∧
  (∀ (dom : Fin 59) s n, (mux s dom.val).reqAt = some n →
    ∃ t, exec (.muxForced dom) s = .next t ∧ t.clk = max s.clk (n + 20000) ∧ (mux t dom.val).forced = true ∧
      (mux t dom.val).src = (mux s dom.val).src ∧ (∀ k, k ≠ dom.val → mux t k = mux s k) ∧ clkNoted t 1 ∧
      fld (reg t rMuxInfo) 31 26 = dom.val ∧ bitAt (reg t rMuxInfo) 25 = false ∧
      changesOnly [.out, .regs, .rs, .host, .clocks] (advanceTo (n + 20000) s) t) ∧
  (∀ (dom : Fin 59) s n (h : dom.val < 24), (mux s dom.val).reqAt = some n → (mux s dom.val).forced = true →
    ∃ u, exec (.muxDead dom) s = .next (dieOut u ⟨dom.val, h⟩) ∧ (mux u dom.val).dead = true ∧ clkNoted u 2 ∧
      fld (reg u rMuxInfo) 31 26 = dom.val ∧ bitAt (reg u rMuxInfo) 25 = true ∧
      changesOnly [.out, .regs, .rs, .host, .clocks] (advanceTo (n + 20000) s) u) ∧
  (∀ d s, exec (.coreReset d) s = .next (dieOut s d)) ∧
  (∀ (dom : Fin 59) s n, 24 ≤ dom.val → (mux s dom.val).reqAt = some n → (mux s dom.val).forced = true →
    ∃ t, exec (.muxDead dom) s = .next t ∧ warmStarted 3 (advanceTo (n + 20000) s) t) ∧
  (∀ d s, passed s stClocks = true → (die s d).coreReset = false →
    ∃ t, exec (.dvfsChange d) s = .next t ∧ otherClocks d s t ∧ changesOnly [.clocks] s t ∧
      t.clocks.dies[d] = { s.clocks.dies[d] with
        point := max (commonTarget s) (max s.clocks.dies[d].limit (bandLimit s d))
        volts := pointVolts s (max (commonTarget s) (max s.clocks.dies[d].limit (bandLimit s d))) })

/-- R465, R466. A die's stretch level follows its reading; from 104.0 °C, or without a valid reading for 10 ms, it leaves service with CD_TRIP. Three
readings failed give level 3. The stack's band limits the die's point. The limit point falls for each millisecond of stretch and rises after 20 ms below 90.0 °C. The other dies report
100.0 °C and stop the image at 104.0 °C.
Rests on the model's own choices and readings of log entry 53. -/
def Obligations.DieTemperatures : Prop :=
  (∀ d x s, passed s stClocks = true → x < threshold s 3 →
    ∃ t, exec (.cdTempRead d (some x)) s = .next t ∧ otherClocks d s t ∧ t.clocks.dies[d].temp = x ∧ t.clocks.dies[d].fails = 0 ∧
      t.clocks.dies[d].lastValid = s.clk ∧ t.clocks.dies[d].limit = s.clocks.dies[d].limit ∧ t.clocks.dies[d].point = s.clocks.dies[d].point ∧
      t.clocks.dies[d].therm =
        (if threshold s 0 ≤ x then min 4 (1 + ((x - threshold s 0) / 20).toNat)
         else if threshold s 1 < x ∧ s.clocks.dies[d].therm ≠ 0 then 1 else 0) ∧
      (t.clocks.dies[d].therm = 0 → t.clocks.dies[d].hotAt = none) ∧
      (t.clocks.dies[d].therm ≠ 0 → t.clocks.dies[d].coolAt = none ∧
        (s.clocks.dies[d].therm = 0 → t.clocks.dies[d].hotAt = some s.clk ∧ clkNoted t 3) ∧
        (s.clocks.dies[d].therm ≠ 0 → t.clocks.dies[d].hotAt = s.clocks.dies[d].hotAt)) ∧
      (threshold s 2 < x → t.clocks.dies[d].coolAt = none) ∧ changesOnly [.out, .rs, .host, .clocks] s t) ∧
  (∀ s, s.plat = none → threshold s 0 = 950 ∧ threshold s 1 = 930 ∧ threshold s 2 = 900 ∧ threshold s 3 = 1040) ∧
  (∀ s k, (threshold s k ≤ [950, 930, 900, 1040].getD k 0) ∧ ([950, 930, 900, 1040].getD k 0 - 100 ≤ threshold s k)) ∧
  (∀ d x s, passed s stClocks = true → threshold s 3 ≤ x → (die s d).out = false →
    ∃ u, exec (.cdTempRead d (some x)) s = .next (dieOut u d) ∧ clkNoted u 5 ∧ otherClocks d s u ∧ changesOnly [.out, .rs, .host, .clocks] s u) ∧
  (∀ d s, passed s stClocks = true → s.clocks.dies[d].fails ≠ 2 →
    ∃ t, exec (.cdTempRead d none) s = .next t ∧ otherClocks d s t ∧ changesOnly [.clocks] s t ∧
      t.clocks.dies[d] = { s.clocks.dies[d] with fails := s.clocks.dies[d].fails + 1 }) ∧
  (∀ d s, passed s stClocks = true → s.clocks.dies[d].fails = 2 →
    ∃ t, exec (.cdTempRead d none) s = .next t ∧ otherClocks d s t ∧ t.clocks.dies[d].therm = 3 ∧ clkNoted t 7 ∧
      changesOnly [.out, .rs, .host, .clocks] s t) ∧
  (∀ d s, s.clocks.dies[d].fails ≠ 0 → (die s d).out = false →
    ∃ u, exec (.cdSensorTimeout d) s = .next (dieOut u d) ∧ u.clk = max s.clk (s.clocks.dies[d].lastValid + 10000000) ∧ clkNoted u 5) ∧
  (∀ d s n, s.clocks.dies[d].hotAt = some n →
    ∃ t, exec (.stretchLimitDown d) s = .next t ∧ t.clk = max s.clk (n + 1000000) ∧ otherClocks d s t ∧
      t.clocks.dies[d] = { s.clocks.dies[d] with hotAt := some t.clk, limit := min (lowestPoint s) (s.clocks.dies[d].limit + 1) } ∧
      (s.clocks.dies[d].limit < lowestPoint s → clkNoted t 4) ∧ changesOnly [.out, .rs, .host, .clocks] (advanceTo (n + 1000000) s) t) ∧
  (∀ d s n, s.clocks.dies[d].coolAt = some n → s.clocks.dies[d].limit ≠ 0 →
    ∃ t, exec (.coolLimitUp d) s = .next t ∧ t.clk = max s.clk (n + 20000000) ∧ otherClocks d s t ∧
      t.clocks.dies[d] = { s.clocks.dies[d] with coolAt := some t.clk, limit := s.clocks.dies[d].limit - 1 } ∧
      changesOnly [.clocks] (advanceTo (n + 20000000) s) t) ∧
  (∀ w x s, ∃ t, exec (.otherDieTempRead w (some x)) s = .next t ∧ SMap.get none t.clocks.others w.val = some x ∧
    (1000 ≤ x → (SMap.get none s.clocks.others w.val).getD 0 < 1000 → clkNoted t 6) ∧
    (1040 ≤ x → (SMap.get none s.clocks.others w.val).getD 0 < 1040 → stopAsked s t) ∧
    (x < 1040 → t.img = s.img ∧ t.step = s.step) ∧ (x < 1000 → t.rs = s.rs) ∧ t.clocks.dies = s.clocks.dies ∧
    changesOnly [.out, .rs, .host, .step, .img, .clocks] s t) ∧
  (∀ s d, s.mem.st[d].emergency = false → lowestPoint s = 6 →
    bandLimit s d = ([0, 0, 2, 4, 6].getD (min 4 s.mem.st[d].band) 6))

/-- R468, R470, R471, R472. RACKCLK is accepted within 100 ppm. An edge that reads at most 1,000 ns is slewed away; a larger one is stepped away when
two edges agree. The first frame after a start sets bits 63:24, a later one only when two agree. Steps move no deadline: elapsed time stands.
Rests on the model's own choices and readings of log entry 51. -/
def Obligations.Timebase : Prop :=
  (∀ ppm s, s.clocks.xtal = .stable → -100 ≤ ppm → ppm ≤ 100 →
    exec (.rackclkCheck ppm) s = .next { s with tbs := { s.tbs with rackClk := true } }) ∧
  (∀ ppm s, s.clocks.xtal = .stable → ppm < -100 ∨ 100 < ppm →
    ∃ t, exec (.rackclkCheck ppm) s = .next t ∧ t.tbs = { s.tbs with rackClk := false } ∧ clkNoted t 10 ∧ changesOnly [.out, .rs, .host, .tbs] s t) ∧
  (∀ s, (sext 24 (fld s.tb 23 0)).natAbs ≤ 1000 → s.tbs.next = none →
    ∃ t, exec .racksyncEdge s = .next t ∧ t.tbs.slew = sext 24 (fld s.tb 23 0) ∧ t.tbs.st = .locked ∧ t.tbs.lastEdge = some s.clk ∧
      changesOnly [.tbs] s t) ∧
  (∀ s, 1000 < (sext 24 (fld s.tb 23 0)).natAbs → s.tbs.next = none →
    (∀ b, s.tbs.big = some b → 100 < (sext 24 (fld s.tb 23 0) - b).natAbs) →
    ∃ t, exec .racksyncEdge s = .next t ∧ t.tbs.big = some (sext 24 (fld s.tb 23 0)) ∧ t.tbs.st = s.tbs.st ∧ changesOnly [.tbs] s t) ∧
  (∀ s b, 1000 < (sext 24 (fld s.tb 23 0)).natAbs → s.tbs.next = none → s.tbs.big = some b →
    (sext 24 (fld s.tb 23 0) - b).natAbs ≤ 100 →
    ∃ t, exec .racksyncEdge s = .next t ∧ t.tb = s.tb + BitVec.ofInt 64 (-(sext 24 (fld s.tb 23 0))) ∧ fld t.tb 23 0 = 0 ∧
      t.tbs.st = .locked ∧ t.tbs.steps = satInc 8 s.tbs.steps ∧ clkNoted t 8 ∧ changesOnly [.tb, .out, .rs, .host, .tbs] s t) ∧
  (∀ s v, (sext 24 (fld s.tb 23 0)).natAbs ≤ 1000 → s.tbs.next = some v →
    s.tbs.absSet = false ∨ s.tbs.frameOff = some (v - edgeCount s) →
    ∃ t, exec .racksyncEdge s = .next t ∧ edgeCount t = v ∧ fld t.tb 23 0 = fld s.tb 23 0 ∧
      (s.tbs.absSet = false → t.tbs.absSet = true) ∧ changesOnly [.tb, .out, .rs, .host, .tbs] s t) ∧
  (∀ s v, (sext 24 (fld s.tb 23 0)).natAbs ≤ 1000 → s.tbs.next = some v → s.tbs.absSet = true → edgeCount s ≠ v →
    s.tbs.frameOff ≠ some (v - edgeCount s) →
    ∃ t, exec .racksyncEdge s = .next t ∧ t.tbs.frameOff = some (v - edgeCount s) ∧ changesOnly [.tbs] s t) ∧
  (∀ b s, fld b 63 56 = 0x2D → fld b 15 0 = crc16Bits 48 (fld b 63 16) →
    exec (.racksyncFrame b) s = .next { s with tbs := { s.tbs with next := some (BitVec.ofNat 40 (fld b 55 16)) } }) ∧
  (∀ b s, fld b 63 56 ≠ 0x2D ∨ fld b 15 0 ≠ crc16Bits 48 (fld b 63 16) →
    ∃ t, exec (.racksyncFrame b) s = .next t ∧ t.tbs = { s.tbs with frameErr := satInc 8 s.tbs.frameErr } ∧ clkNoted t 11 ∧
      changesOnly [.out, .rs, .host, .tbs] s t) ∧
  (∀ s n, s.tbs.lastEdge = some n → s.tbs.st = .locked →
    ∃ t, exec .tbHoldover s = .next t ∧ t.clk = max s.clk (n + 50331648) ∧ t.tbs.st = .holdover ∧ clkNoted t 9 ∧
      changesOnly [.out, .rs, .host, .tbs] (advanceTo (n + 50331648) s) t)

/-- R444, R445, R446. A valid frame of either link gives the input, VIN × IIN, once, and is acknowledged; a frame that fails its check, or 30 µs of
silence, fails its link. With both silent for 50 µs every die has power stretch level 2, and after 1 s the image is stopped and the common target is
the lowest point; while both are lost the ceiling stands, and a valid frame ends both.
Rests on the model's own choices and readings of log entries 54 and 55. -/
def Obligations.PowerLinks : Prop :=
  (∀ (l : Fin 2) f s, s.pwr.closed = true → frameOk f = true → s.pwr.seq ≠ some (BitVec.ofNat 8 (fld f 119 112)) →
    ∃ t, exec (.hvFrame l f) s = .next t ∧ t.pwr.seq = some (BitVec.ofNat 8 (fld f 119 112)) ∧ t.pwr.ack = t.pwr.seq ∧
      t.pwr.frames = (s.pwr.frames.filter fun x => decide (s.clk < x.1 + 1000000)) ++ [(s.clk, fld f 111 96 * fld f 95 80)] ∧
      fld (reg t rPwrIn) 15 0 = fld f 111 96 ∧ fld (reg t rPwrIn) 31 16 = fld f 95 80 ∧
      fld (reg t rPwrStat) 31 16 = meanOf t.pwr.frames / 10000 % 65536 ∧ bitAt (reg t rPwrStat) (7 + l.val) = true ∧
      (if l = 0 then t.pwr.okA = true ∧ t.pwr.lastA = s.clk ∧ t.pwr.okB = s.pwr.okB ∧ t.pwr.lastB = s.pwr.lastB
        else t.pwr.okB = true ∧ t.pwr.lastB = s.clk ∧ t.pwr.okA = s.pwr.okA ∧ t.pwr.lastA = s.pwr.lastA) ∧
      t.pwr.hvTemp = sext 16 (fld f 47 32) ∧ (∀ k, k < 3 → f.getLsbD (18 + k) = true → s.pwr.warn.getLsbD k = false → pwrNoted t (2 - k)) ∧
      t.pwr.lost = false ∧ (s.pwr.lost = true → t.pwr.stopped = false ∧ t.pwr.level = 0) ∧ changesOnly [.out, .regs, .rs, .host, .pwr] s t) ∧
  (∀ (l : Fin 2) f s, s.pwr.closed = true → frameOk f = true → s.pwr.seq = some (BitVec.ofNat 8 (fld f 119 112)) → s.pwr.lost = false →
    ∃ t, exec (.hvFrame l f) s = .next t ∧ t.pwr.frames = s.pwr.frames ∧ t.pwr.energy = s.pwr.energy ∧ reg t rPwrIn = reg s rPwrIn ∧
      (if l = 0 then t.pwr.okA else t.pwr.okB) = true ∧ changesOnly [.regs, .pwr] s t) ∧
  (∀ (l : Fin 2) f s, s.pwr.closed = true → frameOk f = false →
    ∃ t, exec (.hvFrame l f) s = .next t ∧ (if l = 0 then t.pwr.okA else t.pwr.okB) = false ∧ t.pwr.frames = s.pwr.frames ∧
      t.pwr.seq = s.pwr.seq ∧ t.pwr.ack = s.pwr.ack ∧ bitAt (reg t rPwrStat) (7 + l.val) = false ∧
      ((if l = 0 then s.pwr.okA else s.pwr.okB) = true → pwrNoted t 8) ∧ changesOnly [.out, .regs, .rs, .host, .pwr] s t) ∧
  (∀ f, frameOk f = true ↔ fld f 127 120 = 0xC3 ∧ fld f 15 0 = crc16Bits 112 (fld f 127 16)) ∧
  (∀ s n, s.pwr.ack = some n → exec .ackSeq s = .next { s with pwr := { s.pwr with ack := none }, out := .hv false :: s.out }) ∧
  (∀ (l : Fin 2) s, (if l = 0 then s.pwr.okA else s.pwr.okB) = true →
    ∃ t, exec (.hvLinkSilent l) s = .next t ∧ t.clk = max s.clk ((if l = 0 then s.pwr.lastA else s.pwr.lastB) + 30000) ∧
      t.pwr = (if l = 0 then { s.pwr with okA := false } else { s.pwr with okB := false }) ∧ bitAt (reg t rPwrStat) (7 + l.val) = false ∧
      pwrNoted t 8) ∧
  (∀ s, s.pwr.closed = true → s.pwr.lost = false →
    ∃ t, exec .hvLinkLost s = .next t ∧ t.clk = max s.clk (max s.pwr.lastA s.pwr.lastB + 50000) ∧ t.pwr.lost = true ∧ t.pwr.level = 2 ∧
      t.pwr.okA = false ∧ t.pwr.okB = false ∧ (s.pwr.okA = true ∨ s.pwr.okB = true → pwrNoted t 8) ∧ t.pwr.e = s.pwr.e ∧ fld (reg t rPwrStat) 13 11 = 2 ∧ bitAt (reg t rPwrStat) 7 = false ∧ bitAt (reg t rPwrStat) 8 = false ∧ pwrNoted t 9) ∧
  (∀ s, s.pwr.lost = true → s.pwr.stopped = false →
    ∃ t, exec .hvLinkStop s = .next t ∧ t.clk = max s.clk (max s.pwr.lastA s.pwr.lastB + 1000000000) ∧ commonTarget t = lowestPoint t ∧
      stopAsked s t ∧ t.pwr = { s.pwr with stopped := true }) ∧
  (∀ s, s.start.fin = .ready → s.pwr.lost = true →
    ∃ t, exec .powerShapeTick s = .next t ∧ t.pwr.e = s.pwr.e ∧ t.pwr.level = 2 ∧ t.pwr.tickAt = t.clk + 10000)

/-- R449, R450, R452. Every 10 µs the ceiling E follows the demand: it rises by RAMP_UP once a start tick has begun a rise, falls by RAMP_DOWN at most,
and stays above the floor and below P_MAX. Filler makes up what the demand lacks. The demand is free. A cut for
P_MAX that holds lowers the common target, and 10 ms without stretch raise it.
Rests on the model's own choices and readings of log entries 54 and 55. -/
def Obligations.PowerShaping : Prop :=
  (∀ s u, s.start.fin = .ready → s.pwr.lost = false → u = advanceTo s.pwr.tickAt s →
    ∃ t, exec .powerShapeTick s = .next t ∧ t.clk = max s.clk s.pwr.tickAt ∧ t.free = s.free + 1 ∧ t.pwr.tickAt = t.clk + 10000 ∧
      (Config.demand s.free ≤ s.pwr.e → t.pwr.e = max (Config.demand s.free) (max (floorOf u) (s.pwr.e - rampDown s)) ∧
        bitAt (reg t rPwrStat) 10 = false) ∧
      (s.pwr.e < Config.demand s.free → bitAt (reg s rPwrStat) 10 = true ∨ beginsTick u = true →
        t.pwr.e = min (pMaxW s * 100) (s.pwr.e + rampUp s) ∧ bitAt (reg t rPwrStat) 10 = true) ∧
      (s.pwr.e < Config.demand s.free → bitAt (reg s rPwrStat) 10 = false → beginsTick u = false →
        t.pwr.e = s.pwr.e ∧ bitAt (reg t rPwrStat) 10 = false) ∧
      bitAt (reg t rPwrStat) 9 = (decide (0 < fillerMax u) && decide (Config.demand s.free < min (min t.pwr.e (max (Config.demand s.free) (max (floorOf u) (s.pwr.e - rampDown s))))
        (pMaxW s * 100 * 985 / 1000))) ∧
      fld (reg t rPwrStat) 13 11 = t.pwr.level ∧ t.pwr.level ≤ min 4 (topLevel u) ∧ (bitAt (reg t rPwrStat) 9 = true → t.pwr.level = 0) ∧
      fld (reg t rPwrShape) 15 0 = t.pwr.e / 100 % 65536 ∧ changesOnly [.free, .out, .regs, .rs, .host, .pwr] u t) ∧
  (∀ s, beginsTick s = true ↔ ∃ k, s.tb.toNat ≤ k * 2 ^ 18 ∧ k * 2 ^ 18 < s.tb.toNat + 10000 ∧ k % staggerN s = s.start.slot % staggerN s) ∧
  (∀ s, floorOf s = min (pMaxW s * 100) (floorPct s * peakOf s / 10000) ∧
    (∀ x ∈ s.pwr.means, s.clk < x.1 + windowNsPwr s → x.2 ≤ peakOf s) ∧
    (peakOf s = 0 ∨ ∃ x ∈ s.pwr.means, s.clk < x.1 + windowNsPwr s ∧ x.2 = peakOf s)) ∧
  (∀ s n, s.pwr.limitAt = some n →
    ∃ t, exec .limitDvfsDown s = .next t ∧ t.clk = max s.clk (n + 1000000) ∧
      t.pwr = { s.pwr with limitAt := some t.clk, target := min (lowestPoint s) (s.pwr.target + 1) } ∧
      (s.pwr.target < lowestPoint s → pwrNoted t 3) ∧ changesOnly [.out, .rs, .host, .pwr] (advanceTo (n + 1000000) s) t) ∧
  (∀ s n, s.pwr.zeroAt = some n → s.pwr.target ≠ 0 →
    ∃ t, exec .limitDvfsUp s = .next t ∧ t.clk = max s.clk (n + 10000000) ∧
      t.pwr = { s.pwr with zeroAt := some t.clk, target := s.pwr.target - 1 } ∧ changesOnly [.pwr] (advanceTo (n + 10000000) s) t)

/-- R474, R482, R496, R497. A telemetry frame stands at TEL_FRAME each period, with its number at both ends and its CRC; it is written to the host's
ring where that is enabled, and skipped with RING_HELD set while the module may not write. Wear levelling erases a block of the log at most once a
second, and keeps what the log holds.
Rests on the model's own choices and readings of log entries 6 and 68. -/
def Obligations.TelemetryAndWear : Prop :=
  (∀ s n u, s.tel.nextAt = some n → u = advanceTo n s →
    ∃ t, exec .telemetryFrame s = .next t ∧ t.clk = max s.clk n ∧ t.tel.seq = (s.tel.seq + 1) % 2 ^ 32 ∧
      t.tel.nextAt = some (n + fld (reg s rPatCfg) 23 14 * 100000) ∧
      (∀ k, k < 64 → reg t (rTelFrame + 4 * k) = w32 (leAt (frameBytes u t.tel.seq) (4 * k) 4)) ∧
      (ctlBit s rTelCtl 0 = false → t.out = u.out ∧ t.tel.held = s.tel.held ∧ reg t rTelRingHead = reg s rTelRingHead) ∧
      (ctlBit s rTelCtl 0 = true → s.host.busMaster = false → t.out = u.out ∧ t.tel.held = true ∧ reg t rTelRingHead = reg s rTelRingHead) ∧
      (ctlBit s rTelCtl 0 = true → s.host.busMaster = true → t.tel.held = false ∧ reg t rTelRingHead = reg s rTelRingHead + 1 ∧
        .hostWrite ((reg64 s rTelRingBase).toNat + 256 * ((reg s rTelRingHead).toNat % 2 ^ ringLog2 s)) (frameBytes u t.tel.seq) ∈ t.out) ∧
      changesOnly [.out, .regs, .host, .tel] u t) ∧
  (∀ s n, (frameBytes s n).length = 256 ∧ leAt (frameBytes s n) 8 4 = n % 2 ^ 32 ∧ leAt (frameBytes s n) 248 4 = n % 2 ^ 32 ∧
    leAt (frameBytes s n) 252 4 = (crc32c ((frameBytes s n).take 252)) % 2 ^ 32 ∧ leAt (frameBytes s n) 0 8 = s.tb.toNat) ∧
  (∀ b s, s.start.fin = .ready →
    ∃ t, exec (.flashWearLevel b) s = .next t ∧ t.clk = max s.clk s.flash.wearAt ∧ t.flash.wearAt = t.clk + 1000000000 ∧
      SMap.get 0 t.flash.erased b = SMap.get 0 s.flash.erased b + 1 ∧
      t.flash = { s.flash with erased := t.flash.erased, wearAt := t.flash.wearAt } ∧ changesOnly [.flash] (advanceTo s.flash.wearAt s) t) ∧
  (∀ b s, s.start.fin ≠ .ready → exec (.flashWearLevel b) s = .next s)

/-- R439, R440, R429. A recovery command starts at READY with no image, or fails with a cause and signals object 5; one that may not start changes
nothing. While one runs only ABORT acts. COPY needs an expected step and fetches what the image's descriptors hold, RESTORE the poisoned pages;
OUTER_RESET puts each owned tile back to the master; SELFTEST_CD resets its die, SELFTEST_FULL needs DISCARD.
Rests on the model's own choices and readings of log entries 64 and 65. -/
def Obligations.RecoveryCommandsStart : Prop :=
  (∀ i v s img, asksRecovery s i v → rcvPermitted s 1 = true → s.rcv.st ≠ .running → fld v 31 28 = 1 → reg64 s rExpect ≠ 0 →
    namedImage s = some img →
    ∃ t, exec i s = .next t ∧ t.rcv.st = .running ∧ t.rcv.cmd = 1 ∧ t.rcv.word = v ∧ t.rcv.img = some img ∧ t.rcv.step = reg64 s rExpect ∧
      t.rcv.left = copyList s img (bitAt v 26) (bitAt v 25) ∧ t.rcv.total = t.rcv.left.length ∧
      changesOnly [.out, .regs, .rcv] s t) ∧
  (∀ s img i k, i < img.layers.length → k < nChunks (ldesc (under s img) i) → 2 * chunkKey i k ∈ copyList s img true false) ∧
  (∀ i v s img sec, asksRecovery s i v → rcvPermitted s 2 = true → s.rcv.st ≠ .running → fld v 31 28 = 2 → namedImage s = some img →
    img.sec = some sec →
    ∃ t, exec i s = .next t ∧ t.rcv.st = .running ∧ t.rcv.cmd = 2 ∧ t.rcv.img = some img ∧ t.rcv.step = s.step.ctr ∧
      t.rcv.left = poisonedPages s sec ∧ changesOnly [.out, .regs, .rcv] s t) ∧
  (∀ i v s img l k n, asksRecovery s i v → rcvPermitted s 3 = true → s.rcv.st ≠ .running → fld v 31 28 = 3 → namedImage s = some img →
    img.layers.filter lOuter = [l] → ownedTiles (under s img) l = [k] → n = chunkLen l k →
    cleanRange s.mem (lW l + 262144 * k) (4 * n) → unpoisoned s.mem (lW l + 262144 * k) (4 * n) →
    cleanRange s.mem (planeA l 0) (4 * n) → cleanRange s.mem (planeU l 1 0) (4 * n) → cleanRange s.mem (planeE l 1 0) (2 * n) →
    distinctBytes s.mem (planeA l 0) (4 * n) → distinctBytes s.mem (planeU l 1 0) (4 * n) → distinctBytes s.mem (planeE l 1 0) (2 * n) →
    apart s.mem (planeA l 0) (4 * n) (planeU l 1 0) (4 * n) → apart s.mem (planeA l 0) (4 * n) (planeE l 1 0) (2 * n) →
    apart s.mem (planeU l 1 0) (4 * n) (planeE l 1 0) (2 * n) →
    ∃ t, exec i s = .next t ∧ t.rcv.st = .running ∧ t.rcv.cmd = 3 ∧
      (∀ j, j < 4 * n → byteAt t.mem (planeA l 0 + j) = byteAt s.mem (lW l + 262144 * k + j) ∧ byteAt t.mem (planeU l 1 0 + j) = 0) ∧
      (∀ j, j < 2 * n → byteAt t.mem (planeE l 1 0 + j) = 0)) ∧
  (∀ i v s, asksRecovery s i v → rcvPermitted s 4 = true → s.rcv.st ≠ .running → fld v 31 28 = 4 → bitAt v 27 = true →
    ∃ t, exec i s = .next t ∧ t.rcv.st = .running ∧ t.rcv.cmd = 4 ∧ changesOnly [.out, .regs, .rcv] s t) ∧
  (∀ i v s (h : fld v 24 20 < 24), asksRecovery s i v → rcvPermitted s 5 = true → s.rcv.st ≠ .running → fld v 31 28 = 5 →
    ∃ u o, exec i s = .next { resetCore u ⟨fld v 24 20, h⟩ with out := o } ∧ u.rcv.st = .running ∧ u.rcv.cmd = 5 ∧
      changesOnly [.out, .regs, .rcv] s u) ∧
  (∀ i v s n, asksRecovery s i v → s.rcv.st ≠ .running → fld v 31 28 = n → n ≠ 0 → rcvPermitted s n = false →
    ∃ u t, exec i s = .next t ∧ rcvSignalled u t ∧ rcvFailed n 1 u ∧ changesOnly [.out, .regs, .rcv] s u) ∧
  (∀ i v s, asksRecovery s i v → rcvPermitted s 1 = true → s.rcv.st ≠ .running → fld v 31 28 = 1 → reg64 s rExpect = 0 →
    ∃ u t, exec i s = .next t ∧ rcvSignalled u t ∧ rcvFailed 1 3 u ∧ changesOnly [.out, .regs, .rcv] s u) ∧
  (∀ i v s n, asksRecovery s i v → s.rcv.st ≠ .running → fld v 31 28 = n → n = 1 ∨ n = 2 ∨ n = 3 → rcvPermitted s n = true →
    reg64 s rExpect ≠ 0 → namedImage s = none →
    ∃ u t, exec i s = .next t ∧ rcvSignalled u t ∧ rcvFailed n 2 u ∧ changesOnly [.out, .regs, .rcv] s u) ∧
  (∀ i v s, asksRecovery s i v → rcvPermitted s 4 = true → s.rcv.st ≠ .running → fld v 31 28 = 4 → bitAt v 27 = false →
    ∃ u t, exec i s = .next t ∧ rcvSignalled u t ∧ rcvFailed 4 7 u ∧ changesOnly [.out, .regs, .rcv] s u) ∧
  (∀ i v s, asksRecovery s i v → s.rcv.st = .running → s.rcv.cmd ≠ 5 → fld v 31 28 = 6 →
    ∃ u t, exec i s = .next t ∧ rcvSignalled u t ∧ rcvFailed s.rcv.cmd 9 u ∧ u.rcv.left = [] ∧ changesOnly [.out, .regs, .rcv] s u) ∧
  (∀ i v s, asksRecovery s i v → s.rcv.st = .running → fld v 31 28 ≠ 6 →
    ∃ t, exec i s = .next t ∧ changesOnly [.out, .regs] s t) ∧
  (∀ p v s, p ≠ .mbox → s.start.fin = .ready → s.rcv.st ≠ .running → fld v 31 28 ≠ 0 → rcvPermitted s (fld v 31 28) = false →
    ∃ t, exec (.recover p v) s = .next t ∧ .response p msState [] ∈ t.out)

/-- R439, R440, R429. A source that does not answer, or stands at another step, fails the command. With everything fetched COPY writes the journal's
step entry COMMITTED at T, sets STEP_CTR and clears REPLAY_FAIL. SELFTEST_FULL is followed by a WARM reset that keeps nothing; SELFTEST_CD leaves a
failing die out of service. Every end signals object 5.
Rests on the model's own choices and readings of log entries 64 and 65. -/
def Obligations.RecoveryCommandsEnd : Prop :=
  (∀ d k data s img, s.rcv.st = .running → s.rcv.img = some img →
    ∃ u, exec (.finisherFetchDone d k none data) s = .next (signalUnit u 5) ∧ rcvFailed s.rcv.cmd 5 u ∧ changesOnly [.rcv] s u) ∧
  (∀ d k n data s img, s.rcv.st = .running → s.rcv.img = some img → n ≠ s.rcv.step →
    ∃ u, exec (.finisherFetchDone d k (some n) data) s = .next (signalUnit u 5) ∧ rcvFailed s.rcv.cmd 4 u ∧ changesOnly [.rcv] s u) ∧
  (∀ (d : Fin 4096) page data s img, s.rcv.st = .running → s.rcv.cmd = 2 → s.rcv.img = some img → d.val < 24 →
    2 ^ 32 * d.val + page ∈ s.rcv.left → data.length = pageBytes → cleanRange s.mem (2 ^ 36 * d.val + pageBytes * page) pageBytes →
    distinctBytes s.mem (2 ^ 36 * d.val + pageBytes * page) pageBytes →
    ∃ t, exec (.finisherFetchDone d page (some s.rcv.step) data) s = .next t ∧
      storedAt (2 ^ 36 * d.val + pageBytes * page) data s.mem t.mem ∧ unpoisoned t.mem (2 ^ 36 * d.val + pageBytes * page) pageBytes ∧
      t.rcv = { s.rcv with left := s.rcv.left.filter fun x => decide (x ≠ 2 ^ 32 * d.val + page) }) ∧
  (∀ s img sec, s.rcv.st = .running → s.rcv.cmd = 1 → s.rcv.left = [] → s.rcv.img = some img → img.sec = some sec →
    cleanRange s.mem sec.journal 64 → unpoisoned s.mem sec.journal 64 → distinctBytes s.mem sec.journal 64 →
    ∃ u, exec (.rcvDone 0) s = .next (signalUnit u 5) ∧ u.rcv.st = .done ∧ u.step.ctr = s.rcv.step ∧ reg64 u rStepCtr = s.rcv.step ∧
      u.start.replayFail = false ∧ byteAt u.mem (sec.journal + 0x10) = 2 ∧
      (∀ j, j < 8 → byteAt u.mem (sec.journal + j) = (s.rcv.step >>> (8 * j)).setWidth 8) ∧
      (∀ j, j < 64 → 8 ≤ j → j ≠ 0x10 → byteAt u.mem (sec.journal + j) = byteAt s.mem (sec.journal + j))) ∧
  (∀ (c : Fin 16) s, s.rcv.st = .running → s.rcv.cmd = 2 ∨ s.rcv.cmd = 3 → c = 0 → s.rcv.left = [] →
    ∃ u, exec (.rcvDone c) s = .next (signalUnit u 5) ∧ u.rcv.st = .done ∧ u.rcv.cause = 0 ∧ changesOnly [.rcv] s u) ∧
  (∀ (c : Fin 16) s, s.rcv.st = .running → s.rcv.cmd = 1 ∨ s.rcv.cmd = 2 ∨ s.rcv.cmd = 3 → c ≠ 0 →
    ∃ u, exec (.rcvDone c) s = .next (signalUnit u 5) ∧ rcvFailed s.rcv.cmd c.val u ∧ changesOnly [.rcv] s u) ∧
  (∀ s, s.rcv.left ≠ [] → exec (.rcvDone 0) s = .next s) ∧
  (∀ (c : Fin 16) s, s.rcv.st = .running → s.rcv.cmd = 4 → c = 0 ∨ c = 8 → (c = 0 → s.rcv.left = []) →
    ∃ t, exec (.rcvDone c) s = .next t ∧ t.start.warm = true ∧ t.start.keepable = false ∧ causeNoted true 5 t ∧ t.tb = s.tb ∧
      ∃ f, t.flash.tests = s.flash.tests ++ [(2, 0, f)] ∧ (c = 0 → f = 0)) ∧
  (∀ (c : Fin 16) s d, s.rcv.st = .running → s.rcv.cmd = 5 → fld s.rcv.word 24 20 = d.val → c = 0 ∨ c = 8 → (c = 0 → s.rcv.left = []) →
    ∃ u, exec (.rcvDone c) s = .next (signalUnit u 5) ∧ u.rcv.st = (if c = 0 then .done else .failed) ∧
      (c = 8 → (die u d).out = true ∧ (die u d).coreReset = true ∧ u.start.testFailed.getLsbD d.val = true) ∧
      (c = 0 → u.start.testFailed.getLsbD d.val = false ∧
        (die u d).out = ((die s d).out && !(s.start.testFailed.getLsbD d.val)) ∧ (die u d).coreReset = (die u d).out) ∧
      (die u d).ts = [] ∧ (∀ e, e ≠ d → die u e = die s e) ∧ fld (reg u rSelftest) 31 30 = 1 ∧ fld (reg u rSelftest) 28 24 = d.val ∧
      bitAt (reg u rSelftest) 29 = decide (c = 0))

/-- R424, R498, R500. A request is served at READY and in MGMT_ONLY; in ROM_RECOVERY only I3C serves, and only firmware for flash. FLASH_WRITE puts
data into the copy that is not preferred. FLASH_PREFER of a copy that passes gives the next SEQUENCE to the record not in force, which is then in
force with the new preference. A mailbox response stands in SEC_MBOX_DATA. EPOCH is the host's FAB_EPOCH_CMD.
R508. The report of GET_ATTEST: 1,192 bytes with the requester's nonce, the timebase, the counters as SEC_CTRS and the running firmware's digest
at their offsets, signed over the digest of all that goes before the signature. It changes nothing of the module.
Rests on the model's own choices and readings of log entries 15, 66, 68 and 69. -/
def Obligations.ManagementAndAttestation : Prop :=
  ((∀ p pi off data s, pathServes s p (!pi) = true → reqStands s p mcFlashWrite none = true →
    off + data.length ≤ (if pi = true then 0x4000000 else 0x400000) →
    ∃ t, exec (.flashWrite p pi off data) s = .next (respond t p mcFlashWrite msOk []) ∧
      (∀ i (h : i < data.length), SMap.get 0 t.flash.bytes ((if pi = true then piBase (!prefersB s pi) else fwBase (!prefersB s pi)) + off + i) = data[i]) ∧
      (∀ a, (∀ i, i < data.length → a ≠ (if pi = true then piBase (!prefersB s pi) else fwBase (!prefersB s pi)) + off + i) →
        SMap.get 0 t.flash.bytes a = SMap.get 0 s.flash.bytes a) ∧
      t.flash = { s.flash with bytes := t.flash.bytes } ∧ changesOnly [.flash] s t) ∧
  (∀ p pi off data s, pathServes s p (!pi) = true → reqStands s p mcFlashWrite none = true →
    (if pi = true then 0x4000000 else 0x400000) < off + data.length →
    exec (.flashWrite p pi off data) s = .next (respond s p mcFlashWrite msLength [])) ∧
  (∀ p pi copy s, pathServes s p (!pi) = true → reqStands s p mcFlashPrefer none = true → copyPasses s pi copy = true →
    ∃ t, exec (.flashPrefer p pi copy true) s = .next (respond t p mcFlashPrefer msOk []) ∧ prefersB t pi = copy ∧
      (∀ r, bootRecord s.flash = some r → prefersB t (!pi) = prefersB s (!pi) ∧ (bootRecord t.flash).map BootRecord.seq = some (r.seq + 1)) ∧
      (bootRecord s.flash = none → (bootRecord t.flash).map BootRecord.seq = some 1) ∧ t.flash.bytes = s.flash.bytes ∧ changesOnly [.flash] s t) ∧
  (∀ p pi copy ok s, pathServes s p (!pi) = true → reqStands s p mcFlashPrefer none = true → (ok && copyPasses s pi copy) = false →
    exec (.flashPrefer p pi copy ok) s = .next (respond s p mcFlashPrefer msState [])) ∧
  (∀ s p fw, pathServes s p fw = true ↔ s.start.fin = .ready ∨ s.start.fin = .mgmtOnly ∨ (s.start.fin = .romRecovery ∧ p = .i3c ∧ fw = true)) ∧
  (∀ s p c st body, p ≠ .mbox → respond s p c st body = { s with out := .response p st body :: s.out }) ∧
  (∀ s c st body, (vendorMsg c st body).length ≤ 4096 → (vendorMsg c st body).length % 4 = 0 →
    (respond s .mbox c st body).sec.mbox = .done ∧ (respond s .mbox c st body).sec.mboxLen = body.length + 8 ∧
    ∀ i (h : i < (vendorMsg c st body).length), mboxByte (respond s .mbox c st body) i = (vendorMsg c st body)[i]) ∧
  (∀ p eid s, p ≠ .mbox → s.start.fin = .ready ∨ s.start.fin = .mgmtOnly →
    ∃ t, exec (.setEndpointId p eid) s = .next t ∧ t.sec.eid[pathNo p] = eid ∧ (∀ k, k ≠ pathNo p → t.sec.eid[k] = s.sec.eid[k]) ∧
      t.out = .response p msOk [eid] :: s.out ∧ changesOnly [.out, .sec] s t) ∧
  (∀ p c arg s v, p ≠ .mbox → s.start.fin = .ready ∨ s.start.fin = .mgmtOnly → c = 0x11 → numericSensor s arg = some v →
    exec (.pldmRequest p 2 c arg) s = .next { s with out := .response p msOk (leBytes 4 (unsign 32 v)) :: s.out }) ∧
  (∀ s (d : Die), numericSensor s (1 + d.val) = some s.clocks.dies[d].temp ∧
    numericSensor s (25 + d.val) = some (sext 16 s.mem.st[d].tempNow * 5 / 2)) ∧
  (∀ p ty c arg s, p ≠ .mbox → s.start.fin = .ready ∨ s.start.fin = .mgmtOnly →
    ∃ b, exec (.pldmRequest p ty c arg) s = .next { s with out := .response p msOk b :: s.out }) ∧
  (∀ p a v s, served s p mcEpoch none → p ≠ .mbox → mayAccess s .host rFabEpochCmd → fld v 7 4 = 1 → s.fab.draining = false → s.fab.retireAt = none →
    exec (.epoch p v) s = .next { s with out := .response p msOk [] :: s.out, fab := { s.fab with isOpen := true } } ∧
    exec (.epochOpen a) s = .next { s with out := .completion .host .sc [] :: s.out, fab := { s.fab with isOpen := true } }) ∧
  (∀ p cls first s, served s p mcReadLog none →
    exec (.readLog p cls first) s = .next (respond s p mcReadLog (if (logEntries s.flash cls).drop first = [] then msNotFound else msOk)
      (((logEntries s.flash cls).drop first).flatMap fun e => e.flatMap (leBytes 64)))) ∧
  (∀ p s, served s p mcGetCert (some []) →
    exec (.getCert p) s = .next (respond s p mcGetCert msOk (Config.deviceCert ++ Config.caCert)))) ∧
  ((∀ p n s, served s p mcGetAttest (some (leBytes 32 n.toNat)) →
    exec (.getAttest p n) s = .next (respond s p mcGetAttest msOk (report s n))) ∧
  (∀ s n, (report s n).length = 1192 ∧ leAt (report s n) 0 4 = 0x54524E42 ∧ leAt (report s n) 6 2 = 1192 ∧
    leAt (report s n) 0x008 32 = n.toNat ∧ leAt (report s n) 0x028 8 = s.tb.toNat ∧ leAt (report s n) 0x050 64 = s.start.fwDigest.toNat ∧
    leAt (report s n) 0x114 4 = (secCtrs s).toNat ∧ leAt (report s n) 0x118 4 = (secSlots s).toNat ∧
    leAt (report s n) 0x424 66 = (Config.signR (Config.sha512 ((report s n).take 0x424))).toNat ∧
    leAt (report s n) 0x466 66 = (Config.signS (Config.sha512 ((report s n).take 0x424))).toNat) ∧
  (∀ s n, jobActive s = false → leAt (report s n) 0x0D0 64 = 0))

/-- R503, R504, R505, R506. An OWNER command needs the path's live nonce, which it consumes, and a signature: else it fails with NONCE or AUTH and is
counted, and eight failures lock every path out. BIND fills an EMPTY slot, REVOKE ends another's, ADVANCE raises a counter to at most the SVN in use,
LOG_CLEAR removes a log entry; nothing lowers a counter or a slot.
Rests on the model's own choices and readings of log entry 67. -/
def Obligations.OwnerCommands : Prop :=
  (∀ p s, served s p mcGetNonce (some []) →
    ∃ t, exec (.getNonce p) s = .next (respond t p mcGetNonce msOk (leBytes 32 (Config.nonce s.free).toNat)) ∧
      liveNonce t p = some (Config.nonce s.free) ∧ t.free = s.free + 1 ∧
      (∀ k, k ≠ pathNo p → t.sec.nonces[k] = s.sec.nonces[k]) ∧ changesOnly [.free, .sec] s t) ∧
  (∀ p b s n, ownerSound s p b 1 → ownerArg b = n → n < 4 → slotState s n = .empty → signerBound s b = true ∨
      (ownerSigner b = 0xFF ∧ n = 0 ∧ ∀ i, i < 4 → slotState s i = .empty) →
    ∃ u, exec (.ownerBind p b true) s = .next (respond u p mcOwner msOk []) ∧ ownerDone u p 3 ∧ slotState u n = .bound ∧
      ((u.otp.slots.toList)[n]?).map KeySlot.key = some ((b.drop 0x38).take 133) ∧ (∀ k, k ≠ n → slotState u k = slotState s k) ∧
      u.otp.ctrs = s.otp.ctrs ∧ changesOnly [.out, .rs, .regs, .host, .otp, .sec] s u) ∧
  (∀ p b s n, ownerSound s p b 2 → ownerArg b = n → n < 4 → slotState s n = .bound → signerBound s b = true → ownerSigner b ≠ n →
    ∃ u, exec (.ownerRevoke p b true) s = .next (respond u p mcOwner msOk []) ∧ ownerDone u p 3 ∧ slotState u n = .revoked ∧
      (∀ k, k ≠ n → slotState u k = slotState s k) ∧ u.otp.ctrs = s.otp.ctrs ∧ changesOnly [.out, .rs, .regs, .host, .otp, .sec] s u) ∧
  (∀ p b s (k : Fin 3) n, ownerSound s p b 3 → ownerArg b / 256 % 4 = k.val → s.otp.ctrs[k] ≠ 64 → svnInUse s k.val = some n → signerBound s b = true →
    s.otp.ctrs[k] < ownerArg b % 256 → ownerArg b % 256 ≤ n → ownerArg b % 256 ≤ 64 →
    ∃ u, exec (.ownerAdvance p b true) s = .next (respond u p mcOwner msOk []) ∧ ownerDone u p 4 ∧ u.otp.ctrs[k] = ownerArg b % 256 ∧
      (∀ j, j ≠ k → u.otp.ctrs[j] = s.otp.ctrs[j]) ∧ u.otp.slots = s.otp.slots ∧ changesOnly [.out, .rs, .regs, .host, .otp, .sec] s u) ∧
  (∀ p b s (k : Fin 3), ownerSound s p b 3 → ownerArg b / 256 % 4 = k.val → s.otp.ctrs[k] = 64 →
    ∃ u, exec (.ownerAdvance p b true) s = .next (respond u p mcOwner msExhausted []) ∧ (rsReg u rSecEvt).ev.getLsbD 5 = true ∧ u.otp = s.otp) ∧
  (∀ p b s (c : Stack) (ch : Fin 32), ownerSound s p b 4 → signerBound s b = true → ownerArg b = 0 → ownerArg2 b = 32 * c.val + ch.val →
    (c, ch) ∈ s.flash.mapOut →
    ∃ u, exec (.ownerLogClear p b true) s = .next (respond u p mcOwner msOk []) ∧ ownerDone u p 6 ∧ (c, ch) ∉ u.flash.mapOut ∧
      (∀ e, e ≠ (c, ch) → (e ∈ u.flash.mapOut ↔ e ∈ s.flash.mapOut)) ∧ u.otp = s.otp ∧ u.mem = s.mem) ∧
  (∀ p b s, ownerSound s p b 4 → signerBound s b = true → ownerArg b = 1 → SMap.get 0 s.flash.lanes (ownerArg2 b) ≠ 0 →
    ∃ u, exec (.ownerLogClear p b true) s = .next (respond u p mcOwner msOk []) ∧ ownerDone u p 6 ∧
      SMap.get 0 u.flash.lanes (ownerArg2 b) = 0 ∧ u.otp = s.otp) ∧
  (∀ p b s op, 1 ≤ op → op ≤ 4 → ownerSound s p b op →
    ∃ u, exec (ownerRow op p b false) s = .next (respond u p mcOwner msAuth []) ∧ u.sec.nonces[pathNo p] = none ∧ u.otp = s.otp ∧
      u.flash = s.flash ∧ 0 < u.sec.fails ∧ u.sec.lastFail = s.clk ∧ (rsReg u rSecEvt).ev.getLsbD 0 = true ∧
      reg u rSecAuthFail = w32 (satInc 16 (reg s rSecAuthFail).toNat)) ∧
  (∀ p b s op ok, 1 ≤ op → op ≤ 4 → b.length = 324 → leAt b 0x31 1 = op → served s p mcOwner (some b) → s.sec.fails < 8 → s.clk < s.sec.lastFail + 60000000000 →
    liveNonce s p ≠ some (BitVec.ofNat 256 (leAt b 0 32)) →
    ∃ u, exec (ownerRow op p b ok) s = .next (respond u p mcOwner msNonce []) ∧ u.sec.nonces[pathNo p] = none ∧ u.otp = s.otp ∧
      u.flash = s.flash ∧ u.sec.fails = s.sec.fails + 1 ∧ u.sec.lastFail = s.clk ∧ (rsReg u rSecEvt).ev.getLsbD 0 = true ∧
      (s.sec.fails = 7 → (rsReg u rSecEvt).ev.getLsbD 7 = true)) ∧
  (∀ p b s op ok, 1 ≤ op → op ≤ 4 → b.length = 324 → leAt b 0x31 1 = op → served s p mcOwner (some b) → 8 ≤ s.sec.fails →
    s.clk < s.sec.lastFail + 60000000000 →
    ∃ u, exec (ownerRow op p b ok) s = .next (respond u p mcOwner msState []) ∧ u.sec.fails = s.sec.fails ∧ u.sec.lastFail = s.sec.lastFail ∧
      changesOnly [.sec] s u) ∧
  (∀ p s n m, s.sec.nonces[pathNo p] = some (n, m) →
    ∃ t, exec (.nonceExpire p) s = .next t ∧ t.clk = max s.clk (m + 60000000000) ∧ liveNonce t p = none ∧ t.sec.fails = s.sec.fails) ∧
  (∀ s, s.sec.fails ≠ 0 → ∃ t, exec .lockoutExpire s = .next t ∧ t.clk = max s.clk (s.sec.lastFail + 60000000000) ∧ t.sec.fails = 0 ∧
    t.sec.nonces = s.sec.nonces)

/-- R503, R506. Whatever the command, no step lowers an anti-rollback counter, takes one beyond its 64 fuses, or moves a key slot back: the OTP only
goes forward, over every reset and start. -/
def Obligations.OtpOnlyGoesForward : Prop :=
  ∀ s t, step s = .next t → OtpState.wf s.otp = true → OtpState.wf t.otp = true ∧ otpForward s t

/-- The sparse stores of module memory and its marks keep their canonical form over every step, so that equal memories are equal data (the model's
form of module memory, log entry 3).
R472. Elapsed time, on which every deadline stands, never runs back, whatever the timebase steps by and whatever resets.
Rests on the model's own choices and readings of log entry 3. -/
def Obligations.MemoryCanonicalAndTimeForward : Prop :=
  (∀ s t, step s = .next t → s.mem.wf = true → t.mem.wf = true) ∧
  (∀ s t, step s = .next t → s.clk ≤ t.clk)
end

