-- ==== Sys2Proof/Laws/Frame.lean ====
section
/-! SUPPORT. Laws/Frame.lean: erasing components of the state, one lemma for each set of fields a meaning writes together. -/
namespace Sys2Proof.Machine
open Sys2Proof

variable {K : Comp → Bool}

@[simp] theorem State.erase_ite (c : Prop) [Decidable c] (a b : State) :
    (if c then a else b).erase K = if c then a.erase K else b.erase K := by split <;> rfl

@[simp] theorem State.erase_foldl {α : Type} (f : State → α → State) (l : List α) (s : State)
    (h : ∀ s x, (f s x).erase K = s.erase K) : (l.foldl f s).erase K = s.erase K := by
  induction l generalizing s with
  | nil => rfl
  | cons x l ih => simp [ih, h]

theorem State.erase_foldl_pair {α β : Type} (f : β × State → α → β × State) (l : List α) (s : β × State)
    (h : ∀ s x, (f s x).2.erase K = s.2.erase K) : (l.foldl f s).2.erase K = s.2.erase K := by
  induction l generalizing s with
  | nil => rfl
  | cons x l ih => simp [ih, h]

@[simp] theorem State.erase_loopN (f : Nat → State → State) (n : Nat) (s : State)
    (h : ∀ i s, (f i s).erase K = s.erase K) : (loopN n f s).erase K = s.erase K := by
  induction n with
  | zero => rfl
  | succ n ih => simp [loopN, h, ih]

@[simp] theorem State.erase_pending (s : State) (x0) (h : K .pending = true) :
    State.erase K { s with pending := x0 } = s.erase K := by
  simp_all [State.erase]

@[simp] theorem State.erase_clk (s : State) (x0) (h : K .clk = true) :
    State.erase K { s with clk := x0 } = s.erase K := by
  simp_all [State.erase]

@[simp] theorem State.erase_tb (s : State) (x0) (h : K .tb = true) :
    State.erase K { s with tb := x0 } = s.erase K := by
  simp_all [State.erase]

@[simp] theorem State.erase_free (s : State) (x0) (h : K .free = true) :
    State.erase K { s with free := x0 } = s.erase K := by
  simp_all [State.erase]

@[simp] theorem State.erase_out (s : State) (x0) (h : K .out = true) :
    State.erase K { s with out := x0 } = s.erase K := by
  simp_all [State.erase]

@[simp] theorem State.erase_regs (s : State) (x0) (h : K .regs = true) :
    State.erase K { s with regs := x0 } = s.erase K := by
  simp_all [State.erase]

@[simp] theorem State.erase_rs (s : State) (x0) (h : K .rs = true) :
    State.erase K { s with rs := x0 } = s.erase K := by
  simp_all [State.erase]

@[simp] theorem State.erase_host (s : State) (x0) (h : K .host = true) :
    State.erase K { s with host := x0 } = s.erase K := by
  simp_all [State.erase]

@[simp] theorem State.erase_sync (s : State) (x0) (h : K .sync = true) :
    State.erase K { s with sync := x0 } = s.erase K := by
  simp_all [State.erase]

@[simp] theorem State.erase_dies (s : State) (x0) (h : K .dies = true) :
    State.erase K { s with dies := x0 } = s.erase K := by
  simp_all [State.erase]

@[simp] theorem State.erase_gang (s : State) (x0) (h : K .gang = true) :
    State.erase K { s with gang := x0 } = s.erase K := by
  simp_all [State.erase]

@[simp] theorem State.erase_step (s : State) (x0) (h : K .step = true) :
    State.erase K { s with step := x0 } = s.erase K := by
  simp_all [State.erase]

@[simp] theorem State.erase_maq (s : State) (x0) (h : K .maq = true) :
    State.erase K { s with maq := x0 } = s.erase K := by
  simp_all [State.erase]

@[simp] theorem State.erase_img (s : State) (x0) (h : K .img = true) :
    State.erase K { s with img := x0 } = s.erase K := by
  simp_all [State.erase]

@[simp] theorem State.erase_upd (s : State) (x0) (h : K .upd = true) :
    State.erase K { s with upd := x0 } = s.erase K := by
  simp_all [State.erase]

@[simp] theorem State.erase_mem (s : State) (x0) (h : K .mem = true) :
    State.erase K { s with mem := x0 } = s.erase K := by
  simp_all [State.erase]

@[simp] theorem State.erase_fab (s : State) (x0) (h : K .fab = true) :
    State.erase K { s with fab := x0 } = s.erase K := by
  simp_all [State.erase]

@[simp] theorem State.erase_coll (s : State) (x0) (h : K .coll = true) :
    State.erase K { s with coll := x0 } = s.erase K := by
  simp_all [State.erase]

@[simp] theorem State.erase_plat (s : State) (x0) (h : K .plat = true) :
    State.erase K { s with plat := x0 } = s.erase K := by
  simp_all [State.erase]

@[simp] theorem State.erase_opt (s : State) (x0) (h : K .opt = true) :
    State.erase K { s with opt := x0 } = s.erase K := by
  simp_all [State.erase]

@[simp] theorem State.erase_dl (s : State) (x0) (h : K .dl = true) :
    State.erase K { s with dl := x0 } = s.erase K := by
  simp_all [State.erase]

@[simp] theorem State.erase_flash (s : State) (x0) (h : K .flash = true) :
    State.erase K { s with flash := x0 } = s.erase K := by
  simp_all [State.erase]

@[simp] theorem State.erase_otp (s : State) (x0) (h : K .otp = true) :
    State.erase K { s with otp := x0 } = s.erase K := by
  simp_all [State.erase]

@[simp] theorem State.erase_start (s : State) (x0) (h : K .start = true) :
    State.erase K { s with start := x0 } = s.erase K := by
  simp_all [State.erase]

@[simp] theorem State.erase_rcv (s : State) (x0) (h : K .rcv = true) :
    State.erase K { s with rcv := x0 } = s.erase K := by
  simp_all [State.erase]

@[simp] theorem State.erase_pwr (s : State) (x0) (h : K .pwr = true) :
    State.erase K { s with pwr := x0 } = s.erase K := by
  simp_all [State.erase]

@[simp] theorem State.erase_clocks (s : State) (x0) (h : K .clocks = true) :
    State.erase K { s with clocks := x0 } = s.erase K := by
  simp_all [State.erase]

@[simp] theorem State.erase_tbs (s : State) (x0) (h : K .tbs = true) :
    State.erase K { s with tbs := x0 } = s.erase K := by
  simp_all [State.erase]

@[simp] theorem State.erase_sec (s : State) (x0) (h : K .sec = true) :
    State.erase K { s with sec := x0 } = s.erase K := by
  simp_all [State.erase]

@[simp] theorem State.erase_tel (s : State) (x0) (h : K .tel = true) :
    State.erase K { s with tel := x0 } = s.erase K := by
  simp_all [State.erase]

@[simp] theorem State.erase_regs_host (s : State) (x0) (x1) (h : K .regs = true ∧ K .host = true) :
    State.erase K { s with regs := x0, host := x1 } = s.erase K := by
  simp_all [State.erase]

@[simp] theorem State.erase_step_start (s : State) (x0) (x1) (h : K .step = true ∧ K .start = true) :
    State.erase K { s with step := x0, start := x1 } = s.erase K := by
  simp_all [State.erase]

@[simp] theorem State.erase_sync_gang_step_maq_upd_fab_coll_flash (s : State) (x0) (x1) (x2) (x3) (x4) (x5) (x6) (x7) (h : K .sync = true ∧ K .gang = true ∧ K .step = true ∧ K .maq = true ∧ K .upd = true ∧ K .fab = true ∧ K .coll = true ∧ K .flash = true) :
    State.erase K { s with sync := x0, gang := x1, step := x2, maq := x3, upd := x4, fab := x5, coll := x6, flash := x7 } = s.erase K := by
  simp_all [State.erase]

@[simp] theorem State.erase_plat_start (s : State) (x0) (x1) (h : K .plat = true ∧ K .start = true) :
    State.erase K { s with plat := x0, start := x1 } = s.erase K := by
  simp_all [State.erase]

@[simp] theorem State.erase_mem_flash_start (s : State) (x0) (x1) (x2) (h : K .mem = true ∧ K .flash = true ∧ K .start = true) :
    State.erase K { s with mem := x0, flash := x1, start := x2 } = s.erase K := by
  simp_all [State.erase]

@[simp] theorem State.erase_flash_start (s : State) (x0) (x1) (h : K .flash = true ∧ K .start = true) :
    State.erase K { s with flash := x0, start := x1 } = s.erase K := by
  simp_all [State.erase]

@[simp] theorem State.erase_sync_gang_step_maq_img_upd_fab_coll_flash (s : State) (x0) (x1) (x2) (x3) (x4) (x5) (x6) (x7) (x8) (h : K .sync = true ∧ K .gang = true ∧ K .step = true ∧ K .maq = true ∧ K .img = true ∧ K .upd = true ∧ K .fab = true ∧ K .coll = true ∧ K .flash = true) :
    State.erase K { s with sync := x0, gang := x1, step := x2, maq := x3, img := x4, upd := x5, fab := x6, coll := x7, flash := x8 } = s.erase K := by
  simp_all [State.erase]

@[simp] theorem State.erase_upd_start (s : State) (x0) (x1) (h : K .upd = true ∧ K .start = true) :
    State.erase K { s with upd := x0, start := x1 } = s.erase K := by
  simp_all [State.erase]

@[simp] theorem State.erase_upd_mem_start_clocks_tbs_sec (s : State) (x0) (x1) (x2) (x3) (x4) (x5) (h : K .upd = true ∧ K .mem = true ∧ K .start = true ∧ K .clocks = true ∧ K .tbs = true ∧ K .sec = true) :
    State.erase K { s with upd := x0, mem := x1, start := x2, clocks := x3, tbs := x4, sec := x5 } = s.erase K := by
  simp_all [State.erase]

@[simp] theorem State.erase_tb_pwr_clocks (s : State) (x0) (x1) (x2) (h : K .tb = true ∧ K .pwr = true ∧ K .clocks = true) :
    State.erase K { s with tb := x0, pwr := x1, clocks := x2 } = s.erase K := by
  simp_all [State.erase]

@[simp] theorem State.erase_tb_tbs (s : State) (x0) (x1) (h : K .tb = true ∧ K .tbs = true) :
    State.erase K { s with tb := x0, tbs := x1 } = s.erase K := by
  simp_all [State.erase]

@[simp] theorem State.erase_step_img (s : State) (x0) (x1) (h : K .step = true ∧ K .img = true) :
    State.erase K { s with step := x0, img := x1 } = s.erase K := by
  simp_all [State.erase]

@[simp] theorem State.erase_fab_coll (s : State) (x0) (x1) (h : K .fab = true ∧ K .coll = true) :
    State.erase K { s with fab := x0, coll := x1 } = s.erase K := by
  simp_all [State.erase]

end Sys2Proof.Machine
end

