-- ==== Sys2Proof/Laws/FrameOps.lean ====
section
/-! SUPPORT. Laws/FrameOps.lean: which components of the state each operation of Machine/Ops.lean can change. -/
namespace Sys2Proof.Machine
open Sys2Proof

variable {K : Comp → Bool}

@[simp] theorem updDie_frame (h : [.dies].all K = true) (s d f)  :
    (updDie s d f).erase K = s.erase K := by
  simp at h; simp [updDie, h]

@[simp] theorem updStr_frame (h : [.dies].all K = true) (s d c f)  :
    (updStr s d c f).erase K = s.erase K := by
  simp at h; simp [updStr, h]

@[simp] theorem updCtx_frame (h : [.dies].all K = true) (s d c f)  :
    (updCtx s d c f).erase K = s.erase K := by
  simp at h; simp [updCtx, h]

@[simp] theorem updArr_frame (h : [.dies].all K = true) (s d f)  :
    (updArr s d f).erase K = s.erase K := by
  simp at h; simp [updArr, h]

@[simp] theorem forDies_frame  (f s) (hf : ∀ z0 z1, State.erase K (f z0 z1) = State.erase K z1) :
    (forDies f s).erase K = s.erase K := by
  exact State.erase_foldl _ _ _ fun s d => hf d s

@[simp] theorem forStreams_frame  (f s) (hf : ∀ z0 z1 z2, State.erase K (f z0 z1 z2) = State.erase K z2) :
    (forStreams f s).erase K = s.erase K := by
  simp [forStreams]
  exact State.erase_foldl _ _ _ fun s d => State.erase_foldl _ _ _ fun s c => hf d c s

@[simp] theorem setReg_frame (h : [.regs].all K = true) (s off v)  :
    (setReg s off v).erase K = s.erase K := by
  simp at h; simp [setReg, h]

@[simp] theorem setReg64_frame (h : [.regs].all K = true) (s off v)  :
    (setReg64 s off v).erase K = s.erase K := by
  simp at h; simp [setReg64, h]

@[simp] theorem addReg_frame (h : [.regs].all K = true) (s off n)  :
    (addReg s off n).erase K = s.erase K := by
  simp at h; simp [addReg, h]

@[simp] theorem addReg64_frame (h : [.regs].all K = true) (s off n)  :
    (addReg64 s off n).erase K = s.erase K := by
  simp at h; simp [addReg64, h]

@[simp] theorem setFld_frame (h : [.regs].all K = true) (s off hi lo v)  :
    (setFld s off hi lo v).erase K = s.erase K := by
  simp at h; simp [setFld, h]

@[simp] theorem satFld16_frame (h : [.regs].all K = true) (s off lo)  :
    (satFld16 s off lo).erase K = s.erase K := by
  simp at h; simp [satFld16, h]

@[simp] theorem emit_frame (h : [.out].all K = true) (s o)  :
    (emit s o).erase K = s.erase K := by
  simp at h; simp [emit, h]

@[simp] theorem complete_frame (h : [.out].all K = true) (s m st data)  :
    (complete s m st data).erase K = s.erase K := by
  simp at h; simp [complete, h]

@[simp] theorem busErr_frame (h : [.out].all K = true) (s m)  :
    (busErr s m).erase K = s.erase K := by
  simp at h; unfold busErr; split <;> simp [h]

@[simp] theorem drawFree_frame (h : [.free].all K = true) (s)  :
    (drawFree s).2.erase K = s.erase K := by
  simp at h; simp [drawFree, h]

@[simp] theorem countWait_frame (h : [.regs].all K = true) (n d c s)  :
    (countWait n d c s).erase K = s.erase K := by
  simp at h; unfold countWait; repeat' split
  all_goals simp [h]

@[simp] theorem countThrottle_frame (h : [.regs].all K = true) (n d s)  :
    (countThrottle n d s).erase K = s.erase K := by
  simp at h; simp [countThrottle, h]

@[simp] theorem countHold_frame (h : [.regs, .dies].all K = true) (n d s)  :
    (countHold n d s).erase K = s.erase K := by
  simp at h; unfold countHold; dsimp only; repeat' split
  all_goals simp [h]

@[simp] theorem slewed_frame (h : [.tb, .tbs].all K = true) (n s)  :
    (slewed n s).erase K = s.erase K := by
  simp at h; simp [slewed, h]

@[simp] theorem advance_frame (h : [.clk, .tb, .regs, .dies, .tbs].all K = true) (n s)  :
    (advance n s).erase K = s.erase K := by
  simp at h; simp [advance, h]

@[simp] theorem advanceTo_frame (h : [.clk, .tb, .regs, .dies, .tbs].all K = true) (t s)  :
    (advanceTo t s).erase K = s.erase K := by
  simp at h; simp [advanceTo, h]

@[simp] theorem msixDue_frame (h : [.out, .host].all K = true) (s v)  :
    (msixDue s v).erase K = s.erase K := by
  simp at h; simp [msixDue, h]

@[simp] theorem moduleEvent_frame (h : [.out, .host].all K = true) (s v)  :
    (moduleEvent s v).erase K = s.erase K := by
  simp at h; unfold moduleEvent; split <;> simp [h]

@[simp] theorem pldmEventOf_frame (h : [.out, .host].all K = true) (s v)  :
    (pldmEventOf s v).erase K = s.erase K := by
  simp at h; unfold pldmEventOf; split <;> simp [h]

@[simp] theorem classEvent_frame (h : [.out, .host].all K = true) (s v enabled)  :
    (classEvent s v enabled).erase K = s.erase K := by
  simp at h; simp [classEvent, h]

@[simp] theorem elogAppend_frame (h : [.host].all K = true) (s off bit)  :
    (elogAppend s off bit).erase K = s.erase K := by
  simp at h; simp [elogAppend, h]

@[simp] theorem rsEvents_frame (h : [.out, .rs, .host].all K = true) (s off bits)  :
    (rsEvents s off bits).erase K = s.erase K := by
  simp at h; unfold rsEvents; dsimp only; repeat' split
  all_goals simp [h]

@[simp] theorem rsEvent_frame (h : [.out, .rs, .host].all K = true) (s off bit)  :
    (rsEvent s off bit).erase K = s.erase K := by
  simp at h; simp [rsEvent, h]

@[simp] theorem secLog_frame (h : [.sec].all K = true) (s bit path detail)  :
    (secLog s bit path detail).erase K = s.erase K := by
  simp at h; simp [secLog, h]

@[simp] theorem secEvent_frame (h : [.out, .rs, .host, .sec].all K = true) (s bit path detail)  :
    (secEvent s bit path detail).erase K = s.erase K := by
  simp at h; simp [secEvent, h]

end Sys2Proof.Machine
end

