-- ==== Sys2Proof/Laws/FrameSync.lean ====
section
/-! SUPPORT. Laws/FrameSync.lean: which components of the state each operation of Machine/Sync.lean can change. -/
namespace Sys2Proof.Machine
open Sys2Proof

variable {K : Comp → Bool}

@[simp] theorem putObj_frame (h : [.sync, .dies].all K = true) (s r o)  :
    (putObj s r o).erase K = s.erase K := by
  simp at h; unfold putObj; split <;> simp [h]

@[simp] theorem syncEvent_frame (h : [.out, .regs, .rs, .host].all K = true) (s bit cause src ref)  :
    (syncEvent s bit cause src ref).erase K = s.erase K := by
  simp at h; simp [syncEvent, h]

@[simp] theorem cdSyncEvent_frame (h : [.out, .regs, .rs, .host].all K = true) (s d bit cause src ref)  :
    (cdSyncEvent s d bit cause src ref).erase K = s.erase K := by
  simp at h; simp [cdSyncEvent, h]

@[simp] theorem logObjError_frame (h : [.out, .regs, .rs, .host].all K = true) (s r cause src)  :
    (logObjError s r cause src).erase K = s.erase K := by
  simp at h; unfold logObjError; split <;> simp [h]

@[simp] theorem stopImage_frame (h : [.img].all K = true) (s code)  :
    (stopImage s code).erase K = s.erase K := by
  simp at h; simp [stopImage, h]

@[simp] theorem endSlot_frame (h : [.out, .regs, .host].all K = true) (s n status o)  :
    (endSlot s n status o).erase K = s.erase K := by
  simp at h; simp [endSlot, h]

@[simp] theorem issued_frame (h : [.regs, .dies].all K = true) (s d c)  :
    (issued s d c).erase K = s.erase K := by
  simp at h; simp [issued, h]

@[simp] theorem endStreamWait_frame (h : [.regs, .dies, .img].all K = true) (s d c status)  :
    (endStreamWait s d c status).1.erase K = s.erase K := by
  simp at h; unfold endStreamWait; dsimp only; repeat' split
  all_goals simp [h]

@[simp] theorem endWaiters_frame (h : [.out, .regs, .rs, .host, .dies, .img].all K = true) (s r o y3)  :
    (endWaiters s r o y3).1.erase K = s.erase K := by
  simp at h
  induction y3 generalizing s with
  | nil => rfl
  | cons p ws ih =>
    obtain ⟨w, st⟩ := p
    simp only [endWaiters]
    split
    · rw [ih]; simp [h]
    · dsimp only; rw [ih]; split <;> simp [h]

@[simp] theorem applyRes_frame (h : [.out, .regs, .rs, .host, .sync, .dies, .img].all K = true) (s r src res)  :
    (applyRes s r src res).1.erase K = s.erase K := by
  simp at h; simp [applyRes, h]

@[simp] theorem noteInput_frame (h : [.step].all K = true) (s src i)  :
    (noteInput s src i).erase K = s.erase K := by
  simp at h; unfold noteInput; split <;> simp [h]

@[simp] theorem noteCommit_frame (h : [.upd].all K = true) (s src i)  :
    (noteCommit s src i).erase K = s.erase K := by
  simp at h; simp [noteCommit, h]

@[simp] theorem addOnce_frame (h : [.out, .regs, .rs, .host, .sync, .dies, .step, .img, .upd].all K = true) (s g)  :
    (addOnce s g).1.erase K = s.erase K := by
  simp at h; unfold addOnce; dsimp only; repeat' split
  all_goals simp [h]

@[simp] theorem addSignals_frame (h : [.out, .regs, .rs, .host, .sync, .dies, .step, .img, .upd].all K = true) (y0 y1 y2)  :
    (addSignals y0 y1 y2).erase K = y2.erase K := by
  simp at h
  induction y0 generalizing y1 y2 with
  | zero => cases y1 <;> rfl
  | succ n ih =>
    cases y1 with
    | nil => rfl
    | cons g gs => simp [addSignals, ih, h]

@[simp] theorem signals_frame (h : [.out, .regs, .rs, .host, .sync, .dies, .step, .img, .upd].all K = true) (s gs)  :
    (signals s gs).erase K = s.erase K := by
  simp at h; simp [signals, h]

@[simp] theorem signalUnit_frame (h : [.out, .regs, .rs, .host, .sync, .dies, .step, .img, .upd].all K = true) (s i)  :
    (signalUnit s i).erase K = s.erase K := by
  simp at h; simp [signalUnit, h]

@[simp] theorem signalPlinth_frame (h : [.out, .regs, .rs, .host, .sync, .dies, .step, .img, .upd].all K = true) (s i)  :
    (signalPlinth s i).erase K = s.erase K := by
  simp at h; simp [signalPlinth, h]

@[simp] theorem leaveObj_frame (h : [.out, .regs, .rs, .host, .sync, .dies, .step, .img, .upd].all K = true) (s r who)  :
    (leaveObj s r who).erase K = s.erase K := by
  simp at h; simp [leaveObj, h]

@[simp] theorem setObjError_frame (h : [.out, .regs, .rs, .host, .sync, .dies, .step, .img, .upd].all K = true) (s r cause src)  :
    (setObjError s r cause src).erase K = s.erase K := by
  simp at h; simp [setObjError, h]

@[simp] theorem waitOn_frame (h : [.out, .regs, .rs, .host, .sync, .dies, .step, .img, .upd].all K = true) (s r w)  :
    (waitOn s r w).erase K = s.erase K := by
  simp at h; simp [waitOn, h]

@[simp] theorem rearmObj_frame (h : [.out, .regs, .rs, .host, .sync, .dies, .step, .img, .upd].all K = true) (s r c g)  :
    (rearmObj s r c g).erase K = s.erase K := by
  simp at h; simp [rearmObj, h]

@[simp] theorem stepRearm_frame (h : [.out, .regs, .rs, .host, .sync, .dies, .step, .img, .upd].all K = true) (g d i s)  :
    (stepRearm g d i s).erase K = s.erase K := by
  simp at h; simp [stepRearm, h]

@[simp] theorem leaveAll_frame (h : [.out, .regs, .rs, .host, .sync, .dies, .step, .img, .upd].all K = true) (s ws)  :
    (leaveAll s ws).erase K = s.erase K := by
  simp at h; simp [leaveAll, h]

@[simp] theorem withdrawAll_frame (h : [.out, .regs, .rs, .host, .sync, .dies, .step, .img, .upd].all K = true) (s xs)  :
    (withdrawAll s xs).erase K = s.erase K := by
  simp at h; simp [withdrawAll, h]

@[simp] theorem withdrawWait_frame (h : [.out, .regs, .rs, .host, .sync, .dies, .step, .img, .upd].all K = true) (s d c)  :
    (withdrawWait s d c).erase K = s.erase K := by
  simp at h; unfold withdrawWait; split <;> simp [h]

@[simp] theorem resetObjs_frame (h : [.dies].all K = true) (s d g)  :
    (resetObjs s d g).erase K = s.erase K := by
  simp at h; simp [resetObjs, h]

@[simp] theorem hostProtect_frame (h : [.out, .regs, .rs, .host].all K = true) (s i)  :
    (hostProtect s i).erase K = s.erase K := by
  simp at h; simp [hostProtect, h]

@[simp] theorem doObjSignal_frame (h : [.out, .regs, .rs, .host, .sync, .dies, .step, .img, .upd].all K = true) (i v s)  :
    (doObjSignal i v s).erase K = s.erase K := by
  simp at h; simp [doObjSignal, h]

@[simp] theorem doObjDec_frame (h : [.out, .regs, .rs, .host, .sync, .dies, .step, .img, .upd].all K = true) (i v s)  :
    (doObjDec i v s).erase K = s.erase K := by
  simp at h; simp [doObjDec, h]

@[simp] theorem doObjRearm_frame (h : [.out, .regs, .rs, .host, .sync, .dies, .step, .img, .upd].all K = true) (i v s)  :
    (doObjRearm i v s).erase K = s.erase K := by
  simp at h; simp [doObjRearm, h]

@[simp] theorem cancelSlot_frame (h : [.out, .regs, .rs, .host, .sync, .dies, .step, .img, .upd].all K = true) (s n)  :
    (cancelSlot s n).erase K = s.erase K := by
  simp at h; simp [cancelSlot, h]

@[simp] theorem armSlot_frame (h : [.out, .regs, .rs, .host, .sync, .dies, .step, .img, .upd].all K = true) (n v s)  :
    (armSlot n v s).erase K = s.erase K := by
  simp at h; simp [armSlot, h]

@[simp] theorem disarmSlot_frame (h : [.out, .regs, .rs, .host, .sync, .dies, .step, .img, .upd].all K = true) (n v s)  :
    (disarmSlot n v s).erase K = s.erase K := by
  simp at h; simp [disarmSlot, h]

@[simp] theorem cancelAllSlots_frame (h : [.out, .regs, .rs, .host, .sync, .dies, .step, .img, .upd].all K = true) (s)  :
    (cancelAllSlots s).erase K = s.erase K := by
  simp at h; simp [cancelAllSlots, h]

@[simp] theorem writeSyncCtl_frame (h : [.out, .regs, .rs, .host, .sync, .dies, .step, .img, .upd].all K = true) (v s)  :
    (writeSyncCtl v s).erase K = s.erase K := by
  simp at h; simp [writeSyncCtl, h]

end Sys2Proof.Machine
end

