-- ==== Sys2Proof/Laws/FrameMemory.lean ====
section
/-! SUPPORT. Laws/FrameMemory.lean: which components of the state each operation of Machine/Memory.lean can change. -/
namespace Sys2Proof.Machine
open Sys2Proof

variable {K : Comp → Bool}

@[simp] theorem requestStop_frame (h : [.step, .img].all K = true) (s code)  :
    (requestStop s code).erase K = s.erase K := by
  simp at h; unfold requestStop; split <;> simp [h]

@[simp] theorem updStack_frame (h : [.mem].all K = true) (s n f)  :
    (updStack s n f).erase K = s.erase K := by
  simp at h; simp [updStack, h]

@[simp] theorem memEvent_frame (h : [.out, .regs, .rs, .host].all K = true) (s bit n row)  :
    (memEvent s bit n row).erase K = s.erase K := by
  simp at h; simp [memEvent, h]

@[simp] theorem poisonPage_frame (h : [.mem].all K = true) (s n p)  :
    (poisonPage s n p).erase K = s.erase K := by
  simp at h; simp [poisonPage, h]

@[simp] theorem logMapOut_frame (h : [.flash].all K = true) (s n ch)  :
    (logMapOut s n ch).erase K = s.erase K := by
  simp at h; simp [logMapOut, h]

@[simp] theorem logRemap_frame (h : [.flash].all K = true) (s n p sub)  :
    (logRemap s n p sub).erase K = s.erase K := by
  simp at h; simp [logRemap, h]

@[simp] theorem setRemap_frame (h : [.mem, .flash].all K = true) (s n p sub)  :
    (setRemap s n p sub).erase K = s.erase K := by
  simp at h; simp [setRemap, h]

@[simp] theorem retireOne_frame (h : [.out, .regs, .rs, .host, .step, .img, .mem, .flash].all K = true) (s n p row again)  :
    (retireOne s n p row again).erase K = s.erase K := by
  simp at h; simp [retireOne, h]

@[simp] theorem retirePage_frame (h : [.out, .regs, .rs, .host, .step, .img, .mem, .flash].all K = true) (s n o row)  :
    (retirePage s n o row).erase K = s.erase K := by
  simp at h; unfold retirePage; dsimp only; repeat' split
  all_goals simp [h]

@[simp] theorem rowNeedsRepair_frame (h : [.out, .regs, .rs, .host, .step, .img, .mem, .flash].all K = true) (s n o)  :
    (rowNeedsRepair s n o).erase K = s.erase K := by
  simp at h; simp [rowNeedsRepair, h]

@[simp] theorem foundUe_frame (h : [.out, .regs, .rs, .host, .step, .img, .mem, .flash].all K = true) (s g a)  :
    (foundUe s g a).erase K = s.erase K := by
  simp at h; simp [foundUe, h]

@[simp] theorem correctGran_frame (h : [.regs, .mem].all K = true) (s g)  :
    (correctGran s g).erase K = s.erase K := by
  simp at h; simp [correctGran, h]

@[simp] theorem foundCe_frame (h : [.out, .regs, .rs, .host, .step, .img, .mem, .flash].all K = true) (s g)  :
    (foundCe s g).erase K = s.erase K := by
  simp at h; unfold foundCe; dsimp only; repeat' split
  all_goals simp [h]

@[simp] theorem caParity_frame (h : [.out, .regs, .rs, .host, .step, .img, .mem, .flash].all K = true) (s grans)  :
    (caParity s grans).erase K = s.erase K := by
  simp at h; simp [caParity, h]

@[simp] theorem repairRow_frame (h : [.out, .regs, .rs, .host, .step, .img, .mem, .flash].all K = true) (s n row)  :
    (repairRow s n row).erase K = s.erase K := by
  simp at h; simp [repairRow, h]

@[simp] theorem holdForRepair_frame (h : [.out, .regs, .rs, .host, .step, .img, .mem, .flash].all K = true) (s g)  :
    (holdForRepair s g).erase K = s.erase K := by
  simp at h; unfold holdForRepair; dsimp only; repeat' split
  all_goals simp [h]

@[simp] theorem touchGran_frame (h : [.out, .regs, .rs, .host, .step, .img, .mem, .flash].all K = true) (s g a)  :
    (touchGran s g a).erase K = s.erase K := by
  simp at h; simp [touchGran, h]

theorem memRead_frame (h : [.out, .regs, .rs, .host, .step, .img, .mem, .flash].all K = true) (s a len)  :
    ∀ x t, memRead s a len = some (x, t) → t.erase K = s.erase K := by
  simp at h; simp [memRead, h]

@[simp] theorem writeMark_frame (h : [.out, .regs, .rs, .host, .step, .img, .mem, .flash].all K = true) (s a len g b)  :
    (writeMark s a len g b).erase K = s.erase K := by
  simp at h; simp [writeMark, h]

theorem memWrite_frame (h : [.out, .regs, .rs, .host, .step, .img, .mem, .flash].all K = true) (s a bs)  :
    ∀ x t, memWrite s a bs = some (x, t) → t.erase K = s.erase K := by
  simp at h; unfold memWrite; dsimp only; repeat' split
  all_goals simp [h]

@[simp] theorem memPut_frame (h : [.out, .regs, .rs, .host, .step, .img, .mem, .flash].all K = true) (s a bs)  :
    (memPut s a bs).erase K = s.erase K := by
  simp at h; unfold memPut; split
  · rename_i heq; exact memWrite_frame (by simp [h]) _ _ _ _ _ heq
  · rfl

@[simp] theorem memPoison_frame (h : [.mem].all K = true) (s a len)  :
    (memPoison s a len).erase K = s.erase K := by
  simp at h; simp [memPoison, h]

@[simp] theorem tsEvent_frame (h : [.out, .regs, .rs, .host].all K = true) (s d bit off port)  :
    (tsEvent s d bit off port).erase K = s.erase K := by
  simp at h; simp [tsEvent, h]

@[simp] theorem tsCorrect_frame (h : [.out, .regs, .rs, .host, .dies].all K = true) (s d ws port)  :
    (tsCorrect s d ws port).erase K = s.erase K := by
  simp at h; simp [tsCorrect, h]

@[simp] theorem tsStuck_frame (h : [.out, .regs, .rs, .host].all K = true) (s d ws port)  :
    (tsStuck s d ws port).erase K = s.erase K := by
  simp at h; simp [tsStuck, h]

@[simp] theorem tsRead_frame (h : [.out, .regs, .rs, .host, .dies].all K = true) (s d off len port)  :
    (tsRead s d off len port).2.erase K = s.erase K := by
  simp at h; simp [tsRead, h]

@[simp] theorem tsWrite_frame (h : [.out, .regs, .rs, .host, .dies].all K = true) (s d off bs port)  :
    (tsWrite s d off bs port).erase K = s.erase K := by
  simp at h; simp [tsWrite, h]

@[simp] theorem doRowRepairDone_frame (h : [.out, .regs, .rs, .host, .step, .img, .mem, .flash].all K = true) (n row s)  :
    (doRowRepairDone n row s).erase K = s.erase K := by
  simp at h; unfold doRowRepairDone; split <;> simp [h]

@[simp] theorem doPatrolScrub_frame (h : [.out, .regs, .rs, .host, .step, .img, .mem, .flash].all K = true) (n s)  :
    (doPatrolScrub n s).erase K = s.erase K := by
  simp at h; simp [doPatrolScrub, h]

@[simp] theorem doRowCeAge_frame (h : [.clk, .tb, .regs, .dies, .mem, .tbs].all K = true) (n row s)  :
    (doRowCeAge n row s).erase K = s.erase K := by
  simp at h; unfold doRowCeAge; split <;> simp [h]

end Sys2Proof.Machine
end

