-- ==== Sys2Proof/Laws/FramePackets.lean ====
section
/-! SUPPORT. Laws/FramePackets.lean: which components of the state each operation of Machine/Packets.lean can change. -/
namespace Sys2Proof.Machine
open Sys2Proof

variable {K : Comp → Bool}

@[simp] theorem fabErr_frame (h : [.out, .regs, .rs, .host].all K = true) (s bit p ch)  :
    (fabErr s bit p ch).erase K = s.erase K := by
  simp at h; simp [fabErr, h]

@[simp] theorem addrErr_frame (h : [.out, .regs, .rs, .host].all K = true) (s p ch)  :
    (addrErr s p ch).erase K = s.erase K := by
  simp at h; simp [addrErr, h]

@[simp] theorem updLink_frame (h : [.fab].all K = true) (s c f)  :
    (updLink s c f).erase K = s.erase K := by
  simp at h; simp [updLink, h]

@[simp] theorem showUsed_frame (h : [.regs].all K = true) (s port)  :
    (showUsed s port).erase K = s.erase K := by
  simp at h; simp [showUsed, h]

@[simp] theorem putOnLink_frame (h : [.out, .regs, .fab].all K = true) (s p c)  :
    (putOnLink s p c).erase K = s.erase K := by
  simp at h; simp [putOnLink, h]

@[simp] theorem grantCredit_frame (h : [.out, .fab].all K = true) (s ch vc n)  :
    (grantCredit s ch vc n).erase K = s.erase K := by
  simp at h; simp [grantCredit, h]

@[simp] theorem firstGrants_frame (h : [.out, .fab].all K = true) (s ch)  :
    (firstGrants s ch).erase K = s.erase K := by
  simp at h; simp [firstGrants, h]

@[simp] theorem freeCredit_frame (h : [.out, .fab].all K = true) (s ch vc n)  :
    (freeCredit s ch vc n).erase K = s.erase K := by
  simp at h; simp [freeCredit, h]

@[simp] theorem poolHold_frame (h : [.fab].all K = true) (s p ch)  :
    (poolHold s p ch).erase K = s.erase K := by
  simp at h; simp [poolHold, h]

@[simp] theorem poolLeave_frame (h : [.out, .fab].all K = true) (s p src)  :
    (poolLeave s p src).erase K = s.erase K := by
  simp at h; unfold poolLeave; split <;> simp [h]

@[simp] theorem addD_frame (h : [.fab].all K = true) (cls k c s)  :
    (addD cls k c s).erase K = s.erase K := by
  simp at h; simp [addD, h]

@[simp] theorem pick_frame (h : [.fab].all K = true) (s w fresh)  :
    (pick s w fresh).2.erase K = s.erase K := by
  simp at h; unfold pick; dsimp only; repeat' split
  all_goals simp [h]

@[simp] theorem dropLife_frame (h : [.out, .regs, .rs, .host].all K = true) (s p ch)  :
    (dropLife s p ch).erase K = s.erase K := by
  simp at h; simp [dropLife, h]

@[simp] theorem depart_frame (h : [.out, .regs, .rs, .host, .fab].all K = true) (s w c)  :
    (depart s w c).erase K = s.erase K := by
  simp at h; simp [depart, h]

@[simp] theorem keepWaiting_frame (h : [.out, .fab].all K = true) (s w)  :
    (keepWaiting s w).erase K = s.erase K := by
  simp at h; simp [keepWaiting, h]

@[simp] theorem parkPkt_frame (h : [.out, .regs, .fab].all K = true) (s w)  :
    (parkPkt s w).erase K = s.erase K := by
  simp at h; simp [parkPkt, h]

@[simp] theorem sendOn_frame (h : [.out, .regs, .rs, .host, .fab].all K = true) (s w)  :
    (sendOn s w).erase K = s.erase K := by
  simp at h; unfold sendOn
  split
  · simp [h]
  · simp [h]
  · split
    · rename_i q; have e := (congrArg (fun r => (Prod.snd r).erase K) q).symm.trans (pick_frame (by simp [h]) _ _ _); dsimp only at e; simp [h, e]
    · rename_i q; have e := (congrArg (fun r => (Prod.snd r).erase K) q).symm.trans (pick_frame (by simp [h]) _ _ _); dsimp only at e; simp [h, e]

@[simp] theorem sendPkt_frame (h : [.out, .regs, .rs, .host, .fab].all K = true) (s p)  :
    (sendPkt s p).erase K = s.erase K := by
  simp at h; unfold sendPkt; repeat' split
  all_goals first
    | done
    | simp [h]; done
    | rename_i heq
      have e := congrArg (fun r => (Prod.snd r).erase K) heq
      simp [h] at e
      simp [h, e]
    | rename_i heq
      have e := congrArg (fun r => (Prod.snd r).erase K) heq
      simp [h] at e
      simp [h, ← e]

@[simp] theorem toPeer_frame (h : [.out, .regs, .rs, .host, .fab].all K = true) (s p c)  :
    (toPeer s p c).erase K = s.erase K := by
  simp at h; simp [toPeer, h]

@[simp] theorem retryWaiting_frame (h : [.out, .regs, .rs, .host, .fab].all K = true) (s sel)  :
    (retryWaiting s sel).erase K = s.erase K := by
  simp at h; unfold retryWaiting
  dsimp only
  refine (State.erase_foldl _ _ _ fun s w => ?_).trans (by simp [h])
  split
  · split
    · rename_i q; have e := (congrArg (fun r => (Prod.snd r).erase K) q).symm.trans (pick_frame (by simp [h]) _ _ _); dsimp only at e; simp [h, e]
    · rename_i q; have e := (congrArg (fun r => (Prod.snd r).erase K) q).symm.trans (pick_frame (by simp [h]) _ _ _); dsimp only at e; simp [h, e]
  · simp [h]

@[simp] theorem takeFseq_frame (h : [.fab].all K = true) (s p)  :
    (takeFseq s p).2.erase K = s.erase K := by
  simp at h; unfold takeFseq; split <;> simp [h]

@[simp] theorem useTxn_frame (h : [.fab].all K = true) (s k)  :
    (useTxn s k).2.erase K = s.erase K := by
  simp at h; simp [useTxn, h]

theorem sendReq_frame (h : [.out, .regs, .rs, .host, .fab].all K = true) (s user own p)  :
    ∀ t, sendReq s user own p = some t → t.erase K = s.erase K := by
  simp at h; unfold sendReq; split <;> simp [h]

@[simp] theorem sendCollPkt_frame (h : [.out, .regs, .rs, .host, .fab].all K = true) (s user p)  :
    (sendCollPkt s user p).erase K = s.erase K := by
  simp at h; simp [sendCollPkt, h]

@[simp] theorem sendCopyA_frame (h : [.out, .regs, .rs, .host, .fab].all K = true) (p s m)  :
    (sendCopyA p s m).erase K = s.erase K := by
  simp at h; unfold sendCopyA; dsimp only; repeat' split
  all_goals first
    | done
    | simp [h]; done
    | rename_i heq
      have e := congrArg (fun r => (Prod.snd r).erase K) heq
      simp [h] at e
      simp [h, e]
    | rename_i heq
      have e := congrArg (fun r => (Prod.snd r).erase K) heq
      simp [h] at e
      simp [h, ← e]

@[simp] theorem sendCopyB_frame (h : [.out, .regs, .rs, .host, .fab].all K = true) (p s dm)  :
    (sendCopyB p s dm).erase K = s.erase K := by
  simp at h; unfold sendCopyB; dsimp only; repeat' split
  all_goals simp [h]

@[simp] theorem broadcast_frame (h : [.out, .regs, .rs, .host, .fab].all K = true) (s p)  :
    (broadcast s p).erase K = s.erase K := by
  simp at h; simp [broadcast, h]

end Sys2Proof.Machine
end

