-- ==== Sys2Proof/Laws/FrameGuard.lean ====
section
/-! SUPPORT. Laws/FrameGuard.lean: which components of the state each operation of Machine/Guard.lean can change. -/
namespace Sys2Proof.Machine
open Sys2Proof

variable {K : Comp → Bool}

@[simp] theorem updAttempt_frame (h : [.step].all K = true) (s att f)  :
    (updAttempt s att f).erase K = s.erase K := by
  simp at h; simp [updAttempt, h]

@[simp] theorem addCause_frame (h : [.step].all K = true) (s att bit layer cd)  :
    (addCause s att bit layer cd).erase K = s.erase K := by
  simp at h; simp [addCause, h]

@[simp] theorem writeVerdict_frame (h : [.out, .regs, .rs, .host, .step, .img, .mem, .flash].all K = true) (s att v)  :
    (writeVerdict s att v).erase K = s.erase K := by
  simp at h; unfold writeVerdict; split <;> simp [h]

@[simp] theorem guardReport_frame (h : [.step].all K = true) (s att bit layer cd)  :
    (guardReport s att bit layer cd).erase K = s.erase K := by
  simp at h; simp [guardReport, h]

@[simp] theorem dropInflight_frame (h : [.dies].all K = true) (s d c i)  :
    (dropInflight s d c i).erase K = s.erase K := by
  simp at h; simp [dropInflight, h]

@[simp] theorem dropColl_frame (h : [.fab, .coll].all K = true) (s k)  :
    (dropColl s k).erase K = s.erase K := by
  simp at h; simp [dropColl, h]

@[simp] theorem endColl_frame (h : [.out, .regs, .rs, .host, .sync, .dies, .step, .img, .upd, .fab, .coll].all K = true) (s k)  :
    (endColl s k).erase K = s.erase K := by
  simp at h; simp [endColl, h]

@[simp] theorem collInfo_frame (h : [.regs].all K = true) (s k round cause peer port)  :
    (collInfo s k round cause peer port).erase K = s.erase K := by
  simp at h; simp [collInfo, h]

@[simp] theorem withdrawReady_frame (h : [.dies, .gang].all K = true) (s d c)  :
    (withdrawReady s d c).erase K = s.erase K := by
  simp at h; simp [withdrawReady, h]

@[simp] theorem resetColls_frame (h : [.out, .regs, .rs, .host, .sync, .dies, .step, .img, .upd, .fab, .coll].all K = true) (s d c)  :
    (resetColls s d c).erase K = s.erase K := by
  simp at h; simp [resetColls, h]

@[simp] theorem resetNow_frame (h : [.out, .regs, .rs, .host, .sync, .dies, .gang, .step, .img, .upd, .fab, .coll].all K = true) (s d c)  :
    (resetNow s d c).erase K = s.erase K := by
  simp at h; simp [resetNow, h]

@[simp] theorem streamReset_frame (h : [.out, .regs, .rs, .host, .sync, .dies, .gang, .step, .img, .upd, .fab, .coll].all K = true) (s d c)  :
    (streamReset s d c).erase K = s.erase K := by
  simp at h; simp [streamReset, h]

@[simp] theorem enterPoison_frame (h : [.out, .regs, .rs, .host, .sync, .dies, .gang, .step, .img, .upd, .fab, .coll].all K = true) (s d c)  :
    (enterPoison s d c).erase K = s.erase K := by
  simp at h; simp [enterPoison, h]

@[simp] theorem setPoison_frame (h : [.out, .regs, .rs, .host, .sync, .dies, .gang, .step, .img, .upd, .mem, .fab, .coll, .flash].all K = true) (s att)  :
    (setPoison s att).erase K = s.erase K := by
  simp at h; simp [setPoison, h]

@[simp] theorem fastPoison_frame (h : [.out, .regs, .rs, .host, .sync, .dies, .gang, .step, .img, .upd, .mem, .fab, .coll, .flash].all K = true) (s att bit layer cd)  :
    (fastPoison s att bit layer cd).erase K = s.erase K := by
  simp at h; unfold fastPoison; repeat' split
  all_goals simp [h]

@[simp] theorem pass2Fault_frame (h : [.out, .regs, .rs, .host, .sync, .dies, .gang, .step, .img, .upd].all K = true) (s layer cd cause)  :
    (pass2Fault s layer cd cause).erase K = s.erase K := by
  simp at h; unfold pass2Fault; dsimp only; repeat' split
  all_goals simp [h]

@[simp] theorem recordFault_frame (h : [.out, .regs, .rs, .host].all K = true) (s d c bits typ seq addr)  :
    (recordFault s d c bits typ seq addr).erase K = s.erase K := by
  simp at h; simp [recordFault, h]

@[simp] theorem stepOver_frame (h : [.dies].all K = true) (s d c addr)  :
    (stepOver s d c addr).erase K = s.erase K := by
  simp at h; simp [stepOver, h]

@[simp] theorem faultAs_frame (h : [.out, .regs, .rs, .host, .sync, .dies, .gang, .step, .img, .upd, .mem, .fab, .coll, .flash].all K = true) (s d c prologue onPath bit typ seq addr layer)  :
    (faultAs s d c prologue onPath bit typ seq addr layer).erase K = s.erase K := by
  simp at h; simp [faultAs, h]

@[simp] theorem descFault_frame (h : [.out, .regs, .rs, .host, .sync, .dies, .gang, .step, .img, .upd, .mem, .fab, .coll, .flash].all K = true) (s d c bit typ seq addr layer)  :
    (descFault s d c bit typ seq addr layer).erase K = s.erase K := by
  simp at h; simp [descFault, h]

@[simp] theorem curFault_frame (h : [.out, .regs, .rs, .host, .sync, .dies, .gang, .step, .img, .upd, .mem, .fab, .coll, .flash].all K = true) (s d c bit w)  :
    (curFault s d c bit w).erase K = s.erase K := by
  simp at h; simp [curFault, h]

@[simp] theorem unitFault_frame (h : [.out, .regs, .rs, .host, .sync, .dies, .gang, .step, .img, .upd, .mem, .fab, .coll, .flash].all K = true) (s d c bit e)  :
    (unitFault s d c bit e).erase K = s.erase K := by
  simp at h; simp [unitFault, h]

@[simp] theorem completeDesc_frame (h : [.out, .regs, .rs, .host, .sync, .dies, .step, .img, .upd].all K = true) (s d c e)  :
    (completeDesc s d c e).erase K = s.erase K := by
  simp at h; simp [completeDesc, h]

end Sys2Proof.Machine
end

