-- ==== Sys2Proof/Laws/FrameStreams.lean ====
section
/-! SUPPORT. Laws/FrameStreams.lean: which components of the state each operation of Machine/Streams.lean can change. -/
namespace Sys2Proof.Machine
open Sys2Proof

variable {K : Comp → Bool}

@[simp] theorem stashFallback_frame (h : [.out, .regs, .rs, .host, .step].all K = true) (s att layer)  :
    (stashFallback s att layer).erase K = s.erase K := by
  simp at h; unfold stashFallback; split <;> simp [h]

@[simp] theorem stashTake_frame (h : [.out, .regs, .rs, .host, .sync, .dies, .gang, .step, .img, .upd, .mem, .fab, .coll, .flash].all K = true) (s d c w)  :
    (stashTake s d c w).2.erase K = s.erase K := by
  simp at h; unfold stashTake; dsimp only; repeat' split
  all_goals simp [h]

@[simp] theorem stashRelease_frame (h : [.step].all K = true) (s att)  :
    (stashRelease s att).erase K = s.erase K := by
  simp at h; simp [stashRelease, h]

@[simp] theorem passOver_frame (h : [.out, .regs, .rs, .host, .sync, .dies, .step, .img, .upd].all K = true) (s d c w)  :
    (passOver s d c w).erase K = s.erase K := by
  simp at h; simp [passOver, h]

@[simp] theorem noteRecompute_frame (h : [.step].all K = true) (s c att w)  :
    (noteRecompute s c att w).erase K = s.erase K := by
  simp at h; simp [noteRecompute, h]

@[simp] theorem issueAs_frame (h : [.out, .regs, .rs, .host, .sync, .dies, .gang, .step, .img, .upd, .mem, .fab, .coll, .flash].all K = true) (t p run d c s) (hrun : ∀ z0 z1, State.erase K (run z0 z1) = State.erase K z1) :
    (issueAs t p run d c s).erase K = s.erase K := by
  simp at h; unfold issueAs; split
  · rfl
  · simp [h, hrun]

@[simp] theorem waitUnit_frame (h : [.dies].all K = true) (s d c fabric)  :
    (waitUnit s d c fabric).erase K = s.erase K := by
  simp at h; simp [waitUnit, h]

@[simp] theorem startDesc_frame (h : [.regs, .dies].all K = true) (s d c e)  :
    (startDesc s d c e).erase K = s.erase K := by
  simp at h; simp [startDesc, h]

@[simp] theorem doDescFetch_frame (h : [.out, .regs, .rs, .host, .sync, .dies, .gang, .step, .img, .upd, .mem, .fab, .coll, .flash].all K = true) (d c s)  :
    (doDescFetch d c s).erase K = s.erase K := by
  simp at h; unfold doDescFetch; dsimp only
  split
  · rfl
  split
  · simp [h]
  split
  · simp [h]
  · rename_i heq
    have e := memRead_frame (K := K) (by simp [h]) _ _ _ _ _ heq
    repeat' split
    all_goals simp [h, e]

@[simp] theorem readPlace_frame (h : [.out, .regs, .rs, .host, .dies, .step, .img, .mem, .flash].all K = true) (s p len port)  :
    (readPlace s p len port).2.erase K = s.erase K := by
  simp at h; unfold readPlace; repeat' split
  · simp [h]
  · rename_i heq; exact memRead_frame (by simp [h]) _ _ _ _ _ heq
  · rfl
  · rfl

@[simp] theorem writePlace_frame (h : [.out, .regs, .rs, .host, .dies, .step, .img, .mem, .flash].all K = true) (s p bs port)  :
    (writePlace s p bs port).2.erase K = s.erase K := by
  simp at h; unfold writePlace; repeat' split
  · simp [h]
  · rename_i heq; exact memWrite_frame (by simp [h]) _ _ _ _ _ heq
  · rfl
  · rfl

@[simp] theorem freeBytes_frame (h : [.free].all K = true) (y0 y1)  :
    (freeBytes y0 y1).2.erase K = y1.erase K := by
  simp at h
  induction y0 generalizing y1 with
  | zero => rfl
  | succ n ih => simp [freeBytes, ih, h]

@[simp] theorem poisonPlace_frame (h : [.mem].all K = true) (s p)  :
    (poisonPlace s p).erase K = s.erase K := by
  simp at h; unfold poisonPlace; split <;> simp [h]

@[simp] theorem copyGran_frame (h : [.free, .out, .regs, .rs, .host, .dies, .step, .img, .mem, .flash].all K = true) (d w free r g acc)  :
    (copyGran d w free r g acc).2.erase K = acc.2.erase K := by
  simp at h; obtain ⟨b, s⟩ := acc; unfold copyGran; dsimp only
  split
  · simp [h]
  · simp only [writePlace_frame (K := K) (by simp [h])]; split <;> simp [h]

@[simp] theorem moveCopyAll_frame (h : [.free, .out, .regs, .rs, .host, .dies, .step, .img, .mem, .flash].all K = true) (d w s)  :
    (moveCopyAll d w s).2.erase K = s.erase K := by
  simp at h; unfold moveCopyAll; dsimp only
  refine (State.erase_foldl_pair _ _ _ fun a r => ?_).trans rfl
  exact State.erase_foldl_pair _ _ _ fun a g => by simp [h]

@[simp] theorem moveZeroAll_frame (h : [.out, .regs, .rs, .host, .dies, .step, .img, .mem, .flash].all K = true) (d w s)  :
    (moveZeroAll d w s).2.erase K = s.erase K := by
  simp at h; unfold moveZeroAll
  exact State.erase_foldl_pair _ _ _ fun s r => by simp [h]

@[simp] theorem runMove_frame (h : [.out, .regs, .rs, .host, .sync, .dies, .gang, .step, .img, .upd, .mem, .fab, .coll, .flash].all K = true) (d c all w s) (hall : ∀ z0 z1, State.erase K (all z0 z1).2 = State.erase K z1) :
    (runMove d c all w s).erase K = s.erase K := by
  simp at h; unfold runMove; dsimp only; repeat' split
  all_goals simp_all

@[simp] theorem doMoveCopy_frame (h : [.free, .out, .regs, .rs, .host, .sync, .dies, .gang, .step, .img, .upd, .mem, .fab, .coll, .flash].all K = true) (d c s)  :
    (doMoveCopy d c s).erase K = s.erase K := by
  simp at h; unfold doMoveCopy
  exact issueAs_frame (by simp [h]) _ _ _ _ _ _ fun w s => runMove_frame (by simp [h]) _ _ _ _ _ fun w s => by simp [h]

@[simp] theorem doMoveZero_frame (h : [.out, .regs, .rs, .host, .sync, .dies, .gang, .step, .img, .upd, .mem, .fab, .coll, .flash].all K = true) (d c s)  :
    (doMoveZero d c s).erase K = s.erase K := by
  simp at h; unfold doMoveZero
  exact issueAs_frame (by simp [h]) _ _ _ _ _ _ fun w s => runMove_frame (by simp [h]) _ _ _ _ _ fun w s => by simp [h]

@[simp] theorem doMoveDone_frame (h : [.out, .regs, .rs, .host, .sync, .dies, .gang, .step, .img, .upd, .mem, .fab, .coll, .flash].all K = true) (d c i s)  :
    (doMoveDone d c i s).erase K = s.erase K := by
  simp at h; unfold doMoveDone; split <;> simp [h]

@[simp] theorem runSignal_frame (h : [.out, .regs, .rs, .host, .sync, .dies, .gang, .step, .img, .upd, .mem, .fab, .coll, .flash].all K = true) (d c w s)  :
    (runSignal d c w s).erase K = s.erase K := by
  simp at h; unfold runSignal; dsimp only; repeat' split
  all_goals first
    | simp [h]; done
    | rename_i heq
      simp [h, sendReq_frame (K := K) (by simp [h]) _ _ _ _ _ heq]

@[simp] theorem doSignal_frame (h : [.out, .regs, .rs, .host, .sync, .dies, .gang, .step, .img, .upd, .mem, .fab, .coll, .flash].all K = true) (d c s)  :
    (doSignal d c s).erase K = s.erase K := by
  simp at h; simp [doSignal, h]

@[simp] theorem runWait_frame (h : [.out, .regs, .rs, .host, .sync, .dies, .step, .img, .upd].all K = true) (d c w s)  :
    (runWait d c w s).erase K = s.erase K := by
  simp at h; simp [runWait, h]

@[simp] theorem doWaitAtLeast_frame (h : [.out, .regs, .rs, .host, .sync, .dies, .gang, .step, .img, .upd, .mem, .fab, .coll, .flash].all K = true) (d c s)  :
    (doWaitAtLeast d c s).erase K = s.erase K := by
  simp at h; simp [doWaitAtLeast, h]

@[simp] theorem doWaitTake_frame (h : [.out, .regs, .rs, .host, .sync, .dies, .gang, .step, .img, .upd, .mem, .fab, .coll, .flash].all K = true) (d c s)  :
    (doWaitTake d c s).erase K = s.erase K := by
  simp at h; simp [doWaitTake, h]

@[simp] theorem streamTimeout_frame (h : [.out, .regs, .rs, .host, .sync, .dies, .gang, .step, .img, .upd, .mem, .fab, .coll, .flash].all K = true) (s d c)  :
    (streamTimeout s d c).erase K = s.erase K := by
  simp at h; unfold streamTimeout; dsimp only; repeat' split
  all_goals simp [h]

@[simp] theorem doWaiterTimeout_frame (h : [.clk, .tb, .out, .regs, .rs, .host, .sync, .dies, .gang, .step, .img, .upd, .mem, .fab, .coll, .flash, .tbs].all K = true) (o who s)  :
    (doWaiterTimeout o who s).erase K = s.erase K := by
  simp at h; unfold doWaiterTimeout; repeat' split
  all_goals simp [h]

@[simp] theorem beginAttempt_frame (h : [.out, .regs, .rs, .host, .sync, .dies, .gang, .step, .img, .upd, .mem, .fab, .coll, .flash].all K = true) (s att n no)  :
    (beginAttempt s att n no).erase K = s.erase K := by
  simp at h; unfold beginAttempt; dsimp only; repeat' split
  all_goals simp [h]

@[simp] theorem runBegin_frame (h : [.out, .regs, .rs, .host, .sync, .dies, .gang, .step, .img, .upd, .mem, .fab, .coll, .flash].all K = true) (d c w s)  :
    (runBegin d c w s).erase K = s.erase K := by
  simp at h; simp [runBegin, h]

@[simp] theorem doStepBegin_frame (h : [.out, .regs, .rs, .host, .sync, .dies, .gang, .step, .img, .upd, .mem, .fab, .coll, .flash].all K = true) (d c s)  :
    (doStepBegin d c s).erase K = s.erase K := by
  simp at h; simp [doStepBegin, h]

@[simp] theorem runEnd_frame (h : [.out, .regs, .rs, .host, .sync, .dies, .step, .img, .upd].all K = true) (d c w s)  :
    (runEnd d c w s).erase K = s.erase K := by
  simp at h; simp [runEnd, h]

@[simp] theorem doStepEnd_frame (h : [.out, .regs, .rs, .host, .sync, .dies, .gang, .step, .img, .upd, .mem, .fab, .coll, .flash].all K = true) (d c s)  :
    (doStepEnd d c s).erase K = s.erase K := by
  simp at h; simp [doStepEnd, h]

@[simp] theorem lateGuard_frame (h : [.dies].all K = true) (d c s)  :
    (lateGuard d c s).erase K = s.erase K := by
  simp at h; simp [lateGuard, h]

@[simp] theorem runGuard_frame (h : [.out, .regs, .rs, .host, .sync, .dies, .gang, .step, .img, .upd, .fab, .coll].all K = true) (d c w s)  :
    (runGuard d c w s).erase K = s.erase K := by
  simp at h; unfold runGuard; dsimp only; repeat' split
  all_goals simp [h]

@[simp] theorem doGuard_frame (h : [.out, .regs, .rs, .host, .sync, .dies, .gang, .step, .img, .upd, .mem, .fab, .coll, .flash].all K = true) (d c s)  :
    (doGuard d c s).erase K = s.erase K := by
  simp at h; simp [doGuard, h]

@[simp] theorem readLoss_frame (h : [.out, .regs, .rs, .host, .step, .img, .mem, .flash].all K = true) (s a)  :
    (readLoss s a).2.erase K = s.erase K := by
  simp at h; unfold readLoss; split
  · rename_i heq
    have e := memRead_frame (K := K) (by simp [h]) _ _ _ _ _ heq
    split <;> simp [e]
  · rfl

@[simp] theorem runLoss_frame (h : [.out, .regs, .rs, .host, .sync, .dies, .step, .img, .upd, .mem, .flash].all K = true) (d c w s)  :
    (runLoss d c w s).erase K = s.erase K := by
  simp at h; simp [runLoss, h]

@[simp] theorem doLoss_frame (h : [.out, .regs, .rs, .host, .sync, .dies, .gang, .step, .img, .upd, .mem, .fab, .coll, .flash].all K = true) (d c s)  :
    (doLoss d c s).erase K = s.erase K := by
  simp at h; simp [doLoss, h]

@[simp] theorem showScale_frame (h : [.regs].all K = true) (s)  :
    (showScale s).erase K = s.erase K := by
  simp at h; simp [showScale, h]

@[simp] theorem scalePoison_frame (h : [.out, .regs, .rs, .host, .step].all K = true) (s)  :
    (scalePoison s).erase K = s.erase K := by
  simp at h; unfold scalePoison; split <;> simp [h]

@[simp] theorem scaleCommit_frame (h : [.regs, .step].all K = true) (s)  :
    (scaleCommit s).erase K = s.erase K := by
  simp at h; unfold scaleCommit; split <;> simp [h]

@[simp] theorem showPoison_frame (h : [.regs].all K = true) (s)  :
    (showPoison s).erase K = s.erase K := by
  simp at h; simp [showPoison, h]

@[simp] theorem countSlots_frame (h : [.out, .regs, .rs, .host, .step].all K = true) (s a)  :
    (countSlots s a).erase K = s.erase K := by
  simp at h; simp [countSlots, h]

@[simp] theorem writeRecord_frame (h : [.out, .regs, .rs, .host, .sync, .dies, .step, .img, .upd, .mem, .flash].all K = true) (s a)  :
    (writeRecord s a).erase K = s.erase K := by
  simp at h; unfold writeRecord; repeat' split
  all_goals simp [h]

@[simp] theorem markRecorded_frame (h : [.step].all K = true) (s att)  :
    (markRecorded s att).erase K = s.erase K := by
  simp at h; simp [markRecorded, h]

@[simp] theorem endPoisoned_frame (h : [.out, .regs, .rs, .host, .sync, .dies, .step, .img, .upd, .mem, .flash].all K = true) (s a)  :
    (endPoisoned s a).erase K = s.erase K := by
  simp at h; unfold endPoisoned; dsimp only; repeat' split
  all_goals simp [h]

@[simp] theorem endClear_frame (h : [.out, .regs, .rs, .host, .sync, .dies, .step, .img, .upd, .mem, .flash].all K = true) (s a)  :
    (endClear s a).erase K = s.erase K := by
  simp at h; simp [endClear, h]

@[simp] theorem doStepUnitEndStep_frame (h : [.out, .regs, .rs, .host, .sync, .dies, .step, .img, .upd, .mem, .flash].all K = true) (s)  :
    (doStepUnitEndStep s).erase K = s.erase K := by
  simp at h; unfold doStepUnitEndStep; split <;> simp [h]

end Sys2Proof.Machine
end

