-- ==== Sys2Proof/Laws/FrameArray.lean ====
section
/-! SUPPORT. Laws/FrameArray.lean: which components of the state each operation of Machine/Array.lean can change. -/
namespace Sys2Proof.Machine
open Sys2Proof

variable {K : Comp → Bool}

@[simp] theorem showArr_frame (h : [.regs].all K = true) (s d w c)  :
    (showArr s d w c).erase K = s.erase K := by
  simp at h; simp [showArr, h]

@[simp] theorem arrErr_frame (h : [.out, .regs, .rs, .host].all K = true) (s d bit c tag)  :
    (arrErr s d bit c tag).erase K = s.erase K := by
  simp at h; simp [arrErr, h]

@[simp] theorem runArray_frame (h : [.out, .regs, .rs, .host, .sync, .dies, .gang, .step, .img, .upd, .mem, .fab, .coll, .flash].all K = true) (d c w s)  :
    (runArray d c w s).erase K = s.erase K := by
  simp at h; simp [runArray, h]

@[simp] theorem doArray_frame (h : [.out, .regs, .rs, .host, .sync, .dies, .gang, .step, .img, .upd, .mem, .fab, .coll, .flash].all K = true) (d c s)  :
    (doArray d c s).erase K = s.erase K := by
  simp at h; simp [doArray, h]

@[simp] theorem computeItem_frame (h : [.out, .regs, .rs, .host, .dies].all K = true) (s d o)  :
    (computeItem s d o).erase K = s.erase K := by
  simp at h; simp [computeItem, h]

@[simp] theorem runItems_frame (h : [.out, .regs, .rs, .host, .dies].all K = true) (y0 y1 y2)  :
    (runItems y0 y1 y2).erase K = y2.erase K := by
  simp at h
  induction y0 generalizing y2 with
  | zero => rfl
  | succ n ih =>
    unfold runItems; split
    · rfl
    · repeat' split
      all_goals simp [h, ih]

@[simp] theorem runOp_frame (h : [.out, .regs, .rs, .host, .dies].all K = true) (d s)  :
    (runOp d s).erase K = s.erase K := by
  simp at h; unfold runOp; split <;> simp [h]

@[simp] theorem gangFaultDie_frame (h : [.out, .regs, .rs, .host, .sync, .dies, .gang, .step, .img, .upd, .mem, .fab, .coll, .flash].all K = true) (s0 c tag d s)  :
    (gangFaultDie s0 c tag d s).erase K = s.erase K := by
  simp at h; simp [gangFaultDie, h]

@[simp] theorem gangFault_frame (h : [.out, .regs, .rs, .host, .sync, .dies, .gang, .step, .img, .upd, .mem, .fab, .coll, .flash].all K = true) (s c bit mask tag)  :
    (gangFault s c bit mask tag).erase K = s.erase K := by
  simp at h; simp [gangFault, h]

@[simp] theorem startOp_frame (h : [.out, .regs, .rs, .host, .sync, .dies, .step, .img, .upd].all K = true) (c d s)  :
    (startOp c d s).erase K = s.erase K := by
  simp at h; unfold startOp; dsimp only; repeat' split
  all_goals simp [h]

@[simp] theorem doGangGrant_frame (h : [.out, .regs, .rs, .host, .sync, .dies, .gang, .step, .img, .upd, .mem, .fab, .coll, .flash].all K = true) (s)  :
    (doGangGrant s).erase K = s.erase K := by
  simp at h; unfold doGangGrant; repeat' split
  all_goals simp [h]

@[simp] theorem doGangTimeout_frame (h : [.clk, .tb, .out, .regs, .rs, .host, .sync, .dies, .gang, .step, .img, .upd, .mem, .fab, .coll, .flash, .tbs].all K = true) (c s)  :
    (doGangTimeout c s).erase K = s.erase K := by
  simp at h; unfold doGangTimeout; split <;> simp [h]

@[simp] theorem endOp_frame (h : [.out, .regs, .rs, .host, .sync, .dies, .gang, .step, .img, .upd, .mem, .fab, .coll, .flash].all K = true) (d o bad s)  :
    (endOp d o bad s).erase K = s.erase K := by
  simp at h; unfold endOp; dsimp only; repeat' split
  all_goals simp [h]

@[simp] theorem doArrayBoundary_frame (h : [.out, .regs, .rs, .host, .sync, .dies, .gang, .step, .img, .upd, .mem, .fab, .coll, .flash].all K = true) (d parity s)  :
    (doArrayBoundary d parity s).erase K = s.erase K := by
  simp at h; unfold doArrayBoundary; dsimp only; repeat' split
  all_goals simp [h]

@[simp] theorem doTileDrainStart_frame (h : [.dies].all K = true) (d s)  :
    (doTileDrainStart d s).erase K = s.erase K := by
  simp at h; unfold doTileDrainStart; dsimp only; repeat' split
  all_goals simp [h]

@[simp] theorem doTilePush_frame (h : [.out, .regs, .rs, .host, .sync, .dies, .step, .img, .upd].all K = true) (d s)  :
    (doTilePush d s).erase K = s.erase K := by
  simp at h; unfold doTilePush; dsimp only; repeat' split
  all_goals simp [h]

end Sys2Proof.Machine
end

