-- ==== Sys2Proof/Laws/FrameVecCore.lean ====
section
/-! SUPPORT. Laws/FrameVecCore.lean: which components of the state each operation of Machine/VecCore.lean can change. -/
namespace Sys2Proof.Machine
open Sys2Proof

variable {K : Comp → Bool}

@[simp] theorem vecInfo_frame (h : [.regs].all K = true) (s v op addr)  :
    (vecInfo s v op addr).erase K = s.erase K := by
  simp at h; simp [vecInfo, h]

@[simp] theorem vecAbort_frame (h : [.out, .regs, .rs, .host, .sync, .dies, .gang, .step, .img, .upd, .mem, .fab, .coll, .flash].all K = true) (s v)  :
    (vecAbort s v).erase K = s.erase K := by
  simp at h; unfold vecAbort; dsimp only; repeat' split
  all_goals simp [h]

@[simp] theorem vecFault_frame (h : [.out, .regs, .rs, .host, .sync, .dies, .gang, .step, .img, .upd, .mem, .fab, .coll, .flash].all K = true) (s v bit op addr)  :
    (vecFault s v bit op addr).erase K = s.erase K := by
  simp at h; simp [vecFault, h]

@[simp] theorem vecRun_frame (h : [.out, .regs, .rs, .host, .sync, .dies, .gang, .step, .img, .upd, .mem, .fab, .coll, .flash].all K = true) (op v ill pair run s) (hrun : ∀ z0, State.erase K (run z0) = State.erase K z0) :
    (vecRun op v ill pair run s).erase K = s.erase K := by
  simp at h; simp [vecRun, h, hrun]

@[simp] theorem vecStep_frame (h : [.dies].all K = true) (s v f)  :
    (vecStep s v f).erase K = s.erase K := by
  simp at h; simp [vecStep, h]

@[simp] theorem vecScalar_frame (h : [.out, .regs, .rs, .host, .sync, .dies, .gang, .step, .img, .upd, .mem, .fab, .coll, .flash].all K = true) (op v ill f y4)  :
    (vecScalar op v ill f y4).erase K = y4.erase K := by
  simp at h; simp [vecScalar, h]

@[simp] theorem vecLoop_frame (h : [.out, .regs, .rs, .host, .sync, .dies, .gang, .step, .img, .upd, .mem, .fab, .coll, .flash].all K = true) (op v n s)  :
    (vecLoop op v n s).erase K = s.erase K := by
  simp at h; unfold vecLoop; dsimp only; repeat' split
  all_goals simp [h]

@[simp] theorem vecEndLoop_frame (h : [.out, .regs, .rs, .host, .sync, .dies, .gang, .step, .img, .upd, .mem, .fab, .coll, .flash].all K = true) (v s)  :
    (vecEndLoop v s).erase K = s.erase K := by
  simp at h; unfold vecEndLoop; dsimp only; repeat' split
  all_goals simp [h]

@[simp] theorem vecEnd_frame (h : [.out, .regs, .rs, .host, .sync, .dies, .gang, .step, .img, .upd, .mem, .fab, .coll, .flash].all K = true) (v s)  :
    (vecEnd v s).erase K = s.erase K := by
  simp at h; unfold vecEnd; dsimp only; repeat' split
  all_goals simp [h]

@[simp] theorem vecGuard_frame (h : [.step].all K = true) (s v n cause)  :
    (vecGuard s v n cause).erase K = s.erase K := by
  simp at h; simp [vecGuard, h]

@[simp] theorem vecPop_frame (h : [.out, .regs, .rs, .host, .sync, .dies, .gang, .step, .img, .upd, .mem, .fab, .coll, .flash].all K = true) (v s)  :
    (vecPop v s).erase K = s.erase K := by
  simp at h; unfold vecPop; split <;> simp [h]

@[simp] theorem vecRel_frame (h : [.out, .regs, .rs, .host, .sync, .dies, .gang, .step, .img, .upd, .mem, .fab, .coll, .flash].all K = true) (v s)  :
    (vecRel v s).erase K = s.erase K := by
  simp at h; unfold vecRel; split <;> simp [h]

end Sys2Proof.Machine
end

