-- ==== Sys2Proof/Laws/FrameVecArith.lean ====
section
/-! SUPPORT. Laws/FrameVecArith.lean: which components of the state each operation of Machine/VecArith.lean can change. -/
namespace Sys2Proof.Machine
open Sys2Proof

variable {K : Comp → Bool}

@[simp] theorem vecBin_frame (h : [.out, .regs, .rs, .host, .sync, .dies, .gang, .step, .img, .upd, .mem, .fab, .coll, .flash].all K = true) (op f v s)  :
    (vecBin op f v s).erase K = s.erase K := by
  simp at h; simp [vecBin, h]

@[simp] theorem vecBinI_frame (h : [.out, .regs, .rs, .host, .sync, .dies, .gang, .step, .img, .upd, .mem, .fab, .coll, .flash].all K = true) (op f v s)  :
    (vecBinI op f v s).erase K = s.erase K := by
  simp at h; simp [vecBinI, h]

@[simp] theorem vecTri_frame (h : [.out, .regs, .rs, .host, .sync, .dies, .gang, .step, .img, .upd, .mem, .fab, .coll, .flash].all K = true) (op f v s)  :
    (vecTri op f v s).erase K = s.erase K := by
  simp at h; simp [vecTri, h]

@[simp] theorem vecTriI_frame (h : [.out, .regs, .rs, .host, .sync, .dies, .gang, .step, .img, .upd, .mem, .fab, .coll, .flash].all K = true) (op f v s)  :
    (vecTriI op f v s).erase K = s.erase K := by
  simp at h; simp [vecTriI, h]

@[simp] theorem vecUn_frame (h : [.out, .regs, .rs, .host, .sync, .dies, .gang, .step, .img, .upd, .mem, .fab, .coll, .flash].all K = true) (op f v s)  :
    (vecUn op f v s).erase K = s.erase K := by
  simp at h; simp [vecUn, h]

@[simp] theorem vecWhole_frame (h : [.out, .regs, .rs, .host, .sync, .dies, .gang, .step, .img, .upd, .mem, .fab, .coll, .flash].all K = true) (op f v s)  :
    (vecWhole op f v s).erase K = s.erase K := by
  simp at h; simp [vecWhole, h]

@[simp] theorem vecGen_frame (h : [.out, .regs, .rs, .host, .sync, .dies, .gang, .step, .img, .upd, .mem, .fab, .coll, .flash].all K = true) (op f v s)  :
    (vecGen op f v s).erase K = s.erase K := by
  simp at h; simp [vecGen, h]

@[simp] theorem vecCmp_frame (h : [.out, .regs, .rs, .host, .sync, .dies, .gang, .step, .img, .upd, .mem, .fab, .coll, .flash].all K = true) (op f v s)  :
    (vecCmp op f v s).erase K = s.erase K := by
  simp at h; simp [vecCmp, h]

@[simp] theorem vecCmpI_frame (h : [.out, .regs, .rs, .host, .sync, .dies, .gang, .step, .img, .upd, .mem, .fab, .coll, .flash].all K = true) (op f v s)  :
    (vecCmpI op f v s).erase K = s.erase K := by
  simp at h; simp [vecCmpI, h]

@[simp] theorem vecMask_frame (h : [.out, .regs, .rs, .host, .sync, .dies, .gang, .step, .img, .upd, .mem, .fab, .coll, .flash].all K = true) (op f v s)  :
    (vecMask op f v s).erase K = s.erase K := by
  simp at h; simp [vecMask, h]

@[simp] theorem convCount_frame (h : [.regs].all K = true) (s d ks)  :
    (convCount s d ks).erase K = s.erase K := by
  simp at h; simp [convCount, h]

@[simp] theorem vecConv_frame (h : [.out, .regs, .rs, .host, .sync, .dies, .gang, .step, .img, .upd, .mem, .fab, .coll, .flash].all K = true) (op ill f v s)  :
    (vecConv op ill f v s).erase K = s.erase K := by
  simp at h; simp [vecConv, h]

@[simp] theorem vecVguard_frame (h : [.out, .regs, .rs, .host, .sync, .dies, .gang, .step, .img, .upd, .mem, .fab, .coll, .flash].all K = true) (v s)  :
    (vecVguard v s).erase K = s.erase K := by
  simp at h; simp [vecVguard, h]

@[simp] theorem vecVunsc_frame (h : [.out, .regs, .rs, .host, .sync, .dies, .gang, .step, .img, .upd, .mem, .fab, .coll, .flash].all K = true) (v s)  :
    (vecVunsc v s).erase K = s.erase K := by
  simp at h; simp [vecVunsc, h]

@[simp] theorem vecCpop_frame (h : [.out, .regs, .rs, .host, .sync, .dies, .gang, .step, .img, .upd, .mem, .fab, .coll, .flash].all K = true) (v s)  :
    (vecCpop v s).erase K = s.erase K := by
  simp at h; simp [vecCpop, h]

@[simp] theorem vecIota_frame (h : [.out, .regs, .rs, .host, .sync, .dies, .gang, .step, .img, .upd, .mem, .fab, .coll, .flash].all K = true) (v s)  :
    (vecIota v s).erase K = s.erase K := by
  simp at h; simp [vecIota, h]

@[simp] theorem vecRed_frame (h : [.out, .regs, .rs, .host, .sync, .dies, .gang, .step, .img, .upd, .mem, .fab, .coll, .flash].all K = true) (op f v s)  :
    (vecRed op f v s).erase K = s.erase K := by
  simp at h; simp [vecRed, h]

@[simp] theorem vecPadd_frame (h : [.out, .regs, .rs, .host, .sync, .dies, .gang, .step, .img, .upd, .mem, .fab, .coll, .flash].all K = true) (v s)  :
    (vecPadd v s).erase K = s.erase K := by
  simp at h; simp [vecPadd, h]

@[simp] theorem vecPnorm_frame (h : [.out, .regs, .rs, .host, .sync, .dies, .gang, .step, .img, .upd, .mem, .fab, .coll, .flash].all K = true) (v s)  :
    (vecPnorm v s).erase K = s.erase K := by
  simp at h; simp [vecPnorm, h]

@[simp] theorem vecD2_frame (h : [.out, .regs, .rs, .host, .sync, .dies, .gang, .step, .img, .upd, .mem, .fab, .coll, .flash].all K = true) (op f v s)  :
    (vecD2 op f v s).erase K = s.erase K := by
  simp at h; simp [vecD2, h]

@[simp] theorem vecDfma_frame (h : [.out, .regs, .rs, .host, .sync, .dies, .gang, .step, .img, .upd, .mem, .fab, .coll, .flash].all K = true) (v s)  :
    (vecDfma v s).erase K = s.erase K := by
  simp at h; simp [vecDfma, h]

@[simp] theorem vecCvtDF_frame (h : [.out, .regs, .rs, .host, .sync, .dies, .gang, .step, .img, .upd, .mem, .fab, .coll, .flash].all K = true) (v s)  :
    (vecCvtDF v s).erase K = s.erase K := by
  simp at h; simp [vecCvtDF, h]

@[simp] theorem vecCvtFD_frame (h : [.out, .regs, .rs, .host, .sync, .dies, .gang, .step, .img, .upd, .mem, .fab, .coll, .flash].all K = true) (v s)  :
    (vecCvtFD v s).erase K = s.erase K := by
  simp at h; simp [vecCvtFD, h]

end Sys2Proof.Machine
end

