-- ==== Sys2Proof/Laws/FrameVecMem.lean ====
section
/-! SUPPORT. Laws/FrameVecMem.lean: which components of the state each operation of Machine/VecMem.lean can change. -/
namespace Sys2Proof.Machine
open Sys2Proof

variable {K : Comp → Bool}

@[simp] theorem srDraw_frame (h : [.free].all K = true) (s v a)  :
    (srDraw s v a).2.erase K = s.erase K := by
  simp at h; unfold srDraw; dsimp only; repeat' split
  all_goals simp [h]

theorem State.erase_foldl_by {α β : Type} (g : β → State) (f : β → α → β) (l : List α) (b : β)
    (h : ∀ b x, (g (f b x)).erase K = (g b).erase K) : (g (l.foldl f b)).erase K = (g b).erase K := by
  induction l generalizing b with
  | nil => rfl
  | cons x l ih => simp [ih, h]

theorem loadScale_frame (h : [.out, .regs, .rs, .host, .dies, .step, .img, .mem, .flash].all K = true) (s v i r) :
    loadScale s v i = .inr r → r.2.erase K = s.erase K := by
  simp at h; unfold loadScale; dsimp only; split
  · intro q; cases q; simp [h]
  · intro q; cases q

theorem loadLane_frame (h : [.out, .regs, .rs, .host, .dies, .step, .img, .mem, .flash].all K = true) (v addr acc i) :
    (loadLane v addr acc i).s.erase K = acc.s.erase K := by
  simp at h; unfold loadLane; dsimp only
  split
  · rfl
  split
  · rfl
  split
  · split
    · simp [h]
    · rename_i heq; have e := loadScale_frame (K := K) (by simp [h]) _ _ _ _ heq; simp [h, e]
  · simp [h]

@[simp] theorem noteLoadUe_frame (h : [.out, .regs, .rs, .host, .dies].all K = true) (s v op)  :
    (noteLoadUe s v op).erase K = s.erase K := by
  simp at h; simp [noteLoadUe, h]

@[simp] theorem endLoad_frame (h : [.out, .regs, .rs, .host, .sync, .dies, .gang, .step, .img, .upd, .mem, .fab, .coll, .flash].all K = true) (op v idx row acc)  :
    (endLoad op v idx row acc).erase K = acc.s.erase K := by
  simp at h; unfold endLoad; repeat' split
  all_goals simp [h]

@[simp] theorem runLoad_frame (h : [.out, .regs, .rs, .host, .sync, .dies, .gang, .step, .img, .upd, .mem, .fab, .coll, .flash].all K = true) (op v idx row ls addr s)  :
    (runLoad op v idx row ls addr s).erase K = s.erase K := by
  simp at h; unfold runLoad
  rw [endLoad_frame (by simp [h])]
  exact State.erase_foldl_by LoadAcc.s _ _ _ fun b x => loadLane_frame (by simp [h]) v addr b x

@[simp] theorem vecLoad_frame (h : [.out, .regs, .rs, .host, .sync, .dies, .gang, .step, .img, .upd, .mem, .fab, .coll, .flash].all K = true) (op okFmt idx addr v s)  :
    (vecLoad op okFmt idx addr v s).erase K = s.erase K := by
  simp at h; simp [vecLoad, h]

@[simp] theorem vecRow_frame (h : [.out, .regs, .rs, .host, .sync, .dies, .gang, .step, .img, .upd, .mem, .fab, .coll, .flash].all K = true) (op v run s) (hrun : ∀ z0 z1 z2, State.erase K (run z0 z1 z2) = State.erase K z2) :
    (vecRow op v run s).erase K = s.erase K := by
  simp at h; simp [vecRow, h, hrun]

theorem flushRun_frame (h : [.out, .regs, .rs, .host, .dies, .step, .img, .mem, .flash].all K = true) (v acc) : (flushRun v acc).s.erase K = acc.s.erase K := by
  simp at h; unfold flushRun; split
  · rfl
  · simp [h]

theorem addRun_frame (h : [.out, .regs, .rs, .host, .dies, .step, .img, .mem, .flash].all K = true) (v acc a n f) : (addRun v acc a n f).s.erase K = acc.s.erase K := by
  simp at h; unfold addRun; repeat' split
  all_goals simp [h, flushRun_frame]

@[simp] theorem endStore_frame (h : [.out, .regs, .rs, .host, .sync, .dies, .gang, .step, .img, .upd, .mem, .fab, .coll, .flash].all K = true) (op v idx acc) :
    (endStore op v idx acc).erase K = acc.s.erase K := by
  simp at h; unfold endStore; dsimp only; repeat' split
  all_goals simp [h, flushRun_frame]

theorem putCode_frame (h : [.out, .regs, .rs, .host, .dies, .step, .img, .mem, .flash].all K = true) (run v acc i a c) :
    (putCode run v acc i a c).s.erase K = acc.s.erase K := by
  simp at h; unfold putCode; dsimp only; split
  · rw [addRun_frame (by simp [h])]
  · simp [h]

theorem storeLane_frame (h : [.free, .out, .regs, .rs, .host, .dies, .step, .img, .mem, .flash].all K = true) (run x v addr acc i) :
    (storeLane run x v addr acc i).s.erase K = acc.s.erase K := by
  simp at h
  unfold storeLane; dsimp only; repeat' split
  all_goals first
    | rfl
    | simp [h, putCode_frame]; done

theorem storeBlock_frame (h : [.out, .regs, .rs, .host, .dies, .step, .img, .mem, .flash].all K = true) (x v addr acc b) :
    (storeBlock x v addr acc b).s.erase K = acc.s.erase K := by
  simp at h
  unfold storeBlock; dsimp only
  split
  · rfl
  split
  · rfl
  split
  · rfl
  refine (State.erase_foldl_by StoreAcc.s _ _ _ fun b x => ?_).trans (by simp [h])
  repeat' split
  all_goals first
    | rfl
    | simp [h, putCode_frame]; done

@[simp] theorem runStore_frame (h : [.free, .out, .regs, .rs, .host, .sync, .dies, .gang, .step, .img, .upd, .mem, .fab, .coll, .flash].all K = true) (op v idx ls addr s) :
    (runStore op v idx ls addr s).erase K = s.erase K := by
  simp at h; unfold runStore; dsimp only; split
  · rw [endStore_frame (by simp [h])]
    exact State.erase_foldl_by StoreAcc.s _ _ _ fun b x => storeBlock_frame (by simp [h]) _ v addr b x
  · rw [endStore_frame (by simp [h])]
    exact State.erase_foldl_by StoreAcc.s _ _ _ fun b x => storeLane_frame (by simp [h]) _ _ v addr b x

@[simp] theorem vecStore_frame (h : [.free, .out, .regs, .rs, .host, .sync, .dies, .gang, .step, .img, .upd, .mem, .fab, .coll, .flash].all K = true) (op okFmt idx addr v s)  :
    (vecStore op okFmt idx addr v s).erase K = s.erase K := by
  simp at h; simp [vecStore, h]

theorem addLane_frame (h : [.out, .regs, .rs, .host, .dies, .step, .img, .mem, .flash].all K = true) (x v addr acc i) :
    (addLane x v addr acc i).s.erase K = acc.s.erase K := by
  simp at h; unfold addLane; dsimp only; repeat' split
  all_goals first
    | rfl
    | simp [h]; done

@[simp] theorem runAdd_frame (h : [.out, .regs, .rs, .host, .sync, .dies, .gang, .step, .img, .upd, .mem, .fab, .coll, .flash].all K = true) (op v idx ls addr s) :
    (runAdd op v idx ls addr s).erase K = s.erase K := by
  simp at h; unfold runAdd
  rw [endStore_frame (by simp [h])]
  exact State.erase_foldl_by StoreAcc.s _ _ _ fun b x => addLane_frame (by simp [h]) _ v addr b x

@[simp] theorem vecScatterAdd_frame (h : [.out, .regs, .rs, .host, .sync, .dies, .gang, .step, .img, .upd, .mem, .fab, .coll, .flash].all K = true) (v s)  :
    (vecScatterAdd v s).erase K = s.erase K := by
  simp at h; simp [vecScatterAdd, h]

end Sys2Proof.Machine
end

