-- ==== Sys2Proof/Laws/FrameUpdate.lean ====
section
/-! SUPPORT. Laws/FrameUpdate.lean: which components of the state each operation of Machine/Update.lean can change. -/
namespace Sys2Proof.Machine
open Sys2Proof

variable {K : Comp → Bool}

@[simp] theorem updRead_frame (h : [.out, .regs, .rs, .host, .step, .img, .mem, .flash].all K = true) (s a len)  :
    (updRead s a len).2.erase K = s.erase K := by
  simp at h; unfold updRead
  split
  · rename_i q; have e := memRead_frame (K := K) (by simp [h]) _ _ _ _ _ q; simp [e]
  · rfl

@[simp] theorem updWrite_frame (h : [.out, .regs, .rs, .host, .step, .img, .mem, .flash].all K = true) (s a bs)  :
    (updWrite s a bs).2.erase K = s.erase K := by
  simp at h; unfold updWrite
  split
  · rename_i q; exact memWrite_frame (K := K) (by simp [h]) _ _ _ _ _ q
  · rfl

@[simp] theorem jput_frame (h : [.out, .regs, .rs, .host, .step, .img, .upd, .mem, .flash].all K = true) (s a bs)  :
    (jput s a bs).erase K = s.erase K := by
  simp at h; unfold jput
  split
  · rename_i q; have e := memWrite_frame (K := K) (by simp [h]) _ _ _ _ _ q; simp [e]
  · rename_i q; have e := memWrite_frame (K := K) (by simp [h]) _ _ _ _ _ q; simp [h, e]
  · simp [h]

@[simp] theorem withJerr_frame (h : [.upd].all K = true) (r)  :
    (withJerr r).2.erase K = r.2.erase K := by
  simp at h; simp [withJerr, h]

@[simp] theorem readJournal_frame (h : [.out, .regs, .rs, .host, .step, .img, .mem, .flash].all K = true) (s)  :
    (readJournal s).2.erase K = s.erase K := by
  simp at h; unfold readJournal
  split
  · rename_i q; have e := (congrArg (fun r => (Prod.snd r).erase K) q).symm.trans (updRead_frame (by simp [h]) _ _ _); dsimp only at e; simp [e]
  · rename_i q; have e := (congrArg (fun r => (Prod.snd r).erase K) q).symm.trans (updRead_frame (by simp [h]) _ _ _); dsimp only at e; simp [e]

@[simp] theorem setPhase_frame (h : [.out, .regs, .rs, .host, .step, .img, .upd, .mem, .flash].all K = true) (s i ph)  :
    (setPhase s i ph).erase K = s.erase K := by
  simp at h; simp [setPhase, h]

@[simp] theorem readGrad_frame (h : [.out, .regs, .rs, .host, .step, .img, .mem, .flash].all K = true) (s l k)  :
    (readGrad s l k).2.erase K = s.erase K := by
  simp at h; unfold readGrad
  split
  · split
    · rename_i q; have e := (congrArg (fun r => (Prod.snd r).erase K) q).symm.trans (updRead_frame (by simp [h]) _ _ _); dsimp only at e; simp [e]
    · rename_i q; have e := (congrArg (fun r => (Prod.snd r).erase K) q).symm.trans (updRead_frame (by simp [h]) _ _ _); dsimp only at e; simp [e]
  · rfl

@[simp] theorem readPlane_frame (h : [.out, .regs, .rs, .host, .step, .img, .mem, .flash].all K = true) (s a l k)  :
    (readPlane s a l k).2.erase K = s.erase K := by
  simp at h; unfold readPlane
  split
  · rename_i q; have e := (congrArg (fun r => (Prod.snd r).erase K) q).symm.trans (updRead_frame (by simp [h]) _ _ _); dsimp only at e; simp [e]
  · rename_i q; have e := (congrArg (fun r => (Prod.snd r).erase K) q).symm.trans (updRead_frame (by simp [h]) _ _ _); dsimp only at e; simp [e]

@[simp] theorem pass1Chunk_frame (h : [.out, .regs, .rs, .host, .step, .img, .upd, .mem, .flash].all K = true) (gm i acc k)  :
    (pass1Chunk gm i acc k).2.erase K = acc.2.erase K := by
  simp at h; obtain ⟨b, s⟩ := acc; unfold pass1Chunk; dsimp only
  split
  · rename_i q; have e := (congrArg (fun r => (Prod.snd r).erase K) q).symm.trans (readPlane_frame (by simp [h]) _ _ _ _); dsimp only at e; simp [e]
  · rename_i q; have e1 := (congrArg (fun r => (Prod.snd r).erase K) q).symm.trans (readPlane_frame (by simp [h]) _ _ _ _); dsimp only at e1
    split
    · rename_i q; have e := (congrArg (fun r => (Prod.snd r).erase K) q).symm.trans (readGrad_frame (by simp [h]) _ _ _); dsimp only at e; simp [h, e, e1]
    · rename_i q; have e := (congrArg (fun r => (Prod.snd r).erase K) q).symm.trans (readGrad_frame (by simp [h]) _ _ _); dsimp only at e; simp [h, e, e1]

@[simp] theorem pass1_frame (h : [.out, .regs, .rs, .host, .step, .img, .upd, .mem, .flash].all K = true) (d layer s)  :
    (pass1 d layer s).2.erase K = s.erase K := by
  simp at h; unfold pass1
  dsimp only
  refine (State.erase_foldl_pair _ _ _ fun a r => ?_).trans rfl
  exact State.erase_foldl_pair _ _ _ fun a g => by simp [h]

@[simp] theorem formNorms_frame (h : [.regs, .step].all K = true) (s att sl)  :
    (formNorms s att sl).erase K = s.erase K := by
  simp at h; unfold formNorms; dsimp only; repeat' split
  all_goals simp [h]

@[simp] theorem ensureNorms_frame (h : [.regs, .step].all K = true) (s att)  :
    (ensureNorms s att).erase K = s.erase K := by
  simp at h; unfold ensureNorms; split <;> simp [h]

@[simp] theorem ratioCross_frame (h : [.out, .regs, .rs, .host, .step, .img].all K = true) (s l high)  :
    (ratioCross s l high).erase K = s.erase K := by
  simp at h; simp [ratioCross, h]

@[simp] theorem ratioCheck_frame (h : [.out, .regs, .rs, .host, .step, .img].all K = true) (s l rho)  :
    (ratioCheck s l rho).erase K = s.erase K := by
  simp at h; simp [ratioCheck, h]

@[simp] theorem ratioAppend_frame (h : [.out, .regs, .rs, .host, .step, .img, .mem, .flash].all K = true) (s n)  :
    (ratioAppend s n).erase K = s.erase K := by
  simp at h; unfold ratioAppend; split <;> simp [h]

@[simp] theorem commitStep_frame (h : [.out, .regs, .rs, .host, .step, .img, .upd, .mem, .flash].all K = true) (s q)  :
    (commitStep s q).erase K = s.erase K := by
  simp at h; simp [commitStep, h]

@[simp] theorem noteSnapshot_frame (h : [.maq].all K = true) (s p q)  :
    (noteSnapshot s p q).erase K = s.erase K := by
  simp at h; simp [noteSnapshot, h]

@[simp] theorem tryCommit_frame (h : [.out, .regs, .rs, .host, .step, .maq, .img, .upd, .mem, .flash].all K = true) (s)  :
    (tryCommit s).erase K = s.erase K := by
  simp at h; unfold tryCommit; split <;> simp [h]

@[simp] theorem readCounts_frame (h : [.out, .regs, .rs, .host, .step, .img, .mem, .flash].all K = true) (s)  :
    (readCounts s).2.erase K = s.erase K := by
  simp at h; unfold readCounts
  refine (State.erase_foldl_pair _ _ _ fun a r => ?_).trans rfl
  split
  · rename_i q; have e := (congrArg (fun r => (Prod.snd r).erase K) q).symm.trans (updRead_frame (by simp [h]) _ _ _); dsimp only at e; simp [e]
  · rename_i q; have e := (congrArg (fun r => (Prod.snd r).erase K) q).symm.trans (updRead_frame (by simp [h]) _ _ _); dsimp only at e; simp [e]

@[simp] theorem beginJournal_frame (h : [.out, .regs, .rs, .host, .step, .img, .upd, .mem, .flash].all K = true) (p q reps flags s)  :
    (beginJournal p q reps flags s).2.erase K = s.erase K := by
  simp at h; simp [beginJournal, h]

@[simp] theorem countFrozen_frame (h : [.out, .regs, .rs, .host].all K = true) (s)  :
    (countFrozen s).erase K = s.erase K := by
  simp at h; simp [countFrozen, h]

@[simp] theorem clearVerdict_frame (h : [.out, .regs, .rs, .host, .sync, .dies, .gang, .step, .maq, .img, .upd, .mem, .flash].all K = true) (s att)  :
    (clearVerdict s att).erase K = s.erase K := by
  simp at h; unfold clearVerdict; dsimp only; repeat' split
  all_goals simp [h]

@[simp] theorem storeElems_frame (h : [.out, .regs, .rs, .host, .step, .img, .mem, .flash].all K = true) (s a sz es)  :
    (storeElems s a sz es).2.erase K = s.erase K := by
  simp at h; unfold storeElems
  split
  · simp [h]
  · refine (State.erase_foldl_pair _ _ _ fun a r => ?_).trans rfl
    dsimp only; split <;> simp [h]

@[simp] theorem storeWc_frame (h : [.out, .regs, .rs, .host, .step, .img, .mem, .flash].all K = true) (s d n purpose l e0 ws)  :
    (storeWc s d n purpose l e0 ws).2.erase K = s.erase K := by
  simp at h; simp [storeWc, h]

@[simp] theorem chunkIn_frame (h : [.out, .regs, .rs, .host, .step, .img, .mem, .flash].all K = true) (s i k)  :
    (chunkIn s i k).2.erase K = s.erase K := by
  simp at h; unfold chunkIn
  dsimp only; split
  · rename_i q; have e := (congrArg (fun r => (Prod.snd r).erase K) q).symm.trans (readPlane_frame (by simp [h]) _ _ _ _); dsimp only at e; simp [e]
  rename_i q; have e1 := (congrArg (fun r => (Prod.snd r).erase K) q).symm.trans (readPlane_frame (by simp [h]) _ _ _ _); dsimp only at e1
  split
  · rename_i q; have e := (congrArg (fun r => (Prod.snd r).erase K) q).symm.trans (readPlane_frame (by simp [h]) _ _ _ _); dsimp only at e; simp [e, e1]
  rename_i q; have e2 := (congrArg (fun r => (Prod.snd r).erase K) q).symm.trans (readPlane_frame (by simp [h]) _ _ _ _); dsimp only at e2
  split
  · split <;> simp [h, e1, e2]
  · split
    · rename_i q; have e := (congrArg (fun r => (Prod.snd r).erase K) q).symm.trans (readGrad_frame (by simp [h]) _ _ _); dsimp only at e; rw [e]; split <;> simp [h, e1, e2]
    · rename_i q; have e := (congrArg (fun r => (Prod.snd r).erase K) q).symm.trans (readGrad_frame (by simp [h]) _ _ _); dsimp only at e; rw [e]; split <;> simp [h, e1, e2]

@[simp] theorem countKept_frame (h : [.out, .regs, .rs, .host].all K = true) (s n)  :
    (countKept s n).erase K = s.erase K := by
  simp at h; simp [countKept, h]

@[simp] theorem markPartly_frame (h : [.upd].all K = true) (s i k)  :
    (markPartly s i k).erase K = s.erase K := by
  simp at h; simp [markPartly, h]

@[simp] theorem advanceChunk_frame (h : [.out, .regs, .rs, .host, .step, .img, .upd, .mem, .flash].all K = true) (s i k)  :
    (advanceChunk s i k).erase K = s.erase K := by
  simp at h; simp [advanceChunk, h]

@[simp] theorem finishDesc_frame (h : [.out, .regs, .rs, .host, .step, .maq, .img, .upd, .mem, .flash].all K = true) (s i)  :
    (finishDesc s i).erase K = s.erase K := by
  simp at h; simp [finishDesc, h]

@[simp] theorem finishDescs_frame (h : [.out, .regs, .rs, .host, .step, .maq, .img, .upd, .mem, .flash].all K = true) (s)  :
    (finishDescs s).erase K = s.erase K := by
  simp at h; simp [finishDescs, h]

@[simp] theorem pass2Chunk_frame (h : [.out, .regs, .rs, .host, .step, .maq, .img, .upd, .mem, .flash].all K = true) (q i k s)  :
    (pass2Chunk q i k s).2.erase K = s.erase K := by
  simp at h; unfold pass2Chunk
  split
  · rename_i q; have e := (congrArg (fun r => (Prod.snd r).erase K) q).symm.trans (chunkIn_frame (by simp [h]) _ _ _); dsimp only at e; simp [e]
  · rename_i q; have e := (congrArg (fun r => (Prod.snd r).erase K) q).symm.trans (chunkIn_frame (by simp [h]) _ _ _); dsimp only at e
    dsimp only
    repeat' split
    all_goals simp [h, e]

@[simp] theorem allIn_frame (h : [.out, .regs, .rs, .host, .step, .img, .mem, .flash].all K = true) (i y1 y2)  :
    (allIn i y1 y2).2.erase K = y2.erase K := by
  simp at h
  induction y1 generalizing y2 with
  | nil => rfl
  | cons k ks ih =>
    unfold allIn; split
    · rename_i q; have e := (congrArg (fun r => (Prod.snd r).erase K) q).symm.trans (chunkIn_frame (by simp [h]) _ _ _); dsimp only at e; simp [e]
    · rename_i q; have e1 := (congrArg (fun r => (Prod.snd r).erase K) q).symm.trans (chunkIn_frame (by simp [h]) _ _ _); dsimp only at e1
      split
      · rename_i q; have e := (congrArg (fun r => (Prod.snd r).erase K) q).symm.trans (ih _); dsimp only at e; simp [e, e1]
      · rename_i q; have e := (congrArg (fun r => (Prod.snd r).erase K) q).symm.trans (ih _); dsimp only at e; simp [e, e1]

@[simp] theorem matrixPhases_frame (h : [.out, .regs, .rs, .host, .step, .img, .upd, .mem, .flash].all K = true) (q i s)  :
    (matrixPhases q i s).2.erase K = s.erase K := by
  simp at h; unfold matrixPhases
  dsimp only; split
  · rfl
  split
  · rename_i q; have e := (congrArg (fun r => (Prod.snd r).erase K) q).symm.trans (allIn_frame (by simp [h]) _ _ _); dsimp only at e; simp [e]
  · rename_i q; have e := (congrArg (fun r => (Prod.snd r).erase K) q).symm.trans (allIn_frame (by simp [h]) _ _ _); dsimp only at e
    split <;> simp [h, e]

@[simp] theorem nsTake_frame (h : [.upd].all K = true) (s n ws)  :
    (nsTake s n ws).erase K = s.erase K := by
  simp at h; simp [nsTake, h]

@[simp] theorem nsBegin_frame (h : [.out, .regs, .rs, .host, .step, .img, .upd, .mem, .flash].all K = true) (q layer s)  :
    (nsBegin q layer s).2.erase K = s.erase K := by
  simp at h; unfold nsBegin
  refine (State.erase_foldl_pair _ _ _ fun a r => ?_).trans rfl
  split <;> simp [h]

@[simp] theorem pass2Desc_frame (h : [.out, .regs, .rs, .host, .step, .maq, .img, .upd, .mem, .flash].all K = true) (q d acc i)  :
    (pass2Desc q d acc i).2.erase K = acc.2.erase K := by
  simp at h; unfold pass2Desc
  dsimp only; split
  · rfl
  split
  · split
    · simp [h]
    · refine (State.erase_foldl_pair _ _ _ fun a r => ?_).trans (by simp [h])
      split <;> simp [h]
  · split
    · simp
    · refine (State.erase_foldl_pair _ _ _ fun a r => ?_).trans rfl
      split <;> simp [h]

@[simp] theorem pass2_frame (h : [.out, .regs, .rs, .host, .step, .maq, .img, .upd, .mem, .flash].all K = true) (d layer s)  :
    (pass2 d layer s).2.erase K = s.erase K := by
  simp at h; unfold pass2
  split
  · rfl
  · dsimp only; split
    · simp [h]
    · exact (State.erase_foldl_pair _ _ _ fun a r => by simp [h]).trans (by simp [h])

end Sys2Proof.Machine
end

