-- ==== Sys2Proof/Laws/FrameOuter.lean ====
section
/-! SUPPORT. Laws/FrameOuter.lean: which components of the state each operation of Machine/Outer.lean can change. -/
namespace Sys2Proof.Machine
open Sys2Proof

variable {K : Comp → Bool}

@[simp] theorem readWs_frame (h : [.out, .regs, .rs, .host, .step, .img, .mem, .flash].all K = true) (s a n)  :
    (readWs s a n).2.erase K = s.erase K := by
  simp at h; unfold readWs
  split
  · rename_i q; have e := (congrArg (fun r => (Prod.snd r).erase K) q).symm.trans (updRead_frame (by simp [h]) _ _ _); dsimp only at e; simp [e]
  · rename_i q; have e := (congrArg (fun r => (Prod.snd r).erase K) q).symm.trans (updRead_frame (by simp [h]) _ _ _); dsimp only at e; simp [e]

@[simp] theorem readPlanes_frame (h : [.out, .regs, .rs, .host, .step, .img, .mem, .flash].all K = true) (s o)  :
    (readPlanes s o).2.erase K = s.erase K := by
  simp at h; unfold readPlanes
  dsimp only; split
  · rename_i q; have e := (congrArg (fun r => (Prod.snd r).erase K) q).symm.trans (readWs_frame (by simp [h]) _ _ _); dsimp only at e; simp [e]
  rename_i q; have e1 := (congrArg (fun r => (Prod.snd r).erase K) q).symm.trans (readWs_frame (by simp [h]) _ _ _); dsimp only at e1
  split
  · rename_i q; have e := (congrArg (fun r => (Prod.snd r).erase K) q).symm.trans (updRead_frame (by simp [h]) _ _ _); dsimp only at e; simp [e, e1]
  rename_i q; have e2 := (congrArg (fun r => (Prod.snd r).erase K) q).symm.trans (updRead_frame (by simp [h]) _ _ _); dsimp only at e2
  split
  · rename_i q; have e := (congrArg (fun r => (Prod.snd r).erase K) q).symm.trans (readWs_frame (by simp [h]) _ _ _); dsimp only at e; simp [e, e1, e2]
  rename_i q; have e3 := (congrArg (fun r => (Prod.snd r).erase K) q).symm.trans (readWs_frame (by simp [h]) _ _ _); dsimp only at e3
  split
  · rename_i q; have e := (congrArg (fun r => (Prod.snd r).erase K) q).symm.trans (readPlane_frame (by simp [h]) _ _ _ _); dsimp only at e; simp [e, e1, e2, e3]
  · rename_i q; have e := (congrArg (fun r => (Prod.snd r).erase K) q).symm.trans (readPlane_frame (by simp [h]) _ _ _ _); dsimp only at e; simp [e, e1, e2, e3]

@[simp] theorem sendTiles_frame (h : [.out, .regs, .rs, .host, .step, .img, .upd, .mem, .flash].all K = true) (p y1 y2 y3)  :
    (sendTiles p y1 y2 y3).2.erase K = y3.2.erase K := by
  simp at h
  induction y1 generalizing y2 y3 with
  | nil => rfl
  | cons o os ih =>
    obtain ⟨b, s⟩ := y3
    unfold sendTiles; dsimp only; split
    · split
      · rename_i q; have e := (congrArg (fun r => (Prod.snd r).erase K) q).symm.trans (updRead_frame (by simp [h]) _ _ _); dsimp only at e; simp [h, e]
      · rename_i q; have e := (congrArg (fun r => (Prod.snd r).erase K) q).symm.trans (updRead_frame (by simp [h]) _ _ _); dsimp only at e; rw [ih]; simp [h, e]
    · split
      · rename_i q; have e := (congrArg (fun r => (Prod.snd r).erase K) q).symm.trans (readPlanes_frame (by simp [h]) _ _); dsimp only at e; simp [h, e]
      · rename_i q; have e := (congrArg (fun r => (Prod.snd r).erase K) q).symm.trans (readPlanes_frame (by simp [h]) _ _); dsimp only at e
        rw [ih]
        repeat' split
        all_goals simp [h, e]

@[simp] theorem setPhases_frame (h : [.out, .regs, .rs, .host, .step, .img, .upd, .mem, .flash].all K = true) (s q layer ph)  :
    (setPhases s q layer ph).erase K = s.erase K := by
  simp at h; simp [setPhases, h]

@[simp] theorem readBlocks_frame (h : [.out, .regs, .rs, .host, .step, .img, .mem, .flash].all K = true) (s x f off own n y6)  :
    (readBlocks s x f off own n y6).2.erase K = s.erase K := by
  simp at h
  induction y6 with
  | zero => rfl
  | succ n ih =>
    unfold readBlocks; dsimp only; split
    · rename_i q; have e := (congrArg (fun r => (Prod.snd r).erase K) q).symm.trans ih; dsimp only at e; simp [e]
    · rename_i q; have e1 := (congrArg (fun r => (Prod.snd r).erase K) q).symm.trans ih; dsimp only at e1
      split
      · exact e1
      · split
        · rename_i q; have e := (congrArg (fun r => (Prod.snd r).erase K) q).symm.trans (updRead_frame (by simp [h]) _ _ _); dsimp only at e; simp [e, e1]
        · rename_i q; have e := (congrArg (fun r => (Prod.snd r).erase K) q).symm.trans (updRead_frame (by simp [h]) _ _ _); dsimp only at e; simp [e, e1]

@[simp] theorem storePlanes_frame (h : [.out, .regs, .rs, .host, .step, .img, .mem, .flash].all K = true) (s q o purpose os)  :
    (storePlanes s q o purpose os).2.erase K = s.erase K := by
  simp at h; simp [storePlanes, h]

@[simp] theorem advanceApply_frame (h : [.out, .regs, .rs, .host, .step, .img, .upd, .mem, .flash].all K = true) (s o)  :
    (advanceApply s o).erase K = s.erase K := by
  simp at h; simp [advanceApply, h]

@[simp] theorem applyTiles_frame (h : [.out, .regs, .rs, .host, .step, .img, .upd, .mem, .flash].all K = true) (p q x y3 y4 y5)  :
    (applyTiles p q x y3 y4 y5).2.erase K = y5.2.erase K := by
  simp at h
  induction y3 generalizing y4 y5 with
  | nil => rfl
  | cons o os ih =>
    obtain ⟨b, s⟩ := y5
    unfold applyTiles; dsimp only; split
    · rw [ih]
    split
    · rfl
    split
    · rename_i q; have e := (congrArg (fun r => (Prod.snd r).erase K) q).symm.trans (readPlanes_frame (by simp [h]) _ _); dsimp only at e; simp [h, e]
    · rename_i q; have e1 := (congrArg (fun r => (Prod.snd r).erase K) q).symm.trans (readPlanes_frame (by simp [h]) _ _); dsimp only at e1
      split
      · rename_i q; have e := (congrArg (fun r => (Prod.snd r).erase K) q).symm.trans (readBlocks_frame (by simp [h]) _ _ _ _ _ _ _); dsimp only at e; simp [h, e, e1]
      · rename_i q; have e := (congrArg (fun r => (Prod.snd r).erase K) q).symm.trans (readBlocks_frame (by simp [h]) _ _ _ _ _ _ _); dsimp only at e
        generalize hr : storePlanes _ _ _ _ _ = r
        have er := (congrArg (fun r => (Prod.snd r).erase K) hr).symm.trans (storePlanes_frame (by simp [h]) _ _ _ _ _)
        split
        · simp [h, er, e, e1]
        · rw [ih]; simp [h, er, e, e1]

@[simp] theorem dropPend_frame (h : [.upd].all K = true) (s layer)  :
    (dropPend s layer).erase K = s.erase K := by
  simp at h; simp [dropPend, h]

@[simp] theorem gatherTile_frame (h : [.out, .regs, .rs, .host, .step, .img, .upd, .mem, .flash].all K = true) (q purpose i acc t)  :
    (gatherTile q purpose i acc t).2.erase K = acc.2.erase K := by
  simp at h; unfold gatherTile
  dsimp only; split
  · rename_i q; have e := (congrArg (fun r => (Prod.snd r).erase K) q).symm.trans (readPlane_frame (by simp [h]) _ _ _ _); dsimp only at e; simp [e]
  · rename_i q; have e := (congrArg (fun r => (Prod.snd r).erase K) q).symm.trans (readPlane_frame (by simp [h]) _ _ _ _); dsimp only at e; simp [h, e]

@[simp] theorem gatherLayer_frame (h : [.out, .regs, .rs, .host, .step, .maq, .img, .upd, .mem, .flash].all K = true) (q layer s)  :
    (gatherLayer q layer s).2.erase K = s.erase K := by
  simp at h; unfold gatherLayer
  split
  · rfl
  · dsimp only
    generalize hf : List.foldl _ _ _ = r
    have hr : r.2.erase K = s.erase K := by
      rw [← hf]
      refine (State.erase_foldl_pair _ _ _ fun a r => ?_).trans rfl
      split
      · exact State.erase_foldl_pair _ _ _ fun a g => by simp [h]
      · rfl
    split <;> simp [h, hr]

@[simp] theorem applyLayer_frame (h : [.out, .regs, .rs, .host, .step, .maq, .img, .upd, .mem, .flash].all K = true) (p q x layer s)  :
    (applyLayer p q x layer s).2.erase K = s.erase K := by
  simp at h; unfold applyLayer; dsimp only; repeat' split
  all_goals simp [h]

@[simp] theorem exchangeDone_frame (h : [.out, .regs, .rs, .host, .step, .maq, .img, .upd, .mem, .flash].all K = true) (q layer s)  :
    (exchangeDone q layer s).2.erase K = s.erase K := by
  simp at h; unfold exchangeDone; dsimp only; repeat' split
  all_goals simp [h]

@[simp] theorem exchangeStart_frame (h : [.out, .regs, .rs, .host, .step, .maq, .img, .upd, .mem, .flash].all K = true) (q layer src dst s)  :
    (exchangeStart q layer src dst s).2.erase K = s.erase K := by
  simp at h; unfold exchangeStart; dsimp only; repeat' split
  all_goals simp [h]

end Sys2Proof.Machine
end

