-- ==== Sys2Proof/Laws/FrameFinisher.lean ====
section
/-! SUPPORT. Laws/FrameFinisher.lean: which components of the state each operation of Machine/Finisher.lean can change. -/
namespace Sys2Proof.Machine
open Sys2Proof

variable {K : Comp → Bool}

@[simp] theorem finChunk_frame (h : [.out, .regs, .rs, .host, .step, .maq, .img, .upd, .mem, .flash].all K = true) (q i k s)  :
    (finChunk q i k s).erase K = s.erase K := by
  simp at h; simp [finChunk, h]

@[simp] theorem finCompute_frame (h : [.out, .regs, .rs, .host, .step, .maq, .img, .upd, .mem, .flash].all K = true) (s)  :
    (finCompute s).erase K = s.erase K := by
  simp at h; unfold finCompute
  split
  · rfl
  · refine State.erase_foldl _ _ _ fun s i => ?_
    split
    · rfl
    split
    · simp [h]
    · exact State.erase_foldl _ _ _ fun s k => by simp [h]

@[simp] theorem takeJournal_frame (h : [.out, .regs, .rs, .host, .step, .img, .upd, .mem, .flash].all K = true) (s)  :
    (takeJournal s).2.erase K = s.erase K := by
  simp at h; unfold takeJournal; dsimp only; repeat' split
  all_goals simp [h]

@[simp] theorem resumeU_frame (h : [.dies].all K = true) (att s)  :
    (resumeU att s).erase K = s.erase K := by
  simp at h; simp [resumeU, h]

@[simp] theorem finishFault_frame (h : [.out, .regs, .rs, .host, .sync, .dies, .step, .img, .upd, .mem, .flash].all K = true) (s q)  :
    (finishFault s q).erase K = s.erase K := by
  simp at h; unfold finishFault; dsimp only; repeat' split
  all_goals simp [h]

@[simp] theorem finished_frame (h : [.out, .regs, .rs, .host, .sync, .dies, .step, .img, .upd, .mem, .flash].all K = true) (s q)  :
    (finished s q).erase K = s.erase K := by
  simp at h; simp [finished, h]

@[simp] theorem settleFin_frame (h : [.out, .regs, .rs, .host, .sync, .dies, .step, .img, .upd, .mem, .flash].all K = true) (q s)  :
    (settleFin q s).erase K = s.erase K := by
  simp at h; simp [settleFin, h]

@[simp] theorem finishFail_frame (h : [.out, .regs, .rs, .host, .sync, .dies, .step, .img, .upd, .start].all K = true) (s)  :
    (finishFail s).erase K = s.erase K := by
  simp at h; simp [finishFail, h]

@[simp] theorem nextPeer_frame (h : [.out, .regs, .rs, .host, .sync, .dies, .step, .img, .upd, .start].all K = true) (s layer outer)  :
    (nextPeer s layer outer).erase K = s.erase K := by
  simp at h; simp [nextPeer, h]

@[simp] theorem putInner_frame (h : [.out, .regs, .rs, .host, .step, .img, .mem, .flash].all K = true) (s l k bs)  :
    (putInner s l k bs).2.erase K = s.erase K := by
  simp at h; unfold putInner; dsimp only; repeat' split
  all_goals simp [h]

@[simp] theorem putOuter_frame (h : [.out, .regs, .rs, .host, .step, .img, .mem, .flash].all K = true) (s l t j cnt bs)  :
    (putOuter s l t j cnt bs).2.erase K = s.erase K := by
  simp at h; simp [putOuter, h]

@[simp] theorem closeTiles_frame (h : [.out, .regs, .rs, .host, .step, .maq, .img, .upd, .mem, .flash].all K = true) (s i)  :
    (closeTiles s i).erase K = s.erase K := by
  simp at h; simp [closeTiles, h]

@[simp] theorem tileFetched_frame (h : [.out, .regs, .rs, .host, .step, .maq, .img, .upd, .mem, .flash].all K = true) (s i t)  :
    (tileFetched s i t).erase K = s.erase K := by
  simp at h; simp [tileFetched, h]

@[simp] theorem ownFetched_frame (h : [.out, .regs, .rs, .host, .step, .maq, .img, .upd, .mem, .flash].all K = true) (s i t)  :
    (ownFetched s i t).erase K = s.erase K := by
  simp at h; simp [ownFetched, h]

@[simp] theorem takeFetch_frame (h : [.out, .regs, .rs, .host, .step, .maq, .img, .upd, .mem, .flash].all K = true) (s i chunk data)  :
    (takeFetch s i chunk data).erase K = s.erase K := by
  simp at h; simp [takeFetch, h]

end Sys2Proof.Machine
end

