-- ==== Sys2Proof/Laws/FrameCollectives.lean ====
section
/-! SUPPORT. Laws/FrameCollectives.lean: which components of the state each operation of Machine/Collectives.lean can change. -/
namespace Sys2Proof.Machine
open Sys2Proof

variable {K : Comp → Bool}

@[simp] theorem readBlocksMx_frame (h : [.out, .regs, .rs, .host, .step, .img, .mem, .flash].all K = true) (base f y2 y3 y4)  :
    (readBlocksMx base f y2 y3 y4).2.erase K = y4.erase K := by
  simp at h
  induction y2 generalizing y3 y4 with
  | zero => rfl
  | succ n ih =>
    unfold readBlocksMx; split
    · rename_i q; have e := (congrArg (fun r => (Prod.snd r).erase K) q).symm.trans (updRead_frame (by simp [h]) _ _ _); dsimp only at e; simp [e]
    rename_i q; have e1 := (congrArg (fun r => (Prod.snd r).erase K) q).symm.trans (updRead_frame (by simp [h]) _ _ _); dsimp only at e1
    split
    · rename_i q; have e := (congrArg (fun r => (Prod.snd r).erase K) q).symm.trans (updRead_frame (by simp [h]) _ _ _); dsimp only at e; simp [e, e1]
    rename_i q; have e2 := (congrArg (fun r => (Prod.snd r).erase K) q).symm.trans (updRead_frame (by simp [h]) _ _ _); dsimp only at e2
    split
    · rename_i q; have e := (congrArg (fun r => (Prod.snd r).erase K) q).symm.trans (ih _ _); dsimp only at e; simp [e, e1, e2]
    · rename_i q; have e := (congrArg (fun r => (Prod.snd r).erase K) q).symm.trans (ih _ _); dsimp only at e; simp [e, e1, e2]

@[simp] theorem readFmt_frame (h : [.out, .regs, .rs, .host, .step, .img, .mem, .flash].all K = true) (s base f e n)  :
    (readFmt s base f e n).2.erase K = s.erase K := by
  simp at h; unfold readFmt
  split
  · split
    · rename_i q; have e := (congrArg (fun r => (Prod.snd r).erase K) q).symm.trans (readBlocksMx_frame (by simp [h]) _ _ _ _ _); dsimp only at e; simp [e]
    · simp [h]
  · split
    · rename_i q; have e := (congrArg (fun r => (Prod.snd r).erase K) q).symm.trans (updRead_frame (by simp [h]) _ _ _); dsimp only at e; simp [e]
    · rename_i q; have e := (congrArg (fun r => (Prod.snd r).erase K) q).symm.trans (updRead_frame (by simp [h]) _ _ _); dsimp only at e; simp [e]

@[simp] theorem writeBlockMx_frame (h : [.out, .regs, .rs, .host, .step, .img, .mem, .flash].all K = true) (base f acc b ws)  :
    (writeBlockMx base f acc b ws).2.erase K = acc.2.erase K := by
  simp at h; simp [writeBlockMx, h]

@[simp] theorem writeFmt_frame (h : [.out, .regs, .rs, .host, .step, .img, .mem, .flash].all K = true) (s base f e ws)  :
    (writeFmt s base f e ws).2.erase K = s.erase K := by
  simp at h; unfold writeFmt
  split
  · exact (State.erase_foldl_pair _ _ _ fun a r => by simp [h]).trans rfl
  · simp [h]

@[simp] theorem updColl_frame (h : [.coll].all K = true) (s d i f)  :
    (updColl s d i f).erase K = s.erase K := by
  simp at h; simp [updColl, h]

@[simp] theorem updRound_frame (h : [.coll].all K = true) (s d i n f)  :
    (updRound s d i n f).erase K = s.erase K := by
  simp at h; simp [updRound, h]

@[simp] theorem retimeColl_frame (h : [.out, .rs, .host, .coll].all K = true) (k s)  :
    (retimeColl k s).erase K = s.erase K := by
  simp at h; simp [retimeColl, h]

@[simp] theorem retime_frame (h : [.out, .rs, .host, .coll].all K = true) (s)  :
    (retime s).erase K = s.erase K := by
  simp at h; simp [retime, h]

@[simp] theorem indeterminate_frame (h : [.out, .regs, .rs, .host, .step, .img, .mem, .flash].all K = true) (s att)  :
    (indeterminate s att).erase K = s.erase K := by
  simp at h; simp [indeterminate, h]

@[simp] theorem guardVerdict_frame (h : [.out, .regs, .rs, .host, .sync, .dies, .gang, .step, .maq, .img, .upd, .mem, .fab, .coll, .flash].all K = true) (s att rec4)  :
    (guardVerdict s att rec4).erase K = s.erase K := by
  simp at h; unfold guardVerdict; split <;> simp [h]

@[simp] theorem againLagged_frame (h : [.dies, .upd, .coll].all K = true) (s k x)  :
    (againLagged s k x).erase K = s.erase K := by
  simp at h; simp [againLagged, h]

@[simp] theorem noteLost_frame (h : [.dies, .upd, .coll].all K = true) (s k cause peer)  :
    (noteLost s k cause peer).erase K = s.erase K := by
  simp at h; unfold noteLost; dsimp only; repeat' split
  all_goals simp [h]

@[simp] theorem failColl_frame (h : [.out, .regs, .rs, .host, .sync, .dies, .gang, .step, .img, .upd, .mem, .fab, .coll, .flash].all K = true) (s k round cause peer port)  :
    (failColl s k round cause peer port).erase K = s.erase K := by
  simp at h; simp [failColl, h]

@[simp] theorem sendGrants_frame (h : [.out, .regs, .rs, .host, .fab, .coll].all K = true) (s k r)  :
    (sendGrants s k r).erase K = s.erase K := by
  simp at h; unfold sendGrants
  refine (State.erase_foldl _ _ _ fun s x => ?_).trans (by simp [h])
  split <;> simp [h]

@[simp] theorem sendData_frame (h : [.out, .regs, .rs, .host, .step, .img, .mem, .flash].all K = true) (s k r)  :
    (sendData s k r).2.erase K = s.erase K := by
  simp at h; unfold sendData
  split
  · rfl
  · split
    · rename_i q; have e := (congrArg (fun r => (Prod.snd r).erase K) q).symm.trans (readFmt_frame (by simp [h]) _ _ _ _ _); dsimp only at e; simp [e]
    · rename_i q; have e := (congrArg (fun r => (Prod.snd r).erase K) q).symm.trans (readFmt_frame (by simp [h]) _ _ _ _ _); dsimp only at e; simp [e]

@[simp] theorem sendRound_frame (h : [.out, .regs, .rs, .host, .fab, .coll].all K = true) (s k r m data)  :
    (sendRound s k r m data).erase K = s.erase K := by
  simp at h; simp [sendRound, h]

@[simp] theorem localOperand_frame (h : [.out, .regs, .rs, .host, .step, .img, .mem, .flash].all K = true) (s k r redop start n)  :
    (localOperand s k r redop start n).2.erase K = s.erase K := by
  simp at h; unfold localOperand
  split
  · rfl
  split
  · rfl
  · split
    · rename_i q; have e := (congrArg (fun r => (Prod.snd r).erase K) q).symm.trans (readFmt_frame (by simp [h]) _ _ _ _ _); dsimp only at e; simp [e]
    · rename_i q; have e := (congrArg (fun r => (Prod.snd r).erase K) q).symm.trans (readFmt_frame (by simp [h]) _ _ _ _ _); dsimp only at e; simp [e]

@[simp] theorem writeResult_frame (h : [.out, .regs, .rs, .host, .step, .img, .mem, .coll, .flash].all K = true) (s k r start ws)  :
    (writeResult s k r start ws).2.erase K = s.erase K := by
  simp at h; unfold writeResult; split <;> simp [h]

@[simp] theorem workAcc_frame (h : [.out, .regs, .rs, .host, .step, .img, .mem, .coll, .flash].all K = true) (k r s a)  :
    (workAcc k r s a).2.erase K = s.erase K := by
  simp at h; unfold workAcc
  dsimp only
  split
  · rfl
  split
  · rename_i q; have e : State.erase K _ = s.erase K := (congrArg (fun r => (Prod.snd r).erase K) q).symm.trans (by split <;> simp [h])
    exact e
  · rename_i q; have e : State.erase K _ = s.erase K := (congrArg (fun r => (Prod.snd r).erase K) q).symm.trans (by split <;> simp [h])
    dsimp only at e
    split <;> simp [h, e]

@[simp] theorem sendPart_frame (h : [.out, .regs, .rs, .host, .step, .img, .mem, .fab, .coll, .flash].all K = true) (k r s)  :
    (sendPart k r s).2.erase K = s.erase K := by
  simp at h; unfold sendPart
  cases rankMod s r.r.peer.toNat with
  | none => rfl
  | some m =>
    cases r.entry with
    | none =>
      cases freeTxn s false with
      | none => rfl
      | some e0 =>
        dsimp only; split
        · rename_i q; have e := (congrArg (fun r => (Prod.snd r).erase K) q).symm.trans (sendData_frame (by simp [h]) _ _ _); dsimp only at e; simp [h, e]
        · rename_i q; have e := (congrArg (fun r => (Prod.snd r).erase K) q).symm.trans (sendData_frame (by simp [h]) _ _ _); dsimp only at e; simp [h, e]
    | some e0 =>
      dsimp only; split
      · rename_i q; have e := (congrArg (fun r => (Prod.snd r).erase K) q).symm.trans (sendData_frame (by simp [h]) _ _ _); dsimp only at e; simp [h, e]
      · rename_i q; have e := (congrArg (fun r => (Prod.snd r).erase K) q).symm.trans (sendData_frame (by simp [h]) _ _ _); dsimp only at e; simp [h, e]

@[simp] theorem workRound_frame (h : [.out, .regs, .rs, .host, .sync, .dies, .gang, .step, .img, .upd, .mem, .fab, .coll, .flash].all K = true) (d i n s)  :
    (workRound d i n s).erase K = s.erase K := by
  simp at h; unfold workRound
  split
  · rfl
  split
  · rfl
  split
  · rfl
  dsimp only
  split
  · generalize hp : sendPart _ _ s = p
    have ep := (congrArg (fun r => (Prod.snd r).erase K) hp).symm.trans (sendPart_frame (by simp [h]) _ _ _)
    split
    · simp [h, ep]
    generalize hf : List.foldl _ _ _ = r
    have hr : r.2.erase K = s.erase K := by
      rw [← hf]
      refine (State.erase_foldl_pair _ _ _ fun a r => ?_).trans (ep)
      split <;> simp [h]
    repeat' split
    all_goals simp [h, hr]
  · simp only [Bool.false_eq_true, ↓reduceIte]
    generalize hf : List.foldl _ _ _ = r
    have hr : r.2.erase K = s.erase K := by
      rw [← hf]
      refine (State.erase_foldl_pair _ _ _ fun a r => ?_).trans (rfl)
      split <;> simp [h]
    repeat' split
    all_goals simp [h, hr]

@[simp] theorem progress_frame (h : [.out, .regs, .rs, .host, .sync, .dies, .gang, .step, .img, .upd, .mem, .fab, .coll, .flash].all K = true) (d i s)  :
    (progress d i s).erase K = s.erase K := by
  simp at h; unfold progress
  split
  · rfl
  · dsimp only
    rw [retime_frame (by simp [h])]
    exact State.erase_loopN _ _ _ fun _ s => State.erase_foldl _ _ _ fun s n => by simp [h]

@[simp] theorem useGrants_frame (h : [.coll].all K = true) (d i s)  :
    (useGrants d i s).erase K = s.erase K := by
  simp at h; unfold useGrants
  split
  · rfl
  · refine State.erase_foldl _ _ _ fun s r => ?_
    repeat' split
    all_goals simp [h]

@[simp] theorem stashAgreed_frame (h : [.out, .regs, .rs, .host, .step, .img, .mem, .flash].all K = true) (s k)  :
    (stashAgreed s k).erase K = s.erase K := by
  simp at h; unfold stashAgreed
  split
  · rfl
  split
  · rename_i q; have e := (congrArg (fun r => (Prod.snd r).erase K) q).symm.trans (readWs_frame (by simp [h]) _ _ _); dsimp only at e; split <;> simp [h, e]
  · rename_i q; have e := (congrArg (fun r => (Prod.snd r).erase K) q).symm.trans (readWs_frame (by simp [h]) _ _ _); dsimp only at e; simp [h, e]

@[simp] theorem nsSend_frame (h : [.out, .regs, .rs, .host, .step, .img, .upd, .mem, .flash].all K = true) (s w)  :
    (nsSend s w).2.erase K = s.erase K := by
  simp at h; unfold nsSend; dsimp only; repeat' split
  all_goals simp [h]

@[simp] theorem prepare_frame (h : [.out, .regs, .rs, .host, .step, .maq, .img, .upd, .mem, .flash].all K = true) (s x w rs)  :
    (prepare s x w rs).2.erase K = s.erase K := by
  simp at h; unfold prepare; repeat' split
  all_goals simp [h]

@[simp] theorem noteReds_frame (h : [.upd].all K = true) (s att w rs)  :
    (noteReds s att w rs).erase K = s.erase K := by
  simp at h; simp [noteReds, h]

@[simp] theorem launch_frame (h : [.out, .regs, .rs, .host, .sync, .dies, .gang, .step, .img, .upd, .mem, .fab, .coll, .flash].all K = true) (k s)  :
    (launch k s).erase K = s.erase K := by
  simp at h; unfold launch
  dsimp only
  rw [progress_frame (by simp [h]), useGrants_frame (by simp [h])]
  refine (State.erase_foldl _ _ _ fun s r => ?_).trans (by simp [h])
  split
  · split <;> simp [h]
  · rfl

@[simp] theorem shadowTook_frame (h : [.upd].all K = true) (j s)  :
    (shadowTook j s).erase K = s.erase K := by
  simp at h; simp [shadowTook, h]

@[simp] theorem startShadow_frame (h : [.out, .regs, .rs, .host, .sync, .dies, .gang, .step, .img, .upd, .mem, .fab, .coll, .flash].all K = true) (j s)  :
    (startShadow j s).erase K = s.erase K := by
  simp at h; simp [startShadow, h]

@[simp] theorem shadowAt_frame (h : [.out, .regs, .rs, .host, .sync, .dies, .gang, .step, .img, .upd, .mem, .fab, .coll, .flash].all K = true) (att s)  :
    (shadowAt att s).erase K = s.erase K := by
  simp at h; simp [shadowAt, h]

@[simp] theorem shadowNext_frame (h : [.out, .regs, .rs, .host, .sync, .dies, .gang, .step, .img, .upd, .mem, .fab, .coll, .flash].all K = true) (s)  :
    (shadowNext s).erase K = s.erase K := by
  simp at h; simp [shadowNext, h]

@[simp] theorem runColl_frame (h : [.out, .regs, .rs, .host, .sync, .dies, .gang, .step, .maq, .img, .upd, .mem, .fab, .coll, .flash].all K = true) (d c w s)  :
    (runColl d c w s).erase K = s.erase K := by
  simp at h; unfold runColl
  split
  · simp [h]
  split
  · simp [h]
  split
  · simp [h]
  split
  · rename_i q; have e := (congrArg (fun r => (Prod.snd r).erase K) q).symm.trans (prepare_frame (by simp [h]) _ _ _ _); dsimp only at e; simp [h, e]
  · rename_i q; have e := (congrArg (fun r => (Prod.snd r).erase K) q).symm.trans (prepare_frame (by simp [h]) _ _ _ _); dsimp only at e; simp [h, e]
  · rename_i q; have e := (congrArg (fun r => (Prod.snd r).erase K) q).symm.trans (prepare_frame (by simp [h]) _ _ _ _); dsimp only at e; simp [h, e]

@[simp] theorem doCollective_frame (h : [.out, .regs, .rs, .host, .sync, .dies, .gang, .step, .maq, .img, .upd, .mem, .fab, .coll, .flash].all K = true) (op d c s)  :
    (doCollective op d c s).erase K = s.erase K := by
  simp at h; simp [doCollective, h]

@[simp] theorem doGrantSend_frame (h : [.out, .regs, .rs, .host, .fab, .coll].all K = true) (d i n s)  :
    (doGrantSend d i n s).erase K = s.erase K := by
  simp at h; unfold doGrantSend; repeat' split
  all_goals simp [h]

@[simp] theorem collResult_frame (h : [.out, .regs, .rs, .host, .sync, .dies, .gang, .step, .maq, .img, .upd, .mem, .fab, .coll, .flash].all K = true) (s k)  :
    (collResult s k).2.erase K = s.erase K := by
  simp at h; unfold collResult
  split
  · simp [h]
  split
  · split
    · rename_i q; have e := (congrArg (fun r => (Prod.snd r).erase K) q).symm.trans (readWs_frame (by simp [h]) _ _ _); dsimp only at e; simp [h, e]
    · rename_i q; have e := (congrArg (fun r => (Prod.snd r).erase K) q).symm.trans (readWs_frame (by simp [h]) _ _ _); dsimp only at e; simp [h, e]
  split
  · simp [h]
  split
  · split
    · rename_i q; have e := (congrArg (fun r => (Prod.snd r).erase K) q).symm.trans (readWs_frame (by simp [h]) _ _ _); dsimp only at e; simp [h, e]
    · rename_i q; have e := (congrArg (fun r => (Prod.snd r).erase K) q).symm.trans (readWs_frame (by simp [h]) _ _ _); dsimp only at e; simp [h, e]
  repeat' split
  all_goals simp [h]

@[simp] theorem doCollectiveDone_frame (h : [.out, .regs, .rs, .host, .sync, .dies, .gang, .step, .maq, .img, .upd, .mem, .fab, .coll, .flash].all K = true) (d i s)  :
    (doCollectiveDone d i s).erase K = s.erase K := by
  simp at h; unfold doCollectiveDone; dsimp only; repeat' split
  all_goals simp [h]

@[simp] theorem doCollTimeout_frame (h : [.clk, .tb, .out, .regs, .rs, .host, .sync, .dies, .gang, .step, .img, .upd, .mem, .fab, .coll, .flash, .tbs].all K = true) (d i s)  :
    (doCollTimeout d i s).erase K = s.erase K := by
  simp at h; unfold doCollTimeout; split <;> simp [h]

@[simp] theorem stale_frame (h : [.out, .regs, .rs, .host].all K = true) (s)  :
    (stale s).erase K = s.erase K := by
  simp at h; simp [stale, h]

@[simp] theorem progressAll_frame (h : [.out, .regs, .rs, .host, .sync, .dies, .gang, .step, .img, .upd, .mem, .fab, .coll, .flash].all K = true) (s)  :
    (progressAll s).erase K = s.erase K := by
  simp at h; simp [progressAll, h]

@[simp] theorem takeGrant_frame (h : [.out, .regs, .rs, .host, .sync, .dies, .gang, .step, .img, .upd, .mem, .fab, .coll, .flash].all K = true) (p s)  :
    (takeGrant p s).erase K = s.erase K := by
  simp at h; simp [takeGrant, h]

@[simp] theorem takeData_frame (h : [.out, .regs, .rs, .host, .sync, .dies, .gang, .step, .img, .upd, .mem, .fab, .coll, .flash].all K = true) (p s)  :
    (takeData p s).erase K = s.erase K := by
  simp at h; unfold takeData; repeat' split
  all_goals simp [h]

end Sys2Proof.Machine
end

