-- ==== Sys2Proof/Laws/FrameFinisherRun.lean ====
section
/-! SUPPORT. Laws/FrameFinisherRun.lean: which components of the state each operation of Machine/FinisherRun.lean can change. -/
namespace Sys2Proof.Machine
open Sys2Proof

variable {K : Comp → Bool}

@[simp] theorem finStart_frame (h : [.out, .regs, .rs, .host, .sync, .dies, .gang, .step, .img, .upd, .mem, .fab, .coll, .flash].all K = true) (q d w rs s)  :
    (finStart q d w rs s).erase K = s.erase K := by
  simp at h; simp [finStart, h]

@[simp] theorem finExchange_frame (h : [.out, .regs, .rs, .host, .sync, .dies, .gang, .step, .maq, .img, .upd, .mem, .fab, .coll, .flash].all K = true) (q layer s)  :
    (finExchange q layer s).erase K = s.erase K := by
  simp at h; unfold finExchange
  split
  · rfl
  split
  · rename_i q; have e := (congrArg (fun r => (Prod.snd r).erase K) q).symm.trans (exchangeStart_frame (by simp [h]) _ _ _ _ _); dsimp only at e; dsimp only; split <;> simp [h, e]
  · rename_i q; have e := (congrArg (fun r => (Prod.snd r).erase K) q).symm.trans (exchangeStart_frame (by simp [h]) _ _ _ _ _); dsimp only at e; simp [e]

@[simp] theorem finGather_frame (h : [.out, .regs, .rs, .host, .sync, .dies, .gang, .step, .maq, .img, .upd, .mem, .fab, .coll, .flash].all K = true) (p q layer s)  :
    (finGather p q layer s).erase K = s.erase K := by
  simp at h; unfold finGather; repeat' split
  all_goals simp [h]

@[simp] theorem finLayer_frame (h : [.out, .regs, .rs, .host, .sync, .dies, .gang, .step, .maq, .img, .upd, .mem, .fab, .coll, .flash].all K = true) (q layer s)  :
    (finLayer q layer s).erase K = s.erase K := by
  simp at h; unfold finLayer; repeat' split
  all_goals simp [h]

@[simp] theorem finOuter_frame (h : [.out, .regs, .rs, .host, .sync, .dies, .gang, .step, .maq, .img, .upd, .mem, .fab, .coll, .flash].all K = true) (q s)  :
    (finOuter q s).erase K = s.erase K := by
  simp at h; simp [finOuter, h]

@[simp] theorem doFinisherComplete_frame (h : [.out, .regs, .rs, .host, .sync, .dies, .gang, .step, .maq, .img, .upd, .mem, .fab, .coll, .flash, .start].all K = true) (s)  :
    (doFinisherComplete s).erase K = s.erase K := by
  simp at h; unfold doFinisherComplete; split <;> simp [h]

@[simp] theorem doFinisherFetchDone_frame (h : [.out, .regs, .rs, .host, .sync, .dies, .gang, .step, .maq, .img, .upd, .mem, .fab, .coll, .flash, .start].all K = true) (desc chunk srcStep data s)  :
    (doFinisherFetchDone desc chunk srcStep data s).erase K = s.erase K := by
  simp at h; unfold doFinisherFetchDone; split <;> simp [h]

@[simp] theorem doShadowUpdate_frame (h : [.out, .regs, .rs, .host, .sync, .dies, .gang, .step, .maq, .img, .upd, .mem, .fab, .coll, .flash].all K = true) (stepNum entry s)  :
    (doShadowUpdate stepNum entry s).erase K = s.erase K := by
  simp at h; unfold doShadowUpdate; repeat' split
  all_goals simp [h]

end Sys2Proof.Machine
end

