-- ==== Sys2Proof/Laws/FrameFabric.lean ====
section
/-! SUPPORT. Laws/FrameFabric.lean: which components of the state each operation of Machine/Fabric.lean can change. -/
namespace Sys2Proof.Machine
open Sys2Proof

variable {K : Comp → Bool}

@[simp] theorem noteArrival_frame (h : [.out, .regs, .fab].all K = true) (s p ch)  :
    (noteArrival s p ch).erase K = s.erase K := by
  simp at h; simp [noteArrival, h]

@[simp] theorem forward_frame (h : [.out, .regs, .rs, .host, .fab].all K = true) (s p ch)  :
    (forward s p ch).erase K = s.erase K := by
  simp at h; simp [forward, h]

@[simp] theorem atEnd_frame (h : [.out, .regs, .rs, .host].all K = true) (p ch run s) (hrun : ∀ z0, State.erase K (run z0) = State.erase K z0) :
    (atEnd p ch run s).erase K = s.erase K := by
  simp at h; simp [atEnd, h, hrun]

@[simp] theorem arrive_frame (h : [.out, .regs, .rs, .host, .fab].all K = true) (t p ch run s) (hrun : ∀ z0, State.erase K (run z0) = State.erase K z0) :
    (arrive t p ch run s).erase K = s.erase K := by
  simp at h; simp [arrive, h, hrun]

@[simp] theorem refuse_frame (h : [.out, .regs, .rs, .host].all K = true) (s p ch why code)  :
    (refuse s p ch why code).erase K = s.erase K := by
  simp at h; simp [refuse, h]

@[simp] theorem updFlow_frame (h : [.fab].all K = true) (s p f)  :
    (updFlow s p f).erase K = s.erase K := by
  simp at h; simp [updFlow, h]

@[simp] theorem answer_frame (h : [.out, .regs, .rs, .host, .fab].all K = true) (s p code data)  :
    (answer s p code data).erase K = s.erase K := by
  simp at h; simp [answer, h]

@[simp] theorem denyReq_frame (h : [.out, .regs, .rs, .host, .fab].all K = true) (s p ch why)  :
    (denyReq s p ch why).erase K = s.erase K := by
  simp at h; simp [denyReq, h]

@[simp] theorem hostReq_frame (h : [.out, .regs, .rs, .host, .fab].all K = true) (s p ch write)  :
    (hostReq s p ch write).erase K = s.erase K := by
  simp at h; unfold hostReq; dsimp only; repeat' split
  all_goals simp [h]

@[simp] theorem mboxReq_frame (h : [.out, .regs, .rs, .host, .fab].all K = true) (s p ch write)  :
    (mboxReq s p ch write).erase K = s.erase K := by
  simp at h; unfold mboxReq; repeat' split
  all_goals simp [h]

@[simp] theorem performWrite_frame (h : [.out, .regs, .rs, .host, .dies, .step, .img, .mem, .fab, .flash].all K = true) (p ch s)  :
    (performWrite p ch s).erase K = s.erase K := by
  simp at h; unfold performWrite
  dsimp only
  split
  · simp [h]
  split
  · simp [h]
  split
  · simp [h]
  split
  · simp [h]
  split
  · split
    · rename_i q; have e := memWrite_frame (K := K) (by simp [h]) _ _ _ _ _ q; simp [h, e]
    · rename_i q; have e := memWrite_frame (K := K) (by simp [h]) _ _ _ _ _ q; simp [h, e]
    · simp [h]
  · simp [h]

@[simp] theorem performRead_frame (h : [.out, .regs, .rs, .host, .dies, .step, .img, .mem, .fab, .flash].all K = true) (p ch s)  :
    (performRead p ch s).erase K = s.erase K := by
  simp at h; unfold performRead
  dsimp only
  split
  · simp [h]
  split
  · simp [h]
  split
  · simp [h]
  split
  · simp [h]
  split
  · split
    · rename_i q; have e := memRead_frame (K := K) (by simp [h]) _ _ _ _ _ q
      split <;> simp [h, e]
    · simp [h]
  · split <;> simp [h]

@[simp] theorem refuseSignal_frame (h : [.out, .regs, .rs, .host, .fab, .sec].all K = true) (s p reserved)  :
    (refuseSignal s p reserved).erase K = s.erase K := by
  simp at h; simp [refuseSignal, h]

@[simp] theorem performSignal_frame (h : [.out, .regs, .rs, .host, .sync, .dies, .step, .img, .upd, .fab, .sec].all K = true) (p ch s)  :
    (performSignal p ch s).erase K = s.erase K := by
  simp at h; unfold performSignal; split <;> simp [h]

@[simp] theorem performColl_frame (h : [.out, .regs, .rs, .host, .sync, .dies, .gang, .step, .img, .upd, .mem, .fab, .coll, .flash].all K = true) (p s)  :
    (performColl p s).erase K = s.erase K := by
  simp at h; unfold performColl; repeat' split
  all_goals simp [h]

@[simp] theorem perform_frame (h : [.out, .regs, .rs, .host, .sync, .dies, .gang, .step, .img, .upd, .mem, .fab, .coll, .flash, .sec].all K = true) (s p ch)  :
    (perform s p ch).erase K = s.erase K := by
  simp at h; unfold perform; split <;> simp [h]

@[simp] theorem flowFull_frame (h : [.out, .regs, .rs, .host, .fab].all K = true) (s p ch)  :
    (flowFull s p ch).erase K = s.erase K := by
  simp at h; simp [flowFull, h]

@[simp] theorem drainFlow_frame (h : [.out, .regs, .rs, .host, .sync, .dies, .gang, .step, .img, .upd, .mem, .fab, .coll, .flash, .sec].all K = true) (y0 y1 y2)  :
    (drainFlow y0 y1 y2).erase K = y2.erase K := by
  simp at h
  induction y0 generalizing y1 y2 with
  | zero => rfl
  | succ n ih =>
    unfold drainFlow; dsimp only
    repeat' split
    all_goals simp [h, ih]

@[simp] theorem duplicate_frame (h : [.out, .regs, .rs, .host, .fab].all K = true) (s p f)  :
    (duplicate s p f).erase K = s.erase K := by
  simp at h; unfold duplicate; repeat' split
  all_goals simp [h]

@[simp] theorem inbound_frame (h : [.out, .regs, .rs, .host, .sync, .dies, .gang, .step, .img, .upd, .mem, .fab, .coll, .flash, .sec].all K = true) (p ch s)  :
    (inbound p ch s).erase K = s.erase K := by
  simp at h; unfold inbound
  dsimp only
  split
  · simp [h]
  rename_i s2 heq
  have e : s2.erase K = s.erase K := by
    revert heq
    repeat' split
    all_goals intro heq
    · injection heq with heq; subst heq; simp [h]
    · cases heq
    · injection heq with heq; subst heq; simp [h]
  repeat' split
  all_goals simp [h, e]

@[simp] theorem doWritePacket_frame (h : [.out, .regs, .rs, .host, .sync, .dies, .gang, .step, .img, .upd, .mem, .fab, .coll, .flash, .sec].all K = true) (p ch s)  :
    (doWritePacket p ch s).erase K = s.erase K := by
  simp at h; simp [doWritePacket, h]

@[simp] theorem doReadPacket_frame (h : [.out, .regs, .rs, .host, .sync, .dies, .gang, .step, .img, .upd, .mem, .fab, .coll, .flash, .sec].all K = true) (p ch s)  :
    (doReadPacket p ch s).erase K = s.erase K := by
  simp at h; simp [doReadPacket, h]

@[simp] theorem doSignalPacket_frame (h : [.out, .regs, .rs, .host, .sync, .dies, .gang, .step, .img, .upd, .mem, .fab, .coll, .flash, .sec].all K = true) (p ch s)  :
    (doSignalPacket p ch s).erase K = s.erase K := by
  simp at h; simp [doSignalPacket, h]

@[simp] theorem inboundColl_frame (h : [.out, .regs, .rs, .host, .sync, .dies, .gang, .step, .img, .upd, .mem, .fab, .coll, .flash, .sec].all K = true) (p ch s)  :
    (inboundColl p ch s).erase K = s.erase K := by
  simp at h; unfold inboundColl; split <;> simp [h]

@[simp] theorem doCollData_frame (h : [.out, .regs, .rs, .host, .sync, .dies, .gang, .step, .img, .upd, .mem, .fab, .coll, .flash, .sec].all K = true) (p ch s)  :
    (doCollData p ch s).erase K = s.erase K := by
  simp at h; simp [doCollData, h]

@[simp] theorem doCollGrant_frame (h : [.out, .regs, .rs, .host, .sync, .dies, .gang, .step, .img, .upd, .mem, .fab, .coll, .flash].all K = true) (p ch s)  :
    (doCollGrant p ch s).erase K = s.erase K := by
  simp at h; simp [doCollGrant, h]

@[simp] theorem doPacketForward_frame (h : [.out, .regs, .rs, .host, .fab].all K = true) (p ch s)  :
    (doPacketForward p ch s).erase K = s.erase K := by
  simp at h; simp [doPacketForward, h]

@[simp] theorem dropHostRead_frame (h : [.host].all K = true) (s tag)  :
    (dropHostRead s tag).erase K = s.erase K := by
  simp at h; simp [dropHostRead, h]

@[simp] theorem nextHostRead_frame (h : [.out, .host].all K = true) (s)  :
    (nextHostRead s).erase K = s.erase K := by
  simp at h; unfold nextHostRead
  split
  · rfl
  · cases hostWin s _ _ false <;> simp [h]

@[simp] theorem hostDone_frame (h : [.out, .regs, .rs, .host, .sync, .dies, .gang, .step, .img, .upd, .mem, .fab, .coll, .flash, .sec].all K = true) (s r code data)  :
    (hostDone s r code data).erase K = s.erase K := by
  simp at h; unfold hostDone; dsimp only; repeat' split
  all_goals simp [h]

@[simp] theorem doHostReadCompletion_frame (h : [.out, .regs, .rs, .host, .sync, .dies, .gang, .step, .img, .upd, .mem, .fab, .coll, .flash, .sec].all K = true) (tag data s)  :
    (doHostReadCompletion tag data s).erase K = s.erase K := by
  simp at h; unfold doHostReadCompletion; split <;> simp [h]

@[simp] theorem doCompletionTimeout_frame (h : [.clk, .tb, .out, .regs, .rs, .host, .sync, .dies, .gang, .step, .img, .upd, .mem, .fab, .coll, .flash, .tbs, .sec].all K = true) (tag s)  :
    (doCompletionTimeout tag s).erase K = s.erase K := by
  simp at h; unfold doCompletionTimeout; split <;> simp [h]

@[simp] theorem endSignal_frame (h : [.out, .regs, .rs, .host, .sync, .dies, .gang, .step, .img, .upd, .mem, .fab, .coll, .flash].all K = true) (s d c i ref code)  :
    (endSignal s d c i ref code).erase K = s.erase K := by
  simp at h; unfold endSignal; split <;> simp [h]

@[simp] theorem takeVerdict_frame (h : [.out, .regs, .rs, .host, .sync, .dies, .gang, .step, .maq, .img, .upd, .mem, .fab, .coll, .flash].all K = true) (s att data)  :
    (takeVerdict s att data).erase K = s.erase K := by
  simp at h; simp [takeVerdict, h]

@[simp] theorem maqSend_frame (h : [.out, .regs, .rs, .host, .maq, .fab].all K = true) (sec k e a s)  :
    (maqSend sec k e a s).erase K = s.erase K := by
  simp at h; unfold maqSend
  dsimp only
  split
  · rfl
  split
  · rfl
  split
  · rfl
  · rename_i q; have e := sendReq_frame (K := K) (by simp [h]) _ _ _ _ _ q; simp [h, e]

@[simp] theorem maqExport_frame (h : [.out, .regs, .rs, .host, .maq, .fab].all K = true) (s)  :
    (maqExport s).erase K = s.erase K := by
  simp at h; unfold maqExport
  dsimp only
  split
  · rfl
  split
  · split
    · rfl
    · refine State.erase_foldl _ _ _ fun s k => ?_
      repeat' split
      all_goals simp [h]
  · split
    · rfl
    · exact State.erase_foldl _ _ _ fun s k => State.erase_loopN _ _ _ fun _ s => by simp [h]

@[simp] theorem maqAck_frame (h : [.out, .regs, .rs, .host, .maq, .fab].all K = true) (s slot off code)  :
    (maqAck s slot off code).erase K = s.erase K := by
  simp at h; simp [maqAck, h]

@[simp] theorem endTxn_frame (h : [.out, .regs, .rs, .host, .sync, .dies, .gang, .step, .maq, .img, .upd, .mem, .fab, .coll, .flash].all K = true) (s u code data)  :
    (endTxn s u code data).erase K = s.erase K := by
  simp at h; unfold endTxn; split <;> simp [h]

@[simp] theorem settleFlow_frame (h : [.out, .regs, .rs, .host, .sync, .dies, .gang, .step, .maq, .img, .upd, .mem, .fab, .coll, .flash].all K = true) (y0 y1 y2)  :
    (settleFlow y0 y1 y2).erase K = y2.erase K := by
  simp at h
  induction y0 generalizing y1 y2 with
  | zero => rfl
  | succ n ih =>
    unfold settleFlow; dsimp only
    repeat' split
    all_goals simp [h, ih]

@[simp] theorem answerTxn_frame (h : [.out, .regs, .rs, .host, .sync, .dies, .gang, .step, .maq, .img, .upd, .mem, .fab, .coll, .flash].all K = true) (s o code data)  :
    (answerTxn s o code data).erase K = s.erase K := by
  simp at h; simp [answerTxn, h]

@[simp] theorem reread_frame (h : [.out, .regs, .rs, .host, .step, .img, .mem, .flash].all K = true) (s o)  :
    (reread s o).2.erase K = s.erase K := by
  simp at h; unfold reread
  split
  · split
    · rfl
    split
    · rfl
    split
    · rename_i q; have e := (congrArg (fun r => (Prod.snd r).erase K) q).symm.trans (sendData_frame (by simp [h]) _ _ _); dsimp only at e; simp [e]
    · rename_i q; have e := (congrArg (fun r => (Prod.snd r).erase K) q).symm.trans (sendData_frame (by simp [h]) _ _ _); dsimp only at e; simp [e]
  · split <;> rfl
  · rfl

@[simp] theorem dropOut_frame (h : [.fab].all K = true) (s o)  :
    (dropOut s o).erase K = s.erase K := by
  simp at h; simp [dropOut, h]

@[simp] theorem failRound_frame (h : [.out, .regs, .rs, .host, .sync, .dies, .gang, .step, .img, .upd, .mem, .fab, .coll, .flash].all K = true) (s o d i r cause)  :
    (failRound s o d i r cause).erase K = s.erase K := by
  simp at h; unfold failRound; split <;> simp [h]

@[simp] theorem touchFlow_frame (h : [.fab].all K = true) (s p)  :
    (touchFlow s p).erase K = s.erase K := by
  simp at h; simp [touchFlow, h]

@[simp] theorem resend_frame (h : [.out, .regs, .rs, .host, .sync, .dies, .gang, .step, .maq, .img, .upd, .mem, .fab, .coll, .flash].all K = true) (s o)  :
    (resend s o).erase K = s.erase K := by
  simp at h; unfold resend
  split
  · split
    · rename_i q; have e := (congrArg (fun r => (Prod.snd r).erase K) q).symm.trans (reread_frame (by simp [h]) _ _); dsimp only at e; split <;> simp [h, e]
    · rename_i q; have e := (congrArg (fun r => (Prod.snd r).erase K) q).symm.trans (reread_frame (by simp [h]) _ _); dsimp only at e; simp [h, e]
  · dsimp only; split <;> simp [h]

@[simp] theorem doRtoExpire_frame (h : [.clk, .tb, .out, .regs, .rs, .host, .sync, .dies, .gang, .step, .maq, .img, .upd, .mem, .fab, .coll, .flash, .tbs].all K = true) (txn s)  :
    (doRtoExpire txn s).erase K = s.erase K := by
  simp at h; unfold doRtoExpire; split <;> simp [h]

@[simp] theorem takeReadData_frame (h : [.out, .regs, .rs, .host, .sync, .dies, .gang, .step, .maq, .img, .upd, .mem, .fab, .coll, .flash].all K = true) (p s)  :
    (takeReadData p s).erase K = s.erase K := by
  simp at h; unfold takeReadData; split <;> simp [h]

@[simp] theorem takeStatus_frame (h : [.out, .regs, .rs, .host, .sync, .dies, .gang, .step, .maq, .img, .upd, .mem, .fab, .coll, .flash].all K = true) (p s)  :
    (takeStatus p s).erase K = s.erase K := by
  simp at h; unfold takeStatus; split <;> simp [h]

@[simp] theorem doReadData_frame (h : [.out, .regs, .rs, .host, .sync, .dies, .gang, .step, .maq, .img, .upd, .mem, .fab, .coll, .flash].all K = true) (p ch s)  :
    (doReadData p ch s).erase K = s.erase K := by
  simp at h; simp [doReadData, h]

@[simp] theorem doStatus_frame (h : [.out, .regs, .rs, .host, .sync, .dies, .gang, .step, .maq, .img, .upd, .mem, .fab, .coll, .flash].all K = true) (p ch s)  :
    (doStatus p ch s).erase K = s.erase K := by
  simp at h; simp [doStatus, h]

@[simp] theorem takeE2eAck_frame (h : [.out, .regs, .rs, .host, .sync, .dies, .gang, .step, .img, .upd, .mem, .fab, .coll, .flash].all K = true) (p s)  :
    (takeE2eAck p s).erase K = s.erase K := by
  simp at h; simp [takeE2eAck, h]

@[simp] theorem doE2eAck_frame (h : [.out, .regs, .rs, .host, .sync, .dies, .gang, .step, .img, .upd, .mem, .fab, .coll, .flash].all K = true) (p ch s)  :
    (doE2eAck p ch s).erase K = s.erase K := by
  simp at h; simp [doE2eAck, h]

@[simp] theorem doE2eAckTimer_frame (h : [.clk, .tb, .out, .regs, .rs, .host, .dies, .fab, .tbs].all K = true) (key s)  :
    (doE2eAckTimer key s).erase K = s.erase K := by
  simp at h; unfold doE2eAckTimer; split <;> simp [h]

@[simp] theorem doFlowIdleExpire_frame (h : [.clk, .tb, .regs, .dies, .fab, .tbs].all K = true) (source key s)  :
    (doFlowIdleExpire source key s).erase K = s.erase K := by
  simp at h; unfold doFlowIdleExpire; repeat' split
  all_goals simp [h]

@[simp] theorem doReliefMove_frame (h : [.clk, .tb, .out, .regs, .rs, .host, .dies, .fab, .tbs].all K = true) (i s)  :
    (doReliefMove i s).erase K = s.erase K := by
  simp at h; unfold doReliefMove; repeat' split
  all_goals simp [h]

@[simp] theorem doReplayStoreSend_frame (h : [.out, .regs, .rs, .host, .fab].all K = true) (port s)  :
    (doReplayStoreSend port s).erase K = s.erase K := by
  simp at h; simp [doReplayStoreSend, h]

@[simp] theorem rescue_frame (h : [.out, .regs, .rs, .host, .fab].all K = true) (peer s u)  :
    (rescue peer s u).erase K = s.erase K := by
  simp at h; unfold rescue
  split
  · rfl
  dsimp only; split
  · rename_i q; have e := (congrArg (fun r => (Prod.snd r).erase K) q).symm.trans (pick_frame (by simp [h]) _ _ _); dsimp only at e; simp [h, e]
  · rename_i q; have e := (congrArg (fun r => (Prod.snd r).erase K) q).symm.trans (pick_frame (by simp [h]) _ _ _); dsimp only at e; simp [h, e]

@[simp] theorem routeNotice_frame (h : [.out, .regs, .rs, .host, .fab].all K = true) (s d ch up)  :
    (routeNotice s d ch up).erase K = s.erase K := by
  simp at h; simp [routeNotice, h]

@[simp] theorem linkDown_frame (h : [.out, .regs, .rs, .host, .fab].all K = true) (s ch)  :
    (linkDown s ch).erase K = s.erase K := by
  simp at h; unfold linkDown; dsimp only; repeat' split
  all_goals simp [h]

@[simp] theorem linkResend_frame (h : [.out, .regs, .rs, .host, .fab].all K = true) (s ch lsn)  :
    (linkResend s ch lsn).erase K = s.erase K := by
  simp at h; unfold linkResend; split <;> simp [h]

@[simp] theorem takeLcw_frame (h : [.out, .regs, .rs, .host, .fab].all K = true) (w s)  :
    (takeLcw w s).erase K = s.erase K := by
  simp at h; simp [takeLcw, h]

@[simp] theorem doLinkAckTimeout_frame (h : [.clk, .tb, .out, .regs, .rs, .host, .dies, .fab, .tbs].all K = true) (ch lsn s)  :
    (doLinkAckTimeout ch lsn s).erase K = s.erase K := by
  simp at h; unfold doLinkAckTimeout; split <;> simp [h]

@[simp] theorem forwardPoison_frame (h : [.out, .regs, .rs, .host, .fab].all K = true) (p ch s)  :
    (forwardPoison p ch s).erase K = s.erase K := by
  simp at h; unfold forwardPoison; repeat' split
  all_goals simp [h]

@[simp] theorem takePoison_frame (h : [.out, .regs, .rs, .host, .sync, .dies, .gang, .step, .img, .upd, .mem, .fab, .coll, .flash].all K = true) (p ch s)  :
    (takePoison p ch s).erase K = s.erase K := by
  simp at h; unfold takePoison; dsimp only; repeat' split
  all_goals simp [h]

@[simp] theorem doPoisonPacket_frame (h : [.out, .regs, .rs, .host, .sync, .dies, .gang, .step, .img, .upd, .mem, .fab, .coll, .flash].all K = true) (p ch s)  :
    (doPoisonPacket p ch s).erase K = s.erase K := by
  simp at h; simp [doPoisonPacket, h]

@[simp] theorem doPoisonRepeat_frame (h : [.clk, .tb, .out, .regs, .rs, .host, .dies, .step, .fab, .tbs].all K = true) (att s)  :
    (doPoisonRepeat att s).erase K = s.erase K := by
  simp at h; unfold doPoisonRepeat; split <;> simp [h]

@[simp] theorem takeThermalSlow_frame (h : [.out, .rs, .host, .mem, .coll].all K = true) (p s)  :
    (takeThermalSlow p s).erase K = s.erase K := by
  simp at h; simp [takeThermalSlow, h]

@[simp] theorem doThermalSlowPacket_frame (h : [.out, .regs, .rs, .host, .mem, .fab, .coll].all K = true) (p ch s)  :
    (doThermalSlowPacket p ch s).erase K = s.erase K := by
  simp at h; simp [doThermalSlowPacket, h]

@[simp] theorem doThermalSlowHoldExpire_frame (h : [.clk, .tb, .out, .regs, .rs, .host, .dies, .mem, .coll, .tbs].all K = true) (peer s)  :
    (doThermalSlowHoldExpire peer s).erase K = s.erase K := by
  simp at h; simp [doThermalSlowHoldExpire, h]

@[simp] theorem takeRouteNotice_frame (h : [.fab].all K = true) (p ch s)  :
    (takeRouteNotice p ch s).erase K = s.erase K := by
  simp at h; simp [takeRouteNotice, h]

@[simp] theorem doRouteNotice_frame (h : [.out, .regs, .rs, .host, .fab].all K = true) (p ch s)  :
    (doRouteNotice p ch s).erase K = s.erase K := by
  simp at h; simp [doRouteNotice, h]

@[simp] theorem epochBad_frame (h : [.out, .rs, .host].all K = true) (s)  :
    (epochBad s).erase K = s.erase K := by
  simp at h; simp [epochBad, h]

@[simp] theorem freeBank_frame (h : [.fab].all K = true) (s)  :
    (freeBank s).erase K = s.erase K := by
  simp at h; unfold freeBank; split <;> simp [h]

@[simp] theorem doEpochOpen_frame (h : [.out, .rs, .host, .fab].all K = true) (s)  :
    (doEpochOpen s).erase K = s.erase K := by
  simp at h; simp [doEpochOpen, h]

@[simp] theorem doEpochLoad_frame (h : [.out, .rs, .host, .fab].all K = true) (s)  :
    (doEpochLoad s).erase K = s.erase K := by
  simp at h; simp [doEpochLoad, h]

@[simp] theorem doEpochInject_frame (h : [.out, .rs, .host, .fab].all K = true) (s)  :
    (doEpochInject s).erase K = s.erase K := by
  simp at h; simp [doEpochInject, h]

@[simp] theorem doEpochRetire_frame (h : [.out, .rs, .host, .fab].all K = true) (s)  :
    (doEpochRetire s).erase K = s.erase K := by
  simp at h; simp [doEpochRetire, h]

@[simp] theorem doEpochView_frame (h : [.fab].all K = true) (arg s)  :
    (doEpochView arg s).erase K = s.erase K := by
  simp at h; simp [doEpochView, h]

@[simp] theorem epochCmd_frame (h : [.out, .rs, .host, .fab].all K = true) (v s)  :
    (epochCmd v s).erase K = s.erase K := by
  simp at h; unfold epochCmd; split <;> simp [h]

@[simp] theorem writeRack_frame (h : [.out, .rs, .host, .fab].all K = true) (r v s)  :
    (writeRack r v s).erase K = s.erase K := by
  simp at h; simp [writeRack, h]

@[simp] theorem writeDim_frame (h : [.out, .rs, .host, .fab].all K = true) (d v s)  :
    (writeDim d v s).erase K = s.erase K := by
  simp at h; simp [writeDim, h]

end Sys2Proof.Machine
end

