-- ==== Sys2Proof/Laws/FrameThermal.lean ====
section
/-! SUPPORT. Laws/FrameThermal.lean: which components of the state each operation of Machine/Thermal.lean can change. -/
namespace Sys2Proof.Machine
open Sys2Proof

variable {K : Comp → Bool}

@[simp] theorem rampBreak_frame (h : [.out, .rs, .host].all K = true) (s)  :
    (rampBreak s).erase K = s.erase K := by
  simp at h; simp [rampBreak, h]

@[simp] theorem sendSlow_frame (h : [.out, .regs, .rs, .host, .fab].all K = true) (s on)  :
    (sendSlow s on).erase K = s.erase K := by
  simp at h; simp [sendSlow, h]

@[simp] theorem checkSlow_frame (h : [.out, .regs, .rs, .host, .mem, .fab, .coll].all K = true) (s)  :
    (checkSlow s).erase K = s.erase K := by
  simp at h; simp [checkSlow, h]

@[simp] theorem stackEvent_frame (h : [.out, .regs, .rs, .host].all K = true) (s bit n)  :
    (stackEvent s bit n).erase K = s.erase K := by
  simp at h; simp [stackEvent, h]

@[simp] theorem enterEmergency_frame (h : [.out, .regs, .rs, .host, .sync, .dies, .gang, .step, .img, .upd, .mem].all K = true) (s n)  :
    (enterEmergency s n).erase K = s.erase K := by
  simp at h; simp [enterEmergency, h]

@[simp] theorem takeBand_frame (h : [.out, .regs, .rs, .host, .mem].all K = true) (s n b)  :
    (takeBand s n b).erase K = s.erase K := by
  simp at h; simp [takeBand, h]

@[simp] theorem doStackTempRead_frame (h : [.out, .regs, .rs, .host, .sync, .dies, .gang, .step, .img, .upd, .mem, .fab, .coll].all K = true) (n temp s)  :
    (doStackTempRead n temp s).erase K = s.erase K := by
  simp at h; unfold doStackTempRead; split <;> simp [h]

@[simp] theorem doStackSensorTimeout_frame (h : [.clk, .tb, .out, .regs, .rs, .host, .sync, .dies, .gang, .step, .img, .upd, .mem, .fab, .coll, .tbs].all K = true) (n s)  :
    (doStackSensorTimeout n s).erase K = s.erase K := by
  simp at h; simp [doStackSensorTimeout, h]

@[simp] theorem doThermalSlowRepeat_frame (h : [.clk, .tb, .out, .regs, .rs, .host, .dies, .mem, .fab, .tbs].all K = true) (s)  :
    (doThermalSlowRepeat s).erase K = s.erase K := by
  simp at h; unfold doThermalSlowRepeat; split <;> simp [h]

end Sys2Proof.Machine
end

