-- ==== Sys2Proof/Laws/FrameLinks.lean ====
section
/-! SUPPORT. Laws/FrameLinks.lean: which components of the state each operation of Machine/Links.lean can change. -/
namespace Sys2Proof.Machine
open Sys2Proof

variable {K : Comp → Bool}

@[simp] theorem sendHello_frame (h : [.out, .regs, .rs, .host, .fab].all K = true) (s ch)  :
    (sendHello s ch).erase K = s.erase K := by
  simp at h; simp [sendHello, h]

@[simp] theorem channelUp_frame (h : [.out, .regs, .rs, .host, .fab].all K = true) (s ch)  :
    (channelUp s ch).erase K = s.erase K := by
  simp at h; simp [channelUp, h]

@[simp] theorem quarantine_frame (h : [.out, .regs, .rs, .host, .fab].all K = true) (s ch cause claim)  :
    (quarantine s ch cause claim).erase K = s.erase K := by
  simp at h; unfold quarantine; split <;> simp [h]

@[simp] theorem checkOwnId_frame (h : [.out, .rs, .host, .start].all K = true) (s)  :
    (checkOwnId s).erase K = s.erase K := by
  simp at h; simp [checkOwnId, h]

@[simp] theorem noticeReturn_frame (h : [.out, .regs, .rs, .host, .fab].all K = true) (s ch before)  :
    (noticeReturn s ch before).erase K = s.erase K := by
  simp at h; unfold noticeReturn; split <;> simp [h]

@[simp] theorem takeHello_frame (h : [.out, .regs, .rs, .host, .fab, .start].all K = true) (p ch s)  :
    (takeHello p ch s).erase K = s.erase K := by
  simp at h; simp [takeHello, h]

@[simp] theorem doLinkHello_frame (h : [.out, .regs, .rs, .host, .fab, .start].all K = true) (p ch s)  :
    (doLinkHello p ch s).erase K = s.erase K := by
  simp at h; simp [doLinkHello, h]

@[simp] theorem doHelloTimer_frame (h : [.clk, .tb, .out, .regs, .rs, .host, .dies, .fab, .tbs].all K = true) (ch s)  :
    (doHelloTimer ch s).erase K = s.erase K := by
  simp at h; unfold doHelloTimer; split <;> simp [h]

@[simp] theorem doHelloSilent_frame (h : [.clk, .tb, .out, .regs, .rs, .host, .dies, .fab, .tbs].all K = true) (ch s)  :
    (doHelloSilent ch s).erase K = s.erase K := by
  simp at h; unfold doHelloSilent; split <;> simp [h]

@[simp] theorem doEpochDrainDone_frame (h : [.clk, .tb, .regs, .dies, .fab, .tbs].all K = true) (s)  :
    (doEpochDrainDone s).erase K = s.erase K := by
  simp at h; unfold doEpochDrainDone; split <;> simp [h]

end Sys2Proof.Machine
end

