-- ==== Sys2Proof/Laws/FrameOptics.lean ====
section
/-! SUPPORT. Laws/FrameOptics.lean: which components of the state each operation of Machine/Optics.lean can change. -/
namespace Sys2Proof.Machine
open Sys2Proof

variable {K : Comp → Bool}

@[simp] theorem updOpt_frame (h : [.opt].all K = true) (s f)  :
    (updOpt s f).erase K = s.erase K := by
  simp at h; simp [updOpt, h]

@[simp] theorem updRing_frame (h : [.opt].all K = true) (s r f)  :
    (updRing s r f).erase K = s.erase K := by
  simp at h; simp [updRing, h]

@[simp] theorem channelLost_frame (h : [.out, .regs, .rs, .host, .fab].all K = true) (s ch)  :
    (channelLost s ch).erase K = s.erase K := by
  simp at h; simp [channelLost, h]

@[simp] theorem withChans_frame (h : [.out, .regs, .rs, .host, .fab].all K = true) (chs f s) (hf : ∀ z0, State.erase K (f z0) = State.erase K z0) :
    (withChans chs f s).erase K = s.erase K := by
  simp at h; simp [withChans, h, hf]

@[simp] theorem portEvent_frame (h : [.out, .regs, .rs, .host].all K = true) (s bit ch rx seen cause)  :
    (portEvent s bit ch rx seen cause).erase K = s.erase K := by
  simp at h; simp [portEvent, h]

@[simp] theorem ringFail_frame (h : [.out, .regs, .rs, .host, .opt].all K = true) (s r)  :
    (ringFail s r).erase K = s.erase K := by
  simp at h; simp [ringFail, h]

@[simp] theorem ringRetry_frame (h : [.out, .regs, .rs, .host, .opt].all K = true) (s r)  :
    (ringRetry s r).erase K = s.erase K := by
  simp at h; simp [ringRetry, h]

@[simp] theorem doRingAcquireDone_frame (h : [.out, .regs, .rs, .host, .opt].all K = true) (r found s)  :
    (doRingAcquireDone r found s).erase K = s.erase K := by
  simp at h; unfold doRingAcquireDone; repeat' split
  all_goals simp [h]

@[simp] theorem mislock_frame (h : [.out, .regs, .rs, .host, .fab, .opt].all K = true) (s r seen)  :
    (mislock s r seen).erase K = s.erase K := by
  simp at h; simp [mislock, h]

@[simp] theorem doRingVerifyDone_frame (h : [.out, .regs, .rs, .host, .fab, .opt].all K = true) (r tone s)  :
    (doRingVerifyDone r tone s).erase K = s.erase K := by
  simp at h; unfold doRingVerifyDone; repeat' split
  all_goals simp [h]

@[simp] theorem doLockLost_frame (h : [.out, .regs, .rs, .host, .fab, .opt].all K = true) (r s)  :
    (doLockLost r s).erase K = s.erase K := by
  simp at h; simp [doLockLost, h]

@[simp] theorem doDitherWindow_frame (h : [.out, .regs, .rs, .host, .fab, .opt].all K = true) (r tone s)  :
    (doDitherWindow r tone s).erase K = s.erase K := by
  simp at h; unfold doDitherWindow; repeat' split
  all_goals simp [h]

@[simp] theorem hopNow_frame (h : [.out, .regs, .rs, .host, .fab, .opt].all K = true) (s r)  :
    (hopNow s r).erase K = s.erase K := by
  simp at h; simp [hopNow, h]

@[simp] theorem checkHeater_frame (h : [.out, .regs, .rs, .host, .fab, .opt].all K = true) (s r)  :
    (checkHeater s r).erase K = s.erase K := by
  simp at h; simp [checkHeater, h]

@[simp] theorem doRingFeedforward_frame (h : [.out, .regs, .rs, .host, .fab, .opt].all K = true) (port fib rx temp s)  :
    (doRingFeedforward port fib rx temp s).erase K = s.erase K := by
  simp at h; simp [doRingFeedforward, h]

@[simp] theorem doRestPrepare_frame (h : [.clk, .tb, .regs, .dies, .fab, .tbs].all K = true) (ch s)  :
    (doRestPrepare ch s).erase K = s.erase K := by
  simp at h; simp [doRestPrepare, h]

@[simp] theorem enterRest_frame (h : [.out, .regs, .rs, .host, .fab, .opt].all K = true) (s ch)  :
    (enterRest s ch).erase K = s.erase K := by
  simp at h; simp [enterRest, h]

@[simp] theorem endSkip_frame (h : [.fab, .opt].all K = true) (s ch)  :
    (endSkip s ch).erase K = s.erase K := by
  simp at h; simp [endSkip, h]

@[simp] theorem doRestSlot_frame (h : [.clk, .tb, .out, .regs, .rs, .host, .dies, .fab, .opt, .tbs].all K = true) (port s)  :
    (doRestSlot port s).erase K = s.erase K := by
  simp at h; simp [doRestSlot, h]

@[simp] theorem doRestCalDone_frame (h : [.out, .regs, .rs, .host, .fab, .opt, .flash].all K = true) (ch vals s)  :
    (doRestCalDone ch vals s).erase K = s.erase K := by
  simp at h; unfold doRestCalDone; repeat' split
  all_goals simp [h]

@[simp] theorem doCalSkip_frame (h : [.clk, .tb, .regs, .dies, .opt, .tbs].all K = true) (ch s)  :
    (doCalSkip ch s).erase K = s.erase K := by
  simp at h; simp [doCalSkip, h]

@[simp] theorem doLinkControlWord_frame (h : [.out, .regs, .rs, .host, .fab, .opt].all K = true) (w _ch s)  :
    (doLinkControlWord w _ch s).erase K = s.erase K := by
  simp at h; simp [doLinkControlWord, h]

@[simp] theorem setDark_frame (h : [.opt].all K = true) (s port fib v)  :
    (setDark s port fib v).erase K = s.erase K := by
  simp at h; simp [setDark, h]

@[simp] theorem doShutterClose_frame (h : [.out, .regs, .rs, .host, .fab, .opt].all K = true) (port fib s)  :
    (doShutterClose port fib s).erase K = s.erase K := by
  simp at h; simp [doShutterClose, h]

@[simp] theorem doShutterProbe_frame (h : [.clk, .tb, .regs, .dies, .opt, .tbs].all K = true) (port fib s)  :
    (doShutterProbe port fib s).erase K = s.erase K := by
  simp at h; simp [doShutterProbe, h]

@[simp] theorem doShutterOpen_frame (h : [.out, .regs, .rs, .host, .fab, .opt].all K = true) (port fib s)  :
    (doShutterOpen port fib s).erase K = s.erase K := by
  simp at h; simp [doShutterOpen, h]

@[simp] theorem loseFeed_frame (h : [.out, .regs, .rs, .host, .fab, .opt].all K = true) (s j)  :
    (loseFeed s j).erase K = s.erase K := by
  simp at h; unfold loseFeed
  dsimp only
  split
  · rfl
  · rw [portEvent_frame (by simp [h]), rsEvent_frame (by simp [h]), withChans_frame (by simp [h])]
    intro s
    refine (State.erase_foldl _ _ _ fun s r => ?_).trans (by simp [h])
    simp [h]

@[simp] theorem loseAllFeeds_frame (h : [.out, .regs, .rs, .host, .fab, .opt].all K = true) (s)  :
    (loseAllFeeds s).erase K = s.erase K := by
  simp at h; simp [loseAllFeeds, h]

@[simp] theorem doFeedLoss_frame (h : [.out, .regs, .rs, .host, .fab, .opt].all K = true) (j s)  :
    (doFeedLoss j s).erase K = s.erase K := by
  simp at h; simp [doFeedLoss, h]

@[simp] theorem doFeedReturn_frame (h : [.opt].all K = true) (j s)  :
    (doFeedReturn j s).erase K = s.erase K := by
  simp at h; simp [doFeedReturn, h]

@[simp] theorem readStatus_frame (h : [.out, .regs, .rs, .host, .fab, .opt].all K = true) (st s)  :
    (readStatus st s).erase K = s.erase K := by
  simp at h; unfold readStatus; repeat' split
  all_goals simp [h]

@[simp] theorem pollStatus_frame (h : [.out, .regs, .rs, .host, .fab, .opt].all K = true) (st s)  :
    (pollStatus st s).erase K = s.erase K := by
  simp at h; simp [pollStatus, h]

@[simp] theorem doLsIbi_frame (h : [.out, .regs, .rs, .host, .fab, .opt].all K = true) (st s)  :
    (doLsIbi st s).erase K = s.erase K := by
  simp at h; simp [doLsIbi, h]

@[simp] theorem doLsStatusPoll_frame (h : [.out, .regs, .rs, .host, .fab, .opt].all K = true) (st s)  :
    (doLsStatusPoll st s).erase K = s.erase K := by
  simp at h; simp [doLsStatusPoll, h]

@[simp] theorem doLsFault_frame (h : [.out, .regs, .rs, .host, .fab, .opt].all K = true) (st feedFault s)  :
    (doLsFault st feedFault s).erase K = s.erase K := by
  simp at h; simp [doLsFault, h]

@[simp] theorem countFec_frame (h : [.opt].all K = true) (s ch unc corr)  :
    (countFec s ch unc corr).erase K = s.erase K := by
  simp at h; simp [countFec, h]

@[simp] theorem deliver_frame (h : [.out, .regs, .rs, .host, .sync, .dies, .gang, .step, .maq, .img, .upd, .mem, .fab, .coll, .flash, .start, .sec].all K = true) (s ch p)  :
    (deliver s ch p).erase K = s.erase K := by
  simp at h; unfold deliver; split <;> simp [h]

@[simp] theorem nakPackets_frame (h : [.out].all K = true) (s ch ps)  :
    (nakPackets s ch ps).erase K = s.erase K := by
  simp at h; simp [nakPackets, h]

@[simp] theorem rxRest_frame (h : [.free, .out, .regs, .rs, .host, .opt].all K = true) (s ch)  :
    (rxRest s ch).erase K = s.erase K := by
  simp at h; simp [rxRest, h]

@[simp] theorem doCodewordReceive_frame (h : [.free, .out, .regs, .rs, .host, .sync, .dies, .gang, .step, .maq, .img, .upd, .mem, .fab, .coll, .opt, .flash, .start, .sec].all K = true) (ch hdr symbols bad pkts lcw s)  :
    (doCodewordReceive ch hdr symbols bad pkts lcw s).erase K = s.erase K := by
  simp at h; unfold doCodewordReceive; repeat' split
  all_goals simp [h]

end Sys2Proof.Machine
end

