-- ==== Sys2Proof/Laws/FrameDieLinks.lean ====
section
/-! SUPPORT. Laws/FrameDieLinks.lean: which components of the state each operation of Machine/DieLinks.lean can change. -/
namespace Sys2Proof.Machine
open Sys2Proof

variable {K : Comp → Bool}

@[simp] theorem resetCore_frame (h : [.out, .regs, .rs, .host, .sync, .dies, .gang, .step, .img, .upd, .fab, .coll].all K = true) (s d)  :
    (resetCore s d).erase K = s.erase K := by
  simp at h; simp [resetCore, h]

@[simp] theorem dieOut_frame (h : [.out, .regs, .rs, .host, .sync, .dies, .gang, .step, .img, .upd, .fab, .coll].all K = true) (s d)  :
    (dieOut s d).erase K = s.erase K := by
  simp at h; simp [dieOut, h]

@[simp] theorem doCoreReset_frame (h : [.out, .regs, .rs, .host, .sync, .dies, .gang, .step, .img, .upd, .fab, .coll].all K = true) (d s)  :
    (doCoreReset d s).erase K = s.erase K := by
  simp at h; simp [doCoreReset, h]

@[simp] theorem updGrp_frame (h : [.dl].all K = true) (s g f)  :
    (updGrp s g f).erase K = s.erase K := by
  simp at h; simp [updGrp, h]

@[simp] theorem linkEvent_frame (h : [.out, .regs, .rs, .host].all K = true) (s bit g lane cause)  :
    (linkEvent s bit g lane cause).erase K = s.erase K := by
  simp at h; simp [linkEvent, h]

@[simp] theorem logLane_frame (h : [.flash].all K = true) (s g lane)  :
    (logLane s g lane).erase K = s.erase K := by
  simp at h; simp [logLane, h]

@[simp] theorem bundleLost_frame (h : [.out, .regs, .rs, .host, .sync, .dies, .gang, .step, .img, .upd, .fab, .coll].all K = true) (s g was before)  :
    (bundleLost s g was before).erase K = s.erase K := by
  simp at h; unfold bundleLost; dsimp only; repeat' split
  all_goals simp [h]

@[simp] theorem setLanes_frame (h : [.out, .regs, .rs, .host, .sync, .dies, .gang, .step, .img, .upd, .fab, .coll, .dl].all K = true) (s g ls lane cause)  :
    (setLanes s g ls lane cause).erase K = s.erase K := by
  simp at h; simp [setLanes, h]

@[simp] theorem groupOut_frame (h : [.out, .regs, .rs, .host, .sync, .dies, .gang, .step, .img, .upd, .fab, .coll, .dl].all K = true) (s g lane cause)  :
    (groupOut s g lane cause).erase K = s.erase K := by
  simp at h; simp [groupOut, h]

@[simp] theorem beginRetrain_frame (h : [.out, .regs, .rs, .host, .sync, .dies, .gang, .step, .img, .upd, .fab, .coll, .dl].all K = true) (s g lane cause)  :
    (beginRetrain s g lane cause).erase K = s.erase K := by
  simp at h; simp [beginRetrain, h]

@[simp] theorem replayFlits_frame (h : [.out, .regs, .rs, .host, .sync, .dies, .gang, .step, .img, .upd, .fab, .coll, .dl].all K = true) (s g)  :
    (replayFlits s g).erase K = s.erase K := by
  simp at h; simp [replayFlits, h]

@[simp] theorem ackFlits_frame (h : [.dl].all K = true) (s g ack)  :
    (ackFlits s g ack).erase K = s.erase K := by
  simp at h; simp [ackFlits, h]

@[simp] theorem doFlitNak_frame (h : [.out, .regs, .rs, .host, .sync, .dies, .gang, .step, .img, .upd, .fab, .coll, .dl].all K = true) (g s)  :
    (doFlitNak g s).erase K = s.erase K := by
  simp at h; simp [doFlitNak, h]

@[simp] theorem doFlitReceive_frame (h : [.out, .regs, .rs, .host, .sync, .dies, .gang, .step, .img, .upd, .fab, .coll, .dl].all K = true) (g check data s)  :
    (doFlitReceive g check data s).erase K = s.erase K := by
  simp at h; simp [doFlitReceive, h]

@[simp] theorem endRecal_frame (h : [.dl].all K = true) (s g)  :
    (endRecal s g).erase K = s.erase K := by
  simp at h; simp [endRecal, h]

@[simp] theorem noSpareLeft_frame (h : [.out, .regs, .rs, .host, .sync, .dies, .gang, .step, .img, .upd, .fab, .coll, .dl, .flash].all K = true) (s g lane cause)  :
    (noSpareLeft s g lane cause).erase K = s.erase K := by
  simp at h; simp [noSpareLeft, h]

@[simp] theorem doLaneSteer_frame (h : [.out, .regs, .rs, .host, .sync, .dies, .gang, .step, .img, .upd, .fab, .coll, .dl, .flash].all K = true) (g lane s)  :
    (doLaneSteer g lane s).erase K = s.erase K := by
  simp at h; unfold doLaneSteer; dsimp only; repeat' split
  all_goals simp [h]

@[simp] theorem doLaneRetrain_frame (h : [.out, .regs, .rs, .host, .sync, .dies, .gang, .step, .img, .upd, .fab, .coll, .dl].all K = true) (g s)  :
    (doLaneRetrain g s).erase K = s.erase K := by
  simp at h; simp [doLaneRetrain, h]

@[simp] theorem doLaneFailing_frame (h : [.out, .regs, .rs, .host, .sync, .dies, .gang, .step, .img, .upd, .fab, .coll, .dl, .flash].all K = true) (g lane margin s)  :
    (doLaneFailing g lane margin s).erase K = s.erase K := by
  simp at h; unfold doLaneFailing; dsimp only; repeat' split
  all_goals simp [h]

@[simp] theorem doRetrainDone_frame (h : [.out, .regs, .rs, .host, .sync, .dies, .gang, .step, .img, .upd, .fab, .coll, .dl, .flash].all K = true) (g good s)  :
    (doRetrainDone g good s).erase K = s.erase K := by
  simp at h; unfold doRetrainDone; dsimp only; repeat' split
  all_goals simp [h]

@[simp] theorem doLaneRecal_frame (h : [.out, .dl].all K = true) (g lane s)  :
    (doLaneRecal g lane s).erase K = s.erase K := by
  simp at h; unfold doLaneRecal; dsimp only; repeat' split
  all_goals simp [h]

@[simp] theorem doLaneRecalDone_frame (h : [.clk, .tb, .regs, .dies, .dl, .tbs].all K = true) (g s)  :
    (doLaneRecalDone g s).erase K = s.erase K := by
  simp at h; unfold doLaneRecalDone; split <;> simp [h]

end Sys2Proof.Machine
end

