-- ==== Sys2Proof/Laws/FrameResets.lean ====
section
/-! SUPPORT. Laws/FrameResets.lean: which components of the state each operation of Machine/Resets.lean can change. -/
namespace Sys2Proof.Machine
open Sys2Proof

variable {K : Comp → Bool}

@[simp] theorem pass_frame (h : [.start].all K = true) (s k)  :
    (pass s k).erase K = s.erase K := by
  simp at h; simp [pass, h]

@[simp] theorem endMgmtOnly_frame (h : [.out, .regs, .rs, .host, .sync, .dies, .step, .img, .upd, .start].all K = true) (s)  :
    (endMgmtOnly s).erase K = s.erase K := by
  simp at h; simp [endMgmtOnly, h]

@[simp] theorem clearAll_frame (h : [.tb, .out, .regs, .rs, .host, .sync, .dies, .gang, .step, .maq, .img, .upd, .mem, .fab, .coll, .plat, .opt, .dl, .start, .rcv, .pwr, .clocks, .tbs, .sec, .tel].all K = true) (s)  :
    (clearAll s).erase K = s.erase K := by
  simp at h; unfold clearAll
  dsimp only
  by_cases hb : s.opt.present = true
  · simp_all [State.erase, emit]
  · simp_all [State.erase]

@[simp] theorem setCause_frame (h : [.regs].all K = true) (s warm src)  :
    (setCause s warm src).erase K = s.erase K := by
  simp at h; simp [setCause, h]

@[simp] theorem coldReset_frame (h : [.tb, .out, .regs, .rs, .host, .sync, .dies, .gang, .step, .maq, .img, .upd, .mem, .fab, .coll, .plat, .opt, .dl, .start, .rcv, .pwr, .clocks, .tbs, .sec, .tel].all K = true) (s src)  :
    (coldReset s src).erase K = s.erase K := by
  simp at h; simp [coldReset, h]

@[simp] theorem warmReset_frame (h : [.tb, .out, .regs, .rs, .host, .sync, .dies, .gang, .step, .maq, .img, .upd, .mem, .fab, .coll, .plat, .opt, .dl, .start, .rcv, .pwr, .clocks, .tbs, .sec, .tel].all K = true) (s src keep)  :
    (warmReset s src keep).erase K = s.erase K := by
  simp at h; unfold warmReset
  dsimp only
  rw [setCause_frame (by simp [h]), pass_frame (by simp [h])]
  refine Eq.trans ?_ ((clearAll_frame (by simp [h]) (rampBreak s)).trans (rampBreak_frame (by simp [h]) s))
  generalize clearAll (rampBreak s) = t
  simp_all [State.erase]

@[simp] theorem modResetEffect_frame (h : [.tb, .out, .regs, .rs, .host, .sync, .dies, .gang, .step, .maq, .img, .upd, .mem, .fab, .coll, .plat, .opt, .dl, .start, .rcv, .pwr, .clocks, .tbs, .sec, .tel].all K = true) (m v s)  :
    (modResetEffect m v s).erase K = s.erase K := by
  simp at h; unfold modResetEffect; split <;> simp [h]

@[simp] theorem writeModReset_frame (h : [.tb, .out, .regs, .rs, .host, .sync, .dies, .gang, .step, .maq, .img, .upd, .mem, .fab, .coll, .plat, .opt, .dl, .start, .rcv, .pwr, .clocks, .tbs, .sec, .tel].all K = true) (m v s)  :
    (writeModReset m v s).erase K = s.erase K := by
  simp at h; simp [writeModReset, h]

@[simp] theorem doModResetWarm_frame (h : [.tb, .out, .regs, .rs, .host, .sync, .dies, .gang, .step, .maq, .img, .upd, .mem, .fab, .coll, .plat, .opt, .dl, .start, .rcv, .pwr, .clocks, .tbs, .sec, .tel].all K = true) (m v s)  :
    (doModResetWarm m v s).erase K = s.erase K := by
  simp at h; simp [doModResetWarm, h]

@[simp] theorem doModResetCold_frame (h : [.tb, .out, .regs, .rs, .host, .sync, .dies, .gang, .step, .maq, .img, .upd, .mem, .fab, .coll, .plat, .opt, .dl, .start, .rcv, .pwr, .clocks, .tbs, .sec, .tel].all K = true) (m v s)  :
    (doModResetCold m v s).erase K = s.erase K := by
  simp at h; simp [doModResetCold, h]

@[simp] theorem clearMsix_frame (h : [.regs, .host].all K = true) (s)  :
    (clearMsix s).erase K = s.erase K := by
  simp at h; simp [clearMsix, h]

@[simp] theorem doLinkReset_frame (h : [.out, .regs, .rs, .host, .sync, .dies, .step, .img, .upd].all K = true) (s)  :
    (doLinkReset s).erase K = s.erase K := by
  simp at h; simp [doLinkReset, h]

@[simp] theorem openSwap_frame (h : [.tb, .out, .regs, .rs, .host, .sync, .dies, .gang, .step, .maq, .img, .upd, .mem, .fab, .coll, .plat, .opt, .dl, .start, .rcv, .pwr, .clocks, .tbs, .sec, .tel].all K = true) (s)  :
    (openSwap s).erase K = s.erase K := by
  simp at h; simp [openSwap, h]

@[simp] theorem closeSwap_frame (h : [.tb, .out, .regs, .rs, .host, .sync, .dies, .gang, .step, .maq, .img, .upd, .mem, .fab, .coll, .plat, .opt, .dl, .start, .rcv, .pwr, .clocks, .tbs, .sec, .tel].all K = true) (s)  :
    (closeSwap s).erase K = s.erase K := by
  simp at h; simp [closeSwap, h]

@[simp] theorem doPowerApplied_frame (h : [.tb, .out, .regs, .rs, .host, .sync, .dies, .gang, .step, .maq, .img, .upd, .mem, .fab, .coll, .plat, .opt, .dl, .start, .rcv, .pwr, .clocks, .tbs, .sec, .tel].all K = true) (s)  :
    (doPowerApplied s).erase K = s.erase K := by
  simp at h; simp [doPowerApplied, h]

@[simp] theorem doHotswapClose_frame (h : [.tb, .out, .regs, .rs, .host, .sync, .dies, .gang, .step, .maq, .img, .upd, .mem, .fab, .coll, .plat, .opt, .dl, .start, .rcv, .pwr, .clocks, .tbs, .sec, .tel].all K = true) (s)  :
    (doHotswapClose s).erase K = s.erase K := by
  simp at h; simp [doHotswapClose, h]

@[simp] theorem doMatePinRise_frame (h : [.tb, .out, .regs, .rs, .host, .sync, .dies, .gang, .step, .maq, .img, .upd, .mem, .fab, .coll, .plat, .opt, .dl, .start, .rcv, .pwr, .clocks, .tbs, .sec, .tel].all K = true) (pin s)  :
    (doMatePinRise pin s).erase K = s.erase K := by
  simp at h; simp [doMatePinRise, h]

@[simp] theorem latchOpen_frame (h : [.tb, .out, .regs, .rs, .host, .sync, .dies, .gang, .step, .maq, .img, .upd, .mem, .fab, .coll, .plat, .opt, .dl, .start, .rcv, .pwr, .clocks, .tbs, .sec, .tel].all K = true) (s)  :
    (latchOpen s).erase K = s.erase K := by
  simp at h; simp [latchOpen, h]

@[simp] theorem doHvUndervoltage_frame (h : [.tb, .out, .regs, .rs, .host, .sync, .dies, .gang, .step, .maq, .img, .upd, .mem, .fab, .coll, .plat, .opt, .dl, .start, .rcv, .pwr, .clocks, .tbs, .sec, .tel].all K = true) (s)  :
    (doHvUndervoltage s).erase K = s.erase K := by
  simp at h; simp [doHvUndervoltage, h]

@[simp] theorem doHvOvervoltage_frame (h : [.tb, .out, .regs, .rs, .host, .sync, .dies, .gang, .step, .maq, .img, .upd, .mem, .fab, .coll, .plat, .opt, .dl, .start, .rcv, .pwr, .clocks, .tbs, .sec, .tel].all K = true) (s)  :
    (doHvOvervoltage s).erase K = s.erase K := by
  simp at h; simp [doHvOvervoltage, h]

@[simp] theorem doHvOvercurrent_frame (h : [.tb, .out, .regs, .rs, .host, .sync, .dies, .gang, .step, .maq, .img, .upd, .mem, .fab, .coll, .plat, .opt, .dl, .start, .rcv, .pwr, .clocks, .tbs, .sec, .tel].all K = true) (s)  :
    (doHvOvercurrent s).erase K = s.erase K := by
  simp at h; simp [doHvOvercurrent, h]

@[simp] theorem doHvOvertemp_frame (h : [.tb, .out, .regs, .rs, .host, .sync, .dies, .gang, .step, .maq, .img, .upd, .mem, .fab, .coll, .plat, .opt, .dl, .start, .rcv, .pwr, .clocks, .tbs, .sec, .tel].all K = true) (s)  :
    (doHvOvertemp s).erase K = s.erase K := by
  simp at h; simp [doHvOvertemp, h]

@[simp] theorem doShutdown_frame (h : [.tb, .out, .regs, .rs, .host, .sync, .dies, .gang, .step, .maq, .img, .upd, .mem, .fab, .coll, .plat, .opt, .dl, .start, .rcv, .pwr, .clocks, .tbs, .sec, .tel].all K = true) (s)  :
    (doShutdown s).erase K = s.erase K := by
  simp at h; simp [doShutdown, h]

@[simp] theorem doThermalTrip_frame (h : [.tb, .out, .regs, .rs, .host, .sync, .dies, .gang, .step, .maq, .img, .upd, .mem, .fab, .coll, .plat, .opt, .dl, .start, .rcv, .pwr, .clocks, .tbs, .sec, .tel].all K = true) (s)  :
    (doThermalTrip s).erase K = s.erase K := by
  simp at h; simp [doThermalTrip, h]

end Sys2Proof.Machine
end

