-- ==== Sys2Proof/Laws/FrameClocks.lean ====
section
/-! SUPPORT. Laws/FrameClocks.lean: which components of the state each operation of Machine/Clocks.lean can change. -/
namespace Sys2Proof.Machine
open Sys2Proof

variable {K : Comp → Bool}

@[simp] theorem clkEvent_frame (h : [.out, .rs, .host].all K = true) (s bit)  :
    (clkEvent s bit).erase K = s.erase K := by
  simp at h; simp [clkEvent, h]

@[simp] theorem msdStop_frame (h : [.step, .img].all K = true) (s)  :
    (msdStop s).erase K = s.erase K := by
  simp at h; simp [msdStop, h]

@[simp] theorem updClk_frame (h : [.clocks].all K = true) (s d f)  :
    (updClk s d f).erase K = s.erase K := by
  simp at h; simp [updClk, h]

@[simp] theorem doDvfsChange_frame (h : [.clocks].all K = true) (d s)  :
    (doDvfsChange d s).erase K = s.erase K := by
  simp at h; simp [doDvfsChange, h]

@[simp] theorem updMux_frame (h : [.clocks].all K = true) (s k f)  :
    (updMux s k f).erase K = s.erase K := by
  simp at h; simp [updMux, h]

@[simp] theorem doXtalStable_frame (h : [.clocks].all K = true) (s)  :
    (doXtalStable s).erase K = s.erase K := by
  simp at h; simp [doXtalStable, h]

@[simp] theorem doXtalTimeout_frame (h : [.clk, .tb, .out, .regs, .rs, .host, .sync, .dies, .step, .img, .upd, .start, .tbs].all K = true) (s)  :
    (doXtalTimeout s).erase K = s.erase K := by
  simp at h; simp [doXtalTimeout, h]

@[simp] theorem doXtalFail_frame (h : [.out, .rs, .host, .step, .img, .clocks].all K = true) (s)  :
    (doXtalFail s).erase K = s.erase K := by
  simp at h; simp [doXtalFail, h]

@[simp] theorem doXtalFailReset_frame (h : [.clk, .tb, .out, .regs, .rs, .host, .sync, .dies, .gang, .step, .maq, .img, .upd, .mem, .fab, .coll, .plat, .opt, .dl, .start, .rcv, .pwr, .clocks, .tbs, .sec, .tel].all K = true) (s)  :
    (doXtalFailReset s).erase K = s.erase K := by
  simp at h; unfold doXtalFailReset; split <;> simp [h]

@[simp] theorem doMuxSwitch_frame (h : [.clocks].all K = true) (dom src s)  :
    (doMuxSwitch dom src s).erase K = s.erase K := by
  simp at h; simp [doMuxSwitch, h]

@[simp] theorem muxInfo_frame (h : [.regs].all K = true) (s dom dead)  :
    (muxInfo s dom dead).erase K = s.erase K := by
  simp at h; simp [muxInfo, h]

@[simp] theorem doMuxForced_frame (h : [.clk, .tb, .out, .regs, .rs, .host, .dies, .clocks, .tbs].all K = true) (dom s)  :
    (doMuxForced dom s).erase K = s.erase K := by
  simp at h; unfold doMuxForced; split <;> simp [h]

@[simp] theorem doMuxDead_frame (h : [.clk, .tb, .out, .regs, .rs, .host, .sync, .dies, .gang, .step, .maq, .img, .upd, .mem, .fab, .coll, .plat, .opt, .dl, .start, .rcv, .pwr, .clocks, .tbs, .sec, .tel].all K = true) (dom s)  :
    (doMuxDead dom s).erase K = s.erase K := by
  simp at h; unfold doMuxDead; repeat' split
  all_goals simp [h]

@[simp] theorem doHeartbeatMiss_frame (h : [.tb, .out, .regs, .rs, .host, .sync, .dies, .gang, .step, .maq, .img, .upd, .mem, .fab, .coll, .plat, .opt, .dl, .start, .rcv, .pwr, .clocks, .tbs, .sec, .tel].all K = true) (s)  :
    (doHeartbeatMiss s).erase K = s.erase K := by
  simp at h; simp [doHeartbeatMiss, h]

@[simp] theorem setTherm_frame (h : [.out, .rs, .host, .clocks].all K = true) (s d l)  :
    (setTherm s d l).erase K = s.erase K := by
  simp at h; simp [setTherm, h]

@[simp] theorem tripDie_frame (h : [.out, .regs, .rs, .host, .sync, .dies, .gang, .step, .img, .upd, .fab, .coll, .clocks].all K = true) (s d cause)  :
    (tripDie s d cause).erase K = s.erase K := by
  simp at h; simp [tripDie, h]

@[simp] theorem doCdTempRead_frame (h : [.out, .regs, .rs, .host, .sync, .dies, .gang, .step, .img, .upd, .fab, .coll, .clocks].all K = true) (d temp s)  :
    (doCdTempRead d temp s).erase K = s.erase K := by
  simp at h; unfold doCdTempRead; repeat' split
  all_goals simp [h]

@[simp] theorem doStretchLimitDown_frame (h : [.clk, .tb, .out, .regs, .rs, .host, .dies, .clocks, .tbs].all K = true) (d s)  :
    (doStretchLimitDown d s).erase K = s.erase K := by
  simp at h; unfold doStretchLimitDown; split <;> simp [h]

@[simp] theorem doCoolLimitUp_frame (h : [.clk, .tb, .regs, .dies, .clocks, .tbs].all K = true) (d s)  :
    (doCoolLimitUp d s).erase K = s.erase K := by
  simp at h; unfold doCoolLimitUp; split <;> simp [h]

@[simp] theorem doCdSensorTimeout_frame (h : [.clk, .tb, .out, .regs, .rs, .host, .sync, .dies, .gang, .step, .img, .upd, .fab, .coll, .clocks, .tbs].all K = true) (d s)  :
    (doCdSensorTimeout d s).erase K = s.erase K := by
  simp at h; simp [doCdSensorTimeout, h]

@[simp] theorem doOtherDieTempRead_frame (h : [.out, .rs, .host, .step, .img, .clocks].all K = true) (which temp s)  :
    (doOtherDieTempRead which temp s).erase K = s.erase K := by
  simp at h; unfold doOtherDieTempRead; split <;> simp [h]

@[simp] theorem updTb_frame (h : [.tbs].all K = true) (s f)  :
    (updTb s f).erase K = s.erase K := by
  simp at h; simp [updTb, h]

@[simp] theorem doRackclkCheck_frame (h : [.out, .rs, .host, .tbs].all K = true) (ppm s)  :
    (doRackclkCheck ppm s).erase K = s.erase K := by
  simp at h; simp [doRackclkCheck, h]

@[simp] theorem stepTb_frame (h : [.tb, .out, .rs, .host, .tbs].all K = true) (s n)  :
    (stepTb s n).erase K = s.erase K := by
  simp at h; simp [stepTb, h]

@[simp] theorem stepUpper_frame (h : [.tb, .out, .rs, .host, .tbs].all K = true) (s n)  :
    (stepUpper s n).erase K = s.erase K := by
  simp at h; simp [stepUpper, h]

@[simp] theorem applyFrame_frame (h : [.tb, .out, .rs, .host, .tbs].all K = true) (s)  :
    (applyFrame s).erase K = s.erase K := by
  simp at h; unfold applyFrame; split <;> simp [h]

@[simp] theorem doRacksyncEdge_frame (h : [.tb, .out, .rs, .host, .tbs].all K = true) (s)  :
    (doRacksyncEdge s).erase K = s.erase K := by
  simp at h; unfold doRacksyncEdge; dsimp only; repeat' split
  all_goals simp [h]

@[simp] theorem doRacksyncFrame_frame (h : [.out, .rs, .host, .tbs].all K = true) (bits s)  :
    (doRacksyncFrame bits s).erase K = s.erase K := by
  simp at h; simp [doRacksyncFrame, h]

@[simp] theorem doTbHoldover_frame (h : [.clk, .tb, .out, .regs, .rs, .host, .dies, .tbs].all K = true) (s)  :
    (doTbHoldover s).erase K = s.erase K := by
  simp at h; unfold doTbHoldover; split <;> simp [h]

end Sys2Proof.Machine
end

