-- ==== Sys2Proof/Laws/FramePower.lean ====
section
/-! SUPPORT. Laws/FramePower.lean: which components of the state each operation of Machine/Power.lean can change. -/
namespace Sys2Proof.Machine
open Sys2Proof

variable {K : Comp → Bool}

@[simp] theorem pwrEvent_frame (h : [.out, .rs, .host].all K = true) (s bit)  :
    (pwrEvent s bit).erase K = s.erase K := by
  simp at h; simp [pwrEvent, h]

@[simp] theorem updPwr_frame (h : [.pwr].all K = true) (s f)  :
    (updPwr s f).erase K = s.erase K := by
  simp at h; simp [updPwr, h]

@[simp] theorem pwrFlag_frame (h : [.regs].all K = true) (s bit v)  :
    (pwrFlag s bit v).erase K = s.erase K := by
  simp at h; simp [pwrFlag, h]

@[simp] theorem setLevel_frame (h : [.regs, .pwr].all K = true) (s l)  :
    (setLevel s l).erase K = s.erase K := by
  simp at h; simp [setLevel, h]

@[simp] theorem linkFails_frame (h : [.out, .regs, .rs, .host, .pwr].all K = true) (s b)  :
    (linkFails s b).erase K = s.erase K := by
  simp at h; simp [linkFails, h]

@[simp] theorem takePower_frame (h : [.regs, .pwr].all K = true) (s p)  :
    (takePower s p).erase K = s.erase K := by
  simp at h; simp [takePower, h]

@[simp] theorem doHvFrame_frame (h : [.out, .regs, .rs, .host, .pwr].all K = true) (link frame s)  :
    (doHvFrame link frame s).erase K = s.erase K := by
  simp at h; simp [doHvFrame, h]

@[simp] theorem doAckSeq_frame (h : [.out, .pwr].all K = true) (s)  :
    (doAckSeq s).erase K = s.erase K := by
  simp at h; unfold doAckSeq; split <;> simp [h]

@[simp] theorem doHvLinkSilent_frame (h : [.clk, .tb, .out, .regs, .rs, .host, .dies, .pwr, .tbs].all K = true) (link s)  :
    (doHvLinkSilent link s).erase K = s.erase K := by
  simp at h; simp [doHvLinkSilent, h]

@[simp] theorem doHvLinkLost_frame (h : [.clk, .tb, .out, .regs, .rs, .host, .dies, .pwr, .tbs].all K = true) (s)  :
    (doHvLinkLost s).erase K = s.erase K := by
  simp at h; simp [doHvLinkLost, h]

@[simp] theorem doHvLinkStop_frame (h : [.clk, .tb, .regs, .dies, .step, .img, .pwr, .tbs].all K = true) (s)  :
    (doHvLinkStop s).erase K = s.erase K := by
  simp at h; simp [doHvLinkStop, h]

@[simp] theorem onRise_frame (h : [.out, .rs, .host].all K = true) (s was now bit)  :
    (onRise s was now bit).erase K = s.erase K := by
  simp at h; simp [onRise, h]

@[simp] theorem doPowerShapeTick_frame (h : [.clk, .tb, .free, .out, .regs, .rs, .host, .dies, .pwr, .tbs].all K = true) (s)  :
    (doPowerShapeTick s).erase K = s.erase K := by
  simp at h; simp [doPowerShapeTick, h]

@[simp] theorem doLimitDvfsDown_frame (h : [.clk, .tb, .out, .regs, .rs, .host, .dies, .pwr, .tbs].all K = true) (s)  :
    (doLimitDvfsDown s).erase K = s.erase K := by
  simp at h; unfold doLimitDvfsDown; split <;> simp [h]

@[simp] theorem doLimitDvfsUp_frame (h : [.clk, .tb, .regs, .dies, .pwr, .tbs].all K = true) (s)  :
    (doLimitDvfsUp s).erase K = s.erase K := by
  simp at h; unfold doLimitDvfsUp; split <;> simp [h]

end Sys2Proof.Machine
end

