-- ==== Sys2Proof/Laws/FrameStart.lean ====
section
/-! SUPPORT. Laws/FrameStart.lean: which components of the state each operation of Machine/Start.lean can change. -/
namespace Sys2Proof.Machine
open Sys2Proof

variable {K : Comp → Bool}

@[simp] theorem startEvent_frame (h : [.out, .rs, .host].all K = true) (s bit)  :
    (startEvent s bit).erase K = s.erase K := by
  simp at h; simp [startEvent, h]

@[simp] theorem doStartRom_frame (h : [.out, .rs, .host, .start].all K = true) (aOk bOk s)  :
    (doStartRom aOk bOk s).erase K = s.erase K := by
  simp at h; simp [doStartRom, h]

@[simp] theorem doStartPlatform_frame (h : [.out, .regs, .rs, .host, .sync, .dies, .step, .img, .upd, .plat, .start].all K = true) (a b s)  :
    (doStartPlatform a b s).erase K = s.erase K := by
  simp at h; unfold doStartPlatform; dsimp only; repeat' split
  all_goals simp [h]

@[simp] theorem loadClockRegs_frame (h : [.regs].all K = true) (s p)  :
    (loadClockRegs s p).erase K = s.erase K := by
  simp at h; simp [loadClockRegs, h]

@[simp] theorem runDomains_frame (h : [.clocks].all K = true) (s)  :
    (runDomains s).erase K = s.erase K := by
  simp at h; simp [runDomains, h]

@[simp] theorem doStartClocks_frame (h : [.regs, .start, .clocks].all K = true) (rack1 slot1 rack2 slot2 s)  :
    (doStartClocks rack1 slot1 rack2 slot2 s).erase K = s.erase K := by
  simp at h; unfold doStartClocks; repeat' split
  all_goals simp [h]

@[simp] theorem doStartIdentity_frame (h : [.out, .regs, .rs, .host, .sync, .dies, .step, .img, .upd, .dl, .start].all K = true) (records s)  :
    (doStartIdentity records s).erase K = s.erase K := by
  simp at h; unfold doStartIdentity; dsimp only; repeat' split
  all_goals simp [h]

@[simp] theorem doStartDieLinks_frame (h : [.out, .regs, .rs, .host, .dies, .dl, .flash, .start].all K = true) (failed s)  :
    (doStartDieLinks failed s).erase K = s.erase K := by
  simp at h; unfold doStartDieLinks
  dsimp only
  split
  · rfl
  · rw [pass_frame (by simp [h])]
    refine (State.erase_foldl _ _ _ fun s b => State.erase_foldl _ _ _ fun s d => ?_).trans
      ((State.erase_foldl _ _ _ fun s x => ?_).trans (by simp [h]))
    · repeat' split
      all_goals simp [h]
    · split <;> simp [h]

@[simp] theorem doStartMemory_frame (h : [.out, .regs, .rs, .host, .dies, .mem, .flash, .start].all K = true) (points selfRefresh bad s)  :
    (doStartMemory points selfRefresh bad s).erase K = s.erase K := by
  simp at h; unfold doStartMemory; repeat' split
  all_goals simp [h]

@[simp] theorem noteTest_frame (h : [.regs, .flash].all K = true) (s test ok cd)  :
    (noteTest s test ok cd).erase K = s.erase K := by
  simp at h; simp [noteTest, h]

@[simp] theorem holdOut_frame (h : [.dies].all K = true) (s m)  :
    (holdOut s m).erase K = s.erase K := by
  simp at h; simp [holdOut, h]

@[simp] theorem doStartSelftest_frame (h : [.out, .regs, .rs, .host, .dies, .flash, .start].all K = true) (failing s)  :
    (doStartSelftest failing s).erase K = s.erase K := by
  simp at h; simp [doStartSelftest, h]

@[simp] theorem loadFabric_frame (h : [.fab].all K = true) (s p)  :
    (loadFabric s p).erase K = s.erase K := by
  simp at h; simp [loadFabric, h]

@[simp] theorem parkAll_frame (h : [.free, .opt].all K = true) (s)  :
    (parkAll s).erase K = s.erase K := by
  simp at h; simp [parkAll, h]

@[simp] theorem acquireAll_frame (h : [.out, .regs, .rs, .host, .opt].all K = true) (s failed)  :
    (acquireAll s failed).erase K = s.erase K := by
  simp at h; simp [acquireAll, h]

@[simp] theorem takeFeeds_frame (h : [.out, .regs, .rs, .host, .opt].all K = true) (s feeds)  :
    (takeFeeds s feeds).erase K = s.erase K := by
  simp at h; simp [takeFeeds, h]

@[simp] theorem openAll_frame (h : [.out, .regs, .rs, .host, .fab, .opt].all K = true) (s)  :
    (openAll s).erase K = s.erase K := by
  simp at h; simp [openAll, h]

@[simp] theorem darkOptics_frame (h : [.out, .rs, .host].all K = true) (s)  :
    (darkOptics s).erase K = s.erase K := by
  simp at h; simp [darkOptics, h]

@[simp] theorem doStartOptics_frame (h : [.free, .out, .regs, .rs, .host, .fab, .opt, .start].all K = true) (lsStatus feeds failed s)  :
    (doStartOptics lsStatus feeds failed s).erase K = s.erase K := by
  simp at h; unfold doStartOptics; repeat' split
  all_goals simp [h]

@[simp] theorem doStartReplay_frame (h : [.out, .regs, .rs, .host, .sync, .dies, .step, .img, .upd, .start].all K = true) (imageOk s)  :
    (doStartReplay imageOk s).erase K = s.erase K := by
  simp at h; unfold doStartReplay; dsimp only; repeat' split
  all_goals simp [h]

@[simp] theorem doStartReady_frame (h : [.out, .regs, .rs, .host, .sync, .dies, .step, .img, .upd, .flash, .start, .pwr, .tel].all K = true) (s)  :
    (doStartReady s).erase K = s.erase K := by
  simp at h; simp [doStartReady, h]

end Sys2Proof.Machine
end

