-- ==== Sys2Proof/Laws/FrameImage.lean ====
section
/-! SUPPORT. Laws/FrameImage.lean: which components of the state each operation of Machine/Image.lean can change. -/
namespace Sys2Proof.Machine
open Sys2Proof

variable {K : Comp → Bool}

@[simp] theorem imgEvent_frame (h : [.out, .rs, .host].all K = true) (s bit)  :
    (imgEvent s bit).erase K = s.erase K := by
  simp at h; simp [imgEvent, h]

@[simp] theorem doActivation_frame (h : [.out, .rs, .host, .sync, .dies, .img].all K = true) (s)  :
    (doActivation s).erase K = s.erase K := by
  simp at h; simp [doActivation, h]

@[simp] theorem noImage_frame (h : [.img].all K = true) (s refuse stop)  :
    (noImage s refuse stop).erase K = s.erase K := by
  simp at h; simp [noImage, h]

@[simp] theorem refuseImage_frame (h : [.out, .regs, .rs, .host, .sync, .dies, .step, .img, .upd, .sec].all K = true) (s code)  :
    (refuseImage s code).erase K = s.erase K := by
  simp at h; simp [refuseImage, h]

@[simp] theorem clearSince_frame (h : [.regs].all K = true) (s)  :
    (clearSince s).erase K = s.erase K := by
  simp at h; simp [clearSince, h]

@[simp] theorem initObjs_frame (h : [.out, .regs, .rs, .host, .sync, .dies, .step, .img, .upd].all K = true) (s sec)  :
    (initObjs s sec).erase K = s.erase K := by
  simp at h; simp [initObjs, h]

@[simp] theorem loadDie_frame (h : [.regs, .dies].all K = true) (p att prog d s)  :
    (loadDie p att prog d s).erase K = s.erase K := by
  simp at h; simp [loadDie, h]

@[simp] theorem readMoves_frame (h : [.out, .regs, .rs, .host, .step, .img, .mem, .flash].all K = true) (y0 y1)  :
    (readMoves y0 y1).2.erase K = y1.erase K := by
  simp at h
  induction y0 generalizing y1 with
  | nil => rfl
  | cons m ms ih => obtain ⟨a, b, n⟩ := m; simp [readMoves, ih, h]

@[simp] theorem keepTiles_frame (h : [.out, .regs, .rs, .host, .step, .img, .mem, .flash].all K = true) (s p)  :
    (keepTiles s p).erase K = s.erase K := by
  simp at h; unfold keepTiles
  split
  · rfl
  · refine (State.erase_foldl _ _ _ fun s m => ?_).trans (by simp [h])
    split <;> simp [h]

@[simp] theorem setStores_frame (h : [.regs].all K = true) (s cs)  :
    (setStores s cs).erase K = s.erase K := by
  simp at h; unfold setStores
  refine State.erase_foldl _ _ _ fun s c => ?_
  split <;> simp [h]

@[simp] theorem loadImage_frame (h : [.out, .regs, .rs, .host, .sync, .dies, .gang, .step, .maq, .img, .upd, .mem, .fab, .coll, .flash].all K = true) (s sec)  :
    (loadImage s sec).erase K = s.erase K := by
  simp at h; simp [loadImage, h]

@[simp] theorem beginPrologue_frame (h : [.out, .regs, .rs, .host, .sync, .dies, .step, .img, .upd].all K = true) (s)  :
    (beginPrologue s).erase K = s.erase K := by
  simp at h; simp [beginPrologue, h]

@[simp] theorem doActivationVerifyDone_frame (h : [.out, .regs, .rs, .host, .sync, .dies, .gang, .step, .maq, .img, .upd, .mem, .fab, .coll, .flash, .sec].all K = true) (sec sigOk s)  :
    (doActivationVerifyDone sec sigOk s).erase K = s.erase K := by
  simp at h; simp [doActivationVerifyDone, h]

@[simp] theorem rehomeFail_frame (h : [.out, .regs, .rs, .host, .img].all K = true) (s d)  :
    (rehomeFail s d).erase K = s.erase K := by
  simp at h; simp [rehomeFail, h]

@[simp] theorem putRehomed_frame (h : [.out, .regs, .rs, .host, .step, .img, .mem, .flash].all K = true) (s l j cnt a e u)  :
    (putRehomed s l j cnt a e u).erase K = s.erase K := by
  simp at h; simp [putRehomed, h]

@[simp] theorem doRehomeTiles_frame (h : [.out, .regs, .rs, .host, .step, .img, .upd, .mem, .flash].all K = true) (desc tile srcStep data s)  :
    (doRehomeTiles desc tile srcStep data s).erase K = s.erase K := by
  simp at h; unfold doRehomeTiles; split <;> simp [h]

@[simp] theorem writeImgCtl_frame (h : [.step, .img].all K = true) (v s)  :
    (writeImgCtl v s).erase K = s.erase K := by
  simp at h; simp [writeImgCtl, h]

@[simp] theorem doModImgStop_frame (h : [.out, .step, .img].all K = true) (v s)  :
    (doModImgStop v s).erase K = s.erase K := by
  simp at h; simp [doModImgStop, h]

@[simp] theorem doImageStopped_frame (h : [.out, .regs, .rs, .host, .sync, .dies, .gang, .step, .maq, .img, .upd, .fab, .coll, .flash].all K = true) (s)  :
    (doImageStopped s).erase K = s.erase K := by
  simp at h; simp [doImageStopped, h]

end Sys2Proof.Machine
end

