-- ==== Sys2Proof/Laws/FrameMaquette.lean ====
section
/-! SUPPORT. Laws/FrameMaquette.lean: which components of the state each operation of Machine/Maquette.lean can change. -/
namespace Sys2Proof.Machine
open Sys2Proof

variable {K : Comp → Bool}

@[simp] theorem doMaquetteCopy_frame (h : [.maq].all K = true) (layer s)  :
    (doMaquetteCopy layer s).erase K = s.erase K := by
  simp at h; unfold doMaquetteCopy; repeat' split
  all_goals simp [h]

@[simp] theorem copyPiece_frame (h : [.out, .regs, .rs, .host, .step, .img, .mem, .flash].all K = true) (dst part s k)  :
    (copyPiece dst part s k).erase K = s.erase K := by
  simp at h; unfold copyPiece
  dsimp only; split
  · rfl
  · rename_i q; have e := memRead_frame (K := K) (by simp [h]) _ _ _ _ _ q; split <;> simp [h, e]

@[simp] theorem copyPart_frame (h : [.out, .regs, .rs, .host, .step, .img, .mem, .flash].all K = true) (acc part)  :
    (copyPart acc part).2.erase K = acc.2.erase K := by
  simp at h; simp [copyPart, h]

@[simp] theorem doMaquetteCopyDone_frame (h : [.out, .regs, .rs, .host, .step, .maq, .img, .mem, .fab, .flash].all K = true) (layer s)  :
    (doMaquetteCopyDone layer s).erase K = s.erase K := by
  simp at h; unfold doMaquetteCopyDone
  split
  · dsimp only
    rw [maqExport_frame (by simp [h]), State.erase_maq _ _ (by simp [h])]
    exact State.erase_foldl_pair _ _ _ fun a x => by simp [h]
  · rfl

@[simp] theorem doMaquetteSlotFree_frame (h : [.out, .regs, .rs, .host, .maq, .fab].all K = true) (slot s)  :
    (doMaquetteSlotFree slot s).erase K = s.erase K := by
  simp at h; unfold doMaquetteSlotFree; split <;> simp [h]

@[simp] theorem restartExport_frame (h : [.out, .regs, .rs, .host, .maq, .fab].all K = true) (s)  :
    (restartExport s).erase K = s.erase K := by
  simp at h; unfold restartExport; repeat' split
  all_goals simp [h]

end Sys2Proof.Machine
end

