-- ==== Sys2Proof/Laws/FrameRecovery.lean ====
section
/-! SUPPORT. Laws/FrameRecovery.lean: which components of the state each operation of Machine/Recovery.lean can change. -/
namespace Sys2Proof.Machine
open Sys2Proof

variable {K : Comp → Bool}

@[simp] theorem pollRead_frame (h : [.out, .regs, .rs, .host, .fab].all K = true) (s sec att rank)  :
    (pollRead s sec att rank).erase K = s.erase K := by
  simp at h; unfold pollRead
  dsimp only
  split
  · rfl
  · generalize hq : sendReq _ _ _ _ = r
    cases r with
    | none => rfl
    | some t => exact sendReq_frame (K := K) (by simp [h]) _ _ _ _ _ hq

@[simp] theorem doVerdictPoll_frame (h : [.clk, .tb, .out, .regs, .rs, .host, .dies, .step, .fab, .tbs].all K = true) (s)  :
    (doVerdictPoll s).erase K = s.erase K := by
  simp at h; unfold doVerdictPoll; dsimp only; repeat' split
  all_goals simp [h]

@[simp] theorem doResolveTimeout_frame (h : [.clk, .tb, .out, .regs, .rs, .host, .sync, .dies, .step, .img, .upd, .tbs].all K = true) (s)  :
    (doResolveTimeout s).erase K = s.erase K := by
  simp at h; unfold doResolveTimeout; split <;> simp [h]

@[simp] theorem rcvEnd_frame (h : [.out, .regs, .rs, .host, .sync, .dies, .step, .img, .upd, .rcv].all K = true) (s cause)  :
    (rcvEnd s cause).erase K = s.erase K := by
  simp at h; simp [rcvEnd, h]

@[simp] theorem rcvStart_frame (h : [.rcv].all K = true) (s cmd v)  :
    (rcvStart s cmd v).erase K = s.erase K := by
  simp at h; simp [rcvStart, h]

@[simp] theorem rcvFail_frame (h : [.out, .regs, .rs, .host, .sync, .dies, .step, .img, .upd, .rcv].all K = true) (s cmd v cause)  :
    (rcvFail s cmd v cause).erase K = s.erase K := by
  simp at h; simp [rcvFail, h]

@[simp] theorem under_frame (h : [.upd].all K = true) (s img)  :
    (under s img).erase K = s.erase K := by
  simp at h; simp [under, h]

@[simp] theorem rcvCopy_frame (h : [.out, .regs, .rs, .host, .sync, .dies, .step, .img, .upd, .rcv].all K = true) (s v)  :
    (rcvCopy s v).erase K = s.erase K := by
  simp at h; unfold rcvCopy; split <;> simp [h]

@[simp] theorem rcvRestore_frame (h : [.out, .regs, .rs, .host, .sync, .dies, .step, .img, .upd, .rcv].all K = true) (s v)  :
    (rcvRestore s v).erase K = s.erase K := by
  simp at h; unfold rcvRestore; split <;> simp [h]

@[simp] theorem resetTile_frame (h : [.out, .regs, .rs, .host, .step, .img, .mem, .flash].all K = true) (u l acc jt) :
    (resetTile u l acc jt).2.erase K = acc.2.erase K := by
  simp at h; unfold resetTile; dsimp only
  split <;> simp [h]

@[simp] theorem rcvOuterReset_frame (h : [.out, .regs, .rs, .host, .sync, .dies, .step, .img, .upd, .mem, .flash, .rcv].all K = true) (s v)  :
    (rcvOuterReset s v).erase K = s.erase K := by
  simp at h; unfold rcvOuterReset
  dsimp only
  split
  · simp [h]
  · generalize hf : List.foldl _ _ _ = r
    have hr : r.2.erase K = s.erase K := by
      rw [← hf]
      refine (State.erase_foldl_pair _ _ _ fun a r => ?_).trans (by simp [h])
      exact State.erase_foldl_pair _ _ _ fun a g => by simp [h]
    split <;> simp [h, hr]

@[simp] theorem rcvFull_frame (h : [.out, .regs, .rs, .host, .sync, .dies, .step, .img, .upd, .rcv].all K = true) (s v)  :
    (rcvFull s v).erase K = s.erase K := by
  simp at h; simp [rcvFull, h]

@[simp] theorem rcvTestCd_frame (h : [.out, .regs, .rs, .host, .sync, .dies, .gang, .step, .img, .upd, .fab, .coll, .rcv].all K = true) (s v)  :
    (rcvTestCd s v).erase K = s.erase K := by
  simp at h; unfold rcvTestCd; split <;> simp [h]

@[simp] theorem rcvStop_frame (h : [.out, .regs, .rs, .host, .sync, .dies, .step, .img, .upd, .rcv].all K = true) (s cause)  :
    (rcvStop s cause).erase K = s.erase K := by
  simp at h; simp [rcvStop, h]

@[simp] theorem rcvCommand_frame (h : [.out, .regs, .rs, .host, .sync, .dies, .gang, .step, .img, .upd, .mem, .fab, .coll, .flash, .rcv].all K = true) (v s)  :
    (rcvCommand v s).erase K = s.erase K := by
  simp at h; unfold rcvCommand; dsimp only; repeat' split
  all_goals simp [h]

@[simp] theorem rcvEffect_frame (h : [.out, .regs, .rs, .host, .sync, .dies, .gang, .step, .img, .upd, .mem, .fab, .coll, .flash, .rcv].all K = true) (v s)  :
    (rcvEffect v s).erase K = s.erase K := by
  simp at h; simp [rcvEffect, h]

@[simp] theorem writeRcv_frame (h : [.out, .regs, .rs, .host, .sync, .dies, .gang, .step, .img, .upd, .mem, .fab, .coll, .flash, .rcv].all K = true) (v s)  :
    (writeRcv v s).erase K = s.erase K := by
  simp at h; simp [writeRcv, h]

@[simp] theorem doCopy_frame (h : [.out, .regs, .rs, .host, .sync, .dies, .gang, .step, .img, .upd, .mem, .fab, .coll, .flash, .rcv].all K = true) (v s)  :
    (doCopy v s).erase K = s.erase K := by
  simp at h; simp [doCopy, h]

@[simp] theorem doRestore_frame (h : [.out, .regs, .rs, .host, .sync, .dies, .gang, .step, .img, .upd, .mem, .fab, .coll, .flash, .rcv].all K = true) (v s)  :
    (doRestore v s).erase K = s.erase K := by
  simp at h; simp [doRestore, h]

@[simp] theorem doOuterReset_frame (h : [.out, .regs, .rs, .host, .sync, .dies, .gang, .step, .img, .upd, .mem, .fab, .coll, .flash, .rcv].all K = true) (v s)  :
    (doOuterReset v s).erase K = s.erase K := by
  simp at h; simp [doOuterReset, h]

@[simp] theorem doSelftestFull_frame (h : [.out, .regs, .rs, .host, .sync, .dies, .gang, .step, .img, .upd, .mem, .fab, .coll, .flash, .rcv].all K = true) (v s)  :
    (doSelftestFull v s).erase K = s.erase K := by
  simp at h; simp [doSelftestFull, h]

@[simp] theorem doSelftestCd_frame (h : [.out, .regs, .rs, .host, .sync, .dies, .gang, .step, .img, .upd, .mem, .fab, .coll, .flash, .rcv].all K = true) (v s)  :
    (doSelftestCd v s).erase K = s.erase K := by
  simp at h; simp [doSelftestCd, h]

@[simp] theorem doAbort_frame (h : [.out, .regs, .rs, .host, .sync, .dies, .gang, .step, .img, .upd, .mem, .fab, .coll, .flash, .rcv].all K = true) (v s)  :
    (doAbort v s).erase K = s.erase K := by
  simp at h; simp [doAbort, h]

@[simp] theorem putCopy_frame (h : [.out, .regs, .rs, .host, .step, .img, .mem, .flash].all K = true) (s l k data)  :
    (putCopy s l k data).2.erase K = s.erase K := by
  simp at h; unfold putCopy; split <;> simp [h]

@[simp] theorem putTile_frame (h : [.out, .regs, .rs, .host, .step, .img, .mem, .flash].all K = true) (s l t j cnt data)  :
    (putTile s l t j cnt data).2.erase K = s.erase K := by
  simp at h; simp [putTile, h]

@[simp] theorem rcvTook_frame (h : [.out, .regs, .rs, .host, .sync, .dies, .step, .img, .upd, .rcv].all K = true) (key r)  :
    (rcvTook key r).erase K = r.2.erase K := by
  simp at h; simp [rcvTook, h]

@[simp] theorem copyTake_frame (h : [.out, .regs, .rs, .host, .sync, .dies, .step, .img, .upd, .mem, .flash, .rcv].all K = true) (s img i chunk data)  :
    (copyTake s img i chunk data).erase K = s.erase K := by
  simp at h; simp [copyTake, h]

@[simp] theorem restoreTake_frame (h : [.out, .regs, .rs, .host, .sync, .dies, .step, .img, .upd, .mem, .flash, .rcv].all K = true) (s n page data)  :
    (restoreTake s n page data).erase K = s.erase K := by
  simp at h; simp [restoreTake, h]

@[simp] theorem rcvFetch_frame (h : [.out, .regs, .rs, .host, .sync, .dies, .step, .img, .upd, .mem, .flash, .rcv].all K = true) (desc chunk srcStep data s)  :
    (rcvFetch desc chunk srcStep data s).erase K = s.erase K := by
  simp at h; unfold rcvFetch; split <;> simp [h]

@[simp] theorem doFetchDone_frame (h : [.out, .regs, .rs, .host, .sync, .dies, .gang, .step, .maq, .img, .upd, .mem, .fab, .coll, .flash, .start, .rcv].all K = true) (desc chunk srcStep data s)  :
    (doFetchDone desc chunk srcStep data s).erase K = s.erase K := by
  simp at h; simp [doFetchDone, h]

@[simp] theorem copyDone_frame (h : [.out, .regs, .rs, .host, .sync, .dies, .step, .img, .upd, .mem, .flash, .start, .rcv].all K = true) (s)  :
    (copyDone s).erase K = s.erase K := by
  simp at h; unfold copyDone; split <;> simp [h]

@[simp] theorem cdTested_frame (h : [.regs, .dies, .flash, .start].all K = true) (s d ok)  :
    (cdTested s d ok).erase K = s.erase K := by
  simp at h; simp [cdTested, h]

@[simp] theorem drawFailed_frame (h : [.free, .start].all K = true) (s)  :
    (drawFailed s).erase K = s.erase K := by
  simp at h; simp [drawFailed, h]

@[simp] theorem fullTested_frame (h : [.tb, .free, .out, .regs, .rs, .host, .sync, .dies, .gang, .step, .maq, .img, .upd, .mem, .fab, .coll, .plat, .opt, .dl, .flash, .start, .rcv, .pwr, .clocks, .tbs, .sec, .tel].all K = true) (s ok)  :
    (fullTested s ok).erase K = s.erase K := by
  simp at h; simp [fullTested, h]

@[simp] theorem doRcvDone_frame (h : [.tb, .free, .out, .regs, .rs, .host, .sync, .dies, .gang, .step, .maq, .img, .upd, .mem, .fab, .coll, .plat, .opt, .dl, .flash, .start, .rcv, .pwr, .clocks, .tbs, .sec, .tel].all K = true) (cause s)  :
    (doRcvDone cause s).erase K = s.erase K := by
  simp at h; unfold doRcvDone; repeat' split
  all_goals simp [h]

end Sys2Proof.Machine
end

