-- ==== Sys2Proof/Laws/FrameSecurity.lean ====
section
/-! SUPPORT. Laws/FrameSecurity.lean: which components of the state each operation of Machine/Security.lean can change. -/
namespace Sys2Proof.Machine
open Sys2Proof

variable {K : Comp → Bool}

@[simp] theorem mboxPut_frame (h : [.regs].all K = true) (s bs)  :
    (mboxPut s bs).erase K = s.erase K := by
  simp at h; simp [mboxPut, h]

@[simp] theorem mboxAnswer_frame (h : [.regs, .sec].all K = true) (s cmd status body)  :
    (mboxAnswer s cmd status body).erase K = s.erase K := by
  simp at h; simp [mboxAnswer, h]

@[simp] theorem respond_frame (h : [.out, .regs, .sec].all K = true) (s p cmd status body)  :
    (respond s p cmd status body).erase K = s.erase K := by
  simp at h; unfold respond; split <;> simp [h]

@[simp] theorem serve_frame  (p cmd body run s) (hrun : ∀ z0, State.erase K (run z0) = State.erase K z0) :
    (serve p cmd body run s).erase K = s.erase K := by
  unfold serve; split
  · exact hrun s
  · rfl

@[simp] theorem mboxGo_frame (h : [.regs, .sec].all K = true) (len s)  :
    (mboxGo len s).erase K = s.erase K := by
  simp at h; simp [mboxGo, h]

@[simp] theorem setNonce_frame (h : [.sec].all K = true) (s p n)  :
    (setNonce s p n).erase K = s.erase K := by
  simp at h; simp [setNonce, h]

@[simp] theorem doGetNonce_frame (h : [.free, .out, .regs, .sec].all K = true) (p s)  :
    (doGetNonce p s).erase K = s.erase K := by
  simp at h; simp [doGetNonce, h]

@[simp] theorem doNonceExpire_frame (h : [.clk, .tb, .regs, .dies, .tbs, .sec].all K = true) (p s)  :
    (doNonceExpire p s).erase K = s.erase K := by
  simp at h; unfold doNonceExpire; split <;> simp [h]

@[simp] theorem coolLockout_frame (h : [.sec].all K = true) (s)  :
    (coolLockout s).erase K = s.erase K := by
  simp at h; simp [coolLockout, h]

@[simp] theorem doLockoutExpire_frame (h : [.clk, .tb, .regs, .dies, .tbs, .sec].all K = true) (s)  :
    (doLockoutExpire s).erase K = s.erase K := by
  simp at h; simp [doLockoutExpire, h]

@[simp] theorem ownerFail_frame (h : [.out, .regs, .rs, .host, .sec].all K = true) (s p signer status)  :
    (ownerFail s p signer status).erase K = s.erase K := by
  simp at h; simp [ownerFail, h]

@[simp] theorem owner_frame (h : [.out, .regs, .rs, .host, .sec].all K = true) (op p b sigOk act s) (hact : ∀ z0, State.erase K (act z0).2 = State.erase K z0) :
    (owner op p b sigOk act s).erase K = s.erase K := by
  simp at h; simp [owner, h, hact]

@[simp] theorem putSlot_frame (h : [.otp].all K = true) (s n x)  :
    (putSlot s n x).erase K = s.erase K := by
  simp at h; unfold putSlot; split <;> simp [h]

@[simp] theorem actBind_frame (h : [.out, .rs, .host, .otp, .sec].all K = true) (p b s)  :
    (actBind p b s).2.erase K = s.erase K := by
  simp at h; unfold actBind; dsimp only; repeat' split
  all_goals simp [h]

@[simp] theorem actRevoke_frame (h : [.out, .rs, .host, .otp, .sec].all K = true) (p b s)  :
    (actRevoke p b s).2.erase K = s.erase K := by
  simp at h; unfold actRevoke; dsimp only; repeat' split
  all_goals simp [h]

@[simp] theorem actAdvance_frame (h : [.out, .rs, .host, .otp, .sec].all K = true) (p b s)  :
    (actAdvance p b s).2.erase K = s.erase K := by
  simp at h; unfold actAdvance; dsimp only; repeat' split
  all_goals simp [h]

@[simp] theorem actLogClear_frame (h : [.out, .rs, .host, .flash, .sec].all K = true) (p b s)  :
    (actLogClear p b s).2.erase K = s.erase K := by
  simp at h; unfold actLogClear; dsimp only; repeat' split
  all_goals simp [h]

@[simp] theorem doOwnerBind_frame (h : [.out, .regs, .rs, .host, .otp, .sec].all K = true) (p b sigOk s)  :
    (doOwnerBind p b sigOk s).erase K = s.erase K := by
  simp at h; simp [doOwnerBind, h]

@[simp] theorem doOwnerRevoke_frame (h : [.out, .regs, .rs, .host, .otp, .sec].all K = true) (p b sigOk s)  :
    (doOwnerRevoke p b sigOk s).erase K = s.erase K := by
  simp at h; simp [doOwnerRevoke, h]

@[simp] theorem doOwnerAdvance_frame (h : [.out, .regs, .rs, .host, .otp, .sec].all K = true) (p b sigOk s)  :
    (doOwnerAdvance p b sigOk s).erase K = s.erase K := by
  simp at h; simp [doOwnerAdvance, h]

@[simp] theorem doOwnerLogClear_frame (h : [.out, .regs, .rs, .host, .flash, .sec].all K = true) (p b sigOk s)  :
    (doOwnerLogClear p b sigOk s).erase K = s.erase K := by
  simp at h; simp [doOwnerLogClear, h]

@[simp] theorem doGetAttest_frame (h : [.out, .regs, .sec].all K = true) (p nonce s)  :
    (doGetAttest p nonce s).erase K = s.erase K := by
  simp at h; simp [doGetAttest, h]

@[simp] theorem doGetCert_frame (h : [.out, .regs, .sec].all K = true) (p s)  :
    (doGetCert p s).erase K = s.erase K := by
  simp at h; simp [doGetCert, h]

@[simp] theorem doReadLog_frame (h : [.out, .regs, .sec].all K = true) (p cls first s)  :
    (doReadLog p cls first s).erase K = s.erase K := by
  simp at h; simp [doReadLog, h]

@[simp] theorem doReset_frame (h : [.tb, .out, .regs, .rs, .host, .sync, .dies, .gang, .step, .maq, .img, .upd, .mem, .fab, .coll, .plat, .opt, .dl, .start, .rcv, .pwr, .clocks, .tbs, .sec, .tel].all K = true) (p v s)  :
    (doReset p v s).erase K = s.erase K := by
  simp at h; simp [doReset, h]

@[simp] theorem doEpoch_frame (h : [.out, .regs, .rs, .host, .fab, .sec].all K = true) (p v s)  :
    (doEpoch p v s).erase K = s.erase K := by
  simp at h; simp [doEpoch, h]

@[simp] theorem doRecover_frame (h : [.out, .regs, .rs, .host, .sync, .dies, .gang, .step, .img, .upd, .mem, .fab, .coll, .flash, .rcv, .sec].all K = true) (p v s)  :
    (doRecover p v s).erase K = s.erase K := by
  simp at h; simp [doRecover, h]

@[simp] theorem doFlashWrite_frame (h : [.out, .regs, .flash, .sec].all K = true) (p pi off data s)  :
    (doFlashWrite p pi off data s).erase K = s.erase K := by
  simp at h; simp [doFlashWrite, h]

@[simp] theorem doFlashPrefer_frame (h : [.out, .regs, .flash, .sec].all K = true) (p pi copy ok s)  :
    (doFlashPrefer p pi copy ok s).erase K = s.erase K := by
  simp at h; simp [doFlashPrefer, h]

@[simp] theorem doSetEndpointId_frame (h : [.out, .sec].all K = true) (p eid s)  :
    (doSetEndpointId p eid s).erase K = s.erase K := by
  simp at h; simp [doSetEndpointId, h]

@[simp] theorem doPldmRequest_frame (h : [.out].all K = true) (p type cmd arg s)  :
    (doPldmRequest p type cmd arg s).erase K = s.erase K := by
  simp at h; simp [doPldmRequest, h]

end Sys2Proof.Machine
end

