-- ==== Sys2Proof/Laws/FrameTelemetry.lean ====
section
/-! SUPPORT. Laws/FrameTelemetry.lean: which components of the state each operation of Machine/Telemetry.lean can change. -/
namespace Sys2Proof.Machine
open Sys2Proof

variable {K : Comp → Bool}

@[simp] theorem ringFrame_frame (h : [.out, .regs, .host, .tel].all K = true) (s f)  :
    (ringFrame s f).erase K = s.erase K := by
  simp at h; simp [ringFrame, h]

@[simp] theorem putFrame_frame (h : [.regs].all K = true) (s f)  :
    (putFrame s f).erase K = s.erase K := by
  simp at h; simp [putFrame, h]

@[simp] theorem doTelemetryFrame_frame (h : [.clk, .tb, .out, .regs, .host, .dies, .tbs, .tel].all K = true) (s)  :
    (doTelemetryFrame s).erase K = s.erase K := by
  simp at h; unfold doTelemetryFrame; split <;> simp [h]

@[simp] theorem doFlashWearLevel_frame (h : [.clk, .tb, .regs, .dies, .flash, .tbs].all K = true) (blk s)  :
    (doFlashWearLevel blk s).erase K = s.erase K := by
  simp at h; simp [doFlashWearLevel, h]

end Sys2Proof.Machine
end

