-- ==== Sys2Proof/Laws/FrameHost.lean ====
section
/-! SUPPORT. Laws/FrameHost.lean: which components of the state each operation of Machine/Host.lean can change. -/
namespace Sys2Proof.Machine
open Sys2Proof

variable {K : Comp → Bool}

@[simp] theorem setMport_frame (h : [.host].all K = true) (s m p)  :
    (setMport s m p).erase K = s.erase K := by
  simp at h; unfold setMport; split <;> simp [h]

@[simp] theorem hostMem_frame (h : [.out].all K = true) (run s) (hrun : ∀ z0, State.erase K (run z0) = State.erase K z0) :
    (hostMem run s).erase K = s.erase K := by
  simp at h; simp [hostMem, h, hrun]

@[simp] theorem byMaster_frame (h : [.out].all K = true) (m run s) (hrun : ∀ z0, State.erase K (run z0) = State.erase K z0) :
    (byMaster m run s).erase K = s.erase K := by
  simp at h; unfold byMaster
  split
  · simp [h, hrun]
  · exact hrun s

@[simp] theorem popElog_frame (h : [.host].all K = true) (s)  :
    (popElog s).2.erase K = s.erase K := by
  simp at h; unfold popElog; split <;> simp [h]

@[simp] theorem popSecLog_frame (h : [.sec].all K = true) (s)  :
    (popSecLog s).2.erase K = s.erase K := by
  simp at h; unfold popSecLog; split <;> simp [h]

@[simp] theorem takeAuthFail_frame (h : [.regs].all K = true) (s)  :
    (takeAuthFail s).2.erase K = s.erase K := by
  simp at h; simp [takeAuthFail, h]

@[simp] theorem readEffect_frame (h : [.regs, .host, .sec].all K = true) (m off s)  :
    (readEffect m off s).2.erase K = s.erase K := by
  simp at h; unfold readEffect; repeat' split
  all_goals simp [h]

@[simp] theorem regRead_frame (h : [.out, .regs, .host, .sec].all K = true) (m off s)  :
    (regRead m off s).erase K = s.erase K := by
  simp at h; simp [regRead, h]

@[simp] theorem sendPending_frame (h : [.out, .host].all K = true) (v s)  :
    (sendPending v s).erase K = s.erase K := by
  simp at h; simp [sendPending, h]

@[simp] theorem sendAllPending_frame (h : [.out, .host].all K = true) (s)  :
    (sendAllPending s).erase K = s.erase K := by
  simp at h; simp [sendAllPending, h]

@[simp] theorem writeMsix_frame (h : [.out, .regs, .host].all K = true) (off v s)  :
    (writeMsix off v s).erase K = s.erase K := by
  simp at h; simp [writeMsix, h]

@[simp] theorem writeTelCtl_frame (h : [.regs, .tel].all K = true) (v s)  :
    (writeTelCtl v s).erase K = s.erase K := by
  simp at h; simp [writeTelCtl, h]

@[simp] theorem writeMboxCtl_frame (h : [.regs, .sec].all K = true) (v s)  :
    (writeMboxCtl v s).erase K = s.erase K := by
  simp at h; simp [writeMboxCtl, h]

@[simp] theorem writeSlot_frame (h : [.out, .regs, .rs, .host, .sync, .dies, .step, .img, .upd].all K = true) (n v s)  :
    (writeSlot n v s).erase K = s.erase K := by
  simp at h; simp [writeSlot, h]

@[simp] theorem writeHw_frame (h : [.out, .regs, .rs, .host, .sync, .dies, .step, .img, .upd].all K = true) (off v s)  :
    (writeHw off v s).erase K = s.erase K := by
  simp at h; simp [writeHw, h]

@[simp] theorem writeRw_frame (h : [.out, .regs, .rs, .host, .sync, .dies, .gang, .step, .img, .upd, .mem, .fab, .coll, .flash, .rcv, .sec].all K = true) (off v s)  :
    (writeRw off v s).erase K = s.erase K := by
  simp at h; simp [writeRw, h]

@[simp] theorem writeRm_frame (h : [.out, .regs, .rs, .host, .sync, .dies, .step, .img, .upd, .tel].all K = true) (off v s)  :
    (writeRm off v s).erase K = s.erase K := by
  simp at h; simp [writeRm, h]

@[simp] theorem writeRs_frame (h : [.rs].all K = true) (off v s)  :
    (writeRs off v s).erase K = s.erase K := by
  simp at h; simp [writeRs, h]

@[simp] theorem writeWo_frame (h : [.tb, .out, .regs, .rs, .host, .sync, .dies, .gang, .step, .maq, .img, .upd, .mem, .fab, .coll, .plat, .opt, .dl, .start, .rcv, .pwr, .clocks, .tbs, .sec, .tel].all K = true) (m off v s)  :
    (writeWo m off v s).erase K = s.erase K := by
  simp at h; simp [writeWo, h]

@[simp] theorem applyWrite_frame (h : [.tb, .out, .regs, .rs, .host, .sync, .dies, .gang, .step, .maq, .img, .upd, .mem, .fab, .coll, .plat, .opt, .dl, .flash, .start, .rcv, .pwr, .clocks, .tbs, .sec, .tel].all K = true) (m off v s)  :
    (applyWrite m off v s).erase K = s.erase K := by
  simp at h; unfold applyWrite; split <;> simp [h]

@[simp] theorem applyWide_frame (h : [.out, .regs, .rs, .host, .fab].all K = true) (off v s)  :
    (applyWide off v s).erase K = s.erase K := by
  simp at h; unfold applyWide; split <;> simp [h]

@[simp] theorem dropHeld_frame (h : [.host].all K = true) (m off s)  :
    (dropHeld m off s).erase K = s.erase K := by
  simp at h; unfold dropHeld; split <;> simp [h]

@[simp] theorem writeHigh_frame (h : [.out, .regs, .rs, .host, .fab].all K = true) (m off v s)  :
    (writeHigh m off v s).erase K = s.erase K := by
  simp at h; simp [writeHigh, h]

@[simp] theorem holdLow_frame (h : [.host].all K = true) (m off v s)  :
    (holdLow m off v s).erase K = s.erase K := by
  simp at h; simp [holdLow, h]

@[simp] theorem writeEffect_frame (h : [.tb, .out, .regs, .rs, .host, .sync, .dies, .gang, .step, .maq, .img, .upd, .mem, .fab, .coll, .plat, .opt, .dl, .flash, .start, .rcv, .pwr, .clocks, .tbs, .sec, .tel].all K = true) (m off v s)  :
    (writeEffect m off v s).erase K = s.erase K := by
  simp at h; simp [writeEffect, h]

@[simp] theorem regWrite_frame (h : [.tb, .out, .regs, .rs, .host, .sync, .dies, .gang, .step, .maq, .img, .upd, .mem, .fab, .coll, .plat, .opt, .dl, .flash, .start, .rcv, .pwr, .clocks, .tbs, .sec, .tel].all K = true) (m off v s)  :
    (regWrite m off v s).erase K = s.erase K := by
  simp at h; simp [regWrite, h]

@[simp] theorem doRegisterWrite_frame (h : [.tb, .out, .regs, .rs, .host, .sync, .dies, .gang, .step, .maq, .img, .upd, .mem, .fab, .coll, .plat, .opt, .dl, .flash, .start, .rcv, .pwr, .clocks, .tbs, .sec, .tel].all K = true) (m off v s)  :
    (doRegisterWrite m off v s).erase K = s.erase K := by
  simp at h; simp [doRegisterWrite, h]

@[simp] theorem doRsClearWrite_frame (h : [.tb, .out, .regs, .rs, .host, .sync, .dies, .gang, .step, .maq, .img, .upd, .mem, .fab, .coll, .plat, .opt, .dl, .flash, .start, .rcv, .pwr, .clocks, .tbs, .sec, .tel].all K = true) (m off v s)  :
    (doRsClearWrite m off v s).erase K = s.erase K := by
  simp at h; simp [doRsClearWrite, h]

@[simp] theorem doReg64LowRead_frame (h : [.out, .regs, .host, .sec].all K = true) (m off s)  :
    (doReg64LowRead m off s).erase K = s.erase K := by
  simp at h; simp [doReg64LowRead, h]

@[simp] theorem doReg64LowWrite_frame (h : [.tb, .out, .regs, .rs, .host, .sync, .dies, .gang, .step, .maq, .img, .upd, .mem, .fab, .coll, .plat, .opt, .dl, .flash, .start, .rcv, .pwr, .clocks, .tbs, .sec, .tel].all K = true) (m off v s)  :
    (doReg64LowWrite m off v s).erase K = s.erase K := by
  simp at h; simp [doReg64LowWrite, h]

@[simp] theorem doReg64HighWrite_frame (h : [.tb, .out, .regs, .rs, .host, .sync, .dies, .gang, .step, .maq, .img, .upd, .mem, .fab, .coll, .plat, .opt, .dl, .flash, .start, .rcv, .pwr, .clocks, .tbs, .sec, .tel].all K = true) (m off v s)  :
    (doReg64HighWrite m off v s).erase K = s.erase K := by
  simp at h; simp [doReg64HighWrite, h]

@[simp] theorem doBar0ReservedAccess_frame (h : [.out, .regs, .host, .sec].all K = true) (m off size write s)  :
    (doBar0ReservedAccess m off size write s).erase K = s.erase K := by
  simp at h; simp [doBar0ReservedAccess, h]

@[simp] theorem doModElogPop_frame (h : [.out, .regs, .host, .sec].all K = true) (m s)  :
    (doModElogPop m s).erase K = s.erase K := by
  simp at h; simp [doModElogPop, h]

@[simp] theorem doSecLogPop_frame (h : [.out, .regs, .host, .sec].all K = true) (m s)  :
    (doSecLogPop m s).erase K = s.erase K := by
  simp at h; simp [doSecLogPop, h]

@[simp] theorem doSecAuthFailRead_frame (h : [.out, .regs, .host, .sec].all K = true) (m s)  :
    (doSecAuthFailRead m s).erase K = s.erase K := by
  simp at h; simp [doSecAuthFailRead, h]

@[simp] theorem doHwSlotArm_frame (h : [.tb, .out, .regs, .rs, .host, .sync, .dies, .gang, .step, .maq, .img, .upd, .mem, .fab, .coll, .plat, .opt, .dl, .flash, .start, .rcv, .pwr, .clocks, .tbs, .sec, .tel].all K = true) (n v s)  :
    (doHwSlotArm n v s).erase K = s.erase K := by
  simp at h; simp [doHwSlotArm, h]

@[simp] theorem doHwSlotDisarm_frame (h : [.tb, .out, .regs, .rs, .host, .sync, .dies, .gang, .step, .maq, .img, .upd, .mem, .fab, .coll, .plat, .opt, .dl, .flash, .start, .rcv, .pwr, .clocks, .tbs, .sec, .tel].all K = true) (n v s)  :
    (doHwSlotDisarm n v s).erase K = s.erase K := by
  simp at h; simp [doHwSlotDisarm, h]

@[simp] theorem doSyncHwDisable_frame (h : [.tb, .out, .regs, .rs, .host, .sync, .dies, .gang, .step, .maq, .img, .upd, .mem, .fab, .coll, .plat, .opt, .dl, .flash, .start, .rcv, .pwr, .clocks, .tbs, .sec, .tel].all K = true) (v s)  :
    (doSyncHwDisable v s).erase K = s.erase K := by
  simp at h; simp [doSyncHwDisable, h]

@[simp] theorem hostEpoch_frame (h : [.tb, .out, .regs, .rs, .host, .sync, .dies, .gang, .step, .maq, .img, .upd, .mem, .fab, .coll, .plat, .opt, .dl, .flash, .start, .rcv, .pwr, .clocks, .tbs, .sec, .tel].all K = true) (cmd arg s)  :
    (hostEpoch cmd arg s).erase K = s.erase K := by
  simp at h; simp [hostEpoch, h]

@[simp] theorem malformedTlp_frame (h : [.out].all K = true) (s)  :
    (malformedTlp s).erase K = s.erase K := by
  simp at h; simp [malformedTlp, h]

@[simp] theorem bar2WriteAt_frame (h : [.out, .regs, .rs, .host, .step, .img, .mem, .flash].all K = true) (s off data)  :
    (bar2WriteAt s off data).erase K = s.erase K := by
  simp at h; unfold bar2WriteAt
  split
  · split
    · simp [h]
    · split
      · rename_i q; have e := memWrite_frame (K := K) (by simp [h]) _ _ _ _ _ q; simp [h, e]
      · simp [h]
  · simp [h]

@[simp] theorem doBar2Write_frame (h : [.out, .regs, .rs, .host, .step, .img, .mem, .flash].all K = true) (off data ep s)  :
    (doBar2Write off data ep s).erase K = s.erase K := by
  simp at h; simp [doBar2Write, h]

@[simp] theorem bar2ReadAt_frame (h : [.out, .regs, .rs, .host, .step, .img, .mem, .flash].all K = true) (s off len)  :
    (bar2ReadAt s off len).erase K = s.erase K := by
  simp at h; unfold bar2ReadAt
  split
  · simp [h]
  split
  · simp [h]
  split
  · simp [h]
  · rename_i q; have e := memRead_frame (K := K) (by simp [h]) _ _ _ _ _ q
    split <;> simp [h, e]

@[simp] theorem doBar2Read_frame (h : [.out, .regs, .rs, .host, .step, .img, .mem, .flash].all K = true) (off len s)  :
    (doBar2Read off len s).erase K = s.erase K := by
  simp at h; simp [doBar2Read, h]

@[simp] theorem disableSeg_frame (h : [.regs].all K = true) (s i)  :
    (disableSeg s i).erase K = s.erase K := by
  simp at h; simp [disableSeg, h]

@[simp] theorem cfgServed_frame  (run s) (hrun : ∀ z0, State.erase K (run z0) = State.erase K z0) :
    (cfgServed run s).erase K = s.erase K := by
  unfold cfgServed; split
  · exact hrun s
  · rfl

@[simp] theorem doBar2Resize_frame (h : [.regs, .host].all K = true) (size s)  :
    (doBar2Resize size s).erase K = s.erase K := by
  simp at h; unfold doBar2Resize
  exact cfgServed_frame _ _ fun s => by
    split
    · rfl
    · exact (State.erase_foldl _ _ _ fun s k => by simp [h]).trans (by simp [h])

@[simp] theorem doD3hotEnter_frame (h : [.host].all K = true) (s)  :
    (doD3hotEnter s).erase K = s.erase K := by
  simp at h; simp [doD3hotEnter, h]

@[simp] theorem doD0Return_frame (h : [.out, .host].all K = true) (s)  :
    (doD0Return s).erase K = s.erase K := by
  simp at h; simp [doD0Return, h]

@[simp] theorem doBusMasterEnable_frame (h : [.out, .regs, .rs, .host, .maq, .fab].all K = true) (en s)  :
    (doBusMasterEnable en s).erase K = s.erase K := by
  simp at h; simp [doBusMasterEnable, h]

@[simp] theorem doMsixUnmask_frame (h : [.tb, .out, .regs, .rs, .host, .sync, .dies, .gang, .step, .maq, .img, .upd, .mem, .fab, .coll, .plat, .opt, .dl, .flash, .start, .rcv, .pwr, .clocks, .tbs, .sec, .tel].all K = true) (v s)  :
    (doMsixUnmask v s).erase K = s.erase K := by
  simp at h; unfold doMsixUnmask; split <;> simp [h]

@[simp] theorem doMsixWindowEnd_frame (h : [.clk, .tb, .out, .regs, .host, .dies, .tbs].all K = true) (v pldm s)  :
    (doMsixWindowEnd v pldm s).erase K = s.erase K := by
  simp at h; unfold doMsixWindowEnd; repeat' split
  all_goals simp [h]

@[simp] theorem doPcieLinkUp_frame (h : [.out, .regs, .rs, .host, .maq, .fab].all K = true) (s)  :
    (doPcieLinkUp s).erase K = s.erase K := by
  simp at h; simp [doPcieLinkUp, h]

end Sys2Proof.Machine
end

