-- ==== Sys2Proof/Laws/FrameVecDesc.lean ====
section
/-! SUPPORT. Laws/FrameVecDesc.lean: which components of the state each operation of Machine/VecDesc.lean can change. -/
namespace Sys2Proof.Machine
open Sys2Proof

variable {K : Comp → Bool}

@[simp] theorem startPass_frame (h : [.free, .regs, .dies].all K = true) (d c w s)  :
    (startPass d c w s).erase K = s.erase K := by
  simp at h; simp [startPass, h]

@[simp] theorem passFault_frame (h : [.free, .out, .regs, .rs, .host, .sync, .dies, .gang, .step, .img, .upd, .mem, .fab, .coll, .flash].all K = true) (d c w s)  :
    (passFault d c w s).erase K = s.erase K := by
  simp at h; simp [passFault, h]

@[simp] theorem passEnd_frame (h : [.out, .regs, .rs, .host, .sync, .dies, .step, .img, .upd].all K = true) (d c w s)  :
    (passEnd d c w s).erase K = s.erase K := by
  simp at h; simp [passEnd, h]

@[simp] theorem runPass1_frame (h : [.free, .out, .regs, .rs, .host, .sync, .dies, .gang, .step, .img, .upd, .mem, .fab, .coll, .flash].all K = true) (d c w s)  :
    (runPass1 d c w s).erase K = s.erase K := by
  simp at h; simp [runPass1, h]

@[simp] theorem runShards_frame (h : [.free, .out, .regs, .rs, .host, .sync, .dies, .gang, .step, .img, .upd, .mem, .fab, .coll, .flash].all K = true) (d c w s)  :
    (runShards d c w s).erase K = s.erase K := by
  simp at h; unfold runShards; split <;> simp [h]

@[simp] theorem runPass2_frame (h : [.free, .out, .regs, .rs, .host, .sync, .dies, .gang, .step, .maq, .img, .upd, .mem, .fab, .coll, .flash].all K = true) (d c w s)  :
    (runPass2 d c w s).erase K = s.erase K := by
  simp at h; simp [runPass2, h]

@[simp] theorem runVector_frame (h : [.free, .out, .regs, .rs, .host, .sync, .dies, .gang, .step, .maq, .img, .upd, .mem, .fab, .coll, .flash].all K = true) (d c w s)  :
    (runVector d c w s).erase K = s.erase K := by
  simp at h; simp [runVector, h]

@[simp] theorem doVector_frame (h : [.free, .out, .regs, .rs, .host, .sync, .dies, .gang, .step, .maq, .img, .upd, .mem, .fab, .coll, .flash].all K = true) (d c s)  :
    (doVector d c s).erase K = s.erase K := by
  simp at h; simp [doVector, h]

end Sys2Proof.Machine
end

