-- ==== Sys2Proof/Laws/FrameStep.lean ====
section
/-! SUPPORT. Laws/FrameStep.lean: which components of the state each operation of Machine/Step.lean can change. -/
namespace Sys2Proof.Machine
open Sys2Proof

variable {K : Comp → Bool}

@[simp] theorem State.withPending_frame (h : [.pending].all K = true) (s q)  :
    (State.withPending s q).erase K = s.erase K := by
  simp at h; simp [State.withPending, h]

end Sys2Proof.Machine
end

