-- ==== Sys2Proof/Laws/Stores.lean ====
section
/-! SUPPORT. Laws/Stores.lean: reading a sparse store after writing it, and the canonical form that writing keeps. -/
namespace Sys2Proof.Machine
open Sys2Proof

variable {β : Type}

@[simp] theorem SMap.get_erase_self (d : β) (m : SMap β) (k : Nat) : SMap.get d (SMap.erase m k) k = d := by
  induction m with
  | nil => rfl
  | cons p m ih =>
    simp only [SMap.erase]
    split
    · exact ih
    · simp_all [SMap.get]

theorem SMap.get_erase_ne (d : β) (m : SMap β) (j k : Nat) (hjk : k ≠ j) : SMap.get d (SMap.erase m j) k = SMap.get d m k := by
  induction m with
  | nil => rfl
  | cons p m ih =>
    simp only [SMap.erase]
    split
    · subst_vars; simp [SMap.get, hjk, ih]
    · simp [SMap.get, ih]

theorem SMap.get_insert_ne (d : β) (m : SMap β) (j k : Nat) (v : β) (hjk : k ≠ j) :
    SMap.get d (SMap.insert m j v) k = SMap.get d m k := by
  induction m with
  | nil => simp [SMap.insert, SMap.get, hjk]
  | cons p m ih =>
    simp only [SMap.insert]
    split
    · simp [SMap.get, hjk]
    · split
      · subst_vars; simp [SMap.get, hjk]
      · simp [SMap.get, ih]

theorem SMap.get_insert_self (d : β) (m : SMap β) (k : Nat) (v : β) : SMap.get d (SMap.insert m k v) k = v := by
  induction m with
  | nil => simp [SMap.insert, SMap.get]
  | cons p m ih =>
    simp only [SMap.insert]
    split
    · simp [SMap.get]
    · split
      · simp [SMap.get]
      · simp_all [SMap.get]

/-- A write leaves every other key alone, whatever an unlisted key reads as. -/
theorem SMap.get_set_ne [DecidableEq β] (d e : β) (m : SMap β) (j k : Nat) (v : β) (hjk : k ≠ j) :
    SMap.get d (SMap.set e m j v) k = SMap.get d m k := by
  unfold SMap.set; split
  · exact SMap.get_erase_ne d m j k hjk
  · exact SMap.get_insert_ne d m j k v hjk

/-- A read after a write to the same key gives the value written. -/
@[simp] theorem SMap.get_set_self [DecidableEq β] (d : β) (m : SMap β) (k : Nat) (v : β) : SMap.get d (SMap.set d m k v) k = v := by
  unfold SMap.set; split
  · subst_vars; simp
  · exact SMap.get_insert_self d m k v

theorem SMap.wfFrom_mono [DecidableEq β] (d : β) (m : SMap β) (lo hi : Nat) (hl : hi ≤ lo) (h : SMap.wfFrom d lo m = true) :
    SMap.wfFrom d hi m = true := by
  cases m with
  | nil => rfl
  | cons p m =>
    simp only [SMap.wfFrom, Bool.and_eq_true, decide_eq_true_eq] at h ⊢
    exact ⟨⟨by omega, h.1.2⟩, h.2⟩

theorem SMap.wfFrom_erase [DecidableEq β] (d : β) (m : SMap β) (lo k : Nat) (h : SMap.wfFrom d lo m = true) :
    SMap.wfFrom d lo (SMap.erase m k) = true := by
  induction m generalizing lo with
  | nil => rfl
  | cons p m ih =>
    simp only [SMap.wfFrom, Bool.and_eq_true, decide_eq_true_eq] at h
    simp only [SMap.erase]
    split
    · exact SMap.wfFrom_mono d _ _ _ (by omega) (ih _ h.2)
    · simp only [SMap.wfFrom, Bool.and_eq_true, decide_eq_true_eq]
      exact ⟨h.1, ih _ h.2⟩

theorem SMap.wfFrom_insert [DecidableEq β] (d : β) (m : SMap β) (lo k : Nat) (v : β) (hk : lo ≤ k) (hv : v ≠ d)
    (h : SMap.wfFrom d lo m = true) : SMap.wfFrom d lo (SMap.insert m k v) = true := by
  induction m generalizing lo with
  | nil => simp [SMap.insert, SMap.wfFrom, hk, hv]
  | cons p m ih =>
    simp only [SMap.wfFrom, Bool.and_eq_true, decide_eq_true_eq] at h
    simp only [SMap.insert]
    split
    · simp only [SMap.wfFrom, Bool.and_eq_true, decide_eq_true_eq]
      exact ⟨⟨hk, hv⟩, ⟨by omega, h.1.2⟩, h.2⟩
    · split
      · subst_vars; simp only [SMap.wfFrom, Bool.and_eq_true, decide_eq_true_eq]
        exact ⟨⟨hk, hv⟩, h.2⟩
      · simp only [SMap.wfFrom, Bool.and_eq_true, decide_eq_true_eq]
        exact ⟨h.1, ih _ (by omega) h.2⟩

/-- A write keeps the canonical form. -/
theorem SMap.wf_set [DecidableEq β] (d : β) (m : SMap β) (k : Nat) (v : β) (h : SMap.wf d m = true) :
    SMap.wf d (SMap.set d m k v) = true := by
  unfold SMap.set SMap.wf at *; split
  · exact SMap.wfFrom_erase d m 0 k h
  · exact SMap.wfFrom_insert d m 0 k v (Nat.zero_le _) ‹_› h

end Sys2Proof.Machine
end

