-- ==== Sys2Proof/Laws/Memory.lean ====
section
/-! SUPPORT. Laws/Memory.lean: every operation over module memory keeps its canonical form, and reset has it. -/
namespace Sys2Proof.Machine
open Sys2Proof

variable {K : Comp → Bool}

theorem mem_of_erase {s t : State} (h : t.erase (fun c => !decide (c = .mem)) = s.erase (fun c => !decide (c = .mem))) :
    t.mem = s.mem := by
  have e := congrArg State.mem h
  simpa [State.erase] using e

theorem MemState.wf_reset : State.reset.mem.wf = true := by decide

/-- An operation that leaves memory alone keeps its form. -/
theorem wf_of_frame {s t : State} (h : t.erase (fun c => !decide (c = .mem)) = s.erase (fun c => !decide (c = .mem)))
    (w : s.mem.wf = true) : t.mem.wf = true := by rw [mem_of_erase h]; exact w

theorem wf_updStack (s n f) (w : s.mem.wf = true) : (updStack s n f).mem.wf = true := w

theorem wf_poison (m : MemState) (g : Nat) (v : Bool) (w : m.wf = true) :
    MemState.wf { m with poison := SMap.set false m.poison g v } = true := by
  simp only [MemState.wf, Bool.and_eq_true] at w ⊢
  exact ⟨⟨⟨w.1.1.1, SMap.wf_set _ _ _ _ w.1.1.2⟩, w.1.2⟩, w.2⟩

theorem wf_marks (m : MemState) (p u c : SMap Bool) (w : m.wf = true) (hp : SMap.wf false p = true)
    (hu : SMap.wf false u = true) (hc : SMap.wf false c = true) :
    MemState.wf { m with poison := p, ue := u, ce := c } = true := by
  simp only [MemState.wf, Bool.and_eq_true] at w ⊢
  exact ⟨⟨⟨w.1.1.1, hp⟩, hu⟩, hc⟩

theorem wf_memEvent (s bit n row) (w : s.mem.wf = true) : (memEvent s bit n row).mem.wf = true :=
  wf_of_frame (memEvent_frame (by decide) s bit n row) w

theorem wf_loop {f : Nat → SMap Bool → SMap Bool} (hf : ∀ i m, SMap.wf false m = true → SMap.wf false (f i m) = true)
    (n : Nat) (m : SMap Bool) (w : SMap.wf false m = true) : SMap.wf false (loopN n f m) = true := by
  induction n with
  | zero => exact w
  | succ n ih => exact hf _ _ ih

theorem wf_poisonPage (s n p) (w : s.mem.wf = true) : (poisonPage s n p).mem.wf = true := by
  have w' := w
  simp only [MemState.wf, Bool.and_eq_true] at w'
  exact wf_marks s.mem _ s.mem.ue s.mem.ce w
    (wf_loop (fun _ _ h => SMap.wf_set _ _ _ _ h) _ _ w'.1.1.2) w'.1.2 w'.2

theorem wf_requestStop (s c) (w : s.mem.wf = true) : (requestStop s c).mem.wf = true :=
  wf_of_frame (requestStop_frame (by decide) s c) w

theorem wf_setReg64 (s o v) (w : s.mem.wf = true) : (setReg64 s o v).mem.wf = true := w
theorem wf_logRemap (s n p sub) (w : s.mem.wf = true) : (logRemap s n p sub).mem.wf = true := w
theorem wf_ite (c : Prop) [Decidable c] (s t : State) (hs : s.mem.wf = true) (ht : t.mem.wf = true) :
    (if c then s else t).mem.wf = true := by split <;> assumption

theorem wf_setRemap (s n p sub) (w : s.mem.wf = true) : (setRemap s n p sub).mem.wf = true := w

theorem wf_setFld (s o hi lo v) (w : s.mem.wf = true) : (setFld s o hi lo v).mem.wf = true :=
  wf_of_frame (setFld_frame (by decide) s o hi lo v) w

theorem wf_satFld16 (s o lo) (w : s.mem.wf = true) : (satFld16 s o lo).mem.wf = true :=
  wf_of_frame (satFld16_frame (by decide) s o lo) w

theorem wf_logMapOut (s n ch) (w : s.mem.wf = true) : (logMapOut s n ch).mem.wf = true :=
  wf_of_frame (logMapOut_frame (by decide) s n ch) w

theorem wf_retireOne (s n p row again) (w : s.mem.wf = true) : (retireOne s n p row again).mem.wf = true := by
  unfold retireOne
  dsimp only
  generalize hA : logMapOut (updStack s n _) n _ = A
  have a1 : A.mem.wf = true := by rw [← hA]; exact wf_logMapOut _ _ _ (wf_updStack _ _ _ w)
  generalize hB : memEvent (satFld16 _ _ _) 4 n row = B
  have b1 : B.mem.wf = true := by
    rw [← hB]; exact wf_memEvent _ _ _ _ (wf_satFld16 _ _ _ (wf_setReg64 _ _ _ (wf_memEvent _ _ _ _ a1)))
  generalize hC : (if pageClass s n p = some RegionClass.persistent then memEvent B 10 n row else B) = C
  have c1 : C.mem.wf = true := by rw [← hC]; exact wf_ite _ _ _ (wf_memEvent _ _ _ _ b1) b1
  refine (fun d1 => wf_ite _ _ _ (wf_requestStop _ _ d1) d1) ?_
  refine wf_ite _ _ _ (wf_setRemap _ _ _ _ c1) (wf_ite _ _ _ ?_ ?_)
  · exact wf_poisonPage _ _ _ (wf_setFld _ _ _ _ _ (wf_setRemap _ _ _ _ (wf_updStack _ _ _ c1)))
  · have e1 : ∀ c : Prop, [Decidable c] → (if c then C else setRemap C n p none).mem.wf = true := fun c _ =>
      wf_ite _ _ _ c1 (wf_setRemap _ _ _ _ c1)
    exact wf_memEvent _ _ _ _ (wf_ite _ _ _ (wf_setFld _ _ _ _ _ (e1 _)) (wf_requestStop _ _ (wf_setFld _ _ _ _ _ (e1 _))))

theorem wf_retirePage (s n o row) (w : s.mem.wf = true) : (retirePage s n o row).mem.wf = true := by
  unfold retirePage
  dsimp only
  split
  · exact wf_retireOne _ _ _ _ _ w
  · exact wf_ite _ _ _ w (wf_retireOne _ _ _ _ _ w)

theorem wf_rowNeedsRepair (s n o) (w : s.mem.wf = true) : (rowNeedsRepair s n o).mem.wf = true := by
  unfold rowNeedsRepair
  exact wf_ite _ _ _ w (wf_ite _ _ _ (wf_retirePage _ _ _ _ w) (wf_updStack _ _ _ w))

theorem wf_addReg (s o n) (w : s.mem.wf = true) : (addReg s o n).mem.wf = true := w
theorem wf_addReg64 (s o n) (w : s.mem.wf = true) : (addReg64 s o n).mem.wf = true := w

theorem wf_foundUe (s g a) (w : s.mem.wf = true) : (foundUe s g a).mem.wf = true := by
  have w' := w
  simp only [MemState.wf, Bool.and_eq_true] at w'
  unfold foundUe
  refine wf_rowNeedsRepair _ _ _ (wf_memEvent _ _ _ _ (wf_setReg64 _ _ _ (wf_addReg _ _ _ (wf_addReg _ _ _ ?_))))
  exact wf_marks s.mem _ _ _ w (SMap.wf_set _ _ _ _ w'.1.1.2) (SMap.wf_set _ _ _ _ w'.1.2) w'.2

theorem wf_correctGran (s g) (w : s.mem.wf = true) : (correctGran s g).mem.wf = true := by
  have w' := w
  simp only [MemState.wf, Bool.and_eq_true] at w'
  exact wf_addReg64 _ _ _ (wf_addReg64 _ _ _ (wf_marks s.mem _ _ _ w w'.1.1.2 w'.1.2 (SMap.wf_set _ _ _ _ w'.2)))

theorem wf_foundCe (s g) (w : s.mem.wf = true) : (foundCe s g).mem.wf = true := by
  have c1 : ∀ n f, (updStack (correctGran s g) n f).mem.wf = true := fun _ _ => wf_updStack _ _ _ (wf_correctGran s g w)
  unfold foundCe
  dsimp only
  split
  · exact wf_ite _ _ _ (wf_rowNeedsRepair _ _ _ (wf_memEvent _ _ _ _ (wf_updStack _ _ _ (c1 _ _)))) (c1 _ _)
  · exact c1 _ _

theorem wf_foldl {α : Type} (f : State → α → State) (hf : ∀ s x, s.mem.wf = true → (f s x).mem.wf = true)
    (l : List α) (s : State) (w : s.mem.wf = true) : (l.foldl f s).mem.wf = true := by
  induction l generalizing s with
  | nil => exact w
  | cons x l ih => exact ih _ (hf _ _ w)

theorem wf_repairRow (s n row) (w : s.mem.wf = true) : (repairRow s n row).mem.wf = true := by
  unfold repairRow
  dsimp only
  refine wf_memEvent _ _ _ _ ?_
  have h : ∀ us cs, ((List.foldl correctGran (List.foldl (fun s g => foundUe s g (granAddr s.mem g)) s us) cs)).mem.wf = true :=
    fun us cs => wf_foldl _ (fun s g h => wf_correctGran s g h) _ _ (wf_foldl _ (fun s g h => wf_foundUe s g _ h) _ _ w)
  exact h _ _

theorem wf_holdForRepair (s g) (w : s.mem.wf = true) : (holdForRepair s g).mem.wf = true := by
  unfold holdForRepair
  dsimp only
  split
  · exact wf_ite _ _ _ (wf_repairRow _ _ _ w) w
  · exact w

theorem wf_touchGran (s g a) (w : s.mem.wf = true) : (touchGran s g a).mem.wf = true := by
  unfold touchGran
  repeat' split
  · exact w
  · exact wf_foundUe _ _ _ w
  · exact wf_foundCe _ _ w
  · exact w

theorem wf_caParity (s gs) (w : s.mem.wf = true) : (caParity s gs).mem.wf = true := by
  unfold caParity
  dsimp only
  refine wf_ite _ _ _ w ?_
  exact wf_ite _ _ _ (wf_foldl _ (fun s x h => wf_foundUe s _ _ h) _ _ (wf_memEvent _ _ _ _ w)) (wf_memEvent _ _ _ _ w)

theorem wf_holds (s : State) (gs : List (Nat × Nat)) (w : s.mem.wf = true) :
    (gs.foldl (fun s x => holdForRepair s x.1) s).mem.wf = true := wf_foldl _ (fun s x h => wf_holdForRepair s x.1 h) _ _ w

/-- A read keeps the canonical form. -/
theorem wf_memRead (s a len r t) (w : s.mem.wf = true) (h : memRead s a len = some (r, t)) : t.mem.wf = true := by
  unfold memRead at h
  split at h
  · cases h
    exact wf_foldl _ (fun s x h => wf_touchGran s _ _ h) _ _ (wf_caParity _ _ (wf_holds s _ w))
  · cases h

theorem wf_writeMark (s a len g b) (w : s.mem.wf = true) : (writeMark s a len g b).mem.wf = true := by
  have w' := w
  simp only [MemState.wf, Bool.and_eq_true] at w'
  unfold writeMark
  split
  · exact wf_marks s.mem _ _ _ w (SMap.wf_set _ _ _ _ w'.1.1.2) (SMap.wf_set _ _ _ _ w'.1.2) (SMap.wf_set _ _ _ _ w'.2)
  · exact wf_touchGran _ _ _ w

theorem wf_storeBytes (m a bs) (w : m.wf = true) : (storeBytes m a bs).wf = true := by
  have hb : ∀ (l : List (Byte × Nat)) (h : SMap Byte), SMap.wf 0 h = true →
      SMap.wf 0 (l.foldl (fun h x => match x with
        | (b, i) => match phys m (a + i) with
          | some p => SMap.set 0 h p b
          | none => h) h) = true := by
    intro l
    induction l with
    | nil => intro h w; exact w
    | cons x l ih =>
      intro h w
      refine ih _ ?_
      dsimp only
      split
      · exact SMap.wf_set _ _ _ _ w
      · exact w
  simp only [MemState.wf, Bool.and_eq_true] at w
  simp only [storeBytes, MemState.wf, Bool.and_eq_true]
  exact ⟨⟨⟨hb _ _ w.1.1.1, w.1.1.2⟩, w.1.2⟩, w.2⟩

/-- A write keeps the canonical form. -/
theorem wf_memWrite (s a bs r t) (w : s.mem.wf = true) (h : memWrite s a bs = some (r, t)) : t.mem.wf = true := by
  unfold memWrite at h
  split at h
  · dsimp only at h
    split at h
    · cases h; exact w
    · cases h
      exact wf_caParity _ _ (wf_storeBytes _ _ _ (wf_foldl _ (fun s x h => wf_writeMark s a bs.length _ _ h) _ _ (wf_holds s _ w)))
  · cases h

theorem wf_memPut (s a bs) (w : s.mem.wf = true) : (memPut s a bs).mem.wf = true := by
  unfold memPut
  split
  · exact wf_memWrite _ _ _ _ _ w ‹_›
  · exact w

theorem wf_memPoison (s a len) (w : s.mem.wf = true) : (memPoison s a len).mem.wf = true := by
  have w' := w
  simp only [MemState.wf, Bool.and_eq_true] at w'
  have hb : ∀ (l : List (Nat × Nat)) (h : SMap Bool), SMap.wf false h = true →
      SMap.wf false (l.foldl (fun h x => match x with
        | (g, _) => if s.mem.st[granStack g].emergency then h else SMap.set false h g true) h) = true := by
    intro l
    induction l with
    | nil => intro h w; exact w
    | cons x l ih =>
      intro h w
      refine ih _ ?_
      dsimp only
      split
      · exact w
      · exact SMap.wf_set _ _ _ _ w
  exact wf_marks s.mem _ s.mem.ue s.mem.ce w (hb _ _ w'.1.1.2) w'.1.2 w'.2

theorem wf_doRowRepairDone (n row s) (w : s.mem.wf = true) : (doRowRepairDone n row s).mem.wf = true := by
  unfold doRowRepairDone
  split
  · exact w
  · exact wf_ite _ _ _ w (wf_repairRow _ _ _ w)

theorem wf_doPatrolScrub (n s) (w : s.mem.wf = true) : (doPatrolScrub n s).mem.wf = true := by
  unfold doPatrolScrub
  refine wf_ite _ _ _ w ?_
  dsimp only
  generalize (List.map _ (List.range 32) : List (Nat × Nat)) = gs
  exact wf_updStack _ _ _ (wf_foldl _ (fun s x h => wf_touchGran s _ _ h) _ _ (wf_caParity _ _ (wf_holdForRepair _ _ w)))

end Sys2Proof.Machine
end

