-- ==== Sys2Proof/Laws/State.lean ====
section
/-! SUPPORT. Laws/State.lean: what the basic updates leave alone, field by field, and what a frame gives for each component. -/
namespace Sys2Proof.Machine
open Sys2Proof

@[simp] theorem emit_pending (s : State) (o : Output) : (emit s o).pending = s.pending := rfl
@[simp] theorem emit_clk (s : State) (o : Output) : (emit s o).clk = s.clk := rfl
@[simp] theorem emit_tb (s : State) (o : Output) : (emit s o).tb = s.tb := rfl
@[simp] theorem emit_free (s : State) (o : Output) : (emit s o).free = s.free := rfl
@[simp] theorem emit_regs (s : State) (o : Output) : (emit s o).regs = s.regs := rfl
@[simp] theorem emit_rs (s : State) (o : Output) : (emit s o).rs = s.rs := rfl
@[simp] theorem emit_host (s : State) (o : Output) : (emit s o).host = s.host := rfl
@[simp] theorem emit_sync (s : State) (o : Output) : (emit s o).sync = s.sync := rfl
@[simp] theorem emit_dies (s : State) (o : Output) : (emit s o).dies = s.dies := rfl
@[simp] theorem emit_gang (s : State) (o : Output) : (emit s o).gang = s.gang := rfl
@[simp] theorem emit_step (s : State) (o : Output) : (emit s o).step = s.step := rfl
@[simp] theorem emit_maq (s : State) (o : Output) : (emit s o).maq = s.maq := rfl
@[simp] theorem emit_img (s : State) (o : Output) : (emit s o).img = s.img := rfl
@[simp] theorem emit_upd (s : State) (o : Output) : (emit s o).upd = s.upd := rfl
@[simp] theorem emit_mem (s : State) (o : Output) : (emit s o).mem = s.mem := rfl
@[simp] theorem emit_fab (s : State) (o : Output) : (emit s o).fab = s.fab := rfl
@[simp] theorem emit_coll (s : State) (o : Output) : (emit s o).coll = s.coll := rfl
@[simp] theorem emit_plat (s : State) (o : Output) : (emit s o).plat = s.plat := rfl
@[simp] theorem emit_opt (s : State) (o : Output) : (emit s o).opt = s.opt := rfl
@[simp] theorem emit_dl (s : State) (o : Output) : (emit s o).dl = s.dl := rfl
@[simp] theorem emit_flash (s : State) (o : Output) : (emit s o).flash = s.flash := rfl
@[simp] theorem emit_otp (s : State) (o : Output) : (emit s o).otp = s.otp := rfl
@[simp] theorem emit_start (s : State) (o : Output) : (emit s o).start = s.start := rfl
@[simp] theorem emit_rcv (s : State) (o : Output) : (emit s o).rcv = s.rcv := rfl
@[simp] theorem emit_pwr (s : State) (o : Output) : (emit s o).pwr = s.pwr := rfl
@[simp] theorem emit_clocks (s : State) (o : Output) : (emit s o).clocks = s.clocks := rfl
@[simp] theorem emit_tbs (s : State) (o : Output) : (emit s o).tbs = s.tbs := rfl
@[simp] theorem emit_sec (s : State) (o : Output) : (emit s o).sec = s.sec := rfl
@[simp] theorem emit_tel (s : State) (o : Output) : (emit s o).tel = s.tel := rfl

@[simp] theorem setReg_pending (s : State) (o : Nat) (v : Word) : (setReg s o v).pending = s.pending := rfl
@[simp] theorem setReg_clk (s : State) (o : Nat) (v : Word) : (setReg s o v).clk = s.clk := rfl
@[simp] theorem setReg_tb (s : State) (o : Nat) (v : Word) : (setReg s o v).tb = s.tb := rfl
@[simp] theorem setReg_free (s : State) (o : Nat) (v : Word) : (setReg s o v).free = s.free := rfl
@[simp] theorem setReg_out (s : State) (o : Nat) (v : Word) : (setReg s o v).out = s.out := rfl
@[simp] theorem setReg_rs (s : State) (o : Nat) (v : Word) : (setReg s o v).rs = s.rs := rfl
@[simp] theorem setReg_host (s : State) (o : Nat) (v : Word) : (setReg s o v).host = s.host := rfl
@[simp] theorem setReg_sync (s : State) (o : Nat) (v : Word) : (setReg s o v).sync = s.sync := rfl
@[simp] theorem setReg_dies (s : State) (o : Nat) (v : Word) : (setReg s o v).dies = s.dies := rfl
@[simp] theorem setReg_gang (s : State) (o : Nat) (v : Word) : (setReg s o v).gang = s.gang := rfl
@[simp] theorem setReg_step (s : State) (o : Nat) (v : Word) : (setReg s o v).step = s.step := rfl
@[simp] theorem setReg_maq (s : State) (o : Nat) (v : Word) : (setReg s o v).maq = s.maq := rfl
@[simp] theorem setReg_img (s : State) (o : Nat) (v : Word) : (setReg s o v).img = s.img := rfl
@[simp] theorem setReg_upd (s : State) (o : Nat) (v : Word) : (setReg s o v).upd = s.upd := rfl
@[simp] theorem setReg_mem (s : State) (o : Nat) (v : Word) : (setReg s o v).mem = s.mem := rfl
@[simp] theorem setReg_fab (s : State) (o : Nat) (v : Word) : (setReg s o v).fab = s.fab := rfl
@[simp] theorem setReg_coll (s : State) (o : Nat) (v : Word) : (setReg s o v).coll = s.coll := rfl
@[simp] theorem setReg_plat (s : State) (o : Nat) (v : Word) : (setReg s o v).plat = s.plat := rfl
@[simp] theorem setReg_opt (s : State) (o : Nat) (v : Word) : (setReg s o v).opt = s.opt := rfl
@[simp] theorem setReg_dl (s : State) (o : Nat) (v : Word) : (setReg s o v).dl = s.dl := rfl
@[simp] theorem setReg_flash (s : State) (o : Nat) (v : Word) : (setReg s o v).flash = s.flash := rfl
@[simp] theorem setReg_otp (s : State) (o : Nat) (v : Word) : (setReg s o v).otp = s.otp := rfl
@[simp] theorem setReg_start (s : State) (o : Nat) (v : Word) : (setReg s o v).start = s.start := rfl
@[simp] theorem setReg_rcv (s : State) (o : Nat) (v : Word) : (setReg s o v).rcv = s.rcv := rfl
@[simp] theorem setReg_pwr (s : State) (o : Nat) (v : Word) : (setReg s o v).pwr = s.pwr := rfl
@[simp] theorem setReg_clocks (s : State) (o : Nat) (v : Word) : (setReg s o v).clocks = s.clocks := rfl
@[simp] theorem setReg_tbs (s : State) (o : Nat) (v : Word) : (setReg s o v).tbs = s.tbs := rfl
@[simp] theorem setReg_sec (s : State) (o : Nat) (v : Word) : (setReg s o v).sec = s.sec := rfl
@[simp] theorem setReg_tel (s : State) (o : Nat) (v : Word) : (setReg s o v).tel = s.tel := rfl

@[simp] theorem updDie_pending (s : State) (d : Die) (f : DieState → DieState) : (updDie s d f).pending = s.pending := rfl
@[simp] theorem updDie_clk (s : State) (d : Die) (f : DieState → DieState) : (updDie s d f).clk = s.clk := rfl
@[simp] theorem updDie_tb (s : State) (d : Die) (f : DieState → DieState) : (updDie s d f).tb = s.tb := rfl
@[simp] theorem updDie_free (s : State) (d : Die) (f : DieState → DieState) : (updDie s d f).free = s.free := rfl
@[simp] theorem updDie_out (s : State) (d : Die) (f : DieState → DieState) : (updDie s d f).out = s.out := rfl
@[simp] theorem updDie_regs (s : State) (d : Die) (f : DieState → DieState) : (updDie s d f).regs = s.regs := rfl
@[simp] theorem updDie_rs (s : State) (d : Die) (f : DieState → DieState) : (updDie s d f).rs = s.rs := rfl
@[simp] theorem updDie_host (s : State) (d : Die) (f : DieState → DieState) : (updDie s d f).host = s.host := rfl
@[simp] theorem updDie_sync (s : State) (d : Die) (f : DieState → DieState) : (updDie s d f).sync = s.sync := rfl
@[simp] theorem updDie_gang (s : State) (d : Die) (f : DieState → DieState) : (updDie s d f).gang = s.gang := rfl
@[simp] theorem updDie_step (s : State) (d : Die) (f : DieState → DieState) : (updDie s d f).step = s.step := rfl
@[simp] theorem updDie_maq (s : State) (d : Die) (f : DieState → DieState) : (updDie s d f).maq = s.maq := rfl
@[simp] theorem updDie_img (s : State) (d : Die) (f : DieState → DieState) : (updDie s d f).img = s.img := rfl
@[simp] theorem updDie_upd (s : State) (d : Die) (f : DieState → DieState) : (updDie s d f).upd = s.upd := rfl
@[simp] theorem updDie_mem (s : State) (d : Die) (f : DieState → DieState) : (updDie s d f).mem = s.mem := rfl
@[simp] theorem updDie_fab (s : State) (d : Die) (f : DieState → DieState) : (updDie s d f).fab = s.fab := rfl
@[simp] theorem updDie_coll (s : State) (d : Die) (f : DieState → DieState) : (updDie s d f).coll = s.coll := rfl
@[simp] theorem updDie_plat (s : State) (d : Die) (f : DieState → DieState) : (updDie s d f).plat = s.plat := rfl
@[simp] theorem updDie_opt (s : State) (d : Die) (f : DieState → DieState) : (updDie s d f).opt = s.opt := rfl
@[simp] theorem updDie_dl (s : State) (d : Die) (f : DieState → DieState) : (updDie s d f).dl = s.dl := rfl
@[simp] theorem updDie_flash (s : State) (d : Die) (f : DieState → DieState) : (updDie s d f).flash = s.flash := rfl
@[simp] theorem updDie_otp (s : State) (d : Die) (f : DieState → DieState) : (updDie s d f).otp = s.otp := rfl
@[simp] theorem updDie_start (s : State) (d : Die) (f : DieState → DieState) : (updDie s d f).start = s.start := rfl
@[simp] theorem updDie_rcv (s : State) (d : Die) (f : DieState → DieState) : (updDie s d f).rcv = s.rcv := rfl
@[simp] theorem updDie_pwr (s : State) (d : Die) (f : DieState → DieState) : (updDie s d f).pwr = s.pwr := rfl
@[simp] theorem updDie_clocks (s : State) (d : Die) (f : DieState → DieState) : (updDie s d f).clocks = s.clocks := rfl
@[simp] theorem updDie_tbs (s : State) (d : Die) (f : DieState → DieState) : (updDie s d f).tbs = s.tbs := rfl
@[simp] theorem updDie_sec (s : State) (d : Die) (f : DieState → DieState) : (updDie s d f).sec = s.sec := rfl
@[simp] theorem updDie_tel (s : State) (d : Die) (f : DieState → DieState) : (updDie s d f).tel = s.tel := rfl

@[simp] theorem updStack_pending (s : State) (n : Stack) (f : StackState → StackState) : (updStack s n f).pending = s.pending := rfl
@[simp] theorem updStack_clk (s : State) (n : Stack) (f : StackState → StackState) : (updStack s n f).clk = s.clk := rfl
@[simp] theorem updStack_tb (s : State) (n : Stack) (f : StackState → StackState) : (updStack s n f).tb = s.tb := rfl
@[simp] theorem updStack_free (s : State) (n : Stack) (f : StackState → StackState) : (updStack s n f).free = s.free := rfl
@[simp] theorem updStack_out (s : State) (n : Stack) (f : StackState → StackState) : (updStack s n f).out = s.out := rfl
@[simp] theorem updStack_regs (s : State) (n : Stack) (f : StackState → StackState) : (updStack s n f).regs = s.regs := rfl
@[simp] theorem updStack_rs (s : State) (n : Stack) (f : StackState → StackState) : (updStack s n f).rs = s.rs := rfl
@[simp] theorem updStack_host (s : State) (n : Stack) (f : StackState → StackState) : (updStack s n f).host = s.host := rfl
@[simp] theorem updStack_sync (s : State) (n : Stack) (f : StackState → StackState) : (updStack s n f).sync = s.sync := rfl
@[simp] theorem updStack_dies (s : State) (n : Stack) (f : StackState → StackState) : (updStack s n f).dies = s.dies := rfl
@[simp] theorem updStack_gang (s : State) (n : Stack) (f : StackState → StackState) : (updStack s n f).gang = s.gang := rfl
@[simp] theorem updStack_step (s : State) (n : Stack) (f : StackState → StackState) : (updStack s n f).step = s.step := rfl
@[simp] theorem updStack_maq (s : State) (n : Stack) (f : StackState → StackState) : (updStack s n f).maq = s.maq := rfl
@[simp] theorem updStack_img (s : State) (n : Stack) (f : StackState → StackState) : (updStack s n f).img = s.img := rfl
@[simp] theorem updStack_upd (s : State) (n : Stack) (f : StackState → StackState) : (updStack s n f).upd = s.upd := rfl
@[simp] theorem updStack_fab (s : State) (n : Stack) (f : StackState → StackState) : (updStack s n f).fab = s.fab := rfl
@[simp] theorem updStack_coll (s : State) (n : Stack) (f : StackState → StackState) : (updStack s n f).coll = s.coll := rfl
@[simp] theorem updStack_plat (s : State) (n : Stack) (f : StackState → StackState) : (updStack s n f).plat = s.plat := rfl
@[simp] theorem updStack_opt (s : State) (n : Stack) (f : StackState → StackState) : (updStack s n f).opt = s.opt := rfl
@[simp] theorem updStack_dl (s : State) (n : Stack) (f : StackState → StackState) : (updStack s n f).dl = s.dl := rfl
@[simp] theorem updStack_flash (s : State) (n : Stack) (f : StackState → StackState) : (updStack s n f).flash = s.flash := rfl
@[simp] theorem updStack_otp (s : State) (n : Stack) (f : StackState → StackState) : (updStack s n f).otp = s.otp := rfl
@[simp] theorem updStack_start (s : State) (n : Stack) (f : StackState → StackState) : (updStack s n f).start = s.start := rfl
@[simp] theorem updStack_rcv (s : State) (n : Stack) (f : StackState → StackState) : (updStack s n f).rcv = s.rcv := rfl
@[simp] theorem updStack_pwr (s : State) (n : Stack) (f : StackState → StackState) : (updStack s n f).pwr = s.pwr := rfl
@[simp] theorem updStack_clocks (s : State) (n : Stack) (f : StackState → StackState) : (updStack s n f).clocks = s.clocks := rfl
@[simp] theorem updStack_tbs (s : State) (n : Stack) (f : StackState → StackState) : (updStack s n f).tbs = s.tbs := rfl
@[simp] theorem updStack_sec (s : State) (n : Stack) (f : StackState → StackState) : (updStack s n f).sec = s.sec := rfl
@[simp] theorem updStack_tel (s : State) (n : Stack) (f : StackState → StackState) : (updStack s n f).tel = s.tel := rfl

@[simp] theorem withPending_clk (s : State) (q : List Instr) : (s.withPending q).clk = s.clk := rfl
@[simp] theorem withPending_tb (s : State) (q : List Instr) : (s.withPending q).tb = s.tb := rfl
@[simp] theorem withPending_free (s : State) (q : List Instr) : (s.withPending q).free = s.free := rfl
@[simp] theorem withPending_out (s : State) (q : List Instr) : (s.withPending q).out = s.out := rfl
@[simp] theorem withPending_regs (s : State) (q : List Instr) : (s.withPending q).regs = s.regs := rfl
@[simp] theorem withPending_rs (s : State) (q : List Instr) : (s.withPending q).rs = s.rs := rfl
@[simp] theorem withPending_host (s : State) (q : List Instr) : (s.withPending q).host = s.host := rfl
@[simp] theorem withPending_sync (s : State) (q : List Instr) : (s.withPending q).sync = s.sync := rfl
@[simp] theorem withPending_dies (s : State) (q : List Instr) : (s.withPending q).dies = s.dies := rfl
@[simp] theorem withPending_gang (s : State) (q : List Instr) : (s.withPending q).gang = s.gang := rfl
@[simp] theorem withPending_step (s : State) (q : List Instr) : (s.withPending q).step = s.step := rfl
@[simp] theorem withPending_maq (s : State) (q : List Instr) : (s.withPending q).maq = s.maq := rfl
@[simp] theorem withPending_img (s : State) (q : List Instr) : (s.withPending q).img = s.img := rfl
@[simp] theorem withPending_upd (s : State) (q : List Instr) : (s.withPending q).upd = s.upd := rfl
@[simp] theorem withPending_mem (s : State) (q : List Instr) : (s.withPending q).mem = s.mem := rfl
@[simp] theorem withPending_fab (s : State) (q : List Instr) : (s.withPending q).fab = s.fab := rfl
@[simp] theorem withPending_coll (s : State) (q : List Instr) : (s.withPending q).coll = s.coll := rfl
@[simp] theorem withPending_plat (s : State) (q : List Instr) : (s.withPending q).plat = s.plat := rfl
@[simp] theorem withPending_opt (s : State) (q : List Instr) : (s.withPending q).opt = s.opt := rfl
@[simp] theorem withPending_dl (s : State) (q : List Instr) : (s.withPending q).dl = s.dl := rfl
@[simp] theorem withPending_flash (s : State) (q : List Instr) : (s.withPending q).flash = s.flash := rfl
@[simp] theorem withPending_otp (s : State) (q : List Instr) : (s.withPending q).otp = s.otp := rfl
@[simp] theorem withPending_start (s : State) (q : List Instr) : (s.withPending q).start = s.start := rfl
@[simp] theorem withPending_rcv (s : State) (q : List Instr) : (s.withPending q).rcv = s.rcv := rfl
@[simp] theorem withPending_pwr (s : State) (q : List Instr) : (s.withPending q).pwr = s.pwr := rfl
@[simp] theorem withPending_clocks (s : State) (q : List Instr) : (s.withPending q).clocks = s.clocks := rfl
@[simp] theorem withPending_tbs (s : State) (q : List Instr) : (s.withPending q).tbs = s.tbs := rfl
@[simp] theorem withPending_sec (s : State) (q : List Instr) : (s.withPending q).sec = s.sec := rfl
@[simp] theorem withPending_tel (s : State) (q : List Instr) : (s.withPending q).tel = s.tel := rfl

@[simp] theorem drawFree_pending (s : State) : ((drawFree s).2).pending = s.pending := rfl
@[simp] theorem drawFree_clk (s : State) : ((drawFree s).2).clk = s.clk := rfl
@[simp] theorem drawFree_tb (s : State) : ((drawFree s).2).tb = s.tb := rfl
@[simp] theorem drawFree_out (s : State) : ((drawFree s).2).out = s.out := rfl
@[simp] theorem drawFree_regs (s : State) : ((drawFree s).2).regs = s.regs := rfl
@[simp] theorem drawFree_rs (s : State) : ((drawFree s).2).rs = s.rs := rfl
@[simp] theorem drawFree_host (s : State) : ((drawFree s).2).host = s.host := rfl
@[simp] theorem drawFree_sync (s : State) : ((drawFree s).2).sync = s.sync := rfl
@[simp] theorem drawFree_dies (s : State) : ((drawFree s).2).dies = s.dies := rfl
@[simp] theorem drawFree_gang (s : State) : ((drawFree s).2).gang = s.gang := rfl
@[simp] theorem drawFree_step (s : State) : ((drawFree s).2).step = s.step := rfl
@[simp] theorem drawFree_maq (s : State) : ((drawFree s).2).maq = s.maq := rfl
@[simp] theorem drawFree_img (s : State) : ((drawFree s).2).img = s.img := rfl
@[simp] theorem drawFree_upd (s : State) : ((drawFree s).2).upd = s.upd := rfl
@[simp] theorem drawFree_mem (s : State) : ((drawFree s).2).mem = s.mem := rfl
@[simp] theorem drawFree_fab (s : State) : ((drawFree s).2).fab = s.fab := rfl
@[simp] theorem drawFree_coll (s : State) : ((drawFree s).2).coll = s.coll := rfl
@[simp] theorem drawFree_plat (s : State) : ((drawFree s).2).plat = s.plat := rfl
@[simp] theorem drawFree_opt (s : State) : ((drawFree s).2).opt = s.opt := rfl
@[simp] theorem drawFree_dl (s : State) : ((drawFree s).2).dl = s.dl := rfl
@[simp] theorem drawFree_flash (s : State) : ((drawFree s).2).flash = s.flash := rfl
@[simp] theorem drawFree_otp (s : State) : ((drawFree s).2).otp = s.otp := rfl
@[simp] theorem drawFree_start (s : State) : ((drawFree s).2).start = s.start := rfl
@[simp] theorem drawFree_rcv (s : State) : ((drawFree s).2).rcv = s.rcv := rfl
@[simp] theorem drawFree_pwr (s : State) : ((drawFree s).2).pwr = s.pwr := rfl
@[simp] theorem drawFree_clocks (s : State) : ((drawFree s).2).clocks = s.clocks := rfl
@[simp] theorem drawFree_tbs (s : State) : ((drawFree s).2).tbs = s.tbs := rfl
@[simp] theorem drawFree_sec (s : State) : ((drawFree s).2).sec = s.sec := rfl
@[simp] theorem drawFree_tel (s : State) : ((drawFree s).2).tel = s.tel := rfl

@[simp] theorem emit_out (s : State) (o : Output) : (emit s o).out = o :: s.out := rfl
@[simp] theorem withPending_pending (s : State) (q : List Instr) : (s.withPending q).pending = q := rfl
@[simp] theorem drawFree_free (s : State) : (drawFree s).2.free = s.free + 1 := rfl

@[simp] theorem die_updDie_self (s : State) (d : Die) (f : DieState → DieState) : die (updDie s d f) d = f (die s d) := by
  simp [die, updDie]
theorem die_updDie_ne (s : State) (d e : Die) (f : DieState → DieState) (h : e ≠ d) : die (updDie s d f) e = die s e := by
  have : d.val ≠ e.val := fun q => h (Fin.ext q.symm)
  simp [die, updDie, this]
@[simp] theorem PerStream.get_put_self {α : Type} (p : PerStream α) (c : Sid) (v : α) : (p.put c v).get c = v := by cases c <;> rfl
theorem PerStream.get_put_ne {α : Type} (p : PerStream α) (c e : Sid) (v : α) (h : e ≠ c) : (p.put c v).get e = p.get e := by
  cases c <;> cases e <;> first | rfl | exact absurd rfl h
@[simp] theorem str_updStr_self (s : State) (d : Die) (c : Sid) (f : Stream → Stream) : str (updStr s d c f) d c = f (str s d c) := by
  simp [str, updStr]
@[simp] theorem vctx_updCtx_self (s : State) (d : Die) (c : Sid) (f : VCtx → VCtx) : vctx (updCtx s d c f) d c = f (vctx s d c) := by
  simp [vctx, updCtx]
@[simp] theorem updStack_self (s : State) (n : Stack) (f : StackState → StackState) : (updStack s n f).mem.st[n] = f s.mem.st[n] := by
  simp [updStack]

/-- A register reads as before after a write to another one. -/
theorem reg_setReg_ne (s : State) (o p : Nat) (v : Word) (h : p ≠ o) : reg (setReg s o v) p = reg s p := by
  simp [reg, setReg, SMap.get_set_ne _ _ _ _ _ _ h]
/-- A register reads as what was written to it. -/
@[simp] theorem reg_setReg_self (s : State) (o : Nat) (v : Word) : reg (setReg s o v) o = v := by
  simp [reg, setReg]
@[simp] theorem reg_emit (s : State) (o : Output) (p : Nat) : reg (emit s o) p = reg s p := rfl
@[simp] theorem reg_updDie (s : State) (d f) (p : Nat) : reg (updDie s d f) p = reg s p := rfl

/-! ### Frames -/

theorem changesOnly.refl (ks : List Comp) (s : State) : changesOnly ks s s := rfl
theorem changesOnly.trans {ks : List Comp} {s t u : State} (h : changesOnly ks s t) (g : changesOnly ks t u) : changesOnly ks s u :=
  Eq.trans g h

theorem changesOnly.pending {ks : List Comp} {s t : State} (h : changesOnly ks s t) (hk : Comp.pending ∉ ks) : t.pending = s.pending := by
  simpa [State.erase, hk] using congrArg State.pending h
theorem changesOnly.clk {ks : List Comp} {s t : State} (h : changesOnly ks s t) (hk : Comp.clk ∉ ks) : t.clk = s.clk := by
  simpa [State.erase, hk] using congrArg State.clk h
theorem changesOnly.tb {ks : List Comp} {s t : State} (h : changesOnly ks s t) (hk : Comp.tb ∉ ks) : t.tb = s.tb := by
  simpa [State.erase, hk] using congrArg State.tb h
theorem changesOnly.free {ks : List Comp} {s t : State} (h : changesOnly ks s t) (hk : Comp.free ∉ ks) : t.free = s.free := by
  simpa [State.erase, hk] using congrArg State.free h
theorem changesOnly.out {ks : List Comp} {s t : State} (h : changesOnly ks s t) (hk : Comp.out ∉ ks) : t.out = s.out := by
  simpa [State.erase, hk] using congrArg State.out h
theorem changesOnly.regs {ks : List Comp} {s t : State} (h : changesOnly ks s t) (hk : Comp.regs ∉ ks) : t.regs = s.regs := by
  simpa [State.erase, hk] using congrArg State.regs h
theorem changesOnly.rs {ks : List Comp} {s t : State} (h : changesOnly ks s t) (hk : Comp.rs ∉ ks) : t.rs = s.rs := by
  simpa [State.erase, hk] using congrArg State.rs h
theorem changesOnly.host {ks : List Comp} {s t : State} (h : changesOnly ks s t) (hk : Comp.host ∉ ks) : t.host = s.host := by
  simpa [State.erase, hk] using congrArg State.host h
theorem changesOnly.sync {ks : List Comp} {s t : State} (h : changesOnly ks s t) (hk : Comp.sync ∉ ks) : t.sync = s.sync := by
  simpa [State.erase, hk] using congrArg State.sync h
theorem changesOnly.dies {ks : List Comp} {s t : State} (h : changesOnly ks s t) (hk : Comp.dies ∉ ks) : t.dies = s.dies := by
  simpa [State.erase, hk] using congrArg State.dies h
theorem changesOnly.gang {ks : List Comp} {s t : State} (h : changesOnly ks s t) (hk : Comp.gang ∉ ks) : t.gang = s.gang := by
  simpa [State.erase, hk] using congrArg State.gang h
theorem changesOnly.step {ks : List Comp} {s t : State} (h : changesOnly ks s t) (hk : Comp.step ∉ ks) : t.step = s.step := by
  simpa [State.erase, hk] using congrArg State.step h
theorem changesOnly.maq {ks : List Comp} {s t : State} (h : changesOnly ks s t) (hk : Comp.maq ∉ ks) : t.maq = s.maq := by
  simpa [State.erase, hk] using congrArg State.maq h
theorem changesOnly.img {ks : List Comp} {s t : State} (h : changesOnly ks s t) (hk : Comp.img ∉ ks) : t.img = s.img := by
  simpa [State.erase, hk] using congrArg State.img h
theorem changesOnly.upd {ks : List Comp} {s t : State} (h : changesOnly ks s t) (hk : Comp.upd ∉ ks) : t.upd = s.upd := by
  simpa [State.erase, hk] using congrArg State.upd h
theorem changesOnly.mem {ks : List Comp} {s t : State} (h : changesOnly ks s t) (hk : Comp.mem ∉ ks) : t.mem = s.mem := by
  simpa [State.erase, hk] using congrArg State.mem h
theorem changesOnly.fab {ks : List Comp} {s t : State} (h : changesOnly ks s t) (hk : Comp.fab ∉ ks) : t.fab = s.fab := by
  simpa [State.erase, hk] using congrArg State.fab h
theorem changesOnly.coll {ks : List Comp} {s t : State} (h : changesOnly ks s t) (hk : Comp.coll ∉ ks) : t.coll = s.coll := by
  simpa [State.erase, hk] using congrArg State.coll h
theorem changesOnly.plat {ks : List Comp} {s t : State} (h : changesOnly ks s t) (hk : Comp.plat ∉ ks) : t.plat = s.plat := by
  simpa [State.erase, hk] using congrArg State.plat h
theorem changesOnly.opt {ks : List Comp} {s t : State} (h : changesOnly ks s t) (hk : Comp.opt ∉ ks) : t.opt = s.opt := by
  simpa [State.erase, hk] using congrArg State.opt h
theorem changesOnly.dl {ks : List Comp} {s t : State} (h : changesOnly ks s t) (hk : Comp.dl ∉ ks) : t.dl = s.dl := by
  simpa [State.erase, hk] using congrArg State.dl h
theorem changesOnly.flash {ks : List Comp} {s t : State} (h : changesOnly ks s t) (hk : Comp.flash ∉ ks) : t.flash = s.flash := by
  simpa [State.erase, hk] using congrArg State.flash h
theorem changesOnly.otp {ks : List Comp} {s t : State} (h : changesOnly ks s t) (hk : Comp.otp ∉ ks) : t.otp = s.otp := by
  simpa [State.erase, hk] using congrArg State.otp h
theorem changesOnly.start {ks : List Comp} {s t : State} (h : changesOnly ks s t) (hk : Comp.start ∉ ks) : t.start = s.start := by
  simpa [State.erase, hk] using congrArg State.start h
theorem changesOnly.rcv {ks : List Comp} {s t : State} (h : changesOnly ks s t) (hk : Comp.rcv ∉ ks) : t.rcv = s.rcv := by
  simpa [State.erase, hk] using congrArg State.rcv h
theorem changesOnly.pwr {ks : List Comp} {s t : State} (h : changesOnly ks s t) (hk : Comp.pwr ∉ ks) : t.pwr = s.pwr := by
  simpa [State.erase, hk] using congrArg State.pwr h
theorem changesOnly.clocks {ks : List Comp} {s t : State} (h : changesOnly ks s t) (hk : Comp.clocks ∉ ks) : t.clocks = s.clocks := by
  simpa [State.erase, hk] using congrArg State.clocks h
theorem changesOnly.tbs {ks : List Comp} {s t : State} (h : changesOnly ks s t) (hk : Comp.tbs ∉ ks) : t.tbs = s.tbs := by
  simpa [State.erase, hk] using congrArg State.tbs h
theorem changesOnly.sec {ks : List Comp} {s t : State} (h : changesOnly ks s t) (hk : Comp.sec ∉ ks) : t.sec = s.sec := by
  simpa [State.erase, hk] using congrArg State.sec h
theorem changesOnly.tel {ks : List Comp} {s t : State} (h : changesOnly ks s t) (hk : Comp.tel ∉ ks) : t.tel = s.tel := by
  simpa [State.erase, hk] using congrArg State.tel h

end Sys2Proof.Machine
end

