-- ==== Sys2Proof/WellFormed.lean ====
section
/-! DEFINITION. WellFormed.lean: the operands that a command can carry, beyond what its types say. exec is total, and gives a
meaning to the others too. -/
namespace Sys2Proof

/-- Fibres of a port: 16 on A, 8 on B, 4 on C (R366). -/
def fibres (p : Fin 6) : Nat := if p.val < 2 then 16 else if p.val < 4 then 8 else 4

/-- The channel exists. -/
def Chan.exists? (c : Chan) : Bool := decide (c.fibre.val < fibres c.port)

/-- A path of MCTP (R498). -/
def Path.mctp (p : Path) : Bool := decide (p ≠ .mbox)

/-- The operands are ones that the command can carry. -/
def Instr.wellFormed : Instr → Bool
  | .writePacket _ c | .readPacket _ c | .signalPacket _ c | .readData _ c | .status _ c | .e2eAck _ c | .collGrant _ c
  | .collData _ c | .linkHello _ c | .poisonPacket _ c | .thermalSlowPacket _ c | .routeNotice _ c | .packetForward _ c
  | .linkControlWord _ c | .linkAckTimeout c _ | .helloTimer c | .helloSilent c | .restPrepare c | .restCalDone c _ | .calSkip c =>
    c.exists?
  | .codewordReceive c _ n _ _ _ => c.exists? && decide (n ≤ 15)
  | .ringAcquireDone r _ | .ringVerifyDone r _ | .lockLost r | .ditherWindow r _ => r.ch.exists?
  | .shutterClose p f | .shutterProbe p f | .shutterOpen p f | .ringFeedforward p f _ _ => decide (f.val < fibres p)
  | .startMemory ps _ _ => decide (ps.length = 24)
  | .startOptics _ fs _ => decide (fs.length = 14)
  | .startIdentity rs => decide (rs.length = 32)
  | .startDieLinks fs => fs.all fun x => decide (x.1 < 688)
  | .waiterTimeout o w =>
    match o, w with
    | .loc _ _, .slot _ => false
    | _, _ => true
  | .msixWindowEnd v pldm => !pldm || decide (v.val ≤ 13)
  | .reset p _ | .setEndpointId p _ | .pldmRequest p _ _ _ => p.mctp
  | _ => true

end Sys2Proof
end

