-- ==== Sys2Proof/Tests/Slice0.lean ====
section
/-! SUPPORT. Tests/Slice0.lean: that WellFormed refuses what it should, single commands on small states, and for every statement of
Certificates/Slice0/Obligations.lean states and operands that meet its hypotheses. -/
set_option Elab.async false
namespace Sys2Proof.Tests
open Sys2Proof Sys2Proof.Machine

/-! ### Small states -/

/-- A module at READY: every stack and die in service, the host in command, no image. -/
def up : State :=
  { State.reset with
    dies := Vector.replicate 24 { coreReset := false }
    host := { memSpace := true, busMaster := true, linkUp := true, perst := false }
    mem := { st := Vector.replicate 24 { inService := true } }
    start := { passed := 0x3FF, fin := .ready, idValid := true }
    clocks := { xtal := .stable }
    pwr := { closed := true }
    opt := { on := true, present := true, feedOk := 0x3FFF, feedEn := 0x3FFF }
    fab := { settled := true, modId := 0x40 } }

/-- Settings of a small job. -/
def prm : JobParams :=
  { eInit := 0, eMin := -8, eMax := 8, growth := 2, poisonLimit := 3, finishLimit := 3, q := 2, h := 3, srSeed := 0, lrPeak := 0,
    lrStart := 0, lrEnd := 0, warm := 0, decay := 0, shape := 0, period := 1, restartMul := 0, clipNorm := 0, outerFmt := 1,
    outerLr := 0, outerMu := 0, outerNesterov := false, lagged := false, sites := 2, replicas := 3, siteRank := 0,
    timers := defaultTimers, dies := [], armPrio := 0x24, armTimeout := 1000, initStep := 0, seqLen := 1, seqInFlight := 1,
    sPrev := 1, prevOwner := [2], redirectDepth := 0, guardSched := 0, normSched := none, stashSched := some 1, stepDone := none,
    inputConsumed := none, commitObjs := [], rulePass1 := none, rulePass2 := none }

/-- A round that receives four FP32 numbers from rank 2. -/
def rnd : Round :=
  { peer := 2, axis := 1, pos := 0, sendOff := 0, sendLen := 0, landOff := 0, landLen := 4, redop := 0, wire := 1, result := 1,
    dep := none, sources := [], ep := 24, sendDst := false, srcFmt := 1, hasLocal := false, localDst := false, localOff := 0, localFmt := 1 }

/-- The sections of that job. -/
def job : JobSections :=
  { params := prm, schedules := [[rnd], [rnd]], stash := [⟨5, true, [4], [1]⟩], layerCount := 1, nsCoef := [],
    syncInit := [], classes := [], remote := [⟨0, 0x10000, true, true, true⟩], hostWin := [⟨0, 0x10000, 0x5000, true, true⟩], flat := [],
    highest := [], regions := [], cstores := [], journal := 0x20000, stepRing := 0x30000, stepRingLen := 16, ratioRing := 0x40000,
    ratioDepth := 16, maqBase := 0x50000, maqSlotBytes := 4096, maqSlots := 1, maqDest := .host 0x8000, verdictRing := 0x60000, shadow := [] }

/-- Its image runs. -/
def img : ImageState :=
  { st := .running, base := 0x100000, len := 16, jobId := 1, rank := 1, sec := some job, ranks := [(1, 0x40), (2, 0x41)] }

/-- The module runs the job, with an attempt begun; on the last die, each vector context has eight registers. -/
def run : State := { up with regs := [(cdWin 23 + rVecCfg, 8 * (1 + 64 + 4096 + 262144))], img := img, step := { attempts := [{ att := 7, step := 3 }], poolFree := List.replicate 24 100 } }

/-- The same with every stream in the state `x`. -/
def on (x : Stream) (s : State) : State := { s with dies := Vector.replicate 24 { coreReset := false, str := ⟨x, x, x, x⟩ } }

/-- A stream in the body of attempt 7 that has fetched `w`. -/
def at' (w : BitVec 512) : Stream := { st := .issuing, inBody := true, begunAny := true, attempt := 7, step := 3, pc := 0x100040, cur := some w }

/-- A descriptor from (byte offset, value) pairs. -/
def dsc (fs : List (Nat × Nat)) : BitVec 512 := BitVec.ofNat 512 (fs.foldl (fun n f => n + f.2 * 2 ^ (8 * f.1)) 0)

/-- Distinct bytes, as a check on a list. -/
theorem distinct_iff (m : MemState) (a len : Nat) :
    distinctBytes m a len ↔ ((List.range len).map fun i => phys m (a + i)).Nodup := by
  rw [List.nodup_map_iff_inj_on List.nodup_range]
  simp only [distinctBytes, List.mem_range]
  exact ⟨fun h i hi j hj e => h i j hi hj e, fun h i j hi hj e => h i hi j hj e⟩

/-- A sync object on which `x` waits for 1 until time 500. -/
def waited (x : Who) : SyncState := { glob := [(16, { waiters := [⟨x, false, 1, some 500⟩] })] }

/-- A state with the stack state `x` in every stack. -/
def allStacks (x : StackState) : State := { up with mem := { up.mem with st := Vector.replicate 24 x } }

/-- A packet of a type and class from module 0x41 to this one. -/
def pkt (t : BitVec 6) (cls : BitVec 2) : Packet :=
  { type := t, scope := 0, cls := cls, relief := false, epoch := 0, retx := false, new := false, dateline := false, fmt := 0, dstMod := 0x40,
    srcMod := 0x41, dstEp := 24, srcEp := 24, hops := 0, jobId := 1, fseq := 1, age := 0, addr := 0, txn := 7, lsn := 0, crc := 0, payload := [] }

/-- The first channel. -/
def ch0 : Chan := ⟨0, 0, 0⟩

/-- A stream of that attempt that has fetched nothing. -/
def free' : Stream := { at' 0 with cur := none }

/-- A finished tile of the F stream. -/
def tile : Tile :=
  { c := .f, tag := 1, flags := 0, kpart := 0, mb := 0, nb := 0, rows := 1, cols := 1, nf := 0, hi := [], lo := [], fp64 := false, last := false, id := 9 }

/-- Every die as `x`, in `s`. -/
def dies (x : DieState) (s : State) : State := { s with dies := Vector.replicate 24 x }

/-- A die whose array unit is `a`, with streams in a step. -/
def arr (a : ArrayUnit) : DieState := { coreReset := false, arr := a, str := ⟨at' 0, at' 0, at' 0, at' 0⟩ }

/-- `s` with the verdict of attempt 7. -/
def verd (v : Option Verdict) (s : State) : State := { s with step := { s.step with attempts := [{ att := 7, step := 3, verdict := v }] } }

/-- Every vector context of every die as `x`, with streams in a step. -/
def vec (x : VCtx) (s : State) : State :=
  { s with dies := Vector.replicate 24 { coreReset := false, str := ⟨free', free', free', free'⟩, ctx := ⟨x, x, x, x⟩ } }

/-- A running context of vector length `n`. -/
def ctx (n : Nat) : VCtx := { running := true, pc := 32767, vl := n }

/-- A vector instruction word from (lowest bit, value) pairs. -/
def vi (c : Sid) (fs : List (Nat × Nat)) : VIns := ⟨23, c, BitVec.ofNat 56 (fs.foldl (fun n f => n + f.2 * 2 ^ f.1) 0)⟩

/-- `s` with the word of `i`, of operands `v`, at the last place of every program store. -/
def prg (i : VIns → Instr) (v : VIns) (s : State) : State :=
  { s with dies := s.dies.map fun x => { x with prog := [(32767, BitVec.ofNat 8 (vecOpcode (i v)) ++ v.w)] } }

/-- A place that reads soundly, as a check. -/
theorem quiet_iff (s : State) (p : Place) (n : Nat) : quietPlace s p n ↔
    (match p with
      | .ts d _ => decide ((die s d).tsUe = [] ∧ (die s d).tsCe = [])
      | .hbm a => decide ((mappedRange s.mem a n = true ∧ s.mem.parity = 0 ∧ ∀ g ∈ gransOf s.mem a n,
          s.mem.st[granStack g.1].emergency = false ∧ s.mem.st[granStack g.1].repairs = [] ∧ SMap.get false s.mem.ue g.1 = false ∧ SMap.get false s.mem.ce g.1 = false) ∧
          ∀ g ∈ gransOf s.mem a n, SMap.get false s.mem.poison g.1 = false)
      | .bad => false) = true := by
  cases p <;> simp [quietPlace, soundStore, cleanRange, unpoisoned]

/-- The descriptor of an all-gather of one round of schedule `n`. -/
def gather (op n : Nat) : BitVec 512 := dsc [(0, 6), (0xC, n), (0xE, op), (0xF, 1), (0x18, 0x1000), (0x29, 1)]

/-- A collective in progress on die 0. -/
def coll (w : BitVec 512) (fin timed : Bool) : Coll :=
  { d := 0, i := 1, desc := w, att := 7, rounds := [{ idx := 0, r := rnd, fin := fin }], timed := timed }

/-- `s` with that collective as the only one. -/
def colls (k : Coll) (s : State) : State := { s with coll := { active := [k] } }

/-- A module in which nothing waits on an object. -/
theorem no_waiters (s : State) (h : s.sync.glob = [] ∧ ∀ d, (die s d).objs = []) (o : ObjRef) : (getObj s o).waiters = [] := by
  cases o with
  | glob i => simp only [getObj, h.1]; rfl
  | loc d i => simp only [getObj, h.2 d]; rfl
theorem calm (s : State) (h : s.sync.glob = [] ∧ ∀ d, (die s d).objs = []) (o : ObjRef) : unserved (getObj s o) := by
  intro w hw
  rw [no_waiters s h o] at hw
  cases hw
theorem alone (s : State) (d : Die) (c : Sid) (h : s.sync.glob = [] ∧ ∀ d, (die s d).objs = []) : notWaiting s d c := by
  intro o w hw
  rw [no_waiters s h o] at hw
  cases hw

/-- A unit whose packets carry no payload, as a check. -/
theorem payload_iff (u : TxnUser) : noPayload u ↔ (match u with | .signal .. => true | .verdict _ => true | _ => false) = true := by
  cases u <;> simp [noPayload]

/-- A packet that takes its turn, as a check. -/
theorem turn_iff (s : State) (p : Packet) : inTurn s p ↔
    (match s.fab.dst.filter (fun g => g.serves p) with
      | [f] => decide (serialD 16 p.fseq.toNat f.point.toNat = 1 ∧ f.held = [] ∧ f.busy = false ∧ s.clk < f.last + s.fab.timers.flowIdle * 1000)
      | _ => false) = true := by
  unfold inTurn
  split <;> simp_all

/-- The packet with the CRC that belongs to it. -/
def crcd (p : Packet) : Packet := { p with crc := BitVec.ofNat 32 (pktCrc p) }

/-- A packet of a type with `n` units of zeros. -/
def msg (t : BitVec 6) (n : Nat) : Packet := { pkt t ((typeClass t).getD 0) with payload := List.replicate (64 * n) 0 }

/-- The flow of `p`, with its performed point at `n`. -/
def flow (p : Packet) (n : Half) : DstFlow := ⟨p.srcMod, p.srcEp, p.dstEp, 2 * p.cls.toNat, n, [], [], 0, none, false, false⟩

/-- `s` with that flow as the only one. -/
def flows (f : DstFlow) (s : State) : State := { s with fab := { s.fab with dst := [f] } }

/-- The next packet of its flow. -/
def next (p : Packet) (s : State) : State := flows (flow p 0) s

/-- A packet sent by `u`. -/
def sent (u : TxnUser) (n : Nat) : OutPkt := { oid := 5, user := u, pkt := pkt ptRead clReq, tries := n, deadline := 0, far := false }

/-- `s` with that packet as the only one not answered. -/
def outs (o : OutPkt) (s : State) : State := { s with fab := { s.fab with outs := [o] } }

/-- `s` with the state `x` of the link on `c`. -/
def links (c : Chan) (x : Link) (s : State) : State := { s with fab := { s.fab with links := [(chanNo c, x)] } }

/-- Two ranges that share no byte, as a check. -/
theorem apart_iff (m : MemState) (a b n k : Nat) : (∀ i j, i < n → j < k → phys m (a + i) ≠ phys m (b + j)) ↔
    ∀ i, i < n → ∀ j, j < k → phys m (a + i) ≠ phys m (b + j) :=
  ⟨fun h i hi j hj => h i j hi hj, fun h i j hi hj => h i hi j hj⟩

/-- A layer descriptor from (byte offset, value) pairs. -/
def lay (fs : List (Nat × Nat)) : BitVec 1024 := BitVec.ofNat 1024 (fs.foldl (fun n f => n + f.2 * 2 ^ (8 * f.1)) 0)

/-- `run` with one layer. -/
def one (l : BitVec 1024) : State := { run with img := { img with layers := [l] } }

/-- Pass 2 of the step after the last. -/
def q2 : Pass2 := ⟨1, 7, 0, 0, false⟩

/-- `s` with the update state `u`. -/
def updst (u : UpdState) (s : State) : State := { s with upd := u }

/-- The attempt with verdict `v`, when every stream has ended it. -/
def ended (v : Verdict) : Attempt := { att := 7, step := 3, verdict := some v, ended := List.range 96 }

/-- `s` with the attempt `a` as the only one. -/
def atts (a : Attempt) (s : State) : State := { s with step := { s.step with attempts := [a] } }

/-- `s` with the one slot of the Pointing engine holding `m`. -/
def slot (m : MaqSlot) (s : State) : State := { s with maq := { slots := [(0, some m)] } }

/-- `s` with its image in the state `x`. -/
def imgst (x : ImgSt) (s : State) : State := { s with img := { s.img with st := x } }

/-- The constants of the element-wise rule with every rate 0. -/
def rc (one : Word) : RuleC := ⟨0, 0, 0, 0, 0, 0, 0, one, one, 0, one, false, 0⟩

/-- `s` with the state `x` of the ring `r`. -/
def ringst (r : Ring) (x : RingState) (s : State) : State := { s with opt := { s.opt with rings := [(ringNo r, x)] } }

/-- A group-direction whose first `n` lanes are good. -/
def lanes (n : Nat) : GroupDir := { lanes := planRoles (fun l => decide (l < n)) (fun _ => false) (fun _ => 0) }

/-- `up` with group 0 as `x`. -/
def group (x : GroupDir) : State := { up with dl := { groups := [(0, x)], level := 3 } }

/-- An answer that stands. -/
theorem got {α : Type} (x : α) (o : Option α) (h : o.isSome = true) : o = some (o.getD x) := by
  cases o with
  | none => cases h
  | some x => rfl

/-- A stage whose time has come, as a check. -/
theorem start_iff (s : State) (i : Instr) : startAt s i ↔ (match stageOf i with | some (k, need) => stageDue s k need | none => false) = true := by
  unfold startAt
  split
  · next k need h => rw [h]; exact ⟨fun ⟨_, _, e, d⟩ => (by cases e; exact d), fun d => ⟨_, _, rfl, d⟩⟩
  · next h => rw [h]; exact ⟨fun ⟨_, _, e, _⟩ => (by cases e), fun e => (by cases e)⟩

/-- A recovery command of the host. -/
theorem asks (s : State) (i : Instr) (v : Word)
    (h : i ∈ [Instr.copy v, .restore v, .outerReset v, .selftestFull v, .selftestCd v, .abort v] ∧ mayAccess s .host rRcvCmd) : asksRecovery s i v :=
  .inl h

/-- A platform image. -/
def platImg : PlatformImage :=
  { svn := 1, keySlot := 0, minLevel := 2, digest := 0, stackPoints := [], dvfsPoints := [], dvfsVolts := [], fabClock := 0, telPeriod := 1, lanePeriod := 1, lanePlan := [],
    excluded := [], spread := 0, reserve := 0, mapOut := [], scrubPeriod := 24, rowCeLimit := 4, bandOffsets := [], memDigest := 0, cMode := 0,
    bDims := 0, topoHash := 0, positions := [], rackTable := [], dimTable := [], timers := defaultTimers, flat := [], thermOffsets := [],
    pMax := 1000, floorPct := 50, window := 1, rampUp := 1, rampDown := 1, stagger := 1, jobKeys := 1, peersB := [], peersC := [], resolveTimeout := 1 }

/-- Bytes from (address, value, count), in rising order of address, without the zeros. -/
def store (fs : List (Nat × Nat × Nat)) : SMap Byte :=
  (fs.flatMap fun f => (leBytes f.2.2 f.2.1).zipIdx.map fun b => (f.1 + b.2, b.1)).filter fun x => decide (x.2 ≠ 0)

/-- The header of a container at `o` of flash, with `n` sections of which each takes a page. -/
def flashHeader (o magic n slot : Nat) : List (Nat × Nat × Nat) :=
  [(o, magic, 4), (o + 4, 1, 2), (o + 6, n, 1), (o + 7, slot, 1), (o + 8, 1, 4), (o + 12, n + 1, 4), (o + 0x1D, 2, 1)] ++
  (List.range n).flatMap (fun i => [(o + 0x100 + 80 * i, i + 1, 2), (o + 0x104 + 80 * i, i + 1, 4), (o + 0x108 + 80 * i, 16, 4)]) ++ [(o + 0x600, 1, 2)]

/-- Flash with a firmware copy and a platform copy, both A. -/
def written : FlashState := { bytes := store (flashHeader (fwBase false) 0x57464E42 1 0xFF ++ flashHeader (piBase false) 0x49504E42 8 0) }

/-- The start before its stage `k`. -/
def stage (k : Nat) : State :=
  { up with
    start := { passed := BitVec.ofNat 10 (2 ^ k - 1) }
    flash := written
    plat := some platImg
    otp := { slots := #v[{ st := .bound }, {}, {}, {}] } }

/-- The identity record of instance `i` of a type and revision. -/
def ident (ty rev i : Nat) : BitVec 128 :=
  let n := ty * 2 ^ 56 + rev * 2 ^ 80 + i * 2 ^ 88
  BitVec.ofNat 128 (n + crc16 (leBytes 14 n) * 2 ^ 112)

/-- The records of 32 instances. -/
def idents (ty rev : Nat) : List (BitVec 128) := (List.range 32).map (ident ty rev)

/-- A frame of the high-voltage side with sequence number 7. -/
def hvf : BitVec 128 :=
  let n := 0xC3 * 2 ^ 104 + 7 * 2 ^ 96
  BitVec.ofNat 128 (n * 2 ^ 16 + crc16Bits 112 n)

/-- `s` with the power state `p`. -/
def pwrst (p : PowerState) (s : State) : State := { s with pwr := p }

/-- `s` with the timebase `tb` and its discipline `t`. -/
def tbst (tb : DWord) (t : TimebaseState) (s : State) : State := { s with tb := tb, tbs := t }

/-- `s` with the recovery state `r`. -/
def rcvst (r : RcvState) (s : State) : State := { s with rcv := r }

/-- `up` after a GET_NONCE on the I3C path, with the owner's key in slot 0. -/
def owned : State :=
  { up with
    otp := { slots := #v[{ st := .bound }, { st := .bound }, {}, {}] }
    sec := { nonces := #v[some (9, 0), none, none] }
    start := { up.start with ids := List.replicate 32 0 } }

/-- An OWNER body: signer, operation, arguments and nonce. -/
def owner (signer op a b nonce : Nat) : List Byte :=
  leBytes 32 nonce ++ List.replicate 16 0 ++ leBytes 1 signer ++ leBytes 1 op ++ leBytes 2 a ++ leBytes 4 b ++ List.replicate 268 0

/-- The first stack is in service. -/
theorem low_in : (up.mem.st[(0 : Stack)]).inService = true := by decide +kernel
theorem low_size : pageBytes ≤ localSize up.mem 0 := by decide +kernel
theorem low_page : remapPage up.mem.st[(0 : Stack)] 0 = some 0 := by decide +kernel

/-- The first page of the first stack, byte by byte. -/
theorem phys_low (o : Nat) (h : o < pageBytes) : phys up.mem (0 + o) = some o := by
  have hb : pageBytes = 2097152 := rfl
  have e : mapAddr up.mem (0 + o) = some (0, o) := by
    unfold mapAddr
    rw [if_pos (by omega)]
    have h1 : (0 + o) / 2 ^ 36 % 24 = 0 := by omega
    have h2 : (0 + o) % 2 ^ 36 = o := by omega
    simp only [h1, h2]
    exact if_pos ⟨low_in, Nat.lt_of_lt_of_le h low_size⟩
  unfold phys
  rw [e]
  have h3 : o / pageBytes = 0 := Nat.div_eq_of_lt h
  have h4 : o % pageBytes = o := Nat.mod_eq_of_lt h
  simp only [h3, h4, low_page]
  simp

/-- Bytes with addresses of their own are distinct. -/
theorem distinct_low (m : MemState) (n : Nat) (h : ∀ o, o < n → phys m (0 + o) = some o) : distinctBytes m 0 n := by
  intro i j hi hj e
  rw [h i hi, h j hj] at e
  exact Option.some.inj e

/-- No stack of `up` is in EMERGENCY, and none has a row to repair. -/
theorem up_cool (n : Stack) : (up.mem.st[n]).emergency = false ∧ (up.mem.st[n]).repairs = [] := by
  have h : ∀ n : Stack, (up.mem.st[n]).emergency = false ∧ (up.mem.st[n]).repairs = [] := by decide +kernel
  exact h n

/-- The first page can be read. -/
theorem clean_low : cleanRange up.mem 0 pageBytes := by
  refine ⟨?_, rfl, fun g _ => ⟨(up_cool _).1, (up_cool _).2, rfl, rfl⟩⟩
  unfold mappedRange
  rw [Bool.and_eq_true]
  refine ⟨by decide, List.all_eq_true.2 fun k hk => ?_⟩
  have hk := List.mem_range.1 hk
  have hb : pageBytes = 2097152 := rfl
  rw [show 0 / 2048 * 2048 + k * 2048 = 0 + 2048 * k by omega, phys_low _ (by omega)]
  rfl

/-- The bytes of a job image at address 0: its header, a section entry for each (type, page, length), streams that start at
address 0 and end in the header, and the tables of ranks and channels of module 0x40. -/
def imageBytes (shadow : Nat) (es : List (Nat × Nat × Nat)) : SMap Byte :=
  store ([(0, 0x494A4E42, 4), (4, 1, 2), (6, es.length, 1), (0xC, 1600, 4), (0x18, 1, 2), (0x1A, 1, 2), (0x1C, shadow, 1)] ++
    es.zipIdx.flatMap (fun e => [(0x100 + 80 * e.2, e.1.1, 2), (0x104 + 80 * e.2, e.1.2.1, 4), (0x108 + 80 * e.2, e.1.2.2, 4),
      (0x140 + 80 * e.2, 7, 1), (0x14C + 80 * e.2, 1, 1)]) ++
    [(0x600, 1, 2), (0x2002, 0x40, 2)] ++
    (List.range 63).map (fun n => (0x22001 + n, 0x11, 1)))

/-- The module verifies the image `bs`. -/
def verifying (bs : SMap Byte) : State :=
  { up with
    img := { st := .verifying, base := 0, len := 1600 }
    mem := { up.mem with hbm := bs }
    plat := some platImg
    otp := { slots := #v[{ st := .bound }, {}, {}, {}] } }

/-- The sections of an image without layers. -/
def bare : JobSections := { job with layerCount := 0 }

/-- A job image and a shadow image. -/
def whole : SMap Byte :=
  imageBytes 0 [(0x10, 1, 1536), (0x11, 64, 6291456), (0x12, 2, 131072), (0x13, 34, 512), (0x14, 35, 64), (0x15, 36, 64), (0x16, 37, 64), (0x17, 38, 64),
    (0x18, 39, 64), (0x19, 40, 64), (0x1A, 41, 64)]
def shadow : SMap Byte :=
  imageBytes 1 [(0x12, 2, 131072), (0x13, 34, 512), (0x14, 35, 64), (0x16, 37, 64), (0x17, 38, 64), (0x18, 39, 64), (0x19, 40, 64), (0x1A, 41, 64), (0x1B, 42, 64)]

/-! ### An ill-formed command for each check of WellFormed -/

theorem test_wf_channel : (Instr.helloTimer ⟨4, 4, 0⟩).wellFormed = false ∧ (Instr.helloTimer ⟨4, 3, 0⟩).wellFormed = true := by decide +kernel
theorem test_wf_symbols : (Instr.codewordReceive ch0 0 16 false [] none).wellFormed = false ∧
    (Instr.codewordReceive ch0 0 15 false [] none).wellFormed = true := by decide +kernel
theorem test_wf_ring : (Instr.lockLost ⟨⟨2, 8, 0⟩, true⟩).wellFormed = false ∧ (Instr.lockLost ⟨⟨2, 7, 0⟩, true⟩).wellFormed = true := by decide +kernel
theorem test_wf_shutter : (Instr.shutterOpen 5 4).wellFormed = false ∧ (Instr.shutterOpen 5 3).wellFormed = true := by decide +kernel
theorem test_wf_memory : (Instr.startMemory [] false []).wellFormed = false ∧
    (Instr.startMemory (List.replicate 24 ⟨⟨16, 32, 32, 2⟩, none⟩) false []).wellFormed = true := by
  decide +kernel
theorem test_wf_optics : (Instr.startOptics none [] []).wellFormed = false ∧ (Instr.startOptics none (List.replicate 14 none) []).wellFormed = true := by
  decide +kernel
theorem test_wf_identity : (Instr.startIdentity []).wellFormed = false ∧ (Instr.startIdentity (List.replicate 32 0)).wellFormed = true := by decide +kernel
theorem test_wf_die_links : (Instr.startDieLinks [(688, 0)]).wellFormed = false ∧ (Instr.startDieLinks [(687, 0)]).wellFormed = true := by decide +kernel
theorem test_wf_waiter : (Instr.waiterTimeout (.loc 0 0) (.slot 0)).wellFormed = false ∧ (Instr.waiterTimeout (.glob 0) (.slot 0)).wellFormed = true := by
  decide +kernel
theorem test_wf_window : (Instr.msixWindowEnd 14 true).wellFormed = false ∧ (Instr.msixWindowEnd 14 false).wellFormed = true := by decide +kernel
theorem test_wf_path : (Instr.setEndpointId .mbox 0).wellFormed = false ∧ (Instr.setEndpointId .i3c 0).wellFormed = true := by decide +kernel

/-! ### Single commands -/

/-- The next state of an outcome satisfies `p`. -/
def after (o : Host.Outcome State Fault Refusal) (p : State → Bool) : Bool := match o with | .next t => p t | _ => false

/-- Context F of die 23 after the vector instruction `i`, with words `x`, `y` and `z` in lane 0 of registers 1, 2 and 3. -/
def vres (i : VIns → Instr) (x y z : Word) (fs : List (Nat × Nat)) : Word :=
  let v := vi .f ([(47, 0), (42, 1), (37, 2), (32, 3)] ++ fs)
  match exec (i v) (prg i v (vec { ctx 1 with vregs := [(2048, x), (4096, y), (6144, z)] } run)) with
  | .next t => (vctx t 23 .f).lane 0 0
  | _ => 0xDEADBEEF

-- The command at the front is taken, and the rest of the queue waits; on an empty queue one nanosecond passes.
theorem test_step_takes_front : after (step { State.reset with pending := [.shutdown, .linkReset] }) (fun t => t.pending = [.linkReset]) = true := by
  decide +kernel
theorem test_step_idle : after (step State.reset) (fun t => decide (t.clk = 1) && decide (t.pending = [])) = true := by decide +kernel

-- R16: both halves of a 64-bit register are applied together.
theorem test_reg64_low_held :
    after (exec (.reg64LowWrite .host 0x1020 5) up) (fun t => reg64 t 0x1020 = 0 && decide (t.host.host.held = some (0x1020, 5))) = true := by
  decide +kernel
theorem test_reg64_high_applies :
    after (exec (.reg64HighWrite .host 0x1024 7) { up with host := { up.host with host := { held := some (0x1020, 5) } } })
      (fun t => decide (reg64 t 0x1020 = 0x700000005)) = true := by decide +kernel

-- R229, R216: OBJ_SIGNAL adds to the count; a sum above 2^31 - 1 is an error of the object.
theorem test_obj_signal : after (exec (.objSignal 16 3) up) (fun t => decide ((getObj t (.glob 16)).count = 3)) = true := by decide +kernel
theorem test_obj_dec_low : after (exec (.objDec 16 1) up) (fun t => decide ((getObj t (.glob 16)).count = 0)) = true := by decide +kernel

-- FP32 arithmetic in a vector context: 1.5 + 2.25, 1.5 × -2, 2 × 3 + 1 and 2 × 3 - 1 rounded once, 1 / 4.
theorem test_vadd : vres .vadd 0x3FC00000 0x40100000 0 [] = 0x40700000 := by decide +kernel
theorem test_vmul : vres .vmul 0x3FC00000 0xC0000000 0 [] = 0xC0400000 := by decide +kernel
theorem test_vfma : vres .vfma 0x40000000 0x40400000 0x3F800000 [] = 0x40E00000 := by decide +kernel
theorem test_vfms : vres .vfms 0x40000000 0x40400000 0x3F800000 [] = 0x40A00000 := by decide +kernel
theorem test_vdiv : vres .vdiv 0x3F800000 0x40800000 0 [] = 0x3E800000 := by decide +kernel
theorem test_vsqrt : vres .vsqrt 0x40100000 0 0 [] = 0x3FC00000 := by decide +kernel

-- 32-bit integers wrap; a right shift of a negative number by VSRA keeps its sign, by VSHR does not.
theorem test_viadd_wraps : vres .viadd 0xFFFFFFFF 2 0 [] = 1 := by decide +kernel
theorem test_vsra : vres .vsra 0x80000000 4 0 [] = 0xF8000000 := by decide +kernel
theorem test_vshr : vres .vshr 0x80000000 4 0 [] = 0x08000000 := by decide +kernel

-- R307: a write to a window of module memory is performed and answered with status 0.
theorem test_write_packet :
    after (exec (.writePacket (crcd { msg ptWrite 1 with payload := 0xA5 :: List.replicate 63 0 }) ch0)
        (next (msg ptWrite 1) run))
      (fun t => decide (memBytes t.mem 0 2 = [0xA5, 0])) = true := by decide +kernel

-- R439: a recovery command without MOD_IMG_EXPECT fails with cause 3.
theorem test_copy_needs_expect :
    after (exec (.copy 0x10000000) up) (fun t => decide (t.rcv.st = .failed) && decide (t.rcv.cause = 3)) = true := by decide +kernel

-- R468: a phase error of 1,000 ns is slewed, one of 1,001 ns waits for a second edge.
theorem test_edge_slews : after (exec .racksyncEdge (tbst 1000 {} up)) (fun t => decide (t.tbs.slew = 1000 ∨ t.tbs.slew = -1000)) = true := by decide +kernel
theorem test_edge_waits : after (exec .racksyncEdge (tbst 1001 {} up)) (fun t => decide (t.tbs.slew = 0) && t.tbs.big.isSome) = true := by decide +kernel

-- R142: a word that is not the next instruction of the program does nothing.
theorem test_not_next_word :
    after (exec (.vadd (vi .f [])) (prg .vsub (vi .f []) (vec (ctx 1) run))) (fun t => decide ((vctx t 23 .f).pc = 32767)) = true := by decide +kernel

-- R150: every opcode is that of an instruction or one of the reserved ones.
theorem test_reserved_ops : ∀ k, k < 256 → (decide (k ∈ reservedOps) = !(opKnown k)) := by decide +kernel

-- R299: a packet whose CRC is wrong is discarded.
theorem test_crc_discards :
    after (exec (.writePacket { crcd (msg ptWrite 1) with crc := 1 } ch0) (next (msg ptWrite 1) run)) (fun t => decide (t.mem = run.mem)) = true := by
  decide +kernel

/-! ### The hypotheses of the statements -/

/-- The hypotheses of StepRunsTheFrontCommand can be met, clause by clause. -/
theorem test_hypotheses_StepRunsTheFrontCommand :
  (∃ s : State, ∃ i : Instr, ∃ q : List Instr, s.pending = i :: q) ∧
  (∃ s : State, s.pending = []) :=
  ⟨⟨{ up with pending := [.modElogPop .host] }, .modElogPop .host, [], by decide +kernel⟩,
  ⟨up, by decide +kernel⟩⟩

/-- The hypotheses of RegisterAccess can be met, clause by clause. -/
theorem test_hypotheses_RegisterAccess :
  (∃ m : Master, ∃ off : BitVec 26, ∃ s : State, mayAccess s m off.toNat ∧ plainReg off.toNat .rm ∧ off.toNat ∉ [rImgCtl, rSyncCtl, rTelCtl]) ∧
  (∃ m : Master, ∃ off : BitVec 26, ∃ s : State, mayAccess s m off.toNat ∧ (plainReg off.toNat .ro ∨ plainReg off.toNat .rc)) ∧
  (∃ m : Master, ∃ off : BitVec 26, ∃ s : State, off.toNat = rImgLen ∧ mayAccess s m off.toNat) ∧
  (∃ m : Master, ∃ off : BitVec 26, ∃ s : State, (m = .host → hostOpen s = true) ∧ wordOpen s off.toNat = false) ∧
  (∃ m : Master, ∃ off : BitVec 26, ∃ n : Nat, ∃ s : State, (m = .host → hostOpen s = true) ∧ (wordOpen s off.toNat = false ∨ (n ≠ 4 ∧ n ≠ 8) ∨ (n = 8 ∧ off.toNat % 8 ≠ 0))) :=
  ⟨⟨.msd, 0x7000, up, by unfold plainReg mayAccess; decide +kernel⟩,
  ⟨.bmc, 0x1010, up, by unfold plainReg mayAccess; decide +kernel⟩,
  ⟨.host, 0x1008, up, by unfold mayAccess; decide +kernel⟩,
  ⟨.host, 0x14, up, by decide +kernel⟩,
  ⟨.plinth, 0x1000, 4, State.reset, by decide +kernel⟩⟩

/-- The hypotheses of RegisterGatesAndHalves can be met, clause by clause. -/
theorem test_hypotheses_RegisterGatesAndHalves :
  (∃ m : Master, ∃ off : BitVec 26, ∃ s : State, mayAccess s m off.toNat ∧ isLowWord off.toNat = true ∧ off.toNat ∉ [rElogPop, rSecLogPop, rSecAuthFail]) ∧
  (∃ m : Master, ∃ off : BitVec 26, ∃ s : State, mayAccess s m off.toNat ∧ isLowWord off.toNat = true) ∧
  (∃ m : Master, ∃ off : BitVec 26, ∃ s : State, mayAccess s m off.toNat ∧ isLowWord off.toNat = false ∧ isHighWord off.toNat = true ∧ 4 ≤ off.toNat ∧ (regRow (off.toNat - 4)).map RegRow.ty = some .rw ∧ (¬ (rRtDim ≤ off.toNat - 4 ∧ off.toNat - 4 < rRtDim + 80)) ∧ (¬ (off.toNat - 4 = rTelRingBase ∧ ctlBit s rTelCtl 0 = true))) ∧
  (∃ m : Master, ∃ off : BitVec 26, ∃ s : State, off.toNat = rLaneSel ∧ mayAccess s m off.toNat) ∧
  (∃ m : Master, ∃ off : BitVec 26, ∃ s : State, off.toNat = rTelRingLen ∧ mayAccess s m off.toNat) ∧
  (∃ m : Master, ∃ off : BitVec 26, ∃ s : State, mayAccess s m off.toNat ∧ plainReg off.toNat .rw ∧ rSecMbox ≤ off.toNat ∧ off.toNat < rSecMbox + 4096) ∧
  (∃ m : Master, ∃ off : BitVec 26, ∃ s : State, mayAccess s m off.toNat ∧ plainReg off.toNat .rw ∧ rHwObj ≤ off.toNat ∧ off.toNat < rHwObj + 16384 ∧ off.toNat % 16 ≠ 0) ∧
  (∃ m : Master, ∃ off : BitVec 26, ∃ s : State, mayAccess s m off.toNat ∧ plainReg off.toNat .rw ∧ rMsixTable ≤ off.toNat ∧ off.toNat < rMsixTable + 0x8000 ∧ off.toNat % 16 ≠ 12) ∧
  (∃ s : State, hostOpen s = false) :=
  ⟨⟨.host, 0x2000, up, by unfold mayAccess; decide +kernel⟩,
  ⟨.host, 0x1000, up, by unfold mayAccess; decide +kernel⟩,
  ⟨.host, 0x1004, up, by unfold mayAccess; decide +kernel⟩,
  ⟨.host, 0x6020, up, by unfold mayAccess; decide +kernel⟩,
  ⟨.host, 0x800010, up, by unfold mayAccess; decide +kernel⟩,
  ⟨.host, 0x701000, up, by unfold plainReg mayAccess; decide +kernel⟩,
  ⟨.host, 0x104FF4, up, by unfold plainReg mayAccess; decide +kernel⟩,
  ⟨.host, 0xFFF8, up, by unfold plainReg mayAccess; decide +kernel⟩,
  ⟨State.reset, by decide +kernel⟩⟩

/-- The hypotheses of StatusRegisters can be met, clause by clause. -/
theorem test_hypotheses_StatusRegisters :
  (∃ m : Master, ∃ off : BitVec 26, ∃ s : State, mayAccess s m off.toNat ∧ plainReg off.toNat .rs) ∧
  (∃ bits : BitVec 24, bits ≠ 0) ∧
  (∃ m : Master, ∃ s : State, mayAccess s m rElogPop ∧ s.host.elog = []) ∧
  (∃ m : Master, ∃ s : State, ∃ w : Nat, ∃ b : Nat, ∃ es : List (Nat × Nat), mayAccess s m rElogPop ∧ s.host.elog = (w, b) :: es ∧ w < 2 ^ 26 ∧ b < 32) ∧
  (∃ m : Master, ∃ s : State, mayAccess s m rSecLogPop ∧ s.sec.log = []) ∧
  (∃ m : Master, ∃ s : State, ∃ e : Nat, ∃ p : Nat, ∃ d : Nat, ∃ es : List (Nat × Nat × Nat), mayAccess s m rSecLogPop ∧ s.sec.log = (e, p, d) :: es ∧ e < 2 ^ 15 ∧ p < 4 ∧ d < 2 ^ 14) ∧
  (∃ m : Master, ∃ s : State, mayAccess s m rSecAuthFail) :=
  ⟨⟨.host, 0x2008, up, by unfold plainReg mayAccess; decide +kernel⟩,
  ⟨1, by decide +kernel⟩,
  ⟨.host, up, by unfold mayAccess; decide +kernel⟩,
  ⟨.host, { up with host := { up.host with elog := [(0x2008, 3)] } }, 0x2008, 3, [], by unfold mayAccess; decide +kernel⟩,
  ⟨.host, up, by unfold mayAccess; decide +kernel⟩,
  ⟨.host, { up with sec := { log := [(2, 3, 0x3FFF)] } }, 2, 3, 0x3FFF, [], by unfold mayAccess; decide +kernel⟩,
  ⟨.host, up, by unfold mayAccess; decide +kernel⟩⟩

/-- The hypotheses of ModuleMemory can be met, clause by clause. -/
theorem test_hypotheses_ModuleMemory :
  (∃ s : State, ∃ a : Nat, ∃ bs : List Byte, cleanRange s.mem a bs.length ∧ distinctBytes s.mem a bs.length) ∧
  (∃ s : State, ∃ a : Nat, ∃ bs : List Byte, mappedRange s.mem a bs.length = true ∧ (∃ g ∈ gransOf s.mem a bs.length, s.mem.st[granStack g.1].emergency = true)) ∧
  (∃ s : State, ∃ a : Nat, ∃ bs : List Byte, mappedRange s.mem a bs.length = false) ∧
  (∃ s : State, ∃ a : Nat, ∃ len : Nat, cleanRange s.mem a len) ∧
  (∃ s : State, ∃ a : Nat, ∃ len : Nat, mappedRange s.mem a len = false) ∧
  (∃ s : State, ∃ g : Nat, s.mem.st[granStack g].emergency = false ∧ SMap.get false s.mem.ue g = true) :=
  ⟨⟨up, 0x7FF, [1, 2], by simp only [distinct_iff]; unfold cleanRange; decide +kernel⟩,
  ⟨allStacks { inService := true, emergency := true }, 0, [1], by decide +kernel⟩,
  ⟨up, 0x17FFFFFFFFF, [1, 2], by decide +kernel⟩,
  ⟨up, 0x3F, 2, by unfold cleanRange; decide +kernel⟩,
  ⟨State.reset, 0, 1, by decide +kernel⟩,
  ⟨{ up with mem := { up.mem with ue := [(3, true)] } }, 3, by decide +kernel⟩⟩

/-- The hypotheses of HostMemoryWindow can be met, clause by clause. -/
theorem test_hypotheses_HostMemoryWindow :
  (∃ off : BitVec 36, ∃ data : List Byte, ∃ s : State, ∃ a : Nat, hostOpen s = true ∧ malformed off.toNat data.length 512 = false ∧ inBar2 s off.toNat = true ∧ segAddr s off.toNat = some (a, true) ∧ inImage s a data.length = false ∧ cleanRange s.mem a data.length ∧ distinctBytes s.mem a data.length) ∧
  (∃ off : BitVec 36, ∃ data : List Byte, ∃ s : State, hostOpen s = true ∧ malformed off.toNat data.length 512 = false ∧ inBar2 s off.toNat = true ∧ (segAddr s off.toNat = none ∨ (∃ a, segAddr s off.toNat = some (a, false)) ∨ (∃ a, segAddr s off.toNat = some (a, true) ∧ (inImage s a data.length = true ∨ mappedRange s.mem a data.length = false)))) ∧
  (∃ off : BitVec 36, ∃ data : List Byte, ∃ s : State, hostOpen s = true ∧ malformed off.toNat data.length 512 = false ∧ inBar2 s off.toNat = false) ∧
  (∃ off : BitVec 36, ∃ data : List Byte, ∃ s : State, hostOpen s = true ∧ malformed off.toNat data.length 512 = true) ∧
  (∃ off : BitVec 36, ∃ data : List Byte, ∃ s : State, hostOpen s = true ∧ malformed off.toNat data.length 512 = false ∧ inBar2 s off.toNat = true) ∧
  (∃ off : BitVec 36, ∃ len : Nat, ∃ s : State, ∃ a : Nat, ∃ w : Bool, hostOpen s = true ∧ malformed off.toNat len 4096 = false ∧ inBar2 s off.toNat = true ∧ segAddr s off.toNat = some (a, w) ∧ cleanRange s.mem a len ∧ unpoisoned s.mem a len) ∧
  (∃ off : BitVec 36, ∃ len : Nat, ∃ s : State, ∃ a : Nat, ∃ w : Bool, hostOpen s = true ∧ malformed off.toNat len 4096 = false ∧ inBar2 s off.toNat = true ∧ segAddr s off.toNat = some (a, w) ∧ cleanRange s.mem a len ∧ (¬ unpoisoned s.mem a len)) ∧
  (∃ off : BitVec 36, ∃ len : Nat, ∃ s : State, hostOpen s = true ∧ malformed off.toNat len 4096 = false ∧ inBar2 s off.toNat = true ∧ (segAddr s off.toNat = none ∨ ∃ a w, segAddr s off.toNat = some (a, w) ∧ (inEmergency s a len = true ∨ mappedRange s.mem a len = false))) ∧
  (∃ n : Fin 7, ∃ s : State, earlyOpen s = true ∧ s.host.barSize ≠ n.val) ∧
  (∃ n : Fin 7, ∃ s : State, s.host.barSize = n.val) :=
  ⟨⟨0xFFFF000, [1], { up with regs := [(0x11000, 3)] }, 0xFFFF000, by simp only [distinct_iff]; unfold cleanRange; decide +kernel⟩,
  ⟨0, [1], up, by exact ⟨by decide +kernel, by decide +kernel, by decide +kernel, .inl (by decide +kernel)⟩⟩,
  ⟨0x400000000, [1], up, by decide +kernel⟩,
  ⟨0xFFF, [1, 2], up, by decide +kernel⟩,
  ⟨0, [1], up, by decide +kernel⟩,
  ⟨0, 4096, { up with regs := [(0x11000, 1)] }, 0, false, by unfold unpoisoned cleanRange; decide +kernel⟩,
  ⟨0, 4, { up with regs := [(0x11000, 1)], mem := { up.mem with poison := [(0, true)] } }, 0, false, by unfold unpoisoned cleanRange; decide +kernel⟩,
  ⟨0, 4, up, by exact ⟨by decide +kernel, by decide +kernel, by decide +kernel, .inl (by decide +kernel)⟩⟩,
  ⟨6, up, by decide +kernel⟩,
  ⟨4, up, by decide +kernel⟩⟩

/-- The hypotheses of HostMessages can be met, clause by clause. -/
theorem test_hypotheses_HostMessages :
  (∃ s : State, earlyOpen s = true) ∧
  (∃ s : State, ∃ v : Nat, msixOpen s v = false) ∧
  (∃ s : State, earlyOpen s = true) ∧
  (∃ s : State, earlyOpen s = true) ∧
  (∃ s : State, earlyOpen s = true ∧ s.img.sec = none) ∧
  (∃ s : State, earlyOpen s = true) ∧
  (∃ s : State, ∃ v : Fin 2048, mayAccess s .host (rMsixTable + 16 * v.val + 12) ∧ plainReg (rMsixTable + 16 * v.val + 12) .rw) ∧
  (∃ s : State, ∃ v : Fin 16, s.host.win[v] = none) ∧
  (∃ s : State, ∃ v : Fin 16, ∃ w : Window, s.host.win[v] = some w) ∧
  (∃ s : State, ∃ v : Fin 16, ∃ w : Window, s.host.win[v] = some w ∧ w.event = false) ∧
  (∃ s : State, ∃ v : Fin 16, ∃ w : Window, s.host.win[v] = some w ∧ w.event = true ∧ msixOpen s v.val = true) ∧
  (∃ s : State, ∃ v : Fin 16, ∃ w : Window, s.host.pldmWin[v] = some w ∧ w.event = false) ∧
  (∃ s : State, ∃ v : Fin 16, ∃ w : Window, s.host.pldmWin[v] = some w ∧ w.event = true) :=
  ⟨⟨up, by decide +kernel⟩,
  ⟨up, 0, by decide +kernel⟩,
  ⟨up, by decide +kernel⟩,
  ⟨up, by decide +kernel⟩,
  ⟨up, by decide +kernel⟩,
  ⟨up, by decide +kernel⟩,
  ⟨up, 2047, by unfold plainReg mayAccess; decide +kernel⟩,
  ⟨up, 15, by decide +kernel⟩,
  ⟨{ up with host := { up.host with win := Vector.replicate 16 (some ⟨5, false⟩) } }, 15, ⟨5, false⟩, by decide +kernel⟩,
  ⟨{ up with host := { up.host with win := Vector.replicate 16 (some ⟨5, false⟩) } }, 0, ⟨5, false⟩, by decide +kernel⟩,
  ⟨{ up with host := { up.host with win := Vector.replicate 16 (some ⟨5, true⟩) }, regs := [(0x800C, 0)] }, 0, ⟨5, true⟩, by decide +kernel⟩,
  ⟨{ up with host := { up.host with pldmWin := Vector.replicate 16 (some ⟨5, false⟩) } }, 0, ⟨5, false⟩, by decide +kernel⟩,
  ⟨{ up with host := { up.host with pldmWin := Vector.replicate 16 (some ⟨5, true⟩) } }, 13, ⟨5, true⟩, by decide +kernel⟩⟩

/-- The hypotheses of ArbiterRules can be met, clause by clause. -/
theorem test_hypotheses_ArbiterRules :
  (∃ o : SyncObj, ∃ n : Nat, o.err = false ∧ o.count < n) ∧
  (∃ o : SyncObj, ∃ n : Nat, o.err = false ∧ 2147483647 < o.count + n) ∧
  (∃ o : SyncObj, ∃ n : Nat, o.err = false ∧ 2147483647 < o.ahead + n) ∧
  (∃ o : SyncObj, ∃ n : Nat, o.err = false ∧ o.count + n ≤ 2147483647) ∧
  (∃ o : SyncObj, ∃ n : Nat, o.err = false ∧ o.ahead + n ≤ 2147483647) ∧
  (∃ o : SyncObj, ∃ n : Nat, o.err = false ∧ n ≤ o.count) ∧
  (∃ o : SyncObj, o.err = true) :=
  ⟨⟨{}, 1, by decide +kernel⟩,
  ⟨{ count := 2147483647 }, 1, by decide +kernel⟩,
  ⟨{ ahead := 2147483647 }, 1, by decide +kernel⟩,
  ⟨{}, 2147483647, by decide +kernel⟩,
  ⟨{}, 2147483647, by decide +kernel⟩,
  ⟨{ count := 1 }, 1, by decide +kernel⟩,
  ⟨{ err := true }, by decide +kernel⟩⟩

/-- The hypotheses of HostObjects can be met, clause by clause. -/
theorem test_hypotheses_HostObjects :
  (∃ i : Fin 32768, ∃ v : BitVec 32, ∃ s : State, hostOpen s = true ∧ bitAt v 31 = false ∧ (hostClass s i.val = 1 ∨ hostClass s i.val = 2) ∧ v.toNat ≠ 0 ∧ (getObj s (.glob i)).err = false ∧ (getObj s (.glob i)).count + v.toNat ≤ 2147483647 ∧ slotWaiters (getObj s (.glob i))) ∧
  (∃ i : Fin 32768, ∃ v : BitVec 32, ∃ s : State, hostOpen s = true ∧ bitAt v 31 = false ∧ hostClass s i.val = 2 ∧ v.toNat ≠ 0 ∧ (getObj s (.glob i)).err = false ∧ v.toNat ≤ (getObj s (.glob i)).count ∧ slotWaiters (getObj s (.glob i))) ∧
  (∃ i : Fin 32768, ∃ v : BitVec 32, ∃ s : State, hostOpen s = true ∧ bitAt v 31 = false ∧ hostClass s i.val = 2 ∧ (getObj s (.glob i)).err = false ∧ (getObj s (.glob i)).count < v.toNat) ∧
  (∃ i : Fin 32768, ∃ v : Word, ∃ s : State, hostOpen s = true ∧ fld v 31 16 = 0 ∧ hostClass s i.val = 2 ∧ (getObj s (.glob i)).gen = v.setWidth 16 ∧ slotWaiters (getObj s (.glob i))) ∧
  (∃ i : Fin 32768, ∃ v : Word, ∃ s : State, hostOpen s = true ∧ fld v 31 16 = 0 ∧ hostClass s i.val = 2 ∧ (getObj s (.glob i)).gen ≠ v.setWidth 16) ∧
  (∃ i : Fin 32768, ∃ v : BitVec 32, ∃ s : State, hostOpen s = true ∧ (bitAt v 31 = true ∨ (hostClass s i.val ≠ 1 ∧ hostClass s i.val ≠ 2))) ∧
  (∃ i : Fin 32768, ∃ v : BitVec 32, ∃ s : State, hostOpen s = true ∧ (bitAt v 31 = true ∨ hostClass s i.val ≠ 2)) ∧
  (∃ i : Fin 32768, ∃ v : Word, ∃ s : State, hostOpen s = true ∧ (fld v 31 16 ≠ 0 ∨ hostClass s i.val ≠ 2)) :=
  ⟨⟨0, 0x7FFFFFFF, up, by unfold slotWaiters; decide +kernel⟩,
  ⟨16, 1, { up with sync := { glob := [(16, { count := 1 })] } }, by unfold slotWaiters; decide +kernel⟩,
  ⟨32767, 1, up, by decide +kernel⟩,
  ⟨16, 0, up, by unfold slotWaiters; decide +kernel⟩,
  ⟨16, 1, up, by decide +kernel⟩,
  ⟨15, 1, up, by decide +kernel⟩,
  ⟨0, 1, up, by decide +kernel⟩,
  ⟨16, 0x10000, up, by decide +kernel⟩⟩

/-- The hypotheses of HostWaits can be met, clause by clause. -/
theorem test_hypotheses_HostWaits :
  (∃ n : Fin 1024, ∃ v : BitVec 32, ∃ s : State, ∃ i : Fin 32768, mayAccess s .host (rHwObj + 16 * n.val) ∧ plainReg (rHwObj + 16 * n.val) .rw ∧ bitAt v 31 = true ∧ ctlBit s rSyncCtl 1 = true ∧ slotArmed s n = false ∧ 64 ≤ fld v 25 15 ∧ 16 ≤ fld v 14 0 ∧ (bitAt v 30 = true → hostClass s (fld v 14 0) = 2) ∧ i.val = fld v 14 0 ∧ (getObj s (.glob i)).err = false ∧ (getObj s (.glob i)).waiters = []) ∧
  (∃ n : Fin 1024, ∃ v : BitVec 32, ∃ s : State, mayAccess s .host (rHwObj + 16 * n.val) ∧ plainReg (rHwObj + 16 * n.val) .rw ∧ bitAt v 31 = true ∧ ctlBit s rSyncCtl 1 = true ∧ slotArmed s n = false ∧ (fld v 25 15 < 64 ∨ fld v 14 0 < 16 ∨ (bitAt v 30 = true ∧ hostClass s (fld v 14 0) ≠ 2))) ∧
  (∃ n : Fin 1024, ∃ v : BitVec 32, ∃ s : State, mayAccess s .host (rHwObj + 16 * n.val) ∧ plainReg (rHwObj + 16 * n.val) .rw ∧ bitAt v 31 = true ∧ ctlBit s rSyncCtl 1 = false) ∧
  (∃ n : Fin 1024, ∃ v : BitVec 32, ∃ s : State, ∃ i : Fin 32768, mayAccess s .host (rHwObj + 16 * n.val) ∧ plainReg (rHwObj + 16 * n.val) .rw ∧ bitAt v 31 = false ∧ slotArmed s n = true ∧ i.val = fld (reg s (rHwObj + 16 * n.val)) 14 0 ∧ slotWaiters (getObj s (.glob i))) ∧
  (∃ v : BitVec 32, ∃ s : State, mayAccess s .host rSyncCtl ∧ ctlBit s rSyncCtl 1 = true ∧ bitAt v 17 = true ∧ bitAt v 1 = false ∧ (∀ i, unserved (getObj s (.glob i)))) ∧
  (∃ i : Fin 32768, ∃ n : Fin 1024, ∃ s : State, ∃ w : Waiter, ∃ e : Nat, (getObj s (.glob i)).waiters.find? (fun w => decide (w.who = .slot n)) = some w ∧ w.deadline = some e ∧ slotArmed s n = true ∧ unserved (getObj s (.glob i))) ∧
  (∃ o : ObjRef, ∃ d : Die, ∃ c : Sid, ∃ s : State, ∃ w : Waiter, ∃ e : Nat, ∃ x : BitVec 512, (getObj s o).waiters.find? (fun w => decide (w.who = .stream d c)) = some w ∧ w.deadline = some e ∧ unserved (getObj s o) ∧ (str s d c).prologue = true ∧ (str s d c).cur = some x ∧ s.img.st ≠ .none) ∧
  (∃ o : ObjRef, ∃ d : Die, ∃ c : Sid, ∃ s : State, ∃ w : Waiter, ∃ e : Nat, ∃ x : BitVec 512, (getObj s o).waiters.find? (fun w => decide (w.who = .stream d c)) = some w ∧ w.deadline = some e ∧ unserved (getObj s o) ∧ (str s d c).prologue = false ∧ (str s d c).poison = false ∧ (str s d c).pass2 = false ∧ (str s d c).cur = some x) :=
  ⟨⟨1023, 0x80200010, up, 16, by unfold plainReg mayAccess; decide +kernel⟩,
  ⟨0, 0x8020000F, up, by unfold plainReg mayAccess; decide +kernel⟩,
  ⟨0, 0x80200010, { up with regs := [(0x100000, 0)] }, by unfold plainReg mayAccess; decide +kernel⟩,
  ⟨0, 0, { up with regs := [(0x101000, 0x80200010)] }, 16, by unfold slotWaiters plainReg mayAccess; decide +kernel⟩,
  ⟨0x20000, up, by exact ⟨by unfold mayAccess; decide +kernel, by decide +kernel, by decide +kernel, by decide +kernel, fun i => calm _ (by decide +kernel) (.glob i)⟩⟩,
  ⟨16, 0, { up with regs := [(0x101000, 0x80200010)], sync := waited (.slot 0) }, ⟨.slot 0, false, 1, some 500⟩, 500, by exact ⟨by decide +kernel, by decide +kernel, by decide +kernel, by unfold unserved; decide +kernel⟩⟩,
  ⟨.glob 16, 0, .f, on { at' 0 with prologue := true } { run with sync := waited (.stream 0 .f) }, ⟨.stream 0 .f, false, 1, some 500⟩, 500, 0, by exact ⟨by decide +kernel, by decide +kernel, by unfold unserved; decide +kernel, by decide +kernel, by decide +kernel, by decide +kernel⟩⟩,
  ⟨.glob 16, 23, .t, on (at' 0) { run with sync := waited (.stream 23 .t) }, ⟨.stream 23 .t, false, 1, some 500⟩, 500, 0, by exact ⟨by decide +kernel, by decide +kernel, by unfold unserved; decide +kernel, by decide +kernel, by decide +kernel, by decide +kernel, by decide +kernel⟩⟩⟩

/-- The hypotheses of MemoryMaintenance can be met, clause by clause. -/
theorem test_hypotheses_MemoryMaintenance :
  (∃ n : Stack, ∃ s : State, s.mem.st[n].inService = true ∧ s.mem.st[n].emergency = false ∧ s.mem.parity = 0 ∧ (∀ m : Stack, s.mem.st[m].repairs = []) ∧ (∀ i, i < 32 → SMap.get false s.mem.ue ((n.val * 2 ^ 36 + s.mem.st[n].scrubPos) / 64 + i) = false ∧ SMap.get false s.mem.ce ((n.val * 2 ^ 36 + s.mem.st[n].scrubPos) / 64 + i) = false)) ∧
  (∃ n : Stack, ∃ s : State, (s.mem.st[n].inService = false ∨ s.mem.st[n].emergency = true)) ∧
  (∃ n : Stack, ∃ row : Nat, ∃ s : State, s.mem.st[n].repairs.find? (fun r => decide (r / 2 ^ 36 = row / 2 ^ 36)) = some row) ∧
  (∃ n : Stack, ∃ row : Nat, ∃ r : CeRow, ∃ s : State, s.mem.st[n].ceRows.find? (fun r => decide (r.row = row)) = some r) ∧
  (∃ s : State, ∃ g : Nat, SMap.get false s.mem.ce g = true ∧ SMap.get false s.mem.ue g = false ∧ s.mem.st[granStack g].emergency = false ∧ s.mem.st[granStack g].ceRows = [] ∧ 1 < s.mem.rowCeLimit) :=
  ⟨⟨23, up, by decide +kernel⟩,
  ⟨0, State.reset, by decide +kernel⟩,
  ⟨0, 7, allStacks { inService := true, repairs := [7] }, by decide +kernel⟩,
  ⟨0, 7, ⟨7, [9]⟩, allStacks { inService := true, ceRows := [⟨7, [9]⟩] }, by decide +kernel⟩,
  ⟨{ up with mem := { up.mem with ce := [(3, true)] } }, 3, by decide +kernel⟩⟩

/-- The hypotheses of StackTemperatures can be met, clause by clause. -/
theorem test_hypotheses_StackTemperatures :
  (∃ n : Stack, ∃ x : Int, ∃ s : State, s.mem.st[n].inService = true ∧ s.mem.bandOffsets = [] ∧ s.mem.st[n].emergency = false ∧ s.mem.st[n].fails < 3 ∧ s.mem.st[n].band ≤ 4 ∧ 380 ≤ x) ∧
  (∃ n : Stack, ∃ x : Int, ∃ s : State, s.mem.st[n].inService = true ∧ s.mem.bandOffsets = [] ∧ s.mem.st[n].emergency = false ∧ s.mem.st[n].fails < 3 ∧ s.mem.st[n].band ≤ 4 ∧ x < 380) ∧
  (∃ n : Stack, ∃ s : State, s.mem.st[n].inService = true ∧ s.mem.bandOffsets = [] ∧ s.mem.st[n].emergency = true) ∧
  (∃ n : Stack, ∃ s : State, s.mem.st[n].inService = true ∧ s.mem.st[n].emergency = false ∧ s.mem.st[n].fails = 2 ∧ s.mem.st[n].band ≤ 4) ∧
  (∃ n : Stack, ∃ s : State, s.mem.st[n].inService = true ∧ s.mem.st[n].fails ≠ 0 ∧ s.mem.st[n].emergency = false) ∧
  (∃ s : State, ∃ x : Nat, s.mem.slowRepeat = some x) ∧
  (∃ s : State, ∃ p : Half, SMap.get 0 s.mem.peerSlow p.toNat ≠ 0) ∧
  (∃ s : State, ∃ p : Packet, ∃ ch : Chan, accepted s ptThermalSlow p ch ∧ bitAt p.addr 0 = true) ∧
  (∃ s : State, ∃ p : Packet, ∃ ch : Chan, accepted s ptThermalSlow p ch ∧ bitAt p.addr 0 = false) :=
  ⟨⟨0, 380, up, by decide +kernel⟩,
  ⟨0, 379, up, by decide +kernel⟩,
  ⟨0, allStacks { inService := true, emergency := true }, by decide +kernel⟩,
  ⟨0, allStacks { inService := true, fails := 2, band := 4 }, by decide +kernel⟩,
  ⟨0, allStacks { inService := true, fails := 1 }, by decide +kernel⟩,
  ⟨{ up with mem := { up.mem with slowRepeat := some 9 } }, 9, by decide +kernel⟩,
  ⟨{ up with mem := { up.mem with peerSlow := [(0x41, 9)] } }, 0x41, by decide +kernel⟩,
  ⟨up, crcd ({ pkt 0x32 3 with addr := 1 }), ch0, by unfold accepted; decide +kernel⟩,
  ⟨up, crcd (pkt 0x32 3), ch0, by unfold accepted; decide +kernel⟩⟩

/-- The hypotheses of DescriptorFetch can be met, clause by clause. -/
theorem test_hypotheses_DescriptorFetch :
  (∃ s : State, ∃ d : Die, ∃ c : Sid, fetchable s d c ∧ dSeq (descAt s (str s d c).pc) = (str s d c).expect ∧ (str s d c).poison = false ∧ staticFault c (str s d c).inBody (descAt s (str s d c).pc) = none) ∧
  (∃ s : State, ∃ d : Die, ∃ c : Sid, fetchable s d c ∧ dSeq (descAt s (str s d c).pc) = (str s d c).expect ∧ (str s d c).poison = true ∧ dRunOnPoison (descAt s (str s d c).pc) = false ∧ (str s d c).pc ≠ (str s d c).endAddr) ∧
  (∃ s : State, ∃ d : Die, ∃ c : Sid, (mayAct s d c = false ∨ (str s d c).cur ≠ none)) ∧
  (∃ s : State, ∃ d : Die, ∃ c : Sid, fetchable s d c ∧ dSeq (descAt s (str s d c).pc) ≠ (str s d c).expect ∧ inStep s d c ∧ s.coll.active = [] ∧ notWaiting s d c) ∧
  (∃ s : State, ∃ d : Die, ∃ c : Sid, mayAct s d c = true ∧ (str s d c).cur = none ∧ pcOk s (str s d c).pc = false ∧ (str s d c).prologue = true) ∧
  (∃ s : State, ∃ d : Die, ∃ c : Sid, fetchable s d c ∧ dSeq (descAt s (str s d c).pc) ≠ (str s d c).expect ∧ (str s d c).prologue = false ∧ (str s d c).poison = true) :=
  ⟨⟨on free' { run with mem := { run.mem with hbm := [(0x100040, 2)] } }, 23, .t, by unfold fetchable unpoisoned cleanRange; decide +kernel⟩,
  ⟨on { free' with poison := true } run, 0, .f, by unfold fetchable unpoisoned cleanRange; decide +kernel⟩,
  ⟨up, 0, .f, by decide +kernel⟩,
  ⟨on { free' with expect := 1 } run, 0, .f, by exact ⟨by unfold fetchable unpoisoned cleanRange; decide +kernel, by decide +kernel, by unfold inStep; decide +kernel, by decide +kernel, alone _ _ _ (by decide +kernel)⟩⟩,
  ⟨on { free' with pc := 0x100041, prologue := true } run, 0, .f, by decide +kernel⟩,
  ⟨on { free' with expect := 1, poison := true } run, 0, .f, by unfold fetchable unpoisoned cleanRange; decide +kernel⟩⟩

/-- The hypotheses of Gates can be met, clause by clause. -/
theorem test_hypotheses_Gates :
  (∃ s : State, ∃ d : Die, ∃ c : Sid, ∃ w : BitVec 512, ∃ i : Instr, atIssue s d c (dType w) = some w ∧ issueRow d c w i ∧ (dType w = 3 → dOp w ≤ 1) ∧ (dType w = 5 → wtMode w ≤ 1) ∧ modeSettled s d c w ∧ gateRuns s (str s d c) w = false) ∧
  (∃ w : BitVec 512, dGate w = 0) ∧
  (∃ x : Stream, ∃ w : BitVec 512, dGate w ≠ 0 ∧ x.inBody = false) ∧
  (∃ x : Stream, ∃ w : BitVec 512, dGate w = 6 ∧ x.inBody = true) ∧
  (∃ s : State, ∃ x : Stream, ∃ p : JobParams, ∃ n : Nat, params s = some p ∧ x.inBody = true ∧ n = x.step.toNat) ∧
  (∃ c : Sid, ∃ b : Bool, ∃ w : BitVec 512, dGate w = 1 ∧ dLayer w = 0xFFFF ∧ typeBad c b w = false) ∧
  (∃ s : State, ∃ d : Die, ∃ c : Sid, ∃ w : BitVec 512, ∃ i : Instr, atIssue s d c (dType w) = some w ∧ issueRow d c w i ∧ (dType w = 3 → dOp w ≤ 1) ∧ (dType w = 5 → wtMode w ≤ 1) ∧ (stashTake s d c w).1 = true) ∧
  (∃ s : State, ∃ d : Die, ∃ w : BitVec 512, ∃ l : StashLayer, (str s d .f).inBody = true ∧ (str s d .f).poison = false ∧ stashPlan s (dLayer w).toNat = some l ∧ stashSettled s (str s d .f).attempt (dLayer w).toNat = false ∧ l.full = true ∧ recomputeFlag s (str s d .f).attempt (dLayer w).toNat = false ∧ poolFits l.fullPages (stashFree s) = true) ∧
  (∃ s : State, ∃ c : Sid, ∃ att : DWord, ∃ w : BitVec 512, ∃ a : Attempt, attempt s att = some a ∧ c = .b ∧ dGate w = 1) :=
  ⟨⟨on (at' (dsc [(0, 4), (1, 4)])) run, 0, .f, dsc [(0, 4), (1, 4)], .signal 0 .f, by refine ⟨by decide +kernel, ?_, by decide +kernel, by decide +kernel, by unfold modeSettled; decide +kernel, by decide +kernel⟩; unfold issueRow; rw [show dType (dsc [(0, 4), (1, 4)]) = 4 from by decide +kernel]; rfl⟩,
  ⟨0, by decide +kernel⟩,
  ⟨{}, dsc [(1, 4)], by decide +kernel⟩,
  ⟨{ inBody := true }, dsc [(1, 24)], by decide +kernel⟩,
  ⟨run, { inBody := true }, prm, 0, by decide +kernel⟩,
  ⟨.f, true, dsc [(0, 3), (1, 4), (2, 0xFFFF)], by decide +kernel⟩,
  ⟨on (at' (dsc [(0, 4), (1, 4)])) run, 0, .f, dsc [(0, 4), (1, 4)], .signal 0 .f, by refine ⟨by decide +kernel, ?_, by decide +kernel, by decide +kernel, by decide +kernel⟩; unfold issueRow; rw [show dType (dsc [(0, 4), (1, 4)]) = 4 from by decide +kernel]; rfl⟩,
  ⟨on free' run, 0, dsc [(2, 5)], ⟨5, true, [4], [1]⟩, by decide +kernel⟩,
  ⟨run, .b, 7, dsc [(1, 4)], { att := 7, step := 3 }, by decide +kernel⟩⟩

/-- The hypotheses of Signals can be met, clause by clause. -/
theorem test_hypotheses_Signals :
  (∃ s : State, ∃ i : Fin 32768, ∃ n : Nat, (getObj s (.glob i)).err = false ∧ (getObj s (.glob i)).waiters = [] ∧ (getObj s (.glob i)).count + n ≤ 2147483647) ∧
  (∃ s : State, ∃ d : Die, ∃ i : Fin 4096, ∃ n : Nat, ∃ tag : Option Half, (getObj s (.loc d i)).err = false ∧ (getObj s (.loc d i)).waiters = [] ∧ (getObj s (.loc d i)).count + n ≤ 2147483647 ∧ (tag = none ∨ tag = some (getObj s (.loc d i)).gen)) ∧
  (∃ s : State, ∃ d : Die, ∃ i : Fin 4096, ∃ n : Nat, (getObj s (.loc d i)).err = false ∧ (getObj s (.loc d i)).ahead + n ≤ 2147483647) ∧
  (∃ s : State, ∃ d : Die, ∃ i : Fin 4096, ∃ k : Half, (getObj s (.loc d i)).err = false ∧ k ≠ 0 ∧ k.toNat < 32768) ∧
  (∃ s : State, ∃ d : Die, ∃ c : Sid, ∃ w : BitVec 512, issuing s d c 4 w ∧ sgTarget w = 0) ∧
  (∃ s : State, ∃ d : Die, ∃ c : Sid, ∃ w : BitVec 512, issuing s d c 5 w ∧ wtMode w = 0 ∧ (getObj s (refObj d (wtRef w))).err = false ∧ (getObj s (refObj d (wtRef w))).waiters = [] ∧ wtValue w ≤ (getObj s (refObj d (wtRef w))).count) ∧
  (∃ s : State, ∃ d : Die, ∃ c : Sid, ∃ w : BitVec 512, issuing s d c 5 w ∧ wtMode w = 1 ∧ (getObj s (refObj d (wtRef w))).err = false ∧ (getObj s (refObj d (wtRef w))).waiters = [] ∧ wtValue w ≤ (getObj s (refObj d (wtRef w))).count) ∧
  (∃ s : State, ∃ d : Die, ∃ c : Sid, ∃ w : BitVec 512, issuing s d c 5 w ∧ (getObj s (refObj d (wtRef w))).err = false ∧ (getObj s (refObj d (wtRef w))).waiters = [] ∧ (getObj s (refObj d (wtRef w))).count < wtValue w ∧ wtMode w ≤ 1) ∧
  (∃ s : State, ∃ d : Die, ∃ c : Sid, ∃ w : BitVec 512, issuing s d c 5 w ∧ (getObj s (refObj d (wtRef w))).err = true ∧ wtMode w ≤ 1 ∧ (str s d c).prologue = false) :=
  ⟨⟨up, 16, 0x7FFFFFFF, by decide +kernel⟩,
  ⟨up, 23, 4095, 0x7FFFFFFF, some 0, by decide +kernel⟩,
  ⟨up, 0, 0, 0x7FFFFFFF, by decide +kernel⟩,
  ⟨up, 0, 0, 0x7FFF, by decide +kernel⟩,
  ⟨on (at' (dsc [(0, 4)])) run, 0, .u, dsc [(0, 4)], by unfold issuing modeSettled; decide +kernel⟩,
  ⟨on (at' (dsc [(0, 5), (0xC, 0x8010)])) run, 0, .u, dsc [(0, 5), (0xC, 0x8010)], by unfold issuing modeSettled; decide +kernel⟩,
  ⟨on (at' (dsc [(0, 5), (0xC, 0x8010), (0x14, 1)])) run, 0, .u, dsc [(0, 5), (0xC, 0x8010), (0x14, 1)], by unfold issuing modeSettled; decide +kernel⟩,
  ⟨on (at' (dsc [(0, 5), (0xC, 0x8010), (0x10, 1)])) run, 0, .u, dsc [(0, 5), (0xC, 0x8010), (0x10, 1)], by unfold issuing modeSettled; decide +kernel⟩,
  ⟨on (at' (dsc [(0, 5), (0xC, 0x8010), (0x14, 1)])) { run with sync := { glob := [(16, { err := true })] } }, 0, .u, dsc [(0, 5), (0xC, 0x8010), (0x14, 1)], by unfold issuing modeSettled; decide +kernel⟩⟩

/-- The hypotheses of Moves can be met, clause by clause. -/
theorem test_hypotheses_Moves :
  (∃ s : State, ∃ d : Die, ∃ c : Sid, ∃ w : BitVec 512, issuing s d c 3 w ∧ dOp w = 0 ∧ mvSrcSpace w = 0 ∧ mvDstSpace w = 0 ∧ moveRangeOk s d w = true ∧ inUnit (str s d c) .move < 8 ∧ moveOverlaps d w = false ∧ mvRowBytes w % 64 = 0 ∧ mvRowBytes w ≤ mvDstPitch w ∧ soundStore s d) ∧
  (∃ s : State, ∃ d : Die, ∃ c : Sid, ∃ w : BitVec 512, issuing s d c 3 w ∧ dOp w = 1 ∧ mvDstSpace w = 0 ∧ moveRangeOk s d w = true ∧ inUnit (str s d c) .move < 8 ∧ mvRowBytes w ≤ mvDstPitch w ∧ soundStore s d) ∧
  (∃ s : State, ∃ d : Die, ∃ c : Sid, ∃ w : BitVec 512, issuing s d c 3 w ∧ dOp w = 0 ∧ mvSrcSpace w = 0 ∧ mvDstSpace w = 1 ∧ moveRangeOk s d w = true ∧ inUnit (str s d c) .move < 8 ∧ mvRows w = 1 ∧ mvRowBytes w = 64 ∧ soundStore s d ∧ cleanRange s.mem (mvDst w) 64 ∧ distinctBytes s.mem (mvDst w) 64) ∧
  (∃ s : State, ∃ d : Die, ∃ c : Sid, ∃ i : Nat, ∃ e : InFlight, findInflight (str s d c) .move i = some e ∧ e.bad = false ∧ e.silent = false) ∧
  (∃ s : State, ∃ d : Die, ∃ c : Sid, ∃ i : Nat, ∃ e : InFlight, findInflight (str s d c) .move i = some e ∧ e.bad = true ∧ e.silent = false ∧ inStep s d c ∧ s.coll.active = [] ∧ (∀ o, unserved (getObj s o))) ∧
  (∃ s : State, ∃ d : Die, ∃ c : Sid, ∃ w : BitVec 512, issuing s d c 3 w ∧ dOp w ≤ 1 ∧ moveRangeOk s d w = false ∧ inStep s d c ∧ s.coll.active = [] ∧ (∀ o, unserved (getObj s o))) ∧
  (∃ s : State, ∃ d : Die, ∃ c : Sid, ∃ w : BitVec 512, issuing s d c 3 w ∧ dOp w ≤ 1 ∧ moveRangeOk s d w = true ∧ 8 ≤ inUnit (str s d c) .move) :=
  ⟨⟨on (at' (dsc [(0, 3), (0x18, 64), (0x20, 64), (0x24, 1), (0x30, 64)])) run, 0, .f, dsc [(0, 3), (0x18, 64), (0x20, 64), (0x24, 1), (0x30, 64)], by unfold soundStore issuing modeSettled; decide +kernel⟩,
  ⟨on (at' (dsc [(0, 3), (0xC, 1), (0x20, 64), (0x24, 1), (0x30, 64)])) run, 0, .f, dsc [(0, 3), (0xC, 1), (0x20, 64), (0x24, 1), (0x30, 64)], by unfold soundStore issuing modeSettled; decide +kernel⟩,
  ⟨on (at' (dsc [(0, 3), (0xD, 4), (0x18, 0x8000), (0x20, 64), (0x24, 1), (0x30, 64)])) run, 0, .f, dsc [(0, 3), (0xD, 4), (0x18, 0x8000), (0x20, 64), (0x24, 1), (0x30, 64)], by simp only [distinct_iff]; unfold soundStore issuing modeSettled cleanRange; decide +kernel⟩,
  ⟨on { at' 0 with inflight := [⟨4, .move, 0, 0, 0, false, false, false⟩] } run, 0, .b, 4, ⟨4, .move, 0, 0, 0, false, false, false⟩, by decide +kernel⟩,
  ⟨on { at' 0 with inflight := [⟨4, .move, 0, 0, 0, false, true, false⟩] } run, 0, .b, 4, ⟨4, .move, 0, 0, 0, false, true, false⟩, by exact ⟨by decide +kernel, by decide +kernel, by decide +kernel, by unfold inStep; decide +kernel, by decide +kernel, calm _ (by decide +kernel)⟩⟩,
  ⟨on (at' (dsc [(0, 3), (0x18, 0x4000000), (0x20, 64), (0x24, 1), (0x30, 64)])) run, 0, .f, dsc [(0, 3), (0x18, 0x4000000), (0x20, 64), (0x24, 1), (0x30, 64)], by exact ⟨by unfold issuing modeSettled; decide +kernel, by decide +kernel, by decide +kernel, by unfold inStep; decide +kernel, by decide +kernel, calm _ (by decide +kernel)⟩⟩,
  ⟨on { at' (dsc [(0, 3), (0xC, 1), (0x20, 64), (0x24, 1), (0x30, 64)]) with inflight := List.replicate 8 ⟨4, .move, 0, 0, 0, false, false, false⟩ } run, 0, .f, dsc [(0, 3), (0xC, 1), (0x20, 64), (0x24, 1), (0x30, 64)], by unfold issuing modeSettled; decide +kernel⟩⟩

/-- The hypotheses of StepDescriptors can be met, clause by clause. -/
theorem test_hypotheses_StepDescriptors :
  (∃ s : State, ∃ d : Die, ∃ c : Sid, ∃ w : BitVec 512, issuing s d c 7 w ∧ dOp w = 0 ∧ dfld w 0x12 2 = 0 ∧ dDoneCount w = 0 ∧ s.upd.rehome = [] ∧ s.step.stopStep = none ∧ dfld w 0x18 8 = 0 ∧ s.step.remotePoison = [] ∧ verdictOf s (nextAttempt s (str s d c)) ≠ some .poison ∧ ((str s d c).begunAny = false ∨ verdictOf s (str s d c).attempt = some .clear ∨ (verdictOf s (str s d c).attempt = some .poison ∧ ∃ a, attempt s (str s d c).attempt = some a ∧ a.recorded = true))) ∧
  (∃ s : State, ∃ d : Die, ∃ c : Sid, ∃ w : BitVec 512, issuing s d c 7 w ∧ dOp w = 0 ∧ (str s d c).begunAny = true ∧ attempt s (str s d c).attempt ≠ none ∧ (verdictOf s (str s d c).attempt = none ∨ verdictOf s (str s d c).attempt = some .indeterminate)) ∧
  (∃ s : State, ∃ d : Die, ∃ c : Sid, ∃ w : BitVec 512, ∃ m : DWord, issuing s d c 7 w ∧ dOp w = 0 ∧ (str s d c).begunAny = true ∧ verdictOf s (str s d c).attempt = some .clear ∧ s.step.stopStep = some m ∧ m.toNat < ((str s d c).step + 1).toNat) ∧
  (∃ s : State, ∃ d : Die, ∃ c : Sid, ∃ w : BitVec 512, issuing s d c 7 w ∧ dOp w = 1) ∧
  (∃ s : State, ∃ d : Die, ∃ c : Sid, ∃ w : BitVec 512, issuing s d c 7 w ∧ dOp w = 2 ∧ verdictOf s (str s d c).attempt = some .clear) ∧
  (∃ s : State, ∃ d : Die, ∃ c : Sid, ∃ w : BitVec 512, issuing s d c 7 w ∧ dOp w = 2 ∧ verdictOf s (str s d c).attempt = some .poison ∧ (str s d c).poison = false ∧ s.coll.active = []) ∧
  (∃ s : State, ∃ d : Die, (attempt s (str s d .u).attempt).any (·.finisher) = false ∧ s.upd.fault = true ∧ (s.upd.p2.any fun q => decide (q.att = (str s d .u).attempt)) = true) ∧
  (∃ s : State, ∃ d : Die, ∃ c : Sid, (c ≠ .u ∨ ((attempt s (str s d .u).attempt).any (·.finisher) = false ∧ s.upd.fault = false))) ∧
  (∃ s : State, ∃ d : Die, ∃ c : Sid, ∃ w : BitVec 512, issuing s d c 7 w ∧ dOp w = 2 ∧ verdictOf s (str s d c).attempt = none) ∧
  (∃ s : State, ∃ d : Die, ∃ c : Sid, ∃ w : BitVec 512, ∃ v : Word, issuing s d c 7 w ∧ dOp w = 3 ∧ cleanRange s.mem (dfld w 0x10 8) 4 ∧ unpoisoned s.mem (dfld w 0x10 8) 4 ∧ v = w32 (leNat ((List.range 4).map fun i => byteAt s.mem (dfld w 0x10 8 + i)))) :=
  ⟨⟨on (at' (dsc [(0, 7)])) (verd (some .clear) run), 0, .f, dsc [(0, 7)], by exact ⟨by unfold issuing modeSettled; decide +kernel, by decide +kernel, by decide +kernel, by decide +kernel, by decide +kernel, by decide +kernel, by decide +kernel, by decide +kernel, by decide +kernel, .inr (.inl (by decide +kernel))⟩⟩,
  ⟨on (at' (dsc [(0, 7)])) (verd (some .indeterminate) run), 0, .f, dsc [(0, 7)], by unfold issuing modeSettled; decide +kernel⟩,
  ⟨on (at' (dsc [(0, 7)])) { verd (some .clear) run with step := { (verd (some .clear) run).step with stopStep := some 3 } }, 0, .f, dsc [(0, 7)], 3, by unfold issuing modeSettled; decide +kernel⟩,
  ⟨on (at' (dsc [(0, 7), (0xC, 1)])) run, 0, .f, dsc [(0, 7), (0xC, 1)], by unfold issuing modeSettled; decide +kernel⟩,
  ⟨on (at' (dsc [(0, 7), (0xC, 2)])) (verd (some .clear) run), 0, .u, dsc [(0, 7), (0xC, 2)], by unfold issuing modeSettled; decide +kernel⟩,
  ⟨on (at' (dsc [(0, 7), (0xC, 2)])) (verd (some .poison) run), 0, .u, dsc [(0, 7), (0xC, 2)], by unfold issuing modeSettled; decide +kernel⟩,
  ⟨updst { p2 := some q2, fault := true } (on free' run), 0, by decide +kernel⟩,
  ⟨run, 0, .f, by exact .inl (by decide)⟩,
  ⟨on (at' (dsc [(0, 7), (0xC, 2)])) run, 0, .u, dsc [(0, 7), (0xC, 2)], by unfold issuing modeSettled; decide +kernel⟩,
  ⟨on (at' (dsc [(0, 7), (0xC, 3), (0x10, 0x1000)])) run, 0, .f, dsc [(0, 7), (0xC, 3), (0x10, 0x1000)], 0, by unfold issuing modeSettled unpoisoned cleanRange; decide +kernel⟩⟩

/-- The hypotheses of ArrayOperations can be met, clause by clause. -/
theorem test_hypotheses_ArrayOperations :
  (∃ s : State, ∃ d : Die, ∃ c : Sid, ∃ w : BitVec 512, issuing s d c 1 w ∧ formatBad w = false ∧ itemsBad w = false ∧ arrayRangeOk w = true ∧ (die s d).arr.op = none ∧ inUnit (str s d c) .array = 0) ∧
  (∃ s : State, ∃ d : Die, ∃ c : Sid, ∃ w : BitVec 512, issuing s d c 1 w ∧ formatBad w = false ∧ itemsBad w = false ∧ arrayRangeOk w = true ∧ ((die s d).arr.op ≠ none ∨ 1 ≤ inUnit (str s d c) .array)) ∧
  (∃ s : State, ∃ d : Die, ∃ c : Sid, ∃ w : BitVec 512, issuing s d c 1 w ∧ formatBad w = true ∧ inStep s d c ∧ s.coll.active = []) ∧
  (∃ s : State, ∃ c : Sid, ∃ g : Half, gangWhole s = true ∧ (armOrder s).find? (allReady s) = some c ∧ (∀ d, (die s d).arr.ready.get c = some g) ∧ (∀ d, (str s d c).cur ≠ none) ∧ (∀ d, notWaiting s d c)) ∧
  (∃ s : State, ∃ c : Sid, gangWhole s = true ∧ (armOrder s).find? (allReady s) = some c ∧ (∃ d e, (die s d).arr.ready.get c ≠ (die s e).arr.ready.get c) ∧ (∀ d, inStep s d c) ∧ s.coll.active = []) ∧
  (∃ s : State, ∃ c : Sid, ∃ t0 : Nat, s.gang.get c = some t0 ∧ (reg s rArmTimeout).toNat ≠ 0 ∧ allReady s c = false ∧ (∀ d, inStep s d c) ∧ s.coll.active = [] ∧ (∀ d, ((die s d).arr.ready.get c).isSome = true → opRuns s d c = false)) ∧
  (∃ ts : List (Die × Half), ts ≠ []) ∧
  (∃ s : State, gangWhole s = false) :=
  ⟨⟨on (at' (dsc [(0, 1), (0xE, 0x110), (0x20, 256), (0x24, 64), (0x28, 256), (0x2C, 64), (0x30, 256), (0x38, 1), (0x3A, 1), (0x3C, 1)])) run, 0, .f, dsc [(0, 1), (0xE, 0x110), (0x20, 256), (0x24, 64), (0x28, 256), (0x2C, 64), (0x30, 256), (0x38, 1), (0x3A, 1), (0x3C, 1)], by unfold issuing modeSettled; decide +kernel⟩,
  ⟨on { at' (dsc [(0, 1), (0xE, 0x110), (0x3A, 1)]) with inflight := [⟨4, .array, 0, 0, 0, false, false, false⟩] } run, 0, .f, dsc [(0, 1), (0xE, 0x110), (0x3A, 1)], by unfold issuing modeSettled; decide +kernel⟩,
  ⟨on (at' (dsc [(0, 1), (0xE, 0xF0)])) run, 0, .f, dsc [(0, 1), (0xE, 0xF0)], by unfold inStep issuing modeSettled; decide +kernel⟩,
  ⟨dies (arr { ready := ⟨some 5, none, none, none⟩ }) run, .f, 5, by exact ⟨by decide +kernel, by decide +kernel, by decide +kernel, by decide +kernel, fun d => alone _ _ _ (by decide +kernel)⟩⟩,
  ⟨{ run with dies := (Vector.replicate 24 (arr { ready := ⟨some 5, none, none, none⟩ })).set 23 (arr { ready := ⟨some 6, none, none, none⟩ }) }, .f, by unfold inStep; decide +kernel⟩,
  ⟨{ up with gang := ⟨some 9, none, none, none⟩, regs := [(rArmTimeout, 5)] }, .f, 9, by unfold inStep; decide +kernel⟩,
  ⟨[(0, 5)], by decide +kernel⟩,
  ⟨State.reset, by decide +kernel⟩⟩

/-- The hypotheses of FinishedTiles can be met, clause by clause. -/
theorem test_hypotheses_FinishedTiles :
  (∃ s : State, ∃ d : Die, ∃ o : ArrOp, (die s d).arr.op = some o ∧ o.ends ≤ o.next ∧ o.poison = false ∧ o.reset = false) ∧
  (∃ s : State, ∃ d : Die, ∃ o : ArrOp, ∃ e : InFlight, ∃ js : List Nat, (die s d).arr.op = some o ∧ o.ends ≤ o.next ∧ js ≠ [] ∧ findInflight (str s d o.c) .array o.id = some e ∧ e.onPath = false ∧ inStep s d o.c ∧ s.coll.active = []) ∧
  (∃ s : State, ∃ d : Die, ∃ x : Tile, ∃ k : Nat, (die s d).arr.draining = false ∧ (die s d).arr.acc.find? (fun t => (freeSlot s d t).isSome) = some x ∧ freeSlot s d x = some k) ∧
  (∃ s : State, ∃ d : Die, ∃ q : TqEntry, (die s d).arr.queue.find? (fun q => decide (q.st = .filling)) = some q ∧ q.drop = false ∧ (die s d).arr.op = none ∧ q.tile.last = false ∧ tileSlots q.tile = 1 ∧ q.tile.fp64 = false ∧ findInflight (str s d q.tile.c) .array q.tile.id = none ∧ soundStore s d) ∧
  (∃ ps : List Machine.Num, ∃ qs : List Machine.Num, ps.Perm qs) ∧
  (∃ ps : List Machine.Num, (.nan ∈ ps ∨ (.inf true ∈ ps ∧ .inf false ∈ ps))) ∧
  (∃ ps : List Machine.Num, ∃ b : Bool, .inf b ∈ ps ∧ .inf (!b) ∉ ps ∧ .nan ∉ ps) ∧
  (∃ ps : List (Bool × Nat × Int), (∀ p ∈ ps, -298 ≤ p.2.2) ∧ ps ≠ []) :=
  ⟨⟨dies (arr { op := some ⟨.f, 0, 4, 1, 1, false, false⟩ }) run, 0, ⟨.f, 0, 4, 1, 1, false, false⟩, by decide +kernel⟩,
  ⟨dies { arr { op := some ⟨.f, 0, 4, 1, 1, true, false⟩ } with str := ⟨{ at' 0 with inflight := [⟨4, .array, 0, 0, 0, false, false, false⟩] }, {}, {}, {}⟩ } run, 0, ⟨.f, 0, 4, 1, 1, true, false⟩, ⟨4, .array, 0, 0, 0, false, false, false⟩, [0], by unfold inStep; decide +kernel⟩,
  ⟨dies (arr { acc := [tile] }) { run with regs := [(cdWin 0 + rTqShare, 1)] }, 0, tile, 0, by decide +kernel⟩,
  ⟨dies (arr { queue := [⟨.filling, 0, 0, tile, false⟩] }) run, 0, ⟨.filling, 0, 0, tile, false⟩, by unfold soundStore; decide +kernel⟩,
  ⟨[.inf true, .fin false 1 0], [.fin false 1 0, .inf true], by exact List.Perm.swap _ _ _⟩,
  ⟨[.inf true, .inf false], by decide +kernel⟩,
  ⟨[.inf true], true, by decide +kernel⟩,
  ⟨[(false, 1, -298)], by decide +kernel⟩⟩

/-- The hypotheses of LaneArithmetic can be met, clause by clause. -/
theorem test_hypotheses_LaneArithmetic :
  (∃ v : VIns, ∃ s : State, vecReady s v (.vadd v) ∧ regsBad s v [(v.rd, 1), (v.ra, 1), (v.rb, 1)] = false) ∧
  (∃ v : VIns, ∃ s : State, vecReady s v (.vaddi v) ∧ regsBad s v [(v.rd, 1), (v.ra, 1)] = false) ∧
  (∃ v : VIns, ∃ s : State, vecReady s v (.vfma v) ∧ regsBad s v [(v.rd, 1), (v.ra, 1), (v.rb, 1), (v.rc, 1)] = false) ∧
  (∃ v : VIns, ∃ s : State, vecReady s v (.vfmai v) ∧ regsBad s v [(v.rd, 1), (v.ra, 1), (v.rc, 1)] = false) ∧
  (∃ v : VIns, ∃ s : State, vecReady s v (.vabs v) ∧ regsBad s v [(v.rd, 1), (v.ra, 1)] = false) ∧
  (∃ v : VIns, ∃ s : State, regsBad s v [(v.rd, 1)] = false ∧ vecReady s v (.vmovi v)) ∧
  (∃ v : VIns, ∃ s : State, regsBad s v [(v.rd, 1), (v.ra, 1)] = false ∧ vecReady s v (.vbcast v)) ∧
  (∃ v : VIns, ∃ s : State, vecReady s v (.vcpop v) ∧ regsBad s v [(v.rd, 1)] = false) ∧
  (∃ v : VIns, ∃ s : State, vecReady s v (.viota v) ∧ regsBad s v [(v.rd, 1)] = false) ∧
  (∃ v : VIns, ∃ s : State, vecReady s v (.vrsum v) ∧ regsBad s v [(v.rd, 1), (v.ra, 1)] = false) ∧
  (∃ v : VIns, ∃ s : State, vecReady s v (.vrsump v) ∧ regsBad s v [(v.rd, 1), (v.ra, 1)] = false) ∧
  (∃ v : VIns, ∃ s : State, vecReady s v (.vrssqp v) ∧ regsBad s v [(v.rd, 1), (v.ra, 1)] = false) ∧
  (∃ v : VIns, ∃ s : State, vecReady s v (.vrmax v) ∧ regsBad s v [(v.rd, 1), (v.ra, 1)] = false) ∧
  (∃ v : VIns, ∃ s : State, vecReady s v (.vrmin v) ∧ regsBad s v [(v.rd, 1), (v.ra, 1)] = false) ∧
  (∃ v : VIns, ∃ s : State, vecReady s v (.vrmaxi v) ∧ regsBad s v [(v.rd, 1), (v.ra, 1)] = false) :=
  ⟨⟨vi .f [(47, 7)], prg .vadd (vi .f [(47, 7)]) (vec (ctx 2048) run), by unfold vecReady; decide +kernel⟩,
  ⟨vi .f [], prg .vaddi (vi .f []) (vec (ctx 1) run), by unfold vecReady; decide +kernel⟩,
  ⟨vi .f [], prg .vfma (vi .f []) (vec (ctx 1) run), by unfold vecReady; decide +kernel⟩,
  ⟨vi .f [], prg .vfmai (vi .f []) (vec (ctx 1) run), by unfold vecReady; decide +kernel⟩,
  ⟨vi .f [], prg .vabs (vi .f []) (vec (ctx 1) run), by unfold vecReady; decide +kernel⟩,
  ⟨vi .f [], prg .vmovi (vi .f []) (vec (ctx 1) run), by unfold vecReady; decide +kernel⟩,
  ⟨vi .f [], prg .vbcast (vi .f []) (vec (ctx 0) run), by unfold vecReady; decide +kernel⟩,
  ⟨vi .f [], prg .vcpop (vi .f []) (vec (ctx 2) run), by unfold vecReady; decide +kernel⟩,
  ⟨vi .f [], prg .viota (vi .f []) (vec (ctx 2) run), by unfold vecReady; decide +kernel⟩,
  ⟨vi .f [], prg .vrsum (vi .f []) (vec (ctx 2) run), by unfold vecReady; decide +kernel⟩,
  ⟨vi .f [], prg .vrsump (vi .f []) (vec (ctx 2) run), by unfold vecReady; decide +kernel⟩,
  ⟨vi .f [], prg .vrssqp (vi .f []) (vec (ctx 2) run), by unfold vecReady; decide +kernel⟩,
  ⟨vi .f [], prg .vrmax (vi .f []) (vec (ctx 2) run), by unfold vecReady; decide +kernel⟩,
  ⟨vi .f [], prg .vrmin (vi .f []) (vec (ctx 2) run), by unfold vecReady; decide +kernel⟩,
  ⟨vi .f [], prg .vrmaxi (vi .f []) (vec (ctx 2) run), by unfold vecReady; decide +kernel⟩⟩

/-- The hypotheses of MasksConversionsAndPairs can be met, clause by clause. -/
theorem test_hypotheses_MasksConversionsAndPairs :
  (∃ v : VIns, ∃ s : State, vecReady s v (.vcmpeq v) ∧ v.md ≠ 0 ∧ fld v.w 51 50 = 0 ∧ regsBad s v [(v.ra, 1), (v.rb, 1)] = false) ∧
  (∃ v : VIns, ∃ s : State, vecReady s v (.vcmpeqi v) ∧ v.md ≠ 0 ∧ fld v.w 51 50 = 0 ∧ regsBad s v [(v.ra, 1)] = false) ∧
  (∃ v : VIns, ∃ s : State, vecReady s v (.mand v) ∧ v.md ≠ 0 ∧ fld v.w 51 50 = 0) ∧
  (∃ v : VIns, ∃ s : State, vecReady s v (.vrndf v) ∧ v.fmt ≤ 7 ∧ regsBad s v [(v.rd, 1), (v.ra, 1)] = false) ∧
  (∃ v : VIns, ∃ s : State, vecReady s v (.vcvtfi v) ∧ regsBad s v [(v.rd, 1), (v.ra, 1)] = false) ∧
  (∃ v : VIns, ∃ s : State, vecReady s v (.vcvtdf v) ∧ v.fmt = 0 ∧ regsBad s v [(v.rd, 1), (v.ra, 2)] = false ∧ v.rd % 2 = 0 ∧ v.ra % 2 = 0) ∧
  (∃ v : VIns, ∃ s : State, vecReady s v (.vcvtfd v) ∧ regsBad s v [(v.rd, 2), (v.ra, 1)] = false ∧ v.rd % 2 = 0 ∧ v.ra % 2 = 0) ∧
  (∃ v : VIns, ∃ s : State, vecReady s v (.vdadd v) ∧ regsBad s v [(v.rd, 2), (v.ra, 2), (v.rb, 2)] = false ∧ v.rd % 2 = 0 ∧ v.ra % 2 = 0 ∧ v.rb % 2 = 0) ∧
  (∃ v : VIns, ∃ s : State, vecReady s v (.vdfma v) ∧ regsBad s v [(v.rd, 2), (v.ra, 2), (v.rb, 2), (v.rc, 2)] = false ∧ v.rd % 2 = 0 ∧ v.ra % 2 = 0 ∧ v.rb % 2 = 0 ∧ v.rc % 2 = 0) ∧
  (∃ v : VIns, ∃ s : State, vecReady s v (.vpadd v) ∧ regsBad s v [(v.rd, 2), (v.ra, 2), (v.rb, 2)] = false ∧ v.rd % 2 = 0 ∧ v.ra % 2 = 0 ∧ v.rb % 2 = 0) ∧
  (∃ v : VIns, ∃ s : State, vecReady s v (.vpnorm v) ∧ regsBad s v [(v.rd, 2), (v.ra, 2)] = false ∧ v.rd % 2 = 0 ∧ v.ra % 2 = 0) :=
  ⟨⟨vi .f [(47, 1)], prg .vcmpeq (vi .f [(47, 1)]) (vec (ctx 2) run), by unfold vecReady; decide +kernel⟩,
  ⟨vi .f [(47, 7)], prg .vcmpeqi (vi .f [(47, 7)]) (vec (ctx 2) run), by unfold vecReady; decide +kernel⟩,
  ⟨vi .f [(47, 7)], prg .mand (vi .f [(47, 7)]) (vec (ctx 2) run), by unfold vecReady; decide +kernel⟩,
  ⟨vi .f [(28, 7)], prg .vrndf (vi .f [(28, 7)]) (vec (ctx 2) run), by unfold vecReady; decide +kernel⟩,
  ⟨vi .f [], prg .vcvtfi (vi .f []) (vec (ctx 2) run), by unfold vecReady; decide +kernel⟩,
  ⟨vi .f [(47, 2), (42, 2)], prg .vcvtdf (vi .f [(47, 2), (42, 2)]) (vec (ctx 2) run), by unfold vecReady; decide +kernel⟩,
  ⟨vi .f [], prg .vcvtfd (vi .f []) (vec (ctx 2) run), by unfold vecReady; decide +kernel⟩,
  ⟨vi .f [(47, 2), (42, 4), (37, 6)], prg .vdadd (vi .f [(47, 2), (42, 4), (37, 6)]) (vec (ctx 2) run), by unfold vecReady; decide +kernel⟩,
  ⟨vi .f [], prg .vdfma (vi .f []) (vec (ctx 2) run), by unfold vecReady; decide +kernel⟩,
  ⟨vi .f [], prg .vpadd (vi .f []) (vec (ctx 2) run), by unfold vecReady; decide +kernel⟩,
  ⟨vi .f [], prg .vpnorm (vi .f []) (vec (ctx 2) run), by unfold vecReady; decide +kernel⟩⟩

/-- The hypotheses of Reductions can be met, clause by clause. -/
theorem test_hypotheses_Reductions :
  (∃ v : VIns, ∃ s : State, regsBad s v [(v.rd, 1), (v.ra, 1)] = false) ∧
  (∃ v : VIns, ∃ s : State, regsBad s v [(v.rd, 1)] = false) ∧
  (∃ x : VCtx, ∃ v : VIns, (((x.active v).map (x.lane v.ra)).any isNan = true ∨ (0x7F800000 ∈ (x.active v).map (x.lane v.ra) ∧ 0xFF800000 ∈ (x.active v).map (x.lane v.ra)))) :=
  ⟨⟨vi .f [], vec (ctx 2) run, by decide +kernel⟩,
  ⟨vi .f [], vec (ctx 2) run, by decide +kernel⟩,
  ⟨{ ctx 2 with vregs := [(0, 0x7F800000), (1, 0xFF800000)] }, vi .f [], by decide +kernel⟩⟩

/-- The hypotheses of ScalarInstructions can be met, clause by clause. -/
theorem test_hypotheses_ScalarInstructions :
  (∃ v : VIns, ∃ s : State, vecReady s v (.sli v) ∧ v.rc = 0) ∧
  (∃ v : VIns, ∃ s : State, vecReady s v (.sparam v) ∧ v.rc = 0 ∧ v.imm.toNat ≤ 5) ∧
  (∃ v : VIns, ∃ s : State, ∃ n : Nat, vecReady s v (.setvl v) ∧ v.rc = 0 ∧ n = min ((vctx s v.die v.ctx).sreg v.ra).toNat (min 2048 (if v.imm = 0 then 2048 else v.imm.toNat))) ∧
  (∃ v : VIns, ∃ s : State, vecReady s v (.nop v) ∧ v.rc = 0) ∧
  (∃ v : VIns, ∃ s : State, vecReady s v (.loop v) ∧ v.rc = 0 ∧ (vctx s v.die v.ctx).loops.length < 4) ∧
  (∃ v : VIns, ∃ s : State, ∃ f : LoopFrame, ∃ fs : List LoopFrame, vecReady s v (.endloop v) ∧ v.rc = 0 ∧ (vctx s v.die v.ctx).loops = f :: fs) :=
  ⟨⟨vi .f [(47, 31)], prg .sli (vi .f [(47, 31)]) (vec (ctx 2) run), by unfold vecReady; decide +kernel⟩,
  ⟨vi .f [(0, 5)], prg .sparam (vi .f [(0, 5)]) (vec (ctx 2) run), by unfold vecReady; decide +kernel⟩,
  ⟨vi .f [], prg .setvl (vi .f []) (vec (ctx 2) run), 0, by unfold vecReady; decide +kernel⟩,
  ⟨vi .f [], prg .nop (vi .f []) (vec (ctx 2) run), by unfold vecReady; decide +kernel⟩,
  ⟨vi .f [(0, 1)], prg .loop (vi .f [(0, 1)]) (vec { ctx 2 with loops := List.replicate 3 ⟨0, 1⟩ } run), by unfold vecReady; decide +kernel⟩,
  ⟨vi .f [], prg .endloop (vi .f []) (vec { ctx 2 with loops := [⟨0, 1⟩] } run), ⟨0, 1⟩, [], by unfold vecReady; decide +kernel⟩⟩

/-- The hypotheses of VectorPrograms can be met, clause by clause. -/
theorem test_hypotheses_VectorPrograms :
  (∃ s : State, ∃ d : Die, ∃ c : Sid, ∃ w : BitVec 512, issuing s d c 2 w ∧ c ≠ .u ∧ (vctx s d c).running = false) ∧
  (∃ v : VIns, ∃ s : State, ∃ e : InFlight, vecReady s v (.endProg v) ∧ v.rc = 0 ∧ (vctx s v.die v.ctx).loops = [] ∧ (vctx s v.die v.ctx).loadUe = false ∧ findInflight (str s v.die v.ctx) .vector (vctx s v.die v.ctx).id = some e ∧ e.silent = false) ∧
  (∃ v : VIns, ∃ s : State, ∃ q : TqEntry, vecReady s v (.tqpop v) ∧ v.rc = 0 ∧ v.ctx ≠ .t ∧ fld v.imm 17 16 ≠ 3 ∧ oldest (die s v.die).arr v.ctx .ready = some q ∧ q.tile.tag = v.imm.setWidth 16 ∧ q.tile.nf = 0) ∧
  (∃ v : VIns, ∃ s : State, vecReady s v (.tqpop v) ∧ v.rc = 0 ∧ v.ctx ≠ .t ∧ fld v.imm 17 16 ≠ 3 ∧ oldest (die s v.die).arr v.ctx .ready = none) ∧
  (∃ v : VIns, ∃ s : State, ∃ q : TqEntry, vecReady s v (.tqrel v) ∧ v.rc = 0 ∧ v.ctx ≠ .t ∧ oldest (die s v.die).arr v.ctx .held = some q) ∧
  (∃ v : VIns, ∃ s : State, ∃ a : Attempt, vecReady s v (.vguard v) ∧ fld v.imm 1 0 ≠ 3 ∧ regsBad s v [(v.ra, 1)] = false ∧ attempt s (str s v.die v.ctx).attempt = some a) :=
  ⟨⟨on (at' (dsc [(0, 2)])) run, 0, .t, dsc [(0, 2)], by unfold issuing modeSettled; decide +kernel⟩,
  ⟨vi .f [], prg .endProg (vi .f []) ({ run with dies := Vector.replicate 24 { coreReset := false, str := ⟨{ free' with inflight := [⟨0, .vector, 0, 0, 0, false, false, false⟩] }, {}, {}, {}⟩, ctx := ⟨ctx 2, {}, {}, {}⟩ } }), ⟨0, .vector, 0, 0, 0, false, false, false⟩, by unfold vecReady; decide +kernel⟩,
  ⟨vi .f [(0, 1)], prg .tqpop (vi .f [(0, 1)]) ({ run with dies := Vector.replicate 24 { coreReset := false, arr := { queue := [⟨.ready, 0, 0, tile, false⟩] }, ctx := ⟨ctx 2, {}, {}, {}⟩ } }), ⟨.ready, 0, 0, tile, false⟩, by unfold vecReady; decide +kernel⟩,
  ⟨vi .f [(0, 1)], prg .tqpop (vi .f [(0, 1)]) (vec (ctx 2) run), by unfold vecReady; decide +kernel⟩,
  ⟨vi .f [], prg .tqrel (vi .f []) ({ run with dies := Vector.replicate 24 { coreReset := false, arr := { queue := [⟨.held, 0, 0, tile, false⟩] }, ctx := ⟨ctx 2, {}, {}, {}⟩ } }), ⟨.held, 0, 0, tile, false⟩, by unfold vecReady; decide +kernel⟩,
  ⟨vi .u [], prg .vguard (vi .u []) (vec (ctx 2) run), { att := 7, step := 3 }, by unfold vecReady; decide +kernel⟩⟩

/-- The hypotheses of VectorFaults can be met, clause by clause. -/
theorem test_hypotheses_VectorFaults :
  (∃ v : VIns, ∃ s : State, vecReady s v (.nop v) ∧ v.rc ≠ 0 ∧ inStep s v.die v.ctx ∧ s.coll.active = [] ∧ (∀ e, findInflight (str s v.die v.ctx) .vector (vctx s v.die v.ctx).id = some e → e.onPath = false)) ∧
  (∃ v : VIns, ∃ s : State, vecReady s v (.vdadd v) ∧ regsBad s v [(v.rd, 2), (v.ra, 2), (v.rb, 2)] = false ∧ (v.rd % 2 = 1 ∨ v.ra % 2 = 1 ∨ v.rb % 2 = 1) ∧ inStep s v.die v.ctx ∧ s.coll.active = [] ∧ (∀ e, findInflight (str s v.die v.ctx) .vector (vctx s v.die v.ctx).id = some e → e.onPath = false)) ∧
  (∃ v : VIns, ∃ s : State, vecReady s v (.vld v) ∧ memIll s v fmtKnown false false = false ∧ v.fmt = 0 ∧ v.rd % 2 = 1 ∧ inStep s v.die v.ctx ∧ s.coll.active = [] ∧ (∀ e, findInflight (str s v.die v.ctx) .vector (vctx s v.die v.ctx).id = some e → e.onPath = false)) ∧
  (∃ v : VIns, ∃ s : State, ∃ i : Instr, (vctx s v.die v.ctx).running = true ∧ (die s v.die).coreReset = false ∧ (vctx s v.die v.ctx).waitTq = false ∧ (vctx s v.die v.ctx).pc ≤ 32767 ∧ (fld (SMap.get 0 (die s v.die).prog (vctx s v.die v.ctx).pc) 63 56 ∈ reservedOps) ∧ i ∈ [Instr.vadd v, .nop v, .vld v] ∧ inStep s v.die v.ctx ∧ s.coll.active = [] ∧ (∀ e, findInflight (str s v.die v.ctx) .vector (vctx s v.die v.ctx).id = some e → e.onPath = false)) ∧
  (∃ v : VIns, ∃ s : State, ∃ i : Instr, (i ∈ [Instr.vadd v, .nop v, .vld v, .tqrel v]) ∧ SMap.get 0 (die s v.die).prog (vctx s v.die v.ctx).pc ≠ BitVec.ofNat 8 (vecOpcode i) ++ v.w ∧ (vctx s v.die v.ctx).pc ≤ 32767 ∧ (fld (SMap.get 0 (die s v.die).prog (vctx s v.die v.ctx).pc) 63 56 ∉ reservedOps)) ∧
  (∃ v : VIns, ∃ s : State, (vctx s v.die v.ctx).running = true ∧ (die s v.die).coreReset = false ∧ (vctx s v.die v.ctx).waitTq = false ∧ 32767 < (vctx s v.die v.ctx).pc ∧ (vctx s v.die v.ctx).loops = [] ∧ inStep s v.die v.ctx ∧ s.coll.active = [] ∧ (∀ e, findInflight (str s v.die v.ctx) .vector (vctx s v.die v.ctx).id = some e → e.onPath = false)) ∧
  (∃ v : VIns, ∃ s : State, vecReady s v (.vldri v) ∧ memIll s v (fun f => decide (f = 1)) false true = false ∧ 2048 ≤ ((vctx s v.die v.ctx).sreg v.rc).toNat ∧ inStep s v.die v.ctx ∧ s.coll.active = [] ∧ (∀ e, findInflight (str s v.die v.ctx) .vector (vctx s v.die v.ctx).id = some e → e.onPath = false)) ∧
  (∃ v : VIns, ∃ s : State, ∃ q : TqEntry, vecReady s v (.tqpop v) ∧ v.rc = 0 ∧ v.ctx ≠ .t ∧ fld v.imm 17 16 ≠ 3 ∧ oldest (die s v.die).arr v.ctx .ready = some q ∧ q.tile.tag ≠ v.imm.setWidth 16 ∧ inStep s v.die v.ctx ∧ s.coll.active = [] ∧ (∀ e, findInflight (str s v.die v.ctx) .vector (vctx s v.die v.ctx).id = some e → e.onPath = false)) ∧
  (∃ v : VIns, ∃ s : State, vecReady s v (.endProg v) ∧ v.rc = 0 ∧ (vctx s v.die v.ctx).loops = [] ∧ (vctx s v.die v.ctx).loadUe = true ∧ inStep s v.die v.ctx ∧ s.coll.active = [] ∧ (∀ e, findInflight (str s v.die v.ctx) .vector (vctx s v.die v.ctx).id = some e → e.onPath = false)) :=
  ⟨⟨vi .f [(32, 1)], prg .nop (vi .f [(32, 1)]) (vec (ctx 2) run), by unfold vecReady inStep; decide +kernel⟩,
  ⟨vi .f [(47, 1)], prg .vdadd (vi .f [(47, 1)]) (vec (ctx 2) run), by unfold vecReady inStep; decide +kernel⟩,
  ⟨vi .f [(47, 1)], prg .vld (vi .f [(47, 1)]) (vec (ctx 2) run), by unfold vecReady inStep; decide +kernel⟩,
  ⟨vi .f [], { vec (ctx 2) run with dies := (vec (ctx 2) run).dies.map fun x => { x with prog := [(32767, 0x0700000000000000)] } }, .nop (vi .f []), by unfold inStep; decide +kernel⟩,
  ⟨vi .f [], vec (ctx 2) run, .vadd (vi .f []), by decide +kernel⟩,
  ⟨vi .f [], vec { ctx 2 with pc := 32768 } run, by unfold inStep; decide +kernel⟩,
  ⟨vi .f [(28, 1), (32, 1)], prg .vldri (vi .f [(28, 1), (32, 1)]) (vec { ctx 2 with sregs := [(1, 2048)] } run), by unfold vecReady inStep; decide +kernel⟩,
  ⟨vi .f [(0, 2)], prg .tqpop (vi .f [(0, 2)]) ({ run with dies := Vector.replicate 24 { coreReset := false, arr := { queue := [⟨.ready, 0, 0, tile, false⟩] }, ctx := ⟨ctx 2, {}, {}, {}⟩ } }), ⟨.ready, 0, 0, tile, false⟩, by unfold vecReady inStep; decide +kernel⟩,
  ⟨vi .f [], prg .endProg (vi .f []) (vec { ctx 2 with loadUe := true } run), by unfold vecReady inStep; decide +kernel⟩⟩

/-- The hypotheses of VectorLoads can be met, clause by clause. -/
theorem test_hypotheses_VectorLoads :
  (∃ v : VIns, ∃ s : State, vecReady s v (.vld v) ∧ memIll s v fmtKnown false false = false ∧ (v.fmt = 0 → v.rd % 2 = 0) ∧ mxBad (vctx s v.die v.ctx) v = false ∧ (vctx s v.die v.ctx).vl ≤ 2048 ∧ (∀ i ∈ (vctx s v.die v.ctx).active v, laneFault s v false (addrUnit (vctx s v.die v.ctx) v i) = none ∧ quietPlace s (lanePlace v (addrUnit (vctx s v.die v.ctx) v i)) (colSpan v.fmt) ∧ (isMx v.fmt = true → placeOk s (scalePlace s v i) 1 = true ∧ quietPlace s (scalePlace s v i) 1))) ∧
  (∃ v : VIns, ∃ s : State, ∃ j : Nat, vecReady s v (.vldri v) ∧ memIll s v (fun f => decide (f = 1)) false true = false ∧ j = ((vctx s v.die v.ctx).sreg v.rc).toNat ∧ j < 2048 ∧ (vctx s v.die v.ctx).vl ≤ 2048 ∧ (vctx s v.die v.ctx).maskBit v.mask j = true ∧ (∀ i, i < (vctx s v.die v.ctx).vl → laneFault s v false (addrRow (vctx s v.die v.ctx) v j i) = none ∧ quietPlace s (lanePlace v (addrRow (vctx s v.die v.ctx) v j i)) 4)) ∧
  (∃ v : VIns, ∃ s : State, vecReady s v (.vldri v) ∧ memIll s v (fun f => decide (f = 1)) false true = false ∧ ((vctx s v.die v.ctx).sreg v.rc).toNat < 2048 ∧ (vctx s v.die v.ctx).maskBit v.mask ((vctx s v.die v.ctx).sreg v.rc).toNat = false) :=
  ⟨⟨vi .f [(28, 1)], prg .vld (vi .f [(28, 1)]) (vec (ctx 1) run), by simp only [quiet_iff]; unfold vecReady; decide +kernel⟩,
  ⟨vi .f [(28, 1)], prg .vldri (vi .f [(28, 1)]) (vec (ctx 1) run), 0, by simp only [quiet_iff]; unfold vecReady; decide +kernel⟩,
  ⟨vi .f [(28, 1), (53, 1)], prg .vldri (vi .f [(28, 1), (53, 1)]) (vec (ctx 2) run), by unfold vecReady; decide +kernel⟩⟩

/-- The hypotheses of VectorStores can be met, clause by clause. -/
theorem test_hypotheses_VectorStores :
  (∃ v : VIns, ∃ s : State, vecReady s v (.vst v) ∧ memIll s v fmtKnown true false = false ∧ (v.fmt = 0 → v.rd % 2 = 0) ∧ v.fmt ≤ 6 ∧ v.sr = false ∧ separateLanes s v ((vctx s v.die v.ctx).active v) (addrUnit (vctx s v.die v.ctx) v) (colSpan v.fmt)) ∧
  (∃ v : VIns, ∃ s : State, vecReady s v (.vst v) ∧ memIll s v fmtKnown true false = false ∧ v.sr = true ∧ v.space = 1 ∧ mxBad (vctx s v.die v.ctx) v = false ∧ s.mem.ue = [] ∧ s.mem.ce = [] ∧ s.mem.parity = 0 ∧ (∀ i ∈ (vctx s v.die v.ctx).active v, laneFault s v true (addrUnit (vctx s v.die v.ctx) v i) = none)) ∧
  (∃ v : VIns, ∃ s : State, vecReady s v (.vst v) ∧ memIll s v fmtKnown true false = false ∧ 7 ≤ v.fmt ∧ v.sr = false ∧ mxBad (vctx s v.die v.ctx) v = false ∧ v.space = 0 ∧ soundStore s v.die ∧ (∀ i ∈ (vctx s v.die v.ctx).active v, laneFault s v true (addrUnit (vctx s v.die v.ctx) v i) = none ∧ (isMx v.fmt = true → placeOk s (scalePlace s v i) 1 = true ∧ isProtected s (scalePlace s v i) 1 = false))) ∧
  (∃ v : VIns, ∃ s : State, vecReady s v (.vstxa v) ∧ memIll s v (fun f => decide (f = 1)) false true = false ∧ separateLanes s v ((vctx s v.die v.ctx).active v) (addrIndex (vctx s v.die v.ctx) v) 4) ∧
  (∃ v : VIns, ∃ s : State, ∃ j : Nat, memIll s v (fun f => decide (f = 1)) false true = false ∧ j = ((vctx s v.die v.ctx).sreg v.rc).toNat ∧ j < 2048 ∧ (vctx s v.die v.ctx).maskBit v.mask j = true ∧ separateLanes s v (List.range (vctx s v.die v.ctx).vl) (addrRow (vctx s v.die v.ctx) v j) 4) ∧
  (∃ v : VIns, ∃ s : State, memIll s v (fun f => decide (f = 1)) false true = false ∧ ((vctx s v.die v.ctx).sreg v.rc).toNat < 2048 ∧ (vctx s v.die v.ctx).maskBit v.mask ((vctx s v.die v.ctx).sreg v.rc).toNat = false) :=
  ⟨⟨vi .f [(28, 6)], prg .vst (vi .f [(28, 6)]) (vec (ctx 2) run), by unfold separateLanes soundStore vecReady; decide +kernel⟩,
  ⟨vi .u [(28, 2), (25, 1), (24, 1)], prg .vst (vi .u [(28, 2), (25, 1), (24, 1)]) (vec (ctx 2) run), by unfold vecReady; decide +kernel⟩,
  ⟨vi .f [(28, 8)], prg .vst (vi .f [(28, 8)]) (vec (ctx 32) run), by unfold vecReady soundStore; decide +kernel⟩,
  ⟨vi .f [(28, 1), (42, 1)], prg .vstxa (vi .f [(28, 1), (42, 1)]) (vec { ctx 2 with vregs := [(2049, 4)] } run), by unfold separateLanes soundStore vecReady; decide +kernel⟩,
  ⟨vi .f [(28, 1)], vec (ctx 2) run, 0, by unfold separateLanes soundStore; decide +kernel⟩,
  ⟨vi .f [(28, 1), (53, 1)], vec (ctx 2) run, by decide +kernel⟩⟩

/-- The hypotheses of CollectiveIssue can be met, clause by clause. -/
theorem test_hypotheses_CollectiveIssue :
  (∃ s : State, ∃ d : Die, ∃ w : BitVec 512, ∃ rs : List CollRound, ∃ u : State, issuing s d .t 6 w ∧ cOp w = 1 ∧ roundsOf s w = some rs ∧ ranksOk s rs = true ∧ inUnit (str s d .t) .collective < 4 ∧ prepare s (str s d .t) w rs = (.go, u) ∧ s.coll.active = [] ∧ s.coll.grants = []) ∧
  (∃ s : State, ∃ d : Die, ∃ w : BitVec 512, ∃ rs : List CollRound, issuing s d .t 6 w ∧ cOp w = 1 ∧ roundsOf s w = some rs ∧ ranksOk s rs = true ∧ 4 ≤ inUnit (str s d .t) .collective) ∧
  (∃ s : State, ∃ d : Die, ∃ w : BitVec 512, issuing s d .t 6 w ∧ cOp w = 1 ∧ inStep s d .t ∧ s.coll.active = []) ∧
  (∃ s : State, ∃ p : Packet, ∃ ch : Chan, accepted s ptCollGrant p ch ∧ (tagDist s p.txn = 0 ∨ tagDist s p.txn = 1) ∧ s.coll.active = []) ∧
  (∃ s : State, ∃ p : Packet, ∃ ch : Chan, accepted s ptCollGrant p ch ∧ tagDist s p.txn ≠ 0 ∧ tagDist s p.txn ≠ 1) ∧
  (∃ s : State, ∃ p : Packet, ∃ ch : Chan, accepted s ptCollGrant p ch ∧ s.coll.active = [] ∧ (∃ a ∈ s.step.attempts, a.recorded = false ∧ a.att.setWidth 16 = p.txn)) :=
  ⟨⟨on (at' (gather 1 0)) run, 0, gather 1 0, (roundsOf run (gather 1 0)).getD [], (prepare (on (at' (gather 1 0)) run) (at' (gather 1 0)) (gather 1 0) ((roundsOf run (gather 1 0)).getD [])).2, by unfold issuing modeSettled; decide +kernel⟩,
  ⟨on { at' (gather 1 0) with inflight := List.replicate 4 ⟨1, .collective, 0, 0, 0, false, false, false⟩ } run, 0, gather 1 0, (roundsOf run (gather 1 0)).getD [], by unfold issuing modeSettled; decide +kernel⟩,
  ⟨on (at' (gather 1 5)) run, 0, gather 1 5, by unfold inStep issuing modeSettled; decide +kernel⟩,
  ⟨run, crcd (msg ptCollGrant 0), ch0, by unfold accepted; decide +kernel⟩,
  ⟨run, crcd ({ msg ptCollGrant 0 with txn := 500 }), ch0, by unfold accepted; decide +kernel⟩,
  ⟨run, crcd (msg ptCollGrant 0), ch0, by unfold accepted; decide +kernel⟩⟩

/-- The hypotheses of CollectiveEnds can be met, clause by clause. -/
theorem test_hypotheses_CollectiveEnds :
  (∃ s : State, ∃ d : Die, ∃ i : Nat, ∃ k : Coll, ∃ e : InFlight, s.coll.active = [k] ∧ k.d = d ∧ k.i = i ∧ k.rounds.all (·.fin) = true ∧ cGuard k.desc = false ∧ isNorm s k.desc = false ∧ isStash s k.desc = false ∧ s.upd.p2 = none ∧ s.upd.pend = [] ∧ s.img.st ≠ .shadow ∧ findInflight (str s d .t) .collective i = some e ∧ e.silent = false) ∧
  (∃ s : State, ∃ d : Die, ∃ i : Nat, ∃ k : Coll, ∃ a : Attempt, s.coll.active = [k] ∧ k.d = d ∧ k.i = i ∧ k.rounds.all (·.fin) = true ∧ cGuard k.desc = true ∧ attempt s k.att = some a ∧ a.verdict = none ∧ findInflight (str s d .t) .collective i = none ∧ s.upd.p2 = none ∧ s.img.st ≠ .shadow) ∧
  (∃ s : State, ∃ d : Die, ∃ i : Nat, ∃ k : Coll, ∃ a : Attempt, s.coll.active = [k] ∧ k.d = d ∧ k.i = i ∧ k.timed = true ∧ k.rounds.all (·.fin) = false ∧ s.img.st ≠ .shadow ∧ cGuard k.desc = false ∧ attempt s k.att = some a ∧ a.verdict = none ∧ (getObj s (refObj d (dDoneRef k.desc))).err = false ∧ (getObj s (refObj d (dDoneRef k.desc))).waiters = []) ∧
  (∃ s : State, ∃ d : Die, ∃ i : Nat, ∃ k : Coll, findColl s d i = some k ∧ (k.timed = false ∨ k.rounds.all (·.fin) = true)) ∧
  (∃ s : State, ∃ d : Die, ∃ i : Nat, ∃ k : Coll, ∃ a : Attempt, s.coll.active = [k] ∧ k.d = d ∧ k.i = i ∧ k.timed = true ∧ k.rounds.all (·.fin) = false ∧ s.img.st ≠ .shadow ∧ cGuard k.desc = true ∧ attempt s k.att = some a ∧ a.verdict = none ∧ (getObj s (refObj d (dDoneRef k.desc))).err = false ∧ (getObj s (refObj d (dDoneRef k.desc))).waiters = []) ∧
  (∃ s : State, ∃ d : Die, ∃ i : Nat, ∃ k : Coll, ∃ sec : JobSections, s.coll.active = [k] ∧ k.d = d ∧ k.i = i ∧ k.rounds.all (·.fin) = true ∧ cGuard k.desc = false ∧ isNorm s k.desc = false ∧ isStash s k.desc = true ∧ s.img.sec = some sec ∧ (attempt s k.att).isSome = true ∧ findInflight (str s d .t) .collective i = none ∧ stashSettled s k.att (dLayer k.desc).toNat = false ∧ s.upd.p2 = none ∧ s.img.st ≠ .shadow ∧ cleanRange s.mem (cDst k.desc) 4 ∧ unpoisoned s.mem (cDst k.desc) 4) ∧
  (∃ s : State, ∃ d : Die, ∃ i : Nat, ∃ n : Nat, ∃ k : Coll, ∃ r : CollRound, ∃ x : Half, ∃ m : Half, findColl s d i = some k ∧ k.rounds.find? (fun r => decide (r.idx = n)) = some r ∧ r.grantOut = false ∧ r.fin = false ∧ srcsOf r.r = [x] ∧ rankMod s x.toNat = some m ∧ landFree s k r = true) ∧
  (∃ redop : Nat, ∃ ws : List (List Word), ∃ early : List (Nat × Nat × List Word), early.Perm (ws.zipIdx.map fun x => (x.2, redop, x.1))) ∧
  (∃ early : List (Nat × Nat × List Word), ∃ i : Nat, 0 < i ∧ (∀ e ∈ early, i ≤ e.1) ∧ early ≠ []) ∧
  (∃ a : List Word, ∃ b : List Word, a.length = b.length) :=
  ⟨⟨colls (coll (gather 1 0) true false) (on { at' 0 with inflight := [⟨1, .collective, 0, 0, 0, false, false, false⟩] } run), 0, 1, coll (gather 1 0) true false, ⟨1, .collective, 0, 0, 0, false, false, false⟩, by decide +kernel⟩,
  ⟨colls (coll (gather 4 0) true false) run, 0, 1, coll (gather 4 0) true false, { att := 7, step := 3 }, by decide +kernel⟩,
  ⟨colls (coll (gather 1 0) false true) run, 0, 1, coll (gather 1 0) false true, { att := 7, step := 3 }, by decide +kernel⟩,
  ⟨colls (coll (gather 1 0) true false) run, 0, 1, coll (gather 1 0) true false, by exact ⟨by decide +kernel, .inl (by decide +kernel)⟩⟩,
  ⟨colls (coll (gather 4 0) false true) run, 0, 1, coll (gather 4 0) false true, { att := 7, step := 3 }, by decide +kernel⟩,
  ⟨colls (coll (gather 1 1) true false) run, 0, 1, coll (gather 1 1) true false, job, by unfold unpoisoned cleanRange; decide +kernel⟩,
  ⟨colls (coll (gather 1 0) false false) run, 0, 1, 0, coll (gather 1 0) false false, { idx := 0, r := rnd }, 2, 0x41, by decide +kernel⟩,
  ⟨0, [[1], [2]], [(1, 0, [2]), (0, 0, [1])], by exact List.Perm.swap _ _ _⟩,
  ⟨[(3, 0, [])], 1, by decide +kernel⟩,
  ⟨[1], [2], by decide +kernel⟩⟩

/-- The hypotheses of FabricRequests can be met, clause by clause. -/
theorem test_hypotheses_FabricRequests :
  (∃ s : State, ∃ p : Packet, ∃ ch : Chan, accepted s ptWrite p ch ∧ inTurn s p ∧ admitSource s p .write = none ∧ p.dstEp = 24 ∧ admitRange s p p.addr.toNat p.payload.length .write = true ∧ cleanRange s.mem p.addr.toNat p.payload.length ∧ distinctBytes s.mem p.addr.toNat p.payload.length) ∧
  (∃ s : State, ∃ p : Packet, ∃ ch : Chan, ∃ d : Die, accepted s ptWrite p ch ∧ inTurn s p ∧ admitSource s p .write = none ∧ p.dstEp.toNat = d.val ∧ soundStore s d ∧ admitRange s p p.addr.toNat p.payload.length .write = true) ∧
  (∃ s : State, ∃ p : Packet, ∃ ch : Chan, ∃ h : Nat, accepted s ptWrite p ch ∧ inTurn s p ∧ admitSource s p .write = none ∧ p.dstEp = 26 ∧ s.host.busMaster = true ∧ hostWin s p.addr.toNat p.payload.length true = some h) ∧
  (∃ s : State, ∃ p : Packet, ∃ ch : Chan, accepted s ptWrite p ch ∧ inTurn s p ∧ admitSource s p .write = none ∧ p.dstEp = 24 ∧ admitRange s p p.addr.toNat p.payload.length .write = true ∧ inEmergency s p.addr.toNat p.payload.length = true) ∧
  (∃ s : State, ∃ p : Packet, ∃ ch : Chan, accepted s ptRead p ch ∧ inTurn s p ∧ admitSource s p .read = none ∧ p.dstEp = 24 ∧ admitRange s p p.addr.toNat (reqBytes p) .read = true ∧ cleanRange s.mem p.addr.toNat (reqBytes p) ∧ unpoisoned s.mem p.addr.toNat (reqBytes p)) ∧
  (∃ s : State, ∃ p : Packet, ∃ ch : Chan, accepted s ptRead p ch ∧ inTurn s p ∧ admitSource s p .read = none ∧ p.dstEp = 24 ∧ admitRange s p p.addr.toNat (reqBytes p) .read = true ∧ cleanRange s.mem p.addr.toNat (reqBytes p) ∧ (¬ unpoisoned s.mem p.addr.toNat (reqBytes p))) ∧
  (∃ s : State, ∃ p : Packet, ∃ ch : Chan, ∃ d : Die, accepted s ptRead p ch ∧ inTurn s p ∧ admitSource s p .read = none ∧ p.dstEp.toNat = d.val ∧ soundStore s d ∧ admitRange s p p.addr.toNat (reqBytes p) .read = true) ∧
  (∃ s : State, ∃ p : Packet, ∃ ch : Chan, ∃ h : Nat, accepted s ptRead p ch ∧ inTurn s p ∧ admitSource s p .read = none ∧ p.dstEp = 26 ∧ s.host.busMaster = true ∧ hostWin s p.addr.toNat (reqBytes p) false = some h) ∧
  (∃ s : State, ∃ p : Packet, ∃ ch : Chan, ∃ n : Nat, accepted s ptWrite p ch ∧ inTurn s p ∧ p.dstEp = 25 ∧ p.jobId = 0 ∧ admitSource s p .write = none ∧ p.payload.length = 4 * n ∧ p.addr.toNat + p.payload.length ≤ 4096) ∧
  (∃ s : State, ∃ p : Packet, ∃ ch : Chan, accepted s ptRead p ch ∧ inTurn s p ∧ p.dstEp = 25 ∧ p.jobId = 0 ∧ admitSource s p .read = none ∧ p.addr.toNat + reqBytes p ≤ 4096) ∧
  (∃ s : State, ∃ p : Packet, ∃ ch : Chan, ∃ why : Deny, accepted s ptWrite p ch ∧ inTurn s p ∧ admitSource s p .write = some why ∧ p.dstEp ≠ 25) ∧
  (∃ s : State, ∃ p : Packet, ∃ ch : Chan, accepted s ptRead p ch ∧ inTurn s p ∧ admitSource s p .read = none ∧ p.dstEp.toNat < 25 ∧ admitRange s p p.addr.toNat (reqBytes p) .read = false) :=
  ⟨⟨next (msg ptWrite 1) run, crcd (msg ptWrite 1), ch0, by simp only [turn_iff]; simp only [distinct_iff]; unfold accepted cleanRange; decide +kernel⟩,
  ⟨next { msg ptWrite 1 with dstEp := 3 } run, crcd ({ msg ptWrite 1 with dstEp := 3 }), ch0, 3, by simp only [turn_iff]; unfold soundStore accepted; decide +kernel⟩,
  ⟨next { msg ptWrite 1 with dstEp := 26 } run, crcd ({ msg ptWrite 1 with dstEp := 26 }), ch0, 0x5000, by simp only [turn_iff]; unfold accepted; decide +kernel⟩,
  ⟨next (msg ptWrite 1) { run with mem := { st := Vector.replicate 24 { inService := true, emergency := true } } }, crcd (msg ptWrite 1), ch0, by simp only [turn_iff]; unfold accepted; decide +kernel⟩,
  ⟨next (msg ptRead 0) run, crcd ({ msg ptRead 0 with fmt := 1 }), ch0, by simp only [turn_iff]; unfold accepted unpoisoned cleanRange; decide +kernel⟩,
  ⟨next (msg ptRead 0) { run with mem := { run.mem with poison := (gransOf run.mem 0 64).map fun g => (g.1, true) } }, crcd ({ msg ptRead 0 with fmt := 1 }), ch0, by simp only [turn_iff]; unfold accepted unpoisoned cleanRange; decide +kernel⟩,
  ⟨next { msg ptRead 0 with dstEp := 3 } run, crcd ({ msg ptRead 0 with fmt := 1, dstEp := 3 }), ch0, 3, by simp only [turn_iff]; unfold soundStore accepted; decide +kernel⟩,
  ⟨next { msg ptRead 0 with dstEp := 26 } run, crcd ({ msg ptRead 0 with fmt := 1, dstEp := 26 }), ch0, 0x5000, by simp only [turn_iff]; unfold accepted; decide +kernel⟩,
  ⟨next { msg ptWrite 1 with dstEp := 25 } ({ run with fab := { run.fab with flat := [(0, some ⟨0, 0x41, 24, 0, true, true, true⟩)] } }), crcd ({ msg ptWrite 1 with dstEp := 25, jobId := 0 }), ch0, 16, by simp only [turn_iff]; unfold accepted; decide +kernel⟩,
  ⟨next { msg ptRead 0 with dstEp := 25 } ({ run with fab := { run.fab with flat := [(0, some ⟨0, 0x41, 24, 0, true, true, true⟩)] } }), crcd ({ msg ptRead 0 with dstEp := 25, jobId := 0, fmt := 1 }), ch0, by simp only [turn_iff]; unfold accepted; decide +kernel⟩,
  ⟨next { msg ptWrite 1 with srcMod := 0x55 } run, crcd ({ msg ptWrite 1 with srcMod := 0x55 }), ch0, .protect, by simp only [turn_iff]; unfold accepted; decide +kernel⟩,
  ⟨next (msg ptRead 0) run, crcd ({ msg ptRead 0 with fmt := 1, addr := 0x20000 }), ch0, by simp only [turn_iff]; unfold accepted; decide +kernel⟩⟩

/-- The hypotheses of FabricFlows can be met, clause by clause. -/
theorem test_hypotheses_FabricFlows :
  (∃ s : State, ∃ p : Packet, ∃ ch : Chan, ∃ i : Fin 32768, accepted s ptSignal p ch ∧ inTurn s p ∧ admitSource s p .any = none ∧ p.dstEp = 24 ∧ fld p.addr 15 0 = 32768 + i.val ∧ 16 ≤ i.val ∧ (getObj s (.glob i)).err = false ∧ (getObj s (.glob i)).waiters = [] ∧ (getObj s (.glob i)).count + fld p.addr 62 32 ≤ 2147483647) ∧
  (∃ s : State, ∃ p : Packet, ∃ ch : Chan, ∃ d : Die, ∃ i : Fin 4096, accepted s ptSignal p ch ∧ inTurn s p ∧ admitSource s p .any = none ∧ p.dstEp.toNat = d.val ∧ fld p.addr 15 0 = i.val ∧ (die s d).out = false ∧ (getObj s (.loc d i)).err = false ∧ (getObj s (.loc d i)).waiters = [] ∧ bitAt p.addr 63 = true ∧ fld p.addr 31 16 = (getObj s (.loc d i)).gen.toNat ∧ (getObj s (.loc d i)).count + fld p.addr 62 32 ≤ 2147483647) ∧
  (∃ s : State, ∃ p : Packet, ∃ ch : Chan, accepted s ptSignal p ch ∧ inTurn s p ∧ admitSource s p .any = none ∧ p.dstEp = 24 ∧ 32768 ≤ fld p.addr 15 0 ∧ fld p.addr 15 0 < 32784) ∧
  (∃ s : State, ∃ p : Packet, ∃ ch : Chan, ∃ ty : BitVec 6, ∃ f : DstFlow, ∃ r : Half × Nat × List Byte, (ty = ptWrite ∨ ty = ptRead ∨ ty = ptSignal) ∧ accepted s ty p ch ∧ s.fab.dst.filter (fun g => g.serves p) = [f] ∧ s.clk < f.last + s.fab.timers.flowIdle * 1000 ∧ (serialD 16 p.fseq.toNat f.point.toNat = 0 ∨ 32768 ≤ serialD 16 p.fseq.toNat f.point.toNat) ∧ f.replies.find? (fun r => decide (r.1 = p.fseq)) = some r) ∧
  (∃ s : State, ∃ p : Packet, ∃ ch : Chan, ∃ f : DstFlow, accepted s ptWrite p ch ∧ s.fab.dst.filter (fun g => g.serves p) = [f] ∧ s.clk < f.last + s.fab.timers.flowIdle * 1000 ∧ (1 < serialD 16 p.fseq.toNat f.point.toNat ∨ (f.busy = true ∧ serialD 16 p.fseq.toNat f.point.toNat = 1)) ∧ serialD 16 p.fseq.toNat f.point.toNat < 32768 ∧ f.held = [] ∧ heldCount s < 65536) ∧
  (∃ s : State, ∃ p : Packet, ∃ ch : Chan, ∃ k : Coll, ∃ r : CollRound, ∃ x : Half, accepted s ptCollData p ch ∧ inTurn s p ∧ denyColl s p = none ∧ tagDist s p.txn = 0 ∧ s.coll.active = [k] ∧ k.rounds = [r] ∧ cGuard k.desc = false ∧ k.timed = false ∧ cSched k.desc = fld p.addr 59 48 ∧ k.att.setWidth 16 = p.txn ∧ r.idx = fld p.addr 47 40 ∧ fld p.addr 39 0 = 0 ∧ r.fin = false ∧ r.r.dep = none ∧ r.sent = true ∧ roundOuts s k r.idx = 0 ∧ srcsOf r.r = [x] ∧ rankMod s x.toNat = some p.srcMod ∧ r.got = [0] ∧ r.acc = [] ∧ p.fmt.toNat / 16 = 0 ∧ p.fmt.toNat % 16 = r.r.wire ∧ isMx r.r.wire = false ∧ 0 < fmtBits r.r.wire ∧ isMx r.r.result = false ∧ needOf r.r ≤ p.payload.length ∧ cleanRange s.mem (cDst k.desc + elemOff r.r.result r.r.landOff) (packedBytes r.r.result r.r.landLen) ∧ distinctBytes s.mem (cDst k.desc + elemOff r.r.result r.r.landOff) (packedBytes r.r.result r.r.landLen)) ∧
  (∃ s : State, ∃ p : Packet, ∃ ch : Chan, accepted s ptCollData p ch ∧ inTurn s p ∧ denyColl s p = none ∧ tagDist s p.txn ≠ 0) ∧
  (∃ s : State, ∃ p : Packet, ∃ ch : Chan, accepted s ptCollData p ch ∧ denyColl s p ≠ none) ∧
  (∃ s : State, ∃ p : Packet, ∃ k : Coll, ∃ r : CollRound, ∃ i : Nat, ∃ a : Nat, ∃ n : Nat, dataRound s p = some (k, r, i) ∧ landSpan k r p = some (a, n) ∧ inImage s a n = true) :=
  ⟨⟨next (msg ptSignal 0) run, crcd ({ msg ptSignal 0 with addr := 0x100008010 }), ch0, 16, by simp only [turn_iff]; unfold accepted; decide +kernel⟩,
  ⟨next { msg ptSignal 0 with dstEp := 3 } run, crcd ({ msg ptSignal 0 with dstEp := 3, addr := 0x8000000100000005 }), ch0, 3, 5, by simp only [turn_iff]; unfold accepted; decide +kernel⟩,
  ⟨next (msg ptSignal 0) run, crcd ({ msg ptSignal 0 with addr := 0x800F }), ch0, by simp only [turn_iff]; unfold accepted; decide +kernel⟩,
  ⟨flows { flow (msg ptRead 0) 1 with replies := [(1, 0, [])] } run, crcd ({ msg ptRead 0 with fmt := 1 }), ch0, ptRead, { flow (msg ptRead 0) 1 with replies := [(1, 0, [])] }, (1, 0, []), by unfold accepted; decide +kernel⟩,
  ⟨next (msg ptWrite 1) run, crcd ({ msg ptWrite 1 with fseq := 3 }), ch0, flow (msg ptWrite 1) 0, by unfold accepted; decide +kernel⟩,
  ⟨next (msg ptCollData 1) (colls { coll (gather 1 0) false false with rounds := [{ idx := 0, r := rnd, sent := true, got := [0] }] } run), crcd ({ msg ptCollData 1 with fmt := 1 }), ch0, { coll (gather 1 0) false false with rounds := [{ idx := 0, r := rnd, sent := true, got := [0] }] }, { idx := 0, r := rnd, sent := true, got := [0] }, 2, by simp only [turn_iff]; simp only [distinct_iff]; unfold accepted cleanRange; decide +kernel⟩,
  ⟨next (msg ptCollData 1) run, crcd ({ msg ptCollData 1 with fmt := 1, txn := 500 }), ch0, by simp only [turn_iff]; unfold accepted; decide +kernel⟩,
  ⟨run, crcd ({ msg ptCollData 1 with srcMod := 0x55 }), ch0, by unfold accepted; decide +kernel⟩,
  ⟨colls ({ coll (dsc [(0, 6), (0xE, 1), (0x18, 0x100000), (0x29, 1)]) false false with rounds := [{ idx := 0, r := rnd }] }) run, { msg ptCollData 1 with fmt := 1 }, { coll (dsc [(0, 6), (0xE, 1), (0x18, 0x100000), (0x29, 1)]) false false with rounds := [{ idx := 0, r := rnd }] }, { idx := 0, r := rnd }, 0, 0x100000, 16, by decide +kernel⟩⟩

/-- The hypotheses of FabricAnswers can be met, clause by clause. -/
theorem test_hypotheses_FabricAnswers :
  (∃ s : State, ∃ p : Packet, ∃ ch : Chan, ∃ o : OutPkt, ∃ att : DWord, accepted s ptReadData p ch ∧ awaiting s o (.verdict att) p ∧ s.coll.active = [] ∧ o.pkt.type = ptRead ∧ p.payload.length = 64 ∧ verdictOf s att = some .indeterminate ∧ leAt p.payload (32 * (att.toNat % 2)) 8 = att.toNat ∧ leAt p.payload (32 * (att.toNat % 2) + 16) 1 = 2) ∧
  (∃ s : State, ∃ p : Packet, ∃ ch : Chan, accepted s ptReadData p ch ∧ txnOf s p = none) ∧
  (∃ s : State, ∃ p : Packet, ∃ ch : Chan, ∃ o : OutPkt, ∃ d : Die, ∃ c : Sid, ∃ i : Nat, ∃ ref : Nat, ∃ e : InFlight, accepted s ptStatus p ch ∧ awaiting s o (.signal d c i ref) p ∧ fld p.addr 7 0 = 0 ∧ findInflight (str s d c) .signal i = some e ∧ e.silent = false ∧ s.coll.active = []) ∧
  (∃ s : State, ∃ p : Packet, ∃ ch : Chan, ∃ o : OutPkt, ∃ d : Die, ∃ c : Sid, ∃ i : Nat, ∃ ref : Nat, ∃ e : InFlight, accepted s ptStatus p ch ∧ awaiting s o (.signal d c i ref) p ∧ fld p.addr 7 0 = 1 ∧ findInflight (str s d c) .signal i = some e ∧ e.silent = false ∧ s.coll.active = []) ∧
  (∃ s : State, ∃ p : Packet, ∃ ch : Chan, ∃ o : OutPkt, ∃ d : Die, ∃ c : Sid, ∃ i : Nat, ∃ ref : Nat, ∃ e : InFlight, accepted s ptStatus p ch ∧ awaiting s o (.signal d c i ref) p ∧ fld p.addr 7 0 = 2 ∧ s.coll.active = [] ∧ findInflight (str s d c) .signal i = some e ∧ e.silent = false ∧ inStep s d c ∧ e.onPath = false) ∧
  (∃ s : State, ∃ p : Packet, ∃ ch : Chan, ∃ o : OutPkt, ∃ u : TxnUser, accepted s ptStatus p ch ∧ awaiting s o u p ∧ fld p.addr 7 0 = 5 ∧ o.tries < s.fab.timers.e2eRetryMax ∧ noPayload u) ∧
  (∃ s : State, ∃ p : Packet, ∃ ch : Chan, accepted s ptE2eAck p ch ∧ s.coll.active = []) ∧
  (∃ s : State, ∃ k : Nat, ∃ f : DstFlow, ∃ n : Nat, s.fab.dst[k]? = some f ∧ f.ackDue = true ∧ f.ackAt = some n) ∧
  (∃ s : State, ∃ o : OutPkt, s.fab.outs.find? (fun x => decide (x.oid = o.oid) && x.answer.isNone) = some o ∧ o.tries < s.fab.timers.e2eRetryMax ∧ noPayload o.user) ∧
  (∃ s : State, ∃ o : OutPkt, ∃ k : Nat, ∃ off : Nat, ∃ sec : JobSections, ∃ m : MaqSlot, s.fab.outs.find? (fun x => decide (x.oid = o.oid) && x.answer.isNone) = some o ∧ o.tries < s.fab.timers.e2eRetryMax ∧ o.user = .maquette k off ∧ s.img.sec = some sec ∧ SMap.get none s.maq.slots k = some m) ∧
  (∃ s : State, ∃ o : OutPkt, ∃ att : DWord, s.fab.outs = [o] ∧ o.oid < 16384 ∧ o.answer = none ∧ o.user = .verdict att ∧ s.fab.timers.e2eRetryMax ≤ o.tries) ∧
  (∃ s : State, ∃ k : Nat, ∃ f : SrcFlow, s.fab.src[k]? = some f ∧ (∀ o ∈ s.fab.outs, f.serves o.pkt = false)) ∧
  (∃ s : State, ∃ k : Nat, ∃ f : DstFlow, s.fab.dst[k]? = some f) ∧
  (∃ s : State, ∃ tag : Nat, ∃ r : HostRead, ∃ data : List Byte, hostReadOf s tag = some r ∧ s.host.reads.length ≤ 256 ∧ data.length = reqBytes r.req ∧ (∀ f ∈ s.fab.dst, f.serves r.req = true → f.held = [])) ∧
  (∃ s : State, ∃ tag : Nat, ∃ r : HostRead, hostReadOf s tag = some r ∧ s.host.reads.length ≤ 256 ∧ (∀ f ∈ s.fab.dst, f.serves r.req = true → f.held = [])) ∧
  (∃ s : State, ∃ i : Nat, ∃ w : WaitPkt, ∃ n : Nat, s.fab.waiting[i]? = some w ∧ w.pkt.relief = false ∧ w.dry = some n ∧ (candidates s w).any (hasCredit s w.pkt) = false) ∧
  (∃ s : State, ∃ i : Nat, ∃ w : WaitPkt, s.fab.waiting[i]? = some w ∧ (w.pkt.relief = true ∨ w.dry = none ∨ (candidates s w).any (hasCredit s w.pkt) = true)) ∧
  (∃ s : State, ∃ port : Fin 6, ∃ w : WaitPkt, 4 ≤ port.val ∧ s.fab.waiting = [w] ∧ leavesOn s port.val w.pkt = true) :=
  ⟨⟨outs (sent (.verdict 7) 0) (verd (some .indeterminate) run), crcd ({ msg ptReadData 0 with payload := List.replicate 32 0 ++ [7] ++ List.replicate 15 0 ++ [2] ++ List.replicate 15 0 }), ch0, sent (.verdict 7) 0, 7, by unfold awaiting accepted; decide +kernel⟩,
  ⟨run, crcd (msg ptReadData 1), ch0, by unfold accepted; decide +kernel⟩,
  ⟨outs (sent (.signal 0 .f 4 0) 0) (on { at' 0 with inflight := [⟨4, .signal, 0, 0, 0, false, false, false⟩] } run), crcd (msg ptStatus 0), ch0, sent (.signal 0 .f 4 0) 0, 0, .f, 4, 0, ⟨4, .signal, 0, 0, 0, false, false, false⟩, by unfold awaiting accepted; decide +kernel⟩,
  ⟨outs (sent (.signal 0 .f 4 0) 0) (on { at' 0 with inflight := [⟨4, .signal, 0, 0, 0, false, false, false⟩] } run), crcd ({ msg ptStatus 0 with addr := 1 }), ch0, sent (.signal 0 .f 4 0) 0, 0, .f, 4, 0, ⟨4, .signal, 0, 0, 0, false, false, false⟩, by unfold awaiting accepted; decide +kernel⟩,
  ⟨outs (sent (.signal 0 .f 4 0) 0) (on { at' 0 with inflight := [⟨4, .signal, 0, 0, 0, false, false, false⟩] } run), crcd ({ msg ptStatus 0 with addr := 2 }), ch0, sent (.signal 0 .f 4 0) 0, 0, .f, 4, 0, ⟨4, .signal, 0, 0, 0, false, false, false⟩, by unfold awaiting inStep accepted; decide +kernel⟩,
  ⟨outs (sent (.verdict 7) 3) run, crcd ({ msg ptStatus 0 with addr := 5 }), ch0, sent (.verdict 7) 3, .verdict 7, by simp only [payload_iff]; unfold awaiting accepted; decide +kernel⟩,
  ⟨run, crcd (msg ptE2eAck 0), ch0, by unfold accepted; decide +kernel⟩,
  ⟨flows { flow (msg ptWrite 1) 0 with ackAt := some 900, ackDue := true } run, 0, { flow (msg ptWrite 1) 0 with ackAt := some 900, ackDue := true }, 900, by decide +kernel⟩,
  ⟨outs (sent (.verdict 7) 3) run, sent (.verdict 7) 3, by simp only [payload_iff]; decide +kernel⟩,
  ⟨outs (sent (.maquette 0 0) 3) (slot ⟨1, 3, true, 0, 0⟩ run), sent (.maquette 0 0) 3, 0, 0, job, ⟨1, 3, true, 0, 0⟩, by decide +kernel⟩,
  ⟨outs (sent (.verdict 7) 4) run, sent (.verdict 7) 4, 7, by decide +kernel⟩,
  ⟨{ run with fab := { run.fab with src := [⟨24, 0x41, 24, 0, 1, false, 0⟩] } }, 0, ⟨24, 0x41, 24, 0, 1, false, 0⟩, by decide +kernel⟩,
  ⟨next (msg ptWrite 1) run, 0, flow (msg ptWrite 1) 0, by decide +kernel⟩,
  ⟨{ run with host := { run.host with reads := [⟨3, { msg ptRead 0 with fmt := 1 }, ch0, 0⟩] } }, 3, ⟨3, { msg ptRead 0 with fmt := 1 }, ch0, 0⟩, List.replicate 64 0, by decide +kernel⟩,
  ⟨{ run with host := { run.host with reads := [⟨3, { msg ptRead 0 with fmt := 1 }, ch0, 0⟩] } }, 3, ⟨3, { msg ptRead 0 with fmt := 1 }, ch0, 0⟩, by decide +kernel⟩,
  ⟨{ run with fab := { run.fab with waiting := [{ pkt := msg ptWrite 1, at0 := 0, dry := some 0 }] } }, 0, { pkt := msg ptWrite 1, at0 := 0, dry := some 0 }, 0, by decide +kernel⟩,
  ⟨{ run with fab := { run.fab with waiting := [{ pkt := msg ptWrite 1, at0 := 0 }] } }, 0, { pkt := msg ptWrite 1, at0 := 0 }, by exact ⟨by decide +kernel, .inr (.inl rfl)⟩⟩,
  ⟨{ run with fab := { run.fab with rack := #v[[(4, 0x8000)], []], dim := #v[[(0, 0x200)], []], waiting := [{ pkt := { msg ptWrite 1 with dstMod := 0x100, relief := true }, at0 := 0 }] } }, 4, { pkt := { msg ptWrite 1 with dstMod := 0x100, relief := true }, at0 := 0 }, by decide +kernel⟩⟩

/-- The hypotheses of PacketRouting can be met, clause by clause. -/
theorem test_hypotheses_PacketRouting :
  (∃ s : State, ∃ p : Packet, p.dstMod = s.fab.modId) ∧
  (∃ s : State, ∃ p : Packet, rackOf p.dstMod ≠ rackOf s.fab.modId ∧ bitAt (rackEntry s p.epoch (rackOf p.dstMod)) 15 = false) ∧
  (∃ s : State, ∃ p : Packet, ∃ w : WaitPkt, w = ({ pkt := { p with crc := BitVec.ofNat 32 (pktCrc p) }, at0 := s.clk } : WaitPkt) ∧ ((∃ q, routeOf s p = .rack q) ∨ (∃ ds, routeOf s p = .dims ds))) ∧
  (∃ s : State, ∃ w : WaitPkt, byWeight s w = false) ∧
  (∃ s : State, ∃ w : WaitPkt, ∃ c : Chan, ∃ u : State, byWeight s w = true ∧ pick s w true = (some c, u)) ∧
  (∃ s : State, ∃ w : WaitPkt, ∃ c : Chan, ∃ q : Packet, w.src = none ∧ q = aged { w.pkt with dateline := dateline s w.pkt c } (s.clk - w.at0 + Config.linkLatency (chanNo c))) ∧
  (∃ s : State, ∃ p : Packet, ∃ q : Nat, routeOf s p = .rack q ∧ aEligible s p.cls q = []) ∧
  (∃ s : State, ∃ p : Packet, ∃ ch : Chan, (link s ch).quar = 0 ∧ wellShaped p = true ∧ tooOld s p = false ∧ epochOk s p.epoch = true ∧ p.dstMod ≠ s.fab.modId ∧ p.dstEp.toNat < 27 ∧ p.cls ≠ clMgmt ∧ p.cls ≠ clColl ∧ p.hops.toNat < 24) ∧
  (∃ s : State, ∃ p : Packet, ∃ ch : Chan, (link s ch).quar = 0 ∧ wellShaped p = true ∧ tooOld s p = true ∧ p.dstMod ≠ s.fab.modId ∧ p.dstEp.toNat < 27) ∧
  (∃ s : State, ∃ p : Packet, ∃ ch : Chan, (link s ch).quar = 0 ∧ p.dstMod ≠ s.fab.modId ∧ 27 ≤ p.dstEp.toNat) ∧
  (∃ s : State, ∃ p : Packet, ∃ ch : Chan, accepted s ptWrite { p with crc := BitVec.ofNat 32 (pktCrc p) } ch ∧ p.crc.toNat ≠ pktCrc p) ∧
  (∃ ch : Chan, ∃ v : Fin 8, ∃ n : Nat, v.val % 2 = 0 ∧ 0 < n ∧ (ch.port.val < 4 ∨ v.val ≠ 4)) ∧
  (∃ ch : Chan, ∃ v : Fin 8, (v.val = 4 ∨ v.val = 5) ∧ 4 ≤ ch.port.val) ∧
  (∃ s : State, mayAccess s .host rFabEpochCmd ∧ s.fab.draining = false ∧ s.fab.retireAt = none) ∧
  (∃ s : State, mayAccess s .host rFabEpochCmd ∧ s.fab.isOpen = true ∧ bankOk s.fab.rack[bankOf (s.fab.cur + 1)] s.fab.dim[bankOf (s.fab.cur + 1)] = true) ∧
  (∃ s : State, mayAccess s .host rFabEpochCmd ∧ s.fab.isOpen = true ∧ bankOk s.fab.rack[bankOf (s.fab.cur + 1)] s.fab.dim[bankOf (s.fab.cur + 1)] = false) ∧
  (∃ s : State, mayAccess s .host rFabEpochCmd ∧ s.fab.loaded = true) ∧
  (∃ s : State, mayAccess s .host rFabEpochCmd ∧ s.fab.draining = true) ∧
  (∃ s : State, ∃ n : Nat, s.fab.retireAt = some n ∧ epochClear s s.fab.drainEpoch = true) ∧
  (∃ s : State, ∃ n : Nat, s.fab.retireAt = some n ∧ epochClear s s.fab.drainEpoch = false) ∧
  (∃ s : State, mayAccess s .host rFabEpochCmd) ∧
  (∃ s : State, ∃ a : BitVec 24, ∃ i : Instr, mayAccess s .host rFabEpochCmd ∧ ((i = .epochOpen a ∧ s.fab.draining = true ∧ s.fab.retireAt = none) ∨ (i = .epochLoad a ∧ s.fab.isOpen = false) ∨ (i = .epochInject a ∧ s.fab.loaded = false) ∨ (i = .epochRetire a ∧ s.fab.draining = false))) :=
  ⟨⟨run, pkt ptWrite clReq, by decide +kernel⟩,
  ⟨run, { pkt ptWrite clReq with dstMod := 0x100 }, by decide +kernel⟩,
  ⟨{ run with fab := { run.fab with rack := #v[[(4, 0x8001)], []], dim := #v[[(0, 0x8201)], []], links := [(chanNo ⟨4, 0, 0⟩, { up := true, accepted := true, peerAcc := true })] } }, { msg ptWrite 1 with dstMod := 0x100 }, { pkt := { { msg ptWrite 1 with dstMod := 0x100 } with crc := BitVec.ofNat 32 (pktCrc { msg ptWrite 1 with dstMod := 0x100 }) }, at0 := 0 }, by exact ⟨rfl, .inr ⟨[0], by decide +kernel⟩⟩⟩,
  ⟨{ run with fab := { run.fab with rack := #v[[(4, 0x8001)], []], dim := #v[[(0, 0x8201)], []], links := [(chanNo ⟨4, 0, 0⟩, { up := true, accepted := true, peerAcc := true })] } }, { pkt := { msg ptWrite 1 with dstMod := 0x100 }, at0 := 0 }, by decide +kernel⟩,
  ⟨links ⟨0, 1, 0⟩ { up := true, accepted := true, peerAcc := true, credit := Vector.replicate 8 100 } up, { pkt := { msg ptWrite 1 with dstMod := 0x41 }, at0 := 0 }, ⟨0, 1, 0⟩, (pick (links ⟨0, 1, 0⟩ { up := true, accepted := true, peerAcc := true, credit := Vector.replicate 8 100 } up) { pkt := { msg ptWrite 1 with dstMod := 0x41 }, at0 := 0 } true).2, by exact ⟨by decide +kernel, Prod.ext (by decide +kernel) rfl⟩⟩,
  ⟨run, { pkt := msg ptWrite 1, at0 := 0 }, ch0, aged { msg ptWrite 1 with dateline := dateline run (msg ptWrite 1) ch0 } (0 - 0 + Config.linkLatency (chanNo ch0)), by exact ⟨rfl, rfl⟩⟩,
  ⟨run, { pkt ptWrite clReq with dstMod := 0x41 }, 1, by decide +kernel⟩,
  ⟨run, { msg ptWrite 1 with dstMod := 0x41 }, ch0, by decide +kernel⟩,
  ⟨run, { msg ptWrite 1 with dstMod := 0x41, age := 0xFFFF }, ch0, by decide +kernel⟩,
  ⟨run, { msg ptWrite 1 with dstMod := 0x41, dstEp := 27 }, ch0, by decide +kernel⟩,
  ⟨run, { msg ptWrite 1 with crc := 1 }, ch0, by unfold accepted; decide +kernel⟩,
  ⟨ch0, 0, 1, by exact ⟨by decide, by decide, .inl (by decide)⟩⟩,
  ⟨⟨4, 0, 0⟩, 4, by exact ⟨.inl rfl, by decide⟩⟩,
  ⟨up, by unfold mayAccess; decide +kernel⟩,
  ⟨{ up with fab := { up.fab with isOpen := true } }, by unfold mayAccess; decide +kernel⟩,
  ⟨{ up with fab := { up.fab with isOpen := true, dim := #v[[], [(0, 0x8000)]] } }, by unfold mayAccess; decide +kernel⟩,
  ⟨{ up with fab := { up.fab with loaded := true } }, by unfold mayAccess; decide +kernel⟩,
  ⟨{ up with fab := { up.fab with draining := true } }, by unfold mayAccess; decide +kernel⟩,
  ⟨{ up with fab := { up.fab with retireAt := some 5 } }, 5, by decide +kernel⟩,
  ⟨{ up with fab := { up.fab with retireAt := some 5, waiting := [{ pkt := msg ptWrite 1, at0 := 0 }] } }, 5, by decide +kernel⟩,
  ⟨up, by unfold mayAccess; decide +kernel⟩,
  ⟨up, 1, .epochLoad 1, by unfold mayAccess; decide +kernel⟩⟩

/-- The hypotheses of FabricLinks can be met, clause by clause. -/
theorem test_hypotheses_FabricLinks :
  (∃ s : State, ∃ w : Lcw, w.naks = [] ∧ s.fab.waiting = [] ∧ (link s w.about).closing = false) ∧
  (∃ s : State, ∃ ch : Chan, ∃ lsn : Half, ∃ u : LinkPkt, (link s ch).unacked.find? (fun u => decide (u.pkt.lsn = lsn)) = some u ∧ u.retries < s.fab.timers.linkRetryMax) ∧
  (∃ s : State, ∃ ch : Chan, ∃ lsn : Half, ∃ u : LinkPkt, (link s ch).unacked = [u] ∧ u.pkt.lsn = lsn ∧ u.pkt.type = ptHello ∧ s.fab.timers.linkRetryMax ≤ u.retries ∧ chanDim s s.fab.cur ch = none) ∧
  (∃ s : State, ∃ p : Packet, ∃ ch : Chan, accepted s ptHello p ch ∧ helloCause s ch p = 0 ∧ s.fab.waiting = [] ∧ s.start.idValid = true ∧ chanDim s s.fab.cur ch = none ∧ p.relief = false) ∧
  (∃ s : State, ∃ p : Packet, ∃ ch : Chan, accepted s ptHello p ch ∧ helloCause s ch p ≠ 0 ∧ (link s ch).accepted = false ∧ s.start.idValid = true ∧ p.relief = false) ∧
  (∃ p : Packet, (leAt p.payload 8 1).testBit 0 = false) ∧
  (∃ s : State, ∃ ch : Chan, ∃ p : Packet, ∃ e : LinkEnd, (leAt p.payload 8 1).testBit 0 = true ∧ expectedPeer s ch = some e ∧ BitVec.ofNat 16 (leAt p.payload 0 2) ≠ e.mod) ∧
  (∃ s : State, ∃ ch : Chan, ∃ n : Nat, (link s ch).helloAt = some n) ∧
  (∃ s : State, ∃ ch : Chan, ∃ n : Nat, (link s ch).lockedAt = some n) ∧
  (∃ s : State, ∃ p : Packet, ∃ ch : Chan, ∃ a : Attempt, accepted s ptPoison p ch ∧ p.jobId = jobOf s ∧ w64 (leAt p.payload 0 8) ∉ s.fab.seenPoison ∧ attempt s (w64 (leAt p.payload 0 8)) = some a ∧ a.verdict = none ∧ s.coll.active = []) ∧
  (∃ s : State, ∃ p : Packet, ∃ ch : Chan, accepted s ptPoison p ch ∧ (p.jobId ≠ jobOf s ∨ w64 (leAt p.payload 0 8) ∈ s.fab.seenPoison)) ∧
  (∃ s : State, ∃ att : DWord, ∃ a : Attempt, ∃ n : Nat, s.step.attempts = [a] ∧ a.att = att ∧ a.repeatAt = some n ∧ a.recorded = false) ∧
  (∃ s : State, ∃ p : Packet, ∃ ch : Chan, accepted s ptRouteNotice p ch ∧ (link s ch).level ≠ 2 ∧ bitAt p.addr 16 = false ∧ (p.srcMod, fld p.addr 9 0) ∉ s.fab.peerDown) ∧
  (∃ s : State, ∃ p : Packet, ∃ ch : Chan, accepted s ptRouteNotice p ch ∧ (link s ch).level ≠ 2 ∧ bitAt p.addr 16 = true) :=
  ⟨⟨run, ⟨ch0, 0, [], []⟩, by decide +kernel⟩,
  ⟨links ch0 { unacked := [⟨msg ptWrite 1, 7, 0⟩] } run, ch0, 0, ⟨msg ptWrite 1, 7, 0⟩, by decide +kernel⟩,
  ⟨links ch0 { unacked := [⟨msg ptHello 1, 8, 0⟩] } run, ch0, 0, ⟨msg ptHello 1, 8, 0⟩, by decide +kernel⟩,
  ⟨run, crcd ({ msg ptHello 1 with payload := [0x41, 0, 0, 1, 0, 0, 3, 2, 1] ++ List.replicate 55 0 }), ⟨0, 1, 0⟩, by unfold accepted; decide +kernel⟩,
  ⟨run, crcd (msg ptHello 1), ch0, by unfold accepted; decide +kernel⟩,
  ⟨msg ptHello 1, by decide +kernel⟩,
  ⟨run, ⟨0, 2, 0⟩, { msg ptHello 1 with payload := [0x41, 0, 0, 1, 0, 0, 3, 2, 1] ++ List.replicate 55 0 }, ⟨0x42, 0, 2, 0⟩, by decide +kernel⟩,
  ⟨links ch0 { helloAt := some 5 } run, ch0, 5, by decide +kernel⟩,
  ⟨links ch0 { lockedAt := some 5 } run, ch0, 5, by decide +kernel⟩,
  ⟨run, crcd ({ msg ptPoison 1 with payload := [7] ++ List.replicate 63 0 }), ch0, { att := 7, step := 3 }, by unfold accepted; decide +kernel⟩,
  ⟨run, crcd ({ msg ptPoison 1 with jobId := 2 }), ch0, by unfold accepted; decide +kernel⟩,
  ⟨{ run with step := { attempts := [{ att := 7, step := 3, verdict := some .poison, repeatAt := some 5 }] } }, 7, { att := 7, step := 3, verdict := some .poison, repeatAt := some 5 }, 5, by decide +kernel⟩,
  ⟨run, crcd ({ msg ptRouteNotice 0 with addr := 5 }), ch0, by unfold accepted; decide +kernel⟩,
  ⟨run, crcd ({ msg ptRouteNotice 0 with addr := 0x10005 }), ch0, by unfold accepted; decide +kernel⟩⟩

/-- The hypotheses of Resets can be met, clause by clause. -/
theorem test_hypotheses_Resets :
  (∃ m : Master, ∃ v : BitVec 32, ∃ s : State, mayAccess s m rReset ∧ fld v 31 16 = 0x5A5A ∧ fld v 1 0 = 1) ∧
  (∃ m : Master, ∃ v : BitVec 32, ∃ s : State, mayAccess s m rReset ∧ fld v 31 16 = 0x5A5A ∧ fld v 1 0 = 2 ∧ s.pwr.closed = true) ∧
  (∃ m : Master, ∃ v : BitVec 32, ∃ s : State, ∃ i : Instr, (i = .modResetWarm m v ∨ i = .modResetCold m v) ∧ mayAccess s m rReset ∧ (fld v 31 16 ≠ 0x5A5A ∨ fld v 1 0 = 0 ∨ fld v 1 0 = 3)) ∧
  (∃ p : Path, ∃ v : BitVec 32, ∃ s : State, p ≠ .mbox ∧ (s.start.fin = .ready ∨ s.start.fin = .mgmtOnly) ∧ fld v 1 0 = 1) ∧
  (∃ p : Path, ∃ v : BitVec 32, ∃ s : State, p ≠ .mbox ∧ (s.start.fin = .ready ∨ s.start.fin = .mgmtOnly) ∧ fld v 1 0 = 2 ∧ s.pwr.closed = true) ∧
  (∃ s : State, passed s stRom = true) ∧
  (∃ s : State, ∃ n : Nat, s.clocks.failAt = some n) ∧
  (∃ s : State, (∀ o, unserved (getObj s o))) ∧
  (∃ s : State, passed s stRom = true ∧ s.start.fin ≠ .romRecovery ∧ s.host.linkUp = false ∧ s.img.sec = none) ∧
  (∃ s : State, passed s stRom = false) ∧
  (∃ d : Die, ∃ s : State, (∀ c e i, (str s d c).waitRef = some (.loc e i) → e = d) ∧ (∀ o, unserved (getObj s o)) ∧ s.coll.active = [] ∧ s.upd.p2 = none ∧ s.img.st = .running) ∧
  (∃ d : Die, ∃ s : State, (∀ c e i, (str s d c).waitRef = some (.loc e i) → e = d) ∧ (∀ o, unserved (getObj s o)) ∧ s.coll.active = [] ∧ s.img.st = .none) ∧
  (∃ s : State, s.pwr.closed = false ∧ s.pwr.latched = false) ∧
  (∃ s : State, s.pwr.closed = false ∧ s.pwr.latched = true) ∧
  (∃ s : State, s.pwr.closed = true) ∧
  (∃ s : State, s.pwr.closed = true) ∧
  (∃ s : State, s.pwr.closed = false) ∧
  (∃ i : Instr, ∃ s : State, i ∈ [Instr.hvOvervoltage, .hvOvercurrent, .hvOvertemp, .shutdown, .thermalTrip] ∧ s.pwr.closed = true) ∧
  (∃ i : Instr, ∃ s : State, i ∈ [Instr.hvUndervoltage, .hvOvervoltage, .hvOvercurrent, .hvOvertemp, .shutdown, .thermalTrip] ∧ s.pwr.closed = false) :=
  ⟨⟨.bmc, 0x5A5A0001, up, by unfold mayAccess; decide +kernel⟩,
  ⟨.bmc, 0x5A5A0002, up, by unfold mayAccess; decide +kernel⟩,
  ⟨.host, 0x5A5A0003, up, .modResetCold .host 0x5A5A0003, by unfold mayAccess; decide +kernel⟩,
  ⟨.i3c, 1, up, by decide +kernel⟩,
  ⟨.i3c, 2, up, by decide +kernel⟩,
  ⟨up, by decide +kernel⟩,
  ⟨{ up with clocks := { failAt := some 500 } }, 500, by decide +kernel⟩,
  ⟨up, by exact calm _ (by decide +kernel)⟩,
  ⟨{ up with host := { up.host with linkUp := false } }, by decide +kernel⟩,
  ⟨State.reset, by decide +kernel⟩,
  ⟨3, on { at' 0 with waitRef := some (.glob 16) } run, by exact ⟨fun c e i h => by cases c <;> (have h2 : some (ObjRef.glob 16) = some (.loc e i) := h; cases h2), calm _ (by decide +kernel), by decide +kernel, by decide +kernel, by decide +kernel⟩⟩,
  ⟨3, on { at' 0 with waitRef := some (.glob 16) } up, by exact ⟨fun c e i h => by cases c <;> (have h2 : some (ObjRef.glob 16) = some (.loc e i) := h; cases h2), calm _ (by decide +kernel), by decide +kernel, by decide +kernel⟩⟩,
  ⟨State.reset, by decide +kernel⟩,
  ⟨{ State.reset with pwr := { latched := true } }, by decide +kernel⟩,
  ⟨up, by decide +kernel⟩,
  ⟨up, by decide +kernel⟩,
  ⟨State.reset, by decide +kernel⟩,
  ⟨.shutdown, up, by decide +kernel⟩,
  ⟨.hvOvertemp, State.reset, by decide +kernel⟩⟩

/-- The hypotheses of StepsEnd can be met, clause by clause. -/
theorem test_hypotheses_StepsEnd :
  (∃ s : State, ∃ a : Attempt, endable s = some a ∧ a.verdict = some .poison) ∧
  (∃ s : State, ∃ a : Attempt, endable s = some a ∧ a.verdict = some .clear) ∧
  (∃ s : State, ∃ a : Attempt, ∃ sec : JobSections, endable s = some a ∧ a.verdict = some .clear ∧ s.img.sec = some sec ∧ cleanRange s.mem (sec.stepRing + 64 * (s.step.endedSteps % max 1 sec.stepRingLen)) 64 ∧ distinctBytes s.mem (sec.stepRing + 64 * (s.step.endedSteps % max 1 sec.stepRingLen)) 64) ∧
  (∃ s : State, endable s = none) ∧
  (∃ s : State, ∃ q : Pass2, ∃ p : JobParams, s.upd.p2 = some q ∧ updParams s = some p ∧ s.upd.replay = none ∧ s.img.st ≠ .shadow ∧ s.img.sec.map (·.params) = some p ∧ (List.range (ndesc s)).all (descCommitted s q) = true) ∧
  (∃ s : State, ∃ q : Pass2, ∃ p : JobParams, ∃ i : Nat, s.upd.p2 = some q ∧ updParams s = some p ∧ i < ndesc s ∧ descCommitted s q i = false) ∧
  (∃ c : RuleC, ∃ b : Bool, ∃ e : ElemIn, ∃ o : ElemOut, elemUpd c b e = some o) ∧
  (∃ c : RuleC, ∃ b : Bool, ∃ e : ElemIn, c.rule = 0 ∧ elemUpd c b e = none) ∧
  (∃ s : State, ∃ layer : Nat, ∃ n : DWord, ∃ rest : List (DWord × Nat), ∃ sec : JobSections, ∃ k : Nat, s.maq.toCopy = (n, layer) :: rest ∧ s.img.sec = some sec ∧ freeMaqSlot s sec = some k) ∧
  (∃ s : State, ∃ sec : JobSections, s.img.sec = some sec ∧ freeMaqSlot s sec = none) ∧
  (∃ s : State, ∃ layer : Nat, ∃ sec : JobSections, ∃ k : Nat, ∃ a : Nat, ∃ n : Nat, ∃ m : MaqSlot, s.img.sec = some sec ∧ copyingSlot s layer = some k ∧ maqParts s layer = [(a, n)] ∧ cleanRange s.mem a n ∧ unpoisoned s.mem a n ∧ cleanRange s.mem (maqSlotAt sec k) n ∧ distinctBytes s.mem (maqSlotAt sec k) n ∧ (∀ i j, i < n → j < n → phys s.mem (a + i) ≠ phys s.mem (maqSlotAt sec k + j)) ∧ SMap.get none s.maq.slots k = some m) ∧
  (∃ s : State, ∃ slot : Nat, ∃ m : MaqSlot, ∃ sec : JobSections, s.img.sec = some sec ∧ SMap.get none s.maq.slots slot = some m ∧ m.copied = true ∧ ((∃ h, sec.maqDest = .host h ∧ maqBytes s m.layer ≤ m.sent) ∨ (∃ i a, sec.maqDest = .fabric i a ∧ maqBytes s m.layer ≤ m.acked))) :=
  ⟨⟨atts (ended .poison) run, ended .poison, by decide +kernel⟩,
  ⟨atts (ended .clear) run, ended .clear, by decide +kernel⟩,
  ⟨atts (ended .clear) run, ended .clear, job, by simp only [distinct_iff]; unfold cleanRange; decide +kernel⟩,
  ⟨run, by decide +kernel⟩,
  ⟨updst { p2 := some q2 } (one (lay [(3, 1)])), q2, prm, by decide +kernel⟩,
  ⟨updst { p2 := some q2 } (one (lay [(8, 4)])), q2, prm, 0, by decide +kernel⟩,
  ⟨rc 0x3F800000, false, ⟨0, 0, 0, 0, 0, 0⟩, ⟨0, 0, 0⟩, by decide +kernel⟩,
  ⟨rc 0, false, ⟨0, 0, 0, 0, 0, 0⟩, by decide +kernel⟩,
  ⟨{ run with maq := { toCopy := [(3, 1)] } }, 1, 3, [], job, 0, by decide +kernel⟩,
  ⟨slot ⟨1, 3, true, 0, 0⟩ run, job, by decide +kernel⟩,
  ⟨slot ⟨1, 3, false, 0, 0⟩ (one (lay [(0, 1), (4, 1), (8, 4), (0x30, 0x2000)])), 1, job, 0, 0x2000, 16, ⟨1, 3, false, 0, 0⟩, by simp only [apart_iff]; simp only [distinct_iff]; unfold unpoisoned cleanRange; decide +kernel⟩,
  ⟨slot ⟨1, 3, true, 16, 0⟩ run, 0, ⟨1, 3, true, 16, 0⟩, job, by exact ⟨by decide +kernel, by decide +kernel, by decide +kernel, .inl ⟨0x8000, by decide +kernel⟩⟩⟩⟩

/-- The hypotheses of ImageActivation can be met, clause by clause. -/
theorem test_hypotheses_ImageActivation :
  (∃ s : State, s.start.fin = .ready ∧ s.img.st = .none ∧ (getObj s (.glob 0)).count ≠ 0) ∧
  (∃ s : State, (s.start.fin ≠ .ready ∨ s.img.st ≠ .none ∨ (getObj s (.glob 0)).count = 0)) ∧
  (∃ s : State, ∃ sec : JobSections, ∃ ok : Bool, s.img.st = .verifying ∧ s.img.stopReq = false ∧ refuseCode s sec ok ≠ 0) ∧
  (∃ s : State, ∃ sec : JobSections, ∃ ok : Bool, s.img.st = .verifying ∧ s.img.stopReq = false ∧ refuseCode s sec ok = 0 ∧ hShadow s s.img.base.toNat = true) ∧
  (∃ s : State, s.img.st = .verifying ∧ s.img.stopReq = true) :=
  ⟨⟨{ up with sync := { glob := [(0, { count := 1 })] } }, by decide +kernel⟩,
  ⟨State.reset, by decide +kernel⟩,
  ⟨imgst .verifying run, job, true, by decide +kernel⟩,
  ⟨verifying shadow, bare, true, by decide +kernel⟩,
  ⟨{ run with img := { img with st := .verifying, stopReq := true } }, by decide +kernel⟩⟩

/-- The hypotheses of ImageStopAndVerdicts can be met, clause by clause. -/
theorem test_hypotheses_ImageStopAndVerdicts :
  (∃ s : State, ∃ v : BitVec 32, hostOpen s = true ∧ windowOpen s rImgCtl = true ∧ bitAt v 16 = true ∧ bitAt v 0 = true ∧ s.img.st = .running) ∧
  (∃ s : State, ∃ v : BitVec 32, hostOpen s = true ∧ windowOpen s rImgCtl = true ∧ (bitAt v 16 = false ∨ bitAt v 0 = false)) ∧
  (∃ s : State, hasStopped s = true ∧ anyOp s = true) ∧
  (∃ s : State, hasStopped s = true ∧ anyOp s = false ∧ (getObj s (.glob 3)).waiters = []) ∧
  (∃ s : State, hasStopped s = false) ∧
  (∃ s : State, ∃ desc : Fin 4096, ∃ tile : Nat, ∃ n : Nat, ∃ data : List Byte, ∃ sec : JobSections, ∃ l : BitVec 1024, ∃ cnt : Nat, ∃ j : Nat, s.img.sec = some sec ∧ s.img.st = .prologue ∧ 2 ^ 32 * desc.val + tile ∈ s.upd.rehome ∧ l = ldesc s desc.val ∧ n = chunkLen l tile ∧ cnt = (ownedTiles s l).length ∧ j = (ownedTiles s l).idxOf tile ∧ sec.params.prevOwner.getD (tile % sec.params.sPrev) 0xFFFF ≠ 0xFFFF ∧ data.length = 10 * n) ∧
  (∃ s : State, ∃ desc : Fin 4096, ∃ tile : Nat, ∃ sec : JobSections, ∃ l : BitVec 1024, ∃ n : Nat, ∃ cnt : Nat, ∃ j : Nat, s.img.sec = some sec ∧ s.img.st = .prologue ∧ 2 ^ 32 * desc.val + tile ∈ s.upd.rehome ∧ l = ldesc s desc.val ∧ n = chunkLen l tile ∧ cnt = (ownedTiles s l).length ∧ j = (ownedTiles s l).idxOf tile ∧ sec.params.prevOwner.getD (tile % sec.params.sPrev) 0xFFFF = 0xFFFF) ∧
  (∃ s : State, ∃ desc : Fin 4096, ∃ tile : Nat, ∃ src : Option DWord, ∃ sec : JobSections, s.img.sec = some sec ∧ s.img.st = .prologue ∧ 2 ^ 32 * desc.val + tile ∈ s.upd.rehome ∧ sec.params.prevOwner.getD (tile % sec.params.sPrev) 0xFFFF ≠ 0xFFFF ∧ src ≠ some s.step.ctr) ∧
  (∃ s : State, ∃ n : Nat, ∃ att : DWord, ∃ sec : JobSections, ∃ r : Half, ∃ m : Half, ∃ v : State, s.step.pollAt = some n ∧ pollAttempt s = some att ∧ s.img.sec = some sec ∧ (guardPeers sec)[s.step.pollPeer % (guardPeers sec).length]? = some r ∧ rankMod s r.toNat = some m ∧ sendReq (advanceTo n s) (.verdict att) true { blankPkt s ptRead m 24 24 with fmt := 1, addr := w64 ((sec.verdictRing + 32 * (att.toNat % 4)) / 64 * 64) } = some v) ∧
  (∃ s : State, ∃ n : Nat, s.step.resolveAt = some n ∧ (getObj s (.glob 6)).waiters = []) :=
  ⟨⟨run, 0x10001, by decide +kernel⟩,
  ⟨run, 1, by decide +kernel⟩,
  ⟨{ dies (arr { op := some ⟨.f, 0, 4, 1, 1, false, false⟩ }) run with img := { img with st := .stopping, halt := true } }, by decide +kernel⟩,
  ⟨{ run with img := { img with st := .stopping, halt := true } }, by decide +kernel⟩,
  ⟨run, by decide +kernel⟩,
  ⟨imgst .prologue (updst { rehome := [0] } (one (lay [(8, 4)]))), 0, 0, 4, List.replicate 40 0, job, lay [(8, 4)], 1, 0, by decide +kernel⟩,
  ⟨imgst .prologue (updst { rehome := [0] } { run with img := { img with layers := [lay [(8, 4)]], sec := some { job with params := { prm with prevOwner := [] } } } }), 0, 0, { job with params := { prm with prevOwner := [] } }, lay [(8, 4)], 4, 1, 0, by decide +kernel⟩,
  ⟨imgst .prologue (updst { rehome := [0] } (one (lay [(8, 4)]))), 0, 0, none, job, by decide +kernel⟩,
  ⟨{ verd (some .indeterminate) run with step := { (verd (some .indeterminate) run).step with pollAt := some 5 } }, 5, 7, job, 2, 0x41, (sendReq (advanceTo 5 { verd (some .indeterminate) run with step := { (verd (some .indeterminate) run).step with pollAt := some 5 } }) (.verdict 7) true { blankPkt { verd (some .indeterminate) run with step := { (verd (some .indeterminate) run).step with pollAt := some 5 } } ptRead 0x41 24 24 with fmt := 1, addr := w64 ((job.verdictRing + 32 * ((7 : DWord).toNat % 4)) / 64 * 64) }).getD State.reset, by exact ⟨by decide +kernel, by decide +kernel, by decide +kernel, by decide +kernel, by decide +kernel, got State.reset _ (by decide +kernel)⟩⟩,
  ⟨{ run with step := { run.step with resolveAt := some 5 } }, 5, by decide +kernel⟩⟩

/-- The hypotheses of FinisherSteps can be met, clause by clause. -/
theorem test_hypotheses_FinisherSteps :
  (∃ s : State, ∃ q : Pass2, s.upd.p2 = some q ∧ s.upd.finWaitStack = true ∧ (∃ n : Stack, s.mem.st[n].emergency = true)) ∧
  (∃ s : State, ∃ q : Pass2, ∃ v : State, ∃ u : State, ∃ r : ImageState, s.upd.p2 = some q ∧ finActive s = true ∧ s.upd.finWaitStack = false ∧ takeJournal s = (false, v) ∧ u = (withJerr (false, finOuter q (finCompute v))).2 ∧ u.upd.p2 = none ∧ u.upd.replay = some r ∧ u.img.st ≠ .shadow ∧ (getObj u (.glob 4)).waiters = []) ∧
  (∃ s : State, ∃ q : Pass2, ∃ v : State, ∃ u : State, ∃ a : Attempt, s.upd.p2 = some q ∧ finActive s = true ∧ s.upd.finWaitStack = false ∧ takeJournal s = (false, v) ∧ u = (withJerr (false, finOuter q (finCompute v))).2 ∧ u.upd.p2 = none ∧ u.upd.replay = none ∧ u.upd.fault = true ∧ attempt u q.att = some a ∧ a.recorded = false ∧ u.img.st ≠ .none ∧ u.img.st ≠ .shadow) ∧
  (∃ s : State, ∃ q : Pass2, ∃ v : State, s.upd.p2 = some q ∧ finActive s = true ∧ s.upd.finWaitStack = false ∧ takeJournal s = (true, v) ∧ anyEmergency v = false ∧ v.upd.replay = none ∧ v.img.st ≠ .none) ∧
  (∃ s : State, ∃ q : Pass2, ∃ desc : Fin 4096, ∃ chunk : Nat, ∃ data : List Byte, ∃ v : State, s.upd.p2 = some q ∧ finActive s = true ∧ wantsFetch s q desc.val chunk = true ∧ chunk < nChunks (ldesc s desc.val) ∧ chunkDone s desc.val chunk = false ∧ data.length = innerLen (ldesc s desc.val) chunk ∧ putInner s (ldesc s desc.val) chunk data = (false, v)) ∧
  (∃ s : State, ∃ q : Pass2, ∃ desc : Fin 4096, ∃ chunk : Nat, ∃ src : Option DWord, s.upd.p2 = some q ∧ finActive s = true ∧ wantsFetch s q desc.val chunk = true ∧ src ≠ some q.step ∧ s.upd.tries + 1 < fetchPeers s (decide (nChunks (ldesc s desc.val) ≤ chunk))) ∧
  (∃ s : State, ∃ q : Pass2, ∃ desc : Fin 4096, ∃ chunk : Nat, ∃ src : Option DWord, s.upd.p2 = some q ∧ finActive s = true ∧ wantsFetch s q desc.val chunk = true ∧ src ≠ some q.step ∧ fetchPeers s (decide (nChunks (ldesc s desc.val) ≤ chunk)) ≤ s.upd.tries + 1 ∧ s.upd.replay = none ∧ s.img.st ≠ .none ∧ (chunk < nChunks (ldesc s desc.val) ∨ lLayer (ldesc s desc.val) ∉ s.upd.seek)) ∧
  (∃ s : State, ∃ q : Pass2, ∃ desc : Fin 4096, ∃ chunk : Nat, ∃ src : Option DWord, s.upd.p2 = some q ∧ finActive s = true ∧ wantsFetch s q desc.val chunk = true ∧ src ≠ some q.step ∧ fetchPeers s true ≤ s.upd.tries + 1 ∧ nChunks (ldesc s desc.val) ≤ chunk ∧ lLayer (ldesc s desc.val) ∈ s.upd.seek) ∧
  (∃ s : State, ∃ n : DWord, ∃ entry : List Byte, ∃ p : JobParams, s.img.st = .shadow ∧ s.upd.p2 = none ∧ n = s.step.ctr + 1 ∧ leAt entry 0 8 = n.toNat ∧ leAt entry 0x10 1 ≠ 0 ∧ leAt entry 8 8 = s.upd.shadowAtt.toNat ∧ s.upd.shadowGot = true ∧ updParams s = some p) ∧
  (∃ s : State, ∃ n : DWord, ∃ entry : List Byte, (s.img.st ≠ .shadow ∨ s.upd.p2 ≠ none ∨ n ≠ s.step.ctr + 1 ∨ leAt entry 8 8 ≠ s.upd.shadowAtt.toNat ∨ s.upd.shadowGot = false)) :=
  ⟨⟨updst { p2 := some q2, finWaitStack := true } { run with mem := { st := Vector.replicate 24 { inService := true, emergency := true } } }, q2, by decide +kernel⟩,
  ⟨updst { p2 := some q2, replay := some { img with layers := [lay [(4, 1), (8, 1), (0x18, 0x1000), (0x20, 0x2000), (0x28, 0x3000), (0x30, 0x4000), (0x38, 0x6000), (0x54, 0), (0x58, 0x3F800000)]] } } run, q2, (takeJournal (updst { p2 := some q2, replay := some { img with layers := [lay [(4, 1), (8, 1), (0x18, 0x1000), (0x20, 0x2000), (0x28, 0x3000), (0x30, 0x4000), (0x38, 0x6000), (0x54, 0), (0x58, 0x3F800000)]] } } run)).2, (withJerr (false, finOuter q2 (finCompute (takeJournal (updst { p2 := some q2, replay := some { img with layers := [lay [(4, 1), (8, 1), (0x18, 0x1000), (0x20, 0x2000), (0x28, 0x3000), (0x30, 0x4000), (0x38, 0x6000), (0x54, 0), (0x58, 0x3F800000)]] } } run)).2))).2, { img with layers := [lay [(4, 1), (8, 1), (0x18, 0x1000), (0x20, 0x2000), (0x28, 0x3000), (0x30, 0x4000), (0x38, 0x6000), (0x54, 0), (0x58, 0x3F800000)]] }, by exact ⟨by decide +kernel, by decide +kernel, by decide +kernel, Prod.ext (by decide +kernel) rfl, rfl, by decide +kernel, by decide +kernel, by decide +kernel, by decide +kernel⟩⟩,
  ⟨updst { p2 := some q2, fault := true } (one (lay [(4, 1), (8, 1), (0x18, 0x1000), (0x20, 0x2000), (0x28, 0x3000), (0x30, 0x4000), (0x38, 0x6000), (0x54, 0), (0x58, 0x3F800000)])), q2, (takeJournal (updst { p2 := some q2, fault := true } (one (lay [(4, 1), (8, 1), (0x18, 0x1000), (0x20, 0x2000), (0x28, 0x3000), (0x30, 0x4000), (0x38, 0x6000), (0x54, 0), (0x58, 0x3F800000)])))).2, (withJerr (false, finOuter q2 (finCompute (takeJournal (updst { p2 := some q2, fault := true } (one (lay [(4, 1), (8, 1), (0x18, 0x1000), (0x20, 0x2000), (0x28, 0x3000), (0x30, 0x4000), (0x38, 0x6000), (0x54, 0), (0x58, 0x3F800000)])))).2))).2, { att := 7, step := 3, committed := true }, by exact ⟨by decide +kernel, by decide +kernel, by decide +kernel, Prod.ext (by decide +kernel) rfl, rfl, by decide +kernel, by decide +kernel, by decide +kernel, by decide +kernel, by decide +kernel, by decide +kernel, by decide +kernel⟩⟩,
  ⟨updst { p2 := some q2, fault := true } { run with mem := { run.mem with poison := (gransOf run.mem 0x20000 64).map fun g => (g.1, true) } }, q2, (takeJournal (updst { p2 := some q2, fault := true } { run with mem := { run.mem with poison := (gransOf run.mem 0x20000 64).map fun g => (g.1, true) } })).2, by exact ⟨by decide +kernel, by decide +kernel, by decide +kernel, Prod.ext (by decide +kernel) rfl, by decide +kernel, by decide +kernel, by decide +kernel⟩⟩,
  ⟨updst { p2 := some q2, fault := true } (one (lay [(2, 1), (4, 1), (8, 4), (0x18, 0x1000), (0x20, 0x2000), (0x28, 0x3000), (0x30, 0x4000)])), q2, 0, 0, List.replicate 48 0, (putInner (updst { p2 := some q2, fault := true } (one (lay [(2, 1), (4, 1), (8, 4), (0x18, 0x1000), (0x20, 0x2000), (0x28, 0x3000), (0x30, 0x4000)]))) (lay [(2, 1), (4, 1), (8, 4), (0x18, 0x1000), (0x20, 0x2000), (0x28, 0x3000), (0x30, 0x4000)]) 0 (List.replicate 48 0)).2, by decide +kernel⟩,
  ⟨updst { p2 := some q2, fault := true } (one (lay [(2, 1), (8, 4)])), q2, 0, 0, none, by decide +kernel⟩,
  ⟨updst { p2 := some q2, fault := true, tries := 1 } (one (lay [(2, 1), (8, 4)])), q2, 0, 0, none, by exact ⟨by decide +kernel, by decide +kernel, by decide +kernel, by decide +kernel, by decide +kernel, by decide +kernel, by decide +kernel, .inl (by decide +kernel)⟩⟩,
  ⟨updst { p2 := some { q2 with outer := true }, fault := true, seek := [0], tries := 9 } { one (lay [(3, 16), (2, 1), (4, 1), (8, 4), (0x18, 0x1000), (0x20, 0x2000), (0x28, 0x3000), (0x30, 0x4000)]) with mem := { run.mem with hbm := store ((List.range 24).map fun d => (0x20060 + 8 * d, 1, 1)) } }, { q2 with outer := true }, 0, 1, none, by decide +kernel⟩,
  ⟨imgst .shadow (updst { shadowGot := true } run), 1, [1] ++ List.replicate 15 0 ++ [1] ++ List.replicate 15 0, prm, by decide +kernel⟩,
  ⟨run, 1, [], by decide +kernel⟩⟩

/-- The hypotheses of LightAndCodewords can be met, clause by clause. -/
theorem test_hypotheses_LightAndCodewords :
  (∃ i : Instr, ∃ st : Option (BitVec 32), ∃ s : State, (i = .lsIbi st ∨ i = .lsStatusPoll st) ∧ s.opt.present = true) ∧
  (∃ w : BitVec 32, ∃ s : State, s.opt.present = true ∧ bitAt w 0 = true) ∧
  (∃ j : Fin 14, ∃ s : State, s.opt.feedOk.getLsbD j.val = true) ∧
  (∃ j : Fin 14, ∃ s : State, s.opt.on = true ∧ s.opt.feedOk.getLsbD j.val = false) ∧
  (∃ ch : Chan, ∃ hdr : BitVec 20, ∃ s : State, s.opt.on = true ∧ chanExists ch = true ∧ (ring s ⟨ch, true⟩).st = .locked ∧ bitAt hdr 10 = false) ∧
  (∃ ch : Chan, ∃ hdr : BitVec 20, ∃ p : Packet, ∃ s : State, s.opt.on = true ∧ chanExists ch = true ∧ (ring s ⟨ch, true⟩).st = .locked ∧ bitAt hdr 10 = false ∧ p.type = ptWrite) ∧
  (∃ ch : Chan, ∃ s : State, s.opt.on = true ∧ chanExists ch = true ∧ (ring s ⟨ch, true⟩).st = .locked ∧ (SMap.get ({} : FecSec) s.opt.fec (chanNo ch)).unc < 16) ∧
  (∃ ch : Chan, ∃ hdr : BitVec 20, ∃ s : State, s.opt.on = true ∧ chanExists ch = true ∧ (ring s ⟨ch, true⟩).st = .rest ∧ bitAt hdr 10 = false) ∧
  (∃ ch : Chan, ∃ hdr : BitVec 20, ∃ s : State, s.opt.on = true ∧ chanExists ch = true ∧ (ring s ⟨ch, true⟩).st = .locked ∧ bitAt hdr 10 = true) :=
  ⟨⟨.lsIbi none, none, up, by decide +kernel⟩,
  ⟨1, up, by decide +kernel⟩,
  ⟨0, up, by decide +kernel⟩,
  ⟨0, { up with opt := { up.opt with feedOk := 0 } }, by decide +kernel⟩,
  ⟨ch0, 0, ringst ⟨ch0, true⟩ { st := .locked } up, by decide +kernel⟩,
  ⟨ch0, 0, msg ptWrite 1, ringst ⟨ch0, true⟩ { st := .locked } up, by decide +kernel⟩,
  ⟨ch0, ringst ⟨ch0, true⟩ { st := .locked } up, by decide +kernel⟩,
  ⟨ch0, 0, ringst ⟨ch0, true⟩ { st := .rest } up, by decide +kernel⟩,
  ⟨ch0, 1024, ringst ⟨ch0, true⟩ { st := .locked } up, by decide +kernel⟩⟩

/-- The hypotheses of RingControl can be met, clause by clause. -/
theorem test_hypotheses_RingControl :
  (∃ r : Ring, ∃ s : State, mayAcquire s r = true) ∧
  (∃ i : Instr, ∃ r : Ring, ∃ s : State, ((i = .ringAcquireDone r none ∧ mayAcquire s r = true) ∨ (i = .ringVerifyDone r none ∧ (ring s r).st = .verify))) ∧
  (∃ r : Ring, ∃ s : State, (ring s r).st = .verify) ∧
  (∃ i : Instr, ∃ r : Ring, ∃ w : Fin 16, ∃ s : State, ((i = .ringVerifyDone r (some w) ∧ (ring s r).st = .verify) ∨ (i = .ditherWindow r (some w) ∧ (ring s r).st = .locked)) ∧ w ≠ r.ch.lambda ∧ (ring s r).mis = [] ∧ (ring s r).tries < 3) ∧
  (∃ r : Ring, ∃ w : Fin 16, ∃ s : State, (ring s r).st = .locked ∧ w ≠ r.ch.lambda ∧ 2 ≤ ((ring s r).mis.filter fun n => decide (s.clk < n + 10000000000)).length) ∧
  (∃ r : Ring, ∃ s : State, (ring s r).st = .locked) ∧
  (∃ r : Ring, ∃ s : State, (ring s r).st = .locked) ∧
  (∃ port : Fin 6, ∃ fib : Fin 16, ∃ rx : Bool, ∃ s : State, ∃ prev : Int, fib.val < portFibres port.val ∧ SMap.get none s.opt.bankT (bankNo port fib rx) = some prev) :=
  ⟨⟨⟨ch0, false⟩, ringst ⟨ch0, false⟩ { st := .parked } up, by decide +kernel⟩,
  ⟨.ringAcquireDone ⟨ch0, false⟩ none, ⟨ch0, false⟩, ringst ⟨ch0, false⟩ { st := .parked } up, by decide +kernel⟩,
  ⟨⟨ch0, false⟩, ringst ⟨ch0, false⟩ { st := .verify } up, by decide +kernel⟩,
  ⟨.ringVerifyDone ⟨ch0, false⟩ (some 1), ⟨ch0, false⟩, 1, ringst ⟨ch0, false⟩ { st := .verify } up, by decide +kernel⟩,
  ⟨⟨ch0, false⟩, 1, ringst ⟨ch0, false⟩ { st := .locked, mis := [0, 0] } up, by decide +kernel⟩,
  ⟨⟨ch0, false⟩, ringst ⟨ch0, false⟩ { st := .locked } up, by decide +kernel⟩,
  ⟨⟨ch0, false⟩, ringst ⟨ch0, false⟩ { st := .locked } up, by decide +kernel⟩,
  ⟨0, 0, false, { up with opt := { up.opt with bankT := [(0, some 5)] } }, 5, by decide +kernel⟩⟩

/-- The hypotheses of RestAndShutters can be met, clause by clause. -/
theorem test_hypotheses_RestAndShutters :
  (∃ ch : Chan, ∃ s : State, serving s ch = true ∧ ch.lambda.val = (restLine s + 1) % 16) ∧
  (∃ w : Lcw, ∃ s : State, w.naks = [] ∧ s.fab.waiting = [] ∧ (link s w.about).closing = true ∧ (link s w.about).rest = false ∧ (∀ u ∈ (link s w.about).unacked, serialAtOrBefore 16 u.pkt.lsn.toNat w.ack.toNat = true) ∧ w.about.lambda.val = restLine s ∧ SMap.get false s.opt.skip (chanNo w.about) = false ∧ (ring s ⟨w.about, false⟩).st = .locked) ∧
  (∃ ch : Chan, ∃ s : State, (ring s ⟨ch, false⟩).st = .rest) ∧
  (∃ ch : Chan, ∃ s : State, (link s ch).closing = true ∧ (link s ch).rest = false ∧ ch.lambda.val = restLine s ∧ (link s ch).unacked ≠ [] ∧ SMap.get false s.opt.skip (chanNo ch) = false ∧ 2000000 ≤ intoSlot s) ∧
  (∃ s : State, s.opt.on = true) ∧
  (∃ port : Fin 6, ∃ fib : Fin 16, ∃ s : State, s.opt.on = true ∧ fib.val < portFibres port.val ∧ SMap.get 1 s.opt.closed (shutNo port fib) = 0) ∧
  (∃ port : Fin 6, ∃ fib : Fin 16, ∃ s : State, ∃ n : Nat, s.opt.on = true ∧ fib.val < portFibres port.val ∧ SMap.get 1 s.opt.closed (shutNo port fib) = n + 1) ∧
  (∃ port : Fin 6, ∃ fib : Fin 16, ∃ s : State, s.opt.on = true ∧ fib.val < portFibres port.val) :=
  ⟨⟨⟨0, 0, 1⟩, { up with dl := { groups := [(576, lanes 68), (577, lanes 68)] }, opt := { up.opt with closed := [(0, 0)], rings := [(ringNo ⟨⟨0, 0, 1⟩, false⟩, { st := .locked }), (ringNo ⟨⟨0, 0, 1⟩, true⟩, { st := .locked })] } }, by decide +kernel⟩,
  ⟨⟨ch0, 0, [], []⟩, links ch0 { closing := true } (ringst ⟨ch0, false⟩ { st := .locked } up), by decide +kernel⟩,
  ⟨ch0, ringst ⟨ch0, false⟩ { st := .rest } up, by decide +kernel⟩,
  ⟨ch0, links ch0 { closing := true, unacked := [⟨msg ptWrite 1, 0, 0⟩] } { up with tb := 2000000 }, by decide +kernel⟩,
  ⟨up, by decide +kernel⟩,
  ⟨0, 0, { up with opt := { up.opt with closed := [(0, 0)] } }, by decide +kernel⟩,
  ⟨0, 0, up, 0, by decide +kernel⟩,
  ⟨0, 0, up, by decide +kernel⟩⟩

/-- The hypotheses of DieLinkFlits can be met, clause by clause. -/
theorem test_hypotheses_DieLinkFlits :
  (∃ g : Fin 688, ∃ chk : BitVec 32, ∃ data : List Byte, ∃ s : State, grpWidth (grp s g.val) ≠ 2 ∧ (grp s g.val).retrainAt = none ∧ fld chk 31 16 = crc16 data ∧ fld chk 15 10 = (grp s g.val).rxNext.toNat ∧ fld chk 3 0 ≠ 1) ∧
  (∃ g : Fin 688, ∃ chk : BitVec 32, ∃ data : List Byte, ∃ s : State, grpWidth (grp s g.val) ≠ 2 ∧ (grp s g.val).retrainAt = none ∧ (fld chk 31 16 ≠ crc16 data ∨ fld chk 15 10 ≠ (grp s g.val).rxNext.toNat)) ∧
  (∃ g : Fin 688, ∃ s : State, (grp s g.val).sent ≠ (grp s g.val).acked ∧ (grp s g.val).replays ≠ 7) ∧
  (∃ g : Fin 688, ∃ s : State, (grp s g.val).sent ≠ (grp s g.val).acked ∧ (grp s g.val).replays = 7 ∧ 3 ≤ s.dl.level) :=
  ⟨⟨0, 0xFFFF0000, [], group (lanes 68), by decide +kernel⟩,
  ⟨0, 0, [], group (lanes 68), by decide +kernel⟩,
  ⟨0, group { lanes 68 with sent := 1 }, by decide +kernel⟩,
  ⟨0, group { lanes 68 with sent := 1, replays := 7 }, by decide +kernel⟩⟩

/-- The hypotheses of DieLinkLanes can be met, clause by clause. -/
theorem test_hypotheses_DieLinkLanes :
  (∃ g : Fin 688, ∃ lane : Fin 68, ∃ s : State, ∃ sp : Nat, (laneRole (grp s g.val) lane.val).carries = true ∧ 2 ≤ s.dl.level ∧ takingSpare (grp s g.val) = some sp) ∧
  (∃ g : Fin 688, ∃ lane : Fin 68, ∃ s : State, (laneRole (grp s g.val) lane.val).carries = true ∧ 3 ≤ s.dl.level ∧ takingSpare (grp s g.val) = none) ∧
  (∃ g : Fin 688, ∃ s : State, grpWidth (grp s g.val) ≠ 2 ∧ (grp s g.val).retrainAt = none ∧ 3 ≤ s.dl.level) ∧
  (∃ g : Fin 688, ∃ s : State, grpWidth (grp s g.val) ≠ 2 ∧ (grp s g.val).retrainAt = none ∧ s.dl.level < 3) ∧
  (∃ g : Fin 688, ∃ lane : Fin 68, ∃ s : State, ∃ sp : Nat, (grp s g.val).recal = none ∧ (grp s g.val).retrainAt = none ∧ (laneRole (grp s g.val) lane.val).carries = true ∧ 2 ≤ s.dl.level ∧ takingSpare (grp s g.val) = some sp) ∧
  (∃ g : Fin 688, ∃ lane : Fin 68, ∃ s : State, ∃ n : Nat, (grp s g.val).recal = none ∧ (grp s g.val).retrainAt = some n ∧ (laneRole (grp s g.val) lane.val).isOff = false) ∧
  (∃ g : Fin 688, ∃ lane : Fin 68, ∃ s : State, (grp s g.val).recal = none ∧ (grp s g.val).retrainAt = none ∧ (laneRole (grp s g.val) lane.val).carries = true ∧ 3 ≤ s.dl.level ∧ takingSpare (grp s g.val) = none) ∧
  (∃ g : Fin 688, ∃ s : State, ∃ n : Nat, (grp s g.val).retrainAt = some n) ∧
  (∃ good : Nat → Bool, 65 ≤ ((List.range 68).filter good).length) ∧
  (∃ good : Nat → Bool, 33 ≤ ((List.range 68).filter good).length ∧ ((List.range 68).filter good).length < 65) ∧
  (∃ good : Nat → Bool, ((List.range 68).filter good).length < 33) ∧
  (∃ g : Fin 688, ∃ lane : Fin 68, ∃ s : State, ∃ sp : Nat, (grp s g.val).recal = none ∧ (grp s g.val).retrainAt = none ∧ (laneRole (grp s g.val) lane.val).carries = true ∧ takingSpare (grp s g.val) = some sp) ∧
  (∃ g : Fin 688, ∃ r : Recal, ∃ s : State, (grp s g.val).recal = some r ∧ r.lane < 68 ∧ r.spare < 68 ∧ (grp s g.val).lanes.length = 68) :=
  ⟨⟨0, 0, group (lanes 68), 65, by decide +kernel⟩,
  ⟨0, 0, group (lanes 65), by decide +kernel⟩,
  ⟨0, group (lanes 68), by decide +kernel⟩,
  ⟨0, { group (lanes 68) with dl := { groups := [(0, lanes 68)], level := 2 } }, by decide +kernel⟩,
  ⟨0, 0, group (lanes 68), 65, by decide +kernel⟩,
  ⟨0, 0, group { lanes 68 with retrainAt := some 5 }, 5, by decide +kernel⟩,
  ⟨0, 0, group (lanes 65), by decide +kernel⟩,
  ⟨0, group { lanes 68 with retrainAt := some 5 }, 5, by decide +kernel⟩,
  ⟨fun _ => true, by decide +kernel⟩,
  ⟨fun l => decide (l < 64), by decide +kernel⟩,
  ⟨fun l => decide (l < 32), by decide +kernel⟩,
  ⟨0, 0, group (lanes 68), 65, by decide +kernel⟩,
  ⟨0, ⟨0, 65, 5⟩, group { lanes 68 with recal := some ⟨0, 65, 5⟩ }, by decide +kernel⟩⟩

/-- The hypotheses of StartFromFlash can be met, clause by clause. -/
theorem test_hypotheses_StartFromFlash :
  (∃ s : State, ∃ i : Instr, ∃ k : Nat, ∃ need : List Nat, stageOf i = some (k, need) ∧ stageDue s k need = false) ∧
  (∃ aOk : Bool, ∃ bOk : Bool, ∃ s : State, ∃ b : Bool, startAt s (.startRom aOk bOk) ∧ copyTaken ((bootRecord s.flash).elim false (·.fwB)) (aOk && fwOk s (fwBase false)) (bOk && fwOk s (fwBase true)) = some b) ∧
  (∃ aOk : Bool, ∃ bOk : Bool, ∃ s : State, startAt s (.startRom aOk bOk) ∧ (aOk && fwOk s (fwBase false)) = false ∧ (bOk && fwOk s (fwBase true)) = false) ∧
  (∃ a : Option PlatformImage, ∃ b : Option PlatformImage, ∃ s : State, ∃ c : Bool, ∃ p : PlatformImage, startAt s (.startPlatform a b) ∧ copyTaken ((bootRecord s.flash).elim false (·.piB)) (platCopy s false a).isSome (platCopy s true b).isSome = some c ∧ platCopy s c (if c = true then b else a) = some p) ∧
  (∃ s : State, ∃ c : Bool, ∃ x : Option PlatformImage, ∃ p : PlatformImage, platCopy s c x = some p) ∧
  (∃ a : Option PlatformImage, ∃ b : Option PlatformImage, ∃ s : State, startAt s (.startPlatform a b) ∧ platCopy s false a = none ∧ platCopy s true b = none) ∧
  (∃ s : State, passed s stPower = true ∧ s.clocks.xtal ≠ .stable ∧ s.clocks.failAt = none) ∧
  (∃ s : State, s.start.fin = .running ∧ passed s stPower = true ∧ passed s stClocks = false ∧ s.clocks.xtal ≠ .stable) ∧
  (∃ r1 : BitVec 10, ∃ s1 : BitVec 6, ∃ r2 : BitVec 10, ∃ s2 : BitVec 6, ∃ s : State, ∃ p : PlatformImage, startAt s (.startClocks r1 s1 r2 s2) ∧ s.clocks.xtal = .stable ∧ s.plat = some p) ∧
  (∃ i : Instr, ∃ s : State, stageOf i = some (3, [2]) ∧ s.clocks.xtal ≠ .stable) :=
  ⟨⟨State.reset, .startReady, 10, [0, 1, 2, 3, 4, 5, 6, 7, 8, 9], by decide +kernel⟩,
  ⟨true, false, stage 1, false, by simp only [start_iff]; decide +kernel⟩,
  ⟨false, false, stage 1, by simp only [start_iff]; decide +kernel⟩,
  ⟨some platImg, none, stage 2, false, (platCopy (stage 2) false (some platImg)).getD platImg, by exact ⟨by simp only [start_iff]; decide +kernel, by decide +kernel, got platImg _ (by decide +kernel)⟩⟩,
  ⟨stage 2, false, some platImg, (platCopy (stage 2) false (some platImg)).getD platImg, by exact got platImg _ (by decide +kernel)⟩,
  ⟨some platImg, none, { stage 2 with flash := {} }, by simp only [start_iff]; decide +kernel⟩,
  ⟨{ stage 3 with clocks := {} }, by decide +kernel⟩,
  ⟨{ stage 3 with clocks := {} }, by decide +kernel⟩,
  ⟨0, 0, 0, 0, stage 3, platImg, by simp only [start_iff]; decide +kernel⟩,
  ⟨.startClocks 0 0 0 0, { stage 3 with clocks := {} }, by decide +kernel⟩⟩

/-- The hypotheses of IdentityAndDieLinks can be met, clause by clause. -/
theorem test_hypotheses_IdentityAndDieLinks :
  (∃ rs : List (BitVec 128), ∃ s : State, ∃ p : PlatformImage, startAt s (.startIdentity rs) ∧ s.plat = some p ∧ (∀ i, i < 32 → recFault s i (rs.getD i 0) = 0) ∧ (∀ i l, i < 32 → matrixLevel s (rs.getD i 0) = some l → 1 ≤ l ∧ p.minLevel ≤ l) ∧ p.minLevel ≤ 3) ∧
  (∃ rs : List (BitVec 128), ∃ s : State, ∃ i : Nat, startAt s (.startIdentity rs) ∧ i < 32 ∧ recFault s i (rs.getD i 0) ≠ 0) ∧
  (∃ rs : List (BitVec 128), ∃ s : State, ∃ p : PlatformImage, ∃ i : Nat, ∃ l : Nat, startAt s (.startIdentity rs) ∧ s.plat = some p ∧ (∀ j, j < 32 → recFault s j (rs.getD j 0) = 0) ∧ i < 32 ∧ matrixLevel s (rs.getD i 0) = some l ∧ (l = 0 ∨ l < p.minLevel)) ∧
  (∃ bad : List (Nat × BitVec 68), ∃ s : State, startAt s (.startDieLinks bad)) :=
  ⟨⟨idents 1 1, stage 4, platImg, by exact ⟨by simp only [start_iff]; decide +kernel, by decide +kernel, by decide +kernel, fun i l hi h => by have e : ∀ i, i < 32 → matrixLevel (stage 4) ((idents 1 1).getD i 0) = some 3 := (by decide +kernel); rw [e i hi] at h; cases h; decide +kernel, by decide +kernel⟩⟩,
  ⟨[], stage 4, 31, by simp only [start_iff]; decide +kernel⟩,
  ⟨idents 1 1, { stage 4 with otp := { idMatrix := [0x80010100] } }, platImg, 31, 0, by simp only [start_iff]; decide +kernel⟩,
  ⟨[], stage 5, by simp only [start_iff]; decide +kernel⟩⟩

/-- The hypotheses of StartToReady can be met, clause by clause. -/
theorem test_hypotheses_StartToReady :
  (∃ pts : List StackTraining, ∃ sr : Bool, ∃ bad : List (Stack × Fin 32), ∃ s : State, ∃ p : PlatformImage, startAt s (.startMemory pts sr bad) ∧ s.plat = some p) ∧
  (∃ f : BitVec 24, ∃ s : State, startAt s (.startSelftest f)) ∧
  (∃ ls : Option Word, ∃ fs : List (Option Word), ∃ bad : List Ring, ∃ s : State, ∃ p : PlatformImage, startAt s (.startOptics ls fs bad) ∧ s.plat = some p) ∧
  (∃ s : State, ∃ ok : Bool, startAt s (.startReplay ok) ∧ s.start.kept = false) ∧
  (∃ s : State, ∃ img : ImageState, startAt s (.startReplay false) ∧ s.start.kept = true ∧ s.flash.active = some img ∧ journalState { s with upd := { s.upd with replay := some img } } = 1) ∧
  (∃ s : State, ∃ img : ImageState, startAt s (.startReplay true) ∧ s.start.kept = true ∧ s.flash.active = some img ∧ journalState { s with upd := { s.upd with replay := some img } } = 1) ∧
  (∃ s : State, startAt s .startReady) :=
  ⟨⟨[], false, [], stage 6, platImg, by simp only [start_iff]; decide +kernel⟩,
  ⟨0, stage 7, by simp only [start_iff]; decide +kernel⟩,
  ⟨none, [], [], stage 8, platImg, by simp only [start_iff]; decide +kernel⟩,
  ⟨stage 9, false, by simp only [start_iff]; decide +kernel⟩,
  ⟨{ stage 9 with start := { passed := 0x1FF, kept := true }, flash := { active := some img }, mem := { (stage 9).mem with hbm := [(0x20010, 1)] } }, img, by simp only [start_iff]; decide +kernel⟩,
  ⟨{ stage 9 with start := { passed := 0x1FF, kept := true }, flash := { active := some img }, mem := { (stage 9).mem with hbm := [(0x20010, 1)] } }, img, by simp only [start_iff]; decide +kernel⟩,
  ⟨{ stage 10 with start := { passed := 0x3FF } }, by simp only [start_iff]; decide +kernel⟩⟩

/-- The hypotheses of ClocksAndMuxes can be met, clause by clause. -/
theorem test_hypotheses_ClocksAndMuxes :
  (∃ s : State, s.clocks.xtal = .stable) ∧
  (∃ dom : Fin 59, ∃ s : State, passed s stPower = true ∧ (mux s dom.val).dead = false) ∧
  (∃ dom : Fin 59, ∃ s : State, ∃ n : Nat, (mux s dom.val).reqAt = some n) ∧
  (∃ dom : Fin 59, ∃ s : State, ∃ n : Nat, dom.val < 24 ∧ (mux s dom.val).reqAt = some n ∧ (mux s dom.val).forced = true) ∧
  (∃ dom : Fin 59, ∃ s : State, ∃ n : Nat, 24 ≤ dom.val ∧ (mux s dom.val).reqAt = some n ∧ (mux s dom.val).forced = true) ∧
  (∃ d : Die, ∃ s : State, passed s stClocks = true ∧ (die s d).coreReset = false) :=
  ⟨⟨up, by decide +kernel⟩,
  ⟨0, up, by decide +kernel⟩,
  ⟨0, { up with clocks := { mux := [(0, { reqAt := some 5 })] } }, 5, by decide +kernel⟩,
  ⟨0, { up with clocks := { mux := [(0, { reqAt := some 5, forced := true })] } }, 5, by decide +kernel⟩,
  ⟨24, { up with clocks := { mux := [(24, { reqAt := some 5, forced := true })] } }, 5, by decide +kernel⟩,
  ⟨0, up, by decide +kernel⟩⟩

/-- The hypotheses of DieTemperatures can be met, clause by clause. -/
theorem test_hypotheses_DieTemperatures :
  (∃ x : Int, ∃ s : State, passed s stClocks = true ∧ x < threshold s 3) ∧
  (∃ s : State, s.plat = none) ∧
  (∃ d : Die, ∃ x : Int, ∃ s : State, passed s stClocks = true ∧ threshold s 3 ≤ x ∧ (die s d).out = false) ∧
  (∃ d : Die, ∃ s : State, passed s stClocks = true ∧ s.clocks.dies[d].fails ≠ 2) ∧
  (∃ d : Die, ∃ s : State, passed s stClocks = true ∧ s.clocks.dies[d].fails = 2) ∧
  (∃ d : Die, ∃ s : State, s.clocks.dies[d].fails ≠ 0 ∧ (die s d).out = false) ∧
  (∃ d : Die, ∃ s : State, ∃ n : Nat, s.clocks.dies[d].hotAt = some n) ∧
  (∃ d : Die, ∃ s : State, ∃ n : Nat, s.clocks.dies[d].coolAt = some n ∧ s.clocks.dies[d].limit ≠ 0) ∧
  (∃ s : State, ∃ d : Die, s.mem.st[d].emergency = false ∧ lowestPoint s = 6) :=
  ⟨⟨0, up, by decide +kernel⟩,
  ⟨up, by decide +kernel⟩,
  ⟨0, 1040, up, by decide +kernel⟩,
  ⟨0, up, by decide +kernel⟩,
  ⟨0, { up with clocks := { dies := Vector.replicate 24 { fails := 2 } } }, by decide +kernel⟩,
  ⟨0, { up with clocks := { dies := Vector.replicate 24 { fails := 1 } } }, by decide +kernel⟩,
  ⟨0, { up with clocks := { dies := Vector.replicate 24 { hotAt := some 5 } } }, 5, by decide +kernel⟩,
  ⟨0, { up with clocks := { dies := Vector.replicate 24 { coolAt := some 5, limit := 1 } } }, 5, by decide +kernel⟩,
  ⟨up, 0, by decide +kernel⟩⟩

/-- The hypotheses of Timebase can be met, clause by clause. -/
theorem test_hypotheses_Timebase :
  (∃ ppm : Int, ∃ s : State, s.clocks.xtal = .stable ∧ -100 ≤ ppm ∧ ppm ≤ 100) ∧
  (∃ ppm : Int, ∃ s : State, s.clocks.xtal = .stable ∧ (ppm < -100 ∨ 100 < ppm)) ∧
  (∃ s : State, (sext 24 (fld s.tb 23 0)).natAbs ≤ 1000 ∧ s.tbs.next = none) ∧
  (∃ s : State, 1000 < (sext 24 (fld s.tb 23 0)).natAbs ∧ s.tbs.next = none ∧ (∀ b, s.tbs.big = some b → 100 < (sext 24 (fld s.tb 23 0) - b).natAbs)) ∧
  (∃ s : State, ∃ b : Int, 1000 < (sext 24 (fld s.tb 23 0)).natAbs ∧ s.tbs.next = none ∧ s.tbs.big = some b ∧ (sext 24 (fld s.tb 23 0) - b).natAbs ≤ 100) ∧
  (∃ s : State, ∃ v : BitVec 40, (sext 24 (fld s.tb 23 0)).natAbs ≤ 1000 ∧ s.tbs.next = some v ∧ (s.tbs.absSet = false ∨ s.tbs.frameOff = some (v - edgeCount s))) ∧
  (∃ s : State, ∃ v : BitVec 40, (sext 24 (fld s.tb 23 0)).natAbs ≤ 1000 ∧ s.tbs.next = some v ∧ s.tbs.absSet = true ∧ edgeCount s ≠ v ∧ s.tbs.frameOff ≠ some (v - edgeCount s)) ∧
  (∃ b : BitVec 64, fld b 63 56 = 0x2D ∧ fld b 15 0 = crc16Bits 48 (fld b 63 16)) ∧
  (∃ b : BitVec 64, (fld b 63 56 ≠ 0x2D ∨ fld b 15 0 ≠ crc16Bits 48 (fld b 63 16))) ∧
  (∃ s : State, ∃ n : Nat, s.tbs.lastEdge = some n ∧ s.tbs.st = .locked) :=
  ⟨⟨100, up, by decide +kernel⟩,
  ⟨101, up, by decide +kernel⟩,
  ⟨tbst 1000 {} up, by decide +kernel⟩,
  ⟨tbst 1001 {} up, by exact ⟨by decide +kernel, by decide +kernel, fun b h => by cases h⟩⟩,
  ⟨tbst 1001 { big := some 901 } up, 901, by decide +kernel⟩,
  ⟨tbst 1000 { next := some 5 } up, 5, by decide +kernel⟩,
  ⟨tbst 1000 { next := some 5, absSet := true } up, 5, by decide +kernel⟩,
  ⟨BitVec.ofNat 64 (0x2D * 2 ^ 56 + crc16Bits 48 (0x2D * 2 ^ 40)), by decide +kernel⟩,
  ⟨0, by decide +kernel⟩,
  ⟨tbst 0 { st := .locked, lastEdge := some 5 } up, 5, by decide +kernel⟩⟩

/-- The hypotheses of PowerLinks can be met, clause by clause. -/
theorem test_hypotheses_PowerLinks :
  (∃ f : BitVec 128, ∃ s : State, s.pwr.closed = true ∧ frameOk f = true ∧ s.pwr.seq ≠ some (BitVec.ofNat 8 (fld f 119 112))) ∧
  (∃ f : BitVec 128, ∃ s : State, s.pwr.closed = true ∧ frameOk f = true ∧ s.pwr.seq = some (BitVec.ofNat 8 (fld f 119 112)) ∧ s.pwr.lost = false) ∧
  (∃ f : BitVec 128, ∃ s : State, s.pwr.closed = true ∧ frameOk f = false) ∧
  (∃ s : State, ∃ n : BitVec 8, s.pwr.ack = some n) ∧
  (∃ l : Fin 2, ∃ s : State, (if l = 0 then s.pwr.okA else s.pwr.okB) = true) ∧
  (∃ s : State, s.pwr.closed = true ∧ s.pwr.lost = false) ∧
  (∃ s : State, s.pwr.lost = true ∧ s.pwr.stopped = false) ∧
  (∃ s : State, s.start.fin = .ready ∧ s.pwr.lost = true) :=
  ⟨⟨hvf, up, by decide +kernel⟩,
  ⟨hvf, pwrst { closed := true, seq := some 7 } up, by decide +kernel⟩,
  ⟨0, up, by decide +kernel⟩,
  ⟨pwrst { ack := some 7 } up, 7, by decide +kernel⟩,
  ⟨0, pwrst { okA := true } up, by decide +kernel⟩,
  ⟨up, by decide +kernel⟩,
  ⟨pwrst { lost := true } up, by decide +kernel⟩,
  ⟨pwrst { lost := true } up, by decide +kernel⟩⟩

/-- The hypotheses of PowerShaping can be met, clause by clause. -/
theorem test_hypotheses_PowerShaping :
  (∃ s : State, ∃ u : State, s.start.fin = .ready ∧ s.pwr.lost = false ∧ u = advanceTo s.pwr.tickAt s) ∧
  (∃ s : State, ∃ n : Nat, s.pwr.limitAt = some n) ∧
  (∃ s : State, ∃ n : Nat, s.pwr.zeroAt = some n ∧ s.pwr.target ≠ 0) :=
  ⟨⟨up, advanceTo up.pwr.tickAt up, by exact ⟨by decide +kernel, by decide +kernel, rfl⟩⟩,
  ⟨pwrst { limitAt := some 5 } up, 5, by decide +kernel⟩,
  ⟨pwrst { zeroAt := some 5, target := 1 } up, 5, by decide +kernel⟩⟩

/-- The hypotheses of TelemetryAndWear can be met, clause by clause. -/
theorem test_hypotheses_TelemetryAndWear :
  (∃ s : State, ∃ n : Nat, ∃ u : State, s.tel.nextAt = some n ∧ u = advanceTo n s) ∧
  (∃ s : State, s.start.fin = .ready) ∧
  (∃ s : State, s.start.fin ≠ .ready) :=
  ⟨⟨{ up with tel := { nextAt := some 5 } }, 5, advanceTo 5 { up with tel := { nextAt := some 5 } }, by exact ⟨by decide +kernel, rfl⟩⟩,
  ⟨up, by decide +kernel⟩,
  ⟨State.reset, by decide +kernel⟩⟩

/-- The hypotheses of RecoveryCommandsStart can be met, clause by clause. -/
theorem test_hypotheses_RecoveryCommandsStart :
  (∃ s : State, ∃ img : ImageState, ∃ i : Nat, ∃ k : Nat, i < img.layers.length ∧ k < nChunks (ldesc (under s img) i)) ∧
  (∃ i : Instr, ∃ v : Word, ∃ s : State, asksRecovery s i v ∧ rcvPermitted s 4 = true ∧ s.rcv.st ≠ .running ∧ fld v 31 28 = 4 ∧ bitAt v 27 = true) ∧
  (∃ i : Instr, ∃ v : BitVec 32, ∃ s : State, fld v 24 20 < 24 ∧ asksRecovery s i v ∧ rcvPermitted s 5 = true ∧ s.rcv.st ≠ .running ∧ fld v 31 28 = 5) ∧
  (∃ i : Instr, ∃ v : Word, ∃ s : State, ∃ n : Nat, asksRecovery s i v ∧ s.rcv.st ≠ .running ∧ fld v 31 28 = n ∧ n ≠ 0 ∧ rcvPermitted s n = false) ∧
  (∃ i : Instr, ∃ v : Word, ∃ s : State, asksRecovery s i v ∧ rcvPermitted s 1 = true ∧ s.rcv.st ≠ .running ∧ fld v 31 28 = 1 ∧ reg64 s rExpect = 0) ∧
  (∃ i : Instr, ∃ v : Word, ∃ s : State, ∃ n : Nat, asksRecovery s i v ∧ s.rcv.st ≠ .running ∧ fld v 31 28 = n ∧ (n = 1 ∨ n = 2 ∨ n = 3) ∧ rcvPermitted s n = true ∧ reg64 s rExpect ≠ 0 ∧ namedImage s = none) ∧
  (∃ i : Instr, ∃ v : Word, ∃ s : State, asksRecovery s i v ∧ rcvPermitted s 4 = true ∧ s.rcv.st ≠ .running ∧ fld v 31 28 = 4 ∧ bitAt v 27 = false) ∧
  (∃ i : Instr, ∃ v : Word, ∃ s : State, asksRecovery s i v ∧ s.rcv.st = .running ∧ s.rcv.cmd ≠ 5 ∧ fld v 31 28 = 6) ∧
  (∃ i : Instr, ∃ v : Word, ∃ s : State, asksRecovery s i v ∧ s.rcv.st = .running ∧ fld v 31 28 ≠ 6) ∧
  (∃ p : Path, ∃ v : BitVec 32, ∃ s : State, p ≠ .mbox ∧ s.start.fin = .ready ∧ s.rcv.st ≠ .running ∧ fld v 31 28 ≠ 0 ∧ rcvPermitted s (fld v 31 28) = false) :=
  ⟨⟨run, { img with layers := [lay [(8, 65537)]] }, 0, 1, by decide +kernel⟩,
  ⟨.selftestFull 0x48000000, 0x48000000, up, by exact ⟨asks _ _ _ (by unfold mayAccess; decide +kernel), by decide +kernel⟩⟩,
  ⟨.selftestCd 0x51700000, 0x51700000, up, by exact ⟨by decide, asks _ _ _ (by unfold mayAccess; decide +kernel), by decide +kernel, by decide +kernel, by decide +kernel⟩⟩,
  ⟨.copy 0x10000000, 0x10000000, run, 1, by exact ⟨asks _ _ _ (by unfold mayAccess; decide +kernel), by decide +kernel⟩⟩,
  ⟨.copy 0x10000000, 0x10000000, up, by exact ⟨asks _ _ _ (by unfold mayAccess; decide +kernel), by decide +kernel⟩⟩,
  ⟨.copy 0x10000000, 0x10000000, { up with regs := [(rImgBase + 4, 0x10000), (rImgLen, 1), (rExpect, 1)] }, 1, by exact ⟨asks _ _ _ (by unfold mayAccess; decide +kernel), by decide +kernel⟩⟩,
  ⟨.selftestFull 0x40000000, 0x40000000, up, by exact ⟨asks _ _ _ (by unfold mayAccess; decide +kernel), by decide +kernel⟩⟩,
  ⟨.abort 0x60000000, 0x60000000, rcvst { st := .running, cmd := 2 } up, by exact ⟨asks _ _ _ (by unfold mayAccess; decide +kernel), by decide +kernel⟩⟩,
  ⟨.copy 0x10000000, 0x10000000, rcvst { st := .running, cmd := 2 } up, by exact ⟨asks _ _ _ (by unfold mayAccess; decide +kernel), by decide +kernel⟩⟩,
  ⟨.i3c, 0x10000000, run, by decide +kernel⟩⟩

/-- The hypotheses of RecoveryCommandsEnd can be met, clause by clause. -/
theorem test_hypotheses_RecoveryCommandsEnd :
  (∃ s : State, ∃ img : ImageState, s.rcv.st = .running ∧ s.rcv.img = some img) ∧
  (∃ n : DWord, ∃ s : State, ∃ img : ImageState, s.rcv.st = .running ∧ s.rcv.img = some img ∧ n ≠ s.rcv.step) ∧
  (∃ d : Fin 4096, ∃ page : Nat, ∃ data : List Byte, ∃ s : State, ∃ img : ImageState, s.rcv.st = .running ∧ s.rcv.cmd = 2 ∧ s.rcv.img = some img ∧ d.val < 24 ∧ 2 ^ 32 * d.val + page ∈ s.rcv.left ∧ data.length = pageBytes ∧ cleanRange s.mem (2 ^ 36 * d.val + pageBytes * page) pageBytes ∧ distinctBytes s.mem (2 ^ 36 * d.val + pageBytes * page) pageBytes) ∧
  (∃ s : State, ∃ img : ImageState, ∃ sec : JobSections, s.rcv.st = .running ∧ s.rcv.cmd = 1 ∧ s.rcv.left = [] ∧ s.rcv.img = some img ∧ img.sec = some sec ∧ cleanRange s.mem sec.journal 64 ∧ unpoisoned s.mem sec.journal 64 ∧ distinctBytes s.mem sec.journal 64) ∧
  (∃ c : Fin 16, ∃ s : State, s.rcv.st = .running ∧ (s.rcv.cmd = 2 ∨ s.rcv.cmd = 3) ∧ c = 0 ∧ s.rcv.left = []) ∧
  (∃ c : Fin 16, ∃ s : State, s.rcv.st = .running ∧ (s.rcv.cmd = 1 ∨ s.rcv.cmd = 2 ∨ s.rcv.cmd = 3) ∧ c ≠ 0) ∧
  (∃ s : State, s.rcv.left ≠ []) ∧
  (∃ c : Fin 16, ∃ s : State, s.rcv.st = .running ∧ s.rcv.cmd = 4 ∧ (c = 0 ∨ c = 8) ∧ (c = 0 → s.rcv.left = [])) ∧
  (∃ c : Fin 16, ∃ s : State, ∃ d : Die, s.rcv.st = .running ∧ s.rcv.cmd = 5 ∧ fld s.rcv.word 24 20 = d.val ∧ (c = 0 ∨ c = 8) ∧ (c = 0 → s.rcv.left = [])) :=
  ⟨⟨rcvst { st := .running, cmd := 2, img := some img } up, img, by decide +kernel⟩,
  ⟨1, rcvst { st := .running, cmd := 2, img := some img } up, img, by decide +kernel⟩,
  ⟨0, 0, List.replicate pageBytes 0, rcvst { st := .running, cmd := 2, img := some img, left := [0] } up, img, by exact ⟨rfl, rfl, rfl, by decide, by decide, List.length_replicate, clean_low, distinct_low _ _ (fun o h => phys_low o h)⟩⟩,
  ⟨rcvst { st := .running, cmd := 1, img := some img } up, img, job, by simp only [distinct_iff]; unfold unpoisoned cleanRange; decide +kernel⟩,
  ⟨0, rcvst { st := .running, cmd := 3 } up, by decide +kernel⟩,
  ⟨15, rcvst { st := .running, cmd := 3 } up, by decide +kernel⟩,
  ⟨rcvst { st := .running, cmd := 3, left := [1] } up, by decide +kernel⟩,
  ⟨0, rcvst { st := .running, cmd := 4 } up, by decide +kernel⟩,
  ⟨8, rcvst { st := .running, cmd := 5, word := 0x51700000 } up, 23, by decide +kernel⟩⟩

/-- The hypotheses of ManagementAndAttestation can be met, clause by clause. -/
theorem test_hypotheses_ManagementAndAttestation :
  (∃ p : Path, ∃ pi : Bool, ∃ off : Nat, ∃ data : List Byte, ∃ s : State, pathServes s p (!pi) = true ∧ reqStands s p mcFlashWrite none = true ∧ off + data.length ≤ (if pi = true then 0x4000000 else 0x400000)) ∧
  (∃ p : Path, ∃ pi : Bool, ∃ off : Nat, ∃ data : List Byte, ∃ s : State, pathServes s p (!pi) = true ∧ reqStands s p mcFlashWrite none = true ∧ (if pi = true then 0x4000000 else 0x400000) < off + data.length) ∧
  (∃ p : Path, ∃ pi : Bool, ∃ copy : Bool, ∃ s : State, pathServes s p (!pi) = true ∧ reqStands s p mcFlashPrefer none = true ∧ copyPasses s pi copy = true) ∧
  (∃ p : Path, ∃ pi : Bool, ∃ copy : Bool, ∃ ok : Bool, ∃ s : State, pathServes s p (!pi) = true ∧ reqStands s p mcFlashPrefer none = true ∧ (ok && copyPasses s pi copy) = false) ∧
  (∃ p : Path, p ≠ .mbox) ∧
  (∃ c : Nat, ∃ st : Nat, ∃ body : List Byte, (vendorMsg c st body).length ≤ 4096 ∧ (vendorMsg c st body).length % 4 = 0) ∧
  (∃ p : Path, ∃ s : State, p ≠ .mbox ∧ (s.start.fin = .ready ∨ s.start.fin = .mgmtOnly)) ∧
  (∃ p : Path, ∃ c : Byte, ∃ arg : Nat, ∃ s : State, ∃ v : Int, p ≠ .mbox ∧ (s.start.fin = .ready ∨ s.start.fin = .mgmtOnly) ∧ c = 0x11 ∧ numericSensor s arg = some v) ∧
  (∃ p : Path, ∃ s : State, p ≠ .mbox ∧ (s.start.fin = .ready ∨ s.start.fin = .mgmtOnly)) ∧
  (∃ p : Path, ∃ v : BitVec 32, ∃ s : State, served s p mcEpoch none ∧ p ≠ .mbox ∧ mayAccess s .host rFabEpochCmd ∧ fld v 7 4 = 1 ∧ s.fab.draining = false ∧ s.fab.retireAt = none) ∧
  (∃ p : Path, ∃ s : State, served s p mcReadLog none) ∧
  (∃ p : Path, ∃ s : State, served s p mcGetCert (some [])) ∧
  (∃ p : Path, ∃ n : BitVec 256, ∃ s : State, served s p mcGetAttest (some (leBytes 32 n.toNat))) ∧
  (∃ s : State, jobActive s = false) :=
  ⟨⟨.i3c, false, 0x3FFFFF, [1], up, by decide +kernel⟩,
  ⟨.i3c, false, 0x400000, [1], up, by decide +kernel⟩,
  ⟨.i3c, true, false, { up with flash := written, otp := { slots := #v[{ st := .bound }, {}, {}, {}] } }, by decide +kernel⟩,
  ⟨.i3c, true, false, false, up, by decide +kernel⟩,
  ⟨.vdm, by decide +kernel⟩,
  ⟨mcOwner, 0, [], by decide +kernel⟩,
  ⟨.i3c, up, by decide +kernel⟩,
  ⟨.i3c, 0x11, 24, up, 0, by decide +kernel⟩,
  ⟨.i3c, up, by decide +kernel⟩,
  ⟨.i3c, 0x10, up, by unfold served mayAccess; decide +kernel⟩,
  ⟨.i3c, up, by unfold served; decide +kernel⟩,
  ⟨.i3c, up, by unfold served; decide +kernel⟩,
  ⟨.i3c, 5, up, by unfold served; decide +kernel⟩,
  ⟨up, by decide +kernel⟩⟩

/-- The hypotheses of OwnerCommands can be met, clause by clause. -/
theorem test_hypotheses_OwnerCommands :
  (∃ p : Path, ∃ s : State, served s p mcGetNonce (some [])) ∧
  (∃ p : Path, ∃ b : List Byte, ∃ s : State, ∃ n : Nat, ownerSound s p b 1 ∧ ownerArg b = n ∧ n < 4 ∧ slotState s n = .empty ∧ (signerBound s b = true ∨ (ownerSigner b = 0xFF ∧ n = 0 ∧ ∀ i, i < 4 → slotState s i = .empty))) ∧
  (∃ p : Path, ∃ b : List Byte, ∃ s : State, ∃ n : Nat, ownerSound s p b 2 ∧ ownerArg b = n ∧ n < 4 ∧ slotState s n = .bound ∧ signerBound s b = true ∧ ownerSigner b ≠ n) ∧
  (∃ p : Path, ∃ b : List Byte, ∃ s : State, ∃ k : Fin 3, ∃ n : Nat, ownerSound s p b 3 ∧ ownerArg b / 256 % 4 = k.val ∧ s.otp.ctrs[k] ≠ 64 ∧ svnInUse s k.val = some n ∧ signerBound s b = true ∧ s.otp.ctrs[k] < ownerArg b % 256 ∧ ownerArg b % 256 ≤ n ∧ ownerArg b % 256 ≤ 64) ∧
  (∃ p : Path, ∃ b : List Byte, ∃ s : State, ∃ k : Fin 3, ownerSound s p b 3 ∧ ownerArg b / 256 % 4 = k.val ∧ s.otp.ctrs[k] = 64) ∧
  (∃ p : Path, ∃ b : List Byte, ∃ s : State, ∃ c : Stack, ∃ ch : Fin 32, ownerSound s p b 4 ∧ signerBound s b = true ∧ ownerArg b = 0 ∧ ownerArg2 b = 32 * c.val + ch.val ∧ (c, ch) ∈ s.flash.mapOut) ∧
  (∃ p : Path, ∃ b : List Byte, ∃ s : State, ownerSound s p b 4 ∧ signerBound s b = true ∧ ownerArg b = 1 ∧ SMap.get 0 s.flash.lanes (ownerArg2 b) ≠ 0) ∧
  (∃ p : Path, ∃ b : List Byte, ∃ s : State, ∃ op : Nat, 1 ≤ op ∧ op ≤ 4 ∧ ownerSound s p b op) ∧
  (∃ p : Path, ∃ b : List Byte, ∃ s : State, ∃ op : Nat, 1 ≤ op ∧ op ≤ 4 ∧ b.length = 324 ∧ leAt b 0x31 1 = op ∧ served s p mcOwner (some b) ∧ s.sec.fails < 8 ∧ s.clk < s.sec.lastFail + 60000000000 ∧ liveNonce s p ≠ some (BitVec.ofNat 256 (leAt b 0 32))) ∧
  (∃ p : Path, ∃ b : List Byte, ∃ s : State, ∃ op : Nat, 1 ≤ op ∧ op ≤ 4 ∧ b.length = 324 ∧ leAt b 0x31 1 = op ∧ served s p mcOwner (some b) ∧ 8 ≤ s.sec.fails ∧ s.clk < s.sec.lastFail + 60000000000) ∧
  (∃ p : Path, ∃ s : State, ∃ n : BitVec 256, ∃ m : Nat, s.sec.nonces[pathNo p] = some (n, m)) ∧
  (∃ s : State, s.sec.fails ≠ 0) :=
  ⟨⟨.i3c, up, by unfold served; decide +kernel⟩,
  ⟨.i3c, owner 0xFF 1 0 0 9, { owned with otp := {} }, 0, by unfold ownerSound served; decide +kernel⟩,
  ⟨.i3c, owner 0 2 1 0 9, owned, 1, by unfold ownerSound served; decide +kernel⟩,
  ⟨.i3c, owner 0 3 0x101 0 9, { owned with plat := some platImg }, 1, 1, by unfold ownerSound served; decide +kernel⟩,
  ⟨.i3c, owner 0 3 0x101 0 9, { owned with otp := { ctrs := #v[0, 64, 0] } }, 1, by unfold ownerSound served; decide +kernel⟩,
  ⟨.i3c, owner 0 4 0 767 9, { owned with flash := { mapOut := [(23, 31)] } }, 23, 31, by unfold ownerSound served; decide +kernel⟩,
  ⟨.i3c, owner 0 4 1 68 9, { owned with flash := { lanes := [(68, 2)] } }, by unfold ownerSound served; decide +kernel⟩,
  ⟨.i3c, owner 0 4 1 68 9, owned, 4, by unfold ownerSound served; decide +kernel⟩,
  ⟨.i3c, owner 0 4 1 68 8, owned, 4, by unfold served; decide +kernel⟩,
  ⟨.i3c, owner 0 4 1 68 9, { owned with sec := { owned.sec with fails := 8 } }, 4, by unfold served; decide +kernel⟩,
  ⟨.i3c, owned, 9, 0, by decide +kernel⟩,
  ⟨{ owned with sec := { owned.sec with fails := 8 } }, by decide +kernel⟩⟩

/-- The hypotheses of OtpOnlyGoesForward can be met, clause by clause. -/
theorem test_hypotheses_OtpOnlyGoesForward :
  (∃ s : State, ∃ t : State, step s = .next t ∧ OtpState.wf s.otp = true) :=
  ⟨{ State.reset with pending := [.shutdown] }, State.reset, by exact ⟨rfl, by decide +kernel⟩⟩

/-- The hypotheses of MemoryCanonicalAndTimeForward can be met, clause by clause. -/
theorem test_hypotheses_MemoryCanonicalAndTimeForward :
  (∃ s : State, ∃ t : State, step s = .next t ∧ s.mem.wf = true) ∧
  (∃ s : State, ∃ t : State, step s = .next t) :=
  ⟨⟨{ State.reset with pending := [.shutdown] }, State.reset, by exact ⟨rfl, by decide +kernel⟩⟩,
  ⟨{ State.reset with pending := [.shutdown] }, State.reset, by rfl⟩⟩

/-- The state that verifies the job image. -/
def checking : State := verifying whole

theorem checking_phys (o : Nat) (h : o < pageBytes) : phys checking.mem (0 + o) = some o := phys_low o h

/-- A key that is not listed reads as the default. -/
theorem get_absent (m : SMap Byte) (k : Nat) (h : ∀ x ∈ m, x.1 ≠ k) : SMap.get 0 m k = 0 := by
  induction m with
  | nil => rfl
  | cons x m ih =>
    unfold SMap.get
    rw [if_neg fun e => h x (List.mem_cons_self ..) e.symm]
    exact ih fun y hy => h y (List.mem_cons_of_mem _ hy)

/-- The table of stream programs holds zeros. -/
theorem checking_start (n : Nat) (h : n < 96) : streamStart checking 0 (hEntries checking 0) n = 0 := by
  have hs : (sectionOf (hEntries checking 0) 0x10).off = 4096 := by decide +kernel
  have hb : pageBytes = 2097152 := rfl
  have hk : ∀ x ∈ checking.mem.hbm, x.1 < 4096 ∨ 5632 ≤ x.1 := by decide +kernel
  unfold streamStart peekNat memBytes
  rw [hs, show (List.range 8).map _ = List.replicate 8 (0 : Byte) from List.eq_replicate_iff.2 ⟨by simp, fun b hm => ?_⟩]
  · rfl
  · obtain ⟨i, hi, rfl⟩ := List.mem_map.1 hm
    have hi := List.mem_range.1 hi
    rw [show 0 + 4096 + 16 * n + i = 0 + (4096 + 16 * n + i) by omega, checking_phys _ (by omega)]
    exact get_absent _ _ fun x hx => by have := hk x hx; omega

/-- Its header and tables are well formed. -/
theorem checking_format : formatOk checking 0 1600 bare = true := by
  unfold formatOk
  simp only [Bool.and_eq_true, Bool.or_eq_true]
  have hz : ∀ n, n < 96 → zeroRange checking (0 + (sectionOf (hEntries checking 0) 0x10).off + 16 * n + 8) 8 = true := by decide +kernel
  refine ⟨by decide +kernel, .inr ⟨by decide +kernel, List.all_eq_true.2 fun n hn => ?_⟩⟩
  have hn := List.mem_range.1 hn
  rw [checking_start n hn, hz n hn]
  rfl

/-- No stream program holds a vector, array or collective descriptor. -/
theorem checking_prog (t : Nat) (ht : t = tVector ∨ t = tArray ∨ t = tCollective) (n : Nat) (h : n < 96) :
    ((streamProg checking 0 1600 (hEntries checking 0) n).all fun w => !decide (dType w = t)) = true := by
  have hp : ((progFrom checking (0 + 4096 * 1600) (64 * 1600) 0).map dType) = [0x42, 0, 0, 0, 0x10, 7] := by decide +kernel
  unfold streamProg
  rw [checking_start n h, List.all_eq_true]
  intro w hw
  have hm := List.mem_map_of_mem (f := dType) hw
  rw [hp] at hm
  simp only [Bool.not_eq_true', decide_eq_false_iff_not]
  intro e
  rw [e] at hm
  rcases ht with rfl | rfl | rfl <;> exact absurd hm (by decide)

/-- The same for the streams of one die. -/
theorem checking_none (t : Nat) (ht : t = tVector ∨ t = tArray ∨ t = tCollective) (n : Nat) (h : n < 96) :
    ((streamProg checking 0 1600 (hEntries checking 0) n).any fun w => decide (dType w = t)) = false := by
  have := checking_prog t ht n h
  simpa using this

/-- A share list of a die without settings is enough. -/
theorem checking_shares : vecShareBad checking 0 1600 (hEntries checking 0) prm = false ∧ tqShareBad checking 0 1600 (hEntries checking 0) prm = false := by
  constructor
  · unfold vecShareBad
    rw [List.any_eq_false]
    intro d hd
    have hd := List.mem_range.1 hd
    have hc : dieCfg prm d = ⟨[], 0, 0, 0, [], []⟩ := rfl
    simp only [hc, unshared, Bool.or_eq_true, not_or, Bool.not_eq_true]
    refine ⟨by decide, List.any_eq_false.2 fun k hk => ?_⟩
    have hk := List.mem_range.1 hk
    rw [checking_none _ (.inl rfl) _ (by omega)]
    simp
  · unfold tqShareBad
    rw [List.any_eq_false]
    intro d hd
    have hd := List.mem_range.1 hd
    have hc : dieCfg prm d = ⟨[], 0, 0, 0, [], []⟩ := rfl
    simp only [hc, unshared, Bool.or_eq_true, not_or, Bool.not_eq_true]
    refine ⟨by decide, List.any_eq_false.2 fun k hk => ?_⟩
    have hk := List.mem_range.1 hk
    rw [checking_none _ (.inr (.inl rfl)) _ (by omega)]
    simp

/-- No collective descriptor has a timeout that is too short. -/
theorem checking_timeouts : collTimeoutBad checking 0 1600 (hEntries checking 0) bare = false := by
  unfold collTimeoutBad
  rw [List.any_eq_false]
  intro n hn
  have hn := List.mem_range.1 hn
  have h := checking_none _ (.inr (.inr rfl)) n hn
  rw [List.any_eq_false] at h
  rw [Bool.not_eq_true, List.any_eq_false]
  intro w hw
  simp only [Bool.and_eq_true]
  exact fun e => h w hw e.1.1

/-- Nothing refuses it. -/
theorem checking_refuse : refuseCode checking bare true = 0 := by
  have h : checkList checking 0 1600 0 bare true = (List.range 22).map fun k => (k + 1, false) := by
    unfold checkList
    simp only [checking_format, show bare.params = prm from rfl, checking_shares.1, checking_shares.2, checking_timeouts]
    decide +kernel
  unfold refuseCode
  rw [show checking.img.base.toNat = 0 from rfl, show checking.img.len = 1600 from rfl, show checking.img.expect = 0 from rfl, h]
  decide

/-- The hypotheses of the activation of an image that is not a shadow image can be met. -/
theorem test_hypotheses_ImageActivation_load : ∃ s sec ok, s.img.st = .verifying ∧ s.img.stopReq = false ∧ refuseCode s sec ok = 0 ∧
    hShadow s s.img.base.toNat = false ∧ (getObj (loadImage s sec) (.glob 2)).waiters = [] :=
  ⟨checking, bare, true, rfl, rfl, checking_refuse, by decide +kernel, by decide +kernel⟩

/-- A layer of one element in an outer region. -/
def outerLayer : BitVec 1024 := lay [(3, 16), (8, 1), (0x18, 0x60000), (0x40, 0x70000)]

/-- A module that names a shadow image with that layer. -/
def naming : State :=
  { up with
    regs := [(rExpect, 1), (rImgLen, 1600)]
    mem := { up.mem with hbm := imageBytes 1 [(0x12, 2, 131072), (0x13, 34, 512), (0x14, 35, 64), (0x16, 37, 128), (0x17, 38, 64), (0x18, 39, 64), (0x19, 40, 64),
      (0x1A, 41, 64), (0x1B, 42, 64)] ++ store [(0x25003, 16, 1), (0x25008, 1, 1), (0x2501A, 6, 1), (0x25042, 7, 1)] }
    plat := some platImg
    otp := { slots := #v[{ st := .bound }, {}, {}, {}] } }

/-- The image it names, if it verifies as `job`. -/
def namedImg : ImageState := { base := 0, len := 1600, sec := some job, layers := [outerLayer] }

theorem named_img (h : Config.verifiedImage (memBytes naming.mem 0 (4096 * 1600)) = some job) : namedImage naming = some namedImg := by
  have hb : reg64 naming rImgBase = 0 := by decide +kernel
  have hn : reg naming rImgLen = 1600 := by decide +kernel
  have hm : mappedRange naming.mem 0 (4096 * 1600) = true := by decide +kernel
  have hl : imageLayers naming 0 (hEntries naming 0) job = [outerLayer] := by decide +kernel
  have hf : formatOk naming 0 1600 job = true ∧ jobSlotOk naming (hKeySlot naming 0) = true ∧ naming.otp.ctrs[2] ≤ hSvn naming 0 := by decide +kernel
  have e : (0 : DWord).toNat = 0 := rfl
  have f : (1600 : Word).toNat = 1600 := rfl
  unfold namedImage
  simp only [hb, hn, e, f, hm, h, hl, if_pos hf]
  rfl

/-- Whether the named bytes verify is an open value of the spec. Where they do, the hypotheses of those clauses of
RecoveryCommandsStart that have an image in hand are met. -/
theorem test_hypotheses_RecoveryCommandsStart_image (h : Config.verifiedImage (memBytes naming.mem 0 (4096 * 1600)) = some job) :
    (∃ i v s img, asksRecovery s i v ∧ rcvPermitted s 1 = true ∧ s.rcv.st ≠ .running ∧ fld v 31 28 = 1 ∧ reg64 s rExpect ≠ 0 ∧
      namedImage s = some img) ∧
    (∃ i v s img sec, asksRecovery s i v ∧ rcvPermitted s 2 = true ∧ s.rcv.st ≠ .running ∧ fld v 31 28 = 2 ∧ namedImage s = some img ∧
      img.sec = some sec) ∧
    ∃ i v s img l k n, asksRecovery s i v ∧ rcvPermitted s 3 = true ∧ s.rcv.st ≠ .running ∧ fld v 31 28 = 3 ∧ namedImage s = some img ∧
      img.layers.filter lOuter = [l] ∧ ownedTiles (under s img) l = [k] ∧ n = chunkLen l k ∧
      cleanRange s.mem (lW l + 262144 * k) (4 * n) ∧ unpoisoned s.mem (lW l + 262144 * k) (4 * n) ∧ cleanRange s.mem (planeA l 0) (4 * n) ∧
      cleanRange s.mem (planeU l 1 0) (4 * n) ∧ cleanRange s.mem (planeE l 1 0) (2 * n) ∧ distinctBytes s.mem (planeA l 0) (4 * n) ∧
      distinctBytes s.mem (planeU l 1 0) (4 * n) ∧ distinctBytes s.mem (planeE l 1 0) (2 * n) ∧
      apart s.mem (planeA l 0) (4 * n) (planeU l 1 0) (4 * n) ∧ apart s.mem (planeA l 0) (4 * n) (planeE l 1 0) (2 * n) ∧
      apart s.mem (planeU l 1 0) (4 * n) (planeE l 1 0) (2 * n) :=
  ⟨⟨.copy 0x10000000, 0x10000000, naming, namedImg, asks _ _ _ (by unfold mayAccess; decide +kernel), by decide +kernel, by decide +kernel,
      by decide +kernel, by decide +kernel, named_img h⟩,
   ⟨.restore 0x20000000, 0x20000000, naming, namedImg, job, asks _ _ _ (by unfold mayAccess; decide +kernel), by decide +kernel,
      by decide +kernel, by decide +kernel, named_img h, rfl⟩,
   .outerReset 0x30000000, 0x30000000, naming, namedImg, outerLayer, 0, 1, asks _ _ _ (by unfold mayAccess; decide +kernel), by decide +kernel,
      by decide +kernel, by decide +kernel, named_img h, by
      simp only [distinct_iff]; unfold apart; simp only [apart_iff]; unfold cleanRange unpoisoned; decide +kernel⟩

end Sys2Proof.Tests
end

section
/-! PROOF. Registers: what an access reads, what a write leaves, and the frame of each (R11 to R16, R488). -/
namespace Sys2Proof.Machine
open Sys2Proof

/-! ### What leaves the module is not read back

`emit` touches only the list of outputs, so no register reads differently after it. The view lemmas are equations of functions:
applied to an offset they would ask the kernel to compute with it. -/

theorem portStat_emit (s : State) (o : Output) : portStat (emit s o) = portStat s := funext fun _ => rfl
theorem portTemp_emit (s : State) (o : Output) : portTemp (emit s o) = portTemp s := funext fun _ => rfl
theorem portShutter_emit (s : State) (o : Output) : portShutter (emit s o) = portShutter s := funext fun _ => rfl
theorem chWord_emit (s : State) (o : Output) : chWord (emit s o) = chWord s := funext₂ fun _ _ => rfl
theorem pLinkStat_emit (s : State) (o : Output) : pLinkStat (emit s o) = pLinkStat s := funext fun _ => rfl
theorem quarFib_emit (s : State) (o : Output) : quarFib (emit s o) = quarFib s := funext fun _ => rfl
theorem lsStat_emit (s : State) (o : Output) : lsStat (emit s o) = lsStat s := rfl
theorem lsFeed_emit (s : State) (o : Output) : lsFeed (emit s o) = lsFeed s := funext fun _ => rfl
theorem portView_emit (s : State) (o : Output) : portView (emit s o) = portView s := by
  funext off
  simp only [portView, portStat_emit, portTemp_emit, portShutter_emit, chWord_emit, pLinkStat_emit, quarFib_emit, lsStat_emit,
    lsFeed_emit]
  rfl
theorem modView_emit (s : State) (o : Output) : modView (emit s o) = modView s := funext fun _ => rfl
theorem fabView_emit (s : State) (o : Output) : fabView (emit s o) = fabView s := funext fun _ => rfl
theorem memView_emit (s : State) (o : Output) : memView (emit s o) = memView s := funext fun _ => rfl
theorem clkView_emit (s : State) (o : Output) : clkView (emit s o) = clkView s := funext fun _ => rfl
theorem secView_emit (s : State) (o : Output) : secView (emit s o) = secView s := funext fun _ => rfl
theorem cdView_emit (s : State) (o : Output) : cdView (emit s o) = cdView s := funext₂ fun _ _ => rfl
theorem viewWord_emit (s : State) (o : Output) : viewWord (emit s o) = viewWord s := by
  funext off
  simp only [viewWord, modView_emit, fabView_emit, portView_emit, memView_emit, clkView_emit, secView_emit, cdView_emit]

@[simp] theorem rsReg_emit (s : State) (o : Output) (off : Nat) : rsReg (emit s o) off = rsReg s off := rfl
@[simp] theorem readWord_emit (s : State) (o : Output) (off : Nat) : readWord (emit s o) off = readWord s off := by
  simp only [readWord, viewWord_emit, rsReg_emit, reg_emit]

/-! ### Completions and bus errors -/

@[simp] theorem reg_complete (s : State) (m : Master) (st : Status) (bs : List Byte) (p : Nat) : reg (complete s m st bs) p = reg s p := rfl
@[simp] theorem readWord_complete (s : State) (m : Master) (st : Status) (bs : List Byte) (p : Nat) :
    readWord (complete s m st bs) p = readWord s p := readWord_emit s _ p
@[simp] theorem complete_out (s : State) (m : Master) (st : Status) (bs : List Byte) :
    (complete s m st bs).out = .completion m st bs :: s.out := rfl
@[simp] theorem complete_sec (s : State) (m : Master) (st : Status) (bs : List Byte) : (complete s m st bs).sec = s.sec := rfl
@[simp] theorem ctlBit_complete (s : State) (m : Master) (st : Status) (bs : List Byte) (off i : Nat) :
    ctlBit (complete s m st bs) off i = ctlBit s off i := rfl
@[simp] theorem slotArmed_complete (s : State) (m : Master) (st : Status) (bs : List Byte) (n : Fin 1024) :
    slotArmed (complete s m st bs) n = slotArmed s n := rfl

/-- R15: Completer Abort and an AER entry for the host, a bus error exception for another master. -/
theorem busErr_out (s : State) (m : Master) :
    (busErr s m).out = (if m = .host then [.completion .host .ca [], .aer "completer abort"] else [.busError m]) ++ s.out := by
  cases m <;> rfl

theorem busErr_changesOnly (s : State) (m : Master) : changesOnly [.out] s (busErr s m) := by simp [changesOnly]

/-! ### The ports of the masters -/

@[simp] theorem mport_complete (s : State) (k : Master) (st : Status) (bs : List Byte) (m : Master) :
    mport (complete s k st bs) m = mport s m := by cases m <;> rfl
@[simp] theorem mport_setReg (s : State) (o : Nat) (v : Word) (m : Master) : mport (setReg s o v) m = mport s m := by cases m <;> rfl
@[simp] theorem mport_setReg64 (s : State) (o : Nat) (v : DWord) (m : Master) : mport (setReg64 s o v) m = mport s m := by
  simp [setReg64]
@[simp] theorem mport_setMport_self (s : State) (m : Master) (p : MasterPort) : mport (setMport s m p) m = p := by cases m <;> rfl
theorem mport_setMport_ne (s : State) (m n : Master) (p : MasterPort) (h : n ≠ m) : mport (setMport s m p) n = mport s n := by
  cases m <;> cases n <;> simp_all [mport, setMport]
@[simp] theorem reg_setMport (s : State) (m : Master) (p : MasterPort) (o : Nat) : reg (setMport s m p) o = reg s o := by cases m <;> rfl
@[simp] theorem setMport_out (s : State) (m : Master) (p : MasterPort) : (setMport s m p).out = s.out := by cases m <;> rfl

/-! ### Who is served -/

/-- A master whose requests reach the module has them carried out. -/
theorem byMaster_of_open (m : Master) (run : State → State) (s : State) (h : m = .host → hostOpen s = true) :
    byMaster m run s = run s := by
  cases m with
  | host => exact if_pos (h rfl)
  | bmc | msd | plinth => rfl

/-- R481: a host whose requests are not accepted gets an Unsupported Request. -/
theorem byMaster_host_of_not_open (run : State → State) (s : State) (h : hostOpen s = false) :
    byMaster .host run s = complete (emit s (.aer "unsupported request")) .host .ur [] := if_neg (by simp [h])

theorem regWrite_of_wordOpen (m : Master) (off : Nat) (v : Word) (s : State) (h : wordOpen s off = true) :
    regWrite m off v s = writeEffect m off v (complete s m .sc []) := if_pos h

theorem regWrite_of_not_wordOpen (m : Master) (off : Nat) (v : Word) (s : State) (h : wordOpen s off = false) :
    regWrite m off v s = busErr s m := if_neg (by simp [h])

theorem regRead_of_wordOpen (m : Master) (off : Nat) (s : State) (h : wordOpen s off = true) :
    regRead m off s = complete (readEffect m off s).2 m .sc (leBytes 4 (readEffect m off s).1.toNat) := if_pos h

/-- R488: an access of another size than 4 or 8 bytes, an 8-byte one off its alignment, and one whose word is not there are errors. -/
theorem reservedAccess_of_refused (m : Master) (off n : Nat) (w : Bool) (s : State) (hm : m = .host → hostOpen s = true)
    (h : wordOpen s off = false ∨ (n ≠ 4 ∧ n ≠ 8) ∨ (n = 8 ∧ off % 8 ≠ 0)) :
    doBar0ReservedAccess m off n w s = busErr s m := by
  have hok : accessOk s off n = false := by
    rcases h with h | ⟨h4, h8⟩ | ⟨rfl, ha⟩ <;> simp_all [accessOk]
  have hlow : ¬ (n = 8 ∧ off % 8 = 0 ∧ wordOpen s off = true ∧ w = false) := by
    rintro ⟨h8, ha, ho, -⟩
    simp_all
  rw [doBar0ReservedAccess, byMaster_of_open m _ s hm]
  simp only [hok, hlow, if_false, Bool.false_eq_true]

/-! ### Kinds of register words -/

/-- The low word of a 64-bit register is not the high word of one. -/
theorem isHighWord_of_isLowWord (off : Nat) (h : isLowWord off = true) : isHighWord off = false := by
  unfold isLowWord at h
  unfold isHighWord
  split at h
  · rename_i r hr
    simp only [Bool.and_eq_true, decide_eq_true_eq] at h
    simp [h.2]
  · cases h

theorem isLowWord_of_isHighWord (off : Nat) (h : isHighWord off = true) : isLowWord off = false := by
  cases hl : isLowWord off with
  | false => rfl
  | true => rw [isHighWord_of_isLowWord off hl] at h; cases h

theorem writeEffect_low (m : Master) (off : Nat) (v : Word) (s : State) (h : isLowWord off = true) :
    writeEffect m off v s = holdLow m off v s := if_pos h

theorem writeEffect_high (m : Master) (off : Nat) (v : Word) (s : State) (h : isHighWord off = true) :
    writeEffect m off v s = writeHigh m off v s := by simp [writeEffect, isLowWord_of_isHighWord off h, h]

theorem writeEffect_plain {off : Nat} {ty : RegTy} (m : Master) (v : Word) (s : State) (h : plainReg off ty) :
    writeEffect m off v s = applyWrite m off v s := by
  obtain ⟨-, hlow, hhigh⟩ := h
  simp [writeEffect, hlow, hhigh]

/-- REGISTER_WRITE to a 32-bit register that the master may access: it completes, and acts by the access type. -/
theorem exec_registerWrite_plain {s : State} {m : Master} {off : BitVec 26} {ty : RegTy} (v : Word) (ha : mayAccess s m off.toNat)
    (hp : plainReg off.toNat ty) :
    exec (.registerWrite m off v) s = .next (applyWrite m off.toNat v (complete s m .sc [])) := by
  obtain ⟨hm, ho⟩ := ha
  have hexec : exec (.registerWrite m off v) s = .next (byMaster m (regWrite m off.toNat v) s) := rfl
  rw [hexec, byMaster_of_open m _ s hm, regWrite_of_wordOpen m _ v s ho, writeEffect_plain m v _ hp]

theorem exec_registerWrite_rw {s : State} {m : Master} {off : BitVec 26} (v : Word) (ha : mayAccess s m off.toNat)
    (hp : plainReg off.toNat .rw) :
    exec (.registerWrite m off v) s = .next (writeRw off.toNat v (complete s m .sc [])) := by
  rw [exec_registerWrite_plain v ha hp, applyWrite, hp.1]

/-! ### Masked writes -/

/-- R11: bit `i` comes from the value where bits 31:16 select it and it is implemented. -/
theorem bitAt_maskedWord (old v mask : Word) (i : Nat) (hi : i < 32) :
    bitAt (maskedWord old v mask) i =
      if i < 16 ∧ bitAt mask i = true ∧ bitAt v (i + 16) = true then bitAt v i else bitAt old i := by
  have hlow : (0xFFFF : Word).getLsbD i = decide (i < 16) := by
    rw [show (0xFFFF : Word) = BitVec.ofNat 32 (2 ^ 16 - 1) from rfl, BitVec.getLsbD_ofNat, Nat.testBit_two_pow_sub_one]
    simp [hi]
  have hbit : bitAt (maskedWord old v mask) i =
      (bitAt old i && !(bitAt v (i + 16) && bitAt mask i && decide (i < 16)) ||
        bitAt v i && (bitAt v (i + 16) && bitAt mask i && decide (i < 16))) := by
    simp only [bitAt, maskedWord, BitVec.getLsbD_or, BitVec.getLsbD_and, BitVec.getLsbD_not, BitVec.getLsbD_ushiftRight, hlow, hi,
      Nat.add_comm 16 i, decide_true, Bool.true_and]
  rw [hbit]
  split
  next hsel => simp [hsel]
  next hsel => grind

/-! ### One register changes -/

/-- A completed write of `m` has left `x` in the register at `off` and changed no other. -/
def wroteReg (s t : State) (m : Master) (off : Nat) (x : Word) : Prop :=
  reg t off = x ∧ sameRegsBut [off] s t ∧ t.out = .completion m .sc [] :: s.out ∧ changesOnly [.regs, .out] s t

theorem wroteReg_setReg (s : State) (m : Master) (off : Nat) (x : Word) :
    wroteReg s (setReg (complete s m .sc []) off x) m off x := by
  refine ⟨reg_setReg_self _ _ _, fun o ho => ?_, rfl, by simp [changesOnly]⟩
  rw [reg_setReg_ne _ _ _ _ (by simpa using ho), reg_complete]

theorem wroteReg_complete (s : State) (m : Master) (off : Nat) : wroteReg s (complete s m .sc []) m off (reg s off) :=
  ⟨rfl, fun _ _ => rfl, rfl, by simp [changesOnly]⟩

theorem wroteReg_ite {s t u : State} {m : Master} {off : Nat} {x y : Word} (c : Prop) [Decidable c] (ht : wroteReg s t m off x)
    (hu : wroteReg s u m off y) : wroteReg s (if c then t else u) m off (if c then x else y) := by
  split
  · exact ht
  · exact hu

/-! ### What each RW register does with a write -/

theorem writeRw_imgLen (v : Word) (s : State) : writeRw rImgLen v s = setReg s rImgLen v := by
  have hmask : maskWord rImgLen = BitVec.allOnes 32 := rfl
  have h : writeRw rImgLen v s = setReg s rImgLen (v &&& maskWord rImgLen) := rfl
  rw [h, hmask, BitVec.and_allOnes]

theorem writeRw_laneSel (v : Word) (s : State) :
    writeRw rLaneSel v s = if fld v 9 0 ≤ 687 then setReg s rLaneSel (v &&& 0x3FF) else s := rfl

theorem writeRw_telRingLen (v : Word) (s : State) :
    writeRw rTelRingLen v s = if ctlBit s rTelCtl 0 then s else setReg s rTelRingLen (v &&& 0x1F) := rfl

theorem writeRw_mbox (off : Nat) (v : Word) (s : State) (h : rSecMbox ≤ off ∧ off < rSecMbox + 4096) :
    writeRw off v s = if s.sec.mbox = .busy then s else setReg s off v := by
  have hoff : off ≠ rRcvCmd ∧ off ≠ rLaneSel ∧ off ≠ rSecMboxCtl := by
    simp only [rSecMbox, rRcvCmd, rLaneSel, rSecMboxCtl] at *; omega
  obtain ⟨hrcv, hlane, hctl⟩ := hoff
  rw [writeRw, if_neg hrcv, if_neg hlane, if_neg hctl, if_pos h]

theorem writeRw_hw (off : Nat) (v : Word) (s : State) (h : rHwObj ≤ off ∧ off < rHwObj + 16384) :
    writeRw off v s = writeHw off v s := by
  have hoff : off ≠ rRcvCmd ∧ off ≠ rLaneSel ∧ off ≠ rSecMboxCtl ∧ ¬ (rSecMbox ≤ off ∧ off < rSecMbox + 4096) ∧ off ≠ rTelRingLen := by
    simp only [rHwObj, rSecMbox, rRcvCmd, rLaneSel, rSecMboxCtl, rTelRingLen] at *; omega
  obtain ⟨hrcv, hlane, hctl, hmbox, hlen⟩ := hoff
  rw [writeRw, if_neg hrcv, if_neg hlane, if_neg hctl, if_neg hmbox, if_neg hlen, if_pos h]

theorem writeRw_msix (off : Nat) (v : Word) (s : State) (h : rMsixTable ≤ off ∧ off < rMsixTable + 0x8000) :
    writeRw off v s = writeMsix off v s := by
  have hoff : off ≠ rRcvCmd ∧ off ≠ rLaneSel ∧ off ≠ rSecMboxCtl ∧ ¬ (rSecMbox ≤ off ∧ off < rSecMbox + 4096) ∧ off ≠ rTelRingLen ∧
      ¬ (rHwObj ≤ off ∧ off < rHwObj + 16384) ∧ ¬ (rRtRack ≤ off ∧ off < rRtRack + 4096) := by
    simp only [rMsixTable, rHwObj, rSecMbox, rRcvCmd, rLaneSel, rSecMboxCtl, rTelRingLen, rRtRack] at *; omega
  obtain ⟨hrcv, hlane, hctl, hmbox, hlen, hhw, hrack⟩ := hoff
  rw [writeRw, if_neg hrcv, if_neg hlane, if_neg hctl, if_neg hmbox, if_neg hlen, if_neg hhw, if_neg hrack, if_pos h]

/-- VAL and TIMEOUT of a slot, which stand beside its OBJ word, take a value while it is not armed (R230). -/
theorem writeHw_beside_obj (off : Nat) (v : Word) (s : State) (hlo : rHwObj ≤ off) (h : off % 16 ≠ 0) :
    writeHw off v s = if slotArmed s (slotAt off) then s else setReg s off (v &&& maskWord off) := by
  have hobj : (off - rHwObj) % 16 ≠ 0 := by simp only [rHwObj] at *; omega
  rw [writeHw, if_neg hobj]

/-- No word of a vector but its vector control sends a message (R484). -/
theorem writeMsix_beside_control (off : Nat) (v : Word) (s : State) (hlo : rMsixTable ≤ off) (h : off % 16 ≠ 12) :
    writeMsix off v s = setReg s off (v &&& maskWord off) := by
  have hctl : (off - rMsixTable) % 16 ≠ 12 := by simp only [rMsixTable] at *; omega
  simp only [writeMsix, hctl, if_false]

/-! ### The halves of a 64-bit register (R16) -/

/-- A read of the low word of a register that pops nothing latches the high one. -/
theorem readEffect_low (m : Master) (off : Nat) (s : State) (h : isLowWord off = true) (hpop : off ∉ [rElogPop, rSecLogPop, rSecAuthFail]) :
    readEffect m off s = (readWord s off, setMport s m { mport s m with latch := readWord s (off + 4) }) := by
  simp only [List.mem_cons, List.not_mem_nil, or_false, not_or] at hpop
  obtain ⟨helog, hseclog, hauth⟩ := hpop
  simp [readEffect, helog, hseclog, hauth, isHighWord_of_isLowWord off h, h]

/-- A read of a high word gives what the master has latched. -/
theorem readEffect_high (m : Master) (off : Nat) (s : State) (h : isHighWord off = true) (hpop : off ∉ [rElogPop, rSecLogPop, rSecAuthFail]) :
    readEffect m off s = ((mport s m).latch, s) := by
  simp only [List.mem_cons, List.not_mem_nil, or_false, not_or] at hpop
  obtain ⟨helog, hseclog, hauth⟩ := hpop
  simp [readEffect, helog, hseclog, hauth, h]

theorem exec_reg64LowRead {s : State} {m : Master} {off : BitVec 26} (ha : mayAccess s m off.toNat) :
    exec (.reg64LowRead m off) s =
      .next (complete (readEffect m off.toNat s).2 m .sc (leBytes 4 (readEffect m off.toNat s).1.toNat)) := by
  obtain ⟨hm, ho⟩ := ha
  have hexec : exec (.reg64LowRead m off) s = .next (byMaster m (regRead m off.toNat) s) := rfl
  rw [hexec, byMaster_of_open m _ s hm, regRead_of_wordOpen m _ s ho]

theorem exec_reg64LowWrite {s : State} {m : Master} {off : BitVec 26} (v : Word) (ha : mayAccess s m off.toNat)
    (h : isLowWord off.toNat = true) :
    exec (.reg64LowWrite m off v) s = .next (holdLow m off.toNat v (complete s m .sc [])) := by
  obtain ⟨hm, ho⟩ := ha
  have hexec : exec (.reg64LowWrite m off v) s = .next (byMaster m (regWrite m off.toNat v) s) := rfl
  rw [hexec, byMaster_of_open m _ s hm, regWrite_of_wordOpen m _ v s ho, writeEffect_low m _ v _ h]

theorem exec_reg64HighWrite {s : State} {m : Master} {off : BitVec 26} (v : Word) (ha : mayAccess s m off.toNat)
    (h : isHighWord off.toNat = true) :
    exec (.reg64HighWrite m off v) s = .next (writeHigh m off.toNat v (complete s m .sc [])) := by
  obtain ⟨hm, ho⟩ := ha
  have hexec : exec (.reg64HighWrite m off v) s = .next (byMaster m (regWrite m off.toNat v) s) := rfl
  rw [hexec, byMaster_of_open m _ s hm, regWrite_of_wordOpen m _ v s ho, writeEffect_high m _ v _ h]

theorem lowHalf_of_held {m : Master} {off : Nat} {s : State} {x : Word} (h : (mport s m).held = some (off - 4, x)) :
    lowHalf m off s = x := by simp [lowHalf, h]

theorem lowHalf_of_not_held {m : Master} {off : Nat} {s : State} (h : ∀ x, (mport s m).held ≠ some (off - 4, x)) :
    lowHalf m off s = readWord s (off - 4) := by
  unfold lowHalf
  split
  · rename_i o x hx
    exact if_neg fun ho => h x (by rw [hx, ho])
  · rfl

/-- Dropping the held half is a change of the master's port, or none. -/
theorem dropHeld_eq (m : Master) (off : Nat) (s : State) : dropHeld m off s = s ∨ ∃ p, dropHeld m off s = setMport s m p := by
  unfold dropHeld
  split
  · split
    · exact .inr ⟨_, rfl⟩
    · exact .inl rfl
  · exact .inl rfl

@[simp] theorem reg_dropHeld (m : Master) (off : Nat) (s : State) (o : Nat) : reg (dropHeld m off s) o = reg s o := by
  obtain h | ⟨p, h⟩ := dropHeld_eq m off s <;> simp [h]
@[simp] theorem dropHeld_out (m : Master) (off : Nat) (s : State) : (dropHeld m off s).out = s.out := by
  obtain h | ⟨p, h⟩ := dropHeld_eq m off s <;> simp [h]
@[simp] theorem ctlBit_dropHeld (m : Master) (off : Nat) (s : State) (o i : Nat) : ctlBit (dropHeld m off s) o i = ctlBit s o i := by
  simp [ctlBit]

/-- Afterwards no half is held for the register. -/
theorem held_dropHeld_ne (m : Master) (off : Nat) (s : State) (x : Word) : (mport (dropHeld m off s) m).held ≠ some (off - 4, x) := by
  unfold dropHeld
  split
  · rename_i o y hy
    split
    · simp
    · rw [hy]; simp_all
  · simp_all

@[simp] theorem reg_setReg64_low (s : State) (off : Nat) (v : DWord) : reg (setReg64 s off v) off = v.setWidth 32 := by
  rw [setReg64, reg_setReg_ne _ _ _ _ (by omega), reg_setReg_self]
theorem reg_setReg64_high (s : State) (off hi : Nat) (v : DWord) (h : hi = off + 4) :
    reg (setReg64 s off v) hi = (v >>> 32).setWidth 32 := by
  rw [h, setReg64, reg_setReg_self]
theorem reg_setReg64_ne (s : State) (off o : Nat) (v : DWord) (hl : o ≠ off) (hh : o ≠ off + 4) : reg (setReg64 s off v) o = reg s o := by
  rw [setReg64, reg_setReg_ne _ _ _ _ hh, reg_setReg_ne _ _ _ _ hl]
@[simp] theorem setReg64_out (s : State) (off : Nat) (v : DWord) : (setReg64 s off v).out = s.out := rfl

theorem low_of_append (a b : Word) : (a ++ b : DWord).setWidth 32 = b := BitVec.setWidth_append_eq_right
theorem high_of_append (a b : Word) : ((a ++ b : DWord) >>> 32).setWidth 32 = a := by
  have h : ((a ++ b) >>> 32).setWidth 32 = a := by
    ext i hi
    rw [BitVec.getElem_setWidth, BitVec.getLsbD_ushiftRight, BitVec.getLsbD_append]
    simp [hi]
  exact h

/-- A stored 64-bit RW register takes both halves, but the dimension table, and the base of a ring that runs. -/
theorem applyWide_stored {off : Nat} {s : State} (v : DWord) (hty : (regRow off).map RegRow.ty = some .rw)
    (hdim : ¬ (rRtDim ≤ off ∧ off < rRtDim + 80)) (hring : ¬ (off = rTelRingBase ∧ ctlBit s rTelCtl 0 = true)) :
    applyWide off v s = setReg64 s off (v &&& (maskWord (off + 4) ++ maskWord off)) := by
  rw [applyWide, hty]
  exact (if_neg hdim).trans (if_neg hring)

/-- R16: a write of the high half of such a register is one of both, and uses the held half up. -/
theorem writeHigh_stored {off : Nat} {m : Master} {s : State} (v : Word) (h4 : 4 ≤ off)
    (hty : (regRow (off - 4)).map RegRow.ty = some .rw) (hdim : ¬ (rRtDim ≤ off - 4 ∧ off - 4 < rRtDim + 80))
    (hring : ¬ (off - 4 = rTelRingBase ∧ ctlBit s rTelCtl 0 = true)) :
    writeHigh m off v s = setReg64 (dropHeld m off s) (off - 4)
      ((v &&& maskWord off) ++ (lowHalf m off s &&& maskWord (off - 4))) := by
  rw [writeHigh, applyWide_stored _ hty hdim (by simpa using hring), Nat.sub_add_cancel h4]
  exact congrArg _ BitVec.and_append

end Sys2Proof.Machine
end

section
/-! PROOF. The statements on register accesses: RegisterAccess (O3) and RegisterGatesAndHalves (O4). -/
namespace Sys2Proof.Machine
open Sys2Proof

/-! ### REGISTER_WRITE by access type -/

/-- RM: the upper half of the value selects the bits that change. -/
theorem registerWrite_rm {s : State} {m : Master} {off : BitVec 26} (v : Word) (ha : mayAccess s m off.toNat)
    (hp : plainReg off.toNat .rm) (hno : off.toNat ∉ [rImgCtl, rSyncCtl, rTelCtl]) :
    ∃ t, exec (.registerWrite m off v) s = .next t ∧
      wroteReg s t m off.toNat (maskedWord (reg s off.toNat) v (maskWord off.toNat)) := by
  simp only [List.mem_cons, List.not_mem_nil, or_false, not_or] at hno
  obtain ⟨himg, hsync, htel⟩ := hno
  refine ⟨_, exec_registerWrite_plain v ha hp, ?_⟩
  rw [applyWrite, hp.1]
  simp only [writeRm, himg, hsync, htel, if_false]
  exact wroteReg_setReg s m _ _

/-- RO and RC: nothing changes. -/
theorem registerWrite_ro_rc {s : State} {m : Master} {off : BitVec 26} (v : Word) (ha : mayAccess s m off.toNat)
    (hp : plainReg off.toNat .ro ∨ plainReg off.toNat .rc) :
    exec (.registerWrite m off v) s = .next (complete s m .sc []) := by
  obtain hp | hp := hp <;> rw [exec_registerWrite_plain v ha hp, applyWrite, hp.1]

theorem registerWrite_imgLen {s : State} {m : Master} {off : BitVec 26} (v : Word) (hoff : off.toNat = rImgLen)
    (ha : mayAccess s m off.toNat) : ∃ t, exec (.registerWrite m off v) s = .next t ∧ wroteReg s t m rImgLen v := by
  refine ⟨_, exec_registerWrite_rw v ha (hoff ▸ ⟨rfl, rfl, rfl⟩), ?_⟩
  rw [hoff, writeRw_imgLen]
  exact wroteReg_setReg s m _ v

/-- R15: a word that is reserved, or whose window is closed. -/
theorem registerWrite_refused {s : State} {m : Master} {off : BitVec 26} (v : Word) (hm : m = .host → hostOpen s = true)
    (ho : wordOpen s off.toNat = false) : exec (.registerWrite m off v) s = .next (busErr s m) := by
  have hexec : exec (.registerWrite m off v) s = .next (byMaster m (regWrite m off.toNat v) s) := rfl
  rw [hexec, byMaster_of_open m _ s hm, regWrite_of_not_wordOpen m _ v s ho]

theorem exec_bar0ReservedAccess_refused {s : State} {m : Master} {off : BitVec 26} {n : Nat} (w : Bool)
    (hm : m = .host → hostOpen s = true)
    (h : wordOpen s off.toNat = false ∨ (n ≠ 4 ∧ n ≠ 8) ∨ (n = 8 ∧ off.toNat % 8 ≠ 0)) :
    exec (.bar0ReservedAccess m off n w) s = .next (busErr s m) :=
  congrArg Host.Outcome.next (reservedAccess_of_refused m off.toNat n w s hm h)

/-- Settles O3: each access type is one case of the write, and every access that is refused is the one bus error. -/
theorem registerAccess : Obligations.RegisterAccess := by
  unfold Obligations.RegisterAccess
  refine ⟨⟨fun m off v s ha hp hno => ?_, fun m off v s ha hp => ?_, fun m off v s hoff ha => ?_, fun m off v s hm ho => ?_⟩,
    fun m off n w s hm h => ?_⟩
  · obtain ⟨t, ht, hreg, hframe⟩ := registerWrite_rm v ha hp hno
    exact ⟨t, ht, fun i hi => by rw [hreg, bitAt_maskedWord _ _ _ i hi], hframe⟩
  · exact ⟨_, registerWrite_ro_rc v ha hp, rfl, by simp [changesOnly]⟩
  · exact registerWrite_imgLen v hoff ha
  · exact ⟨_, registerWrite_refused v hm ho, busErr_out s m, busErr_changesOnly s m⟩
  · exact ⟨_, exec_bar0ReservedAccess_refused w hm h, busErr_out s m, busErr_changesOnly s m⟩

/-! ### The halves of a 64-bit register -/

/-- A read of the low half gives it and latches the high half. -/
theorem reg64LowRead_low {s : State} {m : Master} {off : BitVec 26} (ha : mayAccess s m off.toNat) (hl : isLowWord off.toNat = true)
    (hpop : off.toNat ∉ [rElogPop, rSecLogPop, rSecAuthFail]) :
    exec (.reg64LowRead m off) s =
      .next (complete (setMport s m { mport s m with latch := readWord s (off.toNat + 4) }) m .sc
        (leBytes 4 (readWord s off.toNat).toNat)) := by
  rw [exec_reg64LowRead ha, readEffect_low m _ s hl hpop]

/-- A read of a high half gives the latch. -/
theorem reg64LowRead_high {s : State} {m : Master} {off : BitVec 26} (ha : mayAccess s m off.toNat) (hh : isHighWord off.toNat = true)
    (hpop : off.toNat ∉ [rElogPop, rSecLogPop, rSecAuthFail]) :
    exec (.reg64LowRead m off) s = .next (complete s m .sc (leBytes 4 (mport s m).latch.toNat)) := by
  rw [exec_reg64LowRead ha, readEffect_high m _ s hh hpop]

/-- A write of the low half is held: nothing but the master's port changes. -/
theorem holdLow_spec (s : State) (m : Master) (off : Nat) (v : Word) :
    (mport (holdLow m off v (complete s m .sc [])) m).held = some (off, v) ∧
      (mport (holdLow m off v (complete s m .sc [])) m).latch = (mport s m).latch ∧
      (∀ n, n ≠ m → mport (holdLow m off v (complete s m .sc [])) n = mport s n) ∧
      (holdLow m off v (complete s m .sc [])).out = .completion m .sc [] :: s.out ∧
      changesOnly [.host, .out] s (holdLow m off v (complete s m .sc [])) :=
  ⟨by simp [holdLow], by simp [holdLow], fun n hn => by rw [holdLow, mport_setMport_ne _ _ _ _ hn, mport_complete],
    by simp [holdLow], by simp [changesOnly]⟩

/-- A write of the high half of a stored register applies both halves. -/
theorem reg64HighWrite_stored {s : State} {m : Master} {off : BitVec 26} (v : Word) (ha : mayAccess s m off.toNat)
    (hh : isHighWord off.toNat = true) (h4 : 4 ≤ off.toNat) (hty : (regRow (off.toNat - 4)).map RegRow.ty = some .rw)
    (hdim : ¬ (rRtDim ≤ off.toNat - 4 ∧ off.toNat - 4 < rRtDim + 80))
    (hring : ¬ (off.toNat - 4 = rTelRingBase ∧ ctlBit s rTelCtl 0 = true)) :
    ∃ t, exec (.reg64HighWrite m off v) s = .next t ∧
      reg t (off.toNat - 4) = lowHalf m off.toNat (complete s m .sc []) &&& maskWord (off.toNat - 4) ∧
      reg t off.toNat = v &&& maskWord off.toNat ∧ (∀ x, (mport t m).held ≠ some (off.toNat - 4, x)) ∧
      sameRegsBut [off.toNat - 4, off.toNat] s t ∧ t.out = .completion m .sc [] :: s.out ∧ changesOnly [.regs, .host, .out] s t := by
  refine ⟨_, exec_reg64HighWrite v ha hh, ?_⟩
  have hhigh : off.toNat = off.toNat - 4 + 4 := (Nat.sub_add_cancel h4).symm
  rw [writeHigh_stored v h4 hty hdim (by simpa using hring)]
  refine ⟨?_, ?_, fun x => ?_, fun o ho => ?_, ?_, by simp [changesOnly]⟩
  · rw [reg_setReg64_low, low_of_append]
  · rw [reg_setReg64_high _ _ _ _ hhigh, high_of_append]
  · rw [mport_setReg64]
    exact held_dropHeld_ne m off.toNat _ x
  · simp only [List.mem_cons, List.not_mem_nil, or_false, not_or] at ho
    rw [reg_setReg64_ne _ _ _ _ ho.1 (hhigh ▸ ho.2), reg_dropHeld, reg_complete]
  · simp

/-! ### Registers that take a value only at times -/

theorem registerWrite_laneSel {s : State} {m : Master} {off : BitVec 26} (v : Word) (hoff : off.toNat = rLaneSel)
    (ha : mayAccess s m off.toNat) :
    ∃ t, exec (.registerWrite m off v) s = .next t ∧
      wroteReg s t m rLaneSel (if fld v 9 0 ≤ 687 then v &&& 0x3FF else reg s rLaneSel) := by
  refine ⟨_, exec_registerWrite_rw v ha (hoff ▸ ⟨rfl, rfl, rfl⟩), ?_⟩
  rw [hoff, writeRw_laneSel]
  exact wroteReg_ite _ (wroteReg_setReg s m _ _) (wroteReg_complete s m _)

theorem registerWrite_telRingLen {s : State} {m : Master} {off : BitVec 26} (v : Word) (hoff : off.toNat = rTelRingLen)
    (ha : mayAccess s m off.toNat) :
    ∃ t, exec (.registerWrite m off v) s = .next t ∧
      wroteReg s t m rTelRingLen (if ctlBit s rTelCtl 0 then reg s rTelRingLen else v &&& 0x1F) := by
  refine ⟨_, exec_registerWrite_rw v ha (hoff ▸ ⟨rfl, rfl, rfl⟩), ?_⟩
  rw [hoff, writeRw_telRingLen, ctlBit_complete]
  exact wroteReg_ite _ (wroteReg_complete s m _) (wroteReg_setReg s m _ _)

theorem registerWrite_mbox {s : State} {m : Master} {off : BitVec 26} (v : Word) (ha : mayAccess s m off.toNat)
    (hp : plainReg off.toNat .rw) (hin : rSecMbox ≤ off.toNat ∧ off.toNat < rSecMbox + 4096) :
    ∃ t, exec (.registerWrite m off v) s = .next t ∧
      wroteReg s t m off.toNat (if s.sec.mbox = .busy then reg s off.toNat else v) := by
  refine ⟨_, exec_registerWrite_rw v ha hp, ?_⟩
  rw [writeRw_mbox _ v _ hin, complete_sec]
  exact wroteReg_ite _ (wroteReg_complete s m _) (wroteReg_setReg s m _ _)

theorem registerWrite_hwSlot {s : State} {m : Master} {off : BitVec 26} (v : Word) (ha : mayAccess s m off.toNat)
    (hp : plainReg off.toNat .rw) (hin : rHwObj ≤ off.toNat ∧ off.toNat < rHwObj + 16384) (hobj : off.toNat % 16 ≠ 0) :
    ∃ t, exec (.registerWrite m off v) s = .next t ∧
      wroteReg s t m off.toNat (if slotArmed s (slotAt off.toNat) then reg s off.toNat else v &&& maskWord off.toNat) := by
  refine ⟨_, exec_registerWrite_rw v ha hp, ?_⟩
  rw [writeRw_hw _ v _ hin, writeHw_beside_obj _ v _ hin.1 hobj, slotArmed_complete]
  exact wroteReg_ite _ (wroteReg_complete s m _) (wroteReg_setReg s m _ _)

theorem registerWrite_msix {s : State} {m : Master} {off : BitVec 26} (v : Word) (ha : mayAccess s m off.toNat)
    (hp : plainReg off.toNat .rw) (hin : rMsixTable ≤ off.toNat ∧ off.toNat < rMsixTable + 0x8000) (hctl : off.toNat % 16 ≠ 12) :
    ∃ t, exec (.registerWrite m off v) s = .next t ∧ wroteReg s t m off.toNat (v &&& maskWord off.toNat) := by
  refine ⟨_, exec_registerWrite_rw v ha hp, ?_⟩
  rw [writeRw_msix _ v _ hin, writeMsix_beside_control _ v _ hin.1 hctl]
  exact wroteReg_setReg s m _ _

/-- Settles O4: the port of a master pairs the halves, and each gated register keeps or takes the value. -/
theorem registerGatesAndHalves : Obligations.RegisterGatesAndHalves := by
  unfold Obligations.RegisterGatesAndHalves
  refine ⟨⟨fun m off s ha hl hpop => ?_, fun m off v s ha hl => ?_, fun m off v s ha _ hh h4 hty hdim hring => ?_, fun m => ?_⟩,
    fun m off v s hoff ha => ?_, fun m off v s hoff ha => ?_, fun m off v s ha hp hlo hhi => ?_, fun m off v s ha hp hlo hhi hobj => ?_,
    fun m off v s ha hp hlo hhi hctl => ?_, fun off v s hclosed => ?_⟩
  · refine ⟨_, reg64LowRead_low ha hl hpop, by simp, by simp, fun n hn => ?_, by simp, by simp [changesOnly], ?_⟩
    · rw [mport_complete, mport_setMport_ne _ _ _ _ hn]
    · intro hi u hlatch hau hh hpop'
      have hval : (mport u m).latch = readWord s (off.toNat + 4) := by simpa using hlatch
      exact ⟨_, reg64LowRead_high hau hh hpop', by rw [complete_out, hval], by simp [changesOnly]⟩
  · exact ⟨_, exec_reg64LowWrite v ha hl, holdLow_spec s m _ v⟩
  · obtain ⟨t, ht, hlow, hrest⟩ := reg64HighWrite_stored v ha hh h4 hty hdim hring
    refine ⟨t, ht, fun x hx => ?_, fun hx => ?_, hrest⟩
    · rw [hlow, lowHalf_of_held (by simpa using hx)]
    · rw [hlow, lowHalf_of_not_held (by simpa using hx), readWord_complete]
  · cases m <;> exact ⟨rfl, rfl⟩
  · exact registerWrite_laneSel v hoff ha
  · exact registerWrite_telRingLen v hoff ha
  · exact registerWrite_mbox v ha hp ⟨hlo, hhi⟩
  · exact registerWrite_hwSlot v ha hp ⟨hlo, hhi⟩ hobj
  · exact registerWrite_msix v ha hp ⟨hlo, hhi⟩ hctl
  · exact ⟨_, congrArg Host.Outcome.next (byMaster_host_of_not_open _ s hclosed), rfl, by simp [changesOnly]⟩

end Sys2Proof.Machine
end

section
/-! PROOF. Marks: what memory, packets and the update leave of the verdicts, the collective errors, the objects and the engine. -/
namespace Sys2Proof.Machine
open Sys2Proof

/-! ### Marks -/

/-- The marks of a state: the verdicts of its attempts, its collective error register, its objects, and the collectives in
progress. What ends a collective speaks of these, and most operations leave them as they are. -/
@[irreducible] def marks (s : State) : (DWord → Option Verdict) × RsReg × (ObjRef → SyncObj) × List Coll :=
  (verdictOf s, rsReg s rCollErr, getObj s, s.coll.active)

theorem verdictOf_eq_of_marks {s t : State} (h : marks t = marks s) (att : DWord) : verdictOf t att = verdictOf s att := by
  rw [marks, marks] at h
  exact congrFun (congrArg Prod.fst h) att
theorem rsReg_collErr_eq_of_marks {s t : State} (h : marks t = marks s) : rsReg t rCollErr = rsReg s rCollErr := by
  rw [marks, marks] at h
  exact congrArg (fun m => m.2.1) h
theorem getObj_eq_of_marks {s t : State} (h : marks t = marks s) (r : ObjRef) : getObj t r = getObj s r := by
  rw [marks, marks] at h
  exact congrFun (congrArg (fun m => m.2.2.1) h) r
theorem active_eq_of_marks {s t : State} (h : marks t = marks s) : t.coll.active = s.coll.active := by
  rw [marks, marks] at h
  exact congrArg (fun m => m.2.2.2) h

/-- The components that the marks depend on. -/
def marked : List Comp := [.step, .rs, .sync, .dies, .coll]

theorem getObj_congr {s t : State} (hsync : t.sync = s.sync) (hdies : t.dies = s.dies) : getObj t = getObj s := by
  funext r
  cases r <;> simp only [getObj, localDefault, die, hsync, hdies]

theorem verdictOf_congr {s t : State} (h : t.step = s.step) : verdictOf t = verdictOf s := by
  funext att
  rw [verdictOf, verdictOf, attempt, attempt, h]

theorem rsReg_congr {s t : State} (h : t.rs = s.rs) : rsReg t = rsReg s := by
  funext off
  rw [rsReg, rsReg, h]

/-- An operation that leaves those components alone leaves the marks. -/
theorem marks_of_frame {s t : State} (h : t.erase (fun c => decide (c ∉ marked)) = s.erase (fun c => decide (c ∉ marked))) :
    marks t = marks s := by
  have hstep : t.step = s.step := by simpa [State.erase, marked] using congrArg State.step h
  have hrs : t.rs = s.rs := by simpa [State.erase, marked] using congrArg State.rs h
  have hsync : t.sync = s.sync := by simpa [State.erase, marked] using congrArg State.sync h
  have hdies : t.dies = s.dies := by simpa [State.erase, marked] using congrArg State.dies h
  have hcoll : t.coll = s.coll := by simpa [State.erase, marked] using congrArg State.coll h
  rw [marks, marks, verdictOf_congr hstep, rsReg_congr hrs, getObj_congr hsync hdies, hcoll]

theorem marks_setReg (s : State) (o : Nat) (v : Word) : marks (setReg s o v) = marks s := marks_of_frame (setReg_frame (by decide) s o v)
theorem marks_setReg64 (s : State) (o : Nat) (v : DWord) : marks (setReg64 s o v) = marks s := marks_of_frame (setReg64_frame (by decide) s o v)
theorem marks_addReg (s : State) (o n : Nat) : marks (addReg s o n) = marks s := marks_of_frame (addReg_frame (by decide) s o n)
theorem marks_addReg64 (s : State) (o n : Nat) : marks (addReg64 s o n) = marks s := marks_of_frame (addReg64_frame (by decide) s o n)
theorem marks_setFld (s : State) (o hi lo v : Nat) : marks (setFld s o hi lo v) = marks s := marks_of_frame (setFld_frame (by decide) s o hi lo v)
theorem marks_satFld16 (s : State) (o lo : Nat) : marks (satFld16 s o lo) = marks s := marks_of_frame (satFld16_frame (by decide) s o lo)
theorem marks_withMem (s : State) (x : MemState) : marks { s with mem := x } = marks s := marks_of_frame (State.erase_mem s x (by decide))
theorem marks_withFlash (s : State) (x : FlashState) : marks { s with flash := x } = marks s := marks_of_frame (State.erase_flash s x (by decide))
theorem marks_withUpd (s : State) (x : UpdState) : marks { s with upd := x } = marks s := marks_of_frame (State.erase_upd s x (by decide))
theorem marks_withImg (s : State) (x : ImageState) : marks { s with img := x } = marks s := marks_of_frame (State.erase_img s x (by decide))

/-- What keeps the attempts and those other components keeps the marks. -/
theorem marks_of_attempts {s t : State} (hatt : t.step.attempts = s.step.attempts) (hrs : t.rs = s.rs) (hsync : t.sync = s.sync)
    (hdies : t.dies = s.dies) (hcoll : t.coll = s.coll) : marks t = marks s := by
  have hv : verdictOf t = verdictOf s := by
    funext att
    rw [verdictOf, verdictOf, attempt, attempt, hatt]
  rw [marks, marks, hv, rsReg_congr hrs, getObj_congr hsync hdies, hcoll]

theorem marks_ite {s a b : State} (c : Prop) [Decidable c] (ha : marks a = marks s) (hb : marks b = marks s) :
    marks (if c then a else b) = marks s := by split <;> assumption

theorem marks_foldl {α : Type} (f : State → α → State) (l : List α) (s : State) (h : ∀ s x, marks (f s x) = marks s) :
    marks (l.foldl f s) = marks s := by
  induction l generalizing s with
  | nil => rfl
  | cons x l ih => rw [List.foldl_cons, ih, h]

theorem marks_foldl_pair {α β : Type} (f : β × State → α → β × State) (l : List α) (s : β × State)
    (h : ∀ s x, marks (f s x).2 = marks s.2) : marks (l.foldl f s).2 = marks s.2 := by
  induction l generalizing s with
  | nil => rfl
  | cons x l ih => rw [List.foldl_cons, ih, h]

/-! ### Events (R489) -/

/-- Recording events changes one register of the RS store. -/
theorem rs_rsEvents (s : State) (off : Nat) (bits : BitVec 24) (h : bits ≠ 0) :
    (rsEvents s off bits).rs = SMap.set {} s.rs off ((rsReg s off).record bits) := by
  have helog : ∀ (l : List Nat) (t : State),
      (l.foldl (fun t i => if bits.getLsbD i then elogAppend t off i else t) t).rs = t.rs := fun l t =>
    changesOnly.rs (ks := [.host]) (State.erase_foldl _ _ _ fun t i => by simp) (by decide)
  have hclass : ∀ (t : State) (v : Fin 16) (en : Bool), (classEvent t v en).rs = t.rs := fun t v en =>
    changesOnly.rs (ks := [.out, .host]) (classEvent_frame (by decide) t v en) (by decide)
  rw [rsEvents, if_neg h]
  dsimp only
  split
  · rw [hclass]; split <;> simp only [helog]
  · split <;> simp only [helog]

theorem rsReg_rsEvents_ne (s : State) (off o : Nat) (bits : BitVec 24) (h : o ≠ off) : rsReg (rsEvents s off bits) o = rsReg s o := by
  by_cases hb : bits = 0
  · rw [rsEvents, if_pos hb]
  · rw [rsReg, rs_rsEvents s off bits hb, SMap.get_set_ne _ _ _ _ _ _ h, rsReg]

/-- An event recorded stands in its register. -/
theorem rsReg_rsEvent_bit (s : State) (off bit : Nat) (h : bit < 24) : (rsReg (rsEvent s off bit) off).ev.getLsbD bit = true := by
  have hbit : (BitVec.ofNat 24 (2 ^ bit)).getLsbD bit = true := by rw [BitVec.getLsbD_ofNat, Nat.testBit_two_pow_self, decide_eq_true h]; rfl
  have hb : BitVec.ofNat 24 (2 ^ bit) ≠ 0 := fun e => by simp [e] at hbit
  rw [rsEvent, rsReg, rs_rsEvents s off _ hb, SMap.get_set_self, RsReg.record, if_neg hb]
  simp only [BitVec.getLsbD_or, hbit, Bool.or_true]

theorem marks_rsEvents (s : State) (off : Nat) (bits : BitVec 24) (h : off ≠ rCollErr) : marks (rsEvents s off bits) = marks s := by
  have hf : changesOnly [.out, .rs, .host] s (rsEvents s off bits) := rsEvents_frame (by decide) s off bits
  rw [marks, marks, verdictOf_congr (hf.step (by decide)), rsReg_rsEvents_ne s off _ bits h.symm,
    getObj_congr (hf.sync (by decide)) (hf.dies (by decide)), hf.coll (by decide)]

theorem marks_rsEvent (s : State) (off bit : Nat) (h : off ≠ rCollErr) : marks (rsEvent s off bit) = marks s := marks_rsEvents s off _ h

/-! ### Attempts -/

/-- Replacing matches by matches and others by others, the first match is the one that replaced it. -/
theorem find?_map_of_iff {α : Type} {p : α → Bool} {f : α → α} (hf : ∀ x, p (f x) = p x) (l : List α) :
    (l.map f).find? p = (l.find? p).map f := by
  rw [List.find?_map]
  exact congrArg (Option.map f) (congrArg (List.find? · l) (funext hf))

theorem attempt_updAttempt (s : State) (att att' : DWord) (f : Attempt → Attempt) (hf : ∀ a, (f a).att = a.att) :
    attempt (updAttempt s att f) att' = (attempt s att').map fun a => if a.att = att then f a else a := by
  have hp : ∀ a : Attempt, decide ((if a.att = att then f a else a).att = att') = decide (a.att = att') := fun a => by
    split <;> simp [hf]
  rw [attempt, updAttempt, find?_map_of_iff hp, attempt]

theorem attempt_att {s : State} {att : DWord} {a : Attempt} (h : attempt s att = some a) : a.att = att := by
  simpa using List.find?_some h

/-- The attempt that is updated reads as updated. -/
theorem attempt_updAttempt_self (s : State) (att : DWord) (f : Attempt → Attempt) (hf : ∀ a, (f a).att = a.att) :
    attempt (updAttempt s att f) att = (attempt s att).map f := by
  rw [attempt_updAttempt s att att f hf]
  cases h : attempt s att with
  | none => rfl
  | some a => simp [attempt_att h]

/-- An update of an attempt that keeps its number and its verdict keeps the marks. -/
theorem marks_updAttempt (s : State) (att : DWord) (f : Attempt → Attempt) (hf : ∀ a, (f a).att = a.att)
    (hv : ∀ a, (f a).verdict = a.verdict) : marks (updAttempt s att f) = marks s := by
  have h : verdictOf (updAttempt s att f) = verdictOf s := by
    funext att'
    rw [verdictOf, attempt_updAttempt s att att' f hf, verdictOf]
    cases attempt s att' with
    | none => rfl
    | some a => simp only [Option.map_some, Option.bind_some]; split <;> simp [hv]
  rw [marks, marks, h]
  rfl

/-- The verdict given to an attempt that is there is the one it has. -/
theorem verdictOf_updAttempt_self {s : State} {att : DWord} (v : Verdict) (h : (attempt s att).isSome = true) :
    verdictOf (updAttempt s att fun a => { a with verdict := some v }) att = some v := by
  rw [verdictOf, attempt_updAttempt_self s att _ (by exact fun _ => rfl)]
  cases ha : attempt s att with
  | none => simp [ha] at h
  | some a => rfl

theorem marks_addCause (s : State) (att : DWord) (bit : Nat) (layer : Half) (cd : Byte) :
    marks (addCause s att bit layer cd) = marks s := marks_updAttempt s att _ (fun _ => rfl) fun _ => rfl

/-! ### Module memory -/

theorem marks_requestStop (s : State) (code : Nat) : marks (requestStop s code) = marks s := by
  unfold requestStop
  split
  · rfl
  · exact marks_withImg s _
  · exact marks_withImg s _
  · exact marks_of_attempts rfl rfl rfl rfl rfl

theorem marks_memEvent (s : State) (bit : Nat) (n : Stack) (row : Nat) : marks (memEvent s bit n row) = marks s :=
  (marks_rsEvent _ _ _ (by simp only [rMemErr, rCollErr]; omega)).trans (marks_setReg _ _ _)

theorem marks_updStack (s : State) (n : Stack) (f : StackState → StackState) :
    marks (updStack s n f) = marks s := marks_of_frame (updStack_frame (by decide) s n f)
theorem marks_poisonPage (s : State) (n : Stack) (p : Nat) :
    marks (poisonPage s n p) = marks s := marks_of_frame (poisonPage_frame (by decide) s n p)
theorem marks_setRemap (s : State) (n : Stack) (p : Nat) (sub : Option Nat) :
    marks (setRemap s n p sub) = marks s := marks_of_frame (setRemap_frame (by decide) s n p sub)
theorem marks_logMapOut (s : State) (n : Stack) (ch : Nat) :
    marks (logMapOut s n ch) = marks s := marks_of_frame (logMapOut_frame (by decide) s n ch)

theorem marks_retireOne (s : State) (n : Stack) (p row : Nat) (again : Bool) : marks (retireOne s n p row again) = marks s := by
  unfold retireOne
  extract_lets cls full used mapped found addressed counted retired noted pool poolStep sub taken substituted remapped shown done
  have hretired : marks retired = marks s := by
    simp only [retired, counted, addressed, found, mapped, marks_memEvent, marks_satFld16, marks_setReg64, marks_logMapOut, marks_updStack]
  have hnoted : marks noted = marks s := marks_ite _ ((marks_memEvent _ _ _ _).trans hretired) hretired
  have hpool : marks pool = marks s := (marks_setRemap _ _ _ _).trans hnoted
  have hsub : marks (poisonPage substituted n sub) = marks s := by
    simp only [substituted, taken, marks_poisonPage, marks_setFld, marks_setRemap, marks_updStack, hnoted]
  have hshown : marks shown = marks s := (marks_setFld _ _ _ _ _).trans (marks_ite _ hnoted hpool)
  have hdone : marks done = marks s :=
    marks_ite _ (Eq.trans (b := marks pool) (marks_of_attempts rfl rfl rfl rfl rfl) hpool) <| marks_ite _ hsub <|
      (marks_memEvent _ _ _ _).trans (marks_ite _ hshown ((marks_requestStop _ _).trans hshown))
  exact marks_ite _ ((marks_requestStop _ _).trans hdone) hdone

theorem marks_retirePage (s : State) (n : Stack) (o row : Nat) : marks (retirePage s n o row) = marks s := by
  unfold retirePage
  dsimp only
  split
  · exact marks_retireOne _ _ _ _ _
  · exact marks_ite _ rfl (marks_retireOne _ _ _ _ _)

theorem marks_rowNeedsRepair (s : State) (n : Stack) (o : Nat) : marks (rowNeedsRepair s n o) = marks s :=
  marks_ite _ rfl (marks_ite _ (marks_retirePage _ _ _ _) (marks_updStack _ _ _))

theorem marks_foundUe (s : State) (g a : Nat) : marks (foundUe s g a) = marks s := by
  rw [foundUe, marks_rowNeedsRepair, marks_memEvent, marks_setReg64, marks_addReg, marks_addReg, marks_withMem]

theorem marks_correctGran (s : State) (g : Nat) : marks (correctGran s g) = marks s :=
  marks_of_frame (correctGran_frame (by decide) s g)

theorem marks_foundCe (s : State) (g : Nat) : marks (foundCe s g) = marks s := by
  unfold foundCe
  extract_lets n row corrected hit
  have hhit : marks hit = marks s := (marks_updStack _ _ _).trans (marks_correctGran s g)
  split
  · exact marks_ite _ ((marks_rowNeedsRepair _ _ _).trans ((marks_memEvent _ _ _ _).trans ((marks_updStack _ _ _).trans hhit))) hhit
  · exact hhit

theorem marks_caParity (s : State) (gs : List (Nat × Nat)) : marks (caParity s gs) = marks s := by
  have hevent : ∀ bit n row, marks (memEvent { s with mem := { s.mem with parity := 0 } } bit n row) = marks s :=
    fun _ _ _ => (marks_memEvent _ _ _ _).trans (marks_withMem s _)
  exact marks_ite _ rfl (marks_ite _ ((marks_foldl _ _ _ fun _ _ => marks_foundUe _ _ _).trans (hevent _ _ _)) (hevent _ _ _))

theorem marks_repairRow (s : State) (n : Stack) (row : Nat) : marks (repairRow s n row) = marks s := by
  rw [repairRow, marks_memEvent, marks_withFlash, marks_updStack, marks_foldl _ _ _ marks_correctGran,
    marks_foldl _ _ _ fun _ _ => marks_foundUe _ _ _]

theorem marks_holdForRepair (s : State) (g : Nat) : marks (holdForRepair s g) = marks s := by
  unfold holdForRepair
  dsimp only
  split
  · exact marks_ite _ (marks_repairRow _ _ _) rfl
  · rfl

theorem marks_touchGran (s : State) (g a : Nat) : marks (touchGran s g a) = marks s :=
  marks_ite _ rfl (marks_ite _ (marks_foundUe _ _ _) (marks_ite _ (marks_foundCe _ _) rfl))

theorem marks_holds (s : State) (gs : List (Nat × Nat)) : marks (gs.foldl (fun s x => holdForRepair s x.1) s) = marks s :=
  marks_foldl _ _ _ fun _ _ => marks_holdForRepair _ _

theorem marks_memRead {s t : State} {a len : Nat} {r : MemRead} (h : memRead s a len = some (r, t)) : marks t = marks s := by
  unfold memRead at h
  split at h
  · cases h
    rw [marks_foldl _ _ _ fun _ _ => marks_touchGran _ _ _, marks_caParity]
    exact marks_holds s _
  · cases h

theorem marks_writeMark (s : State) (a len g b : Nat) : marks (writeMark s a len g b) = marks s :=
  marks_ite _ (marks_withMem s _) (marks_touchGran _ _ _)

theorem marks_memWrite {s t : State} {a : Nat} {bs : List Byte} {r : Bool} (h : memWrite s a bs = some (r, t)) : marks t = marks s := by
  unfold memWrite at h
  split at h
  · dsimp only at h
    split at h
    · cases h; rfl
    · cases h
      rw [marks_caParity, marks_withMem, marks_foldl _ _ _ fun _ _ => marks_writeMark _ _ _ _ _]
      exact marks_holds s _
  · cases h

theorem marks_memPut (s : State) (a : Nat) (bs : List Byte) : marks (memPut s a bs) = marks s := by
  unfold memPut
  split
  · exact marks_memWrite ‹_›
  · rfl

theorem marks_writeVerdict (s : State) (att : DWord) (v : Nat) : marks (writeVerdict s att v) = marks s := by
  unfold writeVerdict
  split
  · exact marks_memPut _ _ _
  · rfl

/-! ### Packets -/

theorem marks_fabErr (s : State) (bit : Nat) (p : Packet) (ch : Option Chan) : marks (fabErr s bit p ch) = marks s :=
  (marks_rsEvent _ _ _ (by simp only [rFabErr, rCollErr]; omega)).trans (marks_setReg _ _ _)

theorem marks_dropLife (s : State) (p : Packet) (ch : Option Chan) : marks (dropLife s p ch) = marks s :=
  (marks_addReg _ _ _).trans (marks_fabErr _ _ _ _)

theorem marks_poolLeave (s : State) (p : Packet) (src : Option (Chan × Nat)) : marks (poolLeave s p src) = marks s :=
  marks_of_frame (poolLeave_frame (by decide) s p src)

theorem marks_pick (s : State) (w : WaitPkt) (fresh : Bool) : marks (pick s w fresh).2 = marks s :=
  marks_of_frame (pick_frame (by decide) s w fresh)

theorem marks_parkPkt (s : State) (w : WaitPkt) : marks (parkPkt s w) = marks s := marks_of_frame (parkPkt_frame (by decide) s w)

theorem marks_putOnLink (s : State) (p : Packet) (c : Chan) : marks (putOnLink s p c) = marks s :=
  marks_of_frame (putOnLink_frame (by decide) s p c)

theorem marks_depart (s : State) (w : WaitPkt) (c : Chan) : marks (depart s w c) = marks s := by
  rw [depart, marks_poolLeave]
  exact marks_ite _ (marks_dropLife _ _ _) (marks_putOnLink _ _ _)

theorem marks_sendCopyA (p : Packet) (s : State) (m : Half) : marks (sendCopyA p s m) = marks s := by
  unfold sendCopyA
  dsimp only
  split
  next c t hp => rw [marks_depart, ← marks_pick s _ true, hp]
  next t hp => rw [marks_parkPkt, ← marks_pick s _ true, hp]

theorem marks_sendCopyB (p : Packet) (s : State) (dm : Nat × Half) : marks (sendCopyB p s dm) = marks s := by
  unfold sendCopyB
  dsimp only
  split
  · rw [marks_depart]
  · rw [marks_parkPkt]

theorem marks_broadcast (s : State) (p : Packet) : marks (broadcast s p) = marks s := by
  rw [broadcast, marks_foldl _ _ _ (marks_sendCopyB p), marks_foldl _ _ _ (marks_sendCopyA p)]

/-! ### The update (R273, R288) -/

theorem marks_updRead (s : State) (a len : Nat) : marks (updRead s a len).2 = marks s := by
  unfold updRead
  split
  · exact marks_memRead ‹_›
  · rfl

theorem marks_jput (s : State) (a : Nat) (bs : List Byte) : marks (jput s a bs) = marks s := by
  unfold jput
  split
  next h => exact marks_memWrite h
  next h => exact (marks_withUpd _ _).trans (marks_memWrite h)
  · exact marks_withUpd s _

theorem marks_readCounts (s : State) : marks (readCounts s).2 = marks s := by
  refine marks_foldl_pair _ _ _ fun acc l => ?_
  split
  next hr => rw [← marks_updRead acc.2, hr]
  next hr => rw [← marks_updRead acc.2, hr]

theorem marks_beginJournal (p : JobParams) (q : Pass2) (reps flags : Nat) (s : State) :
    marks (beginJournal p q reps flags s).2 = marks s := by
  have hjerr : ∀ x : Bool × State, marks (withJerr x).2 = marks x.2 := fun x => marks_withUpd x.2 _
  rw [beginJournal, hjerr, marks_jput, marks_jput, marks_readCounts]

theorem marks_countFrozen (s : State) : marks (countFrozen s) = marks s :=
  marks_ite _ rfl ((marks_rsEvent _ _ _ (by simp only [rUpdStat, rCollErr]; omega)).trans (marks_addReg _ _ _))

theorem marks_ratioAppend (s : State) (n : Nat) : marks (ratioAppend s n) = marks s := by
  unfold ratioAppend
  split
  · rfl
  · exact marks_ite _ rfl (marks_foldl _ _ _ fun _ _ => marks_memPut _ _ _)

theorem marks_scaleCommit (s : State) : marks (scaleCommit s) = marks s := by
  unfold scaleCommit
  split
  · rfl
  · exact (marks_setReg _ _ _).trans (marks_of_attempts rfl rfl rfl rfl rfl)

theorem marks_commitStep (s : State) (q : Pass2) : marks (commitStep s q) = marks s := by
  unfold commitStep
  extract_lets appended journaled unit stepped shown committed scaled outer
  have hstepped : marks stepped = marks s :=
    Eq.trans (b := marks journaled) (marks_of_attempts rfl rfl rfl rfl rfl) ((marks_jput _ _ _).trans (marks_ratioAppend _ _))
  have hcommitted : marks committed = marks s :=
    Eq.trans (b := marks shown) (marks_updAttempt _ _ _ (fun _ => rfl) fun _ => rfl) ((marks_setReg64 _ _ _).trans hstepped)
  have hscaled : marks scaled = marks s := marks_ite _ hcommitted ((marks_scaleCommit _).trans hcommitted)
  have houter : marks outer = marks s :=
    marks_ite _ ((marks_rsEvent _ _ _ (by simp only [rUpdStat, rCollErr]; omega)).trans ((marks_addReg _ _ _).trans hscaled)) hscaled
  exact (marks_withUpd outer _).trans houter

theorem marks_tryCommit (s : State) : marks (tryCommit s) = marks s := by
  have hsnap : ∀ p q, marks (noteSnapshot s p q) = marks s := fun p q => marks_of_frame (noteSnapshot_frame (by decide) s p q)
  unfold tryCommit
  split
  · exact marks_ite _ ((marks_commitStep _ _).trans (hsnap _ _)) (hsnap _ _)
  · rfl

end Sys2Proof.Machine
end

section
/-! PROOF. What signals, withdrawals and stream resets keep: verdicts, recorded collective errors, the error of an object, and an
idle collective engine. -/
namespace Sys2Proof.Machine
open Sys2Proof

/-- `t` takes nothing back that `s` has recorded: the collective error register stands, an object in error stays in it with its
cause (R216), and no collective begins where none is in progress. -/
structure Stands (s t : State) : Prop where
  collErr : rsReg t rCollErr = rsReg s rCollErr
  error : ∀ r, (getObj s r).err = true → (getObj t r).err = true ∧ (getObj t r).cause = (getObj s r).cause
  idle : s.coll.active = [] → t.coll.active = []

theorem Stands.refl (s : State) : Stands s s := ⟨rfl, fun _ h => ⟨h, rfl⟩, id⟩

theorem Stands.trans {s t u : State} (h : Stands s t) (g : Stands t u) : Stands s u where
  collErr := g.collErr.trans h.collErr
  error r hr := by
    obtain ⟨ht, hc⟩ := h.error r hr
    obtain ⟨hu, hd⟩ := g.error r ht
    exact ⟨hu, hd.trans hc⟩
  idle hs := g.idle (h.idle hs)

/-- Nor does it change a verdict. -/
structure Kept (s t : State) : Prop extends Stands s t where
  verdict : ∀ att, verdictOf t att = verdictOf s att

theorem Kept.refl (s : State) : Kept s s := ⟨.refl s, fun _ => rfl⟩

theorem Kept.trans {s t u : State} (h : Kept s t) (g : Kept t u) : Kept s u :=
  ⟨h.toStands.trans g.toStands, fun att => (g.verdict att).trans (h.verdict att)⟩

theorem Kept.of_marks {s t : State} (h : marks t = marks s) : Kept s t where
  verdict := verdictOf_eq_of_marks h
  collErr := rsReg_collErr_eq_of_marks h
  error r hr := by rw [getObj_eq_of_marks h r]; exact ⟨hr, rfl⟩
  idle hs := by rw [active_eq_of_marks h, hs]

theorem Kept.ite {s a b : State} (c : Prop) [Decidable c] (ha : Kept s a) (hb : Kept s b) : Kept s (if c then a else b) := by
  split <;> assumption

theorem Kept.foldl {α : Type} (f : State → α → State) (h : ∀ s x, Kept s (f s x)) (l : List α) (s : State) :
    Kept s (l.foldl f s) := by
  induction l generalizing s with
  | nil => exact .refl s
  | cons x l ih => exact (h s x).trans (ih _)

theorem kept_forDies (f : Die → State → State) (h : ∀ d s, Kept s (f d s)) (s : State) : Kept s (forDies f s) :=
  Kept.foldl _ (fun s d => h d s) _ s

theorem kept_forStreams (f : Die → Sid → State → State) (h : ∀ d c s, Kept s (f d c s)) (s : State) : Kept s (forStreams f s) :=
  kept_forDies _ (fun d _ => Kept.foldl _ (fun s c => h d c s) _ _) s

/-! ### Updates of a die that keep its objects -/

theorem getObj_updDie (s : State) (d : Die) (f : DieState → DieState) (hobjs : ∀ x, (f x).objs = x.objs)
    (hgen : ∀ x, (f x).objGen = x.objGen) : getObj (updDie s d f) = getObj s := by
  funext r
  cases r with
  | glob i => rfl
  | loc e i =>
    by_cases h : e = d
    · subst h; simp only [getObj, localDefault, die_updDie_self, hobjs, hgen]
    · simp only [getObj, localDefault, die_updDie_ne _ _ _ _ h]

theorem marks_updDie (s : State) (d : Die) (f : DieState → DieState) (hobjs : ∀ x, (f x).objs = x.objs)
    (hgen : ∀ x, (f x).objGen = x.objGen) : marks (updDie s d f) = marks s := by
  rw [marks, marks, getObj_updDie s d f hobjs hgen]
  rfl

theorem marks_updStr (s : State) (d : Die) (c : Sid) (f : Stream → Stream) : marks (updStr s d c f) = marks s :=
  marks_updDie _ _ _ (fun _ => rfl) fun _ => rfl
theorem marks_updArr (s : State) (d : Die) (f : ArrayUnit → ArrayUnit) : marks (updArr s d f) = marks s :=
  marks_updDie _ _ _ (fun _ => rfl) fun _ => rfl
theorem marks_updCtx (s : State) (d : Die) (c : Sid) (f : VCtx → VCtx) : marks (updCtx s d c f) = marks s :=
  marks_updDie _ _ _ (fun _ => rfl) fun _ => rfl

/-! ### Objects -/

@[simp] theorem getObj_putObj_self (s : State) (r : ObjRef) (o : SyncObj) : getObj (putObj s r o) r = o := by
  cases r with
  | glob i => simp [getObj, putObj]
  | loc d i => simp [getObj, putObj, localDefault]

theorem getObj_putObj_ne (s : State) (r x : ObjRef) (o : SyncObj) (h : x ≠ r) : getObj (putObj s r o) x = getObj s x := by
  cases r with
  | glob i =>
    cases x with
    | glob j =>
      have hij : j.val ≠ i.val := fun e => h (congrArg ObjRef.glob (Fin.ext e))
      exact SMap.get_set_ne _ _ _ _ _ _ hij
    | loc e j => rfl
  | loc d i =>
    cases x with
    | glob j => rfl
    | loc e j =>
      by_cases hd : e = d
      · subst hd
        have hij : j.val ≠ i.val := fun e => h (congrArg (ObjRef.loc _) (Fin.ext e))
        simp only [getObj, putObj, localDefault, die_updDie_self, SMap.get_set_ne _ _ _ _ _ _ hij]
      · simp only [getObj, putObj, localDefault, die_updDie_ne _ _ _ _ hd]

/-- An object that replaces another one keeps its error. -/
def SyncObj.keeps (o p : SyncObj) : Prop := o.err = true → p.err = true ∧ p.cause = o.cause

theorem kept_putObj (s : State) (r : ObjRef) (o : SyncObj) (h : (getObj s r).keeps o) : Kept s (putObj s r o) := by
  have hf : changesOnly [.sync, .dies] s (putObj s r o) := putObj_frame (by decide) s r o
  refine ⟨⟨congrFun (rsReg_congr (hf.rs (by decide))) _, fun x hx => ?_, fun hs => by rw [hf.coll (by decide), hs]⟩,
    congrFun (verdictOf_congr (hf.step (by decide)))⟩
  by_cases hxr : x = r
  · subst hxr; rw [getObj_putObj_self]; exact h hx
  · rw [getObj_putObj_ne _ _ _ _ hxr]; exact ⟨hx, rfl⟩

/-! ### What the arbiter does to an object in error (R216) -/

theorem SyncObj.setError_of_err (o : SyncObj) (c : BitVec 4) (h : o.err = true) : o.setError c = ⟨o, [], false⟩ := if_pos h
theorem SyncObj.add_of_err (o : SyncObj) (n : Nat) (h : o.err = true) : o.add n = ⟨o, [], false⟩ := if_pos h
theorem SyncObj.addAhead_of_err (o : SyncObj) (n : Nat) (h : o.err = true) : o.addAhead n = ⟨o, [], false⟩ := if_pos h
theorem SyncObj.leave_of_err (o : SyncObj) (who : Who) (h : o.err = true) : o.leave who = ⟨o.withdraw who, [], false⟩ := if_pos h

theorem SyncObj.keeps_withdraw (o : SyncObj) (who : Who) : o.keeps (o.withdraw who) := fun h => ⟨h, rfl⟩
theorem SyncObj.keeps_setError (o : SyncObj) (c : BitVec 4) : o.keeps (o.setError c).obj := fun h => by
  rw [o.setError_of_err c h]; exact ⟨h, rfl⟩
theorem SyncObj.keeps_add (o : SyncObj) (n : Nat) : o.keeps (o.add n).obj := fun h => by rw [o.add_of_err n h]; exact ⟨h, rfl⟩
theorem SyncObj.keeps_addAhead (o : SyncObj) (n : Nat) : o.keeps (o.addAhead n).obj := fun h => by
  rw [o.addAhead_of_err n h]; exact ⟨h, rfl⟩
theorem SyncObj.keeps_leave (o : SyncObj) (who : Who) : o.keeps (o.leave who).obj := fun h => by
  rw [o.leave_of_err who h]; exact o.keeps_withdraw who h

/-! ### Signals -/

theorem marks_syncEvent (s : State) (bit : Nat) (cause : BitVec 4) (src : Src) (ref : Nat) :
    marks (syncEvent s bit cause src ref) = marks s :=
  (marks_rsEvent _ _ _ (by simp only [rSyncErrStat, rCollErr]; omega)).trans (marks_setReg _ _ _)

theorem marks_cdSyncEvent (s : State) (d : Die) (bit : Nat) (cause : BitVec 4) (src : Src) (ref : Nat) :
    marks (cdSyncEvent s d bit cause src ref) = marks s :=
  (marks_rsEvent _ _ _ (by simp only [cdWin, rCdSyncErr, rCollErr]; omega)).trans (marks_setReg _ _ _)

theorem marks_logObjError (s : State) (r : ObjRef) (cause : BitVec 4) (src : Src) : marks (logObjError s r cause src) = marks s := by
  cases r with
  | glob i => exact marks_syncEvent _ _ _ _ _
  | loc d i =>
    exact marks_ite _ (marks_cdSyncEvent _ _ _ _ _ _) (marks_ite _ (marks_cdSyncEvent _ _ _ _ _ _)
      (marks_ite _ (marks_cdSyncEvent _ _ _ _ _ _) rfl))

theorem marks_stopImage (s : State) (code : Nat) : marks (stopImage s code) = marks s := marks_of_frame (stopImage_frame (by decide) s code)
theorem marks_endSlot (s : State) (n : Fin 1024) (status : Nat) (o : SyncObj) : marks (endSlot s n status o) = marks s :=
  marks_of_frame (endSlot_frame (by decide) s n status o)
theorem marks_issued (s : State) (d : Die) (c : Sid) : marks (issued s d c) = marks s := (marks_addReg64 _ _ _).trans (marks_updStr _ _ _ _)

theorem marks_endStreamWait (s : State) (d : Die) (c : Sid) (status : Nat) : marks (endStreamWait s d c status).1 = marks s := by
  unfold endStreamWait
  dsimp only
  split
  · exact (marks_issued _ _ _).trans (marks_updStr _ _ _ _)
  · split
    · rw [marks_updStr, marks_issued, marks_updStr]
    · rw [marks_stopImage, marks_updStr, marks_updStr]

theorem marks_endWaiters (s : State) (r : ObjRef) (o : SyncObj) (ws : List (Waiter × Nat)) : marks (endWaiters s r o ws).1 = marks s := by
  induction ws generalizing s with
  | nil => rfl
  | cons p ws ih =>
    obtain ⟨w, st⟩ := p
    simp only [endWaiters]
    split
    · exact (ih _).trans (marks_endSlot _ _ _ _)
    · exact (ih _).trans ((marks_endStreamWait _ _ _ _).trans (marks_ite _ (marks_cdSyncEvent _ _ _ _ _ _) rfl))

theorem kept_applyRes (s : State) (r : ObjRef) (src : Src) (res : ObjRes) (h : (getObj s r).keeps res.obj) :
    Kept s (applyRes s r src res).1 :=
  (kept_putObj s r res.obj h).trans <| .of_marks <| (marks_endWaiters _ _ _ _).trans (marks_ite _ (marks_logObjError _ _ _ _) rfl)

theorem marks_noteInput (s : State) (src : Src) (i : Nat) : marks (noteInput s src i) = marks s := by
  unfold noteInput
  split
  · exact marks_ite _ (marks_updAttempt s _ _ (fun _ => rfl) fun _ => rfl) rfl
  · rfl

theorem marks_noteCommit (s : State) (src : Src) (i : Nat) : marks (noteCommit s src i) = marks s :=
  marks_of_frame (noteCommit_frame (by decide) s src i)
theorem marks_classEvent (s : State) (v : Fin 16) (en : Bool) : marks (classEvent s v en) = marks s :=
  marks_of_frame (classEvent_frame (by decide) s v en)

theorem kept_addOnce (s : State) (g : Sig) : Kept s (addOnce s g).1 := by
  obtain ⟨r, n, tag, src⟩ := g
  cases r with
  | glob i =>
    have hnoted : ∀ s, marks (noteInput (noteCommit (addReg64 s rSyncSignals 1) src i.val) src i.val) = marks s := fun s =>
      (marks_noteInput _ _ _).trans ((marks_noteCommit _ _ _).trans (marks_addReg64 _ _ _))
    refine (Kept.of_marks (hnoted s)).trans ((kept_applyRes _ (.glob i) src _ (SyncObj.keeps_add _ n)).trans ?_)
    exact .ite _ (.of_marks (marks_classEvent _ _ _)) (.ite _ (.of_marks (marks_classEvent _ _ _)) (.refl _))
  | loc d i =>
    have hadd := kept_applyRes s (.loc d i) src _ (SyncObj.keeps_add _ n)
    unfold addOnce
    dsimp only
    split
    · exact .refl s
    · split
      · exact hadd
      · split
        · exact hadd
        · split
          · exact kept_applyRes _ _ _ _ (SyncObj.keeps_addAhead _ n)
          · split
            · exact kept_applyRes _ _ _ _ (SyncObj.keeps_setError _ _)
            · exact .of_marks (marks_addReg _ _ _)

theorem kept_addSignals (fuel : Nat) (gs : List Sig) (s : State) : Kept s (addSignals fuel gs s) := by
  induction fuel generalizing gs s with
  | zero => cases gs <;> exact .refl s
  | succ n ih =>
    cases gs with
    | nil => exact .refl s
    | cons g gs => exact (kept_addOnce s g).trans (ih _ _)

theorem kept_signals (s : State) (gs : List Sig) : Kept s (signals s gs) := kept_addSignals _ gs s

theorem kept_leaveObj (s : State) (r : ObjRef) (who : Who) : Kept s (leaveObj s r who) :=
  (kept_applyRes s r _ _ (SyncObj.keeps_leave _ who)).trans (kept_signals _ _)

theorem kept_setObjError (s : State) (r : ObjRef) (cause : BitVec 4) (src : Src) : Kept s (setObjError s r cause src) :=
  (kept_applyRes s r src _ (SyncObj.keeps_setError _ cause)).trans (kept_signals _ _)

theorem kept_withdrawWait (s : State) (d : Die) (c : Sid) : Kept s (withdrawWait s d c) := by
  unfold withdrawWait
  split
  · exact kept_leaveObj _ _ _
  · exact .refl s

theorem kept_withdrawAll (s : State) (xs : List (Die × Sid)) : Kept s (withdrawAll s xs) := by
  rw [withdrawAll, leaveAll]
  exact (Kept.foldl _ (fun _ _ => kept_putObj _ _ _ (SyncObj.keeps_withdraw _ _)) _ s).trans (Kept.foldl _ (fun _ _ => kept_leaveObj _ _ _) _ _)

/-! ### Collectives and streams that end -/

theorem kept_dropColl (s : State) (k : Coll) : Kept s (dropColl s k) where
  verdict _ := rfl
  collErr := rfl
  error _ h := ⟨h, rfl⟩
  idle hs := by simp [dropColl, hs]

theorem marks_dropInflight (s : State) (d : Die) (c : Sid) (i : Nat) : marks (dropInflight s d c i) = marks s := marks_updStr _ _ _ _

theorem kept_endColl (s : State) (k : Coll) : Kept s (endColl s k) :=
  (kept_dropColl s k).trans ((Kept.of_marks (marks_dropInflight _ _ _ _)).trans (kept_setObjError _ _ _ _))

theorem kept_completeDesc (s : State) (d : Die) (c : Sid) (e : InFlight) : Kept s (completeDesc s d c e) :=
  (Kept.of_marks (marks_dropInflight s d c e.id)).trans (.ite _ (.refl _) (kept_signals _ _))

theorem marks_collInfo (s : State) (k : Coll) (round cause : Nat) (peer : Half) (port : Nat) :
    marks (collInfo s k round cause peer port) = marks s := marks_of_frame (collInfo_frame (by decide) s k round cause peer port)

theorem marks_withdrawReady (s : State) (d : Die) (c : Sid) : marks (withdrawReady s d c) = marks s :=
  marks_ite _ ((marks_of_frame (State.erase_gang _ _ (by decide))).trans (marks_updArr _ _ _)) (marks_updArr _ _ _)

theorem kept_resetColls (s : State) (d : Die) (c : Sid) : Kept s (resetColls s d c) :=
  .ite _ (.refl s) (Kept.foldl _ (fun s k => (Kept.of_marks (marks_collInfo s k _ _ _ _)).trans (kept_endColl _ k)) _ s)

theorem kept_resetNow (s : State) (d : Die) (c : Sid) : Kept s (resetNow s d c) :=
  (kept_withdrawWait s d c).trans <| (Kept.of_marks <| (marks_updStr _ _ _ _).trans <| (marks_updCtx _ _ _ _).trans <|
    (marks_updArr _ _ _).trans (marks_withdrawReady _ _ _)).trans (kept_resetColls _ _ _)

theorem kept_streamReset (s : State) (d : Die) (c : Sid) : Kept s (streamReset s d c) :=
  .ite _ (.of_marks (marks_updArr _ _ _)) (kept_resetNow _ _ _)

theorem kept_enterPoison (s : State) (d : Die) (c : Sid) : Kept s (enterPoison s d c) := by
  rw [enterPoison]
  exact (Kept.ite _ (kept_streamReset s d c) (kept_withdrawWait s d c)).trans (.of_marks (marks_updStr _ d c _))

theorem kept_pass2Fault (s : State) (layer : Half) (cd : Byte) (cause : Nat) : Kept s (pass2Fault s layer cd cause) := by
  unfold pass2Fault
  refine .ite _ (.refl s) ?_
  extract_lets shown recorded upd faulted named
  have hfaulted : marks faulted = marks s :=
    (marks_withUpd recorded _).trans ((marks_rsEvent _ _ _ (by simp only [rUpdStat, rCollErr]; omega)).trans (marks_setReg _ _ _))
  have hnamed : marks named = marks s := by
    simp only [named]
    split
    · exact (marks_setReg64 _ _ _).trans hfaulted
    · exact hfaulted
  refine (Kept.of_marks hnamed).trans ((kept_withdrawAll _ _).trans (kept_forDies _ (fun d s => ?_) _))
  refine .ite _ ?_ (.refl s)
  exact ((kept_withdrawWait s d .u).trans (.of_marks (marks_withdrawReady _ _ _))).trans (.of_marks (marks_updStr _ _ _ _))

/-! ### Verdicts (R50, R51) -/

/-- What poisons an attempt gives it the verdict and keeps the rest. -/
theorem kept_setPoison (s : State) (att : DWord) :
    Kept (updAttempt s att fun a => { a with verdict := some .poison }) (setPoison s att) := by
  unfold setPoison
  extract_lets ruled written ended withdrawn
  have hended : Kept ruled ended := (Kept.of_marks (marks_writeVerdict _ _ _)).trans (Kept.foldl _ kept_endColl _ _)
  refine (hended.trans (kept_withdrawAll _ _)).trans (kept_forStreams _ (fun d c s => ?_) _)
  exact .ite _ (kept_enterPoison s d c) (.refl s)

/-- A clear verdict gives it to the attempt, and what begins with it keeps the rest. -/
theorem kept_clearVerdict (s : State) (att : DWord) :
    Kept (updAttempt s att fun a => { a with verdict := some .clear }) (clearVerdict s att) := by
  unfold clearVerdict
  extract_lets ruled written
  have hwritten : marks written = marks ruled := marks_writeVerdict _ _ _
  split
  next a p _ _ =>
    extract_lets n lr q shown upd begun
    have hbegun : marks begun = marks ruled := (marks_withUpd shown _).trans ((marks_setReg _ _ _).trans hwritten)
    have hjournal := marks_beginJournal p q (replicasOf begun att) (entryFlags p n false) begun
    split
    next bad journaled heq =>
      rw [heq] at hjournal
      have hcommit : marks (tryCommit (countFrozen journaled)) = marks ruled := by
        rw [marks_tryCommit, marks_countFrozen, hjournal, hbegun]
      exact .ite _ ((Kept.of_marks hcommit).trans (kept_pass2Fault _ _ _ _)) (.of_marks hcommit)
  · exact .of_marks hwritten

/-- An update of an attempt, its verdict included, leaves the rest. -/
theorem stands_updAttempt (s : State) (att : DWord) (f : Attempt → Attempt) : Stands s (updAttempt s att f) :=
  ⟨rfl, fun _ h => ⟨h, rfl⟩, id⟩

theorem isSome_attempt_updAttempt {s : State} {att : DWord} {f : Attempt → Attempt} (hf : ∀ a, (f a).att = a.att)
    (h : (attempt s att).isSome = true) : (attempt (updAttempt s att f) att).isSome = true := by
  rw [attempt_updAttempt_self s att f hf, Option.isSome_map, h]

theorem isSome_attempt_addCause {s : State} {att : DWord} (bit : Nat) (layer : Half) (cd : Byte) (h : (attempt s att).isSome = true) :
    (attempt (addCause s att bit layer cd) att).isSome = true := isSome_attempt_updAttempt (fun _ => rfl) h

/-- What gives an attempt its verdict and keeps the rest. -/
theorem ruled_of_kept {s t : State} {att : DWord} {v : Verdict} (ha : (attempt s att).isSome = true)
    (h : Kept (updAttempt s att fun a => { a with verdict := some v }) t) : verdictOf t att = some v ∧ Stands s t :=
  ⟨(h.verdict att).trans (verdictOf_updAttempt_self v ha), (stands_updAttempt s att _).trans h.toStands⟩

theorem setPoison_ruled {s : State} {att : DWord} (ha : (attempt s att).isSome = true) :
    verdictOf (setPoison s att) att = some .poison ∧ Stands s (setPoison s att) := ruled_of_kept ha (kept_setPoison s att)

/-- R50: a guard reduction in whose record no cause stands clears an attempt that has no verdict. -/
theorem guardVerdict_clear {s : State} {att : DWord} {a : Attempt} {rec4 : Nat} (ha : attempt s att = some a) (hv : a.verdict = none)
    (h : rec4 % 128 = 0) : verdictOf (guardVerdict s att rec4) att = some .clear ∧ Stands s (guardVerdict s att rec4) := by
  have hg : guardVerdict s att rec4 = clearVerdict s att := by simp [guardVerdict, ha, hv, h]
  rw [hg]
  exact ruled_of_kept (by simp [ha]) (kept_clearVerdict s att)

/-- R50: one in whose record a cause stands poisons it. -/
theorem guardVerdict_poison {s : State} {att : DWord} {a : Attempt} {rec4 : Nat} (ha : attempt s att = some a) (hv : a.verdict = none)
    (h : rec4 % 128 ≠ 0) : verdictOf (guardVerdict s att rec4) att = some .poison ∧ Stands s (guardVerdict s att rec4) := by
  have hsome : (attempt s att).isSome = true := by simp [ha]
  by_cases hc : a.causes = 0#7
  · have hg : guardVerdict s att rec4 = setPoison (addCause s att gRemote 0xFFFF 0xFF) att := by simp [guardVerdict, ha, hv, h, hc]
    obtain ⟨hpoison, hstands⟩ := setPoison_ruled (isSome_attempt_addCause gRemote 0xFFFF 0xFF hsome)
    rw [hg]
    exact ⟨hpoison, (stands_updAttempt _ _ _).trans hstands⟩
  · have hg : guardVerdict s att rec4 = setPoison s att := by simp [guardVerdict, ha, hv, h, hc]
    rw [hg]
    exact setPoison_ruled hsome

/-- The broadcast of a cause leaves the marks, and the attempt is still there. -/
theorem broadcast_addCause (s : State) (att : DWord) (bit : Nat) (layer : Half) (cd : Byte) (p : Packet)
    (ha : (attempt s att).isSome = true) :
    marks (broadcast (addCause s att bit layer cd) p) = marks s ∧
      (attempt (broadcast (addCause s att bit layer cd) p) att).isSome = true := by
  have hstep : (broadcast (addCause s att bit layer cd) p).step = (addCause s att bit layer cd).step :=
    changesOnly.step (ks := [.out, .regs, .rs, .host, .fab]) (broadcast_frame (by decide) _ p) (by decide)
  refine ⟨(marks_broadcast _ _).trans (marks_addCause _ _ _ _ _), ?_⟩
  rw [attempt, hstep]
  exact isSome_attempt_addCause bit layer cd ha

/-- R49: a cause that takes the fast path poisons an attempt that has no verdict. -/
theorem fastPoison_undecided {s : State} {att : DWord} {a : Attempt} (bit : Nat) (layer : Half) (cd : Byte) (ha : attempt s att = some a)
    (hv : a.verdict = none) : verdictOf (fastPoison s att bit layer cd) att = some .poison ∧ Stands s (fastPoison s att bit layer cd) := by
  simp only [fastPoison, ha, hv]
  generalize poisonPkt _ _ _ _ = p
  obtain ⟨hsent, hsome⟩ := broadcast_addCause s att bit layer cd p (by simp [ha])
  refine And.imp_right (fun hstands => ?_) (setPoison_ruled (isSome_attempt_updAttempt (fun _ => rfl) hsome))
  exact (Kept.of_marks hsent).toStands.trans ((stands_updAttempt _ _ _).trans hstands)

/-- R52: the guard reduction ended in error; the verdict is not known, and a peer's record is asked for. -/
theorem indeterminate_spec {s : State} {att : DWord} (ha : (attempt s att).isSome = true) :
    verdictOf (indeterminate s att) att = some .indeterminate ∧ Stands s (indeterminate s att) ∧
      (rsReg (indeterminate s att) rStepStat).ev.getLsbD 8 = true ∧
      (indeterminate s att).step.pollAt = some ((indeterminate s att).clk + 10000000) := by
  unfold indeterminate
  extract_lets ruled written recorded ms unit
  have hrecorded : marks recorded = marks ruled :=
    (marks_rsEvent _ _ _ (by simp only [rStepStat, rCollErr]; omega)).trans (marks_writeVerdict _ _ _)
  refine and_assoc.mp ⟨ruled_of_kept ha (.of_marks (Eq.trans (b := marks recorded) ?_ hrecorded)), ?_, rfl⟩
  · exact marks_of_attempts rfl rfl rfl rfl rfl
  · exact rsReg_rsEvent_bit written rStepStat 8 (by decide)

end Sys2Proof.Machine
end

section
/-! PROOF. How a collective ends, and the order of a reduction: CollectiveEnds (O30). -/
namespace Sys2Proof.Machine
open Sys2Proof

/-! ### The order of a reduction (R326, R329) -/

/-- The next arrival of a list whose arrivals bear distinct numbers is found and leaves the list. -/
theorem find_next_of_perm {α : Type} {j : Nat} {x : Nat × α} {xs early : List (Nat × α)} (hx : x.1 = j) (hxs : ∀ e ∈ xs, e.1 ≠ j)
    (hp : early.Perm (x :: xs)) :
    (early.find? fun e => decide (e.1 = j)) = some x ∧ (early.filter fun e => decide (e.1 ≠ j)).Perm xs := by
  have honly : ∀ e ∈ early, e.1 = j → e = x := fun e he hj => by
    rcases List.mem_cons.mp (hp.mem_iff.mp he) with rfl | he
    · rfl
    · exact absurd hj (hxs e he)
  constructor
  · cases hf : early.find? fun e => decide (e.1 = j) with
    | none =>
      have hmem : x ∈ early := hp.mem_iff.mpr List.mem_cons_self
      exact absurd hx (by simpa using List.find?_eq_none.mp hf x hmem)
    | some e => rw [honly e (List.mem_of_find?_eq_some hf) (by simpa using List.find?_some hf)]
  · have hrest : (x :: xs).filter (fun e => decide (e.1 ≠ j)) = xs := by
      rw [List.filter_cons_of_neg (by simp [hx]), List.filter_eq_self.mpr fun e he => by simpa using hxs e he]
    rw [← hrest]
    exact hp.filter _

/-- The arrivals of sources `j`, `j + 1`, … are combined in that order, in whatever order they came. -/
theorem takeEarly_of_perm (redop res start : Nat) (ws : List (List Word)) (j : Nat) (v : Option (List Word))
    (early : List (Nat × Nat × List Word)) (h : early.Perm ((ws.zipIdx j).map fun x => (x.2, redop, x.1))) :
    takeEarly res ws.length ⟨start, j, v, early⟩ =
      ⟨start, j + ws.length, ws.foldl (fun o w => some (combineAll redop res o w)) v, []⟩ := by
  induction ws generalizing j v early with
  | nil => rw [List.zipIdx_nil, List.map_nil, List.perm_nil] at h; subst h; rfl
  | cons w ws ih =>
    rw [List.zipIdx_cons, List.map_cons] at h
    have hlater : ∀ e ∈ (ws.zipIdx (j + 1)).map (fun x => (x.2, redop, x.1)), e.1 ≠ j := by
      intro e he
      obtain ⟨x, hx, rfl⟩ := List.mem_map.mp he
      have := (List.mem_zipIdx hx).1
      simp only [ne_eq]; omega
    obtain ⟨hfind, hrest⟩ := find_next_of_perm rfl hlater h
    simp only [List.length_cons, takeEarly, hfind]
    rw [ih (j + 1) _ _ hrest, List.foldl_cons, Nat.add_assoc, Nat.add_comm 1]

/-- Arrivals of later sources wait for the one that is next. -/
theorem takeEarly_of_later (res n start next : Nat) (v : Option (List Word)) (early : List (Nat × Nat × List Word))
    (h : ∀ e ∈ early, e.1 ≠ next) : takeEarly res n ⟨start, next, v, early⟩ = ⟨start, next, v, early⟩ := by
  cases n with
  | zero => rfl
  | succ n =>
    have hfind : (early.find? fun e => decide (e.1 = next)) = none := List.find?_eq_none.mpr fun e he => by simpa using h e he
    simp only [takeEarly, hfind]

theorem combineAll_sum (res : Nat) (a b : List Word) : combineAll 1 res (some a) b = List.zipWith fadd a b := by
  simp [combineAll, combine, List.zip, List.map_zipWith]
theorem combineAll_max (res : Nat) (a b : List Word) : combineAll 2 res (some a) b = List.zipWith fmax a b := by
  simp [combineAll, combine, List.zip, List.map_zipWith]
theorem combineAll_last (res : Nat) (a b : List Word) : combineAll 0 res (some a) b = b := rfl

/-! ### The only collective in progress -/

/-- The collective `k` is the only one in progress. -/
theorem findColl_of_active {s : State} {k : Coll} (h : s.coll.active = [k]) : findColl s k.d k.i = some k := by
  simp [findColl, h]

/-- Every collective in progress is that of die `d` and descriptor `i`. -/
def onlyColl (s : State) (d : Die) (i : Nat) : Prop := ∀ k ∈ s.coll.active, k.d = d ∧ k.i = i

theorem onlyColl_of_active {s : State} {k : Coll} (h : s.coll.active = [k]) : onlyColl s k.d k.i := by
  simp [onlyColl, h]

theorem onlyColl_updColl {s : State} {d e : Die} {i j : Nat} {f : Coll → Coll} (hf : ∀ k, (f k).d = k.d ∧ (f k).i = k.i)
    (h : onlyColl s d i) : onlyColl (updColl s e j f) d i := by
  intro k hk
  obtain ⟨k', hk', rfl⟩ := List.mem_map.mp hk
  split
  · rw [(hf k').1, (hf k').2]; exact h k' hk'
  · exact h k' hk'

theorem onlyColl_congr {s t : State} {d : Die} {i : Nat} (he : t.coll.active = s.coll.active) (h : onlyColl s d i) : onlyColl t d i := by
  rw [onlyColl, he]; exact h

theorem onlyColl_retimeColl {s : State} {d : Die} {i : Nat} (k : Coll) (h : onlyColl s d i) : onlyColl (retimeColl k s) d i := by
  rw [retimeColl]
  refine onlyColl_updColl (fun _ => ⟨rfl, rfl⟩) (onlyColl_congr ?_ h)
  have hevent : ∀ t, (rsEvent t rCollErr 4).coll = t.coll := fun t =>
    changesOnly.coll (ks := [.out, .rs, .host]) (rsEvent_frame (by decide) t _ _) (by decide)
  split
  · rw [hevent]; split <;> rfl
  · split <;> rfl

theorem onlyColl_retime {s : State} {d : Die} {i : Nat} (h : onlyColl s d i) : onlyColl (retime s) d i := by
  rw [retime]
  generalize s.coll.active = ks
  induction ks generalizing s with
  | nil => exact h
  | cons k ks ih => exact ih (onlyColl_retimeColl k h)

/-- The engine is idle when that collective leaves it. -/
theorem filter_active_of_onlyColl {s : State} {d : Die} {i : Nat} (h : onlyColl s d i) :
    (s.coll.active.filter fun x => !(decide (x.d = d) && decide (x.i = i))) = [] :=
  List.filter_eq_nil_iff.mpr fun k hk => by simp [h k hk]

theorem retime_changesOnly (s : State) : changesOnly [.out, .rs, .host, .coll] s (retime s) := retime_frame (by decide) s

/-! ### COLLECTIVE_DONE (R191) -/

/-- The collective of die `d` and descriptor `i` has left the engine, and is counted. -/
def collLeft (d : Die) (i : Nat) (s : State) : State :=
  addReg64 { retime s with coll := { (retime s).coll with
    active := (retime s).coll.active.filter fun x => !(decide (x.d = d) && decide (x.i = i)) } } rCollDone 1

theorem collLeft_changesOnly (d : Die) (i : Nat) (s : State) : changesOnly [.regs, .rs, .host, .out, .coll] s (collLeft d i s) := by
  simp [changesOnly, collLeft]

theorem collLeft_active {d : Die} {i : Nat} {s : State} (h : onlyColl s d i) : (collLeft d i s).coll.active = [] :=
  filter_active_of_onlyColl (onlyColl_retime h)

theorem reg64_setReg64_self (s : State) (off : Nat) (v : DWord) : reg64 (setReg64 s off v) off = v := by
  rw [reg64, reg_setReg64_low, reg_setReg64_high _ _ _ _ rfl]
  ext i hi
  rw [BitVec.getElem_append]
  split
  · rw [BitVec.getElem_setWidth, BitVec.getLsbD_eq_getElem]
  · rw [BitVec.getElem_setWidth, BitVec.getLsbD_ushiftRight, show 32 + (i - 32) = i by omega, BitVec.getLsbD_eq_getElem]

theorem reg64_collLeft (d : Die) (i : Nat) (s : State) : reg64 (collLeft d i s) rCollDone = reg64 s rCollDone + 1 := by
  have hregs : (retime s).regs = s.regs := (retime_changesOnly s).regs (by decide)
  rw [collLeft, addReg64, reg64_setReg64_self]
  simp only [reg64, reg, hregs]
  rfl

/-- COLLECTIVE_DONE of a collective that has completed, outside pass 2: what follows from its result, and then its DONE signal. -/
theorem exec_collectiveDone {s u : State} {k : Coll} (hactive : s.coll.active = [k]) (hfin : k.rounds.all (·.fin) = true)
    (himg : s.img.st ≠ .shadow) (hp2 : s.upd.p2 = none) (hr : collResult (collLeft k.d k.i s) k = (false, u)) :
    exec (.collectiveDone k.d k.i) s = .next
      ((findInflight (str u k.d .t) .collective k.i).elim u fun e => completeDesc u k.d .t e) := by
  have hexec : exec (.collectiveDone k.d k.i) s = .next (doCollectiveDone k.d k.i s) := rfl
  have hq : (collLeft k.d k.i s).upd.p2 = none := by rw [(collLeft_changesOnly k.d k.i s).upd (by decide), hp2]
  rw [hexec, doCollectiveDone, findColl_of_active hactive]
  simp only [hfin, Bool.not_true, Bool.false_eq_true, if_false, himg]
  rw [show addReg64 _ rCollDone 1 = collLeft k.d k.i s from rfl]
  simp only [hr, hq, Bool.false_eq_true, if_false]
  cases findInflight (str u k.d .t) .collective k.i <;> rfl

theorem isNorm_congr {s t : State} (h : t.img = s.img) (w : BitVec 512) : isNorm t w = isNorm s w := by rw [isNorm, isNorm, params, params, h]
theorem isStash_congr {s t : State} (h : t.img = s.img) (w : BitVec 512) : isStash t w = isStash s w := by
  rw [isStash, isStash, params, params, h]
theorem str_congr {s t : State} (h : t.dies = s.dies) : str t = str s := by
  funext d c
  rw [str, str, die, die, h]

theorem str_updStr_ne (s : State) (d e : Die) (c k : Sid) (f : Stream → Stream) (h : e ≠ d ∨ k ≠ c) :
    str (updStr s d c f) e k = str s e k := by
  by_cases hd : e = d
  · subst hd
    simp only [str, updStr, die_updDie_self, PerStream.get_put_ne _ _ _ _ (h.resolve_left (absurd rfl))]
  · simp only [str, updStr, die_updDie_ne _ _ _ _ hd]

/-- The result of a collective that is neither the guard's nor the update's has no consequence. -/
theorem collResult_plain {s : State} {k : Coll} (hguard : cGuard k.desc = false) (hnorm : isNorm s k.desc = false)
    (hstash : isStash s k.desc = false) (hp2 : s.upd.p2 = none) (hpend : s.upd.pend = []) : collResult s k = (false, s) := by
  have hns : (s.upd.ns.find? fun n => isNsSum s k.att k.desc && decide (n.src = some (cSrc k.desc))) = none := by simp [isNsSum, hp2]
  have hgather : isGather s k.att k.desc k.rounds = none := by simp [isGather, hp2]
  have hpending : pendOf s k = none := by simp [pendOf, findPend, hpend]
  simp [collResult, hguard, hnorm, hstash, hns, hgather, hpending]

/-- R191: a collective that has completed leaves the engine, is counted, and makes its DONE signal. -/
theorem collectiveDone_signals {s : State} {k : Coll} {e : InFlight} (hactive : s.coll.active = [k])
    (hfin : k.rounds.all (·.fin) = true) (hguard : cGuard k.desc = false) (hnorm : isNorm s k.desc = false)
    (hstash : isStash s k.desc = false) (hp2 : s.upd.p2 = none) (hpend : s.upd.pend = []) (himg : s.img.st ≠ .shadow)
    (hentry : findInflight (str s k.d .t) .collective k.i = some e) (hloud : e.silent = false) :
    ∃ u, exec (.collectiveDone k.d k.i) s = .next (signals u (doneSig k.d .t (str s k.d .t) e.desc)) ∧ u.coll.active = [] ∧
      reg64 u rCollDone = reg64 s rCollDone + 1 ∧
      str u k.d .t = { str s k.d .t with inflight := (str s k.d .t).inflight.filter fun x => decide (x.id ≠ k.i) } ∧
      otherStreams k.d .t s u ∧ changesOnly [.dies, .regs, .rs, .host, .out, .coll] s u := by
  have hframe := collLeft_changesOnly k.d k.i s
  have himg' : (collLeft k.d k.i s).img = s.img := hframe.img (by decide)
  have hupd : (collLeft k.d k.i s).upd = s.upd := hframe.upd (by decide)
  have hstr : str (collLeft k.d k.i s) = str s := str_congr (hframe.dies (by decide))
  have hresult : collResult (collLeft k.d k.i s) k = (false, collLeft k.d k.i s) :=
    collResult_plain hguard (by rw [isNorm_congr himg', hnorm]) (by rw [isStash_congr himg', hstash]) (by rw [hupd, hp2]) (by rw [hupd, hpend])
  have hid : e.id = k.i := by
    have := List.find?_some hentry
    simp only [Bool.and_eq_true, decide_eq_true_eq] at this
    exact this.1
  have hdropped : str (dropInflight (collLeft k.d k.i s) k.d .t k.i) k.d .t =
      { str s k.d .t with inflight := (str s k.d .t).inflight.filter fun x => decide (x.id ≠ k.i) } := by
    rw [dropInflight, str_updStr_self, hstr]
  refine ⟨dropInflight (collLeft k.d k.i s) k.d .t k.i, ?_, collLeft_active (onlyColl_of_active hactive), reg64_collLeft k.d k.i s, hdropped,
    fun d c hdc => ?_, ?_⟩
  · rw [exec_collectiveDone hactive hfin himg hp2 hresult, hstr, hentry, Option.elim_some, completeDesc, hid]
    simp only [hloud, Bool.false_eq_true, if_false, hdropped]
    rfl
  · rw [dropInflight, str_updStr_ne _ _ _ _ _ _ hdc, hstr]
  · simp [changesOnly, collLeft]

/-- Whatever entry stands in the stream, the end of a collective keeps what its result has settled. -/
theorem exec_collectiveDone_kept {s u : State} {k : Coll} (hactive : s.coll.active = [k]) (hfin : k.rounds.all (·.fin) = true)
    (himg : s.img.st ≠ .shadow) (hp2 : s.upd.p2 = none) (hr : collResult (collLeft k.d k.i s) k = (false, u)) :
    ∃ t, exec (.collectiveDone k.d k.i) s = .next t ∧ Kept u t := by
  refine ⟨_, exec_collectiveDone hactive hfin himg hp2 hr, ?_⟩
  cases findInflight (str u k.d .t) .collective k.i with
  | none => exact .refl u
  | some e => exact kept_completeDesc u k.d .t e

/-- R50: the guard reduction has completed. -/
theorem collectiveDone_guard {s : State} {k : Coll} {a : Attempt} (hactive : s.coll.active = [k]) (hfin : k.rounds.all (·.fin) = true)
    (hguard : cGuard k.desc = true) (ha : attempt s k.att = some a) (hv : a.verdict = none) (hp2 : s.upd.p2 = none)
    (himg : s.img.st ≠ .shadow) :
    ∃ t, exec (.collectiveDone k.d k.i) s = .next t ∧ t.coll.active = [] ∧
      (leAt k.record 0 4 % 128 = 0 → verdictOf t k.att = some .clear) ∧ (leAt k.record 0 4 % 128 ≠ 0 → verdictOf t k.att = some .poison) := by
  have ha' : attempt (collLeft k.d k.i s) k.att = some a := by
    rw [attempt, (collLeft_changesOnly k.d k.i s).step (by decide)]; exact ha
  have hidle : (collLeft k.d k.i s).coll.active = [] := collLeft_active (onlyColl_of_active hactive)
  have hresult : collResult (collLeft k.d k.i s) k = (false, guardVerdict (collLeft k.d k.i s) k.att (leAt k.record 0 4)) := if_pos hguard
  obtain ⟨t, ht, hkept⟩ := exec_collectiveDone_kept hactive hfin himg hp2 hresult
  refine ⟨t, ht, ?_⟩
  rw [hkept.verdict]
  by_cases h : leAt k.record 0 4 % 128 = 0
  · obtain ⟨hclear, hstands⟩ := guardVerdict_clear ha' hv h
    exact ⟨hkept.idle (hstands.idle hidle), fun _ => hclear, fun hne => absurd h hne⟩
  · obtain ⟨hpoison, hstands⟩ := guardVerdict_poison ha' hv h
    exact ⟨hkept.idle (hstands.idle hidle), fun h0 => absurd h0 h, fun _ => hpoison⟩

/-! ### The agreement on a stash (R59) -/

theorem foldl_eq_self {α β : Type} {f : β → α → β} {b : β} {l : List α} (h : ∀ x ∈ l, f b x = b) : l.foldl f b = b := by
  induction l with
  | nil => rfl
  | cons x l ih => rw [List.foldl_cons, h x List.mem_cons_self, ih fun y hy => h y (List.mem_cons_of_mem x hy)]

/-- A read of a clean range without poison gives its bytes and changes nothing. -/
theorem memRead_clean {s : State} {a len : Nat} (hclean : cleanRange s.mem a len) (hpoison : unpoisoned s.mem a len) :
    memRead s a len = some (⟨memBytes s.mem a len, false⟩, s) := by
  obtain ⟨hmapped, hparity, hgrans⟩ := hclean
  have hhold : (gransOf s.mem a len).foldl (fun s g => holdForRepair s g.1) s = s := foldl_eq_self fun g hg => by
    obtain ⟨-, hrep, -, -⟩ := hgrans g hg
    simp only [holdForRepair, hrep, List.find?_nil]
  have hca : caParity s (gransOf s.mem a len) = s := if_pos hparity
  have htouch : (gransOf s.mem a len).foldl (fun s g => touchGran s g.1 g.2) s = s := foldl_eq_self fun g hg => by
    obtain ⟨hem, -, hue, hce⟩ := hgrans g hg
    simp only [touchGran, hem, hue, hce, Bool.false_eq_true, if_false]
  have hbad : ((gransOf s.mem a len).any fun g => granBad s.mem g.1) = false := List.any_eq_false.mpr fun g hg => by
    obtain ⟨hem, -, hue, -⟩ := hgrans g hg
    simp only [granBad, hem, hue, hpoison g hg, Bool.or_false, Bool.false_eq_true, not_false_eq_true]
  simp only [memRead, hmapped, if_true, hhold, hca, hbad, htouch]

theorem readWs_clean {s : State} {a : Nat} (hclean : cleanRange s.mem a 4) (hpoison : unpoisoned s.mem a 4) :
    readWs s a 1 = (some [w32 (peekNat s a 4)], s) := by
  rw [readWs, updRead, memRead_clean hclean hpoison]
  rfl

/-- A result of zero settles nothing; any other switches the layer and the later ones to checkpoint mode. -/
theorem stashAgreed_clean {s : State} {k : Coll} (hopen : stashSettled s k.att (dLayer k.desc).toNat = false)
    (hclean : cleanRange s.mem (cDst k.desc) 4) (hpoison : unpoisoned s.mem (cDst k.desc) 4) :
    stashAgreed s k = if peekNat s (cDst k.desc) 4 % 2 ^ 31 = 0 then s else stashFallback s k.att (dLayer k.desc).toNat := by
  have hw : (w32 (peekNat s (cDst k.desc) 4)).toNat % 2 ^ 31 = peekNat s (cDst k.desc) 4 % 2 ^ 31 := by
    rw [w32, BitVec.toNat_ofNat]; omega
  simp only [stashAgreed, hopen, Bool.false_eq_true, if_false, readWs_clean hclean hpoison, hw]

theorem stashFallback_spec {s : State} {att : DWord} {layer : Nat} {sec : JobSections} (hsec : s.img.sec = some sec) :
    (rsReg (stashFallback s att layer) rStepStat).ev.getLsbD 2 = true ∧
      ∀ a, attempt (stashFallback s att layer) att = some a → a.stashFallback = true ∧
        ∀ l ∈ sec.stash, layer ≤ l.layer → l.layer ∈ a.recompute := by
  simp only [stashFallback, hsec]
  refine ⟨rsReg_rsEvent_bit _ _ _ (by decide), fun a ha => ?_⟩
  rw [attempt, changesOnly.step (ks := [.out, .rs, .host]) (rsEvent_frame (by decide) _ _ _) (by decide), setFld, setReg_step, ← attempt,
    attempt_updAttempt_self _ _ _ (by exact fun _ => rfl)] at ha
  obtain ⟨b, -, rfl⟩ := Option.map_eq_some_iff.mp ha
  refine ⟨rfl, fun l hl hle => ?_⟩
  by_cases hb : l.layer ∈ b.recompute
  · exact List.mem_append_left _ hb
  · refine List.mem_append_right _ (List.mem_filter.mpr ⟨List.mem_map.mpr ⟨l, ?_, rfl⟩, by simpa using hb⟩)
    exact List.mem_filter.mpr ⟨hl, by simpa using hle⟩

/-- R59: the agreement on a stash has completed. -/
theorem collectiveDone_stash {s : State} {k : Coll} {sec : JobSections} (hactive : s.coll.active = [k])
    (hfin : k.rounds.all (·.fin) = true) (hguard : cGuard k.desc = false) (hnorm : isNorm s k.desc = false)
    (hstash : isStash s k.desc = true) (hsec : s.img.sec = some sec) (ha : (attempt s k.att).isSome = true)
    (hentry : findInflight (str s k.d .t) .collective k.i = none) (hopen : stashSettled s k.att (dLayer k.desc).toNat = false)
    (hp2 : s.upd.p2 = none) (himg : s.img.st ≠ .shadow) (hclean : cleanRange s.mem (cDst k.desc) 4)
    (hpoison : unpoisoned s.mem (cDst k.desc) 4) :
    ∃ t, exec (.collectiveDone k.d k.i) s = .next t ∧ t.coll.active = [] ∧
      (peekNat s (cDst k.desc) 4 % 2 ^ 31 = 0 → t.step = s.step) ∧
      (peekNat s (cDst k.desc) 4 % 2 ^ 31 ≠ 0 → (rsReg t rStepStat).ev.getLsbD 2 = true ∧
        ∀ a, attempt t k.att = some a → a.stashFallback = true ∧
          ∀ l ∈ sec.stash, (dLayer k.desc).toNat ≤ l.layer → l.layer ∈ a.recompute) := by
  have hframe := collLeft_changesOnly k.d k.i s
  have himg' : (collLeft k.d k.i s).img = s.img := hframe.img (by decide)
  have hstep : (collLeft k.d k.i s).step = s.step := hframe.step (by decide)
  have hmem : (collLeft k.d k.i s).mem = s.mem := hframe.mem (by decide)
  have hidle : (collLeft k.d k.i s).coll.active = [] := collLeft_active (onlyColl_of_active hactive)
  have hagreed : stashAgreed (collLeft k.d k.i s) k = if peekNat s (cDst k.desc) 4 % 2 ^ 31 = 0 then collLeft k.d k.i s
      else stashFallback (collLeft k.d k.i s) k.att (dLayer k.desc).toNat := by
    rw [stashAgreed_clean (by rw [stashSettled, hstep]; exact hopen) (by rw [hmem]; exact hclean) (by rw [hmem]; exact hpoison),
      peekNat, hmem, ← peekNat]
  have hresult : collResult (collLeft k.d k.i s) k = (false, stashAgreed (collLeft k.d k.i s) k) := by
    have ha' : (attempt (collLeft k.d k.i s) k.att).isSome = true := by rw [attempt, hstep]; exact ha
    simp [collResult, hguard, isNorm_congr himg', hnorm, isStash_congr himg', hstash, ha']
  have hdies : (stashAgreed (collLeft k.d k.i s) k).dies = s.dies := by
    rw [hagreed, ← hframe.dies (by decide)]
    split
    · rfl
    · exact changesOnly.dies (ks := [.out, .regs, .rs, .host, .step]) (stashFallback_frame (by decide) _ _ _) (by decide)
  refine ⟨stashAgreed (collLeft k.d k.i s) k, ?_, ?_⟩
  · rw [exec_collectiveDone hactive hfin himg hp2 hresult, str_congr hdies, hentry, Option.elim_none]
  · rw [hagreed]
    split
    next h0 => exact ⟨hidle, fun _ => hstep, fun hne => absurd h0 hne⟩
    next hne =>
      have hcoll := changesOnly.coll (ks := [.out, .regs, .rs, .host, .step])
        (stashFallback_frame (by decide) (collLeft k.d k.i s) k.att (dLayer k.desc).toNat) (by decide)
      exact ⟨by rw [hcoll, hidle], fun h0 => absurd h0 hne, fun _ => stashFallback_spec (himg' ▸ hsec)⟩

/-! ### COLL_TIMEOUT (R360, R363) -/

/-- A timer that does not run, or whose collective has completed, does not expire. -/
theorem exec_collTimeout_idle {s : State} {d : Die} {i : Nat} {k : Coll} (hk : findColl s d i = some k)
    (h : k.timed = false ∨ k.rounds.all (·.fin) = true) : exec (.collTimeout d i) s = .next s := by
  have hexec : exec (.collTimeout d i) s = .next (doCollTimeout d i s) := rfl
  have hcond : (!k.timed || k.rounds.all (·.fin)) = true := by rcases h with h | h <;> simp [h]
  simp only [hexec, doCollTimeout, hk, hcond, if_true]

/-- The time at which the timer of a collective expires has come, and every timer is brought up to date. -/
def collExpired (k : Coll) (s : State) : State := retime (advanceTo (k.since + (if k.slow then k.left4 else (k.left4 + 3) / 4)) s)

theorem exec_collTimeout {s : State} {k : Coll} (hactive : s.coll.active = [k]) (htimed : k.timed = true)
    (hopen : k.rounds.all (·.fin) = false) :
    ∃ r peer port, exec (.collTimeout k.d k.i) s = .next (failColl (collExpired k s) k r ccTimeout peer port) := by
  have hexec : exec (.collTimeout k.d k.i) s = .next (doCollTimeout k.d k.i s) := rfl
  refine ⟨(firstOpen (collExpired k s) k).1, (firstOpen (collExpired k s) k).2.1, (firstOpen (collExpired k s) k).2.2, ?_⟩
  rw [hexec, doCollTimeout, findColl_of_active hactive]
  simp only [htimed, hopen, Bool.not_true, Bool.or_false, Bool.false_eq_true, if_false]
  rfl

/-! ### Time that passes -/

theorem marks_countHold (n : Nat) (d : Die) (s : State) : marks (countHold n d s) = marks s := by
  unfold countHold
  extract_lets a
  split
  · exact (marks_addReg64 _ _ _).trans ((marks_addReg64 _ _ _).trans (marks_updArr _ _ _))
  · rfl

theorem marks_advance (n : Nat) (s : State) : marks (advance n s) = marks s := by
  unfold advance
  extract_lets waited armed held throttled
  have hwaited : marks waited = marks s := marks_of_frame (forStreams_frame _ _ fun d c s => countWait_frame (by decide) n d c s)
  have harmed : marks armed = marks s := marks_ite _ ((marks_addReg64 _ _ _).trans hwaited) hwaited
  have hthrottle : ∀ s, marks (forDies (countThrottle n) s) = marks s := fun s =>
    marks_of_frame (forDies_frame _ s fun d s => countThrottle_frame (by decide) n d s)
  have hheld : marks held = marks s := (marks_foldl _ _ _ fun s d => marks_countHold n d s).trans ((hthrottle armed).trans harmed)
  have hthrottled : marks throttled = marks s := marks_ite _ hheld ((marks_addReg64 _ _ _).trans hheld)
  exact ((marks_of_frame (slewed_frame (by decide) n _)).trans (marks_of_frame (State.erase_clk throttled _ (by decide)))).trans hthrottled

theorem clk_advance (n : Nat) (s : State) : (advance n s).clk = s.clk + n := by
  unfold advance
  extract_lets waited armed held throttled
  have hframe : changesOnly [.regs, .dies] s throttled := by simp [changesOnly, throttled, held, armed, waited]
  have hslewed : ∀ t : State, (slewed n t).clk = t.clk := fun _ => rfl
  rw [hslewed, hframe.clk (by decide)]

theorem clk_advanceTo (n : Nat) (s : State) : (advanceTo n s).clk = max s.clk n := by
  unfold advanceTo
  split
  · rw [clk_advance]; omega
  · omega

theorem marks_advanceTo (n : Nat) (s : State) : marks (advanceTo n s) = marks s := marks_ite _ (marks_advance _ _) rfl

/-- The expiry leaves the step unit, the image and the objects as they are; only the engine's one collective is in progress, and the
clock stands at the expiry at least. -/
theorem collExpired_spec {s : State} {k : Coll} (hactive : s.coll.active = [k]) :
    (collExpired k s).step = s.step ∧ (collExpired k s).img = s.img ∧ getObj (collExpired k s) = getObj s ∧
      onlyColl (collExpired k s) k.d k.i ∧
      (collExpired k s).clk = max s.clk (k.since + (if k.slow then k.left4 else (k.left4 + 3) / 4)) := by
  rw [collExpired]
  generalize k.since + (if k.slow then k.left4 else (k.left4 + 3) / 4) = n
  have hframe : changesOnly [.clk, .tb, .regs, .dies, .tbs, .out, .rs, .host, .coll] s (retime (advanceTo n s)) := by simp [changesOnly]
  have hretime := retime_changesOnly (advanceTo n s)
  have hobj : getObj (retime (advanceTo n s)) = getObj s := funext fun r => by
    rw [getObj_congr (hretime.sync (by decide)) (hretime.dies (by decide)), getObj_eq_of_marks (marks_advanceTo n s)]
  refine ⟨hframe.step (by decide), hframe.img (by decide), hobj, onlyColl_retime (onlyColl_congr ?_ (onlyColl_of_active hactive)), ?_⟩
  · exact active_eq_of_marks (marks_advanceTo n s)
  · rw [hretime.clk (by decide), clk_advanceTo]

/-! ### A collective that ends in error (R191) -/

/-- SET_ERROR on an object that is OK and that nobody waits on: the object takes the error, and the step unit sees nothing of it. -/
theorem setObjError_unserved {s : State} {r : ObjRef} (c : BitVec 4) (src : Src) (herr : (getObj s r).err = false)
    (hw : (getObj s r).waiters = []) :
    (getObj (setObjError s r c src) r).err = true ∧ (getObj (setObjError s r c src) r).cause = c ∧
      (setObjError s r c src).step = s.step := by
  have hset : (getObj s r).setError c = ⟨{ getObj s r with err := true, cause := c, waiters := [] }, [], true⟩ := by
    simp [SyncObj.setError, herr, hw]
  have hresult : setObjError s r c src = logObjError (putObj s r { getObj s r with err := true, cause := c, waiters := [] }) r c src := by
    rw [setObjError, hset]
    rfl
  have hframe : changesOnly [.sync, .dies, .out, .regs, .rs, .host] s (setObjError s r c src) := by rw [hresult]; simp [changesOnly]
  have hobj : getObj (setObjError s r c src) r = { getObj s r with err := true, cause := c, waiters := [] } := by
    rw [hresult, getObj_eq_of_marks (marks_logObjError _ _ _ _), getObj_putObj_self]
  exact ⟨by rw [hobj], by rw [hobj], hframe.step (by decide)⟩

/-- The collective has been recorded as failed, and has ended. -/
def collFailed (k : Coll) (r cause : Nat) (peer : Half) (port : Nat) (s : State) : State :=
  endColl (rsEvent (collInfo s k r cause peer port) rCollErr (cause - 1)) k

/-- The engine is idle, the error is recorded, and the completion object has taken it; the step unit is as before. -/
theorem collFailed_spec {s : State} {k : Coll} (r : Nat) (peer : Half) (port : Nat) (honly : onlyColl s k.d k.i)
    (herr : (getObj s (refObj k.d (dDoneRef k.desc))).err = false) (hw : (getObj s (refObj k.d (dDoneRef k.desc))).waiters = []) :
    (collFailed k r ccTimeout peer port s).coll.active = [] ∧
      (rsReg (collFailed k r ccTimeout peer port s) rCollErr).ev.getLsbD 0 = true ∧
      (getObj (collFailed k r ccTimeout peer port s) (refObj k.d (dDoneRef k.desc))).err = true ∧
      (getObj (collFailed k r ccTimeout peer port s) (refObj k.d (dDoneRef k.desc))).cause = causeCollective ∧
      (collFailed k r ccTimeout peer port s).step = s.step := by
  unfold collFailed endColl
  generalize hrec : rsEvent (collInfo s k r ccTimeout peer port) rCollErr (ccTimeout - 1) = recorded
  extract_lets dropped
  have hframe : changesOnly [.regs, .out, .rs, .host] s recorded := by subst hrec; simp [changesOnly]
  have hbit : (rsReg recorded rCollErr).ev.getLsbD 0 = true := by subst hrec; exact rsReg_rsEvent_bit _ _ _ (by decide)
  have hdropped : marks dropped = marks (dropColl recorded k) := marks_dropInflight _ _ _ _
  have hobj : getObj dropped = getObj s := funext fun x =>
    (getObj_eq_of_marks hdropped x).trans (congrFun (getObj_congr (hframe.sync (by decide)) (hframe.dies (by decide))) x)
  have hidle : dropped.coll.active = [] := by
    rw [active_eq_of_marks hdropped]
    exact filter_active_of_onlyColl (onlyColl_congr (congrArg CollState.active (hframe.coll (by decide))) honly)
  have hkept := kept_setObjError dropped (refObj k.d (dDoneRef k.desc)) causeCollective ⟨24, 0, false⟩
  obtain ⟨herr', hcause, hstep⟩ := setObjError_unserved (s := dropped) (r := refObj k.d (dDoneRef k.desc)) causeCollective ⟨24, 0, false⟩
    (by rw [hobj]; exact herr) (by rw [hobj]; exact hw)
  refine ⟨hkept.idle hidle, ?_, herr', hcause, hstep.trans (hframe.step (by decide))⟩
  rw [hkept.collErr, rsReg_collErr_eq_of_marks hdropped]
  exact hbit

/-- A collective that fails for an attempt without a verdict, outside a shadow image: the guard reduction leaves the verdict
indeterminate, any other poisons the step. -/
theorem failColl_undecided {s : State} {k : Coll} (r : Nat) (peer : Half) (port : Nat) (himg : s.img.st ≠ .shadow)
    (hv : verdictOf (collFailed k r ccTimeout peer port s) k.att = none)
    (ha : (attempt (collFailed k r ccTimeout peer port s) k.att).isSome = true) :
    failColl s k r ccTimeout peer port =
      if cGuard k.desc then
        indeterminate (addCause (collFailed k r ccTimeout peer port s) k.att gColl (dLayer k.desc) (BitVec.ofNat 8 k.d.val)) k.att
      else fastPoison (collFailed k r ccTimeout peer port s) k.att gColl (dLayer k.desc) (BitVec.ofNat 8 k.d.val) := by
  have himg' : (rsEvent (collInfo s k r ccTimeout peer port) rCollErr (ccTimeout - 1)).img.st ≠ .shadow := by
    rw [changesOnly.img (ks := [.regs, .out, .rs, .host]) (s := s) (by simp [changesOnly]) (by decide)]
    exact himg
  unfold failColl
  simp only [himg', if_false]
  rw [show endColl _ k = collFailed k r ccTimeout peer port s from rfl]
  simp only [hv, ha, reduceCtorEq, if_false, true_and, if_true]

/-- What stands when a timer of an attempt without a verdict has expired and its collective has ended: the engine, the register, the
object and the clock. -/
def timedOut (k : Coll) (s t : State) : Prop :=
  t.coll.active = [] ∧ (rsReg t rCollErr).ev.getLsbD 0 = true ∧ (getObj t (refObj k.d (dDoneRef k.desc))).err = true ∧
    (getObj t (refObj k.d (dDoneRef k.desc))).cause = 3 ∧ t.clk = max s.clk (k.since + (if k.slow then k.left4 else (k.left4 + 3) / 4))

/-- R363: the timer of a collective expires in an attempt without a verdict. -/
theorem collTimeout_spec {s : State} {k : Coll} {a : Attempt} (hactive : s.coll.active = [k]) (htimed : k.timed = true)
    (hopen : k.rounds.all (·.fin) = false) (himg : s.img.st ≠ .shadow) (ha : attempt s k.att = some a) (hv : a.verdict = none)
    (herr : (getObj s (refObj k.d (dDoneRef k.desc))).err = false) (hw : (getObj s (refObj k.d (dDoneRef k.desc))).waiters = []) :
    ∃ t, exec (.collTimeout k.d k.i) s = .next t ∧ timedOut k s t ∧
      (cGuard k.desc = false → verdictOf t k.att = some .poison) ∧
      (cGuard k.desc = true → verdictOf t k.att = some .indeterminate ∧ (rsReg t rStepStat).ev.getLsbD 8 = true ∧
        t.step.pollAt = some (t.clk + 10000000)) := by
  obtain ⟨r, peer, port, hexec⟩ := exec_collTimeout hactive htimed hopen
  obtain ⟨hstep, himg', hobj, honly, hclk⟩ := collExpired_spec hactive
  obtain ⟨hidle, hbit, herr', hcause, hstep'⟩ := collFailed_spec r peer port honly (by rw [hobj]; exact herr) (by rw [hobj]; exact hw)
  have ha' : attempt (collFailed k r ccTimeout peer port (collExpired k s)) k.att = some a := by rw [attempt, hstep', hstep]; exact ha
  have hv' : verdictOf (collFailed k r ccTimeout peer port (collExpired k s)) k.att = none := by rw [verdictOf, ha']; exact hv
  have hfail := failColl_undecided r peer port (by rw [himg']; exact himg) hv' (by rw [ha']; rfl)
  have hclk' : (failColl (collExpired k s) k r ccTimeout peer port).clk = (collExpired k s).clk :=
    changesOnly.clk (ks := [.out, .regs, .rs, .host, .sync, .dies, .gang, .step, .img, .upd, .mem, .fab, .coll, .flash])
      (failColl_frame (by decide) _ _ _ _ _ _) (by decide)
  have hstands : ∀ t, Stands (collFailed k r ccTimeout peer port (collExpired k s)) t → t.clk = (collExpired k s).clk → timedOut k s t :=
    fun t ht htc => by
      obtain ⟨herr'', hcause'⟩ := ht.error _ herr'
      exact ⟨ht.idle hidle, by rw [ht.collErr]; exact hbit, herr'', hcause'.trans hcause, htc.trans hclk⟩
  refine ⟨_, hexec, ?_⟩
  rw [hfail] at hclk' ⊢
  cases hguard : cGuard k.desc with
  | false =>
    rw [hguard] at hclk'
    obtain ⟨hpoison, ht⟩ := fastPoison_undecided gColl (dLayer k.desc) (BitVec.ofNat 8 k.d.val) ha' hv
    exact ⟨hstands _ ht hclk', fun _ => hpoison, nofun⟩
  | true =>
    rw [hguard] at hclk'
    obtain ⟨hind, ht, hstat, hpoll⟩ := indeterminate_spec (isSome_attempt_addCause gColl (dLayer k.desc) (BitVec.ofNat 8 k.d.val)
      (show (attempt (collFailed k r ccTimeout peer port (collExpired k s)) k.att).isSome = true by rw [ha']; rfl))
    exact ⟨hstands _ ((stands_updAttempt _ _ _).trans ht) hclk', nofun, fun _ => ⟨hind, hstat, hpoll⟩⟩

/-! ### GRANT_SEND (R353) -/

theorem findColl_updColl {s : State} {d : Die} {i : Nat} {k : Coll} {f : Coll → Coll} (hf : ∀ k, (f k).d = k.d ∧ (f k).i = k.i)
    (h : findColl s d i = some k) : findColl (updColl s d i f) d i = some (f k) := by
  have hk : k.d = d ∧ k.i = i := by simpa using List.find?_some h
  have hp : ∀ x : Coll, (decide ((if x.d = d ∧ x.i = i then f x else x).d = d) && decide ((if x.d = d ∧ x.i = i then f x else x).i = i)) =
      (decide (x.d = d) && decide (x.i = i)) := fun x => by split <;> simp [hf]
  rw [findColl, updColl, find?_map_of_iff hp, ← findColl, h, Option.map_some, if_pos hk]

/-- R353: the grant of a round with one source, whose landing range has become free. -/
theorem exec_grantSend {s : State} {d : Die} {i n : Nat} {k : Coll} {r : CollRound} {x : Half} {m : Half} (hk : findColl s d i = some k)
    (hr : (k.rounds.find? fun r => decide (r.idx = n)) = some r) (hout : r.grantOut = false) (hfin : r.fin = false)
    (hsrc : srcsOf r.r = [x]) (hm : rankMod s x.toNat = some m) (hfree : landFree s k r = true) :
    ∃ u, exec (.grantSend d i n) s = .next (sendPkt u { blankPkt s ptCollGrant m 24 r.r.ep with
        addr := collAddr (needOf r.r) n (cSched k.desc), txn := k.att.setWidth 16 }) ∧
      (∃ k', findColl u d i = some k' ∧ ∃ r', k'.rounds.find? (fun r => decide (r.idx = n)) = some r' ∧ r'.grantOut = true ∧
        r'.got = r.got ∧ r'.sent = r.sent) ∧ changesOnly [.coll] s u := by
  have hexec : exec (.grantSend d i n) s = .next (doGrantSend d i n s) := rfl
  have hkey : k.d = d ∧ k.i = i := by simpa using List.find?_some hk
  obtain ⟨rfl, rfl⟩ := hkey
  have hidx : r.idx = n := by simpa using List.find?_some hr
  subst hidx
  refine ⟨updRound s k.d k.i r.idx fun r => { r with grantOut := true }, ?_, ?_, updRound_frame (by decide) _ _ _ _ _⟩
  · have hcond : (!r.grantOut && !r.fin && decide (srcsOf r.r ≠ []) && landFree s k r) = true := by simp [hout, hfin, hsrc, hfree]
    have hm' : rankMod (updRound s k.d k.i r.idx fun r => { r with grantOut := true }) x.toNat = some m := hm
    simp only [hexec, doGrantSend, hk, hr, hcond, if_true]
    simp only [sendGrants, hsrc, List.foldl_cons, List.foldl_nil, hm']
    rfl
  · refine ⟨_, findColl_updColl (fun _ => ⟨rfl, rfl⟩) hk, { r with grantOut := true }, ?_, rfl, rfl, rfl⟩
    have hp : ∀ y : CollRound, decide ((if y.idx = r.idx then { y with grantOut := true } else y).idx = r.idx) = decide (y.idx = r.idx) :=
      fun y => by split <;> rfl
    rw [find?_map_of_iff hp, hr, Option.map_some, if_pos rfl]

/-- Settles O30: each way in which a collective ends, and the order in which a reduction combines its arrivals. -/
theorem collectiveEnds : Obligations.CollectiveEnds := by
  unfold Obligations.CollectiveEnds
  refine ⟨⟨?_, ?_, ?_, ?_, ?_, ?_, ?_⟩, ?_, ?_, ?_⟩
  · rintro s d i k e hactive rfl rfl hfin hguard hnorm hstash hp2 hpend himg hentry hloud
    exact collectiveDone_signals hactive hfin hguard hnorm hstash hp2 hpend himg hentry hloud
  · rintro s d i k a hactive rfl rfl hfin hguard ha hv - hp2 himg
    exact collectiveDone_guard hactive hfin hguard ha hv hp2 himg
  · rintro s d i k a hactive rfl rfl htimed hopen himg hguard ha hv herr hw
    obtain ⟨t, ht, ⟨hidle, hbit, herr', hcause, hclk⟩, hpoison, -⟩ := collTimeout_spec hactive htimed hopen himg ha hv herr hw
    exact ⟨t, ht, hidle, hbit, herr', hcause, hpoison hguard, hclk⟩
  · exact fun s d i k hk h => exec_collTimeout_idle hk h
  · rintro s d i k a hactive rfl rfl htimed hopen himg hguard ha hv herr hw
    obtain ⟨t, ht, ⟨hidle, -⟩, -, hind⟩ := collTimeout_spec hactive htimed hopen himg ha hv herr hw
    exact ⟨t, ht, hidle, hind hguard⟩
  · rintro s d i k sec hactive rfl rfl hfin hguard hnorm hstash hsec ha hentry hopen hp2 himg hclean hpoison
    exact collectiveDone_stash hactive hfin hguard hnorm hstash hsec ha hentry hopen hp2 himg hclean hpoison
  · exact fun s d i n k r x m hk hr hout hfin hsrc hm hfree => exec_grantSend hk hr hout hfin hsrc hm hfree
  · intro redop res start v0 ws early h
    rw [takeEarly_of_perm redop res start ws 0 v0 early h, Nat.zero_add]
  · intro res start v0 ws early i hi hlater _
    exact takeEarly_of_later _ _ _ _ _ _ fun e he => by have := hlater e he; omega
  · exact fun res a b _ => ⟨combineAll_sum res a b, combineAll_max res a b, combineAll_last res a b⟩

end Sys2Proof.Machine
end

section
/-! PROOF. What the registers keep while other units work: an event once recorded stands until it is cleared (R489), and only a
grant counts in ARM_GRANTS (R108). -/
namespace Sys2Proof.Machine
open Sys2Proof

/-- The 64-bit access at `o` touches no half of ARM_GRANTS. -/
@[reducible] def besideGrants (o : Nat) : Prop := o + 8 ≤ rArmGrants ∨ rArmGrants + 8 ≤ o

/-- Every event of `s` still stands in `t`, and no grant has been counted. -/
structure Logged (s t : State) : Prop where
  events : ∀ off i, (rsReg s off).ev.getLsbD i = true → (rsReg t off).ev.getLsbD i = true
  grants : reg64 t rArmGrants = reg64 s rArmGrants

theorem Logged.refl (s : State) : Logged s s := ⟨fun _ _ => id, rfl⟩

theorem Logged.trans {s t u : State} (h : Logged s t) (g : Logged t u) : Logged s u :=
  ⟨fun off i hi => g.events off i (h.events off i hi), g.grants.trans h.grants⟩

theorem Logged.ite {s a b : State} (c : Prop) [Decidable c] (ha : Logged s a) (hb : Logged s b) : Logged s (if c then a else b) := by
  split <;> assumption

theorem Logged.foldl {α : Type} (f : State → α → State) (h : ∀ s x, Logged s (f s x)) (l : List α) (s : State) :
    Logged s (l.foldl f s) := by
  induction l generalizing s with
  | nil => exact .refl s
  | cons x l ih => exact (h s x).trans (ih _)

/-- What keeps both register stores keeps the events and the count. -/
theorem Logged.of_eq {s t : State} (hrs : t.rs = s.rs) (hregs : t.regs = s.regs) : Logged s t :=
  ⟨fun off i hi => by rwa [rsReg_congr hrs], by simp only [reg64, reg, hregs]⟩

theorem logged_of_frame {s t : State} (h : t.erase (fun c => decide (c ∉ [Comp.regs, .rs])) = s.erase (fun c => decide (c ∉ [Comp.regs, .rs]))) :
    Logged s t :=
  .of_eq (by simpa [State.erase] using congrArg State.rs h) (by simpa [State.erase] using congrArg State.regs h)

/-! ### Registers -/

theorem besideGrants_cdWin (n k : Nat) : besideGrants (cdWin n + k) := .inr (by simp only [cdWin, rArmGrants]; omega)
theorem besideGrants_stWin (n k : Nat) : besideGrants (stWin n + k) := .inr (by simp only [stWin, rArmGrants]; omega)

theorem besideGrants_slot (n o : Nat) (h : rHwObj ≤ o) : besideGrants (o + 16 * n) := .inr (by simp only [rHwObj, rArmGrants] at *; omega)

theorem logged_setReg {s : State} {o : Nat} (v : Word) (h : besideGrants o) : Logged s (setReg s o v) := by
  refine ⟨fun _ _ => id, ?_⟩
  unfold besideGrants at h
  rw [reg64, reg64, reg_setReg_ne _ _ _ _ (by omega), reg_setReg_ne _ _ _ _ (by omega)]

theorem logged_setReg64 {s : State} {o : Nat} (v : DWord) (h : besideGrants o) : Logged s (setReg64 s o v) := by
  refine ⟨fun _ _ => id, ?_⟩
  unfold besideGrants at h
  rw [reg64, reg64, reg_setReg64_ne _ _ _ _ (by omega) (by omega), reg_setReg64_ne _ _ _ _ (by omega) (by omega)]

theorem logged_addReg {s : State} {o : Nat} (n : Nat) (h : besideGrants o) : Logged s (addReg s o n) := logged_setReg _ h
theorem logged_addReg64 {s : State} {o : Nat} (n : Nat) (h : besideGrants o) : Logged s (addReg64 s o n) := logged_setReg64 _ h
theorem logged_setFld {s : State} {o : Nat} (hi lo v : Nat) (h : besideGrants o) : Logged s (setFld s o hi lo v) := logged_setReg _ h
theorem logged_satFld16 {s : State} {o : Nat} (lo : Nat) (h : besideGrants o) : Logged s (satFld16 s o lo) := logged_setFld _ _ _ h

/-- R489: recording sets event bits and clears none. -/
theorem RsReg.ev_record (r : RsReg) (bits : BitVec 24) (i : Nat) (h : r.ev.getLsbD i = true) : (r.record bits).ev.getLsbD i = true := by
  unfold RsReg.record
  split
  · exact h
  · simp only [BitVec.getLsbD_or, h, Bool.true_or]

theorem logged_rsEvents (s : State) (off : Nat) (bits : BitVec 24) : Logged s (rsEvents s off bits) := by
  by_cases hb : bits = 0
  · rw [rsEvents, if_pos hb]; exact .refl s
  · have hregs : (rsEvents s off bits).regs = s.regs :=
      changesOnly.regs (ks := [.out, .rs, .host]) (rsEvents_frame (by decide) s off bits) (by decide)
    refine ⟨fun o i hi => ?_, by simp only [reg64, reg, hregs]⟩
    by_cases ho : o = off
    · subst ho
      rw [rsReg, rs_rsEvents s o bits hb, SMap.get_set_self]
      exact RsReg.ev_record _ _ _ hi
    · rwa [rsReg_rsEvents_ne s off o bits ho]

theorem logged_rsEvent (s : State) (off bit : Nat) : Logged s (rsEvent s off bit) := logged_rsEvents s off _

theorem logged_withMem (s : State) (x : MemState) : Logged s { s with mem := x } := .of_eq rfl rfl
theorem logged_withFlash (s : State) (x : FlashState) : Logged s { s with flash := x } := .of_eq rfl rfl

/-! ### Module memory -/

theorem logged_requestStop (s : State) (code : Nat) : Logged s (requestStop s code) :=
  logged_of_frame (requestStop_frame (by decide) s code)

theorem logged_memEvent (s : State) (bit : Nat) (n : Stack) (row : Nat) : Logged s (memEvent s bit n row) :=
  (logged_setReg _ (by decide)).trans (logged_rsEvent _ _ _)

theorem logged_retireOne (s : State) (n : Stack) (p row : Nat) (again : Bool) : Logged s (retireOne s n p row again) := by
  unfold retireOne
  extract_lets cls full used mapped found addressed counted retired noted pool poolStep sub taken substituted remapped shown done
  have hmapped : Logged s mapped := (logged_of_frame (updStack_frame (by decide) s n _)).trans (logged_of_frame (logMapOut_frame (by decide) _ _ _))
  have hretired : Logged s retired :=
    hmapped.trans <| (logged_memEvent _ _ _ _).trans <| (logged_setReg64 _ (by decide)).trans <|
      (logged_satFld16 _ (by decide)).trans (logged_memEvent _ _ _ _)
  have hnoted : Logged s noted := .ite _ (hretired.trans (logged_memEvent _ _ _ _)) hretired
  have hpool : Logged s pool := hnoted.trans (logged_of_frame (setRemap_frame (by decide) _ _ _ _))
  have htaken : Logged s taken :=
    hnoted.trans ((logged_of_frame (updStack_frame (by decide) _ n _)).trans (logged_of_frame (setRemap_frame (by decide) _ _ _ _)))
  have hsub : Logged s (poisonPage substituted n sub) :=
    htaken.trans ((logged_setFld _ _ _ (by decide)).trans (logged_of_frame (poisonPage_frame (by decide) _ _ _)))
  have hshown : Logged s shown := (Logged.ite _ hnoted hpool).trans (logged_setFld _ _ _ (by decide))
  have hdone : Logged s done :=
    .ite _ (hpool.trans (.of_eq rfl rfl)) <| .ite _ hsub <| (Logged.ite _ hshown (hshown.trans (logged_requestStop _ _))).trans (logged_memEvent _ _ _ _)
  exact .ite _ (hdone.trans (logged_requestStop _ _)) hdone

theorem logged_retirePage (s : State) (n : Stack) (o row : Nat) : Logged s (retirePage s n o row) := by
  unfold retirePage
  dsimp only
  split
  · exact logged_retireOne _ _ _ _ _
  · exact .ite _ (.refl s) (logged_retireOne _ _ _ _ _)

theorem logged_rowNeedsRepair (s : State) (n : Stack) (o : Nat) : Logged s (rowNeedsRepair s n o) :=
  .ite _ (.refl s) (.ite _ (logged_retirePage _ _ _ _) (logged_of_frame (updStack_frame (by decide) s n _)))

theorem logged_foundUe (s : State) (g a : Nat) : Logged s (foundUe s g a) := by
  unfold foundUe
  extract_lets n mem marked counted total addressed event
  have htotal : Logged s total :=
    (logged_withMem s _).trans ((logged_addReg (s := marked) 1 (besideGrants_stWin n.val 0x18)).trans (logged_addReg (s := counted) 1 (by decide)))
  exact htotal.trans ((logged_setReg64 _ (by decide)).trans ((logged_memEvent _ _ _ _).trans (logged_rowNeedsRepair _ _ _)))

theorem logged_correctGran (s : State) (g : Nat) : Logged s (correctGran s g) :=
  (logged_withMem s _).trans ((logged_addReg64 1 (besideGrants_stWin (granStack g).val 0x10)).trans (logged_addReg64 1 (by decide)))

theorem logged_foundCe (s : State) (g : Nat) : Logged s (foundCe s g) := by
  unfold foundCe
  extract_lets n row corrected hit
  have hhit : Logged s hit := (logged_correctGran s g).trans (logged_of_frame (updStack_frame (by decide) _ _ _))
  split
  · refine .ite _ (hhit.trans ?_) hhit
    exact (logged_of_frame (updStack_frame (by decide) _ _ _)).trans ((logged_memEvent _ _ _ _).trans (logged_rowNeedsRepair _ _ _))
  · exact hhit

theorem logged_caParity (s : State) (gs : List (Nat × Nat)) : Logged s (caParity s gs) := by
  have hevent : ∀ bit n row, Logged s (memEvent { s with mem := { s.mem with parity := 0 } } bit n row) :=
    fun _ _ _ => (logged_withMem s _).trans (logged_memEvent _ _ _ _)
  exact .ite _ (.refl s) (.ite _ ((hevent _ _ _).trans (.foldl _ (fun _ _ => logged_foundUe _ _ _) _ _)) (hevent _ _ _))

theorem logged_repairRow (s : State) (n : Stack) (row : Nat) : Logged s (repairRow s n row) := by
  unfold repairRow
  extract_lets x inRow found corrected repaired
  have hfound : Logged s found := .foldl _ (fun _ _ => logged_foundUe _ _ _) _ s
  have hrepaired : Logged s repaired :=
    hfound.trans ((Logged.foldl _ logged_correctGran _ found).trans (logged_of_frame (updStack_frame (by decide) corrected n _)))
  exact hrepaired.trans ((logged_withFlash repaired _).trans (logged_memEvent _ _ _ _))

theorem logged_holdForRepair (s : State) (g : Nat) : Logged s (holdForRepair s g) := by
  unfold holdForRepair
  dsimp only
  split
  · exact .ite _ (logged_repairRow _ _ _) (.refl s)
  · exact .refl s

theorem logged_touchGran (s : State) (g a : Nat) : Logged s (touchGran s g a) :=
  .ite _ (.refl s) (.ite _ (logged_foundUe _ _ _) (.ite _ (logged_foundCe _ _) (.refl s)))

theorem logged_writeMark (s : State) (a len g b : Nat) : Logged s (writeMark s a len g b) :=
  .ite _ (logged_withMem s _) (logged_touchGran _ _ _)

theorem logged_memWrite {s t : State} {a : Nat} {bs : List Byte} {r : Bool} (h : memWrite s a bs = some (r, t)) : Logged s t := by
  unfold memWrite at h
  split at h
  · dsimp only at h
    split at h
    · cases h; exact .refl s
    · cases h
      exact (Logged.foldl _ (fun _ _ => logged_holdForRepair _ _) _ s).trans <|
        (Logged.foldl _ (fun _ _ => logged_writeMark _ _ _ _ _) _ _).trans <| (logged_withMem _ _).trans (logged_caParity _ _)
  · cases h

theorem logged_memPut (s : State) (a : Nat) (bs : List Byte) : Logged s (memPut s a bs) := by
  unfold memPut
  split
  · exact logged_memWrite ‹_›
  · exact .refl s

theorem logged_writeVerdict (s : State) (att : DWord) (v : Nat) : Logged s (writeVerdict s att v) := by
  unfold writeVerdict
  split
  · exact logged_memPut _ _ _
  · exact .refl s

/-! ### Packets -/

theorem logged_dropLife (s : State) (p : Packet) (ch : Option Chan) : Logged s (dropLife s p ch) :=
  ((logged_setReg _ (by decide)).trans (logged_rsEvent _ _ _)).trans (logged_addReg _ (by decide))

theorem logged_poolLeave (s : State) (p : Packet) (src : Option (Chan × Nat)) : Logged s (poolLeave s p src) :=
  logged_of_frame (poolLeave_frame (by decide) s p src)

theorem logged_showUsed (s : State) (port : Nat) : Logged s (showUsed s port) :=
  .ite _ (.refl s) (logged_setReg _ (.inr (by simp only [rCstoreUsed, rArmGrants]; omega)))

theorem logged_putOnLink (s : State) (p : Packet) (c : Chan) : Logged s (putOnLink s p c) :=
  (logged_of_frame (updLink_frame (by decide) s c _)).trans <| (logged_addReg64 _ (by decide)).trans <| (logged_showUsed _ _).trans (.of_eq rfl rfl)

theorem logged_depart (s : State) (w : WaitPkt) (c : Chan) : Logged s (depart s w c) :=
  (Logged.ite _ (logged_dropLife _ _ _) (logged_putOnLink _ _ _)).trans (logged_poolLeave _ _ _)

theorem logged_parkPkt (s : State) (w : WaitPkt) : Logged s (parkPkt s w) :=
  .ite _ ((logged_addReg _ (by decide)).trans (logged_poolLeave _ _ _)) (logged_of_frame (keepWaiting_frame (by decide) s w))

theorem logged_sendCopyA (p : Packet) (s : State) (m : Half) : Logged s (sendCopyA p s m) := by
  have hpick : ∀ {w : WaitPkt} {c : Option Chan} {t : State}, pick s w true = (c, t) → Logged s t := fun {w c t} hp => by
    have h : Logged s (pick s w true).2 := logged_of_frame (pick_frame (by decide) s w true)
    rwa [hp] at h
  unfold sendCopyA
  dsimp only
  split
  next c t hp => exact (hpick hp).trans (logged_depart _ _ _)
  next t hp => exact (hpick hp).trans (logged_parkPkt _ _)

theorem logged_sendCopyB (p : Packet) (s : State) (dm : Nat × Half) : Logged s (sendCopyB p s dm) := by
  unfold sendCopyB
  dsimp only
  split
  · exact logged_depart _ _ _
  · exact logged_parkPkt _ _

theorem logged_broadcast (s : State) (p : Packet) : Logged s (broadcast s p) :=
  (Logged.foldl _ (logged_sendCopyA p) _ s).trans (Logged.foldl _ (logged_sendCopyB p) _ _)

/-! ### The tile store -/

theorem logged_tsEvent (s : State) (d : Die) (bit off port : Nat) : Logged s (tsEvent s d bit off port) :=
  (logged_setReg _ (besideGrants_cdWin _ _)).trans (logged_rsEvent _ _ _)

/-! ### What a fault and a signal record -/

theorem logged_arrErr (s : State) (d : Die) (bit : Nat) (c : Sid) (tag : Half) : Logged s (arrErr s d bit c tag) :=
  (logged_setReg _ (besideGrants_cdWin _ _)).trans (logged_rsEvent _ _ _)

theorem logged_recordFault (s : State) (d : Die) (c : Sid) (bits typ : Nat) (seq : Half) (addr : DWord) :
    Logged s (recordFault s d c bits typ seq addr) := by
  unfold recordFault
  extract_lets shown placed
  have hshown : Logged s shown := logged_setReg _ (besideGrants_cdWin d.val rStrErrInfo)
  exact (hshown.trans (logged_setReg64 _ (besideGrants_cdWin d.val rStrErrAddr))).trans (logged_rsEvents placed _ _)

theorem logged_syncEvent (s : State) (bit : Nat) (cause : BitVec 4) (src : Src) (ref : Nat) : Logged s (syncEvent s bit cause src ref) :=
  (logged_setReg _ (by decide)).trans (logged_rsEvent _ _ _)

theorem logged_cdSyncEvent (s : State) (d : Die) (bit : Nat) (cause : BitVec 4) (src : Src) (ref : Nat) :
    Logged s (cdSyncEvent s d bit cause src ref) :=
  (logged_setReg _ (besideGrants_cdWin _ _)).trans (logged_rsEvent _ _ _)

theorem logged_logObjError (s : State) (r : ObjRef) (cause : BitVec 4) (src : Src) : Logged s (logObjError s r cause src) := by
  cases r with
  | glob i => exact logged_syncEvent _ _ _ _ _
  | loc d i =>
    exact .ite _ (logged_cdSyncEvent _ _ _ _ _ _) (.ite _ (logged_cdSyncEvent _ _ _ _ _ _) (.ite _ (logged_cdSyncEvent _ _ _ _ _ _) (.refl s)))

theorem logged_endSlot (s : State) (n : Fin 1024) (status : Nat) (o : SyncObj) : Logged s (endSlot s n status o) := by
  unfold endSlot
  extract_lets ob cause shown disarmed
  have hshown : Logged s shown := logged_setReg _ (besideGrants_slot n.val rHwStat (by decide))
  have hdisarmed : Logged s disarmed := hshown.trans (logged_setFld _ _ _ (besideGrants_slot n.val rHwObj (by decide)))
  exact .ite _ hdisarmed (hdisarmed.trans (logged_of_frame (msixDue_frame (by decide) _ _)))

theorem logged_collInfo (s : State) (k : Coll) (round cause : Nat) (peer : Half) (port : Nat) :
    Logged s (collInfo s k round cause peer port) := (logged_setReg _ (by decide)).trans (logged_setReg _ (by decide))

end Sys2Proof.Machine
end

section
/-! PROOF. What signals leave alone: the arrays, the gang timers, and every stream that no object lists as a waiter (R213, R219). -/
namespace Sys2Proof.Machine
open Sys2Proof

/-! ### One stream -/

/-- The stream has not left the poison path, nor entered pass 2. -/
def Stream.onward (x y : Stream) : Prop := (x.poison = true → y.poison = true) ∧ (x.pass2 = false → y.pass2 = false)

theorem Stream.onward_refl (x : Stream) : x.onward x := ⟨id, id⟩
theorem Stream.onward_trans {x y z : Stream} (h : x.onward y) (g : y.onward z) : x.onward z := ⟨g.1 ∘ h.1, g.2 ∘ h.2⟩

theorem str_updStr_onward {s : State} {d : Die} {c : Sid} {f : Stream → Stream} (h : (str s d c).onward (f (str s d c))) (e : Die) (k : Sid) :
    (str s e k).onward (str (updStr s d c f) e k) := by
  by_cases hek : e = d ∧ k = c
  · obtain ⟨rfl, rfl⟩ := hek
    rwa [str_updStr_self]
  · rw [str_updStr_ne _ _ _ _ _ _ (not_and_or.mp hek)]
    exact Stream.onward_refl _

/-! ### What the arbiter keeps of the waiters -/

/-- Whom the arbiter keeps or ends, the object listed before. -/
structure ObjRes.within (o : SyncObj) (r : ObjRes) : Prop where
  keeps : ∀ w ∈ r.obj.waiters, w ∈ o.waiters
  ends : ∀ p ∈ r.ended, p.1 ∈ o.waiters

theorem evalWaiters_within (ws : List Waiter) (n : Nat) (blocked : Bool) :
    (∀ w ∈ (evalWaiters ws n blocked).2.1, w ∈ ws) ∧ ∀ p ∈ (evalWaiters ws n blocked).2.2, p.1 ∈ ws := by
  induction ws generalizing n blocked with
  | nil => exact ⟨nofun, nofun⟩
  | cons w ws ih =>
    have hkept : ∀ m b x, x ∈ (evalWaiters ws m b).2.1 → x ∈ w :: ws := fun m b x hx => List.mem_cons_of_mem _ ((ih m b).1 x hx)
    have hdone : ∀ m b p, p ∈ (evalWaiters ws m b).2.2 → p.1 ∈ w :: ws := fun m b p hp => List.mem_cons_of_mem _ ((ih m b).2 p hp)
    simp only [evalWaiters]
    split
    · split
      · exact ⟨hkept _ _, List.forall_mem_cons.mpr ⟨List.mem_cons_self, hdone _ _⟩⟩
      · exact ⟨List.forall_mem_cons.mpr ⟨List.mem_cons_self, hkept _ _⟩, hdone _ _⟩
    · split
      · exact ⟨hkept _ _, List.forall_mem_cons.mpr ⟨List.mem_cons_self, hdone _ _⟩⟩
      · exact ⟨List.forall_mem_cons.mpr ⟨List.mem_cons_self, hkept _ _⟩, hdone _ _⟩

theorem SyncObj.settle_within (o : SyncObj) : o.settle.within o :=
  ⟨(evalWaiters_within o.waiters o.count false).1, (evalWaiters_within o.waiters o.count false).2⟩

/-- Nothing happens to an object in error. -/
theorem SyncObj.within_idle (o : SyncObj) : ObjRes.within o ⟨o, [], false⟩ := ⟨fun _ => id, nofun⟩

theorem SyncObj.setError_within (o : SyncObj) (c : BitVec 4) : (o.setError c).within o := by
  unfold SyncObj.setError
  split
  · exact o.within_idle
  · exact ⟨nofun, fun p hp => by obtain ⟨w, hw, rfl⟩ := List.mem_map.mp hp; exact hw⟩

theorem SyncObj.add_within (o : SyncObj) (n : Nat) : (o.add n).within o := by
  unfold SyncObj.add
  split
  · exact o.within_idle
  · split
    · exact o.setError_within _
    · obtain ⟨hkeeps, hends⟩ := SyncObj.settle_within { o with count := o.count + n }
      exact ⟨hkeeps, hends⟩

theorem SyncObj.addAhead_within (o : SyncObj) (n : Nat) : (o.addAhead n).within o := by
  unfold SyncObj.addAhead
  split
  · exact o.within_idle
  · split
    · exact o.setError_within _
    · exact ⟨fun _ => id, nofun⟩

theorem SyncObj.mem_of_mem_withdraw {o : SyncObj} {who : Who} {w : Waiter} (h : w ∈ (o.withdraw who).waiters) : w ∈ o.waiters :=
  List.mem_of_mem_filter h

theorem SyncObj.leave_within (o : SyncObj) (who : Who) : (o.leave who).within o := by
  unfold SyncObj.leave
  split
  · exact ⟨fun _ => SyncObj.mem_of_mem_withdraw, nofun⟩
  · obtain ⟨hkeeps, hends⟩ := (o.withdraw who).settle_within
    exact ⟨fun w hw => SyncObj.mem_of_mem_withdraw (hkeeps w hw), fun p hp => SyncObj.mem_of_mem_withdraw (hends p hp)⟩

/-! ### What a signal does to the module -/

theorem die_congr {s t : State} (h : t.dies = s.dies) : die t = die s := by
  funext d
  rw [die, die, h]

theorem notWaiting_congr {s t : State} {d : Die} {c : Sid} (h : getObj t = getObj s) (hn : notWaiting s d c) : notWaiting t d c := by
  rw [notWaiting, h]; exact hn

/-- `t` comes of `s` by signals and withdrawals: the arrays and gang timers are as before, the registers keep what they have
recorded, and a stream that no object lists is as before and still in no list. -/
structure Signalled (s t : State) : Prop where
  logged : Logged s t
  gang : t.gang = s.gang
  arr : ∀ d, (die t d).arr = (die s d).arr
  str : ∀ d c, (str s d c).onward (str t d c)
  bystander : ∀ d c, notWaiting s d c → Machine.str t d c = Machine.str s d c ∧ notWaiting t d c

theorem Signalled.refl (s : State) : Signalled s s :=
  ⟨.refl s, rfl, fun _ => rfl, fun _ _ => Stream.onward_refl _, fun _ _ h => ⟨rfl, h⟩⟩

theorem Signalled.trans {s t u : State} (h : Signalled s t) (g : Signalled t u) : Signalled s u where
  logged := h.logged.trans g.logged
  gang := g.gang.trans h.gang
  arr d := (g.arr d).trans (h.arr d)
  str d c := Stream.onward_trans (h.str d c) (g.str d c)
  bystander d c hn := by
    obtain ⟨ht, hnt⟩ := h.bystander d c hn
    obtain ⟨hu, hnu⟩ := g.bystander d c hnt
    exact ⟨hu.trans ht, hnu⟩

theorem Signalled.ite {s a b : State} (c : Prop) [Decidable c] (ha : Signalled s a) (hb : Signalled s b) : Signalled s (if c then a else b) := by
  split <;> assumption

theorem Signalled.foldl {α : Type} (f : State → α → State) (h : ∀ s x, Signalled s (f s x)) (l : List α) (s : State) :
    Signalled s (l.foldl f s) := by
  induction l generalizing s with
  | nil => exact .refl s
  | cons x l ih => exact (h s x).trans (ih _)

/-- What leaves the objects, the dies and the gang timers alone, and keeps the registers. -/
theorem Signalled.of_frame {s t : State} (hlogged : Logged s t)
    (h : t.erase (fun c => decide (c ∉ [Comp.sync, .dies, .gang])) = s.erase (fun c => decide (c ∉ [Comp.sync, .dies, .gang]))) :
    Signalled s t := by
  have hsync : t.sync = s.sync := by simpa [State.erase] using congrArg State.sync h
  have hdies : t.dies = s.dies := by simpa [State.erase] using congrArg State.dies h
  have hgang : t.gang = s.gang := by simpa [State.erase] using congrArg State.gang h
  have hstr : Machine.str t = Machine.str s := str_congr hdies
  exact ⟨hlogged, hgang, fun d => by rw [die_congr hdies], fun d c => by rw [hstr]; exact Stream.onward_refl _,
    fun d c hn => ⟨by rw [hstr], notWaiting_congr (getObj_congr hsync hdies) hn⟩⟩

theorem signalled_logObjError (s : State) (r : ObjRef) (cause : BitVec 4) (src : Src) : Signalled s (logObjError s r cause src) :=
  .of_frame (logged_logObjError _ _ _ _) (logObjError_frame (by decide) _ _ _ _)

/-! ### The ends of waits -/

/-- A wait ends in its own stream alone: no array, gang timer or object changes by it. -/
structure WaitEnded (d : Die) (c : Sid) (s t : State) : Prop where
  logged : Logged s t
  gang : t.gang = s.gang
  arr : ∀ e, (die t e).arr = (die s e).arr
  objs : getObj t = getObj s
  str : ∀ e k, (str s e k).onward (str t e k)
  others : otherStreams d c s t

theorem WaitEnded.refl (d : Die) (c : Sid) (s : State) : WaitEnded d c s s :=
  ⟨.refl s, rfl, fun _ => rfl, rfl, fun _ _ => Stream.onward_refl _, fun _ _ _ => rfl⟩

theorem WaitEnded.trans {d : Die} {c : Sid} {s t u : State} (h : WaitEnded d c s t) (g : WaitEnded d c t u) : WaitEnded d c s u :=
  ⟨h.logged.trans g.logged, g.gang.trans h.gang, fun e => (g.arr e).trans (h.arr e), g.objs.trans h.objs,
    fun e k => Stream.onward_trans (h.str e k) (g.str e k), fun e k hek => (g.others e k hek).trans (h.others e k hek)⟩

theorem arr_updStr (s : State) (d e : Die) (c : Sid) (f : Stream → Stream) : (die (updStr s d c f) e).arr = (die s e).arr := by
  by_cases h : e = d
  · subst h; rw [updStr, die_updDie_self]
  · rw [updStr, die_updDie_ne _ _ _ _ h]

theorem getObj_updStr (s : State) (d : Die) (c : Sid) (f : Stream → Stream) : getObj (updStr s d c f) = getObj s :=
  getObj_updDie _ _ _ (fun _ => rfl) fun _ => rfl

theorem waitEnded_updStr {s : State} {d : Die} {c : Sid} {f : Stream → Stream} (h : (str s d c).onward (f (str s d c))) :
    WaitEnded d c s (updStr s d c f) :=
  ⟨logged_of_frame (updStr_frame (by decide) s d c f), rfl, fun e => arr_updStr s d e c f, getObj_updStr s d c f, str_updStr_onward h,
    fun e k hek => str_updStr_ne s d e c k f hek⟩

/-- What leaves the objects, the dies and the gang timers alone, and keeps the registers. -/
theorem WaitEnded.of_frame {d : Die} {c : Sid} {s t : State} (hlogged : Logged s t)
    (h : t.erase (fun c => decide (c ∉ [Comp.sync, .dies, .gang])) = s.erase (fun c => decide (c ∉ [Comp.sync, .dies, .gang]))) :
    WaitEnded d c s t := by
  have hsync : t.sync = s.sync := by simpa [State.erase] using congrArg State.sync h
  have hdies : t.dies = s.dies := by simpa [State.erase] using congrArg State.dies h
  have hgang : t.gang = s.gang := by simpa [State.erase] using congrArg State.gang h
  have hstr : Machine.str t = Machine.str s := str_congr hdies
  exact ⟨hlogged, hgang, fun d => by rw [die_congr hdies], getObj_congr hsync hdies, fun d c => by rw [hstr]; exact Stream.onward_refl _,
    fun e k _ => by rw [hstr]⟩

theorem waitEnded_issued (s : State) (d : Die) (c : Sid) : WaitEnded d c s (issued s d c) :=
  (waitEnded_updStr (by exact ⟨id, id⟩)).trans <|
    .of_frame (logged_addReg64 1 (besideGrants_cdWin d.val rStrIssued)) (addReg64_frame (by decide) _ _ _)

theorem waitEnded_endStreamWait (s : State) (d : Die) (c : Sid) (status : Nat) : WaitEnded d c s (endStreamWait s d c status).1 := by
  have hstatus : WaitEnded d c s (updStr s d c fun x => { x with waiter := status }) := waitEnded_updStr ⟨id, id⟩
  unfold endStreamWait
  dsimp only
  split
  · exact hstatus.trans (waitEnded_issued _ _ _)
  · split
    · refine (hstatus.trans (waitEnded_issued _ _ _)).trans ?_
      dsimp only
      exact waitEnded_updStr ⟨fun _ => rfl, id⟩
    · exact (hstatus.trans (waitEnded_updStr (by exact ⟨id, id⟩))).trans
        (.of_frame (logged_of_frame (stopImage_frame (by decide) _ _)) (stopImage_frame (by decide) _ _))

/-- The ends of the waiters `ws` change their streams alone. -/
structure WaitersEnded (ws : List (Waiter × Nat)) (s t : State) : Prop where
  logged : Logged s t
  gang : t.gang = s.gang
  arr : ∀ d, (die t d).arr = (die s d).arr
  objs : getObj t = getObj s
  str : ∀ d c, (str s d c).onward (str t d c)
  others : ∀ d c, (∀ p ∈ ws, p.1.who ≠ .stream d c) → Machine.str t d c = Machine.str s d c

theorem endWaiters_spec (s : State) (r : ObjRef) (o : SyncObj) (ws : List (Waiter × Nat)) : WaitersEnded ws s (endWaiters s r o ws).1 := by
  induction ws generalizing s with
  | nil => exact ⟨.refl s, rfl, fun _ => rfl, rfl, fun _ _ => Stream.onward_refl _, fun _ _ _ => rfl⟩
  | cons p ws ih =>
    obtain ⟨w, st⟩ := p
    simp only [endWaiters]
    split
    next n _ =>
      have hslot : WaitEnded 0 .f s (endSlot s n st o) := .of_frame (logged_endSlot _ _ _ _) (endSlot_frame (by decide) _ _ _ _)
      have hdies : (endSlot s n st o).dies = s.dies :=
        changesOnly.dies (ks := [.out, .regs, .host]) (endSlot_frame (by decide) _ _ _ _) (by decide)
      obtain ⟨hl, hg, ha, ho, hs, hothers⟩ := ih (endSlot s n st o)
      exact ⟨hslot.logged.trans hl, hg.trans hslot.gang, fun d => (ha d).trans (hslot.arr d), ho.trans hslot.objs,
        fun d c => Stream.onward_trans (hslot.str d c) (hs d c),
        fun d c hn => (hothers d c fun p hp => hn p (List.mem_cons_of_mem _ hp)).trans (by rw [str_congr hdies])⟩
    next d c hw =>
      have hrearm : WaitEnded d c s (if st = stRearmed then cdSyncEvent s d 4 0 ⟨d.val, sidNat c, false⟩ (refBits r) else s) := by
        split
        · exact .of_frame (logged_cdSyncEvent _ _ _ _ _ _) (cdSyncEvent_frame (by decide) _ _ _ _ _ _)
        · exact .refl d c s
      have hend := hrearm.trans (waitEnded_endStreamWait _ d c st)
      obtain ⟨hl, hg, ha, ho, hs, hothers⟩ := ih (endStreamWait (if st = stRearmed then cdSyncEvent s d 4 0 ⟨d.val, sidNat c, false⟩ (refBits r) else s) d c st).1
      refine ⟨hend.logged.trans hl, hg.trans hend.gang, fun e => (ha e).trans (hend.arr e), ho.trans hend.objs,
        fun e k => Stream.onward_trans (hend.str e k) (hs e k), fun e k hn => ?_⟩
      have hek : e ≠ d ∨ k ≠ c := not_and_or.mp fun ⟨he, hk⟩ => hn _ List.mem_cons_self (by rw [hw, he, hk])
      exact (hothers e k fun p hp => hn p (List.mem_cons_of_mem _ hp)).trans (hend.others e k hek)

/-! ### Objects -/

theorem arr_putObj (s : State) (r : ObjRef) (o : SyncObj) (d : Die) : (die (putObj s r o) d).arr = (die s d).arr := by
  cases r with
  | glob i => rfl
  | loc e i =>
    by_cases h : d = e
    · subst h; rw [putObj, die_updDie_self]
    · rw [putObj, die_updDie_ne _ _ _ _ h]

theorem str_putObj (s : State) (r : ObjRef) (o : SyncObj) : str (putObj s r o) = str s := by
  funext d c
  cases r with
  | glob i => rfl
  | loc e i =>
    by_cases h : d = e
    · subst h; simp only [str, putObj, die_updDie_self]
    · simp only [str, putObj, die_updDie_ne _ _ _ _ h]

/-- An object that takes on no waiter takes the place of the one before. -/
theorem signalled_putObj {s : State} {r : ObjRef} {o : SyncObj} (h : ∀ w ∈ o.waiters, w ∈ (getObj s r).waiters) :
    Signalled s (putObj s r o) := by
  have hgang : (putObj s r o).gang = s.gang := changesOnly.gang (ks := [.sync, .dies]) (putObj_frame (by decide) s r o) (by decide)
  refine ⟨logged_of_frame (putObj_frame (by decide) s r o), hgang, arr_putObj s r o, fun d c => ?_, fun d c hn => ?_⟩
  · rw [str_putObj]; exact Stream.onward_refl _
  · refine ⟨by rw [str_putObj], fun x w hw => ?_⟩
    by_cases hx : x = r
    · subst hx
      rw [getObj_putObj_self] at hw
      exact hn x w (h w hw)
    · rw [getObj_putObj_ne _ _ _ _ hx] at hw
      exact hn x w hw

theorem signalled_applyRes {s : State} {r : ObjRef} {res : ObjRes} (src : Src) (h : res.within (getObj s r)) :
    Signalled s (applyRes s r src res).1 := by
  have hput : Signalled s (if res.newErr then logObjError (putObj s r res.obj) r res.obj.cause src else putObj s r res.obj) :=
    (signalled_putObj h.keeps).trans (.ite _ (signalled_logObjError _ _ _ _) (.refl _))
  obtain ⟨hlogged, hgang, harr, hobjs, hstr, hothers⟩ :=
    endWaiters_spec (if res.newErr then logObjError (putObj s r res.obj) r res.obj.cause src else putObj s r res.obj) r res.obj res.ended
  refine ⟨hput.logged.trans hlogged, hgang.trans hput.gang, fun d => (harr d).trans (hput.arr d),
    fun d c => Stream.onward_trans (hput.str d c) (hstr d c), fun d c hn => ?_⟩
  obtain ⟨hsame, hnput⟩ := hput.bystander d c hn
  exact ⟨(hothers d c fun p hp => hn r p.1 (h.ends p hp)).trans hsame, notWaiting_congr hobjs hnput⟩

/-! ### Signals -/

theorem signalled_addOnce (s : State) (g : Sig) : Signalled s (addOnce s g).1 := by
  obtain ⟨r, n, tag, src⟩ := g
  cases r with
  | glob i =>
    have hnoted : Signalled s (noteInput (noteCommit (addReg64 s rSyncSignals 1) src i.val) src i.val) :=
      (Signalled.of_frame (logged_addReg64 1 (by decide)) (addReg64_frame (by decide) s _ _)).trans <|
        (Signalled.of_frame (logged_of_frame (noteCommit_frame (by decide) _ src i.val)) (noteCommit_frame (by decide) _ src i.val)).trans <|
          .of_frame (logged_of_frame (noteInput_frame (by decide) _ src i.val)) (noteInput_frame (by decide) _ src i.val)
    have hclass : ∀ (t : State) v en, Signalled t (classEvent t v en) := fun t v en =>
      .of_frame (logged_of_frame (classEvent_frame (by decide) t v en)) (classEvent_frame (by decide) t v en)
    refine hnoted.trans ((signalled_applyRes (r := .glob i) src (SyncObj.add_within _ n)).trans ?_)
    exact .ite _ (hclass _ _ _) (.ite _ (hclass _ _ _) (.refl _))
  | loc d i =>
    have hadd : Signalled s (applyRes s (.loc d i) src ((getObj s (.loc d i)).add n)).1 := signalled_applyRes src (SyncObj.add_within _ n)
    unfold addOnce
    dsimp only
    split
    · exact .refl s
    · split
      · exact hadd
      · split
        · exact hadd
        · split
          · exact signalled_applyRes src (SyncObj.addAhead_within _ n)
          · split
            · exact signalled_applyRes src (SyncObj.setError_within _ _)
            · exact .of_frame (logged_addReg 1 (besideGrants_cdWin d.val rCdSyncStale)) (addReg_frame (by decide) _ _ _)

theorem signalled_addSignals (fuel : Nat) (gs : List Sig) (s : State) : Signalled s (addSignals fuel gs s) := by
  induction fuel generalizing gs s with
  | zero => cases gs <;> exact .refl s
  | succ n ih =>
    cases gs with
    | nil => exact .refl s
    | cons g gs => exact (signalled_addOnce s g).trans (ih _ _)

theorem signalled_signals (s : State) (gs : List Sig) : Signalled s (signals s gs) := signalled_addSignals _ gs s

theorem signalled_leaveObj (s : State) (r : ObjRef) (who : Who) : Signalled s (leaveObj s r who) :=
  (signalled_applyRes ⟨26, 0, false⟩ (SyncObj.leave_within _ who)).trans (signalled_signals _ _)

theorem signalled_setObjError (s : State) (r : ObjRef) (cause : BitVec 4) (src : Src) : Signalled s (setObjError s r cause src) :=
  (signalled_applyRes src (SyncObj.setError_within _ cause)).trans (signalled_signals _ _)

theorem signalled_withdrawWait (s : State) (d : Die) (c : Sid) : Signalled s (withdrawWait s d c) := by
  unfold withdrawWait
  split
  · exact signalled_leaveObj _ _ _
  · exact .refl s

theorem signalled_withdrawAll (s : State) (xs : List (Die × Sid)) : Signalled s (withdrawAll s xs) := by
  rw [withdrawAll, leaveAll]
  exact (Signalled.foldl _ (fun _ _ => signalled_putObj fun _ => SyncObj.mem_of_mem_withdraw) _ s).trans
    (Signalled.foldl _ (fun _ _ => signalled_leaveObj _ _ _) _ _)

end Sys2Proof.Machine
end

section
/-! PROOF. What a descriptor fault does, and what a fault of another die never takes back (R91, R203, R205). -/
namespace Sys2Proof.Machine
open Sys2Proof

/-! ### One array -/

/-- An operation apart from the reset that may wait for its boundary. -/
def ArrOp.unreset (o : ArrOp) : ArrOp := { o with reset := false }

/-- No stream shows ready anew, the operation in progress is the same, and the queue holds no new tile. -/
structure ArrayUnit.onward (a b : ArrayUnit) : Prop where
  ready : ∀ c, a.ready.get c = none → b.ready.get c = none
  op : b.op.map ArrOp.unreset = a.op.map ArrOp.unreset
  tiles : ∀ q ∈ b.queue, ∃ p ∈ a.queue, p.tile = q.tile

theorem ArrayUnit.onward_refl (a : ArrayUnit) : a.onward a := ⟨fun _ => id, rfl, fun q hq => ⟨q, hq, rfl⟩⟩

theorem ArrayUnit.onward_trans {a b e : ArrayUnit} (h : a.onward b) (g : b.onward e) : a.onward e where
  ready c := g.ready c ∘ h.ready c
  op := g.op.trans h.op
  tiles q hq := by
    obtain ⟨p, hp, hpq⟩ := g.tiles q hq
    obtain ⟨r, hr, hrp⟩ := h.tiles p hp
    exact ⟨r, hr, hrp.trans hpq⟩

theorem PerStream.get_put_none {α : Type} {p : PerStream (Option α)} {c k : Sid} (h : p.get k = none) : (p.put c none).get k = none := by
  by_cases hk : k = c
  · rw [hk, PerStream.get_put_self]
  · rwa [PerStream.get_put_ne _ _ _ _ hk]

theorem resetArr_onward (c : Sid) (a : ArrayUnit) : a.onward (resetArr c a) := by
  refine ⟨fun _ => id, rfl, fun q hq => ?_⟩
  obtain ⟨p, hp, rfl⟩ := List.mem_map.mp hq
  exact ⟨p, List.mem_of_mem_filter hp, by split <;> rfl⟩

/-! ### The module -/

/-- What `s` has of poison paths, withdrawn readies, stopped gang timers, operations, tiles and recorded events, `t` still has. -/
structure Onward (s t : State) : Prop where
  logged : Logged s t
  gang : ∀ c, s.gang.get c = none → t.gang.get c = none
  arr : ∀ d, (die s d).arr.onward (die t d).arr
  str : ∀ d c, (str s d c).onward (str t d c)

theorem Onward.refl (s : State) : Onward s s :=
  ⟨.refl s, fun _ => id, fun _ => ArrayUnit.onward_refl _, fun _ _ => Stream.onward_refl _⟩

theorem Onward.trans {s t u : State} (h : Onward s t) (g : Onward t u) : Onward s u :=
  ⟨h.logged.trans g.logged, fun c => g.gang c ∘ h.gang c, fun d => ArrayUnit.onward_trans (h.arr d) (g.arr d),
    fun d c => Stream.onward_trans (h.str d c) (g.str d c)⟩

theorem Onward.ite {s a b : State} (c : Prop) [Decidable c] (ha : Onward s a) (hb : Onward s b) : Onward s (if c then a else b) := by
  split <;> assumption

theorem Onward.foldl {α : Type} (f : State → α → State) (h : ∀ s x, Onward s (f s x)) (l : List α) (s : State) : Onward s (l.foldl f s) := by
  induction l generalizing s with
  | nil => exact .refl s
  | cons x l ih => exact (h s x).trans (ih _)

theorem onward_forStreams (f : Die → Sid → State → State) (h : ∀ d c s, Onward s (f d c s)) (s : State) : Onward s (forStreams f s) :=
  .foldl _ (fun _ d => .foldl _ (fun s c => h d c s) _ _) _ s

theorem Onward.of_signalled {s t : State} (h : Signalled s t) : Onward s t :=
  ⟨h.logged, fun c hc => by rwa [h.gang], fun d => by rw [h.arr]; exact ArrayUnit.onward_refl _, h.str⟩

/-- What leaves the dies and the gang timers alone, and keeps the registers. -/
theorem Onward.of_frame {s t : State} (hlogged : Logged s t)
    (h : t.erase (fun c => decide (c ∉ [Comp.dies, .gang])) = s.erase (fun c => decide (c ∉ [Comp.dies, .gang]))) : Onward s t := by
  have hdies : t.dies = s.dies := by simpa [State.erase] using congrArg State.dies h
  have hgang : t.gang = s.gang := by simpa [State.erase] using congrArg State.gang h
  exact ⟨hlogged, fun c hc => by rwa [hgang], fun d => by rw [die_congr hdies]; exact ArrayUnit.onward_refl _,
    fun d c => by rw [str_congr hdies]; exact Stream.onward_refl _⟩

theorem onward_updStr {s : State} {d : Die} {c : Sid} {f : Stream → Stream} (h : (str s d c).onward (f (str s d c))) :
    Onward s (updStr s d c f) :=
  ⟨logged_of_frame (updStr_frame (by decide) s d c f), fun _ => id, fun e => by rw [arr_updStr]; exact ArrayUnit.onward_refl _,
    str_updStr_onward h⟩

theorem arr_updArr_self (s : State) (d : Die) (f : ArrayUnit → ArrayUnit) : (die (updArr s d f) d).arr = f (die s d).arr := by
  rw [updArr, die_updDie_self]

theorem str_updArr (s : State) (d : Die) (f : ArrayUnit → ArrayUnit) : str (updArr s d f) = str s := by
  funext e c
  by_cases h : e = d
  · subst h; simp only [str, updArr, die_updDie_self]
  · simp only [str, updArr, die_updDie_ne _ _ _ _ h]

theorem onward_updArr {s : State} {d : Die} {f : ArrayUnit → ArrayUnit} (h : (die s d).arr.onward (f (die s d).arr)) :
    Onward s (updArr s d f) := by
  refine ⟨logged_of_frame (updArr_frame (by decide) s d f), fun _ => id, fun e => ?_, fun e c => ?_⟩
  · by_cases he : e = d
    · subst he; rwa [arr_updArr_self]
    · rw [updArr, die_updDie_ne _ _ _ _ he]; exact ArrayUnit.onward_refl _
  · rw [str_updArr]; exact Stream.onward_refl _

theorem onward_updCtx (s : State) (d : Die) (c : Sid) (f : VCtx → VCtx) : Onward s (updCtx s d c f) := by
  have hdie : ∀ e, (die (updCtx s d c f) e).arr = (die s e).arr ∧ (die (updCtx s d c f) e).str = (die s e).str := fun e => by
    by_cases he : e = d
    · subst he; rw [updCtx, die_updDie_self]; exact ⟨rfl, rfl⟩
    · rw [updCtx, die_updDie_ne _ _ _ _ he]; exact ⟨rfl, rfl⟩
  exact ⟨logged_of_frame (updCtx_frame (by decide) s d c f), fun _ => id, fun e => by rw [(hdie e).1]; exact ArrayUnit.onward_refl _,
    fun e k => by rw [str, str, (hdie e).2]; exact Stream.onward_refl _⟩

/-- An operation that runs still runs, and none has started. -/
theorem opRuns_of_onward {s t : State} (h : Onward s t) (d : Die) (c : Sid) : opRuns t d c = opRuns s d c := by
  have hop : ∀ x : Option ArrOp, (x.any fun o => decide (o.c = c)) = (x.map ArrOp.unreset).any fun o => decide (o.c = c) :=
    fun x => by cases x <;> rfl
  rw [opRuns, opRuns, hop, (h.arr d).op, ← hop]

theorem op_eq_none_of_onward {s t : State} (h : Onward s t) {d : Die} (hop : (die s d).arr.op = none) : (die t d).arr.op = none := by
  simpa [hop] using (h.arr d).op

/-! ### Stream reset (R205) -/

theorem onward_withdrawReady (s : State) (d : Die) (c : Sid) : Onward s (withdrawReady s d c) := by
  have harr : Onward s (updArr s d fun a => { a with ready := a.ready.put c none }) :=
    onward_updArr ⟨fun _ => PerStream.get_put_none, rfl, fun q hq => ⟨q, hq, rfl⟩⟩
  refine .ite _ (harr.trans ?_) harr
  exact ⟨.of_eq rfl rfl, fun _ => PerStream.get_put_none, fun _ => ArrayUnit.onward_refl _, fun _ _ => Stream.onward_refl _⟩

theorem dies_withdrawReady (s : State) (d : Die) (c : Sid) :
    (withdrawReady s d c).dies = (updArr s d fun a => { a with ready := a.ready.put c none }).dies := by
  rw [withdrawReady]
  split <;> rfl

theorem ready_withdrawReady (s : State) (d : Die) (c : Sid) : (die (withdrawReady s d c) d).arr.ready.get c = none := by
  rw [die_congr (dies_withdrawReady s d c), arr_updArr_self, PerStream.get_put_self]

theorem onward_endColl (s : State) (k : Coll) : Onward s (endColl s k) :=
  (Onward.of_frame (logged_of_frame (dropColl_frame (by decide) s k)) (dropColl_frame (by decide) s k)).trans <|
    (onward_updStr (by exact ⟨id, id⟩)).trans (.of_signalled (signalled_setObjError _ _ _ _))

theorem onward_resetColls (s : State) (d : Die) (c : Sid) : Onward s (resetColls s d c) :=
  .ite _ (.refl s) <| .foldl _ (fun s k =>
    (Onward.of_frame (logged_collInfo s k _ _ _ _) (collInfo_frame (by decide) s k _ _ _ _)).trans (onward_endColl _ k)) _ s

/-- A reset withdraws the stream's ready, and keeps the rest. -/
theorem resetNow_spec (s : State) (d : Die) (c : Sid) : Onward s (resetNow s d c) ∧ (die (resetNow s d c) d).arr.ready.get c = none := by
  unfold resetNow
  extract_lets left cleared emptied idled
  have hleft : Onward s left := .of_signalled (signalled_withdrawWait s d c)
  have hcleared : Onward (withdrawReady left d c) cleared := onward_updArr (resetArr_onward c _)
  have hafter : Onward (withdrawReady left d c) (resetColls idled d c) :=
    hcleared.trans ((onward_updCtx cleared d c _).trans ((onward_updStr (by exact ⟨id, id⟩)).trans (onward_resetColls idled d c)))
  exact ⟨hleft.trans ((onward_withdrawReady left d c).trans hafter), (hafter.arr d).ready c (ready_withdrawReady left d c)⟩

/-- R91: a reset waits for the boundary of an operation of the stream, and else takes effect at once. -/
theorem streamReset_spec (s : State) (d : Die) (c : Sid) :
    Onward s (streamReset s d c) ∧ (opRuns s d c = false → (die (streamReset s d c) d).arr.ready.get c = none) := by
  unfold streamReset
  split
  next hruns =>
    refine ⟨onward_updArr ⟨fun _ => id, ?_, fun q hq => ⟨q, hq, rfl⟩⟩, fun h => absurd h (by simp [hruns])⟩
    cases (die s d).arr.op <;> rfl
  next hidle =>
    obtain ⟨honward, hready⟩ := resetNow_spec s d c
    exact ⟨honward, fun _ => hready⟩

/-! ### The poison path (R49) -/

theorem onward_enterPoison (s : State) (d : Die) (c : Sid) : Onward s (enterPoison s d c) := by
  rw [enterPoison]
  exact (Onward.ite _ (streamReset_spec s d c).1 (.of_signalled (signalled_withdrawWait s d c))).trans (onward_updStr (by exact ⟨fun _ => rfl, id⟩))

theorem onward_updAttempt (s : State) (att : DWord) (f : Attempt → Attempt) : Onward s (updAttempt s att f) :=
  .of_frame (logged_of_frame (updAttempt_frame (by decide) s att f)) (updAttempt_frame (by decide) s att f)

theorem onward_setPoison (s : State) (att : DWord) : Onward s (setPoison s att) := by
  unfold setPoison
  extract_lets ruled written ended withdrawn
  have hwritten : Onward s written :=
    (onward_updAttempt s att _).trans (.of_frame (logged_writeVerdict _ _ _) (writeVerdict_frame (by decide) _ _ _))
  have hwithdrawn : Onward s withdrawn :=
    hwritten.trans ((Onward.foldl _ onward_endColl _ written).trans (.of_signalled (signalled_withdrawAll ended _)))
  refine hwithdrawn.trans (onward_forStreams _ (fun d c s => ?_) _)
  exact .ite _ (onward_enterPoison s d c) (.refl s)

theorem onward_fastPoison (s : State) (att : DWord) (bit : Nat) (layer : Half) (cd : Byte) : Onward s (fastPoison s att bit layer cd) := by
  have hcause : Onward s (addCause s att bit layer cd) := onward_updAttempt s att _
  unfold fastPoison
  split
  · exact .refl s
  · dsimp only
    split
    · exact .refl s
    · exact hcause
    · refine hcause.trans (.trans ?_ ((onward_updAttempt _ _ _).trans (onward_setPoison _ _)))
      exact .of_frame (logged_broadcast _ _) (broadcast_frame (by decide) _ _)

/-! ### Descriptor faults (R203) -/

theorem onward_arrErr (s : State) (d : Die) (bit : Nat) (c : Sid) (tag : Half) : Onward s (arrErr s d bit c tag) :=
  .of_frame (logged_arrErr s d bit c tag) (arrErr_frame (by decide) s d bit c tag)

theorem arrErr_noted (s : State) (d : Die) (bit : Nat) (c : Sid) (tag : Half) (h : bit < 24) :
    (rsReg (arrErr s d bit c tag) (cdWin d.val + rArrErr)).ev.getLsbD bit = true := rsReg_rsEvent_bit _ _ _ h

theorem stepOver_onward (s : State) (d : Die) (c : Sid) (addr : DWord) : Onward s (stepOver s d c addr) := by
  refine onward_updStr ?_
  split
  · exact ⟨id, id⟩
  · exact Stream.onward_refl _

/-- Stream `c` of die `d` has taken a fault of kind `bit`: it is on the poison path, and CDnn_STR_ERR shows the fault. -/
structure Faulted (d : Die) (c : Sid) (bit : Nat) (t : State) : Prop where
  poison : (str t d c).poison = true
  noted : (rsReg t (cdWin d.val + rStrErr)).ev.getLsbD bit = true

theorem Faulted.onward {d : Die} {c : Sid} {bit : Nat} {s t : State} (h : Faulted d c bit s) (g : Onward s t) : Faulted d c bit t :=
  ⟨(g.str d c).1 h.poison, g.logged.events _ _ h.noted⟩

/-- R203: a fault in a step body outside pass 2 poisons the step. The stream's ready is withdrawn, unless its own operation runs. -/
theorem faultAs_spec {s : State} {d : Die} {c : Sid} {bit : Nat} (typ : Nat) (seq : Half) (addr : DWord) (layer : Half)
    (hp2 : (str s d c).pass2 = false) (hbit : bit < 24) :
    Onward s (faultAs s d c false false bit typ seq addr layer) ∧ Faulted d c bit (faultAs s d c false false bit typ seq addr layer) ∧
      (opRuns s d c = false → (die (faultAs s d c false false bit typ seq addr layer) d).arr.ready.get c = none) := by
  have hfault : ∃ recorded f, Onward s recorded ∧ (rsReg recorded (cdWin d.val + rStrErr)).ev.getLsbD bit = true ∧
      (∀ x, (f x).poison = true ∧ (f x).pass2 = x.pass2) ∧
      faultAs s d c false false bit typ seq addr layer = stepOver (updStr (streamReset recorded d c) d c f) d c addr := by
    simp only [faultAs, hp2, Bool.false_eq_true, if_false, false_and]
    refine ⟨_, _, .trans ?_ ((onward_updStr (by exact ⟨id, id⟩)).trans (onward_fastPoison _ _ _ _ _)), ?_, by exact fun _ => ⟨rfl, rfl⟩, rfl⟩
    · exact .of_frame (logged_recordFault _ _ _ _ _ _ _) (recordFault_frame (by decide) _ _ _ _ _ _ _)
    · refine ((onward_updStr (by exact ⟨id, id⟩)).trans (onward_fastPoison _ _ _ _ _)).logged.events _ _ ?_
      exact rsReg_rsEvent_bit _ _ _ hbit
  obtain ⟨recorded, f, hrecorded, hnoted, hf, heq⟩ := hfault
  obtain ⟨hreset, hready⟩ := streamReset_spec recorded d c
  have hpath : Onward (streamReset recorded d c) (updStr (streamReset recorded d c) d c f) :=
    onward_updStr ⟨fun _ => (hf _).1, fun h => (hf _).2.trans h⟩
  have hover := stepOver_onward (updStr (streamReset recorded d c) d c f) d c addr
  have hafter := hpath.trans hover
  rw [heq]
  refine ⟨hrecorded.trans (hreset.trans hafter), ⟨(hover.str d c).1 ?_, (hreset.trans hafter).logged.events _ _ hnoted⟩, fun h => ?_⟩
  · rw [str_updStr_self]; exact (hf _).1
  · exact (hafter.arr d).ready c (hready ((opRuns_of_onward hrecorded d c).trans h))

/-! ### The same fault on every die -/

/-- Where a step on each die makes its `P d`, keeps the others' and the condition `I` it rests on, the round over the dies makes all. -/
theorem forDies_establishes {f : Die → State → State} {I : State → Prop} {P : Die → State → Prop}
    (hI : ∀ s t, Onward s t → I s → I t) (hP : ∀ d s t, Onward s t → P d s → P d t)
    (hf : ∀ d s, I s → Onward s (f d s) ∧ P d (f d s)) {s : State} (hs : I s) : Onward s (forDies f s) ∧ ∀ d, P d (forDies f s) := by
  have hround : ∀ (l : List Die) (s : State), I s →
      Onward s (l.foldl (fun s d => f d s) s) ∧ ∀ d ∈ l, P d (l.foldl (fun s d => f d s) s) := fun l => by
    induction l with
    | nil => exact fun s _ => ⟨.refl s, nofun⟩
    | cons d l ih =>
      intro s hs
      obtain ⟨hstep, hd⟩ := hf d s hs
      obtain ⟨hrest, hl⟩ := ih _ (hI _ _ hstep hs)
      exact ⟨hstep.trans hrest, List.forall_mem_cons.mpr ⟨hP d _ _ hrest hd, hl⟩⟩
  obtain ⟨honward, hall⟩ := hround allDies s hs
  exact ⟨honward, fun d => hall d (List.mem_finRange d)⟩

end Sys2Proof.Machine
end

section
/-! PROOF. ARRAY issue and the election of the gang: ArrayOperations (O19). -/
namespace Sys2Proof.Machine
open Sys2Proof

/-! ### ARRAY at issue (R86, R183, R193) -/

theorem exec_array {s : State} {d : Die} {c : Sid} {w : BitVec 512} (h : issuing s d c 1 w) :
    exec (.array d c) s = .next (issueNoted s d c w (runArray d c w s)) := by
  obtain ⟨hissue, hmode, hgate⟩ := h
  have hexec : exec (.array d c) s = .next (doArray d c s) := rfl
  have hissue' : atIssue s d c tArray = some w := hissue
  have hmode' : stashTake s d c w = (true, s) := hmode
  rw [hexec, doArray, issueAs]
  simp only [hissue', hmode', hgate, Bool.not_true, Bool.false_eq_true, if_false, if_true]
  rfl

theorem issueNoted_of_pc {s t : State} {d : Die} {c : Sid} (w : BitVec 512) (h : (str t d c).pc = (str s d c).pc) :
    issueNoted s d c w t = t := if_pos h

/-- R86: the stream's ready stands with its tag; the gang timer starts unless it runs. -/
theorem array_ready {s : State} {d : Die} {c : Sid} {w : BitVec 512} (h : issuing s d c 1 w) (hf : formatBad w = false)
    (hi : itemsBad w = false) (hr : arrayRangeOk w = true) (hop : (die s d).arr.op = none) (hu : inUnit (str s d c) .array = 0) :
    ∃ t, exec (.array d c) s = .next t ∧ (die t d).arr = { (die s d).arr with ready := (die s d).arr.ready.put c (some (aTag w)) } ∧
      str t d c = { str s d c with st := .waitGang } ∧ t.gang = s.gang.put c (some ((s.gang.get c).getD s.clk)) ∧
      otherStreams d c s t ∧ (∀ e, e ≠ d → die t e = die s e) ∧ changesOnly [.dies, .gang] s t := by
  have hrun : runArray d c w s =
      { updStr (updArr s d fun a => { a with ready := a.ready.put c (some (aTag w)) }) d c fun x => { x with st := .waitGang } with
        gang := s.gang.put c (some ((s.gang.get c).getD s.clk)) } := by
    have hcond : ¬ ((die s d).arr.op.isSome = true ∨ 1 ≤ inUnit (str s d c) .array) := by simp [hop, hu]
    simp only [runArray, hf, hi, hr, hcond, Bool.not_true, Bool.false_eq_true, if_false]
    rfl
  have hdies : ∀ e, die (runArray d c w s) e = die (updStr (updArr s d fun a => { a with ready := a.ready.put c (some (aTag w)) }) d c
      fun x => { x with st := .waitGang }) e := fun e => by rw [hrun]; rfl
  have hstr : str (runArray d c w s) = str (updStr (updArr s d fun a => { a with ready := a.ready.put c (some (aTag w)) }) d c
      fun x => { x with st := .waitGang }) := by rw [hrun]; rfl
  have hself : str (runArray d c w s) d c = { str s d c with st := .waitGang } := by rw [hstr, str_updStr_self, str_updArr]
  refine ⟨runArray d c w s, ?_, ?_, hself, by rw [hrun], fun e k hek => ?_, fun e he => ?_, ?_⟩
  · rw [exec_array h, issueNoted_of_pc w (by rw [hself])]
  · rw [hdies, arr_updStr, arr_updArr_self]
  · rw [hstr, str_updStr_ne _ _ _ _ _ _ hek, str_updArr]
  · rw [hdies, updStr, die_updDie_ne _ _ _ _ he, updArr, die_updDie_ne _ _ _ _ he]
  · rw [hrun]; simp [changesOnly]

/-- R193: the stream waits while an operation runs or one of its own is in progress. -/
theorem array_waits {s : State} {d : Die} {c : Sid} {w : BitVec 512} (h : issuing s d c 1 w) (hf : formatBad w = false)
    (hi : itemsBad w = false) (hr : arrayRangeOk w = true) (hbusy : (die s d).arr.op ≠ none ∨ 1 ≤ inUnit (str s d c) .array) :
    ∃ t, exec (.array d c) s = .next t ∧ str t d c = { str s d c with st := .waitUnit, fabricWait := false } ∧
      (die t d).arr = (die s d).arr ∧ otherStreams d c s t ∧ changesOnly [.dies] s t := by
  have hrun : runArray d c w s = waitUnit s d c false := by
    have hcond : (die s d).arr.op.isSome = true ∨ 1 ≤ inUnit (str s d c) .array := hbusy.imp_left Option.isSome_iff_ne_none.mpr
    simp [runArray, hf, hi, hr, hcond]
  have hself : str (waitUnit s d c false) d c = { str s d c with st := .waitUnit, fabricWait := false } := str_updStr_self _ _ _ _
  refine ⟨waitUnit s d c false, ?_, hself, arr_updStr _ _ _ _ _, fun e k hek => str_updStr_ne _ _ _ _ _ _ hek, updStr_frame (by decide) _ _ _ _⟩
  rw [exec_array h, hrun, issueNoted_of_pc w (by rw [hself])]

/-- R110, R203: an operation whose formats break the rules faults its stream. -/
theorem array_formatBad {s : State} {d : Die} {c : Sid} {w : BitVec 512} (h : issuing s d c 1 w) (hf : formatBad w = true)
    (hstep : inStep s d c) :
    ∃ t, exec (.array d c) s = .next (issueNoted s d c w t) ∧ (str t d c).poison = true ∧
      (rsReg t (cdWin d.val + rArrErr)).ev.getLsbD 1 = true ∧ (rsReg t (cdWin d.val + rStrErr)).ev.getLsbD 9 = true ∧
      (die t d).arr.op.map ArrOp.unreset = (die s d).arr.op.map ArrOp.unreset := by
  obtain ⟨hprologue, hpoison, hp2⟩ := hstep
  have hstr : str (arrErr s d aeFormat c (aTag w)) = str s :=
    str_congr (changesOnly.dies (ks := [.out, .regs, .rs, .host]) (arrErr_frame (by decide) _ _ _ _ _) (by decide))
  have hrun : runArray d c w s = faultAs (arrErr s d aeFormat c (aTag w)) d c false false fUnit (dType w) (str s d c).expect
      (str s d c).pc (dLayer w) := by
    simp only [runArray, hf, if_true, curFault, descFault, hstr, hprologue, hpoison]
  have hnoted := onward_arrErr s d aeFormat c (aTag w)
  obtain ⟨honward, hfaulted, -⟩ := faultAs_spec (s := arrErr s d aeFormat c (aTag w)) (bit := fUnit) (dType w) (str s d c).expect
    (str s d c).pc (dLayer w) (by rw [hstr]; exact hp2) (by decide)
  refine ⟨_, exec_array h, ?_⟩
  rw [hrun]
  exact ⟨hfaulted.poison, honward.logged.events _ _ (arrErr_noted s d aeFormat c _ (by decide)), hfaulted.noted,
    ((hnoted.trans honward).arr d).op⟩

/-! ### The reference tag (R89) -/

/-- How many dies show tag `t`. -/
def holders (ts : List (Die × Half)) (t : Half) : Nat := (ts.filter fun x => decide (x.2 = t)).length

/-- Tag `t` comes after tag `b` in the choice of R89: fewer dies hold it, or as many and it is not lower. -/
def behindTag (ts : List (Die × Half)) (t b : Half) : Prop := holders ts t < holders ts b ∨ (holders ts t = holders ts b ∧ b.toNat ≤ t.toNat)

theorem behindTag_trans {ts : List (Die × Half)} {a b c : Half} (h : behindTag ts a b) (g : behindTag ts b c) : behindTag ts a c := by
  unfold behindTag at *
  omega

/-- The better of two tags. -/
def betterTag (ts : List (Die × Half)) (b : Half) (y : Die × Half) : Half :=
  if holders ts b < holders ts y.2 ∨ (holders ts b = holders ts y.2 ∧ y.2.toNat < b.toNat) then y.2 else b

theorem refTag_eq_foldl (x : Die × Half) (xs : List (Die × Half)) : refTag (x :: xs) = xs.foldl (betterTag (x :: xs)) x.2 := rfl

theorem betterTag_spec (ts : List (Die × Half)) (b : Half) (y : Die × Half) :
    (betterTag ts b y = b ∨ betterTag ts b y = y.2) ∧ behindTag ts b (betterTag ts b y) ∧ behindTag ts y.2 (betterTag ts b y) := by
  unfold betterTag behindTag
  split
  · exact ⟨.inr rfl, by omega, by omega⟩
  · exact ⟨.inl rfl, by omega, by omega⟩

/-- The best of some tags is one of them, and all others come after it. -/
theorem foldl_betterTag_spec (ts xs : List (Die × Half)) (b : Half) :
    (xs.foldl (betterTag ts) b = b ∨ ∃ x ∈ xs, x.2 = xs.foldl (betterTag ts) b) ∧
      behindTag ts b (xs.foldl (betterTag ts) b) ∧ ∀ x ∈ xs, behindTag ts x.2 (xs.foldl (betterTag ts) b) := by
  induction xs generalizing b with
  | nil => exact ⟨.inl rfl, .inr ⟨rfl, le_refl _⟩, nofun⟩
  | cons y ys ih =>
    obtain ⟨hone, hb, hy⟩ := betterTag_spec ts b y
    obtain ⟨hin, hbest, hall⟩ := ih (betterTag ts b y)
    rw [List.foldl_cons]
    refine ⟨?_, behindTag_trans hb hbest, List.forall_mem_cons.mpr ⟨behindTag_trans hy hbest, hall⟩⟩
    rcases hin with hin | ⟨x, hx, hxe⟩
    · exact hone.imp hin.trans fun h => ⟨y, List.mem_cons_self, (hin.trans h).symm⟩
    · exact .inr ⟨x, List.mem_cons_of_mem _ hx, hxe⟩

/-- R89: the reference tag is one that a die holds, and every tag held comes after it. -/
theorem refTag_spec {ts : List (Die × Half)} (h : ts ≠ []) : (∃ x ∈ ts, x.2 = refTag ts) ∧ ∀ x ∈ ts, behindTag ts x.2 (refTag ts) := by
  cases ts with
  | nil => exact absurd rfl h
  | cons x xs =>
    obtain ⟨hin, hfirst, hall⟩ := foldl_betterTag_spec (x :: xs) xs x.2
    rw [← refTag_eq_foldl] at hin hfirst hall
    refine ⟨?_, List.forall_mem_cons.mpr ⟨hfirst, hall⟩⟩
    rcases hin with hin | ⟨y, hy, hye⟩
    · exact ⟨x, List.mem_cons_self, hin.symm⟩
    · exact ⟨y, List.mem_cons_of_mem _ hy, hye⟩

/-! ### A gang that fails (R89, R90) -/

/-- The fault of one die is one of a step body, where the stream stood in one when the gang failed. -/
theorem gangFaultDie_eq {s0 : State} {c : Sid} {d : Die} (tag : Half) (s : State) (h : inStep s0 d c) :
    ∃ typ seq addr layer, gangFaultDie s0 c tag d s = faultAs (arrErr s d aeGang c tag) d c false false fUnit typ seq addr layer := by
  obtain ⟨hprologue, hpoison, -⟩ := h
  simp only [gangFaultDie, hprologue, hpoison]
  exact ⟨_, _, _, _, rfl⟩

/-- A gang that fails has faulted the stream on die `d` and withdrawn its ready there. -/
structure GangFailed (c : Sid) (d : Die) (t : State) : Prop where
  faulted : Faulted d c fUnit t
  ready : (die t d).arr.ready.get c = none
  noted : (rsReg t (cdWin d.val + rArrErr)).ev.getLsbD aeGang = true

theorem GangFailed.onward {c : Sid} {d : Die} {s t : State} (h : GangFailed c d s) (g : Onward s t) : GangFailed c d t :=
  ⟨h.faulted.onward g, (g.arr d).ready c h.ready, g.logged.events _ _ h.noted⟩

/-- A stream outside pass 2 whose ready its own operation does not hold up. -/
def gangOpen (c : Sid) (t : State) (d : Die) : Prop := (str t d c).pass2 = false ∧ ((die t d).arr.ready.get c = none ∨ opRuns t d c = false)

theorem gangOpen_of_onward {c : Sid} {s t : State} {d : Die} (h : Onward s t) (g : gangOpen c s d) : gangOpen c t d :=
  ⟨(h.str d c).2 g.1, g.2.imp ((h.arr d).ready c) (opRuns_of_onward h d c).trans⟩

theorem gangFaultDie_spec {s0 s : State} {c : Sid} {d : Die} (tag : Half) (h0 : inStep s0 d c) (hopen : gangOpen c s d) :
    Onward s (gangFaultDie s0 c tag d s) ∧ GangFailed c d (gangFaultDie s0 c tag d s) := by
  have herr := onward_arrErr s d aeGang c tag
  obtain ⟨hp2, hready⟩ := gangOpen_of_onward herr hopen
  obtain ⟨typ, seq, addr, layer, heq⟩ := gangFaultDie_eq tag s h0
  obtain ⟨hfault, hfaulted, hwithdrawn⟩ := faultAs_spec (bit := fUnit) typ seq addr layer hp2 (by decide)
  rw [heq]
  exact ⟨herr.trans hfault, hfaulted, hready.elim ((hfault.arr d).ready c) hwithdrawn,
    hfault.logged.events _ _ (arrErr_noted s d aeGang c tag (by decide))⟩

/-- A gang error: the Armature records it, the stream's gang timer stops, and the stream faults on every die. -/
theorem gangFault_spec {s : State} (c : Sid) {bit : Nat} (mask : Nat) (tag : Half) (hbit : bit < 24) (hstep : ∀ d, inStep s d c)
    (hopen : ∀ d, gangOpen c s d) :
    Onward s (gangFault s c bit mask tag) ∧ (rsReg (gangFault s c bit mask tag) rArmErr).ev.getLsbD bit = true ∧
      (gangFault s c bit mask tag).gang.get c = none ∧ ∀ d, GangFailed c d (gangFault s c bit mask tag) := by
  unfold gangFault
  extract_lets named tagged recorded stopped
  have hframe : changesOnly [.regs, .out, .rs, .host, .gang] s stopped := by simp [changesOnly, stopped, recorded, tagged, named]
  have hrecorded : Onward s recorded :=
    .of_frame ((logged_setReg _ (by decide)).trans ((logged_setReg _ (by decide)).trans (logged_rsEvent _ _ _))) (by simp [recorded, tagged, named])
  have hstopped : Onward s stopped :=
    hrecorded.trans ⟨.of_eq rfl rfl, fun _ => PerStream.get_put_none, fun _ => ArrayUnit.onward_refl _, fun _ _ => Stream.onward_refl _⟩
  have hstr : str stopped = str s := str_congr (hframe.dies (by decide))
  have htimer : stopped.gang.get c = none := PerStream.get_put_self _ _ _
  have hnoted : (rsReg stopped rArmErr).ev.getLsbD bit = true := rsReg_rsEvent_bit tagged rArmErr bit hbit
  obtain ⟨honward, hall⟩ := forDies_establishes (f := gangFaultDie stopped c tag) (I := fun t => ∀ d, gangOpen c t d) (P := GangFailed c)
    (fun _ _ h hI d => gangOpen_of_onward h (hI d)) (fun _ _ _ h hP => hP.onward h)
    (fun d u hu => gangFaultDie_spec tag (by rw [inStep, hstr]; exact hstep d) (hu d))
    (s := stopped) fun d => gangOpen_of_onward hstopped (hopen d)
  exact ⟨hstopped.trans honward, honward.logged.events _ _ hnoted, honward.gang c htimer, hall⟩

/-! ### The operation of one die runs on (R103) -/

/-- What an operation is of: its stream, its descriptor and its number of items. -/
def ArrOp.plan (o : ArrOp) : Sid × BitVec 512 × Nat := (o.c, o.desc, o.ends)

/-- The array of die `d` has worked on its operation: no other array and no stream changes, and the operation is the same. -/
structure OpRan (d : Die) (s t : State) : Prop where
  logged : Logged s t
  gang : t.gang = s.gang
  str : Machine.str t = Machine.str s
  objs : getObj t = getObj s
  others : ∀ e, e ≠ d → (die t e).arr = (die s e).arr
  ready : (die t d).arr.ready = (die s d).arr.ready
  op : (die t d).arr.op.map ArrOp.plan = (die s d).arr.op.map ArrOp.plan

theorem OpRan.refl (d : Die) (s : State) : OpRan d s s := ⟨.refl s, rfl, rfl, rfl, fun _ _ => rfl, rfl, rfl⟩

theorem OpRan.trans {d : Die} {s t u : State} (h : OpRan d s t) (g : OpRan d t u) : OpRan d s u :=
  ⟨h.logged.trans g.logged, g.gang.trans h.gang, g.str.trans h.str, g.objs.trans h.objs, fun e he => (g.others e he).trans (h.others e he),
    g.ready.trans h.ready, g.op.trans h.op⟩

theorem OpRan.ite {d : Die} {s a b : State} (c : Prop) [Decidable c] (ha : OpRan d s a) (hb : OpRan d s b) : OpRan d s (if c then a else b) := by
  split <;> assumption

theorem OpRan.foldl {α : Type} {d : Die} (f : State → α → State) (h : ∀ s x, OpRan d s (f s x)) (l : List α) (s : State) :
    OpRan d s (l.foldl f s) := by
  induction l generalizing s with
  | nil => exact .refl d s
  | cons x l ih => exact (h s x).trans (ih _)

theorem OpRan.of_frame {d : Die} {s t : State} (hlogged : Logged s t)
    (h : t.erase (fun c => decide (c ∉ [Comp.sync, .dies, .gang])) = s.erase (fun c => decide (c ∉ [Comp.sync, .dies, .gang]))) :
    OpRan d s t := by
  have hsync : t.sync = s.sync := by simpa [State.erase] using congrArg State.sync h
  have hdies : t.dies = s.dies := by simpa [State.erase] using congrArg State.dies h
  have hgang : t.gang = s.gang := by simpa [State.erase] using congrArg State.gang h
  exact ⟨hlogged, hgang, str_congr hdies, getObj_congr hsync hdies, fun e _ => by rw [die_congr hdies], by rw [die_congr hdies],
    by rw [die_congr hdies]⟩

/-- A change of die `d` that leaves its streams, objects, readies and operation alone. -/
theorem opRan_updDie {s : State} {d : Die} {f : DieState → DieState} (hstr : ∀ x, (f x).str = x.str) (hobjs : ∀ x, (f x).objs = x.objs)
    (hgen : ∀ x, (f x).objGen = x.objGen) (hready : (f (die s d)).arr.ready = (die s d).arr.ready)
    (hop : (f (die s d)).arr.op.map ArrOp.plan = (die s d).arr.op.map ArrOp.plan) : OpRan d s (updDie s d f) := by
  refine ⟨logged_of_frame (updDie_frame (by decide) s d f), rfl, ?_, getObj_updDie s d f hobjs hgen,
    fun e he => by rw [die_updDie_ne _ _ _ _ he], by rw [die_updDie_self, hready], by rw [die_updDie_self, hop]⟩
  funext e c
  by_cases he : e = d
  · subst he; rw [str, str, die_updDie_self, hstr]
  · rw [str, str, die_updDie_ne _ _ _ _ he]

theorem opRan_updArr {s : State} {d : Die} {f : ArrayUnit → ArrayUnit} (hready : (f (die s d).arr).ready = (die s d).arr.ready)
    (hop : (f (die s d).arr).op.map ArrOp.plan = (die s d).arr.op.map ArrOp.plan) : OpRan d s (updArr s d f) :=
  opRan_updDie (fun _ => rfl) (fun _ => rfl) (fun _ => rfl) hready hop

theorem opRan_tsEvent (s : State) (d : Die) (bit off port : Nat) : OpRan d s (tsEvent s d bit off port) :=
  .of_frame (logged_tsEvent s d bit off port) (tsEvent_frame (by decide) s d bit off port)

theorem opRan_tsRead (s : State) (d : Die) (off len port : Nat) : OpRan d s (tsRead s d off len port).2 := by
  refine (OpRan.foldl _ (fun s _ => opRan_tsEvent s d _ _ _) _ s).trans (OpRan.foldl _ (fun s _ => ?_) _ _)
  refine (OpRan.of_frame (logged_addReg64 1 (besideGrants_cdWin d.val rTsCe)) (addReg64_frame (by decide) s _ _)).trans (.trans ?_ (opRan_tsEvent _ d _ _ _))
  exact opRan_updDie (fun _ => rfl) (fun _ => rfl) (fun _ => rfl) rfl rfl

theorem loadStationary_ready_op (ts : SMap Byte) (w : BitVec 512) (i : Item) (a : ArrayUnit) :
    (loadStationary ts w i a).ready = a.ready ∧ (loadStationary ts w i a).op = a.op := by
  unfold loadStationary
  generalize itemVisits w i = vs
  induction vs generalizing a with
  | nil => exact ⟨rfl, rfl⟩
  | cons v vs ih => exact ih _

theorem opRan_computeItem {s : State} {d : Die} {o : ArrOp} (h : (die s d).arr.op.map ArrOp.plan = some o.plan) : OpRan d s (computeItem s d o) := by
  unfold computeItem
  extract_lets i spans ue ts read noted counted t
  have hread : OpRan d s read := .foldl _ (fun s _ => opRan_tsRead s d _ _ _) _ s
  have hnoted : OpRan d s noted := .ite _ (hread.trans (.of_frame (logged_arrErr _ _ _ _ _) (arrErr_frame (by decide) _ _ _ _ _))) hread
  have hcounted : OpRan d s counted := hnoted.trans (.of_frame (logged_addReg64 _ (besideGrants_cdWin d.val rArrVisits)) (addReg64_frame (by decide) _ _ _))
  refine hcounted.trans (opRan_updArr ?_ ?_)
  · exact (loadStationary_ready_op _ _ _ _).1
  · rw [hcounted.op, h]; rfl

theorem opRan_runItems (fuel : Nat) (d : Die) (s : State) : OpRan d s (runItems fuel d s) := by
  induction fuel generalizing s with
  | zero => exact .refl d s
  | succ fuel ih =>
    simp only [runItems]
    split
    · exact .refl d s
    next o ho =>
      refine .ite _ (.refl d s) (.ite _ ?_ ?_)
      · split
        · exact (opRan_updArr (by exact rfl) (by exact rfl)).trans (ih _)
        · exact opRan_updArr rfl rfl
      · refine (opRan_updArr (by exact rfl) (by exact rfl)).trans ((opRan_computeItem ?_).trans (ih _))
        rw [arr_updArr_self, ho]; rfl

theorem opRan_runOp (d : Die) (s : State) : OpRan d s (runOp d s) := by
  unfold runOp
  split
  · exact .refl d s
  · exact opRan_runItems _ d s

/-! ### The grant (R87, R88) -/

/-- Operations of stream `c` have started on dies of `P` alone: no other array has changed, nor stream `c` elsewhere where no die's waits. -/
structure StartedOn (P : Die → Prop) (c : Sid) (s t : State) : Prop where
  logged : Logged s t
  gang : t.gang = s.gang
  arr : ∀ e, ¬ P e → (die t e).arr = (die s e).arr
  waits : (∀ e, notWaiting s e c) → (∀ e, notWaiting t e c) ∧ ∀ e, ¬ P e → str t e c = str s e c

theorem StartedOn.refl (P : Die → Prop) (c : Sid) (s : State) : StartedOn P c s s := ⟨.refl s, rfl, fun _ _ => rfl, fun h => ⟨h, fun _ _ => rfl⟩⟩

theorem StartedOn.trans {P : Die → Prop} {c : Sid} {s t u : State} (h : StartedOn P c s t) (g : StartedOn P c t u) : StartedOn P c s u where
  logged := h.logged.trans g.logged
  gang := g.gang.trans h.gang
  arr e he := (g.arr e he).trans (h.arr e he)
  waits hn := by
    obtain ⟨ht, hstr⟩ := h.waits hn
    obtain ⟨hu, hstr'⟩ := g.waits ht
    exact ⟨hu, fun e he => (hstr' e he).trans (hstr e he)⟩

theorem StartedOn.mono {P Q : Die → Prop} {c : Sid} {s t : State} (h : StartedOn P c s t) (hPQ : ∀ e, P e → Q e) : StartedOn Q c s t :=
  ⟨h.logged, h.gang, fun e he => h.arr e (he ∘ hPQ e), fun hn => (h.waits hn).imp id fun hstr e he => hstr e (he ∘ hPQ e)⟩

theorem StartedOn.of_signalled {P : Die → Prop} {c : Sid} {s t : State} (h : Signalled s t) : StartedOn P c s t :=
  ⟨h.logged, h.gang, fun e _ => h.arr e, fun hn => ⟨fun e => (h.bystander e c (hn e)).2, fun e _ => (h.bystander e c (hn e)).1⟩⟩

theorem StartedOn.of_waitEnded {d : Die} {c : Sid} {s t : State} (h : WaitEnded d c s t) : StartedOn (· = d) c s t :=
  ⟨h.logged, h.gang, fun e _ => h.arr e, fun hn => ⟨fun e => notWaiting_congr h.objs (hn e), fun e he => h.others e c (.inl he)⟩⟩

theorem StartedOn.of_opRan {d : Die} {c : Sid} {s t : State} (h : OpRan d s t) : StartedOn (· = d) c s t :=
  ⟨h.logged, h.gang, h.others, fun hn => ⟨fun e => notWaiting_congr h.objs (hn e), fun e _ => by rw [h.str]⟩⟩

theorem startedOn_updArr (s : State) (d : Die) (c : Sid) (f : ArrayUnit → ArrayUnit) : StartedOn (· = d) c s (updArr s d f) where
  logged := logged_of_frame (updArr_frame (by decide) s d f)
  gang := rfl
  arr e he := by rw [updArr, die_updDie_ne _ _ _ _ he]
  waits hn := ⟨fun e => notWaiting_congr (getObj_updDie s d _ (fun _ => rfl) fun _ => rfl) (hn e), fun e _ => by rw [str_updArr]⟩

/-- The grant as die `d` takes it, from `s` to `t`: its ready has ended, and it runs the operation of its descriptor, if that has items. -/
structure Granted (c : Sid) (d : Die) (s t : State) : Prop where
  ready : (die t d).arr.ready.get c = none
  runs : ∀ w, (str s d c).cur = some w → aItemCount w ≠ 0 →
    (∃ o, (die t d).arr.op = some o ∧ o.desc = w ∧ o.c = c ∧ o.ends = aItemCount w) ∧ ∃ e ∈ (str t d c).inflight, e.unit = .array ∧ e.desc = w
  idle : ∀ w, (str s d c).cur = some w → aItemCount w = 0 → (die t d).arr.op = none ∧ (die t d).arr.acc = (die s d).arr.acc

theorem Granted.congr {c : Sid} {d : Die} {s s' t t' : State} (h : Granted c d s t) (hs : str s' d c = str s d c)
    (hacc : (die s' d).arr.acc = (die s d).arr.acc) (ht : str t' d c = str t d c) (harr : (die t' d).arr = (die t d).arr) : Granted c d s' t' := by
  obtain ⟨hready, hruns, hidle⟩ := h
  constructor <;> simp only [hs, hacc, ht, harr] <;> assumption

/-- An operation as the grant starts it. -/
def ArrOp.begin (c : Sid) (w : BitVec 512) (id : Nat) : ArrOp := { c := c, desc := w, id := id, next := 0, ends := aItemCount w, poison := false }

/-- Die `d` once the grant has ended its ready for stream `c`, whose descriptor CDnn_ARR_STAT shows. -/
def grantShown (c : Sid) (d : Die) (w : BitVec 512) (s : State) : State :=
  showArr (updArr s d fun a => { a with ready := a.ready.put c none }) d w c

theorem startOp_noItems {s : State} {c : Sid} {d : Die} {w : BitVec 512} (hw : (str s d c).cur = some w) (h : aItemCount w = 0) :
    startOp c d s = signals (issued (grantShown c d w s) d c) (doneSig d c (str s d c) w) := by
  simp only [startOp, hw, if_pos h]
  rfl

theorem startOp_items {s : State} {c : Sid} {d : Die} {w : BitVec 512} (hw : (str s d c).cur = some w) (h : aItemCount w ≠ 0) :
    startOp c d s = runOp d (updArr (startDesc (grantShown c d w s) d c (entryOf (str s d c) .array w)) d fun a =>
      { a with op := some (ArrOp.begin c w (str s d c).nextId) }) := by
  simp only [startOp, hw, if_neg h]
  rfl

theorem grantShown_spec (c : Sid) (d : Die) (w : BitVec 512) (s : State) :
    StartedOn (· = d) c s (grantShown c d w s) ∧
      (die (grantShown c d w s) d).arr = { (die s d).arr with ready := (die s d).arr.ready.put c none } := by
  have hshow : ∀ s, WaitEnded d c s (showArr s d w c) := fun s =>
    .of_frame (logged_setReg _ (besideGrants_cdWin d.val rArrStat)) (showArr_frame (by decide) s d w c)
  exact ⟨(startedOn_updArr s d c _).trans (.of_waitEnded (hshow _)), ((hshow _).arr d).trans (arr_updArr_self _ _ _)⟩

/-- The grant on one die. -/
theorem startOp_spec {s : State} {c : Sid} {d : Die} (hcur : (str s d c).cur ≠ none) (hop : (die s d).arr.op = none) :
    StartedOn (· = d) c s (startOp c d s) ∧ Granted c d s (startOp c d s) := by
  obtain ⟨w, hw⟩ := Option.ne_none_iff_exists'.mp hcur
  have hword : ∀ {v}, (str s d c).cur = some v → w = v := fun hv => Option.some.inj (hw.symm.trans hv)
  obtain ⟨hshown, harr⟩ := grantShown_spec c d w s
  by_cases hzero : aItemCount w = 0
  · have hissued := waitEnded_issued (grantShown c d w s) d c
    have hsig := signalled_signals (issued (grantShown c d w s) d c) (doneSig d c (str s d c) w)
    have harr' := (hsig.arr d).trans ((hissued.arr d).trans harr)
    rw [startOp_noItems hw hzero]
    refine ⟨hshown.trans ((StartedOn.of_waitEnded hissued).trans (.of_signalled hsig)), ?_, fun v hv hne => ?_, fun v _ _ => ?_⟩
    · rw [harr']; exact PerStream.get_put_self _ _ _
    · exact absurd (hword hv ▸ hzero) hne
    · rw [harr']; exact ⟨hop, rfl⟩
  · rw [startOp_items hw hzero]
    generalize hbegun : startDesc (grantShown c d w s) d c (entryOf (str s d c) .array w) = begun
    have hbegin : WaitEnded d c (grantShown c d w s) begun :=
      hbegun ▸ (waitEnded_issued _ d c).trans (waitEnded_updStr (by exact ⟨id, id⟩))
    have hentry : entryOf (str s d c) .array w ∈ (str begun d c).inflight := by
      rw [← hbegun, startDesc, str_updStr_self]; exact List.mem_append_right _ List.mem_cons_self
    generalize hplaced : updArr begun d (fun a => { a with op := some (ArrOp.begin c w (str s d c).nextId) }) = placed
    have harrplaced : (die placed d).arr = { (die begun d).arr with op := some (ArrOp.begin c w (str s d c).nextId) } := by
      rw [← hplaced, arr_updArr_self]
    have hran := opRan_runOp d placed
    have hplace : StartedOn (· = d) c begun placed := hplaced ▸ startedOn_updArr begun d c _
    refine ⟨hshown.trans ((StartedOn.of_waitEnded hbegin).trans (hplace.trans (.of_opRan hran))), ?_, fun v hv _ => ?_, fun v hv hidle => ?_⟩
    · rw [hran.ready, harrplaced, hbegin.arr, harr]; exact PerStream.get_put_self _ _ _
    · obtain rfl := hword hv
      have hplan := hran.op
      rw [harrplaced] at hplan
      obtain ⟨o, ho, hplan⟩ := Option.map_eq_some_iff.mp hplan
      simp only [ArrOp.plan, Prod.mk.injEq] at hplan
      obtain ⟨hc, hdesc, hends⟩ := hplan
      refine ⟨⟨o, ho, hdesc, hc, hends⟩, entryOf (str s d c) .array w, ?_, rfl, rfl⟩
      rw [hran.str, ← hplaced, str_updArr]; exact hentry
    · exact absurd (hword hv ▸ hidle) hzero

/-- The grant on some dies, each once. -/
theorem foldl_startOp_spec {c : Sid} (l : List Die) (hl : l.Nodup) (s : State) (hcur : ∀ d ∈ l, (str s d c).cur ≠ none)
    (hop : ∀ d ∈ l, (die s d).arr.op = none) (hwait : ∀ d, notWaiting s d c) :
    StartedOn (· ∈ l) c s (l.foldl (fun s d => startOp c d s) s) ∧ ∀ d ∈ l, Granted c d s (l.foldl (fun s d => startOp c d s) s) := by
  induction l generalizing s with
  | nil => exact ⟨.refl _ c s, nofun⟩
  | cons d l ih =>
    obtain ⟨hd, hl⟩ := List.nodup_cons.mp hl
    obtain ⟨hfirst, hgranted⟩ := startOp_spec (hcur d List.mem_cons_self) (hop d List.mem_cons_self)
    obtain ⟨hwait', hstr⟩ := hfirst.waits hwait
    have hne : ∀ e ∈ l, e ≠ d := fun e he h => hd (h ▸ he)
    obtain ⟨hrest, hall⟩ := ih hl (startOp c d s) (fun e he => by rw [hstr e (hne e he)]; exact hcur e (List.mem_cons_of_mem _ he))
      (fun e he => by rw [hfirst.arr e (hne e he)]; exact hop e (List.mem_cons_of_mem _ he)) hwait'
    refine ⟨(hfirst.mono fun e he => he ▸ List.mem_cons_self).trans (hrest.mono fun e he => List.mem_cons_of_mem _ he),
      List.forall_mem_cons.mpr ⟨?_, fun e he => ?_⟩⟩
    · exact hgranted.congr rfl rfl ((hrest.waits hwait').2 d hd) (hrest.arr d hd)
    · exact (hall e he).congr (hstr e (hne e he)).symm (by rw [hfirst.arr e (hne e he)]) rfl rfl

theorem op_eq_none_of_allReady {s : State} {c : Sid} (h : allReady s c = true) (d : Die) : (die s d).arr.op = none := by
  have hd := List.all_eq_true.mp h d (List.mem_finRange d)
  simp only [Bool.and_eq_true, Option.isNone_iff_eq_none] at hd
  exact hd.2

/-- A tag that stands on some die is one of the tags that the dies show. -/
theorem mem_tagsOf {s : State} {c : Sid} {x : Die × Half} : x ∈ tagsOf s c ↔ (die s x.1).arr.ready.get c = some x.2 := by
  simp only [tagsOf, List.mem_filterMap, Option.map_eq_some_iff]
  constructor
  · rintro ⟨d, -, g, hg, rfl⟩; exact hg
  · exact fun h => ⟨x.1, List.mem_finRange _, x.2, h, rfl⟩

/-- R88: equal tags are granted. -/
theorem gangGrant_granted {s : State} {c : Sid} {g : Half} (hwhole : gangWhole s = true) (hfind : (armOrder s).find? (allReady s) = some c)
    (htag : ∀ d, (die s d).arr.ready.get c = some g) (hcur : ∀ d, (str s d c).cur ≠ none) (hwait : ∀ d, notWaiting s d c) :
    ∃ t, exec .gangGrant s = .next t ∧ t.gang = s.gang.put c none ∧ reg64 t rArmGrants = reg64 s rArmGrants + 1 ∧ ∀ d, Granted c d s t := by
  have hall : allReady s c = true := List.find?_some hfind
  have htags : ∀ x ∈ tagsOf s c, x.2 = g := fun x hx => Option.some.inj ((mem_tagsOf.mp hx).symm.trans (htag x.1))
  have hne : tagsOf s c ≠ [] := List.ne_nil_of_mem (mem_tagsOf.mpr (htag 0) : ((0 : Die), g) ∈ tagsOf s c)
  have href : refTag (tagsOf s c) = g := by
    obtain ⟨x, hx, hxe⟩ := (refTag_spec hne).1
    exact hxe.symm.trans (htags x hx)
  have hequal : ((tagsOf s c).all fun x => decide (x.2 = refTag (tagsOf s c))) = true :=
    List.all_eq_true.mpr fun x hx => decide_eq_true ((htags x hx).trans href.symm)
  let elected : State := setReg (addReg64 { s with gang := s.gang.put c none } rArmGrants 1) rArmStat (w32 (sidNat c * 2 ^ 29))
  have hexec : exec .gangGrant s = .next (forDies (startOp c) elected) := by
    have : exec .gangGrant s = .next (doGangGrant s) := rfl
    rw [this, doGangGrant]
    simp only [hwhole, hfind, hequal, Bool.not_true, Bool.false_eq_true, if_false, if_true]
    rfl
  have hframe : changesOnly [.regs, .gang] s elected := by simp [changesOnly, elected]
  have hdies : elected.dies = s.dies := hframe.dies (by decide)
  have hobjs : getObj elected = getObj s := getObj_congr (hframe.sync (by decide)) hdies
  obtain ⟨hstarted, hgranted⟩ := foldl_startOp_spec allDies (List.nodup_finRange _) elected (fun d _ => by rw [str_congr hdies]; exact hcur d)
    (fun d _ => by rw [die_congr hdies]; exact op_eq_none_of_allReady hall d) fun d => notWaiting_congr hobjs (hwait d)
  refine ⟨_, hexec, hstarted.gang, ?_, fun d => ?_⟩
  · have hstat : reg64 elected rArmGrants = reg64 (addReg64 { s with gang := s.gang.put c none } rArmGrants 1) rArmGrants :=
      (logged_setReg _ (by decide)).grants
    exact (hstarted.logged.grants.trans hstat).trans (reg64_setReg64_self _ _ _)
  · exact (hgranted d (List.mem_finRange d)).congr (by rw [str_congr hdies]) (by rw [die_congr hdies]) rfl rfl

/-- R89: unequal tags fault the stream on every die. -/
theorem gangGrant_mismatch {s : State} {c : Sid} (hwhole : gangWhole s = true) (hfind : (armOrder s).find? (allReady s) = some c)
    (htags : ∃ d e, (die s d).arr.ready.get c ≠ (die s e).arr.ready.get c) (hstep : ∀ d, inStep s d c) :
    ∃ t, exec .gangGrant s = .next t ∧ (rsReg t rArmErr).ev.getLsbD 0 = true ∧ reg64 t rArmGrants = reg64 s rArmGrants ∧
      t.gang.get c = none ∧ ∀ d, GangFailed c d t ∧ (die t d).arr.op = none := by
  have hall : allReady s c = true := List.find?_some hfind
  have hop := op_eq_none_of_allReady hall
  have hunequal : ((tagsOf s c).all fun x => decide (x.2 = refTag (tagsOf s c))) = false := by
    refine Bool.eq_false_iff.mpr fun h => ?_
    have hevery : ∀ d, (die s d).arr.ready.get c = some (refTag (tagsOf s c)) := fun d => by
      have hd := List.all_eq_true.mp hall d (List.mem_finRange d)
      simp only [Bool.and_eq_true, Option.isSome_iff_exists] at hd
      obtain ⟨⟨g, hg⟩, -⟩ := hd
      have := of_decide_eq_true (List.all_eq_true.mp h (d, g) (mem_tagsOf.mpr hg))
      exact hg.trans (congrArg some this)
    obtain ⟨d, e, hde⟩ := htags
    exact hde ((hevery d).trans (hevery e).symm)
  have hexec : exec .gangGrant s = .next (gangFault s c 0
      (dieMask fun d => (tagsOf s c).any fun x => decide (x.1 = d) && decide (x.2 ≠ refTag (tagsOf s c))) (refTag (tagsOf s c))) := by
    have : exec .gangGrant s = .next (doGangGrant s) := rfl
    rw [this, doGangGrant]
    simp only [hwhole, hfind, hunequal, Bool.not_true, Bool.false_eq_true, if_false]
  have hopen : ∀ d, gangOpen c s d := fun d => ⟨(hstep d).2.2, .inr (by rw [opRuns, hop d]; rfl)⟩
  obtain ⟨honward, hnoted, htimer, hfailed⟩ := gangFault_spec c _ (refTag (tagsOf s c)) (by decide : 0 < 24) hstep hopen
  exact ⟨_, hexec, hnoted, honward.logged.grants, htimer, fun d => ⟨hfailed d, op_eq_none_of_onward honward (hop d)⟩⟩

/-! ### The gang timer (R90) -/

/-- What an election looks at: the streams, and each array's readies and operation. -/
def gangView (s : State) : (Die → Sid → Stream) × (Die → PerStream (Option Half) × Option ArrOp) :=
  (str s, fun d => ((die s d).arr.ready, (die s d).arr.op))

theorem gangView_of_dies {s t : State} (h : t.dies = s.dies) : gangView t = gangView s := by
  rw [gangView, gangView, str_congr h, die_congr h]

theorem gangView_countHold (n : Nat) (d : Die) (s : State) : gangView (countHold n d s) = gangView s := by
  have hheld : ∀ n, gangView (updArr s d fun a => { a with holdAcc := n }) = gangView s := fun n => by
    refine Prod.ext (str_updArr s d _) (funext fun e => ?_)
    by_cases he : e = d
    · subst he; simp only [gangView, arr_updArr_self]
    · simp only [gangView, updArr, die_updDie_ne _ _ _ _ he]
  unfold countHold
  dsimp only
  split
  · have hcounted : ∀ (s : State) o p n m, changesOnly [.regs] s (addReg64 (addReg64 s o n) p m) := fun s o p n m => by simp [changesOnly]
    exact (gangView_of_dies ((hcounted _ _ _ _ _).dies (by decide))).trans (hheld _)
  · rfl

/-- Time that passes changes nothing that an election looks at. -/
theorem gangView_advanceTo (n : Nat) (s : State) : gangView (advanceTo n s) = gangView s := by
  unfold advanceTo
  split
  · unfold advance
    generalize n - s.clk = k
    extract_lets waited armed held throttled
    have harmed : changesOnly [.regs] s (forDies (countThrottle k) armed) := by simp [changesOnly, armed, waited]
    have hheld : gangView held = gangView (forDies (countThrottle k) armed) :=
      List.foldlRecOn (motive := fun t => gangView t = gangView (forDies (countThrottle k) armed)) allDies _ rfl
        fun t ht d _ => (gangView_countHold k d t).trans ht
    have hslewed : changesOnly [.regs, .clk, .tb, .tbs] held (slewed k { throttled with clk := throttled.clk + k }) := by
      simp [changesOnly, throttled]
    exact (gangView_of_dies (hslewed.dies (by decide))).trans (hheld.trans (gangView_of_dies (harmed.dies (by decide))))
  · rfl

theorem inStep_congr {s t : State} (h : gangView t = gangView s) {d : Die} {c : Sid} (hs : inStep s d c) : inStep t d c := by
  have hstr : str t = str s := congrArg Prod.fst h
  rwa [inStep, hstr]

theorem gangOpen_congr {s t : State} (h : gangView t = gangView s) {d : Die} {c : Sid} (hs : gangOpen c s d) : gangOpen c t d := by
  have hstr : str t = str s := congrArg Prod.fst h
  have harr : ((die t d).arr.ready, (die t d).arr.op) = ((die s d).arr.ready, (die s d).arr.op) := congrFun (congrArg Prod.snd h) d
  obtain ⟨hready, hop⟩ := Prod.mk.inj harr
  unfold gangOpen opRuns at *
  rwa [hstr, hready, hop]

/-- R90: a gang timer that expires faults the stream on every die. -/
theorem gangTimeout_expires {s : State} {c : Sid} {t0 : Nat} (htimer : s.gang.get c = some t0) (hus : (reg s rArmTimeout).toNat ≠ 0)
    (hready : allReady s c = false) (hstep : ∀ d, inStep s d c)
    (hidle : ∀ d, ((die s d).arr.ready.get c).isSome = true → opRuns s d c = false) :
    ∃ t, exec (.gangTimeout c) s = .next t ∧ t.clk = max s.clk (t0 + (reg s rArmTimeout).toNat * 1000) ∧
      (rsReg t rArmErr).ev.getLsbD 1 = true ∧ t.gang.get c = none ∧ ∀ d, GangFailed c d t := by
  generalize hlate : advanceTo (t0 + (reg s rArmTimeout).toNat * 1000) s = late
  have hview : gangView late = gangView s := hlate ▸ gangView_advanceTo _ s
  have hclk : late.clk = max s.clk (t0 + (reg s rArmTimeout).toNat * 1000) := hlate ▸ clk_advanceTo _ s
  have hexec : exec (.gangTimeout c) s = .next (gangFault late c 1 (dieMask fun d => ((die late d).arr.ready.get c).isNone) (refTag (tagsOf late c))) := by
    have : exec (.gangTimeout c) s = .next (doGangTimeout c s) := rfl
    rw [this, doGangTimeout]
    simp only [htimer, hus, hready, Bool.false_eq_true, or_self, if_false, hlate]
  have hopen : ∀ d, gangOpen c late d := fun d => gangOpen_congr hview ⟨(hstep d).2.2, by
    cases hd : (die s d).arr.ready.get c with
    | none => exact .inl rfl
    | some g => exact .inr (hidle d (by rw [hd]; rfl))⟩
  obtain ⟨-, hnoted, hstopped, hfailed⟩ := gangFault_spec c (dieMask fun d => ((die late d).arr.ready.get c).isNone) (refTag (tagsOf late c))
    (by decide : 1 < 24) (fun d => inStep_congr hview (hstep d)) hopen
  have hframe : changesOnly [.out, .regs, .rs, .host, .sync, .dies, .gang, .step, .img, .upd, .mem, .fab, .coll, .flash] late
      (gangFault late c 1 (dieMask fun d => ((die late d).arr.ready.get c).isNone) (refTag (tagsOf late c))) :=
    gangFault_frame (by decide) _ _ _ _ _
  exact ⟨_, hexec, (hframe.clk (by decide)).trans hclk, hnoted, hstopped, hfailed⟩

/-- Settles O19: ARRAY at issue, the grant, a mismatch of tags, the gang timer, and the choice of the reference tag. -/
theorem arrayOperations : Obligations.ArrayOperations := by
  unfold Obligations.ArrayOperations
  refine ⟨⟨fun s d c w => array_ready, fun s d c w => array_waits, fun s d c w h hf hstep _ => array_formatBad h hf hstep⟩,
    fun s c g hwhole hfind htag hcur hwait => ?_, fun s c hwhole hfind htags hstep _ => ?_, fun s c t0 htimer hus hready hstep _ hidle => ?_,
    fun ts => refTag_spec, fun s hwhole => ?_⟩
  · obtain ⟨t, hexec, hgang, hgrants, hgranted⟩ := gangGrant_granted hwhole hfind htag hcur hwait
    exact ⟨t, hexec, hgang, hgrants, fun d => (hgranted d).ready, fun d => (hgranted d).runs, fun d => (hgranted d).idle⟩
  · obtain ⟨t, hexec, hnoted, hgrants, htimer, hfailed⟩ := gangGrant_mismatch hwhole hfind htags hstep
    exact ⟨t, hexec, hnoted, hgrants, htimer, fun d => ⟨(hfailed d).1.faulted.poison, (hfailed d).1.ready, (hfailed d).2, (hfailed d).1.noted,
      (hfailed d).1.faulted.noted⟩⟩
  · obtain ⟨t, hexec, hclk, hnoted, hstopped, hfailed⟩ := gangTimeout_expires htimer hus hready hstep hidle
    exact ⟨t, hexec, hclk, hnoted, hstopped, fun d => ⟨(hfailed d).faulted.poison, (hfailed d).ready, (hfailed d).faulted.noted⟩⟩
  · have : exec .gangGrant s = .next (doGangGrant s) := rfl
    rw [this, doGangGrant, hwhole]; rfl

end Sys2Proof.Machine
end

section
/-! PROOF. The end of an array operation, its tiles, and the exactness of chains: FinishedTiles (O20). -/
namespace Sys2Proof.Machine
open Sys2Proof

/-! ### The boundary (R106) -/

theorem exec_arrayBoundary (s : State) (d : Die) (js : List Nat) : exec (.arrayBoundary d js) s = .next (doArrayBoundary d js s) := rfl

/-- An operation whose visits have all run computes no item more. -/
theorem runOp_of_done {s : State} {d : Die} {o : ArrOp} (h : (die s d).arr.op = some o) (hdone : o.ends ≤ o.next) : runOp d s = s := by
  simp only [runOp, h, runItems, if_pos hdone]

theorem runOp_of_idle {s : State} {d : Die} (h : (die s d).arr.op = none) : runOp d s = s := by
  simp only [runOp, h]

/-- At its boundary an operation whose visits have all run ends, in error where an item met one. -/
theorem doArrayBoundary_of_done {s : State} {d : Die} {o : ArrOp} (js : List Nat) (h : (die s d).arr.op = some o) (hdone : o.ends ≤ o.next) :
    doArrayBoundary d js s = endOp d o (o.poison || !js.isEmpty)
      (if js.isEmpty then s else arrErr (updArr s d (poisonTiles o js)) d aeParity o.c (aTag o.desc)) := by
  simp only [doArrayBoundary, runOp_of_done h hdone, h, if_neg (Nat.not_lt.mpr hdone)]

theorem boundary_ends {s : State} {d : Die} {o : ArrOp} (h : (die s d).arr.op = some o) (hdone : o.ends ≤ o.next) (hpoison : o.poison = false)
    (hreset : o.reset = false) :
    ∃ t, exec (.arrayBoundary d []) s = .next t ∧ (die t d).arr = { (die s d).arr with op := none, hold := false } ∧
      (∀ c, str t d c = str s d c) ∧ (∀ e, e ≠ d → die t e = die s e) ∧ changesOnly [.dies] s t := by
  have hend : doArrayBoundary d [] s = updArr s d fun a => { a with op := none, hold := false } := by
    rw [doArrayBoundary_of_done [] h hdone]
    simp only [endOp, hpoison, hreset, List.isEmpty_nil, Bool.not_true, Bool.or_self, Bool.false_eq_true, if_false, if_true]
  refine ⟨_, (exec_arrayBoundary s d []).trans (congrArg _ hend), arr_updArr_self _ _ _, fun c => by rw [str_updArr],
    fun e he => by rw [updArr, die_updDie_ne _ _ _ _ he], updArr_frame (by decide) _ _ _⟩

/-! #### A parity error of the stationary registers -/

/-- A tile as `poisonTiles` leaves it. -/
def parityMark (o : ArrOp) (js : List Nat) (t : Tile) : Tile :=
  if js.any (isTileOf o t) && decide (t.flags / 64 % 2 = 0) then { t with flags := t.flags + 64 } else t

theorem queue_poisonTiles (o : ArrOp) (js : List Nat) (a : ArrayUnit) :
    (poisonTiles o js a).queue = a.queue.map fun q => { q with tile := parityMark o js q.tile } := rfl

/-- Which items a tile belongs to does not rest on its flags. -/
theorem isTileOf_parityMark (o : ArrOp) (js : List Nat) (t : Tile) : isTileOf o (parityMark o js t) = isTileOf o t := by
  unfold parityMark
  split <;> rfl

theorem parityMark_poisons {o : ArrOp} {js : List Nat} {t : Tile} (h : js.any (isTileOf o t) = true) : (parityMark o js t).flags / 64 % 2 = 1 := by
  by_cases hclean : t.flags / 64 % 2 = 0
  · simp only [parityMark, h, hclean, decide_true, Bool.and_self, if_true]
    omega
  · simp only [parityMark, hclean, decide_false, Bool.and_false, Bool.false_eq_true, if_false]
    omega

/-- R106: a parity error found at the boundary marks the tiles and faults the stream. -/
theorem boundary_parity {s : State} {d : Die} {o : ArrOp} {e : InFlight} {js : List Nat} (h : (die s d).arr.op = some o)
    (hdone : o.ends ≤ o.next) (hjs : js ≠ []) (he : findInflight (str s d o.c) .array o.id = some e) (hpath : e.onPath = false)
    (hstep : inStep s d o.c) :
    ∃ t, exec (.arrayBoundary d js) s = .next t ∧ (die t d).arr.op = none ∧ (str t d o.c).poison = true ∧
      (rsReg t (cdWin d.val + rArrErr)).ev.getLsbD 3 = true ∧ (rsReg t (cdWin d.val + rStrErr)).ev.getLsbD 9 = true ∧
      ∀ q ∈ (die t d).arr.queue, js.any (isTileOf o q.tile) = true → q.tile.flags / 64 % 2 = 1 := by
  obtain ⟨hprologue, -, hp2⟩ := hstep
  have hbad : js.isEmpty = false := by simpa using hjs
  generalize hnoted : arrErr (updArr s d (poisonTiles o js)) d aeParity o.c (aTag o.desc) = noted
  have hframe : changesOnly [.out, .regs, .rs, .host] (updArr s d (poisonTiles o js)) noted := hnoted ▸ arrErr_frame (by decide) _ _ _ _ _
  have hmarked : (die noted d).arr = poisonTiles o js (die s d).arr := by rw [die_congr (hframe.dies (by decide)), arr_updArr_self]
  generalize hended : updArr noted d (fun a => { a with op := none, hold := false }) = ended
  have hlogged : Logged noted ended := hended ▸ logged_of_frame (updArr_frame (by decide) noted d _)
  have harr : (die ended d).arr = { poisonTiles o js (die s d).arr with op := none, hold := false } := by rw [← hended, arr_updArr_self, hmarked]
  have hstr : str ended = str s := by rw [← hended, str_updArr, str_congr (hframe.dies (by decide)), str_updArr]
  have hdropped : Onward ended (dropInflight ended d o.c e.id) := onward_updStr (by exact ⟨id, id⟩)
  have hend : doArrayBoundary d js s = faultAs (dropInflight ended d o.c e.id) d o.c false false fUnit (dType e.desc) e.seq e.addr (dLayer e.desc) := by
    rw [doArrayBoundary_of_done js h hdone]
    simp only [hbad, hnoted, Bool.not_false, Bool.or_true, Bool.false_eq_true, if_false, if_true, endOp, hended, hstr, he, unitFault, hprologue, hpath]
  obtain ⟨hfault, hfaulted, -⟩ := faultAs_spec (s := dropInflight ended d o.c e.id) (bit := fUnit) (dType e.desc) e.seq e.addr (dLayer e.desc)
    (by rw [dropInflight, str_updStr_self, hstr]; exact hp2) (by decide)
  have hafter := hdropped.trans hfault
  refine ⟨_, (exec_arrayBoundary s d js).trans (congrArg _ hend), op_eq_none_of_onward hafter (by rw [harr]), hfaulted.poison,
    hafter.logged.events _ _ (hlogged.events _ _ ?_), hfaulted.noted, fun q hq hany => ?_⟩
  · exact hnoted ▸ arrErr_noted (updArr s d (poisonTiles o js)) d aeParity o.c _ (by decide)
  · obtain ⟨p, hp, hpq⟩ := (hafter.arr d).tiles q hq
    rw [harr] at hp
    obtain ⟨p0, -, rfl⟩ := List.mem_map.mp ((queue_poisonTiles o js _) ▸ hp)
    rw [← hpq] at hany ⊢
    exact parityMark_poisons (by rwa [isTileOf_parityMark] at hany)

/-! ### The drain (R100 to R105) -/

theorem freeSlot_spec {s : State} {d : Die} {x : Tile} {k : Nat} (h : freeSlot s d x = some k) {i : Nat} (hi : i < tileSlots x) :
    (shareOf s d x.c).1 ≤ k + i ∧ k + i < (shareOf s d x.c).1 + (shareOf s d x.c).2 ∧ slotUsed (die s d).arr.queue (k + i) = false := by
  have hfree := List.find?_some h
  have hin := List.mem_of_find?_eq_some h
  obtain ⟨j, -, hj⟩ := List.mem_map.mp hin
  have hplace : j + (shareOf s d x.c).1 = k := hj
  have hslot := List.all_eq_true.mp hfree i (List.mem_range.mpr hi)
  simp only [Bool.and_eq_true, decide_eq_true_eq, Bool.not_eq_true'] at hslot
  exact ⟨by omega, hslot⟩

/-- R103: the drain takes the oldest tile whose share has a free slot. -/
theorem tileDrainStart_takes {s : State} {d : Die} {x : Tile} {k : Nat} (hidle : (die s d).arr.draining = false)
    (hx : (die s d).arr.acc.find? (fun t => (freeSlot s d t).isSome) = some x) (hk : freeSlot s d x = some k) :
    ∃ t, exec (.tileDrainStart d) s = .next t ∧
      (die t d).arr = { (die s d).arr with draining := true, queue := (die s d).arr.queue ++ [⟨.filling, 0, k, x, false⟩] } ∧
      (∀ i, i < tileSlots x → (shareOf s d x.c).1 ≤ k + i ∧ k + i < (shareOf s d x.c).1 + (shareOf s d x.c).2 ∧
        slotUsed (die s d).arr.queue (k + i) = false) ∧ (∀ e, e ≠ d → die t e = die s e) ∧ changesOnly [.dies] s t := by
  have hexec : exec (.tileDrainStart d) s = .next (updArr s d fun a =>
      { a with draining := true, queue := a.queue ++ [⟨.filling, 0, k, x, false⟩] }) := by
    have : exec (.tileDrainStart d) s = .next (doTileDrainStart d s) := rfl
    rw [this, doTileDrainStart]
    simp only [hidle, hx, hk, Bool.false_eq_true, if_false]
  exact ⟨_, hexec, arr_updArr_self _ _ _, fun i => freeSlot_spec hk, fun e he => by rw [updArr, die_updDie_ne _ _ _ _ he],
    updArr_frame (by decide) _ _ _⟩

/-! #### The bytes of a slot -/

/-- In a list of parts of one length, an element stands at its part's place. -/
theorem getElem?_flatMap_of_length {α β : Type} (f : α → List β) (k : Nat) (l : List α) (hlen : ∀ x ∈ l, (f x).length = k) (i j : Nat) (hj : j < k)
    (x : α) (hx : l[i]? = some x) : (l.flatMap f)[k * i + j]? = (f x)[j]? := by
  induction l generalizing i with
  | nil => cases hx
  | cons y l ih =>
    have hy := hlen y List.mem_cons_self
    rw [List.flatMap_cons]
    cases i with
    | zero =>
      obtain rfl : y = x := by simpa using hx
      rw [Nat.mul_zero, Nat.zero_add, List.getElem?_append_left (by omega)]
    | succ i =>
      have hplace : k * (i + 1) + j - (f y).length = k * i + j := by rw [hy, Nat.mul_succ]; omega
      rw [List.getElem?_append_right (by rw [hy, Nat.mul_succ]; omega), hplace]
      exact ih (fun z hz => hlen z (List.mem_cons_of_mem _ hz)) i (by simpa using hx)

theorem length_leBytes (n v : Nat) : (leBytes n v).length = n := by
  induction n generalizing v with
  | zero => rfl
  | succ n ih => simp only [leBytes, List.length_cons, ih]

/-- The word of a slot at row `r` and column `c`: the tile's there, +0 beyond its rows and columns. -/
def slotWord (t : Tile) (ws : List Word) (r c : Nat) : Nat := if r < t.rows ∧ c < t.cols then (ws.getD (r * t.cols + c) 0).toNat else 0

theorem slotBytes_eq (t : Tile) (ws : List Word) :
    slotBytes t ws = (List.range 256).flatMap fun r => (List.range 256).flatMap fun c => leBytes 4 (slotWord t ws r c) := by
  have hword : ∀ r c, (if r < t.rows ∧ c < t.cols then leBytes 4 (ws.getD (r * t.cols + c) 0).toNat else [0, 0, 0, 0]) =
      leBytes 4 (slotWord t ws r c) := fun r c => by
    unfold slotWord
    split <;> rfl
  simp only [slotBytes, hword]

/-- R101: byte `i` of the word at row `r` and column `c` of a slot. -/
theorem slotBytes_getElem? (t : Tile) (ws : List Word) {r c i : Nat} (hr : r < 256) (hc : c < 256) (hi : i < 4) :
    (slotBytes t ws)[4 * (256 * r + c) + i]? = (leBytes 4 (slotWord t ws r c))[i]? := by
  have hplace : 4 * (256 * r + c) + i = 1024 * r + (4 * c + i) := by omega
  have hrow : ∀ r, ((List.range 256).flatMap fun c => leBytes 4 (slotWord t ws r c)).length = 1024 := fun r => by
    simp only [List.length_flatMap, length_leBytes, List.map_const', List.length_range, List.sum_replicate, smul_eq_mul, Nat.reduceMul]
  rw [slotBytes_eq, hplace, getElem?_flatMap_of_length _ 1024 _ (fun x _ => hrow x) r _ (by omega) r (List.getElem?_range hr),
    getElem?_flatMap_of_length _ 4 _ (fun x _ => length_leBytes _ _) c i hi c (List.getElem?_range hc)]

/-! #### The write to the tile store -/

/-- The bytes `bs` written to `m` one after another, the first at `off`. -/
def writeRun (off : Nat) (m : SMap Byte) (bs : List (Byte × Nat)) : SMap Byte := bs.foldl (fun m x => SMap.set 0 m (off + x.2) x.1) m

theorem get_writeRun_below (off : Nat) (bs : List Byte) (n : Nat) (m : SMap Byte) {k : Nat} (hk : k < off + n) :
    SMap.get 0 (writeRun off m (bs.zipIdx n)) k = SMap.get 0 m k := by
  induction bs generalizing n m with
  | nil => rfl
  | cons b bs ih =>
    have htail : writeRun off m ((b :: bs).zipIdx n) = writeRun off (SMap.set 0 m (off + n) b) (bs.zipIdx (n + 1)) := rfl
    rw [htail, ih (n + 1) _ (by omega), SMap.get_set_ne _ _ _ _ _ _ (by omega)]

theorem get_writeRun (off : Nat) (bs : List Byte) (n : Nat) (m : SMap Byte) {j : Nat} {b : Byte} (hb : bs[j]? = some b) :
    SMap.get 0 (writeRun off m (bs.zipIdx n)) (off + n + j) = b := by
  induction bs generalizing n m j with
  | nil => cases hb
  | cons x bs ih =>
    have htail : writeRun off m ((x :: bs).zipIdx n) = writeRun off (SMap.set 0 m (off + n) x) (bs.zipIdx (n + 1)) := rfl
    rw [htail]
    cases j with
    | zero =>
      obtain rfl : x = b := by simpa using hb
      rw [get_writeRun_below _ _ _ _ (by omega), Nat.add_zero, SMap.get_set_self]
    | succ j =>
      have hplace : off + n + (j + 1) = off + (n + 1) + j := by omega
      rw [hplace]
      exact ih (n + 1) _ (by simpa using hb)

/-- A store without errors takes the bytes as they come. -/
theorem tsWrite_of_sound {s : State} {d : Die} (h : soundStore s d) (off : Nat) (bs : List Byte) (port : Nat) :
    tsWrite s d off bs port = updDie s d fun y =>
      { y with
        tsUe := y.tsUe.filter fun w => decide (w ∉ tsWords off bs.length) || decide (w ∈ ([] : List Nat))
        tsCe := y.tsCe.filter fun w => decide (w ∉ tsWords off bs.length)
        ts := writeRun off y.ts bs.zipIdx } := by
  obtain ⟨hue, hce⟩ := h
  simp only [tsWrite, hue, hce, List.not_mem_nil, decide_false, Bool.and_false, List.filter_false, tsStuck, tsCorrect, List.foldl_nil, if_false,
    writeRun]

/-- The array once the drain of entry `q` has ended, its number of the stream's tiles being `seq`. -/
def drained (q : TqEntry) (seq : Nat) (a : ArrayUnit) : ArrayUnit :=
  { a with
    draining := false, hold := false, acc := a.acc.erase q.tile
    queue := a.queue.map fun r => if r = q then { r with st := .ready, seq := seq } else r
    pushed := SMap.set 0 a.pushed (sidNat q.tile.c) ((seq + 1) % 2 ^ 32) }

theorem tilePush_eq {s : State} {d : Die} {q : TqEntry} (hq : (die s d).arr.queue.find? (fun q => decide (q.st = .filling)) = some q)
    (hdrop : q.drop = false) (hop : (die s d).arr.op = none) (hone : tileSlots q.tile = 1) (hfp : q.tile.fp64 = false)
    (hnone : findInflight (str s d q.tile.c) .array q.tile.id = none) (hsound : soundStore s d) :
    exec (.tilePush d) s = .next (updArr (tsWrite s d (slotOff s d q.slot) (slotBytes q.tile q.tile.hi) 0) d
      (drained q (SMap.get 0 (die s d).arr.pushed (sidNat q.tile.c)))) := by
  generalize hseq : SMap.get 0 (die s d).arr.pushed (sidNat q.tile.c) = seq
  have hexec : exec (.tilePush d) s = .next (doTilePush d s) := rfl
  have hbytes : tileBytes q.tile = slotBytes q.tile q.tile.hi := by
    simp only [tileBytes, hfp, hone, Bool.false_eq_true, if_false, OfNat.one_ne_ofNat]
  have hran : runOp d (updArr (tsWrite s d (slotOff s d q.slot) (slotBytes q.tile q.tile.hi) 0) d (drained q seq)) =
      updArr (tsWrite s d (slotOff s d q.slot) (slotBytes q.tile q.tile.hi) 0) d (drained q seq) :=
    runOp_of_idle (by rw [arr_updArr_self, tsWrite_of_sound hsound, die_updDie_self]; exact hop)
  rw [hexec, ← hran, doTilePush]
  simp only [hq, hnone, hbytes, hdrop, hseq, Bool.false_eq_true, if_false]
  rfl

/-- R102, R105: when the drain ends, the tile stands in its slot and its entry is READY. -/
theorem tilePush_pushes {s : State} {d : Die} {q : TqEntry} (hq : (die s d).arr.queue.find? (fun q => decide (q.st = .filling)) = some q)
    (hdrop : q.drop = false) (hop : (die s d).arr.op = none) (hone : tileSlots q.tile = 1) (hfp : q.tile.fp64 = false)
    (hnone : findInflight (str s d q.tile.c) .array q.tile.id = none) (hsound : soundStore s d) :
    ∃ t, exec (.tilePush d) s = .next t ∧
      (∀ r c, r < 256 → c < 256 → ∀ i, i < 4 → some (tsByte t d ((tqRegion s d).1 + q.slot * 262144 + 4 * (256 * r + c) + i)) =
        (leBytes 4 (slotWord q.tile q.tile.hi r c))[i]?) ∧
      (die t d).arr = drained q (SMap.get 0 (die s d).arr.pushed (sidNat q.tile.c)) (die s d).arr ∧ (∀ c, str t d c = str s d c) ∧ (∀ e, e ≠ d → die t e = die s e) ∧
      changesOnly [.dies, .regs] s t := by
  refine ⟨_, tilePush_eq hq hdrop hop hone hfp hnone hsound, ?_⟩
  rw [tsWrite_of_sound hsound, updArr]
  refine ⟨fun r c hr hc i hi => ?_, ?_, fun c => ?_, fun e he => ?_, ?_⟩
  · have hbyte := slotBytes_getElem? q.tile q.tile.hi hr hc hi
    have hlen : i < (leBytes 4 (slotWord q.tile q.tile.hi r c)).length := by rwa [length_leBytes]
    rw [List.getElem?_eq_getElem hlen] at hbyte ⊢
    have hplace : (tqRegion s d).1 + q.slot * 262144 + 4 * (256 * r + c) + i = slotOff s d q.slot + 0 + (4 * (256 * r + c) + i) := by
      rw [slotOff, slotSize]
      omega
    rw [tsByte, die_updDie_self, die_updDie_self, hplace, Option.some_inj]
    exact get_writeRun _ _ _ _ hbyte
  · rw [die_updDie_self, die_updDie_self]
  · simp only [str, die_updDie_self]
  · rw [die_updDie_ne _ _ _ _ he, die_updDie_ne _ _ _ _ he]
  · simp [changesOnly]

/-! ### Chains (R123 to R125) -/

/-- R123: the order in which two products enter a chain does not matter. -/
theorem Chain.add_right_comm (c : Chain) (p q : Num) : (c.add p).add q = (c.add q).add p := by
  cases p <;> cases q <;> simp only [Chain.add, Bool.or_right_comm, Bool.and_right_comm, Int.add_right_comm, Bool.false_and]

theorem Chain.foldl_perm {ps qs : List Num} (h : ps.Perm qs) (c : Chain) : ps.foldl Chain.add c = qs.foldl Chain.add c :=
  haveI : RightCommutative Chain.add := ⟨Chain.add_right_comm⟩
  h.foldl_eq c

theorem Chain.nan_foldl (ps : List Num) (c : Chain) : (ps.foldl Chain.add c).nan = true ↔ c.nan = true ∨ .nan ∈ ps := by
  induction ps generalizing c with
  | nil => simp
  | cons p ps ih => rw [List.foldl_cons, ih]; cases p <;> simp [Chain.add]

theorem Chain.pinf_foldl (ps : List Num) (c : Chain) : (ps.foldl Chain.add c).pinf = true ↔ c.pinf = true ∨ .inf false ∈ ps := by
  induction ps generalizing c with
  | nil => simp
  | cons p ps ih => rw [List.foldl_cons, ih]; cases p <;> simp [Chain.add, or_assoc]

theorem Chain.ninf_foldl (ps : List Num) (c : Chain) : (ps.foldl Chain.add c).ninf = true ↔ c.ninf = true ∨ .inf true ∈ ps := by
  induction ps generalizing c with
  | nil => simp
  | cons p ps ih => rw [List.foldl_cons, ih]; cases p <;> simp [Chain.add, or_assoc]

/-- The flags of a chain say which products it has had. -/
theorem Chain.flags_foldl (ps : List Num) : (ps.foldl Chain.add {}).nan = decide (Num.nan ∈ ps) ∧
    (ps.foldl Chain.add {}).pinf = decide (Num.inf false ∈ ps) ∧ (ps.foldl Chain.add {}).ninf = decide (Num.inf true ∈ ps) := by
  refine ⟨?_, ?_, ?_⟩ <;> rw [Bool.eq_iff_iff, decide_eq_true_iff]
  · exact (Chain.nan_foldl ps {}).trans (or_iff_right Bool.false_ne_true)
  · exact (Chain.pinf_foldl ps {}).trans (or_iff_right Bool.false_ne_true)
  · exact (Chain.ninf_foldl ps {}).trans (or_iff_right Bool.false_ne_true)

/-- R124: a NaN product, or infinities of both signs, make a chain NaN. -/
theorem Chain.value_nan {ps : List Num} (h : .nan ∈ ps ∨ (.inf true ∈ ps ∧ .inf false ∈ ps)) : (ps.foldl Chain.add {}).value = .nan := by
  obtain ⟨hnan, hpinf, hninf⟩ := Chain.flags_foldl ps
  rw [Chain.value, hnan, hpinf, hninf]
  exact if_pos (by simpa [and_comm] using h)

/-- R124: infinities of one sign make that infinity. -/
theorem Chain.value_inf {ps : List Num} {b : Bool} (h : .inf b ∈ ps) (hother : .inf (!b) ∉ ps) (hnan : .nan ∉ ps) :
    (ps.foldl Chain.add {}).value = .inf b := by
  obtain ⟨hnan', hpinf, hninf⟩ := Chain.flags_foldl ps
  rw [Chain.value, hnan', hpinf, hninf]
  cases b
  · simp [h, show Num.inf true ∉ ps from hother, hnan]
  · simp [h, show Num.inf false ∉ ps from hother, hnan]

/-- The value of a finite product in units of 2^-298. -/
def unitsOf (p : Bool × Nat × Int) : Int := (if p.1 then -(p.2.1 : Int) else (p.2.1 : Int)) * 2 ^ (p.2.2 + 298).toNat

theorem atExp_eq_unitsOf (p : Bool × Nat × Int) : atExp p.1 p.2.1 p.2.2 (-298) = unitsOf p := by
  obtain ⟨n, m, e⟩ := p
  have hexp : e - -298 = e + 298 := by omega
  cases n <;> simp [atExp, unitsOf, hexp]

/-- R125: finite products make their exact sum, and a sum of -0 products alone is -0. -/
theorem Chain.foldl_fin (ps : List (Bool × Nat × Int)) (c : Chain) :
    (ps.map fun p => Num.fin p.1 p.2.1 p.2.2).foldl Chain.add c =
      { c with sum := c.sum + (ps.map unitsOf).sum, any := c.any || !ps.isEmpty, allNeg0 := c.allNeg0 && ps.all fun p => p.1 && decide (p.2.1 = 0) } := by
  induction ps generalizing c with
  | nil => simp
  | cons p ps ih =>
    rw [List.map_cons, List.foldl_cons, ih]
    simp only [Chain.add, atExp_eq_unitsOf, List.map_cons, List.sum_cons, List.all_cons, List.isEmpty_cons, Int.add_assoc, Bool.and_assoc,
      Bool.true_or, Bool.not_false, Bool.or_true]

theorem Chain.value_fin {ps : List (Bool × Nat × Int)} (h : ps ≠ []) :
    ((ps.map fun p => Num.fin p.1 p.2.1 p.2.2).foldl Chain.add {}).value =
      ofInt (ps.map unitsOf).sum (-298) (ps.all fun p => p.1 && decide (p.2.1 = 0)) := by
  have hany : ps.isEmpty = false := by simpa using h
  simp only [Chain.foldl_fin, Chain.value, hany, Bool.or_self, Bool.false_and, Bool.false_eq_true, if_false, Int.zero_add, Bool.not_false,
    Bool.or_true, Bool.true_and]

/-- Settles O20: an operation's end, a parity error, the drain, the push of a tile, and the value of a chain. -/
theorem finishedTiles : Obligations.FinishedTiles := by
  unfold Obligations.FinishedTiles
  refine ⟨⟨fun s d o => boundary_ends, fun s d o e js h hdone hjs he hpath hstep _ => boundary_parity h hdone hjs he hpath hstep,
    fun s d x k => tileDrainStart_takes, fun s d q hq hdrop hop _ hone hfp hnone hsound => ?_⟩,
    fun ps qs h => by rw [Chain.foldl_perm h], fun ps => Chain.value_nan, fun ps b => Chain.value_inf, fun ps _ => Chain.value_fin⟩
  obtain ⟨t, hexec, hbytes, harr, hstr, hothers, hframe⟩ := tilePush_pushes hq hdrop hop hone hfp hnone hsound
  refine ⟨t, hexec, fun r c hr hc i hi => ?_, by rw [harr]; rfl, by rw [harr]; rfl, ?_, hstr, hothers, hframe⟩
  · rw [hbytes r c hr hc i hi, slotWord]
  · rw [harr]; exact SMap.get_set_self _ _ _ _

end Sys2Proof.Machine
end

section
/-! PROOF. COLD and WARM starts, and the hot-swap (R415, R443, R447, R513). -/
namespace Sys2Proof.Machine
open Sys2Proof

/-! ### What leaves the module on the way to a start -/

/-- `t` is `s` but for what has left the module and what its masters were told of events: nothing that a start keeps. -/
structure Told (s t : State) : Prop where
  frame : changesOnly [.out, .rs, .host] s t
  perst : t.host.perst = s.host.perst
  sent : ∀ o ∈ s.out, o ∈ t.out

theorem Told.refl (s : State) : Told s s := ⟨.refl _ s, rfl, fun _ => id⟩

theorem Told.trans {s t u : State} (h : Told s t) (g : Told t u) : Told s u :=
  ⟨h.frame.trans g.frame, g.perst.trans h.perst, fun o ho => g.sent o (h.sent o ho)⟩

theorem Told.ite {s a b : State} (c : Prop) [Decidable c] (ha : Told s a) (hb : Told s b) : Told s (if c then a else b) := by
  split <;> assumption

theorem Told.foldl {α : Type} (f : State → α → State) (h : ∀ s x, Told s (f s x)) (l : List α) (s : State) : Told s (l.foldl f s) := by
  induction l generalizing s with
  | nil => exact .refl s
  | cons x l ih => exact (h s x).trans (ih _)

theorem told_emit (s : State) (o : Output) : Told s (emit s o) := ⟨emit_frame (by decide) s o, rfl, fun _ => List.mem_cons_of_mem _⟩

theorem told_withRs (s : State) (x : SMap RsReg) : Told s { s with rs := x } := ⟨State.erase_rs s x (by decide), rfl, fun _ => id⟩

theorem told_withHost {s : State} {x : HostState} (h : x.perst = s.host.perst) : Told s { s with host := x } :=
  ⟨State.erase_host s x (by decide), h, fun _ => id⟩

theorem told_msixDue (s : State) (v : Nat) : Told s (msixDue s v) := .ite _ (told_emit _ _) (told_withHost rfl)

theorem told_moduleEvent (s : State) (v : Fin 16) : Told s (moduleEvent s v) := by
  unfold moduleEvent
  split
  · exact told_withHost rfl
  · exact (told_msixDue s v.val).trans (told_withHost rfl)

theorem told_pldmEventOf (s : State) (v : Fin 16) : Told s (pldmEventOf s v) := by
  unfold pldmEventOf
  split
  · exact told_withHost rfl
  · exact (told_emit s _).trans (told_withHost rfl)

theorem told_elogAppend (s : State) (off bit : Nat) : Told s (elogAppend s off bit) := .ite _ (told_withHost rfl) (told_withHost rfl)

theorem told_rsEvents (s : State) (off : Nat) (bits : BitVec 24) : Told s (rsEvents s off bits) := by
  unfold rsEvents
  extract_lets recorded logged
  have hrecorded : Told s recorded := told_withRs s _
  have hlogged : Told s logged :=
    .ite _ hrecorded (hrecorded.trans (.foldl _ (fun s i => .ite _ (told_elogAppend s off i) (.refl s)) _ _))
  refine .ite _ (.refl s) ?_
  split
  next v en _ =>
    have hpldm : Told logged (if v.val ≤ 13 then pldmEventOf logged v else logged) := .ite _ (told_pldmEventOf _ _) (.refl _)
    exact hlogged.trans (.ite _ (hpldm.trans (told_moduleEvent _ _)) hpldm)
  · exact hlogged

theorem told_rampBreak (s : State) : Told s (rampBreak s) := .ite _ (told_rsEvents _ _ _) (.refl s)

/-! ### What a start leaves (R415) -/

theorem clearAll_eq (s : State) : ∃ sent, (∀ o ∈ s.out, o ∈ sent) ∧ clearAll s = { State.reset with
    pending := s.pending, clk := s.clk, free := s.free, out := sent, flash := s.flash, otp := s.otp
    mem := { variant := s.mem.variant }
    host := { perst := s.host.perst }
    pwr := { mateA := s.pwr.mateA, mateB := s.pwr.mateB, closed := s.pwr.closed, latched := s.pwr.latched, undervolt := s.pwr.undervolt }
    start := { began := s.clk } } := by
  unfold clearAll
  split
  · exact ⟨_, fun _ => List.mem_cons_of_mem _, rfl⟩
  · exact ⟨_, fun _ => id, rfl⟩

theorem causeNoted_setCause {s : State} (h : s.regs = []) (warm : Bool) (src : Nat) : causeNoted warm src (setCause s warm src) := by
  refine ⟨reg_setReg_self _ _ _, fun o ho => ?_⟩
  rw [setCause, reg_setReg_ne _ _ _ _ ho, reg, h]
  rfl

theorem clearedBut_of_told {ks : List Comp} {s r t : State} (h : Told s r) (g : clearedBut ks r t) : clearedBut ks s t := by
  obtain ⟨hframe, hperst, -⟩ := h
  have hpending : r.pending = s.pending := hframe.pending (by decide)
  have hclk : r.clk = s.clk := hframe.clk (by decide)
  have hmem : r.mem = s.mem := hframe.mem (by decide)
  have hflash : r.flash = s.flash := hframe.flash (by decide)
  have hotp : r.otp = s.otp := hframe.otp (by decide)
  rwa [clearedBut, hpending, hclk, hmem, hflash, hotp, hperst] at g

/-- A start does not see what the module told before it. -/
theorem coldStarted_of_told {src : Nat} {s r t : State} (h : Told s r) (g : coldStarted src r t) : coldStarted src s t := by
  have hmem : r.mem = s.mem := h.frame.mem (by decide)
  have hclk : r.clk = s.clk := h.frame.clk (by decide)
  have hpwr : r.pwr = s.pwr := h.frame.pwr (by decide)
  obtain ⟨hcleared, hrest⟩ := g
  rw [hmem, hclk, hpwr] at hrest
  exact ⟨clearedBut_of_told h hcleared, hrest⟩

theorem warmStarted_of_told {src : Nat} {s r t : State} (h : Told s r) (g : warmStarted src r t) : warmStarted src s t := by
  have hmem : r.mem = s.mem := h.frame.mem (by decide)
  have hclk : r.clk = s.clk := h.frame.clk (by decide)
  have hpwr : r.pwr = s.pwr := h.frame.pwr (by decide)
  have htb : r.tb = s.tb := h.frame.tb (by decide)
  have hclocks : r.clocks = s.clocks := h.frame.clocks (by decide)
  have hsec : r.sec = s.sec := h.frame.sec (by decide)
  have hupd : r.upd = s.upd := h.frame.upd (by decide)
  have hpassed : passed r stMemory = passed s stMemory := by rw [passed, passed, hupd, h.frame.start (by decide)]
  have hin : stacksIn r = stacksIn s := by rw [stacksIn, stacksIn, hmem]
  obtain ⟨hcleared, hrest⟩ := g
  rw [hpassed, hin, hmem, hclk, hpwr, htb, hclocks, hsec, hupd] at hrest
  exact ⟨clearedBut_of_told h hcleared, hrest⟩

/-- POWER is the first stage. -/
theorem start_pass_power (s : State) (h : s.start.passed = 0) : (pass s stPower).start = { s.start with passed := 1 } := by
  rw [pass, h]; rfl

theorem coldStarted_clearAll {r : State} (src : Nat) (hclosed : r.pwr.closed = true) :
    coldStarted src r (setCause (pass (clearAll r) stPower) false src) ∧ ∀ o ∈ r.out, o ∈ (setCause (pass (clearAll r) stPower) false src).out := by
  obtain ⟨sent, hout, heq⟩ := clearAll_eq r
  rw [heq]
  refine ⟨⟨⟨?_, rfl, rfl, rfl, rfl, rfl, rfl⟩, rfl, causeNoted_setCause rfl _ _, ?_, ?_⟩, hout⟩
  · simp [changesOnly, setCause, pass, State.erase]
  · exact start_pass_power _ rfl
  · rw [← hclosed]; rfl

/-- A COLD reset, once the module has told of it. -/
theorem coldReset_spec {s b : State} (src : Nat) (h : Told s b) (hclosed : s.pwr.closed = true) :
    coldStarted src s (coldReset b src) ∧ ∀ o ∈ s.out, o ∈ (coldReset b src).out := by
  have htold := h.trans (told_rampBreak b)
  unfold coldReset
  generalize rampBreak b = r at htold ⊢
  have hr : r.pwr.closed = true := by rw [htold.frame.pwr (by decide)]; exact hclosed
  have hkept : (clearAll r).pwr.closed = true := by
    obtain ⟨sent, -, heq⟩ := clearAll_eq r
    rw [heq]; exact hr
  obtain ⟨hstarted, hsent⟩ := coldStarted_clearAll src hr
  simp only [hkept, if_true]
  exact ⟨coldStarted_of_told htold hstarted, fun o ho => hsent o (htold.sent o ho)⟩

/-- A WARM reset, once the module has told of it. -/
theorem warmReset_spec {s b : State} (src : Nat) (h : Told s b) :
    warmStarted src s (warmReset b src true) ∧ ∀ o ∈ s.out, o ∈ (warmReset b src true).out := by
  have htold := h.trans (told_rampBreak b)
  unfold warmReset
  generalize rampBreak b = r at htold ⊢
  obtain ⟨sent, hout, heq⟩ := clearAll_eq r
  simp only [heq]
  refine ⟨warmStarted_of_told htold ⟨⟨?_, rfl, rfl, rfl, rfl, rfl, rfl⟩, causeNoted_setCause rfl _ _, rfl, ?_, rfl, rfl, rfl, rfl, rfl⟩,
    fun o ho => hout o (htold.sent o ho)⟩
  · simp [changesOnly, setCause, pass, State.erase]
  · exact start_pass_power _ rfl

/-! ### Who asks for a start -/

theorem byMaster_of_mayAccess {s : State} {m : Master} {off : Nat} (h : mayAccess s m off) (run : State → State) : byMaster m run s = run s := by
  cases m with
  | host => exact if_pos (h.1 rfl)
  | _ => rfl

theorem windowOpen_of_mayAccess {s : State} {m : Master} {off : Nat} (h : mayAccess s m off) : windowOpen s off = true := by
  have hopen := h.2
  simp only [wordOpen, Bool.and_eq_true] at hopen
  exact hopen.2

/-- MOD_RESET is written by an access that is complete before what it asks for. -/
theorem exec_modReset {i : Instr} {m : Master} {v : Word} {s : State} (hi : i = .modResetWarm m v ∨ i = .modResetCold m v)
    (h : mayAccess s m rReset) : exec i s = .next (modResetEffect m v (complete s m .sc [])) := by
  have hexec : exec i s = .next (byMaster m (writeModReset m v) s) := by rcases hi with rfl | rfl <;> rfl
  rw [hexec, byMaster_of_mayAccess h, writeModReset, windowOpen_of_mayAccess h]
  rfl

/-- The SOURCE of a reset that a master asks for. -/
def resetSource (m : Master) : Nat := match m with | .host => srcHost | .bmc => srcBmc | _ => srcMsd

theorem modResetEffect_eq (m : Master) (v : Word) (s : State) : modResetEffect m v s =
    if fld v 31 16 ≠ 0x5A5A then s else if fld v 1 0 = 1 then warmReset s (resetSource m) true
    else if fld v 1 0 = 2 then coldReset s (resetSource m) else s := by
  cases m <;> rfl

theorem modResetEffect_warm {m : Master} {v : Word} (hkey : fld v 31 16 = 0x5A5A) (htype : fld v 1 0 = 1) (s : State) :
    modResetEffect m v s = warmReset s (resetSource m) true := by
  rw [modResetEffect_eq, if_neg (not_not_intro hkey), if_pos htype]

theorem modResetEffect_cold {m : Master} {v : Word} (hkey : fld v 31 16 = 0x5A5A) (htype : fld v 1 0 = 2) (s : State) :
    modResetEffect m v s = coldReset s (resetSource m) := by
  rw [modResetEffect_eq, if_neg (not_not_intro hkey), if_neg (by omega), if_pos htype]

theorem modResetEffect_none {m : Master} {v : Word} (h : fld v 31 16 ≠ 0x5A5A ∨ fld v 1 0 = 0 ∨ fld v 1 0 = 3) (s : State) :
    modResetEffect m v s = s := by
  rw [modResetEffect_eq]
  split
  · rfl
  · rw [if_neg (by omega), if_neg (by omega)]

/-- The BMC's RESET stands for MOD_RESET with its key (R500). -/
theorem exec_reset {p : Path} {v : Word} {s : State} (hp : p ≠ .mbox) (hfin : s.start.fin = .ready ∨ s.start.fin = .mgmtOnly) :
    exec (.reset p v) s = .next (modResetEffect .bmc (0x5A5A0000 ||| (v &&& 3)) (emit s (.response p msOk []))) := by
  have hexec : exec (.reset p v) s = .next (doReset p v s) := rfl
  have hserves : pathServes s p false = true := by rcases hfin with h | h <;> rw [pathServes, h]
  have hrespond : respond s p mcReset msOk [] = emit s (.response p msOk []) := by
    cases p with
    | mbox => exact absurd rfl hp
    | _ => rfl
  rw [hexec, doReset, if_neg (by simp [hp, hserves]), hrespond]

theorem fld_keyed_key (v : Word) : fld (0x5A5A0000 ||| (v &&& 3)) 31 16 = 0x5A5A := by
  have hlow : (3 : Word).extractLsb 31 16 = 0 := by decide
  have hkey : (0x5A5A0000 : Word).extractLsb 31 16 = 0x5A5A := by decide
  rw [fld, BitVec.extractLsb_or, BitVec.extractLsb_and, hlow, hkey]
  simp

theorem fld_keyed_type (v : Word) : fld (0x5A5A0000 ||| (v &&& 3)) 1 0 = fld v 1 0 := by
  have hlow : (3 : Word).extractLsb 1 0 = BitVec.allOnes 2 := by decide
  have hkey : (0x5A5A0000 : Word).extractLsb 1 0 = 0 := by decide
  rw [fld, BitVec.extractLsb_or, BitVec.extractLsb_and, hlow, hkey]
  exact congrArg BitVec.toNat (BitVec.zero_or.trans BitVec.and_allOnes)

/-! ### The hot-swap (R447, R513) -/

theorem openSwap_of_open {s : State} (h : s.pwr.closed = false) : openSwap s = s := by
  rw [openSwap, h]; rfl

/-- The hot-swap opens, and the logic side loses all it held. -/
theorem openSwap_spec {s b : State} (h : Told s b) (hclosed : s.pwr.closed = true) :
    supplyCut s (openSwap b) ∧ (openSwap b).pwr = { closed := false, latched := s.pwr.latched, mateA := s.pwr.mateA, mateB := s.pwr.mateB, undervolt := s.pwr.undervolt } ∧
      ∀ o ∈ s.out, o ∈ (openSwap b).out := by
  have hb : b.pwr.closed = true := by rw [h.frame.pwr (by decide)]; exact hclosed
  have htold := h.trans (told_rampBreak b)
  unfold openSwap
  generalize rampBreak b = r at htold ⊢
  obtain ⟨sent, hout, heq⟩ := clearAll_eq r
  have hpwr : r.pwr = s.pwr := htold.frame.pwr (by decide)
  have hmem : r.mem = s.mem := htold.frame.mem (by decide)
  have hclk : r.clk = s.clk := htold.frame.clk (by decide)
  simp only [heq, hb, Bool.not_true, Bool.false_eq_true, if_false]
  refine ⟨⟨clearedBut_of_told htold ⟨?_, rfl, rfl, rfl, rfl, rfl, rfl⟩, by rw [hmem], by rw [hclk], rfl, rfl⟩, by rw [hpwr],
    fun o ho => hout o (htold.sent o ho)⟩
  simp [changesOnly, State.erase, State.reset]

/-- What holds the hot-swap open changes nothing of what its opening leaves. -/
theorem supplyCut_openSwap {s : State} (p : PowerState) (hclosed : p.closed = true) :
    supplyCut s (openSwap { s with pwr := p }) ∧
      (openSwap { s with pwr := p }).pwr = { closed := false, latched := p.latched, mateA := p.mateA, mateB := p.mateB, undervolt := p.undervolt } := by
  obtain ⟨hcut, hpwr, -⟩ := openSwap_spec (Told.refl { s with pwr := p }) hclosed
  exact ⟨hcut, hpwr⟩

theorem Told.withPwr {s b : State} (h : Told s b) (p : PowerState) : Told { s with pwr := p } { b with pwr := p } := by
  refine ⟨?_, h.perst, h.sent⟩
  have hframe := congrArg (fun u : State => { u with pwr := p }) h.frame
  exact hframe

/-- A latched opening. -/
theorem latchOpen_spec {s b : State} (h : Told s b) (hclosed : s.pwr.closed = true) :
    supplyCut s (latchOpen b) ∧ (latchOpen b).pwr.latched = true ∧ ∀ o ∈ s.out, o ∈ (latchOpen b).out := by
  have hpwr : b.pwr = s.pwr := h.frame.pwr (by decide)
  have htold : Told { s with pwr := { s.pwr with latched := true } } { b with pwr := { b.pwr with latched := true } } := by
    rw [hpwr]
    exact h.withPwr _
  obtain ⟨hcut, hlatched, hsent⟩ := openSwap_spec htold hclosed
  rw [latchOpen, hpwr, hclosed, if_pos rfl, ← hpwr]
  exact ⟨hcut, by rw [hlatched], hsent⟩

theorem latchOpen_of_open {s : State} (h : s.pwr.closed = false) : latchOpen s = s := by
  rw [latchOpen, h]; rfl

/-- An event that opens the hot-swap latched. -/
def latches (i : Instr) : Prop := i ∈ [Instr.hvOvervoltage, .hvOvercurrent, .hvOvertemp, .shutdown, .thermalTrip]

/-- Such an event opens the hot-swap latched, in its own order where it is SHUTDOWN or a thermal trip. -/
theorem exec_latches {i : Instr} (hi : latches i) {s : State} (hclosed : s.pwr.closed = true) :
    ∃ b, Told s b ∧ (i = .shutdown ∨ i = .thermalTrip → .hv true ∈ b.out) ∧ exec i s = .next (latchOpen b) := by
  have hshutdown : exec .shutdown s = .next (doShutdown s) := rfl
  have htrip : exec .thermalTrip s = .next (doThermalTrip s) := rfl
  simp only [latches, List.mem_cons, List.not_mem_nil, or_false] at hi
  rcases hi with rfl | rfl | rfl | rfl | rfl
  · exact ⟨s, .refl s, by simp, rfl⟩
  · exact ⟨s, .refl s, by simp, rfl⟩
  · exact ⟨s, .refl s, by simp, rfl⟩
  · exact ⟨_, told_emit s _, fun _ => List.mem_cons_self, by rw [hshutdown, doShutdown, if_pos hclosed]⟩
  · exact ⟨_, (told_rampBreak s).trans (told_emit _ _), fun _ => List.mem_cons_self, by rw [htrip, doThermalTrip, if_pos hclosed]⟩

/-- R513: what opens the hot-swap finds it open already. -/
theorem exec_opens_of_open {i : Instr} (hi : i = .hvUndervoltage ∨ latches i) {s : State} (hopen : s.pwr.closed = false) : exec i s = .next s := by
  have hclosed : ¬ s.pwr.closed = true := by simp [hopen]
  have hunder : exec .hvUndervoltage s = .next (doHvUndervoltage s) := rfl
  have hshutdown : exec .shutdown s = .next (doShutdown s) := rfl
  have htrip : exec .thermalTrip s = .next (doThermalTrip s) := rfl
  simp only [latches, List.mem_cons, List.not_mem_nil, or_false] at hi
  rcases hi with rfl | rfl | rfl | rfl | rfl | rfl
  · rw [hunder, doHvUndervoltage, if_neg hclosed]
  · exact congrArg _ (latchOpen_of_open hopen)
  · exact congrArg _ (latchOpen_of_open hopen)
  · exact congrArg _ (latchOpen_of_open hopen)
  · rw [hshutdown, doShutdown, if_neg hclosed]
  · rw [htrip, doThermalTrip, if_neg hclosed]

/-- R447: the hot-swap closes with a COLD start, where nothing holds it open. -/
theorem closeSwap_starts {s : State} (p : PowerState) (hclosed : p.closed = false) (hlatched : p.latched = false) (hA : p.mateA = false)
    (hB : p.mateB = false) (hunder : p.undervolt = false) : coldStarted 0 { s with pwr := {} } (closeSwap { s with pwr := p }) := by
  have hclose : closeSwap { s with pwr := p } = coldReset { s with pwr := { p with closed := true } } srcPower := by
    simp only [closeSwap, hclosed, hlatched, hA, hB, hunder, Bool.false_eq_true, or_self, if_false]
  obtain ⟨⟨hcleared, hmem, hcause, hstart, hpwr⟩, -⟩ := coldReset_spec srcPower (Told.refl { s with pwr := { p with closed := true } }) rfl
  rw [hclose]
  refine ⟨hcleared, hmem, hcause, hstart, ?_⟩
  exact hpwr.trans (by simp only [hlatched, hA, hB, hunder])

theorem closeSwap_of_held {s : State} (h : s.pwr.latched = true ∨ s.pwr.mateA = true ∨ s.pwr.mateB = true) : closeSwap s = s := by
  rw [closeSwap, if_pos (by tauto)]

end Sys2Proof.Machine
end

section
/-! PROOF. LINK and CORE resets, and the four resets together: Resets (O36). -/
namespace Sys2Proof.Machine
open Sys2Proof

/-! ### Waiters withdrawn from objects that serve nobody -/

/-- Where every waiter wants more than the count, all stay. -/
theorem evalWaiters_of_unserved (ws : List Waiter) (n : Nat) (blocked : Bool) (h : ∀ w ∈ ws, n < w.v) : evalWaiters ws n blocked = (n, ws, []) := by
  induction ws generalizing blocked with
  | nil => rfl
  | cons w ws ih =>
    obtain ⟨hw, hws⟩ := List.forall_mem_cons.mp h
    simp only [evalWaiters, Nat.not_le.mpr hw, decide_false, Bool.and_false, Bool.false_eq_true, if_false, ih _ hws, ite_self]

/-- The object loses the waiters of `x.2`. -/
def putWithdraw (s : State) (x : ObjRef × Who) : State := putObj s x.1 ((getObj s x.1).withdraw x.2)

/-- Several objects lose waiters. -/
def withdrawn (s : State) (xs : List (ObjRef × Who)) : State := xs.foldl putWithdraw s

theorem unserved_withdraw {o : SyncObj} (h : unserved o) (who : Who) : unserved (o.withdraw who) :=
  fun w hw => h w (SyncObj.mem_of_mem_withdraw hw)

theorem unserved_putWithdraw {s : State} (h : ∀ o, unserved (getObj s o)) (x : ObjRef × Who) : ∀ o, unserved (getObj (putWithdraw s x) o) := by
  intro o
  by_cases ho : o = x.1
  · rw [ho, putWithdraw, getObj_putObj_self]; exact unserved_withdraw (h _) _
  · rw [putWithdraw, getObj_putObj_ne _ _ _ _ ho]; exact h o

theorem unserved_withdrawn {s : State} (h : ∀ o, unserved (getObj s o)) (xs : List (ObjRef × Who)) : ∀ o, unserved (getObj (withdrawn s xs) o) :=
  List.foldlRecOn (motive := fun t => ∀ o, unserved (getObj t o)) xs _ h fun _ ht x _ => unserved_putWithdraw ht x

/-- A waiter that leaves such an object ends nobody's wait. -/
theorem leaveObj_of_unserved {s : State} {r : ObjRef} (h : unserved (getObj s r)) (who : Who) : leaveObj s r who = putWithdraw s (r, who) := by
  have hleave : (getObj s r).leave who = ⟨(getObj s r).withdraw who, [], false⟩ := by
    unfold SyncObj.leave SyncObj.settle
    rw [evalWaiters_of_unserved _ _ _ (unserved_withdraw h who)]
    exact ite_self _
  rw [leaveObj, hleave]
  rfl

theorem leaveAll_of_unserved {s : State} (h : ∀ o, unserved (getObj s o)) (xs : List (ObjRef × Who)) :
    leaveAll s xs = withdrawn (withdrawn s xs) xs := by
  have hleft : ∀ (ys : List (ObjRef × Who)) (s : State), (∀ o, unserved (getObj s o)) →
      ys.foldl (fun s w => leaveObj s w.1 w.2) s = withdrawn s ys := fun ys => by
    induction ys with
    | nil => exact fun _ _ => rfl
    | cons y ys ih =>
      intro s hs
      rw [List.foldl_cons, leaveObj_of_unserved (hs _)]
      exact ih _ (unserved_putWithdraw hs _)
  exact hleft xs _ (unserved_withdrawn h xs)

/-! ### Host-wait slots (R230, R231) -/

/-- No register of the slots is 1 in bit 31 at reset. -/
theorem topRows_slots : ∀ r ∈ topRows, 0 < rowStride r ∧
    (r.reset < 2 ^ 31 ∨ r.lo + r.cnt * rowStride r ≤ rHwObj ∨ rHwObj + 0x4000 ≤ r.lo) := by
  decide +kernel

theorem rowIn_covers {rows : List RegRow} {off : Nat} {r : RegRow} (h : rowIn rows off = some r) (hpos : 0 < rowStride r) :
    r.lo ≤ off ∧ off < r.lo + r.cnt * rowStride r := by
  have hcover := List.find?_some h
  simp only [Bool.and_eq_true, decide_eq_true_eq] at hcover
  obtain ⟨hlo, hk, -⟩ := hcover
  have := (Nat.div_lt_iff_lt_mul hpos).mp hk
  exact ⟨hlo, by omega⟩

theorem bitAt_w32_of_lt {n : Nat} (h : n < 2 ^ 31) : bitAt (w32 n) 31 = false := by
  rw [bitAt, w32, BitVec.getLsbD_ofNat, Nat.testBit_lt_two_pow h, Bool.and_false]

/-- At reset no slot is armed. -/
theorem bitAt_resetWord_slot {o : Nat} (hlo : rHwObj ≤ o) (hhi : o < rHwObj + 0x4000) : bitAt (resetWord o) 31 = false := by
  have htop : regRow o = rowIn topRows o := if_neg (by simp only [rHwObj] at hhi; omega)
  rw [resetWord, htop]
  cases hrow : rowIn topRows o with
  | none => exact (by decide : bitAt (0 : Word) 31 = false)
  | some r =>
    obtain ⟨hpos, hreset⟩ := topRows_slots r (List.mem_of_find?_eq_some hrow)
    obtain ⟨hfirst, hlast⟩ := rowIn_covers hrow hpos
    have hsmall : r.reset < 2 ^ 31 := by omega
    have hhigh : r.reset / 2 ^ 32 < 2 ^ 31 := by omega
    dsimp only
    split
    · exact bitAt_w32_of_lt hhigh
    · exact bitAt_w32_of_lt hsmall

theorem SMap.mem_of_get_ne {β : Type} {d : β} {m : SMap β} {k : Nat} (h : SMap.get d m k ≠ d) : (k, SMap.get d m k) ∈ m := by
  induction m with
  | nil => exact absurd rfl h
  | cons p m ih =>
    obtain ⟨a, v⟩ := p
    simp only [SMap.get] at h ⊢
    split
    next hk => rw [hk]; exact List.mem_cons_self
    next hk => rw [if_neg hk] at h; exact List.mem_cons_of_mem _ (ih h)

theorem mem_armedSlots {s : State} {n : Fin 1024} (h : slotArmed s n = true) : n ∈ armedSlots s := by
  have hn := n.isLt
  have hword : reg s (rHwObj + 16 * n.val) ≠ resetWord (rHwObj + 16 * n.val) := fun he => by
    rw [slotArmed, he, bitAt_resetWord_slot (by omega) (by omega)] at h
    exact absurd h Bool.false_ne_true
  refine List.mem_filterMap.mpr ⟨_, SMap.mem_of_get_ne hword, ?_⟩
  dsimp only
  rw [if_pos ⟨by omega, by omega, by omega, h⟩]
  have hnumber : (rHwObj + 16 * n.val - rHwObj) / 16 % 1024 = n.val := by omega
  exact congrArg some (Fin.ext hnumber)

/-- `t` comes of `s` by slots that end without a message: only their registers and the lists of waiters change, none is armed
anew, and no object serves anybody by it. -/
structure Disarmed (s t : State) : Prop where
  frame : changesOnly [.regs, .host, .sync] s t
  host : t.host = s.host
  kept : ∀ o, o < rHwObj ∨ rHwObj + 0x4000 ≤ o → reg t o = reg s o
  armed : ∀ n, slotArmed s n = false → slotArmed t n = false
  unserved : ∀ o, Machine.unserved (getObj t o)

theorem Disarmed.refl {s : State} (h : ∀ o, Machine.unserved (getObj s o)) : Disarmed s s := ⟨.refl _ s, rfl, fun _ _ => rfl, fun _ => id, h⟩

theorem Disarmed.trans {s t u : State} (h : Disarmed s t) (g : Disarmed t u) : Disarmed s u :=
  ⟨h.frame.trans g.frame, g.host.trans h.host, fun o ho => (g.kept o ho).trans (h.kept o ho), fun n => g.armed n ∘ h.armed n, g.unserved⟩

theorem disarmed_putWithdraw {s : State} (h : ∀ o, unserved (getObj s o)) (i : Fin 32768) (who : Who) : Disarmed s (putWithdraw s (.glob i, who)) :=
  ⟨rfl, rfl, fun _ _ => rfl, fun _ => id, unserved_putWithdraw h _⟩

theorem disarmed_withdrawn (ns : List (Fin 32768 × Who)) {s : State} (h : ∀ o, unserved (getObj s o)) :
    Disarmed s (withdrawn s (ns.map fun x => (.glob x.1, x.2))) := by
  induction ns generalizing s with
  | nil => exact .refl h
  | cons x ns ih =>
    have hx := disarmed_putWithdraw h x.1 x.2
    exact hx.trans (ih hx.unserved)

theorem bitAt_putFld_31 (x : Word) : bitAt (putFld x 31 31 0) 31 = false := by
  simp [bitAt, putFld]

/-- The end of a slot's wait changes the slot alone, and disarms it. -/
theorem endSlot_cancelled {s : State} (h : ∀ o, unserved (getObj s o)) (n : Fin 1024) (o : SyncObj) :
    Disarmed s (endSlot s n stCancelled o) ∧ slotArmed (endSlot s n stCancelled o) n = false := by
  have hn := n.isLt
  have hend : ∃ v, endSlot s n stCancelled o = setFld (setReg s (rHwStat + 16 * n.val) v) (rHwObj + 16 * n.val) 31 31 0 := ⟨_, rfl⟩
  obtain ⟨v, hend⟩ := hend
  have hother : ∀ k, k ≠ rHwObj + 16 * n.val → k ≠ rHwStat + 16 * n.val → reg (endSlot s n stCancelled o) k = reg s k := fun k h1 h2 => by
    rw [hend, setFld, reg_setReg_ne _ _ _ _ h1, reg_setReg_ne _ _ _ _ h2]
  have hself : slotArmed (endSlot s n stCancelled o) n = false := by
    rw [slotArmed, hend, setFld, reg_setReg_self]; exact bitAt_putFld_31 _
  refine ⟨⟨by rw [hend]; simp [changesOnly], by rw [hend]; rfl, fun k hk => hother k (by omega) (by simp only [rHwObj, rHwStat] at *; omega), fun m hm => ?_,
    by rw [hend]; exact h⟩, hself⟩
  by_cases hmn : m = n
  · rw [hmn]; exact hself
  · have : m.val ≠ n.val := fun he => hmn (Fin.ext he)
    rw [slotArmed, hother _ (by omega) (by simp only [rHwObj, rHwStat]; omega)]
    exact hm

theorem cancelSlot_spec {s : State} (h : ∀ o, unserved (getObj s o)) (n : Fin 1024) :
    Disarmed s (cancelSlot s n) ∧ slotArmed (cancelSlot s n) n = false := by
  unfold cancelSlot
  dsimp only
  split
  · rw [leaveObj_of_unserved (h _)]
    have hleft := disarmed_putWithdraw h ⟨fld (reg s (rHwObj + 16 * n.val)) 14 0 % 32768, Nat.mod_lt _ (by decide)⟩ (.slot n)
    obtain ⟨hended, hself⟩ := endSlot_cancelled hleft.unserved n (getObj s (slotObj s n))
    exact ⟨hleft.trans hended, hself⟩
  next hidle => exact ⟨.refl h, Bool.eq_false_iff.mpr hidle⟩

theorem foldl_cancelSlot_spec (ns : List (Fin 1024)) {s : State} (h : ∀ o, unserved (getObj s o)) :
    Disarmed s (ns.foldl cancelSlot s) ∧ ∀ n ∈ ns, slotArmed (ns.foldl cancelSlot s) n = false := by
  induction ns generalizing s with
  | nil => exact ⟨.refl h, nofun⟩
  | cons n ns ih =>
    obtain ⟨hfirst, hself⟩ := cancelSlot_spec h n
    obtain ⟨hrest, hall⟩ := ih hfirst.unserved
    exact ⟨hfirst.trans hrest, List.forall_mem_cons.mpr ⟨hrest.armed n hself, hall⟩⟩

/-- R417: every armed wait ends without a message. -/
theorem cancelAllSlots_spec {s : State} (h : ∀ o, unserved (getObj s o)) : Disarmed s (cancelAllSlots s) ∧ ∀ n, slotArmed (cancelAllSlots s) n = false := by
  have hleft : Disarmed s (leaveAll s ((armedSlots s).map fun n => (slotObj s n, .slot n))) := by
    have hglob : (armedSlots s).map (fun n => (slotObj s n, Who.slot n)) =
        ((armedSlots s).map fun n => ((⟨fld (reg s (rHwObj + 16 * n.val)) 14 0 % 32768, Nat.mod_lt _ (by decide)⟩ : Fin 32768), Who.slot n)).map
          fun x => (ObjRef.glob x.1, x.2) := by rw [List.map_map]; rfl
    rw [leaveAll_of_unserved h, hglob]
    have hfirst := disarmed_withdrawn ((armedSlots s).map fun n => (⟨fld (reg s (rHwObj + 16 * n.val)) 14 0 % 32768, Nat.mod_lt _ (by decide)⟩, Who.slot n)) h
    exact hfirst.trans (disarmed_withdrawn _ hfirst.unserved)
  obtain ⟨hcancelled, hall⟩ := foldl_cancelSlot_spec (armedSlots s) hleft.unserved
  refine ⟨hleft.trans hcancelled, fun n => ?_⟩
  by_cases hn : n ∈ armedSlots s
  · exact hall n hn
  · exact hcancelled.armed n (hleft.armed n (Bool.eq_false_iff.mpr (hn ∘ mem_armedSlots)))

/-! ### LINK (R417, R418) -/

theorem SMap.get_filter_key {β : Type} (d : β) (m : SMap β) (keep : Nat → Bool) (k : Nat) :
    SMap.get d (m.filter fun x => keep x.1) k = if keep k then SMap.get d m k else d := by
  induction m with
  | nil => simp [SMap.get]
  | cons p m ih =>
    obtain ⟨a, v⟩ := p
    by_cases hk : k = a
    · subst hk
      cases hkeep : keep k <;> simp [SMap.get, hkeep, ih]
    · cases hkeep : keep a <;> simp [SMap.get, hkeep, ih, hk]

/-- The offset lies outside the MSI-X table. -/
def besideMsix (o : Nat) : Bool := !(decide (rMsixTable ≤ o) && decide (o < rMsixTable + 0x8000))

theorem reg_clearMsix (s : State) (o : Nat) : reg (clearMsix s) o = if besideMsix o then reg s o else resetWord o :=
  SMap.get_filter_key (resetWord o) s.regs besideMsix o

theorem besideMsix_iff {o : Nat} : besideMsix o = true ↔ o < rMsixTable ∨ rMsixTable + 0x8000 ≤ o := by
  simp only [besideMsix, Bool.not_eq_true', Bool.and_eq_false_iff, decide_eq_false_iff_not, Nat.not_le, Nat.not_lt]

/-- The host's side of a link that is down. -/
def hostUnlinked (x : HostState) : HostState :=
  { x with pba := [], funcMask := false, barSize := 4, memSpace := false, busMaster := false, d3hot := false, perst := true, linkUp := false }

theorem linkReset_spec {s : State} (h : ∀ o, unserved (getObj s o)) : ∃ t, exec .linkReset s = .next t ∧ t.host = hostUnlinked s.host ∧
    (∀ n, slotArmed t n = false) ∧ (∀ o, rMsixTable ≤ o → o < rMsixTable + 0x8000 → reg t o = resetWord o) ∧
    (∀ o, (o < rMsixTable ∨ rMsixTable + 0x8000 ≤ o) → (o < rHwObj ∨ rHwObj + 0x4000 ≤ o) → reg t o = reg s o) ∧
    (∀ v, msixOpen t v = false) ∧ hostOpen t = false ∧ changesOnly [.regs, .host, .sync] s t := by
  obtain ⟨hdisarmed, hidle⟩ := cancelAllSlots_spec h
  have hexec : exec .linkReset s = .next (doLinkReset s) := rfl
  have hreg : ∀ o, reg (doLinkReset s) o = if besideMsix o then reg (cancelAllSlots s) o else resetWord o := fun o => reg_clearMsix _ o
  have hhost : (doLinkReset s).host = hostUnlinked s.host := by
    rw [← hdisarmed.host]; rfl
  refine ⟨_, hexec, hhost, fun n => ?_, fun o hlo hhi => ?_, fun o hout hslots => ?_, fun v => ?_, ?_, ?_⟩
  · have hn := n.isLt
    rw [slotArmed, hreg, if_pos (besideMsix_iff.mpr (by simp only [rHwObj, rMsixTable]; omega))]
    exact hidle n
  · rw [hreg, if_neg (by simp [besideMsix, hlo, hhi])]
  · rw [hreg, if_pos (besideMsix_iff.mpr hout), hdisarmed.kept o hslots]
  · rw [msixOpen, hhost]
    simp [hostUnlinked]
  · rw [hostOpen, hhost]
    simp [hostUnlinked]
  · exact hdisarmed.frame.trans rfl

theorem pcieLinkUp_enables {s : State} (hrom : passed s stRom = true) (hfin : s.start.fin ≠ .romRecovery) (hdown : s.host.linkUp = false)
    (hsec : s.img.sec = none) :
    exec .pcieLinkUp s = .next { s with host := { s.host with perst := false, linkUp := true, memSpace := true } } := by
  have hexec : exec .pcieLinkUp s = .next (doPcieLinkUp s) := rfl
  rw [hexec, doPcieLinkUp, if_neg (by simp [hrom, hfin, hdown]), restartExport, hsec]

/-! ### CORE (R92, R415) -/

/-- `t` comes of `s` by withdrawals on die `d`: objects, readies and gang timers change, and of that die its tile store and
vector programs stay. -/
structure Withdrew (d : Die) (s t : State) : Prop where
  frame : changesOnly [.sync, .dies, .gang] s t
  others : ∀ e, e ≠ d → die t e = die s e
  store : (die t d).ts = (die s d).ts
  progs : (die t d).prog = (die s d).prog

theorem Withdrew.refl (d : Die) (s : State) : Withdrew d s s := ⟨.refl _ s, fun _ _ => rfl, rfl, rfl⟩

theorem Withdrew.trans {d : Die} {s t u : State} (h : Withdrew d s t) (g : Withdrew d t u) : Withdrew d s u :=
  ⟨h.frame.trans g.frame, fun e he => (g.others e he).trans (h.others e he), g.store.trans h.store, g.progs.trans h.progs⟩

theorem Withdrew.foldl {α : Type} {d : Die} (f : State → α → State) (l : List α) (h : ∀ s, ∀ x ∈ l, Withdrew d s (f s x)) (s : State) :
    Withdrew d s (l.foldl f s) :=
  List.foldlRecOn (motive := fun t => Withdrew d s t) l f (.refl d s) fun _ ht x hx => ht.trans (h _ x hx)

theorem withdrew_updDie {s : State} {d : Die} {f : DieState → DieState} (hts : ∀ x, (f x).ts = x.ts) (hprog : ∀ x, (f x).prog = x.prog) :
    Withdrew d s (updDie s d f) :=
  ⟨updDie_frame (by decide) s d f, fun e he => die_updDie_ne _ _ _ _ he, by rw [die_updDie_self, hts], by rw [die_updDie_self, hprog]⟩

/-- An object that no other die owns. -/
def ownedBy (d : Die) (r : ObjRef) : Prop := ∀ e i, r = .loc e i → e = d

theorem withdrew_putWithdraw {d : Die} {x : ObjRef × Who} (h : ownedBy d x.1) (s : State) : Withdrew d s (putWithdraw s x) := by
  obtain ⟨r, who⟩ := x
  cases r with
  | glob i => exact ⟨putObj_frame (by decide) _ _ _, fun _ _ => rfl, rfl, rfl⟩
  | loc e i =>
    obtain rfl := h e i rfl
    unfold putWithdraw putObj
    dsimp only
    exact withdrew_updDie (by exact fun _ => rfl) (by exact fun _ => rfl)

theorem withdrew_withdrawReady (d : Die) (s : State) (c : Sid) : Withdrew d s (withdrawReady s d c) := by
  have harr : Withdrew d s (updArr s d fun a => { a with ready := a.ready.put c none }) := withdrew_updDie (fun _ => rfl) fun _ => rfl
  unfold withdrawReady
  dsimp only
  split
  · exact harr.trans ⟨State.erase_gang _ _ (by decide), fun _ _ => rfl, rfl, rfl⟩
  · exact harr

/-- The waits of a die's streams are given up. -/
theorem withdrew_withdrawAll {s : State} {d : Die} (hrefs : ∀ c e i, (str s d c).waitRef = some (.loc e i) → e = d)
    (h : ∀ o, unserved (getObj s o)) : Withdrew d s (withdrawAll s (allSids.map fun c => (d, c))) := by
  rw [withdrawAll, leaveAll_of_unserved h]
  generalize hxs : ((allSids.map fun c => (d, c)).filterMap fun x => (str s x.1 x.2).waitRef.map fun r => (r, Who.stream x.1 x.2)) = xs
  have howned : ∀ x ∈ xs, ownedBy d x.1 := fun x hx e i hloc => by
    rw [← hxs] at hx
    obtain ⟨y, hy, hyx⟩ := List.mem_filterMap.mp hx
    obtain ⟨c, -, rfl⟩ := List.mem_map.mp hy
    obtain ⟨r, hr, rfl⟩ := Option.map_eq_some_iff.mp hyx
    exact hrefs c e i (hr.trans (congrArg some hloc))
  have hwithdrawn : ∀ s, Withdrew d s (withdrawn s xs) := .foldl _ xs fun s x hx => withdrew_putWithdraw (howned x hx) s
  exact (hwithdrawn s).trans (hwithdrawn _)

/-- What a die is once its CORE is reset. -/
def coreCleared (x : DieState) : DieState :=
  { x with str := ⟨{}, {}, {}, {}⟩, arr := {}, ctx := ⟨{}, {}, {}, {}⟩, objs := [], objGen := 0, coreReset := true }

/-- R415: a CORE reset takes the die's own state but its stores. -/
theorem resetCore_spec {s : State} {d : Die} (hrefs : ∀ c e i, (str s d c).waitRef = some (.loc e i) → e = d)
    (h : ∀ o, unserved (getObj s o)) (hidle : s.coll.active = []) :
    Withdrew d s (resetCore s d) ∧ ∃ x, die (resetCore s d) d = coreCleared x := by
  unfold resetCore
  extract_lets left quiet
  have hleft : Withdrew d s left :=
    (withdrew_withdrawAll hrefs h).trans (.foldl _ _ (fun s c _ => withdrew_withdrawReady d s c) _)
  have hquiet : quiet = left := by
    simp only [quiet, resetColls, hleft.frame.coll (by decide), hidle, List.filter_nil, List.foldl_nil, ite_self]
  rw [hquiet]
  exact ⟨hleft.trans (withdrew_updDie (fun _ => rfl) fun _ => rfl), die left d, die_updDie_self _ _ _⟩

/-- The die's CORE out of service, before the image hears of it. -/
def coreOut (s : State) (d : Die) : State := updDie (rampBreak (resetCore s d)) d fun x => { x with out := true }

/-- A die that has lost its CORE, in `t`, of what it was in `s`. -/
structure CoreLost (d : Die) (s t : State) : Prop where
  cleared : ∀ c, str t d c = {} ∧ vctx t d c = {}
  arr : (die t d).arr = {}
  objs : ∀ i, getObj t (.loc d i) = {}
  out : (die t d).out = true
  coreReset : (die t d).coreReset = true
  store : (die t d).ts = (die s d).ts
  progs : (die t d).prog = (die s d).prog
  others : ∀ e, e ≠ d → die t e = die s e
  mem : t.mem = s.mem

theorem coreOut_spec {s : State} {d : Die} (hrefs : ∀ c e i, (str s d c).waitRef = some (.loc e i) → e = d)
    (h : ∀ o, unserved (getObj s o)) (hidle : s.coll.active = []) :
    CoreLost d s (coreOut s d) ∧ (coreOut s d).img = s.img ∧ (coreOut s d).upd = s.upd := by
  obtain ⟨hreset, x, hx⟩ := resetCore_spec hrefs h hidle
  have hbreak := (told_rampBreak (resetCore s d)).frame
  have hmark : changesOnly [.dies] (rampBreak (resetCore s d)) (coreOut s d) := updDie_frame (by decide) _ _ _
  have hdies := die_congr (hbreak.dies (by decide))
  have hself : die (coreOut s d) d = { coreCleared x with out := true } := by rw [coreOut, die_updDie_self, hdies, hx]
  refine ⟨⟨fun c => ?_, by rw [hself]; rfl, fun i => ?_, by rw [hself], by rw [hself]; rfl, ?_, ?_, fun e he => ?_, ?_⟩, ?_, ?_⟩
  · rw [str, vctx, hself]
    cases c <;> exact ⟨rfl, rfl⟩
  · rw [getObj, localDefault, hself]; rfl
  · rw [← hreset.store, hx, hself]
  · rw [← hreset.progs, hx, hself]
  · rw [coreOut, die_updDie_ne _ _ _ _ he, hdies, hreset.others e he]
  · exact (hmark.mem (by decide)).trans ((hbreak.mem (by decide)).trans (hreset.frame.mem (by decide)))
  · exact (hmark.img (by decide)).trans ((hbreak.img (by decide)).trans (hreset.frame.img (by decide)))
  · exact (hmark.upd (by decide)).trans ((hbreak.upd (by decide)).trans (hreset.frame.upd (by decide)))

theorem dieOut_eq (s : State) (d : Die) : dieOut s d =
    if (coreOut s d).img.st = .none ∨ (coreOut s d).img.st = .shadow then coreOut s d
    else if inPass2 (coreOut s d) ∧ (coreOut s d).upd.replay.isNone then pass2Fault (coreOut s d) 0xFFFF (BitVec.ofNat 8 d.val) p2CdOut
    else if (coreOut s d).img.st = .verifying ∨ (coreOut s d).img.st = .loading then coreOut s d
    else stopImage (coreOut s d) 10 := rfl

/-- Outside pass 2 a running image stops with CD_OUT. -/
theorem coreReset_running {s : State} {d : Die} (hrefs : ∀ c e i, (str s d c).waitRef = some (.loc e i) → e = d)
    (h : ∀ o, unserved (getObj s o)) (hidle : s.coll.active = []) (hp2 : s.upd.p2 = none) (hrun : s.img.st = .running) :
    ∃ t, exec (.coreReset d) s = .next t ∧ CoreLost d s t ∧ t.img.st = .stopping ∧ t.img.halt = true ∧
      t.img.stop = (if s.img.stop = 0 then 10 else s.img.stop) := by
  obtain ⟨hlost, himg, hupd⟩ := coreOut_spec hrefs h hidle
  have hexec : exec (.coreReset d) s = .next (dieOut s d) := rfl
  have hout : dieOut s d = stopImage (coreOut s d) 10 := by
    simp only [dieOut_eq, himg, hrun, inPass2, hupd, hp2, Option.isSome_none, Bool.false_eq_true, false_and, or_self, if_false, reduceCtorEq]
  rw [hexec, hout]
  clear hout
  generalize coreOut s d = t at *
  have hstop : stopImage t 10 =
      { t with img := { s.img with st := .stopping, halt := true, stop := if s.img.stop = 0 then 10 else s.img.stop } } := by
    simp only [stopImage, himg, hrun, reduceCtorEq, if_false]
  rw [hstop]
  obtain ⟨hcleared, harr, hobjs, hserved, hreset, hstore, hprogs, hothers, hmem⟩ := hlost
  exact ⟨_, rfl, ⟨hcleared, harr, hobjs, hserved, hreset, hstore, hprogs, hothers, hmem⟩, rfl, rfl, rfl⟩

theorem coreReset_noImage {s : State} {d : Die} (hrefs : ∀ c e i, (str s d c).waitRef = some (.loc e i) → e = d)
    (h : ∀ o, unserved (getObj s o)) (hidle : s.coll.active = []) (hnone : s.img.st = .none) :
    ∃ t, exec (.coreReset d) s = .next t ∧ CoreLost d s t ∧ t.img = s.img := by
  obtain ⟨hlost, himg, -⟩ := coreOut_spec hrefs h hidle
  have hexec : exec (.coreReset d) s = .next (dieOut s d) := rfl
  have hout : dieOut s d = coreOut s d := by
    rw [dieOut_eq, himg, if_pos (.inl hnone)]
  exact ⟨_, hexec.trans (congrArg _ hout), hlost, himg⟩

/-! ### The four resets and the hot-swap -/

theorem modReset_warm {m : Master} {v : Word} {s : State} (hacc : mayAccess s m rReset) (hkey : fld v 31 16 = 0x5A5A) (htype : fld v 1 0 = 1) :
    ∃ t, exec (.modResetWarm m v) s = .next t ∧ warmStarted (resetSource m) s t := by
  rw [exec_modReset (.inl rfl) hacc, modResetEffect_warm hkey htype]
  exact ⟨_, rfl, (warmReset_spec (resetSource m) (told_emit s (.completion m .sc []))).1⟩

theorem modReset_cold {m : Master} {v : Word} {s : State} (hacc : mayAccess s m rReset) (hkey : fld v 31 16 = 0x5A5A) (htype : fld v 1 0 = 2)
    (hclosed : s.pwr.closed = true) : ∃ t, exec (.modResetCold m v) s = .next t ∧ coldStarted (resetSource m) s t := by
  rw [exec_modReset (.inr rfl) hacc, modResetEffect_cold hkey htype]
  exact ⟨_, rfl, (coldReset_spec (resetSource m) (told_emit s (.completion m .sc [])) hclosed).1⟩

/-- R500: the BMC's WARM reset, which is answered first. -/
theorem reset_warm {p : Path} {v : Word} {s : State} (hp : p ≠ .mbox) (hfin : s.start.fin = .ready ∨ s.start.fin = .mgmtOnly)
    (htype : fld v 1 0 = 1) : ∃ t, exec (.reset p v) s = .next t ∧ warmStarted 2 s t ∧ .response p msOk [] ∈ t.out := by
  rw [exec_reset hp hfin, modResetEffect_warm (fld_keyed_key v) ((fld_keyed_type v).trans htype)]
  obtain ⟨hstarted, -⟩ := warmReset_spec (resetSource .bmc) (told_emit s (.response p msOk []))
  obtain ⟨-, hsent⟩ := warmReset_spec (resetSource .bmc) (Told.refl (emit s (.response p msOk [])))
  exact ⟨_, rfl, hstarted, hsent _ List.mem_cons_self⟩

theorem reset_cold {p : Path} {v : Word} {s : State} (hp : p ≠ .mbox) (hfin : s.start.fin = .ready ∨ s.start.fin = .mgmtOnly)
    (htype : fld v 1 0 = 2) (hclosed : s.pwr.closed = true) :
    ∃ t, exec (.reset p v) s = .next t ∧ coldStarted 2 s t ∧ .response p msOk [] ∈ t.out := by
  rw [exec_reset hp hfin, modResetEffect_cold (fld_keyed_key v) ((fld_keyed_type v).trans htype)]
  obtain ⟨hstarted, -⟩ := coldReset_spec (resetSource .bmc) (told_emit s (.response p msOk [])) hclosed
  obtain ⟨-, hsent⟩ := coldReset_spec (resetSource .bmc) (Told.refl (emit s (.response p msOk []))) hclosed
  exact ⟨_, rfl, hstarted, hsent _ List.mem_cons_self⟩

theorem heartbeatMiss_eq {s : State} (h : passed s stRom = true) : exec .heartbeatMiss s = .next (warmReset s srcWatchdog true) := congrArg _ (if_pos h)

theorem xtalFailReset_eq {s : State} {n : Nat} (h : s.clocks.failAt = some n) :
    exec .xtalFailReset s = .next (warmReset (advanceTo (n + 100000000) s) srcMsd true) := by
  have hexec : exec .xtalFailReset s = .next (doXtalFailReset s) := rfl
  rw [hexec, doXtalFailReset, h]

theorem pcieLinkUp_early {s : State} (h : passed s stRom = false) : exec .pcieLinkUp s = .next s := by
  have hexec : exec .pcieLinkUp s = .next (doPcieLinkUp s) := rfl
  rw [hexec, doPcieLinkUp, if_pos (.inl (by rw [h]; rfl))]

/-- A latched opening outlasts the voltage and the pins. -/
theorem hotswapClose_latched {s : State} (hopen : s.pwr.closed = false) (hlatched : s.pwr.latched = true) :
    ∃ t, exec .hotswapClose s = .next t ∧ t.pwr.closed = false ∧ t.pwr.latched = true ∧ changesOnly [.pwr] s t := by
  have hheld := closeSwap_of_held (s := { s with pwr := { s.pwr with mateA := false, mateB := false, undervolt := false } }) (.inl hlatched)
  have hexec : exec .hotswapClose s = .next (doHotswapClose s) := rfl
  rw [hexec, doHotswapClose, hheld]
  exact ⟨_, rfl, hopen, hlatched, State.erase_pwr s _ (by decide)⟩

/-- The state of the high-voltage side once a mating pin has risen. -/
def pinRisen (pin : Fin 2) (p : PowerState) : PowerState := { p with mateA := p.mateA || decide (pin = 0), mateB := p.mateB || decide (pin = 1) }

theorem exec_matePinRise (pin : Fin 2) (s : State) : exec (.matePinRise pin) s = .next (openSwap { s with pwr := pinRisen pin s.pwr }) := by
  have hexec : exec (.matePinRise pin) s = .next (doMatePinRise pin s) := rfl
  have hA : decide (pin.val = 0) = decide (pin = 0) := decide_eq_decide.mpr (Fin.ext_iff (a := pin) (b := 0)).symm
  have hB : decide (pin.val = 1) = decide (pin = 1) := decide_eq_decide.mpr (Fin.ext_iff (a := pin) (b := 1)).symm
  rw [hexec, doMatePinRise, hA, hB, pinRisen]

/-- R513: the input applied anew ends a latched opening; a mating pin still holds the hot-swap open. -/
theorem powerApplied_spec (s : State) : ∃ t, exec .powerApplied s = .next t ∧ ((s.pwr.mateA = true ∨ s.pwr.mateB = true) → s.pwr.closed = false →
      t.pwr.closed = false ∧ t.pwr.latched = false) ∧
    (s.pwr.mateA = false → s.pwr.mateB = false → s.pwr.closed = false → coldStarted 0 { s with pwr := {} } t) := by
  have hexec : exec .powerApplied s = .next (doPowerApplied s) := rfl
  refine ⟨_, hexec, fun hmate hopen => ?_, fun hA hB hopen => ?_⟩
  · have hheld := closeSwap_of_held (s := { s with pwr := { s.pwr with latched := false, undervolt := false } }) (.inr hmate)
    rw [doPowerApplied, openSwap_of_open hopen, hheld]
    exact ⟨hopen, rfl⟩
  · rw [doPowerApplied, openSwap_of_open hopen]
    exact closeSwap_starts _ hopen rfl hA hB rfl

/-- Settles O36: the starts, the LINK reset, the CORE reset and the hot-swap. -/
theorem resets : Obligations.Resets := by
  unfold Obligations.Resets
  refine ⟨⟨fun m v s hacc hkey htype => ?_, fun m v s hacc hkey htype hclosed => ?_, fun m v s i hi hacc hno => ?_, fun p v s hp hfin htype => ?_,
    fun p v s hp hfin htype hclosed => ?_, fun s hrom => ?_, fun s n hfail => ?_⟩, ⟨fun s => linkReset_spec, fun s => pcieLinkUp_enables, fun s hrom => ?_⟩,
    ⟨fun d s hrefs h hidle hp2 hrun => ?_, fun d s hrefs h hidle hnone => ?_⟩, fun s => ?_, fun s hopen hunlatched => ?_, fun s hopen hlatched => ?_,
    fun s hclosed => ?_, fun pin s hclosed => ?_, fun pin s hopen => ?_, fun i s hi hclosed => ?_, fun i s hi hopen => ?_⟩
  · exact modReset_warm hacc hkey htype
  · exact modReset_cold hacc hkey htype hclosed
  · rw [exec_modReset hi hacc, modResetEffect_none hno]
  · exact reset_warm hp hfin htype
  · exact reset_cold hp hfin htype hclosed
  · exact ⟨_, heartbeatMiss_eq hrom, (warmReset_spec srcWatchdog (.refl s)).1⟩
  · exact ⟨_, xtalFailReset_eq hfail, (warmReset_spec srcMsd (.refl _)).1⟩
  · exact pcieLinkUp_early hrom
  · obtain ⟨t, hexec, hlost, hst, hhalt, hstop⟩ := coreReset_running hrefs h hidle hp2 hrun
    exact ⟨t, hexec, hlost.cleared, hlost.arr, hlost.objs, hlost.out, hlost.coreReset, hlost.store, hlost.progs, hst, hhalt, hstop, hlost.others, hlost.mem⟩
  · obtain ⟨t, hexec, hlost, himg⟩ := coreReset_noImage hrefs h hidle hnone
    exact ⟨t, hexec, hlost.cleared, hlost.out, himg, hlost.others, hlost.mem⟩
  · exact powerApplied_spec s
  · exact ⟨_, rfl, closeSwap_starts _ hopen hunlatched rfl rfl rfl⟩
  · exact hotswapClose_latched hopen hlatched
  · have hexec : exec .hvUndervoltage s = .next (openSwap { s with pwr := { s.pwr with undervolt := true } }) := congrArg _ (if_pos hclosed)
    obtain ⟨hcut, hpwr⟩ := supplyCut_openSwap (s := s) { s.pwr with undervolt := true } hclosed
    exact ⟨_, hexec, hcut, by rw [hpwr], by rw [hpwr]⟩
  · obtain ⟨hcut, hpwr⟩ := supplyCut_openSwap (s := s) (pinRisen pin s.pwr) hclosed
    exact ⟨_, exec_matePinRise pin s, hcut, by rw [hpwr]; rfl, by rw [hpwr]; rfl, by rw [hpwr]; rfl⟩
  · rw [exec_matePinRise, openSwap_of_open (s := { s with pwr := pinRisen pin s.pwr }) hopen, pinRisen]
  · obtain ⟨b, htold, hsent, hexec⟩ := exec_latches hi hclosed
    obtain ⟨hcut, hlatched, -⟩ := latchOpen_spec htold hclosed
    obtain ⟨-, -, hkept⟩ := latchOpen_spec (Told.refl b) (by rw [htold.frame.pwr (by decide)]; exact hclosed)
    exact ⟨_, hexec, hcut, hlatched, fun h => hkept _ (hsent h)⟩
  · exact exec_opens_of_open (by simpa [latches] using hi) hopen

end Sys2Proof.Machine
end

section
/-! PROOF. The vector engine: scalar registers and lanes after a write, the issue of an instruction, and how it completes (R138, R145, R146). -/
namespace Sys2Proof.Machine
open Sys2Proof

/-! ### Scalar registers -/

theorem VCtx.setS_eq (x : VCtx) (r : Nat) (w : DWord) : x.setS r w = { x with sregs := (x.setS r w).sregs } := by
  unfold VCtx.setS
  split <;> rfl

theorem VCtx.sreg_setS (x : VCtx) (r q : Nat) (w : DWord) : (x.setS r w).sreg q = if q = r ∧ q ≠ 0 then w else x.sreg q := by
  by_cases hr : r = 0
  · have hno : ¬ (q = r ∧ q ≠ 0) := fun h => h.2 (h.1.trans hr)
    rw [VCtx.setS, if_pos hr, if_neg hno]
  · rw [VCtx.setS, if_neg hr]
    by_cases hq : q = r
    · subst hq
      simp only [VCtx.sreg, hr, if_false, SMap.get_set_self, ne_eq, not_false_eq_true, and_self, if_true]
    · simp only [VCtx.sreg, SMap.get_set_ne _ _ _ _ _ _ hq, hq, false_and, if_false]

/-! ### Lanes -/

theorem VCtx.lane_setLane (x : VCtx) (r i q j : Nat) (w : Word) :
    (x.setLane r i w).lane q j = if 2048 * q + j = 2048 * r + i then w else x.lane q j := by
  unfold VCtx.lane VCtx.setLane
  split
  · rename_i h
    rw [h, SMap.get_set_self]
  · exact SMap.get_set_ne _ _ _ _ _ _ ‹_›

/-- `y` is `x` with other vector registers. -/
def VCtx.lanesOnly (x y : VCtx) : Prop := ∃ m, y = { x with vregs := m }

theorem VCtx.lanesOnly.refl (x : VCtx) : x.lanesOnly x := ⟨x.vregs, rfl⟩
theorem VCtx.lanesOnly.trans {x y z : VCtx} (h : x.lanesOnly y) (g : y.lanesOnly z) : x.lanesOnly z := by
  obtain ⟨m, rfl⟩ := h
  obtain ⟨n, rfl⟩ := g
  exact ⟨n, rfl⟩

theorem VCtx.lanesOnly_setLane (x : VCtx) (r i : Nat) (w : Word) : x.lanesOnly (x.setLane r i w) := ⟨_, rfl⟩

theorem VCtx.lanesOnly_foldl {α : Type} {f : VCtx → α → VCtx} (hf : ∀ (y : VCtx) a, y.lanesOnly (f y a)) (l : List α) (x : VCtx) :
    x.lanesOnly (l.foldl f x) := by
  induction l generalizing x with
  | nil => exact .refl x
  | cons a l ih => exact (hf x a).trans (ih _)

theorem VCtx.lanesOnly_putLane (x : VCtx) (rs : List Nat) (i : Nat) (ws : List Word) : x.lanesOnly (x.putLane rs i ws) :=
  lanesOnly_foldl (fun (y : VCtx) (p : Nat × Word) => y.lanesOnly_setLane p.1 i p.2) _ x

theorem VCtx.lanesOnly_zeroInactive (x : VCtx) (v : VIns) (rs : List Nat) : x.lanesOnly (x.zeroInactive v rs) := by
  unfold VCtx.zeroInactive
  split
  · exact lanesOnly_foldl (fun y i => y.lanesOnly_putLane rs i _) _ x
  · exact .refl x

theorem VCtx.lanesOnly_emit (x : VCtx) (v : VIns) (rs : List Nat) (f : Nat → List Word) : x.lanesOnly (x.emit v rs f) :=
  (x.lanesOnly_zeroInactive v rs).trans (lanesOnly_foldl (fun y i => y.lanesOnly_putLane rs i (f i)) _ _)

/-- What register `q` holds in a lane where the registers `rs` took the words `ws`; before, it held `w`. -/
def written (rs : List Nat) (ws : List Word) (q : Nat) (w : Word) : Word := (rs.zip ws).foldl (fun o p => if q = p.1 then p.2 else o) w

@[simp] theorem written_single (r : Nat) (a w : Word) : written [r] [a] r w = a := if_pos rfl
@[simp] theorem written_pair_low (r : Nat) (a b w : Word) : written [r, r + 1] [a, b] r w = a := by simp [written]
@[simp] theorem written_pair_high (r : Nat) (a b w : Word) : written [r, r + 1] [a, b] (r + 1) w = b := by simp [written]

theorem written_of_notMem {rs : List Nat} {q : Nat} (h : q ∉ rs) (ws : List Word) (w : Word) : written rs ws q w = w := by
  induction rs generalizing ws w with
  | nil => rfl
  | cons r rs ih =>
    cases ws with
    | nil => rfl
    | cons a ws =>
      obtain ⟨hne, hrest⟩ := not_or.mp (List.mem_cons.not.mp h)
      have hcons : written (r :: rs) (a :: ws) q w = written rs ws q (if q = r then a else w) := rfl
      rw [hcons, if_neg hne, ih hrest]

/-- The words of lane `i` of the registers `rs` are not those of lane `j` of register `q`, unless lane and register are the same. -/
def laneApart (rs : List Nat) (q j i : Nat) : Prop := ∀ r ∈ rs, 2048 * q + j = 2048 * r + i → q = r ∧ j = i

theorem laneApart_of_lt {i j : Nat} (rs : List Nat) (q : Nat) (hj : j < 2048) (hi : i < 2048) : laneApart rs q j i := fun r _ h => by omega
theorem laneApart_self (q j i : Nat) : laneApart [q] q j i := fun r hr h => by
  obtain rfl := List.mem_singleton.mp hr
  omega

theorem VCtx.lane_putLane (x : VCtx) {rs : List Nat} {q j i : Nat} (h : laneApart rs q j i) (ws : List Word) :
    (x.putLane rs i ws).lane q j = if j = i then written rs ws q (x.lane q j) else x.lane q j := by
  induction rs generalizing x ws with
  | nil => exact (ite_self _).symm
  | cons r rs ih =>
    cases ws with
    | nil => exact (ite_self _).symm
    | cons a ws =>
      have hput : x.putLane (r :: rs) i (a :: ws) = (x.setLane r i a).putLane rs i ws := rfl
      have hwritten : ∀ w, written (r :: rs) (a :: ws) q w = written rs ws q (if q = r then a else w) := fun _ => rfl
      have hkey : 2048 * q + j = 2048 * r + i ↔ q = r ∧ j = i :=
        ⟨h r List.mem_cons_self, fun ⟨hq, hj⟩ => by rw [hq, hj]⟩
      rw [hput, ih _ (fun p hp => h p (List.mem_cons_of_mem _ hp)), lane_setLane, hwritten]
      simp only [hkey]
      by_cases hji : j = i <;> simp only [hji, and_true, and_false, if_true, if_false]

/-- Writing lane by lane: each lane of the list holds its own words, every other lane what it held. -/
theorem VCtx.lane_foldl_putLane {rs ls : List Nat} {q j : Nat} (x : VCtx) (f : Nat → List Word) (hnd : ls.Nodup)
    (h : ∀ i ∈ ls, laneApart rs q j i) :
    (ls.foldl (fun y i => y.putLane rs i (f i)) x).lane q j = if j ∈ ls then written rs (f j) q (x.lane q j) else x.lane q j := by
  induction ls generalizing x with
  | nil => rfl
  | cons i ls ih =>
    obtain ⟨hnot, hrest⟩ := List.nodup_cons.mp hnd
    rw [List.foldl_cons, ih _ hrest fun k hk => h k (List.mem_cons_of_mem _ hk), lane_putLane _ (h i List.mem_cons_self)]
    by_cases hji : j = i
    · subst hji
      rw [if_neg hnot, if_pos rfl, if_pos List.mem_cons_self]
    · simp only [hji, if_false, List.mem_cons, false_or]

theorem VCtx.mem_active (x : VCtx) (v : VIns) (i : Nat) : i ∈ x.active v ↔ i < x.vl ∧ x.maskBit v.mask i = true := by
  simp only [VCtx.active, List.mem_filter, List.mem_range]
theorem VCtx.mem_inactive (x : VCtx) (v : VIns) (i : Nat) : i ∈ x.inactive v ↔ i < x.vl ∧ ¬ x.maskBit v.mask i = true := by
  simp only [VCtx.inactive, List.mem_filter, List.mem_range, Bool.not_eq_true', Bool.not_eq_true]
theorem VCtx.nodup_active (x : VCtx) (v : VIns) : (x.active v).Nodup := List.nodup_range.filter _
theorem VCtx.nodup_inactive (x : VCtx) (v : VIns) : (x.inactive v).Nodup := List.nodup_range.filter _

theorem VCtx.lane_zeroInactive (x : VCtx) (v : VIns) {rs : List Nat} {q j : Nat} (h : ∀ i < x.vl, laneApart rs q j i) :
    (x.zeroInactive v rs).lane q j = if (j < x.vl ∧ ¬ x.maskBit v.mask j = true) ∧ v.zero = true
      then written rs (rs.map fun _ => 0) q (x.lane q j) else x.lane q j := by
  unfold VCtx.zeroInactive
  split
  · rename_i hzero
    rw [lane_foldl_putLane _ _ (x.nodup_inactive v) fun i hi => h i ((x.mem_inactive v i).mp hi).1]
    simp only [mem_inactive, hzero, and_true]
  · rename_i hzero
    exact (if_neg fun hn => hzero hn.2).symm

/-- R146: an active lane takes its words; an inactive one below VL keeps its own or, with ZERO, becomes +0. -/
theorem VCtx.lane_emit (x : VCtx) (v : VIns) {rs : List Nat} {q j : Nat} (f : Nat → List Word) (h : ∀ i < x.vl, laneApart rs q j i) :
    (x.emit v rs f).lane q j = if j < x.vl ∧ x.maskBit v.mask j = true then written rs (f j) q (x.lane q j)
      else if j < x.vl ∧ v.zero = true then written rs (rs.map fun _ => 0) q (x.lane q j) else x.lane q j := by
  rw [VCtx.emit, lane_foldl_putLane _ _ (x.nodup_active v) fun i hi => h i ((x.mem_active v i).mp hi).1, lane_zeroInactive x v h]
  simp only [mem_active]
  by_cases hvl : j < x.vl <;> by_cases hmask : x.maskBit v.mask j = true <;> simp [hvl, hmask]

/-! ### Contexts and streams -/

theorem vctx_updCtx_ne (s : State) (d : Die) (c : Sid) (f : VCtx → VCtx) {e : Die} {k : Sid} (h : e ≠ d ∨ k ≠ c) :
    vctx (updCtx s d c f) e k = vctx s e k := by
  by_cases he : e = d
  · subst he
    have hk : k ≠ c := h.resolve_left fun hn => hn rfl
    simp only [vctx, updCtx, die_updDie_self, PerStream.get_put_ne _ _ _ _ hk]
  · simp only [vctx, updCtx, die_updDie_ne _ _ _ _ he]

theorem str_updCtx (s : State) (d : Die) (c : Sid) (f : VCtx → VCtx) (e : Die) (k : Sid) : str (updCtx s d c f) e k = str s e k := by
  by_cases he : e = d
  · subst he
    simp only [str, updCtx, die_updDie_self]
  · simp only [str, updCtx, die_updDie_ne _ _ _ _ he]

theorem tsByte_updCtx (s : State) (d : Die) (c : Sid) (f : VCtx → VCtx) (e : Die) (o : Nat) : tsByte (updCtx s d c f) e o = tsByte s e o := by
  by_cases he : e = d
  · subst he
    simp only [tsByte, updCtx, die_updDie_self]
  · simp only [tsByte, updCtx, die_updDie_ne _ _ _ _ he]

/-! ### Counters -/

theorem reg64_addReg64_self (s : State) (o n : Nat) : reg64 (addReg64 s o n) o = reg64 s o + w64 n := reg64_setReg64_self s o _

theorem reg_addReg64_ne (s : State) {o p : Nat} (n : Nat) (hl : p ≠ o) (hh : p ≠ o + 4) : reg (addReg64 s o n) p = reg s p :=
  reg_setReg64_ne s o p _ hl hh

theorem reg64_addReg64_ne (s : State) {o p : Nat} (n : Nat) (h : p + 4 < o ∨ o + 4 < p) : reg64 (addReg64 s o n) p = reg64 s p := by
  rw [reg64, reg64, reg_addReg64_ne s n (by omega) (by omega), reg_addReg64_ne s n (by omega) (by omega)]

@[simp] theorem die_addReg64 (s : State) (o n : Nat) (d : Die) : die (addReg64 s o n) d = die s d := by
  simp only [die, addReg64, setReg64, setReg_dies]
theorem vctx_addReg64 (s : State) (o n : Nat) (d : Die) (c : Sid) : vctx (addReg64 s o n) d c = vctx s d c := by
  simp only [vctx, die_addReg64]
theorem str_addReg64 (s : State) (o n : Nat) (d : Die) (c : Sid) : str (addReg64 s o n) d c = str s d c := by
  simp only [str, die_addReg64]

/-! ### Issue (R138, R167) -/

/-- The module once the instruction of `v` has been counted. -/
def vecIssued (v : VIns) (s : State) : State := addReg64 s (cdWin v.die.val + rVecInstr) 1

@[simp] theorem die_issued (v : VIns) (s : State) (d : Die) : die (vecIssued v s) d = die s d := die_addReg64 s _ 1 d
@[simp] theorem vctx_issued (v : VIns) (s : State) (d : Die) (c : Sid) : vctx (vecIssued v s) d c = vctx s d c := vctx_addReg64 s _ 1 d c

theorem fld_insWord {op : Nat} (v : VIns) (h : op < 256) : fld (insWord op v) 63 56 = op := by
  have hop : insWord op v >>> 56 = (BitVec.ofNat 8 op).setWidth 64 := by
    ext i hi
    rw [insWord, BitVec.getElem_ushiftRight, BitVec.getLsbD_append, BitVec.getElem_setWidth]
    simp
  have hfld : fld (insWord op v) 63 56 = (insWord op v >>> 56).toNat % 256 := by
    simp [fld, BitVec.extractLsb, BitVec.extractLsb']
  rw [hfld, hop, BitVec.toNat_setWidth, BitVec.toNat_ofNat]
  omega

theorem lt_of_opKnown {op : Nat} (h : opKnown op = true) : op < 256 := by
  simp [opKnown] at h
  omega

/-- An instruction that is legal and next in its program is counted and does its work. -/
theorem vecRun_ready {s : State} {v : VIns} {i : Instr} {op : Nat} (h : vecReady s v i) (hop : vecOpcode i = op) (hk : opKnown op = true)
    (run : State → State) : vecRun op v false false run s = run (vecIssued v s) := by
  obtain ⟨hrun, hcore, hwait, hpc, hword⟩ := h
  have hnext : nextWord s v.die v.ctx = insWord op v := by rw [nextWord, hword, hop, insWord]
  have hmay : vecMay s v op = true := by simp only [vecMay, hrun, hcore, hwait, Bool.not_false, Bool.true_or, Bool.and_self]
  simp only [vecRun, hmay, hnext, fld_insWord v (lt_of_opKnown hk), hk, hwait, Nat.not_lt.mpr hpc, Bool.not_true, Bool.false_eq_true, if_false,
    ne_eq, not_true_eq_false, vecIssued]

/-! ### Completion -/

/-- In `u` the instruction of `v` has been counted; contexts and streams are those of `s`. -/
structure VecRan (v : VIns) (s u : State) : Prop where
  instr : reg64 u (cdWin v.die.val + rVecInstr) = reg64 s (cdWin v.die.val + rVecInstr) + 1
  ctx : ∀ e c, vctx u e c = vctx s e c
  str : ∀ e c, str u e c = Machine.str s e c

theorem vecRan_issued (v : VIns) (s : State) : VecRan v s (vecIssued v s) := by
  refine ⟨?_, fun e c => vctx_addReg64 s _ 1 e c, fun e c => str_addReg64 s _ 1 e c⟩
  rw [vecIssued, reg64_addReg64_self, show w64 1 = 1 from rfl]

theorem VecRan.addReg64 {v : VIns} {s u : State} (h : VecRan v s u) {o : Nat} (n : Nat)
    (ho : cdWin v.die.val + rVecInstr + 4 < o ∨ o + 4 < cdWin v.die.val + rVecInstr) : VecRan v s (addReg64 u o n) :=
  ⟨(reg64_addReg64_ne u n ho).trans h.instr, fun e c => (vctx_addReg64 u o n e c).trans (h.ctx e c),
    fun e c => (str_addReg64 u o n e c).trans (h.str e c)⟩

theorem VecRan.updCtx {v : VIns} {s u : State} (h : VecRan v s u) (f : VCtx → VCtx) : vecCounted v s (updCtx u v.die v.ctx f) ∧
    vctx (updCtx u v.die v.ctx f) v.die v.ctx = f (vctx s v.die v.ctx) :=
  ⟨⟨h.instr, fun e c hne => (vctx_updCtx_ne u _ _ f hne).trans (h.ctx e c), fun e c => (str_updCtx u _ _ f e c).trans (h.str e c)⟩,
    by rw [vctx_updCtx_self, h.ctx]⟩

theorem VecRan.counted {v : VIns} {s u : State} (h : VecRan v s u) (f : VCtx → VCtx) : vecCounted v s (vecStep u v f) := (h.updCtx _).1

theorem VecRan.vctx_vecStep {v : VIns} {s u : State} (h : VecRan v s u) (f : VCtx → VCtx) :
    vctx (vecStep u v f) v.die v.ctx = { f (vctx s v.die v.ctx) with pc := (f (vctx s v.die v.ctx)).pc + 1 } := (h.updCtx _).2

theorem VecRan.moved {v : VIns} {s u : State} (h : VecRan v s u) : vecMoved v s (vecStep u v id) := ⟨h.counted id, h.vctx_vecStep id⟩

/-- An instruction that changes vector registers only. -/
theorem VecRan.stepped {v : VIns} {s u : State} (h : VecRan v s u) {f : VCtx → VCtx}
    (hf : (vctx s v.die v.ctx).lanesOnly (f (vctx s v.die v.ctx))) : vecStepped v s (vecStep u v f) := by
  obtain ⟨m, hm⟩ := hf
  rw [vecStepped, h.vctx_vecStep, hm]

theorem VecRan.lane_vecStep {v : VIns} {s u : State} (h : VecRan v s u) (f : VCtx → VCtx) (q j : Nat) :
    (vctx (vecStep u v f) v.die v.ctx).lane q j = (f (vctx s v.die v.ctx)).lane q j := by
  rw [h.vctx_vecStep]
  rfl

/-- An instruction that writes the active lanes of the registers `rs`: the registers beside them. -/
theorem VecRan.otherLanes_emit {v : VIns} {s u : State} (h : VecRan v s u) {rs : List Nat} {f : VCtx → VCtx} {g : Nat → List Word}
    (hf : f (vctx s v.die v.ctx) = (vctx s v.die v.ctx).emit v rs g) : otherLanes v s (vecStep u v f) rs := fun hvl q j hq hj => by
  rw [h.lane_vecStep, hf, VCtx.lane_emit _ _ _ fun i hi => laneApart_of_lt rs q hj (Nat.lt_of_lt_of_le hi hvl)]
  simp only [written_of_notMem hq, ite_self]

/-- An instruction that writes the active lanes of the registers `rs`: one of these, in whose lane `i` it writes `a i`. -/
theorem VecRan.laneResult_emit {v : VIns} {s u : State} (h : VecRan v s u) {rs : List Nat} {f : VCtx → VCtx} {g : Nat → List Word}
    {q : Nat} {a : Nat → Word} (hf : f (vctx s v.die v.ctx) = (vctx s v.die v.ctx).emit v rs g)
    (hapart : ∀ j < 2048, ∀ i < (vctx s v.die v.ctx).vl, laneApart rs q j i) (ha : ∀ i w, written rs (g i) q w = a i)
    (hz : ∀ w, written rs (rs.map fun _ => 0) q w = 0) : laneResult v s (vecStep u v f) q a := fun j hj => by
  rw [h.lane_vecStep, hf, VCtx.lane_emit _ _ _ (hapart j hj), ha, hz]

/-- An instruction that writes the active lanes of vd. -/
theorem VecRan.laneOp_emit {v : VIns} {s u : State} (h : VecRan v s u) (f : VCtx → Nat → Word) :
    laneOp v s (vecStep u v fun x => x.emit v [v.rd] fun i => [f x i]) (f (vctx s v.die v.ctx)) :=
  ⟨h.counted _, h.stepped (VCtx.lanesOnly_emit _ v [v.rd] _),
    h.laneResult_emit rfl (fun j _ i _ => laneApart_self v.rd j i) (fun _ _ => written_single _ _ _) fun _ => written_single _ _ _,
    h.otherLanes_emit rfl⟩

end Sys2Proof.Machine
end

section
/-! PROOF. Lane-wise arithmetic and logic: LaneArithmetic (O21). -/
namespace Sys2Proof.Machine
open Sys2Proof

/-! ### The forms of the lane-wise instructions (R150) -/

/-- The instructions `p.1` have the meaning of `form` with the operation `p.2`, under one opcode of R150. -/
def hasForm {φ : Type} (form : Nat → φ → VIns → State → State) (p : (VIns → Instr) × φ) : Prop :=
  ∃ op, (∀ v s, exec (p.1 v) s = .next (form op p.2 v s)) ∧ (∀ v, vecOpcode (p.1 v) = op) ∧ opKnown op = true

theorem changesOnly_vecStep_issued (v : VIns) (s : State) (f : VCtx → VCtx) : changesOnly [.dies, .regs] s (vecStep (vecIssued v s) v f) := by
  simp [changesOnly, vecIssued]

theorem laneOp_of_exec {s : State} {v : VIns} {i : Instr} {op : Nat} {ill : Bool} {f : VCtx → Nat → Word} (h : vecReady s v i)
    (hop : vecOpcode i = op) (hk : opKnown op = true) (hill : ill = false)
    (hexec : exec i s = .next (vecRun op v ill false (fun s => vecStep s v fun x => x.emit v [v.rd] fun j => [f x j]) s)) :
    ∃ t, exec i s = .next t ∧ laneOp v s t (f (vctx s v.die v.ctx)) ∧ changesOnly [.dies, .regs] s t := by
  rw [hill, vecRun_ready h hop hk] at hexec
  exact ⟨_, hexec, (vecRan_issued v s).laneOp_emit f, changesOnly_vecStep_issued v s _⟩

theorem vecBin_laneOp {p : (VIns → Instr) × (Word → Word → Word)} (hp : hasForm vecBin p) {s : State} {v : VIns} (h : vecReady s v (p.1 v))
    (hr : regsBad s v [(v.rd, 1), (v.ra, 1), (v.rb, 1)] = false) : ∃ t, exec (p.1 v) s = .next t ∧
      laneOp v s t (fun i => p.2 ((vctx s v.die v.ctx).lane v.ra i) ((vctx s v.die v.ctx).lane v.rb i)) ∧ changesOnly [.dies, .regs] s t := by
  obtain ⟨op, hexec, hop, hk⟩ := hp
  exact laneOp_of_exec (f := fun x i => p.2 (x.lane v.ra i) (x.lane v.rb i)) h (hop v) hk hr (hexec v s)

theorem vecBinI_laneOp {p : (VIns → Instr) × (Word → Word → Word)} (hp : hasForm vecBinI p) {s : State} {v : VIns} (h : vecReady s v (p.1 v))
    (hr : regsBad s v [(v.rd, 1), (v.ra, 1)] = false) : ∃ t, exec (p.1 v) s = .next t ∧
      laneOp v s t (fun i => p.2 ((vctx s v.die v.ctx).lane v.ra i) v.imm) ∧ changesOnly [.dies, .regs] s t := by
  obtain ⟨op, hexec, hop, hk⟩ := hp
  exact laneOp_of_exec (f := fun x i => p.2 (x.lane v.ra i) v.imm) h (hop v) hk hr (hexec v s)

theorem vecTri_laneOp {p : (VIns → Instr) × (Word → Word → Word → Word)} (hp : hasForm vecTri p) {s : State} {v : VIns}
    (h : vecReady s v (p.1 v)) (hr : regsBad s v [(v.rd, 1), (v.ra, 1), (v.rb, 1), (v.rc, 1)] = false) : ∃ t, exec (p.1 v) s = .next t ∧
      laneOp v s t (fun i => p.2 ((vctx s v.die v.ctx).lane v.ra i) ((vctx s v.die v.ctx).lane v.rb i) ((vctx s v.die v.ctx).lane v.rc i)) ∧
      changesOnly [.dies, .regs] s t := by
  obtain ⟨op, hexec, hop, hk⟩ := hp
  exact laneOp_of_exec (f := fun x i => p.2 (x.lane v.ra i) (x.lane v.rb i) (x.lane v.rc i)) h (hop v) hk hr (hexec v s)

theorem vecTriI_laneOp {p : (VIns → Instr) × (Word → Word → Word → Word)} (hp : hasForm vecTriI p) {s : State} {v : VIns}
    (h : vecReady s v (p.1 v)) (hr : regsBad s v [(v.rd, 1), (v.ra, 1), (v.rc, 1)] = false) : ∃ t, exec (p.1 v) s = .next t ∧
      laneOp v s t (fun i => p.2 ((vctx s v.die v.ctx).lane v.ra i) v.imm ((vctx s v.die v.ctx).lane v.rc i)) ∧
      changesOnly [.dies, .regs] s t := by
  obtain ⟨op, hexec, hop, hk⟩ := hp
  exact laneOp_of_exec (f := fun x i => p.2 (x.lane v.ra i) v.imm (x.lane v.rc i)) h (hop v) hk hr (hexec v s)

theorem vecUn_laneOp {p : (VIns → Instr) × (Word → Word)} (hp : hasForm vecUn p) {s : State} {v : VIns} (h : vecReady s v (p.1 v))
    (hr : regsBad s v [(v.rd, 1), (v.ra, 1)] = false) : ∃ t, exec (p.1 v) s = .next t ∧
      laneOp v s t (fun i => p.2 ((vctx s v.die v.ctx).lane v.ra i)) ∧ changesOnly [.dies, .regs] s t := by
  obtain ⟨op, hexec, hop, hk⟩ := hp
  exact laneOp_of_exec (f := fun x i => p.2 (x.lane v.ra i)) h (hop v) hk hr (hexec v s)

/-- VRANK counts the active lanes below `i` that hold what lane `i` holds, in whichever order the conditions are read. -/
theorem rankLane_eq (v : VIns) (x : VCtx) (i : Nat) : rankLane v x i = BitVec.ofNat 32 ((List.range i).filter fun j =>
    decide (j < x.vl) && x.maskBit v.mask j && decide (x.lane v.ra j = x.lane v.ra i)).length := by
  refine congrArg (BitVec.ofNat 32) (List.Perm.length_eq ?_)
  refine (List.perm_ext_iff_of_nodup ((x.nodup_active v).filter _) (List.nodup_range.filter _)).mpr fun j => ?_
  simp only [List.mem_filter, VCtx.mem_active, List.mem_range, Bool.and_eq_true, decide_eq_true_eq]
  tauto

/-! ### Instructions that write single elements of vd -/

theorem stepped_of_exec {s : State} {v : VIns} {i : Instr} {op : Nat} {ill : Bool} {f : VCtx → VCtx} (h : vecReady s v i)
    (hop : vecOpcode i = op) (hk : opKnown op = true) (hill : ill = false) (hf : ∀ x : VCtx, x.lanesOnly (f x))
    (hexec : exec i s = .next (vecRun op v ill false (fun s => vecStep s v f) s)) :
    ∃ t, exec i s = .next t ∧ vecCounted v s t ∧ vecStepped v s t ∧ changesOnly [.dies, .regs] s t := by
  rw [hill, vecRun_ready h hop hk] at hexec
  exact ⟨_, hexec, (vecRan_issued v s).counted f, (vecRan_issued v s).stepped (hf _), changesOnly_vecStep_issued v s f⟩

/-- A reduction writes element 0 of vd, and element 1 where it gives a second word. -/
theorem vecRed_stepped {p : (VIns → Instr)} {op : Nat} {f : VCtx → Word × Option Word} {s : State} {v : VIns} (h : vecReady s v (p v))
    (hr : regsBad s v [(v.rd, 1), (v.ra, 1)] = false) (hop : vecOpcode (p v) = op) (hk : opKnown op = true)
    (hexec : exec (p v) s = .next (vecRed op f v s)) :
    ∃ t, exec (p v) s = .next t ∧ vecCounted v s t ∧ vecStepped v s t ∧ changesOnly [.dies, .regs] s t := by
  refine stepped_of_exec h hop hk hr (fun x => ?_) hexec
  dsimp only
  split
  · exact (x.lanesOnly_setLane v.rd 0 _).trans (VCtx.lanesOnly_setLane _ v.rd 1 _)
  · exact x.lanesOnly_setLane v.rd 0 _

/-- Settles O21: each instruction is one of the lane-wise forms, and a form writes the active lanes of vd alone. -/
theorem laneArithmetic : Obligations.LaneArithmetic := by
  unfold Obligations.LaneArithmetic
  refine ⟨fun p hp v s h hr => vecBin_laneOp ?_ h hr, fun p hp v s h hr => vecBinI_laneOp ?_ h hr, fun p hp v s h hr => vecTri_laneOp ?_ h hr,
    fun p hp v s h hr => vecTriI_laneOp ?_ h hr, fun p hp v s h hr => vecUn_laneOp ?_ h hr, fun v s hr => ⟨fun h => ?_, fun h => ?_⟩,
    fun v s hr => ⟨fun h => ?_, fun h => ?_, fun h => ?_, fun h => ?_⟩, fun v s h hr => ?_, fun v s h hr => ?_,
    fun v s h hr => vecRed_stepped h hr rfl rfl rfl, fun v s h hr => vecRed_stepped h hr rfl rfl rfl,
    fun v s h hr => vecRed_stepped h hr rfl rfl rfl, fun v s h hr => vecRed_stepped h hr rfl rfl rfl,
    fun v s h hr => vecRed_stepped h hr rfl rfl rfl, fun v s h hr => vecRed_stepped h hr rfl rfl rfl⟩
  · simp only [List.mem_cons, List.not_mem_nil, or_false] at hp
    rcases hp with rfl | rfl | rfl | rfl | rfl | rfl | rfl | rfl | rfl | rfl | rfl | rfl | rfl | rfl | rfl <;>
      exact ⟨_, fun _ _ => rfl, fun _ => rfl, rfl⟩
  · simp only [List.mem_cons, List.not_mem_nil, or_false] at hp
    rcases hp with rfl | rfl | rfl | rfl | rfl | rfl | rfl | rfl | rfl | rfl | rfl | rfl | rfl | rfl <;>
      exact ⟨_, fun _ _ => rfl, fun _ => rfl, rfl⟩
  · simp only [List.mem_cons, List.not_mem_nil, or_false] at hp
    rcases hp with rfl | rfl | rfl <;> exact ⟨_, fun _ _ => rfl, fun _ => rfl, rfl⟩
  · simp only [List.mem_cons, List.not_mem_nil, or_false] at hp
    rcases hp with rfl | rfl | rfl <;> exact ⟨_, fun _ _ => rfl, fun _ => rfl, rfl⟩
  · simp only [List.mem_cons, List.not_mem_nil, or_false] at hp
    rcases hp with rfl | rfl | rfl | rfl | rfl | rfl | rfl | rfl | rfl | rfl <;> exact ⟨_, fun _ _ => rfl, fun _ => rfl, rfl⟩
  · exact laneOp_of_exec (f := fun _ _ => v.imm) h rfl rfl hr rfl
  · exact laneOp_of_exec (f := fun _ i => w32 i) h rfl rfl hr rfl
  · exact laneOp_of_exec (f := fun x _ => x.lane v.ra 0) h rfl rfl hr rfl
  · exact laneOp_of_exec (f := slideLane v) h rfl rfl hr rfl
  · simp only [← rankLane_eq]
    exact laneOp_of_exec (f := rankLane v) h rfl rfl hr rfl
  · exact laneOp_of_exec (f := fun x i => scaleBy (-(lossExpOf s v.die v.ctx)) (x.lane v.ra i)) h rfl rfl hr rfl
  · exact stepped_of_exec h rfl rfl hr (fun x => x.lanesOnly_setLane v.rd 0 _) rfl
  · exact stepped_of_exec h rfl rfl hr (fun x => VCtx.lanesOnly_foldl (fun y i => y.lanesOnly_setLane v.rd i _) _ x) rfl

end Sys2Proof.Machine
end

section
/-! PROOF. Scalar instructions, SETVL and loops: ScalarInstructions (O24). -/
namespace Sys2Proof.Machine
open Sys2Proof

/-- An instruction that changes its context: how it completes. -/
theorem vecStep_of_exec {s : State} {v : VIns} {i : Instr} {op : Nat} {ill : Bool} {f : VCtx → VCtx} (h : vecReady s v i)
    (hop : vecOpcode i = op) (hk : opKnown op = true) (hill : ill = false)
    (hexec : exec i s = .next (vecRun op v ill false (fun s => vecStep s v f) s)) :
    ∃ t, exec i s = .next t ∧ vecCounted v s t ∧
      vctx t v.die v.ctx = { f (vctx s v.die v.ctx) with pc := (f (vctx s v.die v.ctx)).pc + 1 } ∧ changesOnly [.dies, .regs] s t := by
  rw [hill, vecRun_ready h hop hk] at hexec
  exact ⟨_, hexec, (vecRan_issued v s).counted f, (vecRan_issued v s).vctx_vecStep f, changesOnly_vecStep_issued v s f⟩

theorem scIll_of_zero {v : VIns} (h : v.rc = 0) : scIll v = false := decide_eq_false (not_not.mpr h)

/-! ### Scalar registers (R150) -/

theorem fld_low6 (w : Word) : fld w 5 0 = w.toNat % 64 := by
  simp [fld, BitVec.extractLsb, BitVec.extractLsb']

theorem scalarOp_of_exec {s : State} {v : VIns} {i : Instr} {op : Nat} {ill : Bool} {f : VCtx → DWord} (h : vecReady s v i)
    (hop : vecOpcode i = op) (hk : opKnown op = true) (hrc : v.rc = 0) (hill : ill = false)
    (hexec : exec i s = .next (vecScalar op v ill f s)) :
    ∃ t, exec i s = .next t ∧ scalarOp v s t (f (vctx s v.die v.ctx)) ∧ changesOnly [.dies, .regs] s t := by
  have hsc : (scIll v || ill) = false := by rw [scIll_of_zero hrc, hill]; rfl
  obtain ⟨t, ht, hcount, hctx, hframe⟩ := vecStep_of_exec h hop hk hsc hexec
  refine ⟨t, ht, ⟨hcount, ?_, fun r => ?_⟩, hframe⟩
  · rw [hctx, VCtx.setS_eq]
  · rw [hctx]
    exact VCtx.sreg_setS _ _ _ _

/-! ### SETVL (R145) -/

theorem setvl_spec {s : State} {v : VIns} {n : Nat} (h : vecReady s v (.setvl v)) (hrc : v.rc = 0)
    (hn : n = min ((vctx s v.die v.ctx).sreg v.ra).toNat (min 2048 (if v.imm = 0 then 2048 else v.imm.toNat))) :
    ∃ t, exec (.setvl v) s = .next t ∧ vecCounted v s t ∧ (vctx t v.die v.ctx).vl = n ∧ n ≤ 2048 ∧
      (∀ r, (vctx t v.die v.ctx).sreg r =
        if r = v.rd ∧ r ≠ 0 then (vctx s v.die v.ctx).sreg v.ra - w64 n else (vctx s v.die v.ctx).sreg r) ∧
      vctx t v.die v.ctx = { vctx s v.die v.ctx with pc := (vctx s v.die v.ctx).pc + 1, vl := n, sregs := (vctx t v.die v.ctx).sregs } ∧
      changesOnly [.dies, .regs] s t := by
  obtain ⟨t, ht, hcount, hctx, hframe⟩ := vecStep_of_exec (f := fun x =>
    { x.setS v.rd (x.sreg v.ra - w64 (min (x.sreg v.ra).toNat (min 2048 (if v.imm = 0 then 2048 else v.imm.toNat)))) with
      vl := min (x.sreg v.ra).toNat (min 2048 (if v.imm = 0 then 2048 else v.imm.toNat)) }) h rfl rfl (scIll_of_zero hrc) rfl
  rw [← hn] at hctx
  refine ⟨t, ht, hcount, by rw [hctx], hn ▸ (Nat.min_le_right _ _).trans (Nat.min_le_left _ _), fun r => ?_, ?_, hframe⟩
  · rw [hctx]
    exact VCtx.sreg_setS _ _ _ _
  · rw [hctx, VCtx.setS_eq]

/-! ### Loops (R150) -/

/-- Between a loop that runs 0 times and the ENDLOOP at `k`, no loop begins or ends: that ENDLOOP is the one that matches. -/
theorem matchEnd_eq {s : State} {d : Die} {k : Nat} (hend : progOp s d k = 0x04) (n j : Nat) (hjk : j ≤ k) (hkn : k < j + n)
    (hflat : ∀ i, j ≤ i → i < k → progOp s d i ∉ [0x02, 0x03, 0x04]) : matchEnd s d n j 0 = some k := by
  induction n generalizing j with
  | zero => omega
  | succ n ih =>
    by_cases hj : j = k
    · subst hj
      simp only [matchEnd, hend, if_true]
    · have hop := hflat j le_rfl (by omega)
      simp only [List.mem_cons, List.not_mem_nil, or_false, not_or] at hop
      obtain ⟨h2, h3, h4⟩ := hop
      have hnext := ih (j + 1) (by omega) (by omega) fun i hi => hflat i (by omega)
      rw [matchEnd]
      split
      · exact absurd ‹_› h2
      · exact absurd ‹_› h3
      · exact absurd ‹_› h4
      · exact hnext

/-- A loop instruction that may nest runs `vecLoop` on the counted module. -/
theorem exec_loop {s : State} {v : VIns} {i : Instr} {op : Nat} {n : VCtx → Nat} (h : vecReady s v i) (hop : vecOpcode i = op)
    (hk : opKnown op = true) (hrc : v.rc = 0) (hexec : exec i s = .next (vecRun op v (scIll v) false (vecLoop op v n) s)) :
    exec i s = .next (vecLoop op v n (vecIssued v s)) := by
  rw [hexec, scIll_of_zero hrc, vecRun_ready h hop hk]

theorem progOp_issued (v : VIns) (s : State) (d : Die) (k : Nat) : progOp (vecIssued v s) d k = progOp s d k := by
  simp only [progOp, die_issued]

/-- LOOP and LOOPI with a count: the frame is pushed. -/
theorem loop_pushes {s : State} {v : VIns} {i : Instr} {op : Nat} {n : VCtx → Nat} (hexec : exec i s = .next (vecLoop op v n (vecIssued v s)))
    (hdepth : (vctx s v.die v.ctx).loops.length < 4) (hn : n (vctx s v.die v.ctx) ≠ 0) :
    ∃ t, exec i s = .next t ∧ vecCounted v s t ∧ vctx t v.die v.ctx =
      { vctx s v.die v.ctx with
          pc := (vctx s v.die v.ctx).pc + 1
          loops := ⟨(vctx s v.die v.ctx).pc + 1, n (vctx s v.die v.ctx)⟩ :: (vctx s v.die v.ctx).loops } ∧ changesOnly [.dies, .regs] s t := by
  have hrun : vecLoop op v n (vecIssued v s) =
      vecStep (vecIssued v s) v fun x => { x with loops := { start := x.pc + 1, left := n x } :: x.loops } := by
    simp only [vecLoop, vctx_issued, Nat.not_le.mpr hdepth, hn, if_false]
  rw [hrun] at hexec
  exact ⟨_, hexec, (vecRan_issued v s).counted _, (vecRan_issued v s).vctx_vecStep _, changesOnly_vecStep_issued v s _⟩

/-- LOOP and LOOPI with a count of 0: the program goes on behind the matching ENDLOOP. -/
theorem loop_skips {s : State} {v : VIns} {i : Instr} {op k : Nat} {n : VCtx → Nat} (hexec : exec i s = .next (vecLoop op v n (vecIssued v s)))
    (hdepth : (vctx s v.die v.ctx).loops.length < 4) (hn : n (vctx s v.die v.ctx) = 0) (hpc : (vctx s v.die v.ctx).pc < k)
    (hend : progOp s v.die k = 0x04) (hk : k ≤ 32767)
    (hflat : ∀ j, (vctx s v.die v.ctx).pc < j → j < k → progOp s v.die j ∉ [0x02, 0x03, 0x04]) :
    ∃ t, exec i s = .next t ∧ vecCounted v s t ∧ vctx t v.die v.ctx = { vctx s v.die v.ctx with pc := k + 1 } ∧
      changesOnly [.dies, .regs] s t := by
  have hmatch : matchEnd (vecIssued v s) v.die (32768 - ((vctx s v.die v.ctx).pc + 1)) ((vctx s v.die v.ctx).pc + 1) 0 = some k :=
    matchEnd_eq ((progOp_issued v s v.die k).trans hend) _ _ hpc (by omega) fun j hj hjk => by
      rw [progOp_issued]
      exact hflat j hj hjk
  have hrun : vecLoop op v n (vecIssued v s) = updCtx (vecIssued v s) v.die v.ctx fun x => { x with pc := k + 1 } := by
    simp only [vecLoop, vctx_issued, Nat.not_le.mpr hdepth, hn, hmatch, if_true, if_false]
  rw [hrun] at hexec
  obtain ⟨hcount, hctx⟩ := (vecRan_issued v s).updCtx fun x => { x with pc := k + 1 }
  exact ⟨_, hexec, hcount, hctx, by simp [changesOnly, vecIssued]⟩

/-- ENDLOOP: the innermost loop repeats, or is left when its last iteration has run. -/
theorem endloop_spec {s : State} {v : VIns} {f : LoopFrame} {fs : List LoopFrame} (h : vecReady s v (.endloop v)) (hrc : v.rc = 0)
    (hloops : (vctx s v.die v.ctx).loops = f :: fs) :
    ∃ t, exec (.endloop v) s = .next t ∧ vecCounted v s t ∧ vctx t v.die v.ctx =
      (if f.left ≤ 1 then { vctx s v.die v.ctx with pc := (vctx s v.die v.ctx).pc + 1, loops := fs }
       else { vctx s v.die v.ctx with pc := f.start, loops := { f with left := f.left - 1 } :: fs }) ∧ changesOnly [.dies, .regs] s t := by
  have hexec : exec (.endloop v) s = .next (vecRun 0x04 v (scIll v) false (vecEndLoop v) s) := rfl
  rw [scIll_of_zero hrc, vecRun_ready (op := 0x04) h rfl rfl, vecEndLoop] at hexec
  simp only [vctx_issued, hloops] at hexec
  split at hexec
  · rename_i hlast
    rw [if_pos hlast]
    exact ⟨_, hexec, (vecRan_issued v s).counted _, (vecRan_issued v s).vctx_vecStep _, changesOnly_vecStep_issued v s _⟩
  · rename_i hmore
    rw [if_neg hmore]
    obtain ⟨hcount, hctx⟩ := (vecRan_issued v s).updCtx fun x => { x with pc := f.start, loops := { f with left := f.left - 1 } :: fs }
    exact ⟨_, hexec, hcount, hctx, by simp [changesOnly, vecIssued]⟩

/-- Settles O24: each scalar instruction writes its value to sd; SETVL, NOP and the loop instructions by their own lemmas. -/
theorem scalarInstructions : Obligations.ScalarInstructions := by
  unfold Obligations.ScalarInstructions
  refine ⟨fun p hp v s h hrc => ?_, fun v s h hrc himm => ?_, fun v s n h hrc hn => setvl_spec h hrc hn, fun v s h hrc => ?_,
    fun p hp v s h hrc hdepth => ?_, fun v s f fs h hrc hloops => endloop_spec h hrc hloops⟩
  · simp only [List.mem_cons, List.not_mem_nil, or_false] at hp
    rcases hp with rfl | rfl | rfl | rfl | rfl | rfl | rfl | rfl <;> simp only [← fld_low6] <;>
      exact scalarOp_of_exec h rfl rfl hrc rfl rfl
  · exact scalarOp_of_exec (f := fun x => x.params.getD v.imm.toNat 0) h rfl rfl hrc (decide_eq_false (Nat.not_lt.mpr himm)) rfl
  · obtain ⟨t, ht, hcount, hctx, hframe⟩ := vecStep_of_exec (f := id) h rfl rfl (scIll_of_zero hrc) rfl
    exact ⟨t, ht, ⟨hcount, hctx⟩, hframe⟩
  · have hexec : ∃ op, exec (p.1 v) s = .next (vecLoop op v (fun x => p.2 x v) (vecIssued v s)) := by
      simp only [List.mem_cons, List.not_mem_nil, or_false] at hp
      rcases hp with rfl | rfl
      · exact ⟨0x02, exec_loop h rfl rfl hrc rfl⟩
      · exact ⟨0x03, exec_loop h rfl rfl hrc rfl⟩
    obtain ⟨op, hexec⟩ := hexec
    exact ⟨loop_pushes hexec hdepth, fun hn k hpc hend hk => loop_skips hexec hdepth hn hpc hend hk⟩

end Sys2Proof.Machine
end

section
/-! PROOF. Vector loads: VectorLoads (O27). -/
namespace Sys2Proof.Machine
open Sys2Proof

/-! ### Places (R158) -/

theorem mem_issued (v : VIns) (s : State) : (vecIssued v s).mem = s.mem := by rw [vecIssued, addReg64, setReg64, setReg_mem, setReg_mem]
theorem img_issued (v : VIns) (s : State) : (vecIssued v s).img = s.img := by rw [vecIssued, addReg64, setReg64, setReg_img, setReg_img]

theorem placeOk_issued (v : VIns) (s : State) (p : Place) (n : Nat) : placeOk (vecIssued v s) p n = placeOk s p n := by
  cases p <;> simp only [placeOk, mem_issued]
theorem peekPlace_issued (v : VIns) (s : State) (p : Place) (n : Nat) : peekPlace (vecIssued v s) p n = peekPlace s p n := by
  cases p <;> simp only [peekPlace, mem_issued, die_issued]
theorem quietPlace_issued (v : VIns) (s : State) (p : Place) (n : Nat) : quietPlace (vecIssued v s) p n = quietPlace s p n := by
  cases p <;> simp only [quietPlace, soundStore, mem_issued, die_issued]

/-- Counting an instruction moves no finished-tile queue. -/
theorem isProtected_issued (v : VIns) (s : State) (p : Place) (n : Nat) : isProtected (vecIssued v s) p n = isProtected s p n := by
  cases p with
  | ts d o =>
    have hreg : reg (vecIssued v s) (cdWin d.val + rTqCfg) = reg s (cdWin d.val + rTqCfg) := by
      rw [vecIssued, reg_addReg64_ne] <;> simp only [cdWin, rTqCfg, rVecInstr] <;> omega
    simp only [isProtected, tqRegion, hreg]
  | hbm a => simp only [isProtected, inImage, img_issued]
  | bad => simp only [isProtected]

theorem laneFault_issued (v : VIns) (s : State) (st : Bool) (a : DWord) : laneFault (vecIssued v s) v st a = laneFault s v st a := by
  simp only [laneFault, placeOk_issued, isProtected_issued]

theorem scalePlace_issued (v : VIns) (s : State) (i : Nat) : scalePlace (vecIssued v s) v i = scalePlace s v i := by
  simp only [scalePlace, vctx_issued]

theorem loaded_issued (v : VIns) (s : State) (a : DWord) (i : Nat) : loaded (vecIssued v s) v a i = loaded s v a i := by
  simp only [loaded, peekPlace_issued, scalePlace_issued]

/-- A tile store without errors gives its bytes. -/
theorem tsRead_of_sound {s : State} {d : Die} (h : soundStore s d) (off len port : Nat) :
    tsRead s d off len port = (⟨(List.range len).map fun i => SMap.get 0 (die s d).ts (off + i), false⟩, s) := by
  obtain ⟨hue, hce⟩ := h
  simp only [tsRead, hue, hce, List.not_mem_nil, decide_false, List.filter_false, tsStuck, tsCorrect, List.foldl_nil, List.isEmpty_nil, Bool.not_true]

/-- A read that meets no error gives the bytes and changes nothing. -/
theorem readPlace_quiet {s : State} {p : Place} {n : Nat} (h : quietPlace s p n) (port : Nat) :
    readPlace s p n port = (⟨peekPlace s p n, false⟩, s) := by
  cases p with
  | ts d o => exact tsRead_of_sound h o n port
  | hbm a =>
    obtain ⟨hclean, hpoison⟩ := h
    simp only [readPlace, memRead_clean hclean hpoison, peekPlace]
  | bad => exact h.elim

/-! ### Lanes loaded (R152, R160) -/

theorem loadScale_quiet {s : State} {v : VIns} {i : Nat} (hok : placeOk s (scalePlace s v i) 1 = true) (hq : quietPlace s (scalePlace s v i) 1) :
    loadScale s v i = .inr (⟨peekPlace s (scalePlace s v i) 1, false⟩, s) := by
  rw [← readPlace_quiet hq (vecPort v)]
  exact if_pos hok

/-- The lane reaches a permitted, error-free place, and so does the scale of its block. -/
def laneQuiet (s : State) (v : VIns) (a : DWord) (i : Nat) : Prop :=
  laneFault s v false a = none ∧ quietPlace s (lanePlace v a) (colSpan v.fmt) ∧
  (isMx v.fmt = true → placeOk s (scalePlace s v i) 1 = true ∧ quietPlace s (scalePlace s v i) 1)

theorem laneQuiet_issued {v : VIns} {s : State} {a : DWord} {i : Nat} (h : laneQuiet s v a i) : laneQuiet (vecIssued v s) v a i := by
  simpa only [laneQuiet, laneFault_issued, quietPlace_issued, placeOk_issued, scalePlace_issued] using h

theorem loadLane_quiet {s : State} {v : VIns} {addr : Nat → DWord} {i : Nat} (h : laneQuiet s v (addr i) i) (got : List (Nat × List Word)) :
    loadLane v addr ⟨s, got, false, none⟩ i = ⟨s, got ++ [(i, loaded s v (addr i) i)], false, none⟩ := by
  obtain ⟨hfault, hquiet, hmx⟩ := h
  have hread : readPlace s (placeOf v.die v.space (addr i).toNat) (colSpan v.fmt) (vecPort v) =
    (⟨peekPlace s (lanePlace v (addr i)) (colSpan v.fmt), false⟩, s) := readPlace_quiet hquiet _
  simp only [loadLane, Option.isSome_none, Bool.false_eq_true, if_false, hfault, hread, loaded]
  split
  · rename_i hm
    obtain ⟨hok, hq⟩ := hmx hm
    simp only [loadScale_quiet hok hq, Bool.or_self, Bool.false_eq_true, if_false]
  · simp only [Bool.or_self]

theorem foldl_loadLane_quiet {s : State} {v : VIns} {addr : Nat → DWord} {ls : List Nat} (h : ∀ i ∈ ls, laneQuiet s v (addr i) i)
    (got : List (Nat × List Word)) : ls.foldl (loadLane v addr) ⟨s, got, false, none⟩ =
      ⟨s, got ++ ls.map fun i => (i, loaded s v (addr i) i), false, none⟩ := by
  induction ls generalizing got with
  | nil => rw [List.map_nil, List.append_nil]; rfl
  | cons i ls ih =>
    rw [List.foldl_cons, loadLane_quiet (h i List.mem_cons_self), ih fun j hj => h j (List.mem_cons_of_mem _ hj), List.append_assoc]
    rfl

/-- The registers that a load writes. -/
def loadRegs (v : VIns) : List Nat := if v.fmt = 0 then [v.rd, v.rd + 1] else [v.rd]

/-- What an error-free load of the lanes `ls` does to its context. -/
def loadPut (s : State) (v : VIns) (row : Bool) (ls : List Nat) (addr : Nat → DWord) (x : VCtx) : VCtx :=
  ls.foldl (fun y i => y.putLane (loadRegs v) i (loaded s v (addr i) i)) (if row then x else x.zeroInactive v (loadRegs v))

theorem lanesOnly_loadPut (s : State) (v : VIns) (row : Bool) (ls : List Nat) (addr : Nat → DWord) (x : VCtx) :
    x.lanesOnly (loadPut s v row ls addr x) := by
  have hfold := fun z => VCtx.lanesOnly_foldl (fun y i => VCtx.lanesOnly_putLane y (loadRegs v) i (loaded s v (addr i) i)) ls z
  unfold loadPut
  split
  · exact hfold x
  · exact (x.lanesOnly_zeroInactive v _).trans (hfold _)

/-- The elements that VLDX gathers are counted. -/
def idxCounted (v : VIns) (idx : Bool) (n : Nat) (s : State) : State := if idx then addReg64 s (cdWin v.die.val + rVecIdxElem) n else s

theorem VecRan.idxCounted {v : VIns} {s u : State} (h : VecRan v s u) (idx : Bool) (n : Nat) : VecRan v s (idxCounted v idx n u) := by
  unfold Machine.idxCounted
  split
  · exact h.addReg64 n (by simp only [rVecInstr, rVecIdxElem]; omega)
  · exact h

theorem idxCounted_frame {K : Comp → Bool} (h : K .regs = true) (v : VIns) (idx : Bool) (n : Nat) (s : State) :
    (idxCounted v idx n s).erase K = s.erase K := by
  unfold idxCounted
  split
  · exact addReg64_frame (by simpa using h) _ _ _
  · rfl

theorem runLoad_quiet {s : State} {v : VIns} {addr : Nat → DWord} {ls : List Nat} (h : ∀ i ∈ ls, laneQuiet s v (addr i) i) (op : Nat)
    (idx row : Bool) : runLoad op v idx row ls addr s = vecStep (idxCounted v idx ls.length s) v (loadPut s v row ls addr) := by
  have hput : ∀ x : VCtx, (ls.map fun i => (i, loaded s v (addr i) i)).foldl (fun y g => y.putLane (loadRegs v) g.1 g.2)
      (if row then x else x.zeroInactive v (loadRegs v)) = loadPut s v row ls addr x := fun x => List.foldl_map
  simp only [runLoad, foldl_loadLane_quiet h, List.nil_append, endLoad, Bool.false_eq_true, if_false, List.length_map]
  exact congrArg (vecStep _ v) (funext hput)

/-! ### What a lane holds -/

theorem loaded_pair {v : VIns} (h : v.fmt = 0) (s : State) (a : DWord) (i : Nat) :
    loaded s v a i = [(loaded s v a i).getD 0 0, (loaded s v a i).getD 1 0] := by
  unfold loaded
  rw [h]
  rfl

theorem loaded_single {v : VIns} (h : v.fmt ≠ 0) (s : State) (a : DWord) (i : Nat) : loaded s v a i = [(loaded s v a i).getD 0 0] := by
  unfold loaded laneWords
  split
  · exact absurd ‹_› h
  · rfl

/-- An FP32 load takes the word as it stands. -/
theorem loaded_fp32 {v : VIns} (h : v.fmt = 1) (s : State) (a : DWord) (i : Nat) :
    loaded s v a i = [BitVec.ofNat 32 (leNat (peekPlace s (lanePlace v a) 4))] := by
  unfold loaded
  rw [h]
  rfl

/-! ### Masked loads -/

/-- PAIR is not raised: only an FP64 operand needs an even register. -/
theorem dataOdd_of_even {v : VIns} (h : v.fmt = 0 → v.rd % 2 = 0) : dataOdd v = false := by
  by_cases hf : v.fmt = 0
  · simp [dataOdd, oddReg, h hf]
  · simp [dataOdd, hf]

/-- A masked load that meets no error: what it does to the context. -/
theorem exec_load {p : (VIns → Instr) × (Nat → Bool) × Bool × (VCtx → VIns → Nat → DWord)} {op : Nat} {s : State} {v : VIns}
    (hexec : exec (p.1 v) s = .next (vecLoad op p.2.1 p.2.2.1 p.2.2.2 v s)) (hop : vecOpcode (p.1 v) = op) (hk : opKnown op = true)
    (h : vecReady s v (p.1 v)) (hill : memIll s v p.2.1 false p.2.2.1 = false) (heven : v.fmt = 0 → v.rd % 2 = 0)
    (hmx : mxBad (vctx s v.die v.ctx) v = false)
    (hq : ∀ i ∈ (vctx s v.die v.ctx).active v, laneQuiet s v (p.2.2.2 (vctx s v.die v.ctx) v i) i) :
    exec (p.1 v) s = .next (vecStep (idxCounted v p.2.2.1 ((vctx s v.die v.ctx).active v).length (vecIssued v s)) v
      (loadPut (vecIssued v s) v false ((vctx s v.die v.ctx).active v) (p.2.2.2 (vctx s v.die v.ctx) v))) := by
  rw [hexec, vecLoad, hill, dataOdd_of_even heven, vecRun_ready h hop hk]
  simp only [vctx_issued, hmx, Bool.false_eq_true, if_false]
  rw [runLoad_quiet fun i hi => laneQuiet_issued (hq i hi)]

/-- R152: each active lane of vd, and of vd + 1 for FP64, takes its element. -/
theorem load_spec {p : (VIns → Instr) × (Nat → Bool) × Bool × (VCtx → VIns → Nat → DWord)} {op : Nat} {s : State} {v : VIns}
    (hexec : exec (p.1 v) s = .next (vecLoad op p.2.1 p.2.2.1 p.2.2.2 v s)) (hop : vecOpcode (p.1 v) = op) (hk : opKnown op = true)
    (h : vecReady s v (p.1 v)) (hill : memIll s v p.2.1 false p.2.2.1 = false) (heven : v.fmt = 0 → v.rd % 2 = 0)
    (hmx : mxBad (vctx s v.die v.ctx) v = false) (hvl : (vctx s v.die v.ctx).vl ≤ 2048)
    (hq : ∀ i ∈ (vctx s v.die v.ctx).active v, laneQuiet s v (p.2.2.2 (vctx s v.die v.ctx) v i) i) :
    ∃ t, exec (p.1 v) s = .next t ∧ vecCounted v s t ∧ vecStepped v s t ∧
      laneResult v s t v.rd (fun i => (loaded s v (p.2.2.2 (vctx s v.die v.ctx) v i) i).getD 0 0) ∧
      (v.fmt = 0 → laneResult v s t (v.rd + 1) (fun i => (loaded s v (p.2.2.2 (vctx s v.die v.ctx) v i) i).getD 1 0)) ∧
      otherLanes v s t (if v.fmt = 0 then [v.rd, v.rd + 1] else [v.rd]) ∧ changesOnly [.dies, .regs] s t := by
  have hput : loadPut (vecIssued v s) v false ((vctx s v.die v.ctx).active v) (p.2.2.2 (vctx s v.die v.ctx) v) (vctx s v.die v.ctx) =
      (vctx s v.die v.ctx).emit v (loadRegs v) fun i => loaded s v (p.2.2.2 (vctx s v.die v.ctx) v i) i := by
    simp only [loadPut, loaded_issued, Bool.false_eq_true, if_false, VCtx.emit]
  have hran := (vecRan_issued v s).idxCounted p.2.2.1 ((vctx s v.die v.ctx).active v).length
  have hapart : ∀ q, ∀ j < 2048, ∀ i < (vctx s v.die v.ctx).vl, laneApart (loadRegs v) q j i := fun q j hj i hi =>
    laneApart_of_lt _ q hj (Nat.lt_of_lt_of_le hi hvl)
  refine ⟨_, exec_load hexec hop hk h hill heven hmx hq, hran.counted _, hran.stepped (lanesOnly_loadPut _ v _ _ _ _),
    hran.laneResult_emit hput (hapart v.rd) (fun i w => ?_) fun w => ?_, fun hf => hran.laneResult_emit hput (hapart _) (fun i w => ?_) fun w => ?_,
    hran.otherLanes_emit hput, ?_⟩
  · by_cases hf : v.fmt = 0
    · rw [loadRegs, if_pos hf, loaded_pair hf]
      exact written_pair_low _ _ _ _
    · rw [loadRegs, if_neg hf, loaded_single hf]
      exact written_single _ _ _
  · by_cases hf : v.fmt = 0
    · rw [loadRegs, if_pos hf]
      exact written_pair_low _ _ _ _
    · rw [loadRegs, if_neg hf]
      exact written_single _ _ _
  · rw [loadRegs, if_pos hf, loaded_pair hf]
    exact written_pair_high _ _ _ _
  · rw [loadRegs, if_pos hf]
    exact written_pair_high _ _ _ _
  · simp [changesOnly, vecIssued, idxCounted_frame]

/-! ### Row-indexed forms (R159) -/

theorem fmt_of_rowLegal {s : State} {v : VIns} {idx : Bool} (h : memIll s v (fun f => decide (f = 1)) false idx = false) : v.fmt = 1 := by
  simp only [memIll, Bool.or_eq_false_iff, Bool.not_eq_false', decide_eq_true_eq] at h
  exact h.1.1.2

/-- A row-indexed form whose lane selector names an active lane runs; with an inactive one it does nothing. -/
theorem vecRow_ready {s : State} {v : VIns} {i : Instr} {op : Nat} {run : VCtx → Nat → State → State} (h : vecReady s v i)
    (hop : vecOpcode i = op) (hk : opKnown op = true) (hill : memIll s v (fun f => decide (f = 1)) false true = false)
    (hj : ((vctx s v.die v.ctx).sreg v.rc).toNat < 2048) : vecRow op v run s =
      if (vctx s v.die v.ctx).maskBit v.mask ((vctx s v.die v.ctx).sreg v.rc).toNat = true
      then run (vctx s v.die v.ctx) ((vctx s v.die v.ctx).sreg v.rc).toNat (vecIssued v s) else vecStep (vecIssued v s) v id := by
  rw [vecRow, hill, vecRun_ready h hop hk]
  simp only [vctx_issued, Nat.not_le.mpr hj, if_false]

/-- With an inactive selector a row-indexed form only moves on. -/
theorem rowClosed_of_exec {s : State} {v : VIns} {i : Instr} {op : Nat} {run : VCtx → Nat → State → State} (h : vecReady s v i)
    (hop : vecOpcode i = op) (hk : opKnown op = true) (hill : memIll s v (fun f => decide (f = 1)) false true = false)
    (hj : ((vctx s v.die v.ctx).sreg v.rc).toNat < 2048)
    (hclosed : (vctx s v.die v.ctx).maskBit v.mask ((vctx s v.die v.ctx).sreg v.rc).toNat = false)
    (hexec : exec i s = .next (vecRow op v run s)) : ∃ t, exec i s = .next t ∧ vecMoved v s t ∧ changesOnly [.dies, .regs] s t := by
  rw [vecRow_ready h hop hk hill hj, hclosed, if_neg Bool.false_ne_true] at hexec
  exact ⟨_, hexec, (vecRan_issued v s).moved, changesOnly_vecStep_issued v s id⟩

/-- VLDRI with an active selector: every lane below VL takes its element of the row. -/
theorem vldri_spec {s : State} {v : VIns} {j : Nat} (h : vecReady s v (.vldri v)) (hill : memIll s v (fun f => decide (f = 1)) false true = false)
    (hj : j = ((vctx s v.die v.ctx).sreg v.rc).toNat) (hlt : j < 2048) (hvl : (vctx s v.die v.ctx).vl ≤ 2048)
    (hopen : (vctx s v.die v.ctx).maskBit v.mask j = true)
    (hq : ∀ i, i < (vctx s v.die v.ctx).vl → laneFault s v false (addrRow (vctx s v.die v.ctx) v j i) = none ∧
      quietPlace s (lanePlace v (addrRow (vctx s v.die v.ctx) v j i)) 4) :
    ∃ t, exec (.vldri v) s = .next t ∧ vecCounted v s t ∧ vecStepped v s t ∧
      (∀ i, i < 2048 → (vctx t v.die v.ctx).lane v.rd i = if i < (vctx s v.die v.ctx).vl
        then BitVec.ofNat 32 (leNat (peekPlace s (lanePlace v (addrRow (vctx s v.die v.ctx) v j i)) 4)) else (vctx s v.die v.ctx).lane v.rd i) ∧
      otherLanes v s t [v.rd] ∧ changesOnly [.dies, .regs] s t := by
  subst hj
  have hfmt := fmt_of_rowLegal hill
  have hregs : loadRegs v = [v.rd] := if_neg (by rw [hfmt]; decide)
  have hquiet : ∀ i ∈ List.range (vctx s v.die v.ctx).vl,
      laneQuiet s v (addrRow (vctx s v.die v.ctx) v ((vctx s v.die v.ctx).sreg v.rc).toNat i) i := fun i hi => by
    obtain ⟨hfault, hplace⟩ := hq i (List.mem_range.mp hi)
    refine ⟨hfault, by rw [hfmt]; exact hplace, fun hmx => ?_⟩
    rw [hfmt] at hmx
    cases hmx
  have hexec : exec (.vldri v) s = .next (vecRow 0x93 v (fun x j => runLoad 0x93 v false true (List.range x.vl) (addrRow x v j)) s) := rfl
  rw [vecRow_ready (op := 0x93) h rfl rfl hill hlt, if_pos hopen, runLoad_quiet fun i hi => laneQuiet_issued (hquiet i hi)] at hexec
  have hran := vecRan_issued v s
  have hlane : ∀ q i, (∀ k ∈ List.range (vctx s v.die v.ctx).vl, laneApart [v.rd] q i k) → _ := fun q i hap =>
    VCtx.lane_foldl_putLane (vctx s v.die v.ctx) (fun i => loaded (vecIssued v s) v
      (addrRow (vctx s v.die v.ctx) v ((vctx s v.die v.ctx).sreg v.rc).toNat i) i) List.nodup_range hap
  refine ⟨_, hexec, hran.counted _, hran.stepped (lanesOnly_loadPut _ v _ _ _ _), fun i _ => ?_, fun _ q i hq hi => ?_,
    changesOnly_vecStep_issued v s _⟩
  · refine (hran.lane_vecStep _ _ _).trans ?_
    rw [loadPut, hregs]
    refine (hlane v.rd i fun k _ => laneApart_self v.rd i k).trans ?_
    rw [loaded_fp32 hfmt, peekPlace_issued, written_single]
    simp only [List.mem_range]
  · refine (hran.lane_vecStep _ _ _).trans ?_
    rw [loadPut, hregs]
    refine (hlane q i fun k hk => laneApart_of_lt _ q hi (Nat.lt_of_lt_of_le (List.mem_range.mp hk) hvl)).trans ?_
    rw [written_of_notMem hq, ite_self]

/-- Settles O27: each masked load is one form with its own address function; VLDRI by its lane selector. -/
theorem vectorLoads : Obligations.VectorLoads := by
  unfold Obligations.VectorLoads
  refine ⟨fun p hp v s h hill heven hmx hvl hq => ?_, fun v s j h hill hj hlt hvl hopen hq => vldri_spec h hill hj hlt hvl hopen hq,
    fun v s h hill hlt hclosed => rowClosed_of_exec h rfl rfl hill hlt hclosed rfl⟩
  have hform : ∃ op, exec (p.1 v) s = .next (vecLoad op p.2.1 p.2.2.1 p.2.2.2 v s) ∧ vecOpcode (p.1 v) = op ∧ opKnown op = true := by
    simp only [List.mem_cons, List.not_mem_nil, or_false] at hp
    rcases hp with rfl | rfl | rfl <;> exact ⟨_, rfl, rfl, rfl⟩
  obtain ⟨op, hexec, hop, hk⟩ := hform
  exact load_spec hexec hop hk h hill heven hmx hvl hq

end Sys2Proof.Machine
end

section
/-! PROOF. The tile store under a vector store: bytes written lane by lane, and how the store completes (R153, R160, R248). -/
namespace Sys2Proof.Machine
open Sys2Proof

/-! ### Bytes of a number -/

theorem leNat_lt (bs : List Byte) : leNat bs < 2 ^ (8 * bs.length) := by
  induction bs with
  | nil => exact Nat.one_pos
  | cons b bs ih =>
    have hb := b.isLt
    have hpow : 2 ^ (8 * (b :: bs).length) = 256 * 2 ^ (8 * bs.length) := by rw [List.length_cons, Nat.mul_succ, Nat.pow_add, Nat.mul_comm]
    rw [leNat, hpow]
    omega

theorem leBytes_mod (n c : Nat) : leBytes n (c % 2 ^ (8 * n)) = leBytes n c := by
  induction n generalizing c with
  | zero => rfl
  | succ n ih =>
    have hpow : 2 ^ (8 * (n + 1)) = 256 * 2 ^ (8 * n) := by rw [Nat.mul_succ, Nat.pow_add, Nat.mul_comm]
    have hlow : c % (256 * 2 ^ (8 * n)) % 256 = c % 256 := Nat.mod_mul_right_mod c 256 _
    have hhigh : c % (256 * 2 ^ (8 * n)) / 256 = c / 256 % 2 ^ (8 * n) := Nat.mod_mul_right_div_self c 256 _
    have hbyte : ∀ k : Nat, BitVec.ofNat 8 k = BitVec.ofNat 8 (k % 256) := fun k => by
      apply BitVec.eq_of_toNat_eq
      simp only [BitVec.toNat_ofNat, Nat.reducePow, Nat.mod_mod]
    rw [leBytes, leBytes, hpow, hhigh, ih, hbyte, hlow, ← hbyte]

theorem length_mergeElem (f i c : Nat) (old : List Byte) : (mergeElem f i c old).length = old.length := length_leBytes _ _

/-- An element of 8 bits or more takes all of its bytes. -/
theorem mergeElem_whole {f : Nat} (hf : f ≤ 6) (i c : Nat) {old : List Byte} (hlen : old.length = colSpan f) :
    mergeElem f i c old = leBytes (colSpan f) c := by
  have hbits : fmtBits f = 8 * colSpan f ∧ 8 * colSpan f ≠ 6 ∧ 8 * colSpan f ≠ 4 := by
    interval_cases f <;> decide
  obtain ⟨hw, h6, h4⟩ := hbits
  have hlt : leNat old < 2 ^ (8 * colSpan f) := hlen ▸ leNat_lt old
  simp only [mergeElem, h6, h4, if_false, Nat.pow_zero, Nat.div_one, Nat.mul_one, hw, hlen, Nat.mod_eq_of_lt hlt, Nat.sub_self, Nat.zero_add]
  exact leBytes_mod _ c

/-! ### Runs of bytes -/

/-- A run of bytes changes no place beside it. -/
theorem get_writeRun_beside (off : Nat) (bs : List Byte) (n : Nat) (m : SMap Byte) {o : Nat} (h : ∀ k < bs.length, o ≠ off + n + k) :
    SMap.get 0 (writeRun off m (bs.zipIdx n)) o = SMap.get 0 m o := by
  induction bs generalizing n m with
  | nil => rfl
  | cons b bs ih =>
    have htail : writeRun off m ((b :: bs).zipIdx n) = writeRun off (SMap.set 0 m (off + n) b) (bs.zipIdx (n + 1)) := rfl
    rw [htail, ih (n + 1) _ fun k hk => ?_, SMap.get_set_ne _ _ _ _ _ _ (by simpa using h 0 (by simp))]
    have hne := h (k + 1) (by simpa using hk)
    omega

/-- The lanes `ls` one after another put bytes into the store `m`: lane `i` the bytes `B m i` at `a i`. -/
def putLanes (a : Nat → Nat) (B : SMap Byte → Nat → List Byte) (ls : List Nat) (m : SMap Byte) : SMap Byte :=
  ls.foldl (fun m i => writeRun (a i) m (B m i).zipIdx) m

theorem get_putLanes_beside {a : Nat → Nat} {B : SMap Byte → Nat → List Byte} {ls : List Nat} {n o : Nat} (m : SMap Byte)
    (hlen : ∀ m i, (B m i).length = n) (h : ∀ i ∈ ls, ∀ k < n, o ≠ a i + k) : SMap.get 0 (putLanes a B ls m) o = SMap.get 0 m o := by
  induction ls generalizing m with
  | nil => rfl
  | cons i ls ih =>
    have htail : putLanes a B (i :: ls) m = putLanes a B ls (writeRun (a i) m (B m i).zipIdx) := rfl
    rw [htail, ih _ fun j hj => h j (List.mem_cons_of_mem _ hj),
      get_writeRun_beside _ _ _ _ fun k hk => h i List.mem_cons_self k (hlen m i ▸ hk)]

/-- Lanes that reach separate places: each place holds its lane's bytes, which depend on what that place held at most. -/
theorem get_putLanes {a : Nat → Nat} {B : SMap Byte → Nat → List Byte} {bytes : Nat → List Byte} {ls : List Nat} {n : Nat} (m : SMap Byte)
    (hlen : ∀ m i, (B m i).length = n) (hnd : ls.Nodup) (hsep : ∀ i ∈ ls, ∀ j ∈ ls, i ≠ j → a i + n ≤ a j ∨ a j + n ≤ a i)
    (hB : ∀ i ∈ ls, ∀ m', (∀ k < n, SMap.get 0 m' (a i + k) = SMap.get 0 m (a i + k)) → B m' i = bytes i) :
    ∀ i ∈ ls, ∀ k, k < n → some (SMap.get 0 (putLanes a B ls m) (a i + k)) = (bytes i)[k]? := by
  induction ls generalizing m with
  | nil => exact fun i hi => absurd hi List.not_mem_nil
  | cons i ls ih =>
    obtain ⟨hnot, hrest⟩ := List.nodup_cons.mp hnd
    have htail : putLanes a B (i :: ls) m = putLanes a B ls (writeRun (a i) m (B m i).zipIdx) := rfl
    have hapart : ∀ j ∈ ls, a i + n ≤ a j ∨ a j + n ≤ a i := fun j hj =>
      hsep i List.mem_cons_self j (List.mem_cons_of_mem _ hj) fun hij => hnot (hij ▸ hj)
    intro j hj k hk
    rw [htail]
    rcases List.mem_cons.mp hj with rfl | hj
    · have hbytes : B m j = bytes j := hB j List.mem_cons_self m fun _ _ => rfl
      have hidx : k < (bytes j).length := by rw [← hbytes, hlen]; exact hk
      rw [get_putLanes_beside _ hlen fun i hi l hl => by have := hapart i hi; omega, hbytes, List.getElem?_eq_getElem hidx, Option.some_inj]
      exact get_writeRun (a j) (bytes j) 0 m (List.getElem?_eq_getElem hidx)
    · refine ih _ hrest (fun p hp q hq => hsep p (List.mem_cons_of_mem _ hp) q (List.mem_cons_of_mem _ hq)) (fun p hp m' hm' => ?_) j hj k hk
      refine hB p (List.mem_cons_of_mem _ hp) m' fun l hl => (hm' l hl).trans ?_
      have := hapart p hp
      exact get_writeRun_beside _ _ _ _ fun q hq => by rw [hlen] at hq; omega

/-! ### A tile store that holds given bytes -/

theorem updDie_updDie (s : State) (d : Die) (f g : DieState → DieState) : updDie (updDie s d f) d g = updDie s d fun y => g (f y) := by
  simp [updDie]

/-- `u` with a tile store of die `d` that holds `m` and no error. -/
def withTs (u : State) (d : Die) (m : SMap Byte) : State := updDie u d fun y => { y with tsUe := [], tsCe := [], ts := m }

theorem withTs_self {u : State} {d : Die} (h : soundStore u d) : withTs u d (die u d).ts = u := by
  obtain ⟨hue, hce⟩ := h
  have hsound : ∀ y : DieState, y.tsUe = [] → y.tsCe = [] → ({ y with tsUe := [], tsCe := [] } : DieState) = y := by
    rintro ⟨⟩ ⟨⟩ ⟨⟩
    rfl
  have hset : u.dies.set d (die u d) = u.dies := Vector.set_getElem_self _
  simp only [withTs, updDie]
  exact (congrArg (fun y => { u with dies := u.dies.set d y }) (hsound _ hue hce)).trans (congrArg (fun ds => { u with dies := ds }) hset)

theorem soundStore_withTs (u : State) (d : Die) (m : SMap Byte) : soundStore (withTs u d m) d := by
  rw [soundStore, withTs, die_updDie_self]
  exact ⟨rfl, rfl⟩

theorem ts_withTs (u : State) (d : Die) (m : SMap Byte) : (die (withTs u d m) d).ts = m := by rw [withTs, die_updDie_self]

theorem tsWrite_withTs (u : State) (d : Die) (m : SMap Byte) (off : Nat) (bs : List Byte) (port : Nat) :
    tsWrite (withTs u d m) d off bs port = withTs u d (writeRun off m bs.zipIdx) := by
  rw [tsWrite_of_sound (soundStore_withTs u d m), withTs, updDie_updDie]
  rfl

theorem placeOk_withTs (u : State) (d : Die) (m : SMap Byte) (p : Place) (n : Nat) : placeOk (withTs u d m) p n = placeOk u p n := by
  cases p <;> simp only [placeOk, withTs, updDie_mem]
theorem isProtected_withTs (u : State) (d : Die) (m : SMap Byte) (p : Place) (n : Nat) :
    isProtected (withTs u d m) p n = isProtected u p n := by
  cases p with
  | ts e o => simp only [isProtected, tqRegion, withTs, reg_updDie]
  | hbm a => rfl
  | bad => simp only [isProtected]
theorem laneFault_withTs (u : State) (d : Die) (m : SMap Byte) (v : VIns) (st : Bool) (a : DWord) :
    laneFault (withTs u d m) v st a = laneFault u v st a := by
  simp only [laneFault, placeOk_withTs, isProtected_withTs]

theorem vctx_withTs (u : State) (d : Die) (m : SMap Byte) (e : Die) (c : Sid) : vctx (withTs u d m) e c = vctx u e c := by
  by_cases he : e = d
  · subst he
    simp only [vctx, withTs, die_updDie_self]
  · simp only [vctx, withTs, die_updDie_ne _ _ _ _ he]
theorem str_withTs (u : State) (d : Die) (m : SMap Byte) (e : Die) (c : Sid) : str (withTs u d m) e c = str u e c := by
  by_cases he : e = d
  · subst he
    simp only [str, withTs, die_updDie_self]
  · simp only [str, withTs, die_updDie_ne _ _ _ _ he]

theorem VecRan.withTs {v : VIns} {s u : State} (h : VecRan v s u) (d : Die) (m : SMap Byte) : VecRan v s (withTs u d m) :=
  ⟨h.instr, fun e c => (vctx_withTs u d m e c).trans (h.ctx e c), fun e c => (str_withTs u d m e c).trans (h.str e c)⟩

/-! ### Stores into the die's own tile store -/

/-- The bytes that a place of the store `m` holds. -/
def bytesAt (m : SMap Byte) (o n : Nat) : List Byte := (List.range n).map fun k => SMap.get 0 m (o + k)

theorem length_bytesAt (m : SMap Byte) (o n : Nat) : (bytesAt m o n).length = n := by rw [bytesAt, List.length_map, List.length_range]
theorem peekPlace_withTs (u : State) (d : Die) (m : SMap Byte) (o n : Nat) : peekPlace (withTs u d m) (.ts d o) n = bytesAt m o n := by
  simp only [peekPlace, ts_withTs, bytesAt]

/-- A permitted address of space 0 is a place of the die's own tile store. -/
theorem placeOf_own {s : State} {d : Die} {a n : Nat} (h : placeOk s (placeOf d 0 a) n = true) : placeOf d 0 a = .ts d a := by
  by_cases ha : a < tsBytes
  · exact if_pos ha
  · have hbad : placeOf d 0 a = .bad := if_neg ha
    rw [hbad] at h
    cases h

theorem placeOk_of_laneFault {s : State} {v : VIns} {st : Bool} {a : DWord} (h : laneFault s v st a = none) :
    placeOk s (placeOf v.die v.space a.toNat) (colSpan v.fmt) = true := by
  unfold laneFault at h
  dsimp only at h
  split at h
  · cases h
  · split at h
    · cases h
    · simpa using ‹¬ (!placeOk s (placeOf v.die v.space a.toNat) (colSpan v.fmt)) = true›

theorem lanePlace_own {s : State} {v : VIns} {st : Bool} {a : DWord} (hsp : v.space = 0) (h : laneFault s v st a = none) :
    placeOf v.die v.space a.toNat = .ts v.die a.toNat := by
  have hok := placeOk_of_laneFault h
  rw [hsp] at hok ⊢
  exact placeOf_own hok

/-- So far a store has met no error and no fault: it went to the tile store of `u`, which now holds `m`. -/
structure Storing (u : State) (d : Die) (m : SMap Byte) (acc : StoreAcc) : Prop where
  state : acc.s = withTs u d m
  ue : acc.ue = false
  fault : acc.fault = none
  run : acc.run = none

/-- The bytes of lane `i` once the code `c` stands in it. -/
def laneBytes (f : Nat) (a : Nat → DWord) (c : Nat → Nat) (m : SMap Byte) (i : Nat) : List Byte :=
  mergeElem f i (c i) (bytesAt m (a i).toNat (colSpan f))

theorem length_laneBytes (f : Nat) (a : Nat → DWord) (c : Nat → Nat) (m : SMap Byte) (i : Nat) : (laneBytes f a c m i).length = colSpan f :=
  (length_mergeElem _ _ _ _).trans (length_bytesAt _ _ _)

theorem Storing.putCode {u : State} {v : VIns} {m : SMap Byte} {acc : StoreAcc} (h : Storing u v.die m acc) {a : DWord}
    (hp : placeOf v.die v.space a.toNat = .ts v.die a.toNat) (run : Bool) (i c : Nat) :
    Storing u v.die (writeRun a.toNat m (mergeElem v.fmt i c (bytesAt m a.toNat (colSpan v.fmt))).zipIdx) (putCode run v acc i a c) := by
  obtain ⟨hs, hue, hfault, hrun⟩ := h
  have hput : Machine.putCode run v acc i a c =
      { acc with
        s := withTs u v.die (writeRun a.toNat m (mergeElem v.fmt i c (bytesAt m a.toNat (colSpan v.fmt))).zipIdx)
        moved := acc.moved + 1, ue := acc.ue || false } := by
    simp only [Machine.putCode, hp, hs, writePlace, peekPlace_withTs, tsWrite_withTs]
  rw [hput]
  exact ⟨rfl, by rw [hue]; rfl, hfault, hrun⟩

/-- A store that ends so completes: the tile store holds `m`, and nothing else changes but counters. -/
theorem Storing.completes {s : State} {v : VIns} {m : SMap Byte} {acc : StoreAcc} (h : Storing (vecIssued v s) v.die m acc) (op : Nat) (idx : Bool) :
    vecMoved v s (endStore op v idx acc) ∧ (∀ o, tsByte (endStore op v idx acc) v.die o = SMap.get 0 m o) ∧
      changesOnly [.dies, .regs] s (endStore op v idx acc) := by
  obtain ⟨hs, hue, hfault, hrun⟩ := h
  have hend : endStore op v idx acc = vecStep (idxCounted v idx acc.moved (convCount (withTs (vecIssued v s) v.die m) v.die acc.cnt)) v id := by
    have hflush : flushRun v acc = acc := by simp only [flushRun, hrun]
    simp only [endStore, hflush, hue, hfault, hs, Bool.false_eq_true, if_false, idxCounted]
  have hran : VecRan v s (idxCounted v idx acc.moved (convCount (withTs (vecIssued v s) v.die m) v.die acc.cnt)) := by
    refine VecRan.idxCounted ?_ _ _
    refine (((vecRan_issued v s).withTs v.die m).addReg64 _ ?_).addReg64 _ ?_
    · simp only [rVecInstr, rConvSat]; omega
    · simp only [rVecInstr, rConvNan]; omega
  have hts : ∀ n u o, tsByte (idxCounted v idx n u) v.die o = tsByte u v.die o := fun n u o => by
    unfold idxCounted
    split
    · simp only [tsByte, die_addReg64]
    · rfl
  rw [hend]
  refine ⟨hran.moved, fun o => ?_, ?_⟩
  · rw [vecStep, tsByte_updCtx, hts]
    simp only [tsByte, convCount, die_addReg64, ts_withTs]
  · simp [changesOnly, vecIssued, withTs, convCount, idxCounted_frame]

end Sys2Proof.Machine
end

section
/-! PROOF. Stores of whole elements and adds into the tile store, lane by lane (R153, R161). -/
namespace Sys2Proof.Machine
open Sys2Proof

/-! ### Elements stored -/

/-- The code that a store without random bits writes for lane `i` of the context `x`. -/
def laneCode (x : VCtx) (v : VIns) (i : Nat) : Nat :=
  if v.fmt = 0 then (x.lane64 v.rd i).toNat else if v.fmt = 1 then (x.lane v.rd i).toNat else (fmtEncode v.fmt v.sat (dec32 (x.lane v.rd i))).1

theorem storedCode_eq (s : State) (v : VIns) (i : Nat) : storedCode s v i = laneCode (vctx s v.die v.ctx) v i := rfl

theorem Storing.counting {u : State} {d : Die} {m : SMap Byte} {acc : StoreAcc} (h : Storing u d m acc) (ks : List ConvCount) :
    Storing u d m { acc with cnt := ks } := ⟨h.state, h.ue, h.fault, h.run⟩

theorem Storing.storeLane {u : State} {v : VIns} {m : SMap Byte} {acc : StoreAcc} (h : Storing u v.die m acc) (x : VCtx) {addr : Nat → DWord}
    {i : Nat} (hsp : v.space = 0) (hsr : v.sr = false) (hf : laneFault u v true (addr i) = none) (run : Bool) :
    Storing u v.die (writeRun (addr i).toNat m (laneBytes v.fmt addr (laneCode x v) m i).zipIdx) (storeLane run x v addr acc i) := by
  have hp := lanePlace_own hsp hf
  have hok : acc.fault.isSome = false := by rw [h.fault]; rfl
  have hlane : laneFault acc.s v true (addr i) = none := by rw [h.state, laneFault_withTs, hf]
  simp only [Machine.storeLane, hok, hlane, hsr, Bool.false_eq_true, if_false, laneBytes, laneCode]
  by_cases h0 : v.fmt = 0
  · rw [if_pos h0, if_pos h0]
    exact h.putCode hp run i _
  · rw [if_neg h0, if_neg h0]
    by_cases h1 : v.fmt = 1
    · rw [if_pos h1, if_pos h1]
      exact h.putCode hp run i _
    · rw [if_neg h1, if_neg h1]
      exact (h.counting _).putCode hp run i _

theorem Storing.storeLanes {u : State} {v : VIns} {ls : List Nat} {m : SMap Byte} {acc : StoreAcc} (h : Storing u v.die m acc) (x : VCtx)
    {addr : Nat → DWord} (hsp : v.space = 0) (hsr : v.sr = false) (hf : ∀ i ∈ ls, laneFault u v true (addr i) = none) (run : Bool) :
    Storing u v.die (putLanes (fun i => (addr i).toNat) (laneBytes v.fmt addr (laneCode x v)) ls m) (ls.foldl (Machine.storeLane run x v addr) acc) := by
  induction ls generalizing m acc with
  | nil => exact h
  | cons i ls ih => exact ih (h.storeLane x hsp hsr (hf i List.mem_cons_self) run) fun j hj => hf j (List.mem_cons_of_mem _ hj)

/-! ### Elements added (R161) -/

/-- The bytes of lane `i` once lane `i` of vd has been added to the FP32 value there. -/
def addBytes (x : VCtx) (v : VIns) (addr : Nat → DWord) (m : SMap Byte) (i : Nat) : List Byte :=
  leBytes 4 (fadd (w32 (leNat (bytesAt m (addr i).toNat 4))) (x.lane v.rd i)).toNat

theorem Storing.addLane {u : State} {v : VIns} {m : SMap Byte} {acc : StoreAcc} (h : Storing u v.die m acc) (x : VCtx) {addr : Nat → DWord}
    {i : Nat} (hsp : v.space = 0) (hf : laneFault u v true (addr i) = none) :
    Storing u v.die (writeRun (addr i).toNat m (addBytes x v addr m i).zipIdx) (addLane x v addr acc i) := by
  have hp := lanePlace_own hsp hf
  have hok : acc.fault.isSome = false := by rw [h.fault]; rfl
  have hlane : laneFault (withTs u v.die m) v true (addr i) = none := by rw [laneFault_withTs, hf]
  have hread : readPlace (withTs u v.die m) (.ts v.die (addr i).toNat) 4 (vecPort v) = (⟨bytesAt m (addr i).toNat 4, false⟩, withTs u v.die m) := by
    rw [readPlace_quiet (p := .ts v.die (addr i).toNat) (soundStore_withTs u v.die m), peekPlace_withTs]
  simp only [Machine.addLane, hok, h.state, hlane, hp, hread, writePlace, tsWrite_withTs, h.ue, Bool.false_eq_true, if_false, Bool.or_self]
  exact ⟨rfl, rfl, h.fault, h.run⟩

theorem Storing.addLanes {u : State} {v : VIns} {ls : List Nat} {m : SMap Byte} {acc : StoreAcc} (h : Storing u v.die m acc) (x : VCtx)
    {addr : Nat → DWord} (hsp : v.space = 0) (hf : ∀ i ∈ ls, laneFault u v true (addr i) = none) :
    Storing u v.die (putLanes (fun i => (addr i).toNat) (addBytes x v addr) ls m) (ls.foldl (Machine.addLane x v addr) acc) := by
  induction ls generalizing m acc with
  | nil => exact h
  | cons i ls ih => exact ih (h.addLane x hsp (hf i List.mem_cons_self)) fun j hj => hf j (List.mem_cons_of_mem _ hj)

/-! ### What the tile store holds -/

/-- The instruction once counted: what the store finds. -/
theorem storing_start {s : State} {v : VIns} (h : soundStore s v.die) :
    Storing (vecIssued v s) v.die (die s v.die).ts ⟨vecIssued v s, 0, false, [], none, none⟩ := by
  have hsound : soundStore (vecIssued v s) v.die := by rw [soundStore, die_issued]; exact h
  have hself := withTs_self hsound
  rw [die_issued] at hself
  exact ⟨hself.symm, rfl, rfl, rfl⟩

theorem lanesStored_of_putLanes {s t : State} {v : VIns} {ls : List Nat} {addr : Nat → DWord} {n : Nat} {bytes : Nat → List Byte}
    {B : SMap Byte → Nat → List Byte} (hts : ∀ o, tsByte t v.die o = SMap.get 0 (putLanes (fun i => (addr i).toNat) B ls (die s v.die).ts) o)
    (hlen : ∀ m i, (B m i).length = n) (hnd : ls.Nodup) (hsep : separateLanes s v ls addr n)
    (hB : ∀ i ∈ ls, ∀ m, (∀ k < n, SMap.get 0 m ((addr i).toNat + k) = tsByte s v.die ((addr i).toNat + k)) → B m i = bytes i) :
    lanesStored s t v ls addr n bytes := by
  obtain ⟨-, -, -, hapart⟩ := hsep
  refine ⟨fun i hi k hk => ?_, fun o ho => ?_⟩
  · rw [hts]
    exact get_putLanes _ hlen hnd hapart hB i hi k hk
  · rw [hts]
    exact get_putLanes_beside _ hlen ho

/-! ### Stores and adds of separate lanes -/

theorem runStore_spec {s : State} {v : VIns} {ls : List Nat} {addr : Nat → DWord} (hmx : isMx v.fmt = false) (hfmt : v.fmt ≤ 6) (hsr : v.sr = false)
    (hnd : ls.Nodup) (hsep : separateLanes s v ls addr (colSpan v.fmt)) (op : Nat) (idx : Bool) :
    lanesStored s (runStore op v idx ls addr (vecIssued v s)) v ls addr (colSpan v.fmt) (fun i => leBytes (colSpan v.fmt) (storedCode s v i)) ∧
      vecMoved v s (runStore op v idx ls addr (vecIssued v s)) ∧ changesOnly [.dies, .regs] s (runStore op v idx ls addr (vecIssued v s)) := by
  obtain ⟨hsp, hsound, hfault, -⟩ := id hsep
  have hstored := (storing_start hsound).storeLanes (vctx s v.die v.ctx) hsp hsr (ls := ls) (addr := addr)
    (fun i hi => by rw [laneFault_issued]; exact hfault i hi) (inRun op)
  have hrun : runStore op v idx ls addr (vecIssued v s) = endStore op v idx
      (ls.foldl (storeLane (inRun op) (vctx s v.die v.ctx) v addr) ⟨vecIssued v s, 0, false, [], none, none⟩) := by
    simp only [runStore, hmx, Bool.false_eq_true, if_false, vctx_issued]
  obtain ⟨hmoved, hts, hframe⟩ := hstored.completes op idx
  rw [hrun]
  refine ⟨lanesStored_of_putLanes hts (length_laneBytes v.fmt addr _) hnd hsep fun i _ m _ => ?_, hmoved, hframe⟩
  rw [laneBytes, mergeElem_whole hfmt _ _ (length_bytesAt _ _ _), storedCode_eq]

theorem runAdd_spec {s : State} {v : VIns} {ls : List Nat} {addr : Nat → DWord} (hnd : ls.Nodup) (hsep : separateLanes s v ls addr 4)
    (op : Nat) (idx : Bool) :
    lanesStored s (runAdd op v idx ls addr (vecIssued v s)) v ls addr 4 (fun i => leBytes 4
        (fadd (BitVec.ofNat 32 (leNat ((List.range 4).map fun k => tsByte s v.die ((addr i).toNat + k)))) ((vctx s v.die v.ctx).lane v.rd i)).toNat) ∧
      vecMoved v s (runAdd op v idx ls addr (vecIssued v s)) ∧ changesOnly [.dies, .regs] s (runAdd op v idx ls addr (vecIssued v s)) := by
  obtain ⟨hsp, hsound, hfault, -⟩ := id hsep
  have hadded := (storing_start hsound).addLanes (vctx s v.die v.ctx) hsp (ls := ls) (addr := addr)
    (fun i hi => by rw [laneFault_issued]; exact hfault i hi)
  have hrun : runAdd op v idx ls addr (vecIssued v s) = endStore op v idx
      (ls.foldl (addLane (vctx s v.die v.ctx) v addr) ⟨vecIssued v s, 0, false, [], none, none⟩) := by
    simp only [runAdd, vctx_issued]
  obtain ⟨hmoved, hts, hframe⟩ := hadded.completes op idx
  rw [hrun]
  refine ⟨lanesStored_of_putLanes hts (fun _ _ => length_leBytes _ _) hnd hsep fun i _ m hm => ?_, hmoved, hframe⟩
  have hbytes : bytesAt m (addr i).toNat 4 = (List.range 4).map fun k => tsByte s v.die ((addr i).toNat + k) :=
    List.map_congr_left fun k hk => hm k (List.mem_range.mp hk)
  rw [addBytes, hbytes, w32]

end Sys2Proof.Machine
end

section
/-! PROOF. Stores in the formats with a block scale or packed elements: what they leave of the tile store (R160). -/
namespace Sys2Proof.Machine
open Sys2Proof

/-- So far a store to the tile store of `u`, which held `m`, changed no byte whose place meets `P`. -/
def StoresBeside (P : Nat → Prop) (u : State) (d : Die) (m : SMap Byte) (acc : StoreAcc) : Prop :=
  ∃ m', Storing u d m' acc ∧ ∀ o, P o → SMap.get 0 m' o = SMap.get 0 m o

/-- No byte of the `n` from `a` on meets `P`. -/
def besideAll (P : Nat → Prop) (a n : Nat) : Prop := ∀ o, P o → ∀ k < n, o ≠ a + k

theorem StoresBeside.putCode {P : Nat → Prop} {u : State} {v : VIns} {m : SMap Byte} {acc : StoreAcc} (h : StoresBeside P u v.die m acc)
    {a : DWord} (hp : placeOf v.die v.space a.toNat = .ts v.die a.toNat) (hP : besideAll P a.toNat (colSpan v.fmt)) (run : Bool) (i c : Nat) :
    StoresBeside P u v.die m (putCode run v acc i a c) := by
  obtain ⟨m', hstoring, hkept⟩ := h
  refine ⟨_, hstoring.putCode hp run i c, fun o ho => (get_writeRun_beside _ _ _ _ fun k hk => ?_).trans (hkept o ho)⟩
  rw [length_mergeElem, length_bytesAt] at hk
  exact hP o ho k hk

/-- Any bytes written to the die's own tile store. -/
theorem StoresBeside.writePlace {P : Nat → Prop} {u : State} {d : Die} {m : SMap Byte} {acc : StoreAcc} (h : StoresBeside P u d m acc) {a : Nat}
    {bs : List Byte} (hP : besideAll P a bs.length) (port : Nat) : StoresBeside P u d m
      { acc with s := (writePlace acc.s (.ts d a) bs port).2, ue := acc.ue || (writePlace acc.s (.ts d a) bs port).1 } := by
  obtain ⟨m', hstoring, hkept⟩ := h
  refine ⟨writeRun a m' bs.zipIdx, ⟨?_, ?_, hstoring.fault, hstoring.run⟩, fun o ho => (get_writeRun_beside _ _ _ _ fun k hk => ?_).trans (hkept o ho)⟩
  · rw [Machine.writePlace, hstoring.state, tsWrite_withTs]
  · rw [Machine.writePlace, hstoring.ue]
    rfl
  · rw [Nat.add_zero]
    exact hP o ho k hk

theorem StoresBeside.fault_isSome {P : Nat → Prop} {u : State} {d : Die} {m : SMap Byte} {acc : StoreAcc} (h : StoresBeside P u d m acc) :
    acc.fault.isSome = false := by
  obtain ⟨_, hstoring, -⟩ := h
  rw [hstoring.fault]
  rfl

theorem StoresBeside.laneFault {P : Nat → Prop} {u : State} {d : Die} {m : SMap Byte} {acc : StoreAcc} (h : StoresBeside P u d m acc) (v : VIns)
    (st : Bool) (a : DWord) : laneFault acc.s v st a = Machine.laneFault u v st a := by
  obtain ⟨_, hstoring, -⟩ := h
  rw [hstoring.state, laneFault_withTs]

theorem StoresBeside.placeOk {P : Nat → Prop} {u : State} {d : Die} {m : SMap Byte} {acc : StoreAcc} (h : StoresBeside P u d m acc) (p : Place)
    (n : Nat) : placeOk acc.s p n = Machine.placeOk u p n := by
  obtain ⟨_, hstoring, -⟩ := h
  rw [hstoring.state, placeOk_withTs]

theorem StoresBeside.isProtected {P : Nat → Prop} {u : State} {d : Die} {m : SMap Byte} {acc : StoreAcc} (h : StoresBeside P u d m acc)
    (p : Place) (n : Nat) : isProtected acc.s p n = Machine.isProtected u p n := by
  obtain ⟨_, hstoring, -⟩ := h
  rw [hstoring.state, isProtected_withTs]

/-- The 32 lanes of block `b` are permitted places, and so is its scale; no byte of them meets `P`. -/
structure BlockBeside (P : Nat → Prop) (u : State) (v : VIns) (x : VCtx) (addr : Nat → DWord) (b : Nat) : Prop where
  scaleOk : placeOk u (placeOf v.die v.space (x.sreg v.rc + w64 b).toNat) 1 = true
  scaleFree : isProtected u (placeOf v.die v.space (x.sreg v.rc + w64 b).toNat) 1 = false
  scaleApart : besideAll P (x.sreg v.rc + w64 b).toNat 1
  lanesOk : ∀ k < 32, laneFault u v true (addr (k + 32 * b)) = none
  lanesApart : ∀ k < 32, besideAll P (addr (k + 32 * b)).toNat (colSpan v.fmt)

theorem StoresBeside.storeBlock {P : Nat → Prop} {u : State} {v : VIns} {m : SMap Byte} {acc : StoreAcc} (h : StoresBeside P u v.die m acc)
    {x : VCtx} {addr : Nat → DWord} {b : Nat} (hsp : v.space = 0) (hb : BlockBeside P u v x addr b) :
    StoresBeside P u v.die m (storeBlock x v addr acc b) := by
  have hplace : placeOf v.die v.space (x.sreg v.rc + w64 b).toNat = .ts v.die (x.sreg v.rc + w64 b).toNat := by
    have hown := hb.scaleOk
    rw [hsp] at hown ⊢
    exact placeOf_own hown
  simp only [Machine.storeBlock, h.fault_isSome, h.placeOk, h.isProtected, hb.scaleOk, hb.scaleFree, Bool.not_true, Bool.false_eq_true, if_false]
  refine List.foldlRecOn (motive := StoresBeside P u v.die m) _ _ ?_ fun acc hacc p hp => ?_
  · rw [hplace]
    exact h.writePlace hb.scaleApart _
  · obtain ⟨i, c⟩ := p
    obtain ⟨k, hk, rfl⟩ := List.mem_map.mp (List.of_mem_zip hp).1
    have hk := List.mem_range.mp hk
    simp only [hacc.fault_isSome, hacc.laneFault, hb.lanesOk k hk, Bool.false_eq_true, if_false]
    exact hacc.putCode (lanePlace_own hsp (hb.lanesOk k hk)) (hb.lanesApart k hk) true _ c

/-- MX_MASK not raised: a block with its first lane active is active as a whole. -/
theorem block_active {x : VCtx} {v : VIns} {b k : Nat} (hmx : isMx v.fmt = true) (hbad : mxBad x v = false) (hb : b < 64) (hk : k < 32)
    (hfirst : 32 * b ∈ x.active v) : k + 32 * b ∈ x.active v := by
  have hsome : (x.active v).isEmpty = false := by
    rw [List.isEmpty_eq_false_iff]
    exact List.ne_nil_of_mem hfirst
  simp only [mxBad, hmx, hsome, Bool.not_false, Bool.true_and, Bool.or_eq_false_iff] at hbad
  obtain ⟨-, hany⟩ := hbad
  have hcount := List.any_eq_false.mp hany b (List.mem_range.mpr hb)
  simp only [decide_eq_true_eq, not_and_or, not_not] at hcount
  have hmem : (0 : Nat) ∈ (List.range 32).filter fun k => decide (32 * b + k < x.vl) && x.maskBit v.mask (32 * b + k) := by
    obtain ⟨hvl, hmask⟩ := (x.mem_active v _).mp hfirst
    simp only [List.mem_filter, List.mem_range, Nat.add_zero, hmask, hvl, decide_true, Bool.and_self, and_true]
    decide
  have hall := hcount.resolve_left fun hnil => List.ne_nil_of_mem hmem (List.length_eq_zero_iff.mp hnil)
  have hlane := List.length_filter_eq_length_iff.mp (hall.trans List.length_range.symm) k (List.mem_range.mpr hk)
  rw [Nat.add_comm, x.mem_active]
  simpa only [Bool.and_eq_true, decide_eq_true_eq] using hlane

/-- The places that no active lane and no scale of its block reaches. -/
def unreached (s : State) (v : VIns) (addr : Nat → DWord) (o : Nat) : Prop :=
  ∀ i ∈ (vctx s v.die v.ctx).active v, (isMx v.fmt = true → scalePlace s v i ≠ .ts v.die o) ∧ ∀ k, k < colSpan v.fmt → o ≠ (addr i).toNat + k

/-- Every active lane reaches a permitted place, and so does the scale of its block. -/
def lanesPermitted (s : State) (v : VIns) (addr : Nat → DWord) : Prop :=
  ∀ i ∈ (vctx s v.die v.ctx).active v, laneFault s v true (addr i) = none ∧
    (isMx v.fmt = true → placeOk s (scalePlace s v i) 1 = true ∧ isProtected s (scalePlace s v i) 1 = false)

theorem blockBeside_unreached {s : State} {v : VIns} {addr : Nat → DWord} {b : Nat} (hsp : v.space = 0) (hmx : isMx v.fmt = true)
    (hbad : mxBad (vctx s v.die v.ctx) v = false) (hok : lanesPermitted s v addr) (hb : b < 64) (hfirst : 32 * b ∈ (vctx s v.die v.ctx).active v) :
    BlockBeside (unreached s v addr) (vecIssued v s) v (vctx s v.die v.ctx) addr b := by
  have hscale : scalePlace s v (32 * b) = placeOf v.die v.space ((vctx s v.die v.ctx).sreg v.rc + w64 b).toNat := by
    rw [scalePlace, Nat.mul_div_cancel_left b (by decide)]
  obtain ⟨hplace, hfree⟩ := (hok _ hfirst).2 hmx
  rw [hscale] at hplace hfree
  refine ⟨(placeOk_issued _ _ _ _).trans hplace, (isProtected_issued _ _ _ _).trans hfree, fun o ho k hk heq => ?_, fun k hk => ?_, fun k hk o ho => ?_⟩
  · refine (ho _ hfirst).1 hmx ?_
    rw [hsp] at hplace hscale
    rw [hscale, placeOf_own hplace, heq, Nat.lt_one_iff.mp hk, Nat.add_zero]
  · rw [laneFault_issued]
    exact (hok _ (block_active hmx hbad hb hk hfirst)).1
  · exact (ho _ (block_active hmx hbad hb hk hfirst)).2

/-- A store without random bits to permitted places of the tile store changes no byte that no lane reaches. -/
theorem runStore_beside {s : State} {v : VIns} {addr : Nat → DWord} (hsp : v.space = 0) (hsound : soundStore s v.die) (hsr : v.sr = false)
    (hbad : mxBad (vctx s v.die v.ctx) v = false) (hok : lanesPermitted s v addr) (op : Nat) (idx : Bool) :
    vecMoved v s (runStore op v idx ((vctx s v.die v.ctx).active v) addr (vecIssued v s)) ∧
      (∀ o, unreached s v addr o → tsByte (runStore op v idx ((vctx s v.die v.ctx).active v) addr (vecIssued v s)) v.die o = tsByte s v.die o) ∧
      changesOnly [.dies, .regs] s (runStore op v idx ((vctx s v.die v.ctx).active v) addr (vecIssued v s)) := by
  have hstart := storing_start hsound
  have hstored : ∃ acc, runStore op v idx ((vctx s v.die v.ctx).active v) addr (vecIssued v s) = endStore op v idx acc ∧
      StoresBeside (unreached s v addr) (vecIssued v s) v.die (die s v.die).ts acc := by
    by_cases hmx : isMx v.fmt = true
    · refine ⟨_, by rw [runStore, if_pos hmx], List.foldlRecOn _ _ ⟨_, hstart, fun _ _ => rfl⟩ fun acc hacc b hb => ?_⟩
      obtain ⟨hlt, hfirst⟩ := List.mem_filter.mp hb
      rw [vctx_issued]
      exact hacc.storeBlock hsp (blockBeside_unreached hsp hmx hbad hok (List.mem_range.mp hlt) (of_decide_eq_true hfirst))
    · refine ⟨_, by rw [runStore, if_neg hmx], _, hstart.storeLanes _ hsp hsr (fun i hi => ?_) _, fun o ho => ?_⟩
      · rw [laneFault_issued]
        exact (hok i hi).1
      · exact get_putLanes_beside _ (length_laneBytes v.fmt addr _) fun i hi => (ho i hi).2
  obtain ⟨acc, hrun, m', hstoring, hkept⟩ := hstored
  obtain ⟨hmoved, hts, hframe⟩ := hstoring.completes op idx
  rw [hrun]
  exact ⟨hmoved, fun o ho => (hts o).trans (hkept o ho), hframe⟩

end Sys2Proof.Machine
end

section
/-! PROOF. Stores into module memory without errors: the memory map, the dies and the image stay (R242, R251, R255). -/
namespace Sys2Proof.Machine
open Sys2Proof

/-! ### The memory map -/

theorem mapAddr_congr {m m' : MemState} (hvariant : m'.variant = m.variant) (hspread : m'.spread = m.spread) (hreserve : m'.reserve = m.reserve)
    (hst : ∀ n : Stack, m'.st[n].inService = m.st[n].inService ∧ m'.st[n].chanOut = m.st[n].chanOut) (a : Nat) : mapAddr m' a = mapAddr m a := by
  have hspreadOf : spreadOf m' = spreadOf m := by rw [spreadOf, spreadOf, hspread]
  have hcap : ∀ n, capOf m' n = capOf m n := fun n => by rw [capOf, capOf, (hst n).2, chanBytes, chanBytes, hvariant]
  have hlocal : ∀ n, localSize m' n = localSize m n := fun n => by rw [localSize, localSize, hcap, hreserve, hspreadOf]
  simp only [mapAddr, hspreadOf, hcap, hlocal, (hst _).1]

/-- The bytes that addresses name follow from the stacks in service, their channels and their remap tables. -/
theorem phys_congr {m m' : MemState} (hvariant : m'.variant = m.variant) (hspread : m'.spread = m.spread) (hreserve : m'.reserve = m.reserve)
    (hst : ∀ n : Stack, m'.st[n].inService = m.st[n].inService ∧ m'.st[n].chanOut = m.st[n].chanOut ∧ m'.st[n].remap = m.st[n].remap) (a : Nat) :
    phys m' a = phys m a := by
  have hmap := mapAddr_congr hvariant hspread hreserve (fun n => ⟨(hst n).1, (hst n).2.1⟩) a
  have hremap : ∀ (n : Stack) p, remapPage m'.st[n] p = remapPage m.st[n] p := fun n p => by rw [remapPage, remapPage, (hst n).2.2]
  simp only [phys, hmap, hremap]

theorem mappedRange_congr {m m' : MemState} (h : ∀ a, phys m' a = phys m a) (a len : Nat) : mappedRange m' a len = mappedRange m a len := by
  simp only [mappedRange, h]

/-! ### Memory that holds no error -/

/-- `t` is `s` with other contents of a memory that holds no error: the map, the dies and the image are as before. -/
structure SoundMem (s t : State) : Prop where
  dies : t.dies = s.dies
  img : t.img = s.img
  ue : t.mem.ue = []
  ce : t.mem.ce = []
  parity : t.mem.parity = 0
  phys : ∀ a, phys t.mem a = Machine.phys s.mem a

theorem SoundMem.of_eq {s t u : State} (h : SoundMem s t) (hdies : u.dies = t.dies) (himg : u.img = t.img) (hmem : u.mem = t.mem) : SoundMem s u :=
  ⟨hdies.trans h.dies, himg.trans h.img, hmem ▸ h.ue, hmem ▸ h.ce, hmem ▸ h.parity, hmem ▸ h.phys⟩

theorem SoundMem.memEvent {s t : State} (h : SoundMem s t) (bit : Nat) (n : Stack) (row : Nat) : SoundMem s (memEvent t bit n row) := by
  have hframe : changesOnly [.out, .regs, .rs, .host] t (Machine.memEvent t bit n row) := memEvent_frame (by decide) t bit n row
  exact h.of_eq (hframe.dies (by decide)) (hframe.img (by decide)) (hframe.mem (by decide))

theorem SoundMem.foldl {α : Type} {s t : State} (h : SoundMem s t) {f : State → α → State} (hf : ∀ u x, SoundMem s u → SoundMem s (f u x))
    (l : List α) : SoundMem s (l.foldl f t) := List.foldlRecOn l f h fun u hu x _ => hf u x hu

/-- An update of a stack that keeps it in service with its channels and its remap table. -/
theorem SoundMem.updStack {s t : State} (h : SoundMem s t) (n : Stack) {f : StackState → StackState}
    (hf : ∀ x, (f x).inService = x.inService ∧ (f x).chanOut = x.chanOut ∧ (f x).remap = x.remap) : SoundMem s (updStack t n f) := by
  refine ⟨h.dies, h.img, h.ue, h.ce, h.parity, fun a =>
    (phys_congr (m := t.mem) (m' := (Machine.updStack t n f).mem) rfl rfl rfl (fun k => ?_) a).trans (h.phys a)⟩
  have hget : (Machine.updStack t n f).mem.st[k] = if n = k then f t.mem.st[n] else t.mem.st[k] := by
    simp only [Machine.updStack, Fin.getElem_fin, Vector.getElem_set, Fin.ext_iff]
  rw [hget]
  split
  · rename_i hnk
    subst hnk
    exact hf _
  · exact ⟨rfl, rfl, rfl⟩

/-- R255: a repair in a memory without errors finds none. -/
theorem SoundMem.repairRow {s t : State} (h : SoundMem s t) (n : Stack) (row : Nat) : SoundMem s (repairRow t n row) := by
  unfold Machine.repairRow
  extract_lets x inRow found corrected repaired
  have hfound : found = t := by simp only [found, inRow, h.ue, List.map_nil, List.filter_nil, List.foldl_nil]
  have hcorrected : corrected = t := by simp only [corrected, inRow, hfound, h.ce, List.map_nil, List.filter_nil, List.foldl_nil]
  have hrepaired : SoundMem s repaired := (hcorrected ▸ h).updStack n fun _ => ⟨rfl, rfl, rfl⟩
  exact (hrepaired.of_eq (u := { repaired with flash := { repaired.flash with repairs := repaired.flash.repairs ++ [(n.val, row)] } })
    rfl rfl rfl).memEvent 3 n row

theorem SoundMem.holdForRepair {s t : State} (h : SoundMem s t) (g : Nat) : SoundMem s (holdForRepair t g) := by
  unfold Machine.holdForRepair
  dsimp only
  split
  · split
    · exact h.repairRow _ _
    · exact h
  · exact h

theorem SoundMem.writeMark {s t : State} (h : SoundMem s t) (a len g b : Nat) : SoundMem s (writeMark t a len g b) := by
  unfold Machine.writeMark
  split
  · exact ⟨h.dies, h.img, by rw [h.ue]; rfl, by rw [h.ce]; rfl, h.parity, h.phys⟩
  · have htouch : touchGran t g b = t := by simp only [touchGran, h.ue, h.ce, SMap.get, Bool.false_eq_true, if_false, ite_self]
    rw [htouch]
    exact h

theorem SoundMem.memWrite {s t u : State} (h : SoundMem s t) {a : Nat} {bs : List Byte} {no : Bool} (hw : memWrite t a bs = some (no, u)) :
    SoundMem s u := by
  unfold Machine.memWrite at hw
  dsimp only at hw
  split at hw
  · split at hw
    · cases hw
      exact h
    · cases hw
      have hmarked := (h.foldl (fun u x hu => hu.holdForRepair x.1) (gransOf t.mem a bs.length)).foldl
        (fun u x hu => hu.writeMark a bs.length x.1 x.2) (gransOf t.mem a bs.length)
      generalize (gransOf t.mem a bs.length).foldl (fun s x => Machine.writeMark s a bs.length x.1 x.2) _ = w at hmarked ⊢
      have hstored : SoundMem s { w with mem := storeBytes w.mem a bs } :=
        ⟨hmarked.dies, hmarked.img, hmarked.ue, hmarked.ce, hmarked.parity,
          fun b => (phys_congr rfl rfl rfl (fun _ => ⟨rfl, rfl, rfl⟩) b).trans (hmarked.phys b)⟩
      have hca : caParity { w with mem := storeBytes w.mem a bs } (gransOf t.mem a bs.length) = { w with mem := storeBytes w.mem a bs } :=
        if_pos hstored.parity
      rw [hca]
      exact hstored
  · cases hw

/-! ### Elements stored -/

theorem SoundMem.writePlace {s t : State} (h : SoundMem s t) (a : Nat) (bs : List Byte) (port : Nat) :
    SoundMem s (writePlace t (.hbm a) bs port).2 := by
  simp only [Machine.writePlace]
  split
  · exact h.memWrite ‹_›
  · exact h

theorem SoundMem.flushRun {s : State} {acc : StoreAcc} (h : SoundMem s acc.s) (v : VIns) : SoundMem s (flushRun v acc).s := by
  unfold Machine.flushRun
  split
  · exact h
  · exact h.writePlace _ _ _

theorem fault_flushRun (v : VIns) (acc : StoreAcc) : (flushRun v acc).fault = acc.fault := by
  unfold flushRun
  split <;> rfl

/-- So far a store has met no fault, and module memory holds no error. -/
def StoresSound (s : State) (acc : StoreAcc) : Prop := SoundMem s acc.s ∧ acc.fault = none

theorem StoresSound.addRun {s : State} {acc : StoreAcc} (h : StoresSound s acc) (v : VIns) (a n : Nat) (f : List Byte → List Byte) :
    StoresSound s (addRun v acc a n f) := by
  unfold Machine.addRun
  split
  · split
    · exact h
    · exact ⟨h.1.flushRun v, (fault_flushRun v acc).trans h.2⟩
  · exact h

theorem StoresSound.putCode {s : State} {acc : StoreAcc} (h : StoresSound s acc) {v : VIns} {a : DWord}
    (hp : placeOf v.die v.space a.toNat = .hbm a.toNat) (i c : Nat) : StoresSound s (putCode true v acc i a c) := by
  simp only [Machine.putCode, hp]
  exact StoresSound.addRun (acc := { acc with moved := acc.moved + 1 }) h v _ _ _

/-- A permitted address of space 1 is a place of module memory. -/
theorem lanePlace_hbm {s : State} {v : VIns} {st : Bool} {a : DWord} (hsp : v.space = 1) (h : laneFault s v st a = none) :
    placeOf v.die v.space a.toNat = .hbm a.toNat := by
  have hok := placeOk_of_laneFault h
  rw [hsp] at hok ⊢
  by_cases ha : a.toNat < 2 ^ 48
  · exact if_pos ha
  · have hbad : placeOf v.die 1 a.toNat = .bad := if_neg ha
    rw [hbad] at hok
    cases hok

theorem SoundMem.laneFault {s t : State} (h : SoundMem s t) {v : VIns} {st : Bool} {a : DWord} (hsp : v.space = 1)
    (hf : laneFault s v st a = none) : laneFault t v st a = none := by
  have hok : placeOk t (placeOf v.die v.space a.toNat) (colSpan v.fmt) = placeOk s (placeOf v.die v.space a.toNat) (colSpan v.fmt) := by
    simp only [lanePlace_hbm hsp hf, placeOk, mappedRange_congr h.phys]
  have hprot : isProtected t (placeOf v.die v.space a.toNat) (colSpan v.fmt) = isProtected s (placeOf v.die v.space a.toNat) (colSpan v.fmt) := by
    simp only [lanePlace_hbm hsp hf, isProtected, inImage, h.img]
  rw [← hf]
  simp only [Machine.laneFault, hok, hprot]

theorem SoundMem.srDraw {s t : State} (h : SoundMem s t) (v : VIns) (a : Nat) : SoundMem s (srDraw t v a).2 := by
  have hframe : changesOnly [.free] t (Machine.srDraw t v a).2 := srDraw_frame (by decide) t v a
  exact h.of_eq (hframe.dies (by decide)) (hframe.img (by decide)) (hframe.mem (by decide))

theorem StoresSound.storeLane {s : State} {acc : StoreAcc} (h : StoresSound s acc) {v : VIns} (x : VCtx) {addr : Nat → DWord} {i : Nat}
    (hsp : v.space = 1) (hf : laneFault s v true (addr i) = none) : StoresSound s (storeLane true x v addr acc i) := by
  have hp := lanePlace_hbm hsp hf
  have hok : acc.fault.isSome = false := by rw [h.2]; rfl
  simp only [Machine.storeLane, hok, h.1.laneFault hsp hf, Bool.false_eq_true, if_false]
  split
  · exact h.putCode hp i _
  · split
    · exact h.putCode hp i _
    · split
      · refine StoresSound.putCode ?_ hp i _
        exact ⟨h.1.srDraw v _, h.2⟩
      · refine StoresSound.putCode ?_ hp i _
        exact h

/-! ### The end of the store -/

theorem vctx_of_dies {s t : State} (h : t.dies = s.dies) (d : Die) (c : Sid) : vctx t d c = vctx s d c := by simp only [vctx, die, h]

theorem vctx_noteLoadUe (s : State) (v : VIns) (op : Nat) :
    vctx (noteLoadUe s v op) v.die v.ctx = { vctx s v.die v.ctx with loadUe := true } := by
  have hframe : changesOnly [.out, .regs, .rs, .host] s (rsEvent (if (vctx s v.die v.ctx).loadUe then s else vecInfo s v op 0)
      (cdWin v.die.val + rVecErr) veLoadUe) := by
    simp only [changesOnly]
    rw [rsEvent_frame (by decide)]
    split
    · rfl
    · exact vecInfo_frame (by decide) _ _ _ _
  rw [noteLoadUe, vctx_updCtx_self, vctx_of_dies (hframe.dies (by decide))]

/-- A store that met no fault ends with the next instruction, whether or not a stack refused a write. -/
theorem StoresSound.completes {s : State} {acc : StoreAcc} (h : StoresSound s acc) (op : Nat) (v : VIns) :
    (vctx (endStore op v false acc) v.die v.ctx).pc = (vctx s v.die v.ctx).pc + 1 ∧
      (vctx (endStore op v false acc) v.die v.ctx).vregs = (vctx s v.die v.ctx).vregs := by
  have hfault : (Machine.flushRun v acc).fault = none := (fault_flushRun v acc).trans h.2
  have hctx : vctx (convCount (Machine.flushRun v acc).s v.die (Machine.flushRun v acc).cnt) v.die v.ctx = vctx s v.die v.ctx := by
    rw [convCount, vctx_addReg64, vctx_addReg64]
    exact vctx_of_dies (h.1.flushRun v).dies _ _
  simp only [endStore, hfault, Bool.false_eq_true, if_false]
  rw [vecStep, vctx_updCtx_self]
  split
  · rw [vctx_noteLoadUe, hctx]
    exact ⟨rfl, rfl⟩
  · rw [hctx]
    exact ⟨rfl, rfl⟩

end Sys2Proof.Machine
end

section
/-! PROOF. Vector stores: VectorStores (O28). -/
namespace Sys2Proof.Machine
open Sys2Proof

/-- A masked store that is legal and next in its program stores the active lanes. -/
theorem vecStore_ready {s : State} {v : VIns} {i : Instr} {op : Nat} {okFmt : Nat → Bool} {idx : Bool} {addr : VCtx → VIns → Nat → DWord}
    (h : vecReady s v i) (hop : vecOpcode i = op) (hk : opKnown op = true) (hill : memIll s v okFmt true idx = false)
    (heven : v.fmt = 0 → v.rd % 2 = 0) (hmx : mxBad (vctx s v.die v.ctx) v = false) :
    vecStore op okFmt idx addr v s = runStore op v idx ((vctx s v.die v.ctx).active v) (addr (vctx s v.die v.ctx) v) (vecIssued v s) := by
  rw [vecStore, hill, dataOdd_of_even heven, vecRun_ready h hop hk]
  simp only [vctx_issued, hmx, Bool.false_eq_true, if_false]

theorem isMx_of_le {f : Nat} (h : f < 8) : isMx f = false := by
  simp only [isMx, Nat.not_le.mpr h, decide_false, Bool.false_and]

theorem mxBad_of_le {x : VCtx} {v : VIns} (h : v.fmt < 8) : mxBad x v = false := by
  rw [mxBad, isMx_of_le h, Bool.false_and, Bool.false_and]

/-- Only the formats of 8 and 16 bits without a block scale may be stored with random bits. -/
theorem fmt_of_sr {s : State} {v : VIns} {okFmt : Nat → Bool} {idx : Bool} (hill : memIll s v okFmt true idx = false) (hsr : v.sr = true) :
    2 ≤ v.fmt ∧ v.fmt ≤ 5 := by
  simp only [memIll, hsr, srFmt, Bool.or_eq_false_iff, Bool.true_and, Bool.not_eq_false', Bool.and_eq_true, decide_eq_true_eq] at hill
  exact hill.1.2.2

theorem sr_of_rowLegal {s : State} {v : VIns} {idx : Bool} (hill : memIll s v (fun f => decide (f = 1)) false idx = false) : v.sr = false := by
  simp only [memIll, Bool.or_eq_false_iff, Bool.false_and, Bool.not_false, Bool.and_true] at hill
  exact hill.1.2

/-- An FP32 store writes the word as it stands. -/
theorem storedCode_fp32 {v : VIns} (h : v.fmt = 1) (s : State) (i : Nat) : storedCode s v i = ((vctx s v.die v.ctx).lane v.rd i).toNat := by
  simp only [storedCode, h, one_ne_zero, if_true, if_false]

/-- R276: a store with random bits to module memory that holds no error completes. -/
theorem vst_random {s : State} {v : VIns} (h : vecReady s v (.vst v)) (hill : memIll s v fmtKnown true false = false) (hsr : v.sr = true)
    (hsp : v.space = 1) (hmx : mxBad (vctx s v.die v.ctx) v = false) (hue : s.mem.ue = []) (hce : s.mem.ce = []) (hparity : s.mem.parity = 0)
    (hf : ∀ i ∈ (vctx s v.die v.ctx).active v, laneFault s v true (addrUnit (vctx s v.die v.ctx) v i) = none) :
    ∃ t, exec (.vst v) s = .next t ∧ (vctx t v.die v.ctx).pc = (vctx s v.die v.ctx).pc + 1 ∧
      (vctx t v.die v.ctx).vregs = (vctx s v.die v.ctx).vregs := by
  obtain ⟨hlow, hhigh⟩ := fmt_of_sr hill hsr
  have hexec : exec (.vst v) s = .next (vecStore 0x98 fmtKnown false addrUnit v s) := rfl
  rw [vecStore_ready (op := 0x98) h rfl rfl hill (fun h0 => by omega) hmx] at hexec
  simp only [runStore, isMx_of_le (show v.fmt < 8 by omega), show inRun 0x98 = true from rfl, vctx_issued, Bool.false_eq_true, if_false] at hexec
  have hmem : SoundMem (vecIssued v s) (vecIssued v s) :=
    ⟨rfl, rfl, by rw [mem_issued, hue], by rw [mem_issued, hce], by rw [mem_issued, hparity], fun _ => rfl⟩
  have hstored := List.foldlRecOn (motive := StoresSound (vecIssued v s)) ((vctx s v.die v.ctx).active v)
    (storeLane true (vctx s v.die v.ctx) v (addrUnit (vctx s v.die v.ctx) v)) (b := ⟨vecIssued v s, 0, false, [], none, none⟩)
    ⟨hmem, rfl⟩ fun acc hacc i hi => hacc.storeLane _ hsp (by rw [laneFault_issued]; exact hf i hi)
  have hdone := hstored.completes 0x98 v
  rw [vctx_issued] at hdone
  exact ⟨_, hexec, hdone⟩

/-- Settles O28: stores and adds of separate lanes, the stores of which the statement gives the frame alone, and the row-indexed forms. -/
theorem vectorStores : Obligations.VectorStores := by
  unfold Obligations.VectorStores
  refine ⟨fun p hp v s h hill heven hfmt hsr hsep => ?_, fun v s h hill hsr hsp hmx hue hce hparity hf =>
      vst_random h hill hsr hsp hmx hue hce hparity hf, fun v s h hill hfmt hsr hmx hsp hsound hok => ?_, fun v s h hill hsep => ?_,
    fun v s j hill hj hlt hopen hsep => ?_, fun v s hill hlt hclosed => ⟨fun h => rowClosed_of_exec h rfl rfl hill hlt hclosed rfl,
      fun h => rowClosed_of_exec h rfl rfl hill hlt hclosed rfl⟩⟩
  · have hform : ∃ op, exec (p.1 v) s = .next (vecStore op p.2.1 p.2.2.1 p.2.2.2 v s) ∧ vecOpcode (p.1 v) = op ∧ opKnown op = true := by
      simp only [List.mem_cons, List.not_mem_nil, or_false] at hp
      rcases hp with rfl | rfl | rfl <;> exact ⟨_, rfl, rfl, rfl⟩
    obtain ⟨op, hexec, hop, hk⟩ := hform
    rw [vecStore_ready h hop hk hill heven (mxBad_of_le (by omega))] at hexec
    exact ⟨_, hexec, runStore_spec (isMx_of_le (by omega)) hfmt hsr (VCtx.nodup_active _ _) hsep op _⟩
  · have hexec : exec (.vst v) s = .next (vecStore 0x98 fmtKnown false addrUnit v s) := rfl
    rw [vecStore_ready (op := 0x98) h rfl rfl hill (fun h0 => by omega) hmx] at hexec
    exact ⟨_, hexec, runStore_beside hsp hsound hsr hmx hok 0x98 false⟩
  · have hexec : exec (.vstxa v) s = .next (vecScatterAdd v s) := rfl
    rw [vecScatterAdd, hill, vecRun_ready (op := 0x9C) h rfl rfl] at hexec
    simp only [vctx_issued] at hexec
    exact ⟨_, hexec, runAdd_spec (VCtx.nodup_active _ _) hsep 0x9C true⟩
  · subst hj
    have hfmt := fmt_of_rowLegal hill
    refine ⟨fun h => ?_, fun h => ?_⟩
    · have hexec : exec (.vstri v) s = .next (vecRow 0x9B v (fun x j => runStore 0x9B v false (List.range x.vl) (addrRow x v j)) s) := rfl
      rw [vecRow_ready (op := 0x9B) h rfl rfl hill hlt, if_pos hopen] at hexec
      have hspan : colSpan v.fmt = 4 := by rw [hfmt]; rfl
      have hstored := runStore_spec (isMx_of_le (by omega)) (by omega) (sr_of_rowLegal hill) List.nodup_range (by rw [hspan]; exact hsep) 0x9B false
      simp only [hspan, storedCode_fp32 hfmt] at hstored
      exact ⟨_, hexec, hstored⟩
    · have hexec : exec (.vaddri v) s = .next (vecRow 0x9D v (fun x j => runAdd 0x9D v false (List.range x.vl) (addrRow x v j)) s) := rfl
      rw [vecRow_ready (op := 0x9D) h rfl rfl hill hlt, if_pos hopen] at hexec
      exact ⟨_, hexec, runAdd_spec List.nodup_range hsep 0x9D false⟩

end Sys2Proof.Machine
end

section
/-! PROOF. The issue of a descriptor: the rows of issue, what a descriptor that issues or is passed over leaves (R174, R178). -/
namespace Sys2Proof.Machine
open Sys2Proof

/-! ### A stream moves on -/

/-- The stream whose descriptor has issued. -/
theorem str_issued_self (s : State) (d : Die) (c : Sid) :
    str (issued s d c) d c = { str s d c with
      pc := (str s d c).pc + 64, expect := (str s d c).expect + 1, cur := none,
      st := if (str s d c).poison then .poisonPath else .issuing, waitRef := none } := by
  rw [issued, str_addReg64, str_updStr_self]

theorem otherStreams_issued (s : State) (d : Die) (c : Sid) : otherStreams d c s (issued s d c) := fun e k hek => by
  rw [issued, str_addReg64, str_updStr_ne _ _ _ _ _ _ hek]

theorem otherStreams_updStr (s : State) (d : Die) (c : Sid) (f : Stream → Stream) : otherStreams d c s (updStr s d c f) :=
  fun _ _ hek => str_updStr_ne _ _ _ _ _ _ hek

theorem otherStreams.trans {d : Die} {c : Sid} {s t u : State} (h : otherStreams d c s t) (g : otherStreams d c t u) :
    otherStreams d c s u := fun e k hek => (g e k hek).trans (h e k hek)

theorem otherStreams_of_str {d : Die} {c : Sid} {s t : State} (h : str t = str s) : otherStreams d c s t := fun _ _ _ => by rw [h]

theorem reg64_issued (s : State) (d : Die) (c : Sid) :
    reg64 (issued s d c) (cdWin d.val + rStrIssued) = reg64 s (cdWin d.val + rStrIssued) + 1 := by
  rw [issued, addReg64, reg64_setReg64_self]
  rfl

theorem movedOn_issued (s : State) (d : Die) (c : Sid) : movedOn d c s (issued s d c) := by
  rw [movedOn, str_issued_self]
  exact ⟨rfl, rfl, rfl, rfl, reg64_issued s d c⟩

/-! ### The rows of issue -/

theorem cur_of_atIssue {s : State} {d : Die} {c : Sid} {t : Nat} {w : BitVec 512} (h : atIssue s d c t = some w) :
    (str s d c).cur = some w := by
  unfold atIssue at h
  dsimp only at h
  split at h
  · split at h
    · cases h; assumption
    · cases h
  · cases h

/-- What may issue depends on the stream's own die and on the image. -/
theorem atIssue_congr {s t : State} (himg : t.img = s.img) (hdies : t.dies = s.dies) (d : Die) (c : Sid) (ty : Nat) :
    atIssue t d c ty = atIssue s d c ty := by
  simp only [atIssue, mayAct, streamsRun, halted, resetDue, str_congr hdies, die_congr hdies, himg] <;> rfl

/-- R178: a descriptor that its gate excludes is passed over. -/
theorem issueAs_passOver {s : State} {d : Die} {c : Sid} {t : Nat} {w : BitVec 512} {p : BitVec 512 → Bool}
    (run : BitVec 512 → State → State) (h : atIssue s d c t = some w) (hp : p w = true) (hmode : modeSettled s d c w)
    (hgate : gateRuns s (str s d c) w = false) : issueAs t p run d c s = passOver s d c w := by
  have hmode' : stashTake s d c w = (true, s) := hmode
  simp only [issueAs, h, hp, hmode', hgate, Bool.not_true, Bool.false_eq_true, if_false]

/-- One that issues runs, and is noted. -/
theorem issueAs_issuing {s : State} {d : Die} {c : Sid} {t : Nat} {w : BitVec 512} {p : BitVec 512 → Bool}
    (run : BitVec 512 → State → State) (h : issuing s d c t w) (hp : p w = true) :
    issueAs t p run d c s = issueNoted s d c w (run w s) := by
  obtain ⟨hissue, hmode, hgate⟩ := h
  have hmode' : stashTake s d c w = (true, s) := hmode
  simp only [issueAs, hissue, hp, hmode', hgate, Bool.not_true, Bool.false_eq_true, if_false, if_true] <;> rfl

/-- Every row that issues a descriptor is `issueAs` for its type, with a test that the descriptor meets. -/
theorem exec_issueRow {d : Die} {c : Sid} {w : BitVec 512} {i : Instr} (h : issueRow d c w i) (hmove : dType w = 3 → dOp w ≤ 1)
    (hwait : dType w = 5 → wtMode w ≤ 1) :
    ∃ p run, p w = true ∧ ∀ s, exec i s = .next (issueAs (dType w) p run d c s) := by
  unfold issueRow at h
  split at h
  next ht => subst h; rw [ht]; exact ⟨_, _, rfl, fun _ => rfl⟩
  next ht => subst h; rw [ht]; exact ⟨_, _, rfl, fun _ => rfl⟩
  next ht =>
    subst h
    rw [ht]
    by_cases hop : dOp w = 0
    · rw [if_pos hop]
      exact ⟨_, _, decide_eq_true hop, fun _ => rfl⟩
    · rw [if_neg hop]
      exact ⟨_, _, decide_eq_true (p := dOp w = 1) (by have := hmove ht; omega), fun _ => rfl⟩
  next ht => subst h; rw [ht]; exact ⟨_, _, rfl, fun _ => rfl⟩
  next ht =>
    subst h
    rw [ht]
    by_cases hop : wtMode w = 0
    · rw [if_pos hop]
      exact ⟨_, _, decide_eq_true hop, fun _ => rfl⟩
    · rw [if_neg hop]
      exact ⟨_, _, decide_eq_true (p := wtMode w = 1) (by have := hwait ht; omega), fun _ => rfl⟩
  next ht =>
    rw [ht]
    simp only [List.mem_cons, List.not_mem_nil, or_false, Prod.mk.injEq] at h
    rcases h with ⟨rfl, hop⟩ | ⟨rfl, hop⟩ | ⟨rfl, hop⟩ | ⟨rfl, hop⟩ | ⟨rfl, hop⟩ <;> exact ⟨_, _, decide_eq_true hop, fun _ => rfl⟩
  next ht =>
    rw [ht]
    simp only [List.mem_cons, List.not_mem_nil, or_false, Prod.mk.injEq] at h
    rcases h with ⟨rfl, hop⟩ | ⟨rfl, hop⟩ | ⟨rfl, hop⟩ | ⟨rfl, hop⟩ <;> exact ⟨_, _, decide_eq_true hop, fun _ => rfl⟩
  next => exact h.elim

end Sys2Proof.Machine
end

section
/-! PROOF. Gates and the settling of a layer's stash: Gates (O15). -/
namespace Sys2Proof.Machine
open Sys2Proof

/-! ### When a gate runs a descriptor (R178) -/

/-- In a prologue only ALWAYS runs. -/
theorem gateRuns_prologue {s : State} {x : Stream} {w : BitVec 512} (hgate : dGate w ≠ 0) (hbody : x.inBody = false) :
    gateRuns s x w = false := by
  unfold gateRuns
  dsimp only
  split
  · exact absurd ‹dGate w = 0› hgate
  all_goals simp only [hbody, Bool.false_and]

theorem gateRuns_notFirst {s : State} {x : Stream} {w : BitVec 512} (hgate : dGate w = 6) (hbody : x.inBody = true) :
    gateRuns s x w = true ↔ x.step ≠ s.step.first := by
  simp only [gateRuns, hgate, hbody, Bool.true_and, decide_eq_true_eq]

/-- The gates on the recompute flag and on the Q and H steps of the job. -/
theorem gateRuns_steps {s : State} {x : Stream} {w : BitVec 512} {p : JobParams} {n : Nat} (hp : params s = some p)
    (hbody : x.inBody = true) (hn : n = x.step.toNat) :
    (dGate w = 1 → (gateRuns s x w = true ↔ recomputeFlag s x.attempt (dLayer w).toNat = true)) ∧
    (dGate w = 2 → (gateRuns s x w = true ↔ p.q ≠ 0 ∧ n % p.q = 0)) ∧
    (dGate w = 3 → (gateRuns s x w = true ↔ p.q ≠ 0 ∧ 1 < n ∧ (n - 1) % p.q = 0)) ∧
    (dGate w = 4 → (gateRuns s x w = true ↔ p.h ≠ 0 ∧ n % p.h = 0)) ∧
    (dGate w = 5 → (gateRuns s x w = true ↔ p.h ≠ 0 ∧ 1 < n ∧ (n - 1) % p.h = 0)) := by
  subst hn
  refine ⟨fun hg => ?_, fun hg => ?_, fun hg => ?_, fun hg => ?_, fun hg => ?_⟩ <;>
    simp only [gateRuns, hg, hbody, hp, Bool.true_and, decide_eq_true_eq]

/-- R525: RECOMPUTE names a layer. -/
theorem staticFault_recompute {c : Sid} {b : Bool} {w : BitVec 512} (hgate : dGate w = 1) (hlayer : dLayer w = 0xFFFF)
    (htype : typeBad c b w = false) : staticFault c b w = some fField := by
  have hfield : fieldBad w = true := by simp [fieldBad, hgate, hlayer]
  simp [staticFault, htype, hfield]

/-! ### The stash of a layer (R59, R60, R179) -/

/-- What a stream finds settled in a state that has taken a layer's pages. -/
theorem stashSettled_append (s : State) (att : DWord) (layer : Nat) (pages : List Nat) :
    stashSettled { s with step := { s.step with stash := s.step.stash ++ [(att, layer, pages)] } } att layer = true := by
  simp [stashSettled]

/-- A layer whose mode is settled is left alone. -/
theorem stashTake_of_settled {s : State} {d : Die} {c : Sid} {w : BitVec 512}
    (h : stashSettled s (str s d c).attempt (dLayer w).toNat = true) : stashTake s d c w = (true, s) := by
  unfold stashTake
  extract_lets x layer
  by_cases hbody : c ≠ .f ∨ ¬ x.inBody ∨ x.poison
  · exact if_pos hbody
  rw [if_neg hbody]
  cases stashPlan s layer with
  | none => rfl
  | some l => exact if_pos h

/-- R179: where the stream may go on, the mode stood already, or the layer has taken its pages, after a fallback or not. -/
theorem stashTake_true {s : State} {d : Die} {c : Sid} {w : BitVec 512} (h : (stashTake s d c w).1 = true) :
    (stashTake s d c w).2 = s ∨ ∃ u pages, changesOnly [.out, .regs, .rs, .host, .step] s u ∧
      (stashTake s d c w).2 = { u with step := { u.step with
        stash := u.step.stash ++ [((str s d c).attempt, (dLayer w).toNat, pages)] } } := by
  revert h
  unfold stashTake
  extract_lets x layer
  intro h
  by_cases hbody : c ≠ .f ∨ ¬ x.inBody ∨ x.poison
  · exact .inl (congrArg Prod.snd (if_pos hbody))
  rw [if_neg hbody] at h ⊢
  cases hplan : stashPlan s layer with
  | none => exact .inl rfl
  | some l =>
    rw [hplan] at h
    dsimp only at h ⊢
    by_cases hsettled : stashSettled s x.attempt layer = true
    · exact .inl (congrArg Prod.snd (if_pos hsettled))
    rw [if_neg hsettled] at h ⊢
    generalize (l.full && !recomputeFlag s x.attempt layer) = full at h ⊢
    generalize poolFits l.fullPages (stashFree s) = fits at h ⊢
    have hu : changesOnly [.out, .regs, .rs, .host, .step] s
        (if (full && !fits) = true then stashFallback s x.attempt layer else s) := by
      split
      · exact stashFallback_frame (by decide) _ _ _
      · rfl
    generalize (if (full && !fits) = true then stashFallback s x.attempt layer else s) = u at h hu ⊢
    generalize (if (full && fits) = true then l.fullPages else l.ckptPages) = pages at h ⊢
    by_cases hroom : poolFits pages (stashFree u) = true
    · exact .inr ⟨u, pages, hu, congrArg Prod.snd (if_pos hroom)⟩
    · rw [if_neg hroom] at h
      cases h

/-- Settling a mode once settles it: the stream, its die and the image are as before, and there is nothing more to settle. -/
theorem stashTake_stashTake {s : State} {d : Die} {c : Sid} {w : BitVec 512} (h : (stashTake s d c w).1 = true) :
    (stashTake s d c w).2.dies = s.dies ∧ (stashTake s d c w).2.img = s.img ∧
      stashTake (stashTake s d c w).2 d c w = (true, (stashTake s d c w).2) := by
  rcases stashTake_true h with hs | ⟨u, pages, hu, hs⟩
  · refine ⟨congrArg _ hs, congrArg _ hs, ?_⟩
    rw [hs]
    exact Prod.ext h hs
  · have hdies : (stashTake s d c w).2.dies = s.dies := hs ▸ changesOnly.dies hu (by decide)
    refine ⟨hdies, hs ▸ changesOnly.img hu (by decide), stashTake_of_settled ?_⟩
    rw [str_congr hdies, hs]
    exact stashSettled_append u _ _ pages

/-- A row of issue settles the mode first: it does the same from the state where the mode is settled. -/
theorem issueAs_stashTake {s : State} {d : Die} {c : Sid} {t : Nat} {w : BitVec 512} {p : BitVec 512 → Bool}
    (run : BitVec 512 → State → State) (hissue : atIssue s d c t = some w) (hp : p w = true) (h : (stashTake s d c w).1 = true) :
    issueAs t p run d c s = issueAs t p run d c (stashTake s d c w).2 := by
  obtain ⟨hdies, himg, hagain⟩ := stashTake_stashTake h
  have hissue' : atIssue (stashTake s d c w).2 d c t = some w := (atIssue_congr himg hdies d c t).trans hissue
  simp only [issueAs, hissue, hissue', hp, h, hagain, str_congr hdies, Bool.not_true, Bool.false_eq_true, if_false]

/-- R179: a full-mode layer that fits takes its pages. -/
theorem stashTake_full {s : State} {d : Die} {w : BitVec 512} {l : StashLayer} (hbody : (str s d .f).inBody = true)
    (hpoison : (str s d .f).poison = false) (hplan : stashPlan s (dLayer w).toNat = some l)
    (hsettled : stashSettled s (str s d .f).attempt (dLayer w).toNat = false) (hfull : l.full = true)
    (hrec : recomputeFlag s (str s d .f).attempt (dLayer w).toNat = false) (hfits : poolFits l.fullPages (stashFree s) = true) :
    stashTake s d .f w = (true, { s with step := { s.step with
      stash := s.step.stash ++ [((str s d .f).attempt, (dLayer w).toNat, l.fullPages)] } }) := by
  simp [stashTake, hbody, hpoison, hplan, hsettled, hfull, hrec, hfits]

/-- R60, R73: the recompute descriptor of a B stream counts its layer. -/
theorem noteRecompute_counts {s : State} {att : DWord} {w : BitVec 512} {a : Attempt} (ha : attempt s att = some a)
    (hgate : dGate w = 1) :
    ∃ b, attempt (noteRecompute s .b att w) att = some b ∧ (dLayer w).toNat ∈ b.recomputed ∧
      b = { a with recomputed := b.recomputed } ∧ changesOnly [.step] s (noteRecompute s .b att w) := by
  rw [noteRecompute, if_pos ⟨rfl, hgate⟩]
  have hb := attempt_updAttempt_self s att (fun a => { a with
    recomputed := if (dLayer w).toNat ∈ a.recomputed then a.recomputed else a.recomputed ++ [(dLayer w).toNat] }) fun _ => rfl
  rw [ha] at hb
  refine ⟨_, hb, ?_, rfl, updAttempt_frame (by decide) _ _ _⟩
  dsimp only
  split
  · assumption
  · exact List.mem_append_right _ (List.mem_singleton_self _)

/-- Settles O15: the rows of issue share `issueAs`, which passes over by the gate and settles the stash first. -/
theorem gates : Obligations.Gates := by
  refine ⟨?_, ?_, fun _ _ _ => gateRuns_prologue, fun _ _ _ => gateRuns_notFirst, fun _ _ _ _ _ => gateRuns_steps,
    fun _ _ _ => staticFault_recompute, ?_, fun _ _ _ _ => stashTake_full, ?_⟩
  · intro s d c w i hissue hrow hmove hwait hmode hgate
    obtain ⟨p, run, hp, hexec⟩ := exec_issueRow hrow hmove hwait
    refine ⟨issued s d c, ?_, movedOn_issued s d c, otherStreams_issued s d c, issued_frame (by decide) s d c⟩
    rw [hexec, issueAs_passOver run hissue hp hmode hgate]
    rfl
  · intro s x w hgate
    simp only [gateRuns, hgate]
  · intro s d c w i hissue hrow hmove hwait h
    obtain ⟨p, run, hp, hexec⟩ := exec_issueRow hrow hmove hwait
    rw [hexec, hexec, issueAs_stashTake run hissue hp h]
  · rintro s c att w a ha rfl hgate
    exact noteRecompute_counts ha hgate

end Sys2Proof.Machine
end

section
/-! PROOF. Signals that make no waiter end, local SIGNAL and WAIT: Signals (O16). -/
namespace Sys2Proof.Machine
open Sys2Proof

/-! ### Generations (R220) -/

theorem serialD_half (a b : Half) : serialD 16 a.toNat b.toNat = (a - b).toNat := by
  rw [serialD, BitVec.toNat_sub, Nat.mod_eq_of_lt b.isLt, Nat.add_comm]

/-- How far generation `a` lies ahead of `b`. -/
theorem serialDiff_half (a b : Half) : serialDiff 16 a.toNat b.toNat =
    if (a - b).toNat < 32768 then ((a - b).toNat : Int) else ((a - b).toNat : Int) - 65536 := by
  rw [serialDiff, serialD_half]
  rfl

theorem serialDiff_same (g : Half) : serialDiff 16 g.toNat g.toNat = 0 := by
  rw [serialDiff_half, BitVec.sub_self]
  rfl

theorem serialDiff_ahead (g : Half) : serialDiff 16 (g + 1).toNat g.toNat = 1 := by
  rw [serialDiff_half, BitVec.add_comm, BitVec.add_sub_cancel]
  rfl

theorem serialDiff_stale {g k : Half} (hk : k ≠ 0) (hlow : k.toNat < 32768) : serialDiff 16 (g - k).toNat g.toNat < 0 := by
  have hneg : g - k - g = -k := by bv_omega
  have hpos : 0 < k.toNat := by bv_omega
  have hdist : (-k).toNat = 65536 - k.toNat := by bv_omega
  rw [serialDiff_half, hneg, hdist]
  split <;> omega

/-! ### What the arbiter does where no waiter ends (R213, R219) -/

theorem SyncObj.add_unattended {o : SyncObj} {n : Nat} (herr : o.err = false) (hw : o.waiters = [])
    (hmax : o.count + n ≤ 2147483647) : o.add n = ⟨{ o with count := o.count + n }, [], false⟩ := by
  rw [SyncObj.add, if_neg (by simp [herr]), if_neg (Nat.not_lt.mpr (show _ ≤ countMax from hmax)), SyncObj.settle, hw]
  rfl

theorem SyncObj.addAhead_room {o : SyncObj} {n : Nat} (herr : o.err = false) (hmax : o.ahead + n ≤ 2147483647) :
    o.addAhead n = ⟨{ o with ahead := o.ahead + n }, [], false⟩ := by
  rw [SyncObj.addAhead, if_neg (by simp [herr]), if_neg (Nat.not_lt.mpr (show _ ≤ countMax from hmax))]

/-- A signal after which nothing follows. -/
theorem signals_of_addOnce {s t : State} {g : Sig} {reply : SigReply} (h : addOnce s g = (t, [], reply)) : signals s [g] = t := by
  show addSignals 97 ((addOnce s g).2.1) (addOnce s g).1 = t
  rw [h]
  rfl

/-- What a signal of a module-global object leaves besides the object: the count of signals, and the notes of the update unit and
of the step unit. -/
def signalCounted (s : State) (src : Src) (i : Nat) : State := noteInput (noteCommit (addReg64 s rSyncSignals 1) src i) src i

/-- The events of the classes that the host is told of by objects 1, 4 and 5. -/
def signalClass (i : Nat) (s : State) : State :=
  if i = 1 then classEvent s 0 (ctlBit s rEvtCtl 0) else if i = 4 ∨ i = 5 then classEvent s 2 (ctlBit s rEvtCtl 2) else s

@[simp] theorem signalCounted_frame {K : Comp → Bool} (h : [.regs, .upd, .step].all K = true) (s : State) (src : Src) (i : Nat) :
    (signalCounted s src i).erase K = s.erase K := by
  simp at h
  simp [signalCounted, h]

@[simp] theorem signalClass_frame {K : Comp → Bool} (h : [.out, .host].all K = true) (i : Nat) (s : State) :
    (signalClass i s).erase K = s.erase K := by
  simp at h
  unfold signalClass
  split
  · simp [h]
  · split <;> simp [h]

@[simp] theorem putObj_glob_frame {K : Comp → Bool} (h : [.sync].all K = true) (s : State) (i : Fin 32768) (o : SyncObj) :
    (putObj s (.glob i) o).erase K = s.erase K := by
  simp at h
  exact State.erase_sync s _ h

@[simp] theorem putObj_loc_frame {K : Comp → Bool} (h : [.dies].all K = true) (s : State) (d : Die) (i : Fin 4096) (o : SyncObj) :
    (putObj s (.loc d i) o).erase K = s.erase K := updDie_frame h _ _ _

theorem signalCounted_changesOnly (s : State) (src : Src) (i : Nat) : changesOnly [.regs, .upd, .step] s (signalCounted s src i) :=
  signalCounted_frame (by decide) s src i

theorem signalClass_changesOnly (i : Nat) (s : State) : changesOnly [.out, .host] s (signalClass i s) := signalClass_frame (by decide) i s

theorem regs_signalCounted (s : State) (src : Src) (i : Nat) : (signalCounted s src i).regs = (addReg64 s rSyncSignals 1).regs := by
  have h : changesOnly [.upd, .step] (addReg64 s rSyncSignals 1) (signalCounted s src i) := by simp [changesOnly, signalCounted]
  exact h.regs (by decide)

theorem getObj_signalCounted (s : State) (src : Src) (i : Nat) : getObj (signalCounted s src i) = getObj s :=
  getObj_congr ((signalCounted_changesOnly s src i).sync (by decide)) ((signalCounted_changesOnly s src i).dies (by decide))

theorem getObj_signalClass (i : Nat) (s : State) : getObj (signalClass i s) = getObj s :=
  getObj_congr ((signalClass_changesOnly i s).sync (by decide)) ((signalClass_changesOnly i s).dies (by decide))

/-- R219: a signal of a module-global object that makes no waiter end. -/
theorem signals_glob {s : State} {i : Fin 32768} {n : Nat} (tag : Option Half) (src : Src) {o : SyncObj}
    (h : (getObj s (.glob i)).add n = ⟨o, [], false⟩) :
    signals s [⟨.glob i, n, tag, src⟩] = signalClass i.val (putObj (signalCounted s src i.val) (.glob i) o) := by
  have hadd : (getObj (signalCounted s src i.val) (.glob i)).add n = ⟨o, [], false⟩ := by rw [getObj_signalCounted, h]
  have happly : applyRes (signalCounted s src i.val) (.glob i) src ((getObj (signalCounted s src i.val) (.glob i)).add n) =
      (putObj (signalCounted s src i.val) (.glob i) o, []) := by rw [hadd]; rfl
  refine signals_of_addOnce (reply := .applied) ?_
  unfold addOnce
  dsimp only
  rw [← signalCounted, happly]
  rfl

theorem signals_glob_spec {s : State} {i : Fin 32768} {n : Nat} (tag : Option Half) (src : Src) (herr : (getObj s (.glob i)).err = false)
    (hw : (getObj s (.glob i)).waiters = []) (hmax : (getObj s (.glob i)).count + n ≤ 2147483647) :
    getObj (signals s [⟨.glob i, n, tag, src⟩]) (.glob i) = { getObj s (.glob i) with count := (getObj s (.glob i)).count + n } ∧
    (∀ j, j ≠ i → getObj (signals s [⟨.glob i, n, tag, src⟩]) (.glob j) = getObj s (.glob j)) ∧
    reg64 (signals s [⟨.glob i, n, tag, src⟩]) rSyncSignals = reg64 s rSyncSignals + 1 ∧
    changesOnly [.sync, .regs, .upd, .step, .host, .out] s (signals s [⟨.glob i, n, tag, src⟩]) := by
  rw [signals_glob tag src (SyncObj.add_unattended herr hw hmax)]
  refine ⟨?_, fun j hj => ?_, ?_, ?_⟩
  · rw [getObj_signalClass, getObj_putObj_self]
  · rw [getObj_signalClass, getObj_putObj_ne _ _ _ _ fun h => hj (ObjRef.glob.inj h), getObj_signalCounted]
  · have hregs := (signalClass_changesOnly i.val (putObj (signalCounted s src i.val) (.glob i)
      { getObj s (.glob i) with count := (getObj s (.glob i)).count + n })).regs (by decide)
    have hcount : reg64 (addReg64 s rSyncSignals 1) rSyncSignals = reg64 s rSyncSignals + 1 := reg64_addReg64_self s rSyncSignals 1
    have hput := hregs.trans (regs_signalCounted s src i.val)
    rw [← hcount]
    simp only [reg64, reg, hput]
  · simp [changesOnly]

/-- R220: a signal of the object's own generation, or without a tag, that makes no waiter end. -/
theorem signals_loc {s : State} {d : Die} {i : Fin 4096} {n : Nat} {tag : Option Half} (src : Src) (herr : (getObj s (.loc d i)).err = false)
    (hw : (getObj s (.loc d i)).waiters = []) (hmax : (getObj s (.loc d i)).count + n ≤ 2147483647)
    (htag : tag = none ∨ tag = some (getObj s (.loc d i)).gen) :
    signals s [⟨.loc d i, n, tag, src⟩] = putObj s (.loc d i) { getObj s (.loc d i) with count := (getObj s (.loc d i)).count + n } := by
  refine signals_of_addOnce (reply := .applied) ?_
  rcases htag with rfl | rfl <;> simp only [addOnce, herr, SyncObj.add_unattended herr hw hmax, serialDiff_same] <;> rfl

/-- R220: a signal one generation ahead. -/
theorem signals_loc_ahead {s : State} {d : Die} {i : Fin 4096} {n : Nat} (src : Src) (herr : (getObj s (.loc d i)).err = false)
    (hmax : (getObj s (.loc d i)).ahead + n ≤ 2147483647) :
    signals s [⟨.loc d i, n, some ((getObj s (.loc d i)).gen + 1), src⟩] =
      putObj s (.loc d i) { getObj s (.loc d i) with ahead := (getObj s (.loc d i)).ahead + n } := by
  refine signals_of_addOnce (reply := .applied) ?_
  simp only [addOnce, herr, SyncObj.addAhead_room herr hmax, serialDiff_ahead] <;> rfl

/-- R220: a stale signal. -/
theorem signals_loc_stale {s : State} {d : Die} {i : Fin 4096} {n : Nat} {k : Half} (src : Src) (herr : (getObj s (.loc d i)).err = false)
    (hk : k ≠ 0) (hlow : k.toNat < 32768) :
    signals s [⟨.loc d i, n, some ((getObj s (.loc d i)).gen - k), src⟩] = addReg s (cdWin d.val + rCdSyncStale) 1 := by
  have hneg := serialDiff_stale (g := (getObj s (.loc d i)).gen) hk hlow
  refine signals_of_addOnce (reply := .stale) ?_
  unfold addOnce
  dsimp only
  rw [if_neg (by simp [herr]), if_neg (by omega), if_neg (by omega), if_neg (by omega)]

/-- R176: the DONE signal. -/
theorem doneSig_eq (d : Die) (c : Sid) (x : Stream) (w : BitVec 512) : doneSig d c x w =
    if dDoneCount w = 0 then []
    else [⟨refObj d (dDoneRef w), dDoneCount w, if x.inBody then some (x.attempt.setWidth 16) else none, ⟨d.val, sidNat c, false⟩⟩] := rfl

/-! ### WAIT (R190, R222) -/

/-- The stream waits on object `r`. -/
def waitBegun (s : State) (d : Die) (c : Sid) (r : ObjRef) : State :=
  updStr s d c fun x => { x with st := .waitSync, waitRef := some r, waiter := 0 }

/-- The waiter that a WAIT puts at its object. -/
def waiterOf (s : State) (d : Die) (c : Sid) (w : BitVec 512) : Waiter :=
  { who := .stream d c, take := decide (wtMode w = 1), v := wtValue w,
    deadline := if wtTimeout w = 0 then none else some (s.clk + wtTimeout w * 1000) }

theorem runWait_eq (d : Die) (c : Sid) (w : BitVec 512) (s : State) : runWait d c w s =
    waitOn (waitBegun s d c (refObj d (wtRef w))) (refObj d (wtRef w)) (waiterOf s d c w) := rfl

theorem getObj_waitBegun (s : State) (d : Die) (c : Sid) (r : ObjRef) : getObj (waitBegun s d c r) = getObj s := getObj_updStr _ _ _ _

/-- A WAIT whose count has been reached takes its value in TAKE mode. -/
theorem SyncObj.wait_ready {o : SyncObj} {w : Waiter} (herr : o.err = false) (hw : o.waiters = []) (hv : w.v ≤ o.count) :
    o.wait w = ⟨{ o with count := if w.take then o.count - w.v else o.count }, [(w, stDone)], false⟩ := by
  rw [SyncObj.wait, if_neg (by simp [herr]), SyncObj.settle, hw]
  cases htake : w.take <;> simp [evalWaiters, htake, hv]

/-- One whose count has not been reached stays. -/
theorem SyncObj.wait_pending {o : SyncObj} {w : Waiter} (herr : o.err = false) (hw : o.waiters = []) (hv : o.count < w.v) :
    o.wait w = ⟨{ o with waiters := [w] }, [], false⟩ := by
  rw [SyncObj.wait, if_neg (by simp [herr]), SyncObj.settle, hw, List.nil_append,
    evalWaiters_of_unserved [w] o.count false (by simpa using hv)]

theorem SyncObj.wait_of_err {o : SyncObj} {w : Waiter} (herr : o.err = true) : o.wait w = ⟨o, [(w, stObjError)], false⟩ := if_pos herr

/-- The state of a WAIT that issues with its object then `o`. -/
def waitDone (s : State) (d : Die) (c : Sid) (r : ObjRef) (o : SyncObj) : State :=
  issued (updStr (putObj (waitBegun s d c r) r o) d c fun x => { x with waiter := stDone }) d c

theorem str_waitBegun_self (s : State) (d : Die) (c : Sid) (r : ObjRef) :
    str (waitBegun s d c r) d c = { str s d c with st := .waitSync, waitRef := some r, waiter := 0 } := str_updStr_self _ _ _ _

theorem str_waitBegun_putObj (s : State) (d : Die) (c : Sid) (r : ObjRef) (o : SyncObj) :
    str (putObj (waitBegun s d c r) r o) d c = { str s d c with st := .waitSync, waitRef := some r, waiter := 0 } := by
  rw [str_putObj, str_waitBegun_self]

theorem str_waitDone_self (s : State) (d : Die) (c : Sid) (r : ObjRef) (o : SyncObj) :
    str (waitDone s d c r o) d c = { str s d c with
      pc := (str s d c).pc + 64, expect := (str s d c).expect + 1, cur := none, waiter := stDone,
      st := if (str s d c).poison then .poisonPath else .issuing, waitRef := none } := by
  rw [waitDone, str_issued_self, str_updStr_self, str_waitBegun_putObj]

theorem otherStreams_waitDone (s : State) (d : Die) (c : Sid) (r : ObjRef) (o : SyncObj) : otherStreams d c s (waitDone s d c r o) :=
  ((otherStreams_updStr s d c _).trans ((otherStreams_of_str (str_putObj _ r o)).trans (otherStreams_updStr _ d c _))).trans
    (otherStreams_issued _ d c)

theorem reg64_updStr (s : State) (d : Die) (c : Sid) (f : Stream → Stream) : reg64 (updStr s d c f) = reg64 s := rfl

theorem reg64_putObj (s : State) (r : ObjRef) (o : SyncObj) : reg64 (putObj s r o) = reg64 s := by cases r <;> rfl

theorem reg64_waitBegun (s : State) (d : Die) (c : Sid) (r : ObjRef) : reg64 (waitBegun s d c r) = reg64 s := rfl

theorem movedOn_waitDone (s : State) (d : Die) (c : Sid) (r : ObjRef) (o : SyncObj) : movedOn d c s (waitDone s d c r o) := by
  refine ⟨?_, ?_, ?_, ?_, ?_⟩
  iterate 4 rw [str_waitDone_self]
  rw [waitDone, reg64_issued, reg64_updStr, reg64_putObj, reg64_waitBegun]

theorem waitDone_changesOnly (s : State) (d : Die) (c : Sid) (r : ObjRef) (o : SyncObj) :
    changesOnly [.dies, .regs, .sync] s (waitDone s d c r o) := by simp [changesOnly, waitDone, waitBegun]

theorem getObj_addReg64 (s : State) (off n : Nat) : getObj (addReg64 s off n) = getObj s := getObj_congr rfl rfl

theorem getObj_issued (s : State) (d : Die) (c : Sid) : getObj (issued s d c) = getObj s := by
  rw [issued, getObj_addReg64, getObj_updStr]

theorem getObj_waitDone (s : State) (d : Die) (c : Sid) (r : ObjRef) (o : SyncObj) : getObj (waitDone s d c r o) r = o := by
  rw [waitDone, getObj_issued, getObj_updStr, getObj_putObj_self]

/-- What the arbiter did ends the wait of one stream. -/
theorem applyRes_stream {s : State} {r : ObjRef} {src : Src} {o : SyncObj} {w : Waiter} {st : Nat} {d : Die} {c : Sid}
    (hwho : w.who = .stream d c) (hst : st ≠ stRearmed) :
    applyRes s r src ⟨o, [(w, st)], false⟩ = endStreamWait (putObj s r o) d c st := by
  unfold applyRes
  dsimp only
  rw [endWaiters, hwho]
  dsimp only
  rw [if_neg hst, endWaiters, List.append_nil]
  rfl

/-- R190: the WAIT issues at once and makes its DONE signal. -/
theorem runWait_ready {s : State} {d : Die} {c : Sid} {w : BitVec 512} {o : SyncObj} (hcur : (str s d c).cur = some w)
    (h : (getObj s (refObj d (wtRef w))).wait (waiterOf s d c w) = ⟨o, [(waiterOf s d c w, stDone)], false⟩) :
    runWait d c w s = signals (waitDone s d c (refObj d (wtRef w)) o) (doneSig d c (str s d c) w) := by
  have hstr := str_waitBegun_putObj s d c (refObj d (wtRef w)) o
  have hwake : endStreamWait (putObj (waitBegun s d c (refObj d (wtRef w))) (refObj d (wtRef w)) o) d c stDone =
      (waitDone s d c (refObj d (wtRef w)) o, doneSig d c (str s d c) w) := by
    simp only [endStreamWait, if_pos, hstr, hcur, waitDone] <;> rfl
  rw [runWait_eq, waitOn, getObj_waitBegun, h, applyRes_stream rfl (by decide), hwake]

/-- R222: the stream waits as the object's only waiter. -/
theorem runWait_pending {s : State} {d : Die} {c : Sid} {w : BitVec 512} {o : SyncObj}
    (h : (getObj s (refObj d (wtRef w))).wait (waiterOf s d c w) = ⟨o, [], false⟩) :
    runWait d c w s = putObj (waitBegun s d c (refObj d (wtRef w))) (refObj d (wtRef w)) o := by
  rw [runWait_eq, waitOn, getObj_waitBegun, h]
  rfl

/-- The state of a stream whose object was in ERROR (R222). -/
def waitFailed (s : State) (d : Die) (c : Sid) (r : ObjRef) (o : SyncObj) : State :=
  updStr (issued (updStr (putObj (waitBegun s d c r) r o) d c fun x => { x with waiter := stObjError }) d c) d c
    fun x => { x with poison := true, st := .poisonPath }

theorem runWait_err {s : State} {d : Die} {c : Sid} {w : BitVec 512} {o : SyncObj} (hprologue : (str s d c).prologue = false)
    (h : (getObj s (refObj d (wtRef w))).wait (waiterOf s d c w) = ⟨o, [(waiterOf s d c w, stObjError)], false⟩) :
    runWait d c w s = waitFailed s d c (refObj d (wtRef w)) o := by
  have hstr := str_waitBegun_putObj s d c (refObj d (wtRef w)) o
  have hwake : endStreamWait (putObj (waitBegun s d c (refObj d (wtRef w))) (refObj d (wtRef w)) o) d c stObjError =
      (waitFailed s d c (refObj d (wtRef w)) o, []) := by
    rw [endStreamWait, if_neg (by decide), hstr]
    simp only [hprologue] <;> rfl
  rw [runWait_eq, waitOn, getObj_waitBegun, h, applyRes_stream rfl (by decide), hwake]
  rfl

theorem str_waitFailed_self (s : State) (d : Die) (c : Sid) (r : ObjRef) (o : SyncObj) :
    str (waitFailed s d c r o) d c = { str s d c with
      pc := (str s d c).pc + 64, expect := (str s d c).expect + 1, cur := none, waiter := stObjError, poison := true,
      st := .poisonPath, waitRef := none } := by
  rw [waitFailed, str_updStr_self, str_issued_self, str_updStr_self, str_waitBegun_putObj]

theorem otherStreams_waitFailed (s : State) (d : Die) (c : Sid) (r : ObjRef) (o : SyncObj) : otherStreams d c s (waitFailed s d c r o) :=
  (((otherStreams_updStr s d c _).trans ((otherStreams_of_str (str_putObj _ r o)).trans (otherStreams_updStr _ d c _))).trans
    (otherStreams_issued _ d c)).trans (otherStreams_updStr _ d c _)

theorem movedOn_waitFailed (s : State) (d : Die) (c : Sid) (r : ObjRef) (o : SyncObj) : movedOn d c s (waitFailed s d c r o) := by
  refine ⟨?_, ?_, ?_, ?_, ?_⟩
  iterate 4 rw [str_waitFailed_self]
  rw [waitFailed, reg64_updStr, reg64_issued, reg64_updStr, reg64_putObj, reg64_waitBegun]

theorem waitFailed_changesOnly (s : State) (d : Die) (c : Sid) (r : ObjRef) (o : SyncObj) :
    changesOnly [.dies, .regs, .sync] s (waitFailed s d c r o) := by simp [changesOnly, waitFailed, waitBegun]

/-- A WAIT that issues in the row of its mode. -/
theorem exec_waitAtLeast {s : State} {d : Die} {c : Sid} {w : BitVec 512} (h : issuing s d c 5 w) (hmode : wtMode w = 0) :
    exec (.waitAtLeast d c) s = .next (issueNoted s d c w (runWait d c w s)) :=
  congrArg Host.Outcome.next (issueAs_issuing (p := fun w => decide (wtMode w = 0)) _ h (decide_eq_true hmode))

theorem exec_waitTake {s : State} {d : Die} {c : Sid} {w : BitVec 512} (h : issuing s d c 5 w) (hmode : wtMode w = 1) :
    exec (.waitTake d c) s = .next (issueNoted s d c w (runWait d c w s)) :=
  congrArg Host.Outcome.next (issueAs_issuing (p := fun w => decide (wtMode w = 1)) _ h (decide_eq_true hmode))

theorem exec_wait {s : State} {d : Die} {c : Sid} {w : BitVec 512} (h : issuing s d c 5 w) (hmode : wtMode w ≤ 1) :
    exec (if wtMode w = 0 then .waitAtLeast d c else .waitTake d c) s = .next (issueNoted s d c w (runWait d c w s)) := by
  split
  next hm => exact exec_waitAtLeast h hm
  next hm => exact exec_waitTake h (by omega)

/-- Settles O16: each operation of R213 to R222 that ends no waiter is one object put, and a WAIT is one waiter's arrival. -/
theorem signalsAndWaits : Obligations.Signals := by
  refine ⟨⟨fun s i n tag src => signals_glob_spec tag src, ?_, ?_, fun s d i n k src => signals_loc_stale src, doneSig_eq⟩,
    ?_, ?_, ?_, ?_, ?_⟩
  · intro s d i n tag src herr hw hmax htag
    rw [signals_loc src herr hw hmax htag]
    refine ⟨getObj_putObj_self _ _ _, fun e j hej => getObj_putObj_ne _ _ _ _ fun h => ?_, putObj_loc_frame (by decide) _ _ _ _⟩
    obtain ⟨hd, hj⟩ := ObjRef.loc.inj h
    exact hej.elim (· hd) (· hj)
  · intro s d i n src herr hmax
    rw [signals_loc_ahead src herr hmax]
    exact ⟨getObj_putObj_self _ _ _, putObj_loc_frame (by decide) _ _ _ _⟩
  · intro s d c w h htarget
    refine ⟨issued s d c, ?_, movedOn_issued s d c, otherStreams_issued s d c, issued_frame (by decide) s d c⟩
    have hrun : runSignal d c w s = signals (issued s d c)
        (⟨sgObj w, sgCount w, streamTag (str s d c), ⟨d.val, sidNat c, false⟩⟩ :: doneSig d c (str s d c) w) := if_pos htarget
    rw [← hrun]
    exact congrArg Host.Outcome.next (issueAs_issuing (p := fun _ => true) _ h rfl)
  · intro s d c w h hmode herr hw hv
    have hready := SyncObj.wait_ready (w := waiterOf s d c w) herr hw hv
    rw [exec_waitAtLeast h hmode, runWait_ready (cur_of_atIssue h.1) hready]
    refine ⟨_, rfl, movedOn_waitDone _ _ _ _ _, by rw [str_waitDone_self]; rfl, ?_, otherStreams_waitDone _ _ _ _ _,
      waitDone_changesOnly _ _ _ _ _⟩
    rw [getObj_waitDone]
    simp [waiterOf, hmode]
  · intro s d c w h hmode herr hw hv
    have hready := SyncObj.wait_ready (w := waiterOf s d c w) herr hw hv
    rw [exec_waitTake h hmode, runWait_ready (cur_of_atIssue h.1) hready]
    refine ⟨_, rfl, movedOn_waitDone _ _ _ _ _, by rw [str_waitDone_self]; rfl, ?_, otherStreams_waitDone _ _ _ _ _,
      waitDone_changesOnly _ _ _ _ _⟩
    rw [getObj_waitDone]
    simp [waiterOf, hmode]
  · intro s d c w h herr hw hv hmode
    have hrun := runWait_pending (SyncObj.wait_pending (w := waiterOf s d c w) herr hw hv)
    have hstr := str_waitBegun_putObj s d c (refObj d (wtRef w)) { getObj s (refObj d (wtRef w)) with waiters := [waiterOf s d c w] }
    rw [exec_wait h hmode, hrun, issueNoted_of_pc w (by rw [hstr])]
    refine ⟨_, rfl, ?_⟩
    rw [hstr, getObj_putObj_self]
    exact ⟨rfl, rfl, rfl, cur_of_atIssue h.1, rfl,
      (otherStreams_updStr s d c _).trans (otherStreams_of_str (str_putObj _ _ _)), by simp [changesOnly, waitBegun]⟩
  · intro s d c w h herr hmode hprologue
    rw [exec_wait h hmode, runWait_err hprologue (SyncObj.wait_of_err herr)]
    refine ⟨_, rfl, movedOn_waitFailed _ _ _ _ _, ?_, ?_, ?_, otherStreams_waitFailed _ _ _ _ _, waitFailed_changesOnly _ _ _ _ _⟩
    iterate 3 rw [str_waitFailed_self]
    rfl

end Sys2Proof.Machine
end

section
/-! PROOF. Descriptor faults that stop the image (R204). -/
namespace Sys2Proof.Machine
open Sys2Proof

/-- Every event recorded stands in its register. -/
theorem rsReg_rsEvents_bit (s : State) (off : Nat) {bits : BitVec 24} {i : Nat} (h : bits.getLsbD i = true) :
    (rsReg (rsEvents s off bits) off).ev.getLsbD i = true := by
  have hb : bits ≠ 0 := fun e => by simp [e] at h
  rw [rsReg, rs_rsEvents s off bits hb, SMap.get_set_self, RsReg.record, if_neg hb]
  simp only [BitVec.getLsbD_or, h, Bool.or_true]

/-- A descriptor fault that stops the image with cause `code`: it is recorded, and the stream stands. -/
def faultStop (s : State) (d : Die) (c : Sid) (bits typ : Nat) (seq : Half) (addr : DWord) (code : Nat) : State :=
  stopImage (updStr (recordFault s d c bits typ seq addr) d c fun x => { x with faulted := true, cur := none }) code

theorem faultAs_prologue (s : State) (d : Die) (c : Sid) (onPath : Bool) (bit typ : Nat) (seq : Half) (addr : DWord) (layer : Half) :
    faultAs s d c true onPath bit typ seq addr layer = faultStop s d c (2 ^ bit + 2 ^ fPrologue) typ seq addr 5 := by
  simp only [faultAs, faultStop, if_true]

theorem faultAs_onPath (s : State) (d : Die) (c : Sid) (bit typ : Nat) (seq : Half) (addr : DWord) (layer : Half) :
    faultAs s d c false true bit typ seq addr layer = faultStop s d c (2 ^ bit + 2 ^ fPoisonFault) typ seq addr 6 := by
  simp only [faultAs, faultStop, if_true, Bool.false_eq_true, if_false]

theorem dies_stopImage (s : State) (code : Nat) : (stopImage s code).dies = s.dies :=
  changesOnly.dies (ks := [.img]) (stopImage_frame (by decide) s code) (by decide)

theorem rs_stopImage (s : State) (code : Nat) : (stopImage s code).rs = s.rs :=
  changesOnly.rs (ks := [.img]) (stopImage_frame (by decide) s code) (by decide)

/-- An image that is active stops at once; the first cause stays (R435). -/
theorem img_stopImage {s : State} (code : Nat) (h : s.img.st ≠ .none) : (stopImage s code).img =
    { s.img with st := .stopping, halt := true, stop := if s.img.stop = 0 then code else s.img.stop } := by
  rw [stopImage, if_neg h]

theorem recordFault_changesOnly (s : State) (d : Die) (c : Sid) (bits typ : Nat) (seq : Half) (addr : DWord) :
    changesOnly [.out, .regs, .rs, .host] s (recordFault s d c bits typ seq addr) := recordFault_frame (by decide) _ _ _ _ _ _ _

theorem str_recordFault (s : State) (d : Die) (c : Sid) (bits typ : Nat) (seq : Half) (addr : DWord) :
    str (recordFault s d c bits typ seq addr) = str s := str_congr ((recordFault_changesOnly s d c bits typ seq addr).dies (by decide))

theorem rsReg_recordFault_bit (s : State) (d : Die) (c : Sid) {bits : Nat} (typ : Nat) (seq : Half) (addr : DWord) {i : Nat}
    (h : (BitVec.ofNat 24 bits).getLsbD i = true) :
    (rsReg (recordFault s d c bits typ seq addr) (cdWin d.val + rStrErr)).ev.getLsbD i = true := by
  unfold recordFault
  exact rsReg_rsEvents_bit _ _ h

theorem str_faultStop (s : State) (d : Die) (c : Sid) (bits typ : Nat) (seq : Half) (addr : DWord) (code : Nat) :
    str (faultStop s d c bits typ seq addr code) d c = { str s d c with faulted := true, cur := none } := by
  rw [faultStop, str_congr (dies_stopImage _ code), str_updStr_self, str_recordFault]

theorem faultStop_noted (s : State) (d : Die) (c : Sid) {bits : Nat} (typ : Nat) (seq : Half) (addr : DWord) (code : Nat) {i : Nat}
    (h : (BitVec.ofNat 24 bits).getLsbD i = true) :
    (rsReg (faultStop s d c bits typ seq addr code) (cdWin d.val + rStrErr)).ev.getLsbD i = true := by
  have hrs : (faultStop s d c bits typ seq addr code).rs = (recordFault s d c bits typ seq addr).rs := rs_stopImage _ _
  rw [rsReg_congr hrs]
  exact rsReg_recordFault_bit s d c typ seq addr h

/-- R204: the image stops with the cause, unless an earlier one stands. -/
theorem img_faultStop {s : State} (d : Die) (c : Sid) (bits typ : Nat) (seq : Half) (addr : DWord) (code : Nat) (h : s.img.st ≠ .none) :
    (faultStop s d c bits typ seq addr code).img =
      { s.img with st := .stopping, halt := true, stop := if s.img.stop = 0 then code else s.img.stop } := by
  have himg : (recordFault s d c bits typ seq addr).img = s.img := (recordFault_changesOnly s d c bits typ seq addr).img (by decide)
  have hupd : (updStr (recordFault s d c bits typ seq addr) d c fun x => { x with faulted := true, cur := none }).img = s.img := himg
  rw [faultStop, img_stopImage code (by rw [hupd]; exact h), hupd]

theorem faultStop_changesOnly (s : State) (d : Die) (c : Sid) (bits typ : Nat) (seq : Half) (addr : DWord) (code : Nat) :
    changesOnly [.out, .regs, .rs, .host, .dies, .img] s (faultStop s d c bits typ seq addr code) := by
  simp [changesOnly, faultStop]

end Sys2Proof.Machine
end

section
/-! PROOF. A move that ran on the poison path (R187, R204): the refutation of Moves (O17).

The clause of MOVE_UE asks of the stream that it stands in a step body outside the poison path, but not of the move: one that was
issued on the poison path raises its fault there, which stops the image and does not poison the stream. -/
namespace Sys2Proof.Machine
open Sys2Proof

/-- A move in error that was issued on the poison path. -/
def strayMove : InFlight := { id := 0, unit := .move, desc := 0, addr := 0, seq := 0, bad := true, onPath := true }

/-- A module in which that move is all that is in progress. -/
def strayState : State := updStr State.reset 0 .f fun x => { x with inflight := [strayMove] }

theorem str_strayState : str strayState 0 .f = { inflight := [strayMove] } := str_updStr_self _ _ _ _

theorem findInflight_strayState : findInflight (str strayState 0 .f) .move 0 = some strayMove := by
  rw [str_strayState]
  rfl

/-- No object of the module has a waiter. -/
theorem unserved_strayState (o : ObjRef) : unserved (getObj strayState o) := by
  have hnone : (getObj State.reset o).waiters = [] := by
    cases o with
    | glob i => rfl
    | loc d i => simp [getObj, die, State.reset, SMap.get]; rfl
  intro w hw
  rw [strayState, getObj_updStr, hnone] at hw
  cases hw

theorem exec_moveDone_bad {s : State} {d : Die} {c : Sid} {i : Nat} {e : InFlight} (he : findInflight (str s d c) .move i = some e)
    (hbad : e.bad = true) (hloud : e.silent = false) : exec (.moveDone d c i) s = .next (unitFault s d c fMoveUe e) := by
  have hrow : exec (.moveDone d c i) s = .next (doMoveDone d c i s) := rfl
  rw [hrow, doMoveDone, he]
  simp only [hbad, hloud, if_true, Bool.false_eq_true, if_false]

/-- Refutes O17: a move issued on the poison path that meets an error stops the image, and its stream is not poisoned. -/
theorem not_moves : ¬ Obligations.Moves := by
  intro h
  obtain ⟨-, -, -, -, hue, -⟩ := h
  have hstep : inStep strayState 0 .f := by rw [inStep, str_strayState]; exact ⟨rfl, rfl, rfl⟩
  obtain ⟨t, hexec, hpoison, -⟩ := hue strayState 0 .f 0 strayMove findInflight_strayState rfl rfl hstep rfl unserved_strayState
  have hrun : exec (.moveDone 0 .f 0) strayState = .next (unitFault strayState 0 .f fMoveUe strayMove) :=
    exec_moveDone_bad findInflight_strayState rfl rfl
  have hprologue : (str strayState 0 .f).prologue = false := by rw [str_strayState]
  have hstop := str_faultStop (dropInflight strayState 0 .f 0) 0 .f (2 ^ fMoveUe + 2 ^ fPoisonFault) (dType 0) 0 0 6
  rw [hrun, unitFault, hprologue] at hexec
  injection hexec with ht
  have hfinal : t = faultStop (dropInflight strayState 0 .f 0) 0 .f (2 ^ fMoveUe + 2 ^ fPoisonFault) (dType 0) 0 0 6 :=
    ht.symm.trans (faultAs_onPath _ _ _ _ _ _ _ _)
  rw [hfinal, hstop, dropInflight, str_updStr_self, str_strayState] at hpoison
  cases hpoison

end Sys2Proof.Machine
end

section
/-! PROOF. The registers of the dies' windows: memory, the fabric and the events of the module leave them alone. -/
namespace Sys2Proof.Machine
open Sys2Proof

/-- The registers of the windows of the dies, from the first window on. -/
def windows (s : State) : Nat → Word := fun k => reg s (0x1000000 + k)

theorem windows_of_regs {s t : State} (h : t.regs = s.regs) : windows t = windows s := by
  funext k
  rw [windows, windows, reg, reg, h]

/-- What leaves the registers alone leaves the windows alone. -/
theorem windows_of_frame {s t : State} (h : t.erase (fun c => decide (c ≠ Comp.regs)) = s.erase (fun c => decide (c ≠ Comp.regs))) :
    windows t = windows s := windows_of_regs (by simpa [State.erase] using congrArg State.regs h)

theorem reg_of_windows {s t : State} (h : windows t = windows s) (d k : Nat) : reg t (cdWin d + k) = reg s (cdWin d + k) := by
  rw [show cdWin d + k = 0x1000000 + (d * 0x100000 + k) by simp only [cdWin]; omega]
  exact congrFun h _

theorem reg64_of_windows {s t : State} (h : windows t = windows s) (d k : Nat) : reg64 t (cdWin d + k) = reg64 s (cdWin d + k) := by
  rw [reg64, reg64, Nat.add_assoc, reg_of_windows h, reg_of_windows h]

/-! ### Registers outside the windows -/

theorem windows_setReg {o : Nat} (h : o < 0x1000000) (s : State) (v : Word) : windows (setReg s o v) = windows s := by
  funext k
  exact reg_setReg_ne _ _ _ _ (by omega)

theorem windows_setReg64 {o : Nat} (h : o + 4 < 0x1000000) (s : State) (v : DWord) : windows (setReg64 s o v) = windows s :=
  (windows_setReg h _ _).trans (windows_setReg (by omega) _ _)

theorem windows_addReg {o : Nat} (h : o < 0x1000000) (s : State) (n : Nat) : windows (addReg s o n) = windows s := windows_setReg h _ _

theorem windows_addReg64 {o : Nat} (h : o + 4 < 0x1000000) (s : State) (n : Nat) : windows (addReg64 s o n) = windows s :=
  windows_setReg64 h _ _

theorem windows_setFld {o : Nat} (h : o < 0x1000000) (s : State) (hi lo v : Nat) : windows (setFld s o hi lo v) = windows s :=
  windows_setReg h _ _

theorem windows_satFld16 {o : Nat} (h : o < 0x1000000) (s : State) (lo : Nat) : windows (satFld16 s o lo) = windows s := windows_setFld h _ _ _ _

@[simp] theorem windows_rsEvent (s : State) (off bit : Nat) : windows (rsEvent s off bit) = windows s :=
  windows_of_frame (rsEvent_frame (by decide) s off bit)

@[simp] theorem windows_ite (p : Prop) [Decidable p] (a b : State) :
    windows (if p then a else b) = if p then windows a else windows b := apply_ite _ _ _ _

theorem windows_foldl {α : Type} (f : State → α → State) (h : ∀ s x, windows (f s x) = windows s) (l : List α) (s : State) :
    windows (l.foldl f s) = windows s := by
  induction l generalizing s with
  | nil => rfl
  | cons x l ih => rw [List.foldl_cons, ih, h]

@[simp] theorem windows_withMem (s : State) (x : MemState) : windows { s with mem := x } = windows s := rfl
@[simp] theorem windows_withFlash (s : State) (x : FlashState) : windows { s with flash := x } = windows s := rfl
@[simp] theorem windows_withStep (s : State) (x : StepUnit) : windows { s with step := x } = windows s := rfl

/-! ### Module memory -/

@[simp] theorem windows_updStack (s : State) (n : Stack) (f : StackState → StackState) : windows (updStack s n f) = windows s := rfl
@[simp] theorem windows_setRemap (s : State) (n : Stack) (p : Nat) (sub : Option Nat) : windows (setRemap s n p sub) = windows s := rfl
@[simp] theorem windows_poisonPage (s : State) (n : Stack) (p : Nat) : windows (poisonPage s n p) = windows s :=
  windows_of_frame (poisonPage_frame (by decide) s n p)
@[simp] theorem windows_logMapOut (s : State) (n : Stack) (ch : Nat) : windows (logMapOut s n ch) = windows s :=
  windows_of_frame (logMapOut_frame (by decide) s n ch)
@[simp] theorem windows_requestStop (s : State) (code : Nat) : windows (requestStop s code) = windows s :=
  windows_of_frame (requestStop_frame (by decide) s code)

@[simp] theorem windows_memEvent (s : State) (bit : Nat) (n : Stack) (row : Nat) : windows (memEvent s bit n row) = windows s :=
  (windows_rsEvent _ _ _).trans (windows_setReg (by decide) _ _)

@[simp] theorem windows_retireOne (s : State) (n : Stack) (p row : Nat) (again : Bool) : windows (retireOne s n p row again) = windows s := by
  have haddr := windows_setReg64 (o := rMemErrAddr) (by decide)
  have hcount := windows_satFld16 (o := rRetired) (by decide)
  have hfld := windows_setFld (o := rRetired) (by decide)
  simp [retireOne, haddr, hcount, hfld]

@[simp] theorem windows_retirePage (s : State) (n : Stack) (o row : Nat) : windows (retirePage s n o row) = windows s := by
  unfold retirePage
  dsimp only
  split <;> simp

@[simp] theorem windows_rowNeedsRepair (s : State) (n : Stack) (o : Nat) : windows (rowNeedsRepair s n o) = windows s := by
  simp [rowNeedsRepair]

theorem stWin_lt (n : Stack) {k : Nat} (hk : k < 0x1000) : stWin n.val + k < 0x1000000 := by
  have := n.isLt
  simp only [stWin]
  omega

@[simp] theorem windows_foundUe (s : State) (g a : Nat) : windows (foundUe s g a) = windows s := by
  have hstack := windows_addReg (stWin_lt (granStack g) (k := 0x18) (by decide))
  have htotal := windows_addReg (o := rUeTotal) (by decide)
  have haddr := windows_setReg64 (o := rMemErrAddr) (by decide)
  simp [foundUe, hstack, htotal, haddr]

@[simp] theorem windows_correctGran (s : State) (g : Nat) : windows (correctGran s g) = windows s := by
  have hstack := windows_addReg64 (stWin_lt (granStack g) (k := 0x10 + 4) (by decide))
  have htotal := windows_addReg64 (o := rCeTotal) (by decide)
  simp [correctGran, hstack, htotal]

@[simp] theorem windows_foundCe (s : State) (g : Nat) : windows (foundCe s g) = windows s := by
  unfold foundCe
  dsimp only
  split <;> simp

@[simp] theorem windows_caParity (s : State) (gs : List (Nat × Nat)) : windows (caParity s gs) = windows s := by
  simp [caParity, windows_foldl]

@[simp] theorem windows_repairRow (s : State) (n : Stack) (row : Nat) : windows (repairRow s n row) = windows s := by
  unfold repairRow
  extract_lets x inRow found corrected repaired
  have hfound : windows found = windows s := windows_foldl _ (fun _ _ => windows_foundUe _ _ _) _ s
  have hcorrected : windows corrected = windows found := windows_foldl _ windows_correctGran _ found
  have hrepaired : windows repaired = windows corrected := windows_updStack _ _ _
  rw [windows_memEvent, windows_withFlash, hrepaired, hcorrected, hfound]

@[simp] theorem windows_holdForRepair (s : State) (g : Nat) : windows (holdForRepair s g) = windows s := by
  unfold holdForRepair
  dsimp only
  split <;> simp

@[simp] theorem windows_touchGran (s : State) (g a : Nat) : windows (touchGran s g a) = windows s := by simp [touchGran]

@[simp] theorem windows_writeMark (s : State) (a len g b : Nat) : windows (writeMark s a len g b) = windows s := by simp [writeMark]

theorem windows_memWrite {s t : State} {a : Nat} {bs : List Byte} {r : Bool} (h : memWrite s a bs = some (r, t)) : windows t = windows s := by
  unfold memWrite at h
  split at h
  · dsimp only at h
    split at h
    · cases h; rfl
    · cases h
      simp [windows_foldl]
  · cases h

@[simp] theorem windows_memPut (s : State) (a : Nat) (bs : List Byte) : windows (memPut s a bs) = windows s := by
  unfold memPut
  split
  · exact windows_memWrite ‹_›
  · rfl

@[simp] theorem windows_writeVerdict (s : State) (att : DWord) (v : Nat) : windows (writeVerdict s att v) = windows s := by
  unfold writeVerdict
  split
  · exact windows_memPut _ _ _
  · rfl

/-! ### Packets -/

theorem windows_fabErr (s : State) (bit : Nat) (p : Packet) (ch : Option Chan) : windows (fabErr s bit p ch) = windows s :=
  (windows_rsEvent _ _ _).trans (windows_setReg (by decide) _ _)

theorem windows_dropLife (s : State) (p : Packet) (ch : Option Chan) : windows (dropLife s p ch) = windows s :=
  (windows_addReg (by decide) _ _).trans (windows_fabErr _ _ _ _)

theorem windows_addrErr (s : State) (p : Packet) (ch : Option Chan) : windows (addrErr s p ch) = windows s :=
  (windows_addReg (by decide) _ _).trans (windows_fabErr _ _ _ _)

theorem windows_poolLeave (s : State) (p : Packet) (src : Option (Chan × Nat)) : windows (poolLeave s p src) = windows s :=
  windows_of_frame (poolLeave_frame (by decide) s p src)

theorem windows_showUsed (s : State) {port : Nat} (h : port < 6) : windows (showUsed s port) = windows s := by
  rw [showUsed, windows_ite, windows_setReg (by simp only [rCstoreUsed]; omega), ite_self]

theorem windows_putOnLink (s : State) (p : Packet) (c : Chan) : windows (putOnLink s p c) = windows s :=
  (windows_of_regs rfl).trans <| (windows_showUsed _ c.port.isLt).trans <| (windows_addReg64 (by decide) _ _).trans (windows_of_regs rfl)

theorem windows_depart (s : State) (w : WaitPkt) (c : Chan) : windows (depart s w c) = windows s := by
  rw [depart, windows_poolLeave, windows_ite, windows_dropLife, windows_putOnLink, ite_self]

theorem windows_parkPkt (s : State) (w : WaitPkt) : windows (parkPkt s w) = windows s := by
  rw [parkPkt, windows_ite, windows_poolLeave, windows_addReg (by decide), windows_of_frame (keepWaiting_frame (by decide) s w), ite_self]

theorem windows_pick {s t : State} {w : WaitPkt} {c : Option Chan} (h : pick s w true = (c, t)) : windows t = windows s := by
  have hframe : windows (pick s w true).2 = windows s := windows_of_frame (pick_frame (by decide) s w true)
  rwa [h] at hframe

theorem windows_sendCopyA (p : Packet) (s : State) (m : Half) : windows (sendCopyA p s m) = windows s := by
  unfold sendCopyA
  dsimp only
  split
  next hp => exact (windows_depart _ _ _).trans (windows_pick hp)
  next hp => exact (windows_parkPkt _ _).trans (windows_pick hp)

theorem windows_sendCopyB (p : Packet) (s : State) (dm : Nat × Half) : windows (sendCopyB p s dm) = windows s := by
  unfold sendCopyB
  dsimp only
  split
  · exact windows_depart _ _ _
  · exact windows_parkPkt _ _

theorem windows_broadcast (s : State) (p : Packet) : windows (broadcast s p) = windows s :=
  (windows_foldl _ (windows_sendCopyB p) _ _).trans (windows_foldl _ (windows_sendCopyA p) _ _)

theorem windows_sendPkt (s : State) (p : Packet) : windows (sendPkt s p) = windows s := by
  unfold sendPkt sendOn
  split
  · exact (windows_poolLeave _ _ _).trans (windows_of_regs rfl)
  · exact (windows_poolLeave _ _ _).trans (windows_addrErr _ _ _)
  · split
    next hp => exact (windows_depart _ _ _).trans (windows_pick hp)
    next hp => exact (windows_parkPkt _ _).trans (windows_pick hp)

end Sys2Proof.Machine
end

section
/-! PROOF. What a stream keeps while its step is poisoned: its place, and the address of the die's last stream fault (R203, R205). -/
namespace Sys2Proof.Machine
open Sys2Proof

/-! ### The address of the last fault -/

/-- CDnn_STR_ERR_ADDR of die `d`. -/
def faultAddr (d : Die) (s : State) : DWord := reg64 s (cdWin d.val + rStrErrAddr)

theorem faultAddr_of_windows {d : Die} {s t : State} (h : windows t = windows s) : faultAddr d t = faultAddr d s := reg64_of_windows h _ _

/-- Another register of a die's window. -/
theorem faultAddr_setReg {d : Die} (e : Die) {k : Nat} (s : State) (v : Word) (hk : k < 0x100000)
    (hne : k ≠ rStrErrAddr ∧ k ≠ rStrErrAddr + 4) : faultAddr d (setReg s (cdWin e.val + k) v) = faultAddr d s := by
  simp only [rStrErrAddr] at hne
  rw [faultAddr, reg64, reg_setReg_ne, reg_setReg_ne]
  · rfl
  all_goals simp only [cdWin, rStrErrAddr]; omega

theorem faultAddr_cdSyncEvent (d : Die) (s : State) (e : Die) (bit : Nat) (cause : BitVec 4) (src : Src) (ref : Nat) :
    faultAddr d (cdSyncEvent s e bit cause src ref) = faultAddr d s :=
  (faultAddr_of_windows (windows_rsEvent _ _ _)).trans (faultAddr_setReg e _ _ (by decide) (by decide))

theorem faultAddr_logObjError (d : Die) (s : State) (r : ObjRef) (cause : BitVec 4) (src : Src) :
    faultAddr d (logObjError s r cause src) = faultAddr d s := by
  cases r with
  | glob i => exact faultAddr_of_windows ((windows_rsEvent _ _ _).trans (windows_setReg (by decide) _ _))
  | loc e i => simp only [logObjError, apply_ite (faultAddr d), faultAddr_cdSyncEvent, ite_self]

theorem faultAddr_endSlot (d : Die) (s : State) (n : Fin 1024) (status : Nat) (o : SyncObj) :
    faultAddr d (endSlot s n status o) = faultAddr d s := by
  have hn := n.isLt
  have hstat := windows_setReg (o := rHwStat + 16 * n.val) (by simp only [rHwStat]; omega)
  have hobj := windows_setFld (o := rHwObj + 16 * n.val) (by simp only [rHwObj]; omega)
  have hmsix : ∀ t v, windows (msixDue t v) = windows t := fun t v => windows_of_frame (msixDue_frame (by decide) t v)
  refine faultAddr_of_windows ?_
  simp only [endSlot, windows_ite, hmsix, hobj, hstat, ite_self]

theorem faultAddr_updStr (d : Die) (s : State) (e : Die) (c : Sid) (f : Stream → Stream) : faultAddr d (updStr s e c f) = faultAddr d s :=
  faultAddr_of_windows (windows_of_regs rfl)

theorem faultAddr_issued (d : Die) (s : State) (e : Die) (c : Sid) : faultAddr d (issued s e c) = faultAddr d s := by
  have hcount : ∀ (t : State) (v : DWord), faultAddr d (setReg64 t (cdWin e.val + rStrIssued) v) = faultAddr d t := fun t v =>
    (faultAddr_setReg e (k := rStrIssued + 4) _ _ (by decide) (by decide)).trans (faultAddr_setReg e (k := rStrIssued) _ _ (by decide) (by decide))
  rw [issued, addReg64, hcount, faultAddr_updStr]

theorem faultAddr_endStreamWait (d : Die) (s : State) (e : Die) (c : Sid) (status : Nat) :
    faultAddr d (endStreamWait s e c status).1 = faultAddr d s := by
  have hstop : ∀ t, faultAddr d (stopImage t 5) = faultAddr d t := fun t =>
    faultAddr_of_windows (windows_of_frame (stopImage_frame (by decide) t 5))
  simp only [endStreamWait]
  split
  · rw [faultAddr_issued, faultAddr_updStr]
  · split
    · rw [faultAddr_updStr, faultAddr_issued, faultAddr_updStr]
    · rw [hstop, faultAddr_updStr, faultAddr_updStr]

theorem faultAddr_endWaiters (d : Die) (s : State) (r : ObjRef) (o : SyncObj) (ws : List (Waiter × Nat)) :
    faultAddr d (endWaiters s r o ws).1 = faultAddr d s := by
  induction ws generalizing s with
  | nil => rfl
  | cons p ws ih =>
    obtain ⟨w, st⟩ := p
    simp only [endWaiters]
    split
    · rw [ih, faultAddr_endSlot]
    · rw [ih, faultAddr_endStreamWait, apply_ite (faultAddr d), faultAddr_cdSyncEvent, ite_self]

theorem faultAddr_putObj (d : Die) (s : State) (r : ObjRef) (o : SyncObj) : faultAddr d (putObj s r o) = faultAddr d s :=
  faultAddr_of_windows (windows_of_frame (putObj_frame (by decide) s r o))

theorem faultAddr_applyRes (d : Die) (s : State) (r : ObjRef) (src : Src) (res : ObjRes) :
    faultAddr d (applyRes s r src res).1 = faultAddr d s := by
  rw [applyRes, faultAddr_endWaiters, apply_ite (faultAddr d), faultAddr_logObjError, ite_self, faultAddr_putObj]

theorem faultAddr_addOnce (d : Die) (s : State) (g : Sig) : faultAddr d (addOnce s g).1 = faultAddr d s := by
  obtain ⟨r, n, tag, src⟩ := g
  cases r with
  | glob i =>
    have hclass : ∀ t, faultAddr d (signalClass i.val t) = faultAddr d t := fun t =>
      faultAddr_of_windows (windows_of_frame (signalClass_frame (by decide) i.val t))
    have hcounted : faultAddr d (signalCounted s src i.val) = faultAddr d s := by
      refine faultAddr_of_windows ((windows_of_regs (regs_signalCounted s src i.val)).trans (windows_addReg64 (by decide) _ _))
    exact (hclass _).trans ((faultAddr_applyRes _ _ _ _ _).trans hcounted)
  | loc e i =>
    have hstale : faultAddr d (addReg s (cdWin e.val + rCdSyncStale) 1) = faultAddr d s := faultAddr_setReg e _ _ (by decide) (by decide)
    unfold addOnce
    dsimp only
    split
    · rfl
    · split
      · exact faultAddr_applyRes _ _ _ _ _
      · simp only [apply_ite Prod.fst, apply_ite (faultAddr d), faultAddr_applyRes, hstale, ite_self]

theorem faultAddr_addSignals (d : Die) (fuel : Nat) (gs : List Sig) (s : State) : faultAddr d (addSignals fuel gs s) = faultAddr d s := by
  induction fuel generalizing gs s with
  | zero => cases gs <;> rfl
  | succ n ih =>
    cases gs with
    | nil => rfl
    | cons g gs => exact (ih _ _).trans (faultAddr_addOnce d s g)

theorem faultAddr_leaveObj (d : Die) (s : State) (r : ObjRef) (who : Who) : faultAddr d (leaveObj s r who) = faultAddr d s :=
  (faultAddr_addSignals _ _ _ _).trans (faultAddr_applyRes _ _ _ _ _)

theorem faultAddr_foldl {α : Type} {d : Die} (f : State → α → State) (h : ∀ s x, faultAddr d (f s x) = faultAddr d s) (l : List α) (s : State) :
    faultAddr d (l.foldl f s) = faultAddr d s := by
  induction l generalizing s with
  | nil => rfl
  | cons x l ih => rw [List.foldl_cons, ih, h]

theorem faultAddr_withdrawWait (d : Die) (s : State) (e : Die) (c : Sid) : faultAddr d (withdrawWait s e c) = faultAddr d s := by
  unfold withdrawWait
  split
  · exact faultAddr_leaveObj _ _ _ _
  · rfl

theorem faultAddr_withdrawAll (d : Die) (s : State) (xs : List (Die × Sid)) : faultAddr d (withdrawAll s xs) = faultAddr d s :=
  (faultAddr_foldl _ (fun _ _ => faultAddr_leaveObj _ _ _ _) _ _).trans (faultAddr_foldl _ (fun _ _ => faultAddr_putObj _ _ _ _) _ _)

/-! ### What poisoning leaves of a stream that waits for nothing -/

/-- The stream stands where it stood. -/
structure Stream.stands (x y : Stream) : Prop where
  pc : y.pc = x.pc
  expect : y.expect = x.expect
  faulted : y.faulted = x.faulted

theorem Stream.stands_refl (x : Stream) : x.stands x := ⟨rfl, rfl, rfl⟩

/-- Stream `c` of die `d` stands where it stood and is in no object's list, the collective engine is idle, and the die's last fault
is the same. -/
structure Undisturbed (d : Die) (c : Sid) (s t : State) : Prop where
  idle : t.coll.active = []
  alone : notWaiting t d c
  stands : (str s d c).stands (str t d c)
  addr : faultAddr d t = faultAddr d s

/-- With an idle collective engine, what comes to `t` leaves a stream undisturbed that waits for nothing. -/
def spares (d : Die) (c : Sid) (s t : State) : Prop := s.coll.active = [] → notWaiting s d c → Undisturbed d c s t

section
variable {d : Die} {c : Sid} {s t u : State}

theorem spares.refl (s : State) : spares d c s s := fun hidle halone => ⟨hidle, halone, Stream.stands_refl _, rfl⟩

theorem spares.trans (h : spares d c s t) (g : spares d c t u) : spares d c s u := fun hidle halone => by
  obtain ⟨hidle', halone', hst, haddr⟩ := h hidle halone
  obtain ⟨hidle'', halone'', htu, haddr'⟩ := g hidle' halone'
  exact ⟨hidle'', halone'', ⟨htu.pc.trans hst.pc, htu.expect.trans hst.expect, htu.faulted.trans hst.faulted⟩, haddr'.trans haddr⟩

theorem spares.ite {a b : State} (p : Prop) [Decidable p] (ha : spares d c s a) (hb : spares d c s b) : spares d c s (if p then a else b) := by
  split <;> assumption

theorem spares.foldl {α : Type} (f : State → α → State) (h : ∀ s x, spares d c s (f s x)) (l : List α) (s : State) :
    spares d c s (l.foldl f s) := by
  induction l generalizing s with
  | nil => exact .refl s
  | cons x l ih => exact (h s x).trans (ih _)

theorem spares.of_signalled (h : Signalled s t) (hcoll : t.coll = s.coll) (haddr : faultAddr d t = faultAddr d s) : spares d c s t :=
  fun hidle halone => by
    obtain ⟨hstr, hnot⟩ := h.bystander d c halone
    exact ⟨by rw [hcoll, hidle], hnot, hstr ▸ Stream.stands_refl _, haddr⟩

/-- What leaves the objects, the streams and the engine alone. -/
theorem spares.of_eq (hobj : getObj t = getObj s) (hstr : str t d c = str s d c) (hcoll : t.coll = s.coll) (hwin : windows t = windows s) :
    spares d c s t :=
  fun hidle halone => ⟨by rw [hcoll, hidle], notWaiting_congr hobj halone, hstr ▸ Stream.stands_refl _, faultAddr_of_windows hwin⟩

theorem spares.of_frame (hwin : windows t = windows s)
    (h : t.erase (fun c => decide (c ∉ [Comp.sync, .dies, .coll])) = s.erase (fun c => decide (c ∉ [Comp.sync, .dies, .coll]))) :
    spares d c s t := by
  have hsync : t.sync = s.sync := by simpa [State.erase] using congrArg State.sync h
  have hdies : t.dies = s.dies := by simpa [State.erase] using congrArg State.dies h
  have hcoll : t.coll = s.coll := by simpa [State.erase] using congrArg State.coll h
  exact .of_eq (getObj_congr hsync hdies) (by rw [str_congr hdies]) hcoll hwin

theorem spares_updStr (e : Die) (k : Sid) (f : Stream → Stream) (h : ∀ x : Stream, x.stands (f x)) (s : State) : spares d c s (updStr s e k f) := by
  intro hidle halone
  refine ⟨hidle, notWaiting_congr (getObj_updStr s e k f) halone, ?_, faultAddr_updStr _ _ _ _ _⟩
  by_cases hek : d = e ∧ c = k
  · obtain ⟨rfl, rfl⟩ := hek
    rw [str_updStr_self]
    exact h _
  · rw [str_updStr_ne _ _ _ _ _ _ (not_and_or.mp hek)]
    exact Stream.stands_refl _

theorem spares_updArr (e : Die) (f : ArrayUnit → ArrayUnit) (s : State) : spares d c s (updArr s e f) :=
  .of_eq (getObj_updDie _ _ _ (fun _ => rfl) fun _ => rfl) (by rw [str_updArr]) rfl (windows_of_regs rfl)

theorem spares_updCtx (e : Die) (k : Sid) (f : VCtx → VCtx) (s : State) : spares d c s (updCtx s e k f) :=
  .of_eq (getObj_updDie _ _ _ (fun _ => rfl) fun _ => rfl) (by rw [str_updCtx]) rfl (windows_of_regs rfl)

theorem spares_withdrawWait (s : State) (e : Die) (k : Sid) : spares d c s (withdrawWait s e k) :=
  .of_signalled (signalled_withdrawWait s e k)
    (changesOnly.coll (ks := [.out, .regs, .rs, .host, .sync, .dies, .step, .img, .upd]) (withdrawWait_frame (by decide) s e k) (by decide))
    (faultAddr_withdrawWait _ _ _ _)

theorem spares_withdrawAll (s : State) (xs : List (Die × Sid)) : spares d c s (withdrawAll s xs) :=
  .of_signalled (signalled_withdrawAll s xs)
    (changesOnly.coll (ks := [.out, .regs, .rs, .host, .sync, .dies, .step, .img, .upd]) (withdrawAll_frame (by decide) s xs) (by decide))
    (faultAddr_withdrawAll _ _ _)

theorem spares_withdrawReady (s : State) (e : Die) (k : Sid) : spares d c s (withdrawReady s e k) :=
  have harr := spares_updArr e (fun a => { a with ready := a.ready.put k none }) s
  .ite _ (harr.trans (.of_frame (windows_of_regs rfl) (State.erase_gang _ _ (by decide)))) harr

/-- With an idle engine a reset ends no collective. -/
theorem spares_resetColls (s : State) (e : Die) (k : Sid) : spares d c s (resetColls s e k) := by
  intro hidle
  have hnone : resetColls s e k = s := by simp [resetColls, hidle]
  rw [hnone]
  exact spares.refl s hidle

theorem spares_streamReset (s : State) (e : Die) (k : Sid) : spares d c s (streamReset s e k) := by
  refine .ite _ (spares_updArr _ _ _) ?_
  unfold resetNow
  extract_lets left cleared emptied idled
  have hcleared : spares d c s cleared := (spares_withdrawWait s e k).trans ((spares_withdrawReady left e k).trans (spares_updArr _ _ _))
  have hidled : spares d c cleared idled := (spares_updCtx _ _ _ _).trans (spares_updStr _ _ _ (by exact fun _ => ⟨rfl, rfl, rfl⟩) _)
  exact (hcleared.trans hidled).trans (spares_resetColls _ _ _)

theorem spares_enterPoison (s : State) (e : Die) (k : Sid) : spares d c s (enterPoison s e k) := by
  rw [enterPoison]
  exact (spares.ite _ (spares_streamReset s e k) (spares_withdrawWait s e k)).trans
    (spares_updStr _ _ _ (by exact fun _ => ⟨rfl, rfl, rfl⟩) _)

theorem spares_updAttempt (s : State) (att : DWord) (f : Attempt → Attempt) : spares d c s (updAttempt s att f) :=
  .of_frame (windows_of_regs rfl) (updAttempt_frame (by decide) s att f)

theorem spares_setPoison (s : State) (att : DWord) : spares d c s (setPoison s att) := by
  unfold setPoison
  extract_lets ruled written ended withdrawn
  have hwritten : spares d c s written :=
    (spares_updAttempt s att _).trans (.of_frame (windows_writeVerdict _ _ _) (writeVerdict_frame (by decide) _ _ _))
  have hended : spares d c s ended := fun hidle halone => by
    have hnone : ended = written := by
      simp only [ended, (hwritten hidle halone).idle, List.filter_nil, List.foldl_nil]
    rw [hnone]
    exact hwritten hidle halone
  refine (hended.trans (spares_withdrawAll ended _)).trans (.foldl _ (fun s e => .foldl _ (fun s k => ?_) _ s) _ _)
  exact .ite _ (spares_enterPoison s e k) (.refl s)

theorem spares_fastPoison (s : State) (att : DWord) (bit : Nat) (layer : Half) (cd : Byte) : spares d c s (fastPoison s att bit layer cd) := by
  have hcause : spares d c s (addCause s att bit layer cd) := spares_updAttempt s att _
  unfold fastPoison
  split
  · exact .refl s
  · dsimp only
    split
    · exact .refl s
    · exact hcause
    · exact hcause.trans (.trans (.of_frame (windows_broadcast _ _) (broadcast_frame (by decide) _ _))
        ((spares_updAttempt _ _ _).trans (spares_setPoison _ _)))

end

end Sys2Proof.Machine
end

section
/-! PROOF. A fetch and its faults: DescriptorFetch (O14). -/
namespace Sys2Proof.Machine
open Sys2Proof

/-! ### A fault in a step body (R91, R203) -/

theorem resetDue_le (s : State) (d : Die) (c : Sid) (h : opRuns s d c = false) : resetDue s d c = false := by
  unfold opRuns resetDue at *
  cases hop : (die s d).arr.op with
  | none => rfl
  | some o =>
    rw [hop] at h
    simp only [Option.any_some] at h ⊢
    rw [h, Bool.false_and]

/-- After a stream reset, one waits exactly where an operation of the stream runs. -/
theorem resetDue_streamReset (s : State) (d : Die) (c : Sid) : resetDue (streamReset s d c) d c = opRuns s d c := by
  cases hruns : opRuns s d c with
  | true =>
    rw [streamReset, if_pos hruns, resetDue, arr_updArr_self]
    unfold opRuns at hruns
    cases hop : (die s d).arr.op with
    | none => rw [hop] at hruns; cases hruns
    | some o =>
      rw [hop] at hruns
      simpa using hruns
  | false => exact resetDue_le _ d c ((opRuns_of_onward (streamReset_spec s d c).1 d c).trans hruns)

theorem faultAddr_recordFault (s : State) (d : Die) (c : Sid) (bits typ : Nat) (seq : Half) (addr : DWord) :
    faultAddr d (recordFault s d c bits typ seq addr) = addr := by
  have hevents : ∀ t o b, windows (rsEvents t o b) = windows t := fun t o b => windows_of_frame (rsEvents_frame (by decide) t o b)
  unfold recordFault
  dsimp only
  rw [faultAddr_of_windows (hevents _ _ _), faultAddr, reg64_setReg64_self]

/-- The state in which a fault of a step body has been recorded and its step poisoned. -/
def faultPoisoned (s : State) (d : Die) (c : Sid) (bit typ : Nat) (seq : Half) (addr : DWord) (layer : Half) : State :=
  fastPoison (updStr (recordFault s d c (2 ^ bit) typ seq addr) d c fun x => { x with faulted := true }) (str s d c).attempt gFault layer
    (BitVec.ofNat 8 d.val)

theorem faultAs_inStep {s : State} {d : Die} {c : Sid} (bit typ : Nat) (seq : Half) (addr : DWord) (layer : Half)
    (hp2 : (str s d c).pass2 = false) :
    faultAs s d c false false bit typ seq addr layer =
      stepOver (updStr (streamReset (faultPoisoned s d c bit typ seq addr layer) d c) d c fun x => { x with
        poison := true, st := if resetDue (streamReset (faultPoisoned s d c bit typ seq addr layer) d c) d c then .issuing else .poisonPath,
        waitRef := none }) d c addr := by
  simp only [faultAs, faultPoisoned, hp2, Bool.false_eq_true, if_false, false_and] <;> rfl

/-- The step is poisoned where it was undecided, and the stream stands at its fault. -/
theorem faultPoisoned_spec {s : State} {d : Die} {c : Sid} (bit typ : Nat) (seq : Half) (addr : DWord) (layer : Half)
    (hidle : s.coll.active = []) (halone : notWaiting s d c) :
    Undisturbed d c (updStr (recordFault s d c (2 ^ bit) typ seq addr) d c fun x => { x with faulted := true })
      (faultPoisoned s d c bit typ seq addr layer) ∧
    (verdictOf s (str s d c).attempt = none → attempt s (str s d c).attempt ≠ none →
      verdictOf (faultPoisoned s d c bit typ seq addr layer) (str s d c).attempt = some .poison) := by
  have hframe := recordFault_changesOnly s d c (2 ^ bit) typ seq addr
  have hcoll : (recordFault s d c (2 ^ bit) typ seq addr).coll = s.coll := hframe.coll (by decide)
  have hstep : (recordFault s d c (2 ^ bit) typ seq addr).step = s.step := hframe.step (by decide)
  have hobj : getObj (recordFault s d c (2 ^ bit) typ seq addr) = getObj s := getObj_congr (hframe.sync (by decide)) (hframe.dies (by decide))
  refine ⟨spares_fastPoison _ _ _ _ _ ((congrArg (fun k => k.active) hcoll).trans hidle) ?_, fun hopen hthere => ?_⟩
  · exact notWaiting_congr ((getObj_updStr _ _ _ _).trans hobj) halone
  · obtain ⟨a, ha⟩ := Option.ne_none_iff_exists'.mp hthere
    have hverdict : a.verdict = none := by simpa [verdictOf, ha] using hopen
    have hkept : attempt (updStr (recordFault s d c (2 ^ bit) typ seq addr) d c fun x => { x with faulted := true }) (str s d c).attempt = some a := by
      rw [← ha, attempt, attempt, ← hstep]
      rfl
    exact (fastPoison_undecided gFault layer (BitVec.ofNat 8 d.val) hkept hverdict).1

/-- A stream that takes the poison path at its fault, and steps over it. -/
theorem str_stepOver_poison {s : State} {d : Die} {c : Sid} {addr : DWord} (h : (str s d c).pc = addr) (st : StrSt) :
    str (stepOver (updStr s d c fun x => { x with poison := true, st := st, waitRef := none }) d c addr) d c =
      { str s d c with poison := true, st := st, waitRef := none, pc := addr + 64, expect := (str s d c).expect + 1, cur := none } := by
  subst h
  rw [stepOver, str_updStr_self, str_updStr_self, if_pos rfl]

/-- R203: a fault where the stream stands steps over the descriptor, onto the poison path or to the boundary of its operation. -/
theorem faultAs_stepsOver {s : State} {d : Die} {c : Sid} (bit typ : Nat) (seq : Half) (layer : Half) (hp2 : (str s d c).pass2 = false)
    (hidle : s.coll.active = []) (halone : notWaiting s d c) :
    (str (faultAs s d c false false bit typ seq (str s d c).pc layer) d c).st = (if opRuns s d c then .issuing else .poisonPath) ∧
    (str (faultAs s d c false false bit typ seq (str s d c).pc layer) d c).faulted = true ∧
    (str (faultAs s d c false false bit typ seq (str s d c).pc layer) d c).pc = (str s d c).pc + 64 ∧
    (str (faultAs s d c false false bit typ seq (str s d c).pc layer) d c).expect = (str s d c).expect + 1 ∧
    faultAddr d (faultAs s d c false false bit typ seq (str s d c).pc layer) = (str s d c).pc ∧
    (verdictOf s (str s d c).attempt = none → attempt s (str s d c).attempt ≠ none →
      verdictOf (faultAs s d c false false bit typ seq (str s d c).pc layer) (str s d c).attempt = some .poison) := by
  have honward : Onward s (faultPoisoned s d c bit typ seq (str s d c).pc layer) :=
    (Onward.of_frame (logged_recordFault _ _ _ _ _ _ _) (recordFault_frame (by decide) _ _ _ _ _ _ _)).trans
      ((onward_updStr (by exact ⟨id, id⟩)).trans (onward_fastPoison _ _ _ _ _))
  obtain ⟨⟨hidle', halone', hpoisoned, haddr⟩, hverdict⟩ := faultPoisoned_spec bit typ seq (str s d c).pc layer hidle halone
  rw [str_updStr_self, str_recordFault] at hpoisoned
  rw [faultAs_inStep bit typ seq (str s d c).pc layer hp2]
  generalize faultPoisoned s d c bit typ seq (str s d c).pc layer = p at *
  obtain ⟨-, -, hreset, haddr'⟩ := spares_streamReset (d := d) (c := c) p d c hidle' halone'
  have hpc : (str (streamReset p d c) d c).pc = (str s d c).pc := hreset.pc.trans hpoisoned.pc
  have hdue : resetDue (streamReset p d c) d c = opRuns s d c := (resetDue_streamReset p d c).trans (opRuns_of_onward honward d c)
  rw [hdue, str_stepOver_poison hpc]
  refine ⟨rfl, hreset.faulted.trans hpoisoned.faulted, rfl, ?_, ?_, fun hopen hthere => ?_⟩
  · rw [← hpoisoned.expect, ← hreset.expect]
  · rw [stepOver, faultAddr_updStr, faultAddr_updStr, haddr', haddr, faultAddr_updStr, faultAddr_recordFault]
  · rw [← hverdict hopen hthere]
    refine ((kept_streamReset p d c).trans (.of_marks ?_)).verdict _
    rw [stepOver, marks_updStr, marks_updStr]

/-! ### A fetch (R174, R200) -/

theorem exec_descFetch (s : State) (d : Die) (c : Sid) : exec (.descFetch d c) s = .next (doDescFetch d c s) := rfl

theorem descAt_eq (s : State) (pc : DWord) : descAt s pc = BitVec.ofNat 512 (leNat (memBytes s.mem pc.toNat 64)) := rfl

/-- What a fetch does with a sound descriptor `w`: the fault of its SEQ, the passing over, the fault of its fields, or issue. -/
def fetched (s : State) (d : Die) (c : Sid) (w : BitVec 512) : State :=
  if dSeq w ≠ (str s d c).expect then curFault s d c fSeq w
  else if (str s d c).poison && !(dRunOnPoison w) && decide ((str s d c).pc ≠ (str s d c).endAddr) then issued s d c
  else match staticFault c (str s d c).inBody w with
    | some f => curFault s d c f w
    | none => updStr s d c fun x => { x with cur := some w }

theorem doDescFetch_fetchable {s : State} {d : Die} {c : Sid} (h : fetchable s d c) :
    doDescFetch d c s = fetched s d c (descAt s (str s d c).pc) := by
  obtain ⟨hact, hcur, hpc, hclean, hsound⟩ := h
  rw [doDescFetch, fetched, descAt_eq]
  simp only [hact, hcur, hpc, memRead_clean hclean hsound, Bool.not_true, Option.isSome_none, Bool.or_self, Bool.false_eq_true, if_false]
    <;> rfl

theorem imgSt_of_mayAct {s : State} {d : Die} {c : Sid} (h : mayAct s d c = true) : s.img.st ≠ .none := by
  intro hnone
  simp [mayAct, streamsRun, hnone] at h

/-- R174: the descriptor is put at issue. -/
theorem doDescFetch_issue {s : State} {d : Die} {c : Sid} (h : fetchable s d c) (hseq : dSeq (descAt s (str s d c).pc) = (str s d c).expect)
    (hpoison : (str s d c).poison = false) (hfault : staticFault c (str s d c).inBody (descAt s (str s d c).pc) = none) :
    doDescFetch d c s = updStr s d c fun x => { x with cur := some (descAt s (str s d c).pc) } := by
  rw [doDescFetch_fetchable h, fetched]
  simp only [hseq, hpoison, hfault, ne_eq, not_true_eq_false, if_false, Bool.false_and, Bool.false_eq_true]

/-- R200: it is passed over on the poison path. -/
theorem doDescFetch_passes {s : State} {d : Die} {c : Sid} (h : fetchable s d c) (hseq : dSeq (descAt s (str s d c).pc) = (str s d c).expect)
    (hpoison : (str s d c).poison = true) (hrun : dRunOnPoison (descAt s (str s d c).pc) = false)
    (hend : (str s d c).pc ≠ (str s d c).endAddr) : doDescFetch d c s = issued s d c := by
  rw [doDescFetch_fetchable h, fetched]
  simp [hseq, hpoison, hrun, hend]

/-- R202: a wrong SEQ is DESC_SEQ. -/
theorem doDescFetch_seq {s : State} {d : Die} {c : Sid} (h : fetchable s d c) (hseq : dSeq (descAt s (str s d c).pc) ≠ (str s d c).expect) :
    doDescFetch d c s = curFault s d c fSeq (descAt s (str s d c).pc) := by
  rw [doDescFetch_fetchable h, fetched, if_pos hseq]

/-- R202: a program pointer outside the image is PC. -/
theorem doDescFetch_pc {s : State} {d : Die} {c : Sid} (hact : mayAct s d c = true) (hcur : (str s d c).cur = none)
    (hpc : pcOk s (str s d c).pc = false) : doDescFetch d c s = descFault s d c fPc 0 (str s d c).expect (str s d c).pc 0xFFFF := by
  simp only [doDescFetch, hact, hcur, hpc, Bool.not_true, Bool.not_false, Option.isSome_none, Bool.or_self, Bool.false_eq_true, if_false,
    if_true]

theorem doDescFetch_idle {s : State} {d : Die} {c : Sid} (h : mayAct s d c = false ∨ (str s d c).cur ≠ none) : doDescFetch d c s = s := by
  refine if_pos ?_
  rcases h with h | h
  · simp [h]
  · simp [Option.isSome_iff_ne_none.mpr h]

/-- Settles O14: a fetch is one of four ends of a sound read, and a fault is the poisoning of the step or the stop of the image. -/
theorem descriptorFetch : Obligations.DescriptorFetch := by
  refine ⟨⟨?_, ?_, fun s d c h => congrArg Host.Outcome.next (doDescFetch_idle h)⟩, ?_, ?_, ?_⟩
  · intro s d c h hseq hpoison hfault
    rw [exec_descFetch, doDescFetch_issue h hseq hpoison hfault]
    exact ⟨_, rfl, str_updStr_self _ _ _ _, otherStreams_updStr _ _ _ _, updStr_frame (by decide) _ _ _ _⟩
  · intro s d c h hseq hpoison hrun hend
    rw [exec_descFetch, doDescFetch_passes h hseq hpoison hrun hend]
    refine ⟨_, rfl, movedOn_issued s d c, ?_, otherStreams_issued s d c, issued_frame (by decide) s d c⟩
    rw [str_issued_self]
    exact if_pos hpoison
  · intro s d c h hseq hstep hidle halone
    obtain ⟨hprologue, hpoison, hp2⟩ := hstep
    rw [exec_descFetch, doDescFetch_seq h hseq, curFault, descFault, hprologue, hpoison]
    obtain ⟨-, ⟨hpoisoned, hnoted⟩, -⟩ := faultAs_spec (bit := fSeq) (dType (descAt s (str s d c).pc)) (str s d c).expect (str s d c).pc
      (dLayer (descAt s (str s d c).pc)) hp2 (by decide)
    obtain ⟨hst, hfaulted, hpc, hexpect, haddr, hverdict⟩ := faultAs_stepsOver fSeq (dType (descAt s (str s d c).pc)) (str s d c).expect
      (dLayer (descAt s (str s d c).pc)) hp2 hidle halone
    exact ⟨_, rfl, hpoisoned, hst, hfaulted, hpc, hexpect, hnoted, haddr, hverdict⟩
  · intro s d c hact hcur hpc hprologue
    rw [exec_descFetch, doDescFetch_pc hact hcur hpc, descFault, hprologue, faultAs_prologue]
    have himg := img_faultStop d c (2 ^ fPc + 2 ^ fPrologue) 0 (str s d c).expect (str s d c).pc 5 (imgSt_of_mayAct hact)
    refine ⟨_, rfl, by rw [himg], by rw [himg], by rw [himg], by rw [str_faultStop], ?_, ?_, faultStop_changesOnly _ _ _ _ _ _ _ _⟩
    · exact faultStop_noted _ _ _ _ _ _ _ (by decide)
    · exact faultStop_noted _ _ _ _ _ _ _ (by decide)
  · intro s d c h hseq hprologue hpoison
    rw [exec_descFetch, doDescFetch_seq h hseq, curFault, descFault, hprologue, hpoison, faultAs_onPath]
    have himg := img_faultStop d c (2 ^ fSeq + 2 ^ fPoisonFault) (dType (descAt s (str s d c).pc)) (str s d c).expect (str s d c).pc 6
      (imgSt_of_mayAct h.1)
    refine ⟨_, rfl, by rw [himg], by rw [himg], by rw [himg], ?_, ?_, faultStop_changesOnly _ _ _ _ _ _ _ _⟩
    · exact faultStop_noted _ _ _ _ _ _ _ (by decide)
    · exact faultStop_noted _ _ _ _ _ _ _ (by decide)

end Sys2Proof.Machine
end

section
/-! PROOF. A collective that has just issued: its rounds grant and wait (R191, R353). -/
namespace Sys2Proof.Machine
open Sys2Proof

/-! ### What a collective keeps while it waits for grants -/

/-- The round has not gone on, but may have sent its grants. -/
structure CollRound.follows (r x : CollRound) : Prop where
  idx : x.idx = r.idx
  round : x.r = r.r
  sent : x.sent = r.sent
  granted : x.granted = r.granted
  acc : x.acc = r.acc
  grantOut : r.grantOut = true → x.grantOut = true

theorem CollRound.follows_refl (r : CollRound) : r.follows r := ⟨rfl, rfl, rfl, rfl, rfl, id⟩

theorem CollRound.follows_trans {r x y : CollRound} (h : r.follows x) (g : x.follows y) : r.follows y :=
  ⟨g.idx.trans h.idx, g.round.trans h.round, g.sent.trans h.sent, g.granted.trans h.granted, g.acc.trans h.acc, g.grantOut ∘ h.grantOut⟩

/-- The same collective, whose rounds have not gone on. -/
structure Coll.follows (k k' : Coll) : Prop where
  d : k'.d = k.d
  i : k'.i = k.i
  desc : k'.desc = k.desc
  att : k'.att = k.att
  timed : k'.timed = k.timed
  rounds : List.Forall₂ CollRound.follows k.rounds k'.rounds

theorem forall₂_follows_refl (rs : List CollRound) : List.Forall₂ CollRound.follows rs rs := List.forall₂_same.mpr fun r _ => r.follows_refl

theorem Coll.follows_refl (k : Coll) : k.follows k := ⟨rfl, rfl, rfl, rfl, rfl, forall₂_follows_refl _⟩

theorem forall₂_follows_trans {rs xs ys : List CollRound} (h : List.Forall₂ CollRound.follows rs xs) (g : List.Forall₂ CollRound.follows xs ys) :
    List.Forall₂ CollRound.follows rs ys := by
  induction h generalizing ys with
  | nil => exact g
  | cons hr _ ih =>
    cases g with
    | cons hx hxs => exact .cons (CollRound.follows_trans hr hx) (ih hxs)

theorem Coll.follows_trans {k k' k'' : Coll} (h : k.follows k') (g : k'.follows k'') : k.follows k'' :=
  ⟨g.d.trans h.d, g.i.trans h.i, g.desc.trans h.desc, g.att.trans h.att, g.timed.trans h.timed, forall₂_follows_trans h.rounds g.rounds⟩

/-- No round may send, and none has an arrival in hand. -/
def Coll.quiet (k : Coll) : Prop := ∀ r ∈ k.rounds, r.granted = r.sent ∧ r.acc = []

theorem Coll.quiet_of_follows {k k' : Coll} (h : k.follows k') (hq : k.quiet) : k'.quiet := by
  have hrounds : ∀ {rs xs : List CollRound}, List.Forall₂ CollRound.follows rs xs → (∀ r ∈ rs, r.granted = r.sent ∧ r.acc = []) →
      ∀ x ∈ xs, x.granted = x.sent ∧ x.acc = [] := fun hf => by
    induction hf with
    | nil => exact fun _ => nofun
    | cons hr _ ih =>
      intro hq
      obtain ⟨⟨hg, ha⟩, hrest⟩ := List.forall_mem_cons.mp hq
      exact List.forall_mem_cons.mpr ⟨⟨by rw [hr.granted, hr.sent, hg], by rw [hr.acc, ha]⟩, ih hrest⟩
  exact hrounds h.rounds hq

/-- The collective that was the only one in progress is so still, with its rounds where they stood; the dies, the registers of
their windows and the grants in hand are the same. -/
structure Waiting (k : Coll) (s t : State) : Prop where
  active : ∃ k', t.coll.active = [k'] ∧ k.follows k'
  grants : t.coll.grants = s.coll.grants
  dies : t.dies = s.dies
  windows : windows t = windows s

/-- What comes to `t` leaves a quiet collective waiting. -/
def leavesWaiting (s t : State) : Prop := ∀ k, s.coll.active = [k] → k.quiet → Waiting k s t

theorem leavesWaiting.refl (s : State) : leavesWaiting s s := fun k hk _ => ⟨⟨k, hk, k.follows_refl⟩, rfl, rfl, rfl⟩

theorem leavesWaiting.trans {s t u : State} (h : leavesWaiting s t) (g : leavesWaiting t u) : leavesWaiting s u := fun k hk hq => by
  obtain ⟨⟨k', hk', hf⟩, hgrants, hdies, hwin⟩ := h k hk hq
  obtain ⟨⟨k'', hk'', hf'⟩, hgrants', hdies', hwin'⟩ := g k' hk' (Coll.quiet_of_follows hf hq)
  exact ⟨⟨k'', hk'', Coll.follows_trans hf hf'⟩, hgrants'.trans hgrants, hdies'.trans hdies, hwin'.trans hwin⟩

theorem leavesWaiting.ite {s a b : State} (p : Prop) [Decidable p] (ha : leavesWaiting s a) (hb : leavesWaiting s b) :
    leavesWaiting s (if p then a else b) := by
  split <;> assumption

theorem leavesWaiting.foldl {α : Type} (f : State → α → State) (h : ∀ s x, leavesWaiting s (f s x)) (l : List α) (s : State) :
    leavesWaiting s (l.foldl f s) := by
  induction l generalizing s with
  | nil => exact .refl s
  | cons x l ih => exact (h s x).trans (ih _)

theorem leavesWaiting.of_eq {s t : State} (hactive : t.coll.active = s.coll.active) (hgrants : t.coll.grants = s.coll.grants)
    (hdies : t.dies = s.dies) (hwin : windows t = windows s) : leavesWaiting s t :=
  fun k hk _ => ⟨⟨k, hactive.trans hk, k.follows_refl⟩, hgrants, hdies, hwin⟩

theorem leavesWaiting_rsEvent (s : State) (off bit : Nat) : leavesWaiting s (rsEvent s off bit) := by
  have hframe : changesOnly [.out, .rs, .host] s (rsEvent s off bit) := rsEvent_frame (by decide) s off bit
  have hcoll : (rsEvent s off bit).coll = s.coll := hframe.coll (by decide)
  exact .of_eq (by rw [hcoll]) (by rw [hcoll]) (hframe.dies (by decide)) (windows_rsEvent _ _ _)

theorem leavesWaiting_sendPkt (s : State) (p : Packet) : leavesWaiting s (sendPkt s p) := by
  have hframe : changesOnly [.out, .regs, .rs, .host, .fab] s (sendPkt s p) := sendPkt_frame (by decide) s p
  have hcoll : (sendPkt s p).coll = s.coll := hframe.coll (by decide)
  exact .of_eq (by rw [hcoll]) (by rw [hcoll]) (hframe.dies (by decide)) (windows_sendPkt _ _)

theorem leavesWaiting_updColl (s : State) (d : Die) (i : Nat) {f : Coll → Coll} (hf : ∀ k : Coll, k.follows (f k)) :
    leavesWaiting s (updColl s d i f) := by
  intro k hk _
  refine ⟨⟨_, congrArg (List.map _) hk, ?_⟩, rfl, rfl, windows_of_regs rfl⟩
  dsimp only
  split
  · exact hf k
  · exact k.follows_refl

theorem leavesWaiting_updRound (s : State) (d : Die) (i n : Nat) {f : CollRound → CollRound} (hf : ∀ r : CollRound, r.follows (f r)) :
    leavesWaiting s (updRound s d i n f) := by
  refine leavesWaiting_updColl s d i fun k => ⟨rfl, rfl, rfl, rfl, rfl, ?_⟩
  refine List.forall₂_map_right_iff.mpr (List.forall₂_same.mpr fun r _ => ?_)
  split
  · exact hf r
  · exact r.follows_refl

theorem leavesWaiting_retime (s : State) : leavesWaiting s (retime s) := by
  refine .foldl _ (fun s k => ?_) _ s
  unfold retimeColl
  extract_lets dt now coll stretched noted
  have hstretched : leavesWaiting s stretched := .ite _ (.of_eq rfl rfl rfl (windows_of_regs rfl)) (.refl s)
  have hnoted : leavesWaiting s noted := .ite _ (hstretched.trans (leavesWaiting_rsEvent _ _ _)) hstretched
  exact hnoted.trans (leavesWaiting_updColl noted _ _ fun k => ⟨rfl, rfl, rfl, rfl, rfl, forall₂_follows_refl _⟩)

theorem leavesWaiting_sendGrants (s : State) (k : Coll) (r : CollRound) : leavesWaiting s (sendGrants s k r) := by
  refine (leavesWaiting_updRound s _ _ _ (by exact fun r => ⟨rfl, rfl, rfl, rfl, rfl, fun _ => rfl⟩)).trans (.foldl _ (fun s x => ?_) _ _)
  split
  · exact .refl s
  · exact leavesWaiting_sendPkt _ _

/-- A round of a quiet collective takes no packet further. -/
theorem leavesWaiting_workRound (d : Die) (i n : Nat) (s : State) : leavesWaiting s (workRound d i n s) := by
  intro k hk hq
  unfold workRound
  split
  · exact leavesWaiting.refl s k hk hq
  · rename_i k0 hfind
    obtain rfl : k0 = k := List.mem_singleton.mp (hk ▸ List.mem_of_find?_eq_some hfind)
    split
    · exact leavesWaiting.refl s k0 hk hq
    · rename_i r hr
      obtain ⟨hgranted, hacc⟩ := hq r (List.mem_of_find?_eq_some hr)
      have hsend : (r.granted && !r.sent && depDone k0 r) = false := by rw [hgranted, Bool.and_not_self, Bool.false_and]
      simp only [hsend, hacc, hfind, hr, List.filter_nil, List.foldl_nil, Bool.false_eq_true, if_false]
      refine leavesWaiting.ite _ (.refl s) (.trans (.ite _ ?_ (.refl s)) (.ite _ ?_ (.refl _))) k0 hk hq
      · exact leavesWaiting_updRound _ _ _ _ fun r => ⟨rfl, rfl, rfl, rfl, rfl, id⟩
      · exact leavesWaiting_updRound _ _ _ _ fun r => ⟨rfl, rfl, rfl, rfl, rfl, id⟩

theorem leavesWaiting_progress (d : Die) (i : Nat) (s : State) : leavesWaiting s (progress d i s) := by
  have hpass : ∀ (ns : List Nat) (s : State), leavesWaiting s (ns.foldl (fun s n => workRound d i n s) s) := fun ns =>
    .foldl _ (fun s n => leavesWaiting_workRound d i n s) ns
  have hpasses : ∀ (ns : List Nat) (m : Nat) (s : State), leavesWaiting s (loopN m (fun _ s => ns.foldl (fun s n => workRound d i n s) s) s) :=
    fun ns m => by
      induction m with
      | zero => exact .refl
      | succ m ih => exact fun s => (ih s).trans (hpass ns _)
  unfold progress
  split
  · exact .refl s
  · exact (hpasses _ _ s).trans (leavesWaiting_retime _)

/-- With no grant in hand no round is granted. -/
theorem useGrants_none {s : State} (d : Die) (i : Nat) (h : s.coll.grants = []) : useGrants d i s = s := by
  unfold useGrants
  split
  · rfl
  · refine foldl_eq_self fun r _ => ?_
    split
    · rfl
    · split
      · rfl
      · simp [h]

/-- One round's turn to send its grants. -/
def grantTurn (k : Coll) (s : State) (r : CollRound) : State :=
  match findColl s k.d k.i with
  | some k => if srcsOf r.r ≠ [] ∧ landFree s k r then sendGrants s k r else s
  | none => s

theorem launch_eq (k : Coll) (s : State) : launch k s =
    progress k.d k.i (useGrants k.d k.i (k.rounds.foldl (grantTurn k) (retime { s with coll := { s.coll with active := s.coll.active ++ [k] } }))) := rfl

theorem leavesWaiting_grantTurn (k : Coll) (s : State) (r : CollRound) : leavesWaiting s (grantTurn k s r) := by
  unfold grantTurn
  split
  · exact .ite _ (leavesWaiting_sendGrants _ _ _) (.refl s)
  · exact .refl s

/-- The state in which the engine has taken a collective. -/
def engaged (k : Coll) (s : State) : State := { s with coll := { s.coll with active := s.coll.active ++ [k] } }

/-- R191: the collective is the only one in progress, its rounds where they stood. -/
theorem launch_waiting {k : Coll} {s : State} (hidle : s.coll.active = []) (hgrants : s.coll.grants = []) (hq : k.quiet) :
    Waiting k s (launch k s) := by
  have hactive : (engaged k s).coll.active = [k] := by rw [engaged, hidle, List.nil_append]
  have hturns : leavesWaiting (engaged k s) (k.rounds.foldl (grantTurn k) (retime (engaged k s))) :=
    (leavesWaiting_retime _).trans (.foldl _ (leavesWaiting_grantTurn k) _ _)
  have hnone : (k.rounds.foldl (grantTurn k) (retime (engaged k s))).coll.grants = [] := (hturns k hactive hq).grants.trans hgrants
  rw [launch_eq, ← engaged, useGrants_none _ _ hnone]
  obtain ⟨hk, hg, hd, hw⟩ := (hturns.trans (leavesWaiting_progress k.d k.i _)) k hactive hq
  exact ⟨hk, hg, hd, hw⟩

end Sys2Proof.Machine
end

section
/-! PROOF. The issue of a collective, its faults, and the grants that arrive: CollectiveIssue (O29). -/
namespace Sys2Proof.Machine
open Sys2Proof

/-! ### The grants of a single round (R353) -/

theorem grantOut_of_follows {rs xs : List CollRound} (h : List.Forall₂ CollRound.follows rs xs) (hout : ∀ r ∈ rs, r.grantOut = true) :
    ∀ x ∈ xs, x.grantOut = true := by
  induction h with
  | nil => exact nofun
  | cons hr _ ih =>
    obtain ⟨hhead, htail⟩ := List.forall_mem_cons.mp hout
    exact List.forall_mem_cons.mpr ⟨hr.grantOut hhead, ih htail⟩

/-- The only round of the only collective finds its landing range free. -/
theorem landFree_only {s : State} {k : Coll} {r x : CollRound} (hactive : s.coll.active = [k]) (hrounds : k.rounds = [x])
    (hidx : x.idx = r.idx) : landFree s k r = true := by
  unfold landFree
  split
  · rfl
  · simp [hactive, hrounds, hidx]

/-- The state in which a round's grants are on their way. -/
def grantsOut (s : State) (k : Coll) (n : Nat) : State := updRound s k.d k.i n fun r => { r with grantOut := true }

theorem leavesWaiting_grantsOut (s : State) (k : Coll) (r : CollRound) : leavesWaiting (grantsOut s k r.idx) (sendGrants s k r) := by
  refine .foldl _ (fun s x => ?_) _ _
  split
  · exact .refl s
  · exact leavesWaiting_sendPkt _ _

/-- R353: the only round of the only collective grants where it has sources. -/
theorem launch_grants {k : Coll} {s : State} {r : CollRound} (hidle : s.coll.active = []) (hgrants : s.coll.grants = []) (hq : k.quiet)
    (hrounds : k.rounds = [r]) (hsrcs : srcsOf r.r ≠ []) :
    ∃ k', (launch k s).coll.active = [k'] ∧ ∀ x ∈ k'.rounds, x.grantOut = true := by
  have hactive : (engaged k s).coll.active = [k] := by rw [engaged, hidle, List.nil_append]
  obtain ⟨⟨k1, hk1, hf1⟩, hg1, -, -⟩ := leavesWaiting_retime (engaged k s) k hactive hq
  have hq1 := Coll.quiet_of_follows hf1 hq
  obtain ⟨x, hx, hrx⟩ : ∃ x, k1.rounds = [x] ∧ r.follows x := by
    have h := hf1.rounds
    rw [hrounds] at h
    obtain ⟨x, xs, hrx, hnil, hx⟩ := List.forall₂_cons_left_iff.mp h
    exact ⟨x, by rw [hx, List.forall₂_nil_left_iff.mp hnil], hrx⟩
  have hturn : grantTurn k (retime (engaged k s)) r = sendGrants (retime (engaged k s)) k1 r := by
    have hfind : findColl (retime (engaged k s)) k.d k.i = some k1 := by rw [← hf1.d, ← hf1.i]; exact findColl_of_active hk1
    simp only [grantTurn, hfind]
    exact if_pos ⟨hsrcs, landFree_only hk1 hx hrx.idx⟩
  have hout : (grantsOut (retime (engaged k s)) k1 r.idx).coll.active = [{ k1 with rounds := [{ x with grantOut := true }] }] := by
    simp [grantsOut, updRound, updColl, hk1, hx, hrx.idx]
  have hqout : Coll.quiet { k1 with rounds := [{ x with grantOut := true }] } := by
    rw [Coll.quiet, hx] at hq1
    exact fun y hy => by
      rw [List.mem_singleton.mp hy]
      exact hq1 x (List.mem_singleton_self x)
  obtain ⟨⟨k2, hk2, hf2⟩, hg2, -, -⟩ := leavesWaiting_grantsOut (retime (engaged k s)) k1 r _ hout hqout
  have hnone : (sendGrants (retime (engaged k s)) k1 r).coll.grants = [] := hg2.trans (hg1.trans hgrants)
  obtain ⟨⟨k3, hk3, hf3⟩, -, -, -⟩ := leavesWaiting_progress k.d k.i _ k2 hk2 (Coll.quiet_of_follows hf2 hqout)
  refine ⟨k3, ?_, grantOut_of_follows (forall₂_follows_trans hf2.rounds hf3.rounds) (by simp)⟩
  rw [launch_eq, ← engaged, hrounds, List.foldl_cons, List.foldl_nil, hturn, useGrants_none _ _ hnone, hk3]

/-! ### Issue (R191) -/

/-- A COLLECTIVE row and its OP. -/
def collRows : List ((Die → Sid → Instr) × Nat) :=
  [(.reduceScatter, 0), (.allGather, 1), (.allReduce, 2), (.allToAll, 3), (.guardOr, 4)]

theorem exec_collRow {p : (Die → Sid → Instr) × Nat} (hp : p ∈ collRows) (s : State) (d : Die) (c : Sid) :
    exec (p.1 d c) s = .next (doCollective p.2 d c s) := by
  simp only [collRows, List.mem_cons, List.not_mem_nil, or_false] at hp
  rcases hp with rfl | rfl | rfl | rfl | rfl <;> rfl

/-- A COLLECTIVE of a T stream issues through `runColl`; there is no recompute to note. -/
theorem exec_collective {p : (Die → Sid → Instr) × Nat} (hp : p ∈ collRows) {s : State} {d : Die} {w : BitVec 512}
    (h : issuing s d .t 6 w) (hop : cOp w = p.2) : exec (p.1 d .t) s = .next (runColl d .t w s) := by
  have hrecompute : ∀ t : State, issueNoted s d .t w t = t := fun t => by
    have hstream : ¬ (Sid.t = Sid.b ∧ dGate w = 1) := fun h => nomatch h.1
    rw [issueNoted, noteRecompute, if_neg hstream, ite_self]
  have hissue := issueAs_issuing (p := fun w => decide (cOp w = p.2)) (runColl d .t) h (decide_eq_true hop)
  rw [exec_collRow hp, doCollective, tCollective, hissue, hrecompute]

/-- The collective that a descriptor starts. -/
def collOf (s : State) (d : Die) (w : BitVec 512) (rs : List CollRound) : Coll :=
  { d := d, i := (str s d .t).nextId, desc := w, att := (str s d .t).attempt, rounds := rs
    record := if cGuard w then guardRecord s (str s d .t).attempt else []
    timed := decide (cTimeout w ≠ 0), left4 := cTimeout w * 4000, since := s.clk
    pass2 := decide (verdictOf s (str s d .t).attempt = some .clear) }

/-- The state in which the descriptor has issued and is in progress. -/
def collStarted (s : State) (d : Die) (w : BitVec 512) (rs : List CollRound) : State :=
  noteReds (startDesc s d .t (entryOf (str s d .t) .collective w)) (str s d .t).attempt w rs

theorem runColl_go {s u : State} {d : Die} {w : BitVec 512} {rs : List CollRound} (hrs : roundsOf s w = some rs) (hranks : ranksOk s rs = true)
    (hroom : inUnit (str s d .t) .collective < 4) (hprep : prepare s (str s d .t) w rs = (.go, u)) :
    runColl d .t w s = launch (collOf u d w rs) (collStarted u d w rs) := by
  simp only [runColl, hrs, hranks, hprep, Bool.not_true, Bool.false_eq_true, if_false, if_neg (Nat.not_le.mpr hroom)]
    <;> rfl

theorem runColl_full {s : State} {d : Die} {w : BitVec 512} {rs : List CollRound} (hrs : roundsOf s w = some rs) (hranks : ranksOk s rs = true)
    (hfull : 4 ≤ inUnit (str s d .t) .collective) : runColl d .t w s = waitUnit s d .t false := by
  simp only [runColl, hrs, hranks, Bool.not_true, Bool.false_eq_true, if_false, if_pos hfull]

/-- The rounds of a descriptor begin quiet, and count as sent where they send nothing. -/
theorem roundsOf_fresh {s : State} {w : BitVec 512} {rs : List CollRound} (h : roundsOf s w = some rs) :
    ∀ r ∈ rs, r.granted = r.sent ∧ r.sent = !(sends r.r) ∧ r.acc = [] := by
  unfold roundsOf at h
  split at h
  · cases h
  · split at h
    · cases h
      intro r hr
      obtain ⟨x, -, rfl⟩ := List.mem_map.mp hr
      exact ⟨rfl, rfl, rfl⟩
    · cases h

theorem collStarted_changesOnly (s : State) (d : Die) (w : BitVec 512) (rs : List CollRound) :
    changesOnly [.regs, .dies, .upd] s (collStarted s d w rs) := by simp [changesOnly, collStarted]

/-- The stream has moved on, with the collective in progress. -/
theorem str_collStarted (s : State) (d : Die) (w : BitVec 512) (rs : List CollRound) :
    str (collStarted s d w rs) = str (startDesc s d .t (entryOf (str s d .t) .collective w)) :=
  str_congr (changesOnly.dies (ks := [.upd]) (noteReds_frame (by decide) _ _ _ _) (by decide))

theorem str_startDesc_self (s : State) (d : Die) (c : Sid) (e : InFlight) : str (startDesc s d c e) d c =
    { str (issued s d c) d c with inflight := (str s d c).inflight ++ [e], nextId := (str s d c).nextId + 1, fabricWait := false } := by
  rw [startDesc, str_updStr_self, str_issued_self]

theorem otherStreams_startDesc (s : State) (d : Die) (c : Sid) (e : InFlight) : otherStreams d c s (startDesc s d c e) :=
  (otherStreams_issued s d c).trans (otherStreams_updStr _ d c _)

theorem movedOn_startDesc (s : State) (d : Die) (c : Sid) (e : InFlight) : movedOn d c s (startDesc s d c e) := by
  obtain ⟨hpc, hexpect, hcur, hwait, hreg⟩ := movedOn_issued s d c
  have hcount : reg64 (startDesc s d c e) = reg64 (issued s d c) := by rw [startDesc, reg64_updStr]
  rw [movedOn, str_startDesc_self, hcount]
  exact ⟨hpc, hexpect, hcur, hwait, hreg⟩

/-- What shows whether a stream has moved on: itself, and the registers of the windows. -/
theorem movedOn_congr {s t u : State} {d : Die} {c : Sid} (hstr : str u d c = str t d c) (hwin : windows u = windows t) (h : movedOn d c s t) :
    movedOn d c s u := by
  rw [movedOn, hstr, reg64_of_windows hwin]
  exact h

theorem map_round_of_follows {rs xs : List CollRound} (h : List.Forall₂ CollRound.follows rs xs) : xs.map (·.r) = rs.map (·.r) := by
  induction h with
  | nil => rfl
  | cons hr _ ih => rw [List.map_cons, List.map_cons, hr.round, ih]

theorem sent_of_follows {rs xs : List CollRound} (h : List.Forall₂ CollRound.follows rs xs) (hsent : ∀ r ∈ rs, r.sent = !(sends r.r)) :
    ∀ x ∈ xs, x.sent = !(sends x.r) := by
  induction h with
  | nil => exact nofun
  | cons hr _ ih =>
    obtain ⟨hhead, htail⟩ := List.forall_mem_cons.mp hsent
    exact List.forall_mem_cons.mpr ⟨by rw [hr.sent, hr.round, hhead], ih htail⟩

/-- R191: the descriptor issues, and its collective stays in progress. -/
theorem collective_issues {s u : State} {d : Die} {w : BitVec 512} {rs : List CollRound} (hrs : roundsOf s w = some rs)
    (hprep : prepare s (str s d .t) w rs = (.go, u)) (hidle : s.coll.active = []) (hgrants : s.coll.grants = []) :
    movedOn d .t u (launch (collOf u d w rs) (collStarted u d w rs)) ∧
    (str (launch (collOf u d w rs) (collStarted u d w rs)) d .t).inflight = (str u d .t).inflight ++ [entryOf (str u d .t) .collective w] ∧
    (∃ k, (launch (collOf u d w rs) (collStarted u d w rs)).coll.active = [k] ∧ k.d = d ∧ k.i = (str u d .t).nextId ∧ k.desc = w ∧
      k.att = (str u d .t).attempt ∧ k.timed = decide (cTimeout w ≠ 0) ∧ k.rounds.map (·.r) = rs.map (·.r) ∧
      (∀ r ∈ k.rounds, r.sent = !(sends r.r)) ∧ (∀ r, rs = [r] → srcsOf r.r ≠ [] → ∀ x ∈ k.rounds, x.grantOut = true)) ∧
    otherStreams d .t u (launch (collOf u d w rs) (collStarted u d w rs)) := by
  have hprepared : changesOnly [.out, .regs, .rs, .host, .step, .maq, .img, .upd, .mem, .flash] s u := by
    have hframe := prepare_frame (K := fun c => decide (c ∈ [.out, .regs, .rs, .host, .step, .maq, .img, .upd, .mem, .flash])) (by decide)
      s (str s d .t) w rs
    rwa [hprep] at hframe
  have hcoll : (collStarted u d w rs).coll = s.coll :=
    ((collStarted_changesOnly u d w rs).coll (by decide)).trans (hprepared.coll (by decide))
  have hfresh := roundsOf_fresh hrs
  have hquiet : (collOf u d w rs).quiet := fun r hr => ⟨(hfresh r hr).1, (hfresh r hr).2.2⟩
  have hidle' : (collStarted u d w rs).coll.active = [] := by rw [hcoll, hidle]
  have hgrants' : (collStarted u d w rs).coll.grants = [] := by rw [hcoll, hgrants]
  obtain ⟨⟨k, hk, hfollows⟩, -, hdies, hwin⟩ := launch_waiting hidle' hgrants' hquiet
  have hstr : str (launch (collOf u d w rs) (collStarted u d w rs)) = str (startDesc u d .t (entryOf (str u d .t) .collective w)) :=
    (str_congr hdies).trans (str_collStarted u d w rs)
  have hreds : windows (collStarted u d w rs) = windows (startDesc u d .t (entryOf (str u d .t) .collective w)) :=
    windows_of_frame (noteReds_frame (by decide) _ _ _ _)
  refine ⟨movedOn_congr (by rw [hstr]) (hwin.trans hreds) (movedOn_startDesc _ _ _ _), ?_, ⟨k, hk, hfollows.d, hfollows.i, hfollows.desc,
    hfollows.att, hfollows.timed, map_round_of_follows hfollows.rounds, sent_of_follows hfollows.rounds fun r hr => (hfresh r hr).2.1, ?_⟩, ?_⟩
  · rw [hstr, str_startDesc_self]
  · rintro r rfl hsrcs
    obtain ⟨k', hk', hout⟩ := launch_grants hidle' hgrants' hquiet rfl hsrcs
    rw [hk] at hk'
    rwa [List.singleton_inj.mp hk']
  · exact (otherStreams_startDesc u d .t _).trans (otherStreams_of_str hstr)

/-! ### Faults (R191, R296) -/

/-- A descriptor fault in a step body poisons its stream and is shown (R203). -/
theorem curFault_inStep {s : State} {d : Die} {c : Sid} {bit : Nat} (w : BitVec 512) (h : inStep s d c) (hbit : bit < 24) :
    Onward s (curFault s d c bit w) ∧ Faulted d c bit (curFault s d c bit w) := by
  obtain ⟨hprologue, hpoison, hp2⟩ := h
  rw [curFault, descFault, hprologue, hpoison]
  obtain ⟨honward, hfaulted, -⟩ := faultAs_spec (dType w) (str s d c).expect (str s d c).pc (dLayer w) hp2 hbit
  exact ⟨honward, hfaulted⟩

theorem fabErr_changesOnly (s : State) (bit : Nat) (p : Packet) (ch : Option Chan) :
    changesOnly [.out, .regs, .rs, .host] s (fabErr s bit p ch) := by simp [changesOnly, fabErr]

theorem rsReg_fabErr_bit (s : State) {bit : Nat} (p : Packet) (ch : Option Chan) (h : bit < 24) :
    (rsReg (fabErr s bit p ch) rFabErr).ev.getLsbD bit = true := by
  unfold fabErr
  exact rsReg_rsEvent_bit _ _ _ h

/-- R296: a rank outside the job is NO_RANK of the fabric, and DESC_REF of the stream. -/
theorem noRank_faults {s : State} {d : Die} {c : Sid} (w : BitVec 512) (p : Packet) (h : inStep s d c) :
    Faulted d c fRef (curFault (fabErr s 1 p none) d c fRef w) ∧
      (rsReg (curFault (fabErr s 1 p none) d c fRef w) rFabErr).ev.getLsbD 1 = true := by
  have hstr : str (fabErr s 1 p none) = str s := str_congr ((fabErr_changesOnly s 1 p none).dies (by decide))
  have hstep : inStep (fabErr s 1 p none) d c := by rw [inStep, hstr]; exact h
  obtain ⟨honward, hfaulted⟩ := curFault_inStep w hstep (bit := fRef) (by decide)
  exact ⟨hfaulted, honward.logged.events _ _ (rsReg_fabErr_bit s p none (by decide))⟩

/-! ### Grants that arrive (R353) -/

theorem fab_noteArrival (s : State) (p : Packet) (ch : Chan) :
    (noteArrival s p ch).fab = { s.fab with links := (noteArrival s p ch).fab.links } := rfl

/-- A packet that meets no check is dealt with by its unit, and leaves the receive pool. -/
theorem arrive_accepted {s : State} {ty : BitVec 6} {p : Packet} {ch : Chan} (run : State → State) (h : accepted s ty p ch) :
    arrive ty p ch run s = freeCredit (run (noteArrival s p ch)) ch (pktVc p) (flits p) := by
  obtain ⟨htype, hquar, hshape, hage, hepoch, hown, hep, hcrc⟩ := h
  have hage' : tooOld (noteArrival s p ch) p = false := by rw [tooOld, fab_noteArrival]; exact hage
  have hepoch' : epochOk (noteArrival s p ch) p.epoch = true := by rw [epochOk, fab_noteArrival]; exact hepoch
  have hown' : p.dstMod = (noteArrival s p ch).fab.modId ∨ (p.cls = clMgmt ∧ p.scope ≠ 0) := by rw [fab_noteArrival]; exact hown
  have hend : atEnd p ch run (noteArrival s p ch) = run (noteArrival s p ch) := by
    simp [atEnd, hshape, hep, hage', hepoch', hcrc]
  have hopen : ¬ (p.type ≠ ty ∨ ((link s ch).quar ≠ 0 ∧ ty ≠ ptHello)) := by
    rintro (hne | ⟨hq, hh⟩)
    · exact hne htype
    · exact hquar.elim hq hh
  simp only [arrive, if_neg hopen, hown', decide_true, Bool.not_true, Bool.and_false, Bool.false_eq_true, if_false, hend]

theorem noteArrival_changesOnly (s : State) (p : Packet) (ch : Chan) : changesOnly [.out, .regs, .fab] s (noteArrival s p ch) :=
  noteArrival_frame (by decide) s p ch

theorem regs_noteArrival (s : State) (p : Packet) (ch : Chan) : (noteArrival s p ch).regs = (addReg64 s rRxFlits (flits p)).regs := rfl

/-- How far a tag lies does not depend on the link. -/
theorem tagDist_noteArrival (s : State) (p : Packet) (ch : Chan) (tag : Half) : tagDist (noteArrival s p ch) tag = tagDist s tag := by
  have hframe := noteArrival_changesOnly s p ch
  have hstep : (noteArrival s p ch).step = s.step := hframe.step (by decide)
  have himg : (noteArrival s p ch).img = s.img := hframe.img (by decide)
  have hupd : (noteArrival s p ch).upd = s.upd := hframe.upd (by decide)
  have hreg : reg64 (noteArrival s p ch) rSyncAttempt = reg64 s rSyncAttempt := by
    rw [← reg64_addReg64_ne s (o := rRxFlits) (p := rSyncAttempt) (flits p) (by decide)]
    simp only [reg64, reg, regs_noteArrival]
  simp only [tagDist, liveTag, ownAttempt, hstep, himg, hupd, hreg] <;> rfl

/-- A grant of the module's own attempt, or of the one after, is kept. -/
theorem takeGrant_kept {s : State} {p : Packet} (hdist : tagDist s p.txn = 0 ∨ tagDist s p.txn = 1) (hidle : s.coll.active = []) :
    takeGrant p s = { s with coll := { s.coll with grants := s.coll.grants ++ [(fld p.addr 59 48, fld p.addr 47 40, p.srcMod, p.txn)] } } := by
  have hlive : ¬ (tagDist s p.txn ≠ 0 ∧ tagDist s p.txn ≠ 1) := fun ⟨h0, h1⟩ => hdist.elim h0 h1
  simp only [takeGrant, if_neg hlive, progressAll, hidle, List.foldl_nil]

theorem takeGrant_stale {s : State} {p : Packet} (h0 : tagDist s p.txn ≠ 0) (h1 : tagDist s p.txn ≠ 1) : takeGrant p s = stale s :=
  if_pos ⟨h0, h1⟩

theorem exec_collGrant (p : Packet) (ch : Chan) (s : State) : exec (.collGrant p ch) s = .next (arrive ptCollGrant p ch (takeGrant p) s) := rfl

/-- R353: the grant is kept for the round that it names. -/
theorem collGrant_kept {s : State} {p : Packet} {ch : Chan} (h : accepted s ptCollGrant p ch)
    (hdist : tagDist s p.txn = 0 ∨ tagDist s p.txn = 1) (hidle : s.coll.active = []) :
    ∃ t, exec (.collGrant p ch) s = .next t ∧
      t.coll.grants = s.coll.grants ++ [(fld p.addr 59 48, fld p.addr 47 40, p.srcMod, p.txn)] ∧ t.coll.active = [] ∧
      changesOnly [.regs, .fab, .out, .coll] s t := by
  have hcoll : (noteArrival s p ch).coll = s.coll := (noteArrival_changesOnly s p ch).coll (by decide)
  have htake := takeGrant_kept (s := noteArrival s p ch) (p := p) (by rwa [tagDist_noteArrival]) (by rw [hcoll, hidle])
  have hfree := changesOnly.coll (ks := [.out, .fab]) (freeCredit_frame (by decide) (takeGrant p (noteArrival s p ch)) ch (pktVc p) (flits p))
    (by decide)
  rw [exec_collGrant, arrive_accepted _ h]
  refine ⟨_, rfl, ?_, ?_, ?_⟩
  · rw [hfree, htake, hcoll]
  · rw [hfree, htake, hcoll, hidle]
  · rw [htake]
    simp [changesOnly]

theorem regs_rsEvent (s : State) (off bit : Nat) : (rsEvent s off bit).regs = s.regs :=
  changesOnly.regs (ks := [.out, .rs, .host]) (rsEvent_frame (by decide) s off bit) (by decide)

/-- One of any other attempt is counted. -/
theorem stale_spec (s : State) : reg (stale s) rCollStale = reg s rCollStale + 1 ∧ (rsReg (stale s) rCollErr).ev.getLsbD 3 = true := by
  constructor
  · rw [stale, reg, regs_rsEvent, ← reg, addReg, reg_setReg_self]
    rfl
  · unfold stale
    exact rsReg_rsEvent_bit _ _ _ (by decide)

/-- R353: a stale grant is counted and dropped. -/
theorem collGrant_stale {s : State} {p : Packet} {ch : Chan} (h : accepted s ptCollGrant p ch) (h0 : tagDist s p.txn ≠ 0)
    (h1 : tagDist s p.txn ≠ 1) :
    ∃ t, exec (.collGrant p ch) s = .next t ∧ reg t rCollStale = reg s rCollStale + 1 ∧ (rsReg t rCollErr).ev.getLsbD 3 = true ∧
      t.coll = s.coll ∧ changesOnly [.regs, .rs, .host, .fab, .out] s t := by
  have htake : takeGrant p (noteArrival s p ch) = stale (noteArrival s p ch) :=
    takeGrant_stale (by rwa [tagDist_noteArrival]) (by rwa [tagDist_noteArrival])
  obtain ⟨hcount, hnoted⟩ := stale_spec (noteArrival s p ch)
  have hfree : changesOnly [.out, .fab] (stale (noteArrival s p ch)) (freeCredit (stale (noteArrival s p ch)) ch (pktVc p) (flits p)) :=
    freeCredit_frame (by decide) _ _ _ _
  have hall : changesOnly [.regs, .rs, .host, .fab, .out] s (freeCredit (stale (noteArrival s p ch)) ch (pktVc p) (flits p)) := by
    simp [changesOnly, stale]
  have hregs : (freeCredit (stale (noteArrival s p ch)) ch (pktVc p) (flits p)).regs = (stale (noteArrival s p ch)).regs := hfree.regs (by decide)
  rw [exec_collGrant, arrive_accepted _ h, htake]
  refine ⟨_, rfl, ?_, ?_, hall.coll (by decide), hall⟩
  · rw [reg, hregs, ← reg, hcount, reg, regs_noteArrival, ← reg, reg_addReg64_ne s (flits p) (by decide) (by decide)]
  · rw [rsReg_congr (hfree.rs (by decide)), hnoted]

theorem tagDist_live {s : State} {tag : Half} (h : ∃ a ∈ s.step.attempts, a.recorded = false ∧ a.att.setWidth 16 = tag) : tagDist s tag = 0 := by
  obtain ⟨a, ha, hopen, htag⟩ := h
  refine if_pos (List.any_eq_true.mpr ⟨a, ha, ?_⟩)
  rw [hopen, htag, decide_eq_true rfl]
  rfl

/-- Settles O29: the engine takes the descriptor as its only collective, which waits for grants; a grant that arrives is kept or dropped by
its tag. -/
theorem collectiveIssue : Obligations.CollectiveIssue := by
  refine ⟨⟨?_, ?_, ?_⟩, fun s p ch => collGrant_kept, fun s p ch => collGrant_stale, ?_⟩
  · intro p hp s d w rs u h hop hrs hranks hroom hprep hidle hgrants
    rw [exec_collective hp h hop, runColl_go hrs hranks hroom hprep]
    exact ⟨_, rfl, collective_issues hrs hprep hidle hgrants⟩
  · intro p hp s d w rs h hop hrs hranks hfull
    rw [exec_collective hp h hop, runColl_full hrs hranks hfull]
    exact ⟨_, rfl, str_updStr_self _ _ _ _, otherStreams_updStr _ _ _ _, updStr_frame (by decide) _ _ _ _⟩
  · intro p hp s d w h hop hstep _
    rw [exec_collective hp h hop]
    refine ⟨fun hnone => ?_, fun rs hrs hranks => ?_⟩
    · obtain ⟨-, hpoison, hnoted⟩ := curFault_inStep w hstep (bit := fField) (by decide)
      refine ⟨_, rfl, ?_⟩
      rw [runColl, hnone]
      exact ⟨hpoison, hnoted⟩
    · obtain ⟨⟨hpoison, hnoted⟩, hrank⟩ := noRank_faults w (blankPkt s ptCollData 0 0 (BitVec.ofNat 5 d.val)) hstep
      refine ⟨_, rfl, ?_⟩
      simp only [runColl, hrs, hranks, Bool.not_false, if_true]
      exact ⟨hpoison, hnoted, hrank⟩
  · intro s p ch h hidle hlive
    obtain ⟨t, hexec, hkept, -, -⟩ := collGrant_kept h (.inl (tagDist_live hlive)) hidle
    exact ⟨t, hexec, hkept ▸ List.mem_append_right _ (List.mem_singleton_self _)⟩

end Sys2Proof.Machine
end

section
/-! PROOF. COLL_DATA at the endpoint of another die (R295, R326): the refutation of FabricFlows (O32).

The clause of the packet that completes a round does not ask for the endpoint of the packet. A round belongs to a die, and data at
the endpoint of another die belongs to no round: it is taken in its turn and lands nothing. -/
namespace Sys2Proof.Machine
open Sys2Proof

/-- A round that receives four FP32 numbers from rank 2. -/
def strayRound : CollRound :=
  { idx := 0, sent := true, got := [0]
    r := { peer := 2, axis := 1, pos := 0, sendOff := 0, sendLen := 0, landOff := 0, landLen := 4, redop := 0, wire := 1, result := 1,
           dep := none, sources := [], ep := 0, sendDst := false, srcFmt := 1, hasLocal := false, localDst := false, localOff := 0,
           localFmt := 1 } }

/-- The collective of die 0 that waits for it. -/
def strayColl : Coll := { d := 0, i := 1, desc := 0, att := 7, rounds := [strayRound] }

/-- The data of that round, from the module of rank 2, at the endpoint of die 5. -/
def strayHead : Packet :=
  { type := ptCollData, scope := 0, cls := clColl, relief := false, epoch := 0, retx := false, new := false, dateline := false, fmt := 1,
    dstMod := 0x40, srcMod := 0x41, dstEp := 5, srcEp := 0, hops := 0, jobId := 1, fseq := 1, age := 0, addr := 0, txn := 7, lsn := 0,
    crc := 0, payload := List.replicate 64 0 }

/-- The same with its CRC. -/
def strayData : Packet := { strayHead with crc := BitVec.ofNat 32 (pktCrc strayHead) }

/-- The flow of that packet, which stands before it. -/
def strayFlow : DstFlow := { srcMod := 0x41, srcEp := 0, dstEp := 5, vc := 4, point := 0, last := 0 }

/-- A module that runs a job of two ranks, with that collective alone in progress. -/
def strayJob : State :=
  { State.reset with
    mem := { st := Vector.replicate 24 { inService := true } }
    fab := { modId := 0x40, dst := [strayFlow] }
    img := { st := .running, jobId := 1, ranks := [(1, 0x40), (2, 0x41)] }
    step := { attempts := [{ att := 7, step := 3 }] }
    coll := { active := [strayColl] } }

theorem accepted_strayData : accepted strayJob ptCollData strayData ⟨0, 0, 0⟩ := by unfold accepted; decide +kernel

theorem inTurn_strayData : inTurn strayJob strayData := ⟨strayFlow, by decide +kernel⟩

/-- The round lands on the first sixteen bytes of module memory. -/
theorem strayRange : cDst strayColl.desc + elemOff strayRound.r.result strayRound.r.landOff = 0 ∧
    packedBytes strayRound.r.result strayRound.r.landLen = 16 := by decide +kernel

theorem clean_strayRange : cleanRange strayJob.mem 0 16 := by unfold cleanRange; decide +kernel

theorem distinct_strayRange : distinctBytes strayJob.mem 0 16 := by
  have hphys : ∀ i, i < 16 → phys strayJob.mem (0 + i) = some i := by decide +kernel
  intro i j hi hj h
  rw [hphys i hi, hphys j hj] at h
  exact Option.some.inj h

theorem exec_collData (p : Packet) (ch : Chan) (s : State) : exec (.collData p ch) s = .next (doCollData p ch s) := rfl

/-- No round takes the packet (`dataRound`), so the collective is as before when the packet has had its turn. -/
theorem active_strayJob : (doCollData strayData ⟨0, 0, 0⟩ strayJob).coll.active = [strayColl] := by decide +kernel

/-- Refutes O32: data at the endpoint of a die that does not own the round completes nothing. -/
theorem not_fabricFlows : ¬ Obligations.FabricFlows := by
  intro h
  obtain ⟨-, -, -, -, -, hround, -⟩ := h
  obtain ⟨hstart, hlen⟩ := strayRange
  obtain ⟨t, k, r, hexec, hactive, hrounds, hfin, -⟩ := hround strayJob strayData ⟨0, 0, 0⟩ strayColl strayRound 2 accepted_strayData
    inTurn_strayData (by decide +kernel) (by decide +kernel) rfl rfl (by decide +kernel) (by decide +kernel) (by decide +kernel) (by decide +kernel)
    (by decide +kernel) (by decide +kernel) rfl rfl rfl (by decide +kernel) (by decide +kernel) (by decide +kernel) rfl rfl
    (by decide +kernel) (by decide +kernel) rfl (by decide) rfl (by decide +kernel)
    (by rw [hstart, hlen]; exact clean_strayRange) (by rw [hstart, hlen]; exact distinct_strayRange)
  rw [exec_collData] at hexec
  injection hexec with ht
  rw [← ht, active_strayJob] at hactive
  obtain rfl : strayColl = k := List.singleton_inj.mp hactive
  obtain rfl : strayRound = r := List.singleton_inj.mp hrounds
  cases hfin

end Sys2Proof.Machine
end

section
/-! PROOF. Waits that end (R218, R230): what the slot or the stream of a waiter shows, and what else changes. -/
namespace Sys2Proof.Machine
open Sys2Proof

/-! ### A slot that ends -/

/-- The word that a slot's status register takes. -/
def hwStatWord (status : Nat) (o : SyncObj) : Word :=
  w32 (status * 2 ^ 28 + (if status = stObjError then o.cause.toNat else 0) * 2 ^ 24 + o.gen.toNat)

theorem regs_msixDue (s : State) (v : Nat) : (msixDue s v).regs = s.regs :=
  changesOnly.regs (ks := [.out, .host]) (msixDue_frame (by decide) s v) (by decide)

/-- Of the registers, a slot that ends writes its own two. -/
theorem regs_endSlot (s : State) (n : Fin 1024) (status : Nat) (o : SyncObj) : (endSlot s n status o).regs =
    (setFld (setReg s (rHwStat + 16 * n.val) (hwStatWord status o)) (rHwObj + 16 * n.val) 31 31 0).regs := by
  unfold endSlot
  dsimp only
  split
  · rfl
  · exact regs_msixDue _ _

theorem reg_endSlot_stat (s : State) (n : Fin 1024) (status : Nat) (o : SyncObj) :
    reg (endSlot s n status o) (rHwStat + 16 * n.val) = hwStatWord status o := by
  have hne : rHwStat + 16 * n.val ≠ rHwObj + 16 * n.val := by simp only [rHwStat, rHwObj]; omega
  rw [reg, regs_endSlot, ← reg, setFld, reg_setReg_ne _ _ _ _ hne, reg_setReg_self]

theorem slotArmed_endSlot (s : State) (n : Fin 1024) (status : Nat) (o : SyncObj) : slotArmed (endSlot s n status o) n = false := by
  rw [slotArmed, reg, regs_endSlot, ← reg, setFld, reg_setReg_self]
  exact bitAt_putFld_31 _

theorem reg_endSlot_ne (s : State) (n : Fin 1024) (status : Nat) (o : SyncObj) {k : Nat} (hobj : k ≠ rHwObj + 16 * n.val)
    (hstat : k ≠ rHwStat + 16 * n.val) : reg (endSlot s n status o) k = reg s k := by
  rw [reg, regs_endSlot, ← reg, setFld, reg_setReg_ne _ _ _ _ hobj, reg_setReg_ne _ _ _ _ hstat]

theorem div_of_fields {a b c : Nat} (hb : b < 16) (hc : c < 65536) : (a * 2 ^ 28 + b * 2 ^ 24 + c) / 2 ^ 28 = a := by omega

/-- R218: the status stands in bits 31:28. -/
theorem fld_hwStatWord (o : SyncObj) {status : Nat} (h : status < 16) : fld (hwStatWord status o) 31 28 = status := by
  have hgen : o.gen.toNat < 65536 := o.gen.isLt
  have hcause : (if status = stObjError then o.cause.toNat else 0) < 16 := by split <;> [exact o.cause.isLt; decide]
  have hword : (hwStatWord status o).toNat = status * 2 ^ 28 + (if status = stObjError then o.cause.toNat else 0) * 2 ^ 24 + o.gen.toNat := by
    rw [hwStatWord, w32, BitVec.toNat_ofNat, Nat.mod_eq_of_lt (by omega)]
  rw [fld, BitVec.extractLsb_toNat, hword, Nat.shiftRight_eq_div_pow, div_of_fields hcause hgen]
  exact Nat.mod_eq_of_lt h

/-! ### One waiter -/

/-- What the end of the wait of `w` with status `st` does, besides the DONE signal it may make. -/
def waitEnd (s : State) (r : ObjRef) (o : SyncObj) (w : Waiter) (st : Nat) : State :=
  match w.who with
  | .slot n => endSlot s n st o
  | .stream d c => (endStreamWait (if st = stRearmed then cdSyncEvent s d 4 0 ⟨d.val, sidNat c, false⟩ (refBits r) else s) d c st).1

theorem endWaiters_cons_fst (s : State) (r : ObjRef) (o : SyncObj) (w : Waiter) (st : Nat) (ws : List (Waiter × Nat)) :
    (endWaiters s r o ((w, st) :: ws)).1 = (endWaiters (waitEnd s r o w st) r o ws).1 := by
  obtain ⟨who, take, v, deadline⟩ := w
  cases who <;> rfl

theorem str_endStreamWait_waiter (s : State) (d : Die) (c : Sid) (st : Nat) : (str (endStreamWait s d c st).1 d c).waiter = st := by
  unfold endStreamWait
  dsimp only
  split
  · rw [str_issued_self, str_updStr_self]
  · split
    · rw [str_updStr_self, str_issued_self, str_updStr_self]
    · have hdies : ∀ t : State, (stopImage t 5).dies = t.dies := fun t => changesOnly.dies (ks := [.img]) (stopImage_frame (by decide) t 5) (by decide)
      rw [str_congr (hdies _), str_updStr_self, str_updStr_self]

theorem reg_stream_end {s : State} {d : Die} {c : Sid} {st k : Nat} (h : k < 0x1000000) : reg (endStreamWait s d c st).1 k = reg s k := by
  have hissued : ∀ t : State, reg (issued t d c) k = reg t k := fun t => by
    rw [issued, reg_addReg64_ne _ _ (by simp only [cdWin, rStrIssued]; omega) (by simp only [cdWin, rStrIssued]; omega), updStr, reg_updDie]
  have hstop : ∀ t : State, (stopImage t 5).regs = t.regs := fun t => changesOnly.regs (ks := [.img]) (stopImage_frame (by decide) t 5) (by decide)
  unfold endStreamWait
  dsimp only
  split
  · exact (hissued _).trans (reg_updDie _ _ _ _)
  · split
    · exact (reg_updDie _ _ _ _).trans ((hissued _).trans (reg_updDie _ _ _ _))
    · rw [reg, hstop, ← reg, updStr, reg_updDie, updStr, reg_updDie]

theorem reg_rearmLogged {s : State} {d : Die} {c : Sid} {st ref k : Nat} (h : k < 0x1000000) :
    reg (if st = stRearmed then cdSyncEvent s d 4 0 ⟨d.val, sidNat c, false⟩ ref else s) k = reg s k := by
  split
  · rw [cdSyncEvent, reg, regs_rsEvent, ← reg, reg_setReg_ne _ _ _ _ (by simp only [cdWin, rCdSyncErrInfo]; omega)]
  · rfl

theorem str_rearmLogged (s : State) (d : Die) (c : Sid) (st ref : Nat) :
    str (if st = stRearmed then cdSyncEvent s d 4 0 ⟨d.val, sidNat c, false⟩ ref else s) = str s := by
  split
  · exact str_congr ((show changesOnly [.regs, .out, .rs, .host] s _ from cdSyncEvent_frame (by decide) _ _ _ _ _ _).dies (by decide))
  · rfl

theorem dies_endSlot (s : State) (n : Fin 1024) (st : Nat) (o : SyncObj) : (endSlot s n st o).dies = s.dies :=
  changesOnly.dies (ks := [.out, .regs, .host]) (endSlot_frame (by decide) s n st o) (by decide)

theorem waitEnd_ended (s : State) (r : ObjRef) (o : SyncObj) (w : Waiter) {st : Nat} (h : st < 16) :
    endedWith (waitEnd s r o w st) w st := by
  obtain ⟨who, take, v, deadline⟩ := w
  cases who with
  | slot n => exact ⟨(congrArg (fld · 31 28) (reg_endSlot_stat s n st o)).trans (fld_hwStatWord o h), slotArmed_endSlot s n st o⟩
  | stream d c => exact str_endStreamWait_waiter _ d c st

/-- A waiter that has ended with `st` still shows it when another ends with `st`. -/
theorem endedWith_waitEnd {s : State} {w : Waiter} {st : Nat} (r : ObjRef) (o : SyncObj) (e : Waiter) (hst : st < 16)
    (h : endedWith s w st) : endedWith (waitEnd s r o e st) w st := by
  obtain ⟨who, take, v, deadline⟩ := w
  obtain ⟨who', take', v', deadline'⟩ := e
  cases who with
  | slot n =>
    obtain ⟨hstat, harmed⟩ := h
    cases who' with
    | slot m =>
      by_cases hnm : n = m
      · subst hnm
        exact waitEnd_ended s r o ⟨.slot n, take', v', deadline'⟩ hst
      · have hval : n.val ≠ m.val := fun he => hnm (Fin.ext he)
        refine ⟨?_, ?_⟩
        · exact (congrArg (fld · 31 28) (reg_endSlot_ne s m st o (by simp only [rHwObj, rHwStat]; omega) (by omega))).trans hstat
        · exact (congrArg (bitAt · 31) (reg_endSlot_ne s m st o (by omega) (by simp only [rHwObj, rHwStat]; omega))).trans harmed
    | stream d c =>
      have hn := n.isLt
      have hreg : ∀ k, k < 0x1000000 → reg (waitEnd s r o ⟨.stream d c, take', v', deadline'⟩ st) k = reg s k := fun k hk =>
        (reg_stream_end hk).trans (reg_rearmLogged hk)
      exact ⟨(congrArg (fld · 31 28) (hreg _ (by simp only [rHwStat]; omega))).trans hstat,
        (congrArg (bitAt · 31) (hreg _ (by simp only [rHwObj]; omega))).trans harmed⟩
  | stream d c =>
    cases who' with
    | slot m => exact (congrArg Stream.waiter (congrFun (congrFun (str_congr (dies_endSlot s m st o)) d) c)).trans h
    | stream e k =>
      by_cases hek : d = e ∧ c = k
      · obtain ⟨rfl, rfl⟩ := hek
        exact str_endStreamWait_waiter _ d c st
      · have hrearm := congrFun (congrFun (str_rearmLogged s e k st (refBits r)) d) c
        exact (congrArg Stream.waiter (((waitEnded_endStreamWait _ e k st).others d c (not_and_or.mp hek)).trans hrearm)).trans h

/-- Waits that end together with one status all show it. -/
theorem endWaiters_ended {r : ObjRef} {o : SyncObj} {st : Nat} (hst : st < 16) (ws : List (Waiter × Nat)) (h : ∀ e ∈ ws, e.2 = st)
    (s : State) : ∀ w, endedWith s w st ∨ w ∈ ws.map Prod.fst → endedWith (endWaiters s r o ws).1 w st := by
  induction ws generalizing s with
  | nil => exact fun w hw => hw.resolve_right List.not_mem_nil
  | cons e ws ih =>
    obtain ⟨x, status⟩ := e
    obtain ⟨rfl, hws⟩ := List.forall_mem_cons.mp h
    intro w hw
    rw [endWaiters_cons_fst]
    refine ih hws _ w ?_
    rcases hw with hended | hw
    · exact .inl (endedWith_waitEnd r o x hst hended)
    · rcases List.mem_cons.mp hw with rfl | hw
      · exact .inl (waitEnd_ended s r o _ hst)
      · exact .inr hw

/-! ### Slots alone -/

/-- Every waiter of the list is a host-wait slot. -/
def slotEnds (ws : List (Waiter × Nat)) : Prop := ∀ e ∈ ws, ∃ n, e.1.who = .slot n

/-- The ends of slots change registers and messages alone. -/
theorem endWaiters_slots_frame {K : Comp → Bool} (hK : [.regs, .host, .out].all K = true) {r : ObjRef} {o : SyncObj}
    {ws : List (Waiter × Nat)} (h : slotEnds ws) (s : State) : (endWaiters s r o ws).1.erase K = s.erase K := by
  induction ws generalizing s with
  | nil => rfl
  | cons e ws ih =>
    obtain ⟨⟨who, take, v, deadline⟩, st⟩ := e
    obtain ⟨⟨n, hn⟩, hws⟩ := List.forall_mem_cons.mp h
    obtain rfl : who = .slot n := hn
    simp at hK
    rw [endWaiters_cons_fst, ih hws]
    exact endSlot_frame (by simp [hK]) s n st o

/-- Only a stream whose wait is DONE makes a signal. -/
theorem endWaiters_silent {r : ObjRef} {o : SyncObj} {ws : List (Waiter × Nat)} (h : ∀ e ∈ ws, (∃ n, e.1.who = .slot n) ∨ e.2 ≠ stDone)
    (s : State) : (endWaiters s r o ws).2 = [] := by
  induction ws generalizing s with
  | nil => rfl
  | cons e ws ih =>
    obtain ⟨⟨who, take, v, deadline⟩, st⟩ := e
    obtain ⟨he, hws⟩ := List.forall_mem_cons.mp h
    cases who with
    | slot n => exact ih hws _
    | stream d c =>
      have hst : st ≠ stDone := he.resolve_left fun ⟨n, hn⟩ => nomatch hn
      have hquiet : ∀ t : State, (endStreamWait t d c st).2 = [] := fun t => by
        rw [endStreamWait, if_neg hst]
        split <;> rfl
      show (endStreamWait _ d c st).2 ++ (endWaiters _ r o ws).2 = []
      rw [hquiet, ih hws]
      rfl

/-- Of the registers outside the die windows, the ends of waits write those of their slots. -/
theorem reg_endWaiters {r : ObjRef} {o : SyncObj} {k : Nat} (h : k < rHwObj) (ws : List (Waiter × Nat)) (s : State) :
    reg (endWaiters s r o ws).1 k = reg s k := by
  induction ws generalizing s with
  | nil => rfl
  | cons e ws ih =>
    obtain ⟨⟨who, take, v, deadline⟩, st⟩ := e
    rw [endWaiters_cons_fst, ih]
    simp only [rHwObj] at h
    cases who with
    | slot n => exact reg_endSlot_ne s n st o (by simp only [rHwObj]; omega) (by simp only [rHwStat]; omega)
    | stream d c => exact (reg_stream_end (by omega)).trans (reg_rearmLogged (by omega))

end Sys2Proof.Machine
end
section
/-! PROOF. O10: host writes to the sync objects (R214, R227, R229). -/
namespace Sys2Proof.Machine
open Sys2Proof

/-! ### What the arbiter does to an object that is OK -/

theorem evalWaiters_done (ws : List Waiter) (n : Nat) (blocked : Bool) : ∀ e ∈ (evalWaiters ws n blocked).2.2, e.2 = stDone := by
  induction ws generalizing n blocked with
  | nil => exact nofun
  | cons w ws ih =>
    rw [evalWaiters]
    split
    · split
      · exact List.forall_mem_cons.mpr ⟨rfl, ih _ _⟩
      · exact ih _ _
    · split
      · exact List.forall_mem_cons.mpr ⟨rfl, ih _ _⟩
      · exact ih _ _

theorem SyncObj.settle_done (o : SyncObj) : ∀ e ∈ o.settle.ended, e.2 = stDone := evalWaiters_done _ _ _

theorem SyncObj.add_room {o : SyncObj} {n : Nat} (herr : o.err = false) (hmax : o.count + n ≤ 2147483647) :
    o.add n = { o with count := o.count + n }.settle := by
  rw [SyncObj.add, if_neg (by simp [herr]), if_neg (Nat.not_lt.mpr (show _ ≤ countMax from hmax))]

theorem SyncObj.dec_room {o : SyncObj} {n : Nat} (herr : o.err = false) (h : n ≤ o.count) :
    o.dec n = { o with count := o.count - n }.settle := by
  rw [SyncObj.dec, if_neg (by simp [herr]), if_neg (Nat.not_lt.mpr h)]

theorem SyncObj.dec_beyond {o : SyncObj} {n : Nat} (herr : o.err = false) (h : o.count < n) :
    o.dec n = ⟨{ o with err := true, cause := 1, waiters := [] }, o.waiters.map (·, stObjError), true⟩ := by
  rw [SyncObj.dec, if_neg (by simp [herr]), if_pos h, SyncObj.setError, if_neg (by simp [herr])]
  rfl

/-- The slots among the waiters of an object are those that it ends. -/
theorem SyncObj.slotEnds_settle {o : SyncObj} (h : slotWaiters o) : slotEnds o.settle.ended := fun e he => h.1 _ (o.settle_within.2 e he)

theorem SyncObj.slotEnds_rearm {o : SyncObj} (h : slotWaiters o) (c : Nat) (g : Half) : slotEnds (o.rearm c g).ended := fun e he => by
  obtain ⟨w, hw, rfl⟩ := List.mem_map.mp he
  exact h.1 w hw

/-! ### What the arbiter's result does to the module -/

/-- Of the objects, only the one that the result is for is replaced. -/
theorem getObj_applyRes (s : State) (r : ObjRef) (src : Src) (res : ObjRes) :
    getObj (applyRes s r src res).1 = getObj (putObj s r res.obj) := funext fun x =>
  getObj_eq_of_marks ((marks_endWaiters _ _ _ _).trans (marks_ite _ (marks_logObjError _ _ _ _) rfl)) x

theorem getObj_applyRes_self (s : State) (r : ObjRef) (src : Src) (res : ObjRes) : getObj (applyRes s r src res).1 r = res.obj := by
  rw [getObj_applyRes, getObj_putObj_self]

theorem getObj_applyRes_ne (s : State) {i j : Fin 32768} (src : Src) (res : ObjRes) (h : j ≠ i) :
    getObj (applyRes s (.glob i) src res).1 (.glob j) = getObj s (.glob j) := by
  rw [getObj_applyRes, getObj_putObj_ne _ _ _ _ fun e => h (ObjRef.glob.inj e)]

/-- The waiters that a result ends with one status all show it. -/
theorem applyRes_ended {s : State} {r : ObjRef} {src : Src} {res : ObjRes} {st : Nat} (hst : st < 16) (h : ∀ e ∈ res.ended, e.2 = st) :
    ∀ e ∈ res.ended, endedWith (applyRes s r src res).1 e.1 st := fun _ he =>
  endWaiters_ended hst res.ended h _ _ (.inr (List.mem_map_of_mem he))

/-- A result without a new error is stored, and the waits end. -/
theorem applyRes_quiet {s : State} {r : ObjRef} {src : Src} {res : ObjRes} (hnew : res.newErr = false) :
    applyRes s r src res = endWaiters (putObj s r res.obj) r res.obj res.ended := by
  rw [applyRes, hnew]; rfl

/-- A result without a new error that ends slots alone changes registers and messages besides the object. -/
theorem applyRes_slots_frame {K : Comp → Bool} (hK : [.sync, .regs, .host, .out].all K = true) {i : Fin 32768} {src : Src} {res : ObjRes}
    (hnew : res.newErr = false) (h : slotEnds res.ended) (s : State) : (applyRes s (.glob i) src res).1.erase K = s.erase K := by
  simp at hK
  rw [applyRes_quiet hnew, endWaiters_slots_frame (by simp [hK]) h, putObj_glob_frame (by simp [hK])]

theorem applyRes_slots_silent {s : State} {i : Fin 32768} {src : Src} {res : ObjRes} (hnew : res.newErr = false) (h : slotEnds res.ended) :
    (applyRes s (.glob i) src res).2 = [] := by
  rw [applyRes_quiet hnew, endWaiters_silent fun e he => .inl (h e he)]

theorem reg_applyRes_quiet {s : State} {i : Fin 32768} {src : Src} {res : ObjRes} {k : Nat} (hnew : res.newErr = false) (h : k < rHwObj) :
    reg (applyRes s (.glob i) src res).1 k = reg s k := by
  rw [applyRes_quiet hnew, reg_endWaiters h]; rfl

theorem endedWith_congr {s t : State} {w : Waiter} {st : Nat} (hregs : t.regs = s.regs) (hdies : t.dies = s.dies) (h : endedWith s w st) :
    endedWith t w st := by
  have hreg : reg t = reg s := funext fun o => by rw [reg, reg, hregs]
  unfold endedWith slotArmed at *
  rwa [hreg, str_congr hdies]

/-! ### Signals of module-global objects (R213, R219) -/

/-- A unit of the module that signals an object is neither of the streams that the step unit and the update unit watch. -/
theorem signalCounted_unit (s : State) {src : Src} (i : Nat) (h : 24 ≤ src.source) : signalCounted s src i = addReg64 s rSyncSignals 1 := by
  have hsrc : ¬src.source < 24 := Nat.not_lt.mpr h
  have hcommit : noteCommit (addReg64 s rSyncSignals 1) src i = addReg64 s rSyncSignals 1 := if_neg fun hc => hsrc hc.2.1
  rw [signalCounted, hcommit, noteInput]
  split
  · exact if_neg fun hc => hsrc hc.2.1
  · rfl

/-- A signal of a module-global object after which no other follows. -/
theorem signals_glob_silent {s : State} {i : Fin 32768} {n : Nat} (tag : Option Half) (src : Src)
    (h : (applyRes (signalCounted s src i.val) (.glob i) src ((getObj s (.glob i)).add n)).2 = []) :
    signals s [⟨.glob i, n, tag, src⟩] =
      signalClass i.val (applyRes (signalCounted s src i.val) (.glob i) src ((getObj s (.glob i)).add n)).1 := by
  refine signals_of_addOnce (reply := .applied) ?_
  unfold addOnce
  dsimp only
  rw [← signalCounted, getObj_signalCounted, h]
  rfl

/-- The host's writes name it as the source (R233). -/
def hostSrc : Src := ⟨26, 0, false⟩

/-- The host signals an object whose waiters are slots. -/
theorem signals_host {s : State} {i : Fin 32768} {n : Nat} (herr : (getObj s (.glob i)).err = false)
    (hmax : (getObj s (.glob i)).count + n ≤ 2147483647) (hslots : slotWaiters (getObj s (.glob i))) :
    signals s [⟨.glob i, n, none, hostSrc⟩] =
      signalClass i.val (applyRes (addReg64 s rSyncSignals 1) (.glob i) hostSrc ((getObj s (.glob i)).add n)).1 := by
  have hadd := SyncObj.add_room herr hmax
  have hends : slotEnds ((getObj s (.glob i)).add n).ended := by
    rw [hadd]; exact SyncObj.slotEnds_settle (o := { getObj s (.glob i) with count := (getObj s (.glob i)).count + n }) hslots
  rw [signals_glob_silent none hostSrc (applyRes_slots_silent (by rw [hadd]; rfl) hends), signalCounted_unit s i.val (by decide)]

/-! ### The host's writes -/

theorem exec_objSignal {s : State} (i : Fin 32768) (v : Word) (hopen : hostOpen s = true) : exec (.objSignal i v) s = .next (doObjSignal i v s) := by
  have h : exec (.objSignal i v) s = .next (hostMem (doObjSignal i v) s) := rfl
  rw [h, hostMem, if_pos hopen]

theorem exec_objDec {s : State} (i : Fin 32768) (v : Word) (hopen : hostOpen s = true) : exec (.objDec i v) s = .next (doObjDec i v s) := by
  have h : exec (.objDec i v) s = .next (hostMem (doObjDec i v) s) := rfl
  rw [h, hostMem, if_pos hopen]

theorem exec_objRearm {s : State} (i : Fin 32768) (v : Word) (hopen : hostOpen s = true) : exec (.objRearm i v) s = .next (doObjRearm i v s) := by
  have h : exec (.objRearm i v) s = .next (hostMem (doObjRearm i v) s) := rfl
  rw [h, hostMem, if_pos hopen]

/-- What an accepted write of the host to object `i` leaves: the object as `res` has it, its waiters ended with status `st`, the other
objects as they were, and the write completed; `ks` is what may change. -/
structure HostWrote (i : Fin 32768) (res : ObjRes) (st : Nat) (ks : List Comp) (s t : State) : Prop where
  obj : getObj t (.glob i) = res.obj
  ended : ∀ e ∈ res.ended, endedWith t e.1 st
  others : ∀ j, j ≠ i → getObj t (.glob j) = getObj s (.glob j)
  completed : t.out.head? = some (.completion .host .sc [])
  frame : changesOnly ks s t

/-- The arbiter's result has been carried out, messages have left, and the write of the host completes. -/
theorem hostWrote_of_applied {s s' u : State} {i : Fin 32768} {res : ObjRes} {st : Nat} {src : Src} {ks : List Comp} (hst : st < 16)
    (hall : ∀ e ∈ res.ended, e.2 = st) (hobj : getObj s' = getObj s) (hu : changesOnly [.out, .host] (applyRes s' (.glob i) src res).1 u)
    (hframe : changesOnly ks s (complete u .host .sc [])) : HostWrote i res st ks s (complete u .host .sc []) := by
  have hget : getObj (complete u .host .sc []) = getObj (applyRes s' (.glob i) src res).1 :=
    getObj_congr (hu.sync (by decide)) (hu.dies (by decide))
  refine ⟨?_, fun e he => ?_, fun j hj => ?_, rfl, hframe⟩
  · rw [hget, getObj_applyRes_self]
  · exact endedWith_congr (hu.regs (by decide)) (hu.dies (by decide)) (applyRes_ended hst hall e he)
  · rw [hget, getObj_applyRes_ne _ _ _ hj, hobj]

/-- R213: a signal of the host adds to the object, and the slots that it serves end DONE. -/
theorem objSignal_adds (i : Fin 32768) (v : Word) {s : State} (hopen : hostOpen s = true) (hbit : bitAt v 31 = false)
    (hclass : hostClass s i.val = 1 ∨ hostClass s i.val = 2) (hv : v.toNat ≠ 0) (herr : (getObj s (.glob i)).err = false)
    (hmax : (getObj s (.glob i)).count + v.toNat ≤ 2147483647) (hslots : slotWaiters (getObj s (.glob i))) :
    ∃ t, exec (.objSignal i v) s = .next t ∧
      HostWrote i ((getObj s (.glob i)).add v.toNat) stDone [.sync, .regs, .rs, .host, .out, .upd] s t ∧
      reg64 t rSyncSignals = reg64 s rSyncSignals + 1 := by
  have hexec : exec (.objSignal i v) s = .next (complete (signals s [⟨.glob i, v.toNat, none, hostSrc⟩]) .host .sc []) := by
    rw [exec_objSignal i v hopen, doObjSignal, if_neg (by simp [hbit, hclass])]
    dsimp only
    rw [if_neg hv]
    rfl
  have hadd := SyncObj.add_room herr hmax
  have hends := SyncObj.slotEnds_settle (o := { getObj s (.glob i) with count := (getObj s (.glob i)).count + v.toNat }) hslots
  have hdone := SyncObj.settle_done { getObj s (.glob i) with count := (getObj s (.glob i)).count + v.toNat }
  have hnew : ({ getObj s (.glob i) with count := (getObj s (.glob i)).count + v.toNat } : SyncObj).settle.newErr = false := rfl
  refine ⟨_, hexec, ?_⟩
  rw [signals_host herr hmax hslots, hadd]
  generalize ({ getObj s (.glob i) with count := (getObj s (.glob i)).count + v.toNat } : SyncObj).settle = res at hends hdone hnew
  have hclassed := signalClass_changesOnly i.val (applyRes (addReg64 s rSyncSignals 1) (.glob i) hostSrc res).1
  refine ⟨hostWrote_of_applied (by decide) hdone (getObj_addReg64 s _ _) hclassed ?_, ?_⟩
  · rw [changesOnly, complete_frame (by decide), signalClass_frame (by decide), applyRes_slots_frame (by decide) hnew hends,
      addReg64_frame (by decide)]
  · have hreg : ∀ k, k < rHwObj → reg (signalClass i.val (applyRes (addReg64 s rSyncSignals 1) (.glob i) hostSrc res).1) k =
        reg (addReg64 s rSyncSignals 1) k := fun k hk => by
      rw [reg, hclassed.regs (by decide), ← reg, reg_applyRes_quiet hnew hk]
    have hcount : reg64 (addReg64 s rSyncSignals 1) rSyncSignals = reg64 s rSyncSignals + 1 := reg64_addReg64_self s rSyncSignals 1
    rw [← hcount]
    simp only [complete, reg64, reg_emit, hreg rSyncSignals (by decide), hreg (rSyncSignals + 4) (by decide)]

/-- R214: an accepted DEC is the arbiter's, and no signal follows from it when every wait it ends is a slot's or ends in error. -/
theorem doObjDec_applied {i : Fin 32768} {v : Word} {s : State} (hbit : bitAt v 31 = false) (hclass : hostClass s i.val = 2) (hv : v.toNat ≠ 0)
    (hquiet : (applyRes s (.glob i) hostSrc ((getObj s (.glob i)).dec v.toNat)).2 = []) :
    doObjDec i v s = complete (applyRes s (.glob i) hostSrc ((getObj s (.glob i)).dec v.toNat)).1 .host .sc [] := by
  have happlied : doObjDec i v s = complete (signals (applyRes s (.glob i) hostSrc ((getObj s (.glob i)).dec v.toNat)).1
      (applyRes s (.glob i) hostSrc ((getObj s (.glob i)).dec v.toNat)).2) .host .sc [] := by
    rw [doObjDec, if_neg (by simp [hbit, hclass])]
    dsimp only
    rw [if_neg hv]
    rfl
  rw [happlied, hquiet]
  rfl

/-- R214: a DEC within COUNT subtracts. -/
theorem objDec_subtracts (i : Fin 32768) (v : Word) {s : State} (hopen : hostOpen s = true) (hbit : bitAt v 31 = false)
    (hclass : hostClass s i.val = 2) (hv : v.toNat ≠ 0) (herr : (getObj s (.glob i)).err = false) (hle : v.toNat ≤ (getObj s (.glob i)).count)
    (hslots : slotWaiters (getObj s (.glob i))) :
    ∃ t, exec (.objDec i v) s = .next t ∧ HostWrote i ((getObj s (.glob i)).dec v.toNat) stDone [.sync, .regs, .rs, .host, .out] s t := by
  have hdec := SyncObj.dec_room herr hle
  have hends := SyncObj.slotEnds_settle (o := { getObj s (.glob i) with count := (getObj s (.glob i)).count - v.toNat }) hslots
  have hdone := SyncObj.settle_done { getObj s (.glob i) with count := (getObj s (.glob i)).count - v.toNat }
  have hnew : ({ getObj s (.glob i) with count := (getObj s (.glob i)).count - v.toNat } : SyncObj).settle.newErr = false := rfl
  rw [← hdec] at hends hdone hnew
  refine ⟨_, exec_objDec i v hopen, ?_⟩
  rw [doObjDec_applied hbit hclass hv (applyRes_slots_silent hnew hends)]
  refine hostWrote_of_applied (by decide) hdone rfl (.refl _ _) ?_
  rw [changesOnly, complete_frame (by decide), applyRes_slots_frame (by decide) hnew hends]

/-- R216: an object that enters ERROR is logged before its waits end. -/
theorem applyRes_newErr {s : State} {r : ObjRef} {src : Src} {res : ObjRes} (hnew : res.newErr = true) :
    applyRes s r src res = endWaiters (logObjError (putObj s r res.obj) r res.obj.cause src) r res.obj res.ended := by
  rw [applyRes, hnew]; rfl

/-- R214, R216: a DEC beyond COUNT leaves it and puts the object into ERROR with UNDERFLOW. -/
theorem objDec_underflows (i : Fin 32768) (v : Word) {s : State} (hopen : hostOpen s = true) (hbit : bitAt v 31 = false)
    (hclass : hostClass s i.val = 2) (herr : (getObj s (.glob i)).err = false) (hlt : (getObj s (.glob i)).count < v.toNat) :
    ∃ t, exec (.objDec i v) s = .next t ∧
      HostWrote i ((getObj s (.glob i)).dec v.toNat) stObjError [.sync, .regs, .rs, .host, .out, .dies, .img] s t ∧
      (rsReg t rSyncErrStat).ev.getLsbD 0 = true ∧ reg t rSyncErrInfo = w32 (2 ^ 28 + 26 * 2 ^ 22 + 0x8000 + i.val) := by
  have hdec := SyncObj.dec_beyond herr hlt
  have hnew : ((getObj s (.glob i)).dec v.toNat).newErr = true := by rw [hdec]
  have hcause : ((getObj s (.glob i)).dec v.toNat).obj.cause = causeUnderflow := by rw [hdec]; rfl
  have herrors : ∀ e ∈ ((getObj s (.glob i)).dec v.toNat).ended, e.2 = stObjError := fun e he => by
    rw [hdec] at he
    obtain ⟨w, _, rfl⟩ := List.mem_map.mp he
    rfl
  generalize hres : (getObj s (.glob i)).dec v.toNat = res at *
  have hquiet : (applyRes s (.glob i) hostSrc res).2 = [] := by
    rw [applyRes_newErr hnew, endWaiters_silent fun e he => .inr (by rw [herrors e he]; decide)]
  refine ⟨_, exec_objDec i v hopen, ?_⟩
  rw [doObjDec_applied hbit hclass (by omega) (by rw [hres]; exact hquiet), hres]
  refine ⟨hostWrote_of_applied (by decide) herrors rfl (.refl _ _) (by simp [changesOnly]), ?_⟩
  have hlog : logObjError (putObj s (.glob i) res.obj) (.glob i) res.obj.cause hostSrc =
      syncEvent (putObj s (.glob i) res.obj) 0 causeUnderflow hostSrc (0x8000 + i.val) := by
    rw [hcause]; rfl
  have hended := endWaiters_spec (syncEvent (putObj s (.glob i) res.obj) 0 causeUnderflow hostSrc (0x8000 + i.val)) (.glob i) res.obj res.ended
  rw [applyRes_newErr hnew, hlog]
  constructor
  · exact hended.logged.events _ _ (rsReg_rsEvent_bit _ _ _ (by decide))
  · rw [complete, reg_emit, reg_endWaiters (by decide), syncEvent, reg, regs_rsEvent, ← reg, reg_setReg_self]
    exact congrArg w32 (by simp only [causeUnderflow, hostSrc, b2n]; simp; omega)

/-- R212: a REARM to the object's generation starts the next one with COUNT 0, and the waits end REARMED. -/
theorem objRearm_starts (i : Fin 32768) (v : Word) {s : State} (hopen : hostOpen s = true) (hfld : fld v 31 16 = 0)
    (hclass : hostClass s i.val = 2) (hgen : (getObj s (.glob i)).gen = v.setWidth 16) (hslots : slotWaiters (getObj s (.glob i))) :
    ∃ t, exec (.objRearm i v) s = .next t ∧ HostWrote i ((getObj s (.glob i)).rearm 0 ((getObj s (.glob i)).gen + 1)) stRearmed
      [.sync, .regs, .rs, .host, .out] s t := by
  have hends := SyncObj.slotEnds_rearm hslots 0 ((getObj s (.glob i)).gen + 1)
  have hall : ∀ e ∈ ((getObj s (.glob i)).rearm 0 ((getObj s (.glob i)).gen + 1)).ended, e.2 = stRearmed := fun e he => by
    obtain ⟨w, _, rfl⟩ := List.mem_map.mp he
    rfl
  have hnew : ((getObj s (.glob i)).rearm 0 ((getObj s (.glob i)).gen + 1)).newErr = false := rfl
  have hdo : doObjRearm i v s =
      complete (applyRes s (.glob i) hostSrc ((getObj s (.glob i)).rearm 0 ((getObj s (.glob i)).gen + 1))).1 .host .sc [] := by
    have happlied : doObjRearm i v s = complete (signals
        (applyRes s (.glob i) hostSrc ((getObj s (.glob i)).rearm 0 ((getObj s (.glob i)).gen + 1))).1
        (applyRes s (.glob i) hostSrc ((getObj s (.glob i)).rearm 0 ((getObj s (.glob i)).gen + 1))).2) .host .sc [] := by
      rw [doObjRearm, if_neg (by simp [hfld, hclass])]
      dsimp only
      rw [if_pos hgen]
      rfl
    rw [happlied, applyRes_slots_silent hnew hends]
    rfl
  refine ⟨_, exec_objRearm i v hopen, ?_⟩
  rw [hdo]
  refine hostWrote_of_applied (by decide) hall rfl (.refl _ _) ?_
  rw [changesOnly, complete_frame (by decide), applyRes_slots_frame (by decide) hnew hends]

/-- A write of the host has left the objects alone and set event `bit` of SYNC_ERR_STAT; `o` is the answer. -/
structure HostLogged (bit : Nat) (o : Output) (s t : State) : Prop where
  sync : t.sync = s.sync
  event : (rsReg t rSyncErrStat).ev.getLsbD bit = true
  answered : t.out.head? = some o
  frame : changesOnly [.regs, .rs, .host, .out] s t

/-- R212: a REARM of another generation is ignored and logged. -/
theorem objRearm_stale (i : Fin 32768) (v : Word) {s : State} (hopen : hostOpen s = true) (hfld : fld v 31 16 = 0)
    (hclass : hostClass s i.val = 2) (hgen : (getObj s (.glob i)).gen ≠ v.setWidth 16) :
    ∃ t, exec (.objRearm i v) s = .next t ∧ HostLogged 6 (.completion .host .sc []) s t := by
  have hdo : doObjRearm i v s = complete (syncEvent s 6 0 hostSrc (0x8000 + i.val)) .host .sc [] := by
    rw [doObjRearm, if_neg (by simp [hfld, hclass])]
    dsimp only
    rw [if_neg hgen]
    rfl
  have hframe : changesOnly [.regs, .rs, .host, .out] s (complete (syncEvent s 6 0 hostSrc (0x8000 + i.val)) .host .sc []) := by
    simp [changesOnly]
  refine ⟨_, exec_objRearm i v hopen, ?_⟩
  rw [hdo]
  exact ⟨hframe.sync (by decide), rsReg_rsEvent_bit _ _ _ (by decide), rfl, hframe⟩

/-- R227, R229: a refused write is discarded, with a Completer Abort and a HOST_PROTECT event. -/
theorem hostProtect_logged (s : State) (i : Nat) : HostLogged 5 (.completion .host .ca []) s (hostProtect s i) := by
  have hframe : changesOnly [.regs, .rs, .host, .out] s (hostProtect s i) := by simp [changesOnly, hostProtect]
  exact ⟨hframe.sync (by decide), rsReg_rsEvent_bit _ _ _ (by decide), rfl, hframe⟩

/-! ### Classes (R229) -/

theorem hostClass_zero (s : State) : hostClass s 0 = 1 := rfl

theorem hostClass_reserved (s : State) {i : Nat} (hpos : 0 < i) (hlt : i < 16) : hostClass s i = 0 := by
  rw [hostClass, if_neg (by omega), if_pos hlt]

theorem hostClass_without_image {s : State} {i : Nat} (himg : s.img.st = .none) (h : 16 ≤ i) : hostClass s i = 2 := by
  rw [hostClass, if_neg (by omega), if_neg (by omega), if_pos himg]

/-- Settles O10: each accepted write is one operation of the arbiter (R212) after which no signal follows, and a refused one is
`hostProtect`. -/
theorem hostObjects : Obligations.HostObjects := by
  unfold Obligations.HostObjects
  refine ⟨⟨?_, ?_, ?_, ?_, ?_⟩, ?_, ?_, ?_, ?_⟩
  · intro i v s hopen hbit hclass hv herr hmax hslots
    obtain ⟨t, hexec, hw, hcount⟩ := objSignal_adds i v hopen hbit hclass hv herr hmax hslots
    exact ⟨t, hexec, hw.obj, hw.ended, hw.others, hcount, hw.completed, hw.frame⟩
  · intro i v s hopen hbit hclass hv herr hle hslots
    obtain ⟨t, hexec, hw⟩ := objDec_subtracts i v hopen hbit hclass hv herr hle hslots
    exact ⟨t, hexec, hw.obj, hw.others, hw.completed, hw.frame⟩
  · intro i v s hopen hbit hclass herr hlt
    obtain ⟨t, hexec, hw, hevent, hinfo⟩ := objDec_underflows i v hopen hbit hclass herr hlt
    obtain ⟨hobj, hended, hothers, hcompleted, hframe⟩ := hw
    rw [SyncObj.dec_beyond herr hlt] at hobj hended
    exact ⟨t, hexec, hobj, fun w hw => hended _ (List.mem_map_of_mem hw), hevent, hinfo, hothers, hcompleted, hframe⟩
  · intro i v s hopen hfld hclass hgen hslots
    obtain ⟨t, hexec, hw⟩ := objRearm_starts i v hopen hfld hclass hgen hslots
    exact ⟨t, hexec, hw.obj, fun w hmem => hw.ended _ (List.mem_map_of_mem hmem), hw.others, hw.completed, hw.frame⟩
  · intro i v s hopen hfld hclass hgen
    obtain ⟨t, hexec, h⟩ := objRearm_stale i v hopen hfld hclass hgen
    exact ⟨t, hexec, h.sync, h.event, h.answered, h.frame⟩
  · intro i v s hopen hrefused
    have h := hostProtect_logged s i.val
    exact ⟨_, (exec_objSignal i v hopen).trans (congrArg Host.Outcome.next (if_pos (by simpa using hrefused))), h.sync, h.event, h.answered, h.frame⟩
  · intro i v s hopen hrefused
    have h := hostProtect_logged s i.val
    exact ⟨_, (exec_objDec i v hopen).trans (congrArg Host.Outcome.next (if_pos hrefused)), h.sync, h.event, h.answered, h.frame⟩
  · intro i v s hopen hrefused
    have h := hostProtect_logged s i.val
    exact ⟨_, (exec_objRearm i v hopen).trans (congrArg Host.Outcome.next (if_pos hrefused)), h.sync, h.event, h.answered, h.frame⟩
  · exact fun s => ⟨hostClass_zero s, fun i => hostClass_reserved s, fun himg i => hostClass_without_image himg⟩

end Sys2Proof.Machine
end

section
/-! PROOF. What sending a packet leaves: the flows at their destinations, and the requests that wait for answers. -/
namespace Sys2Proof.Machine
open Sys2Proof

/-! ### The ledger of the fabric port -/

/-- What the fabric port keeps of the packets that it answers and of those that others shall answer. -/
def ledger (s : State) : List DstFlow × List OutPkt := (s.fab.dst, s.fab.outs)

theorem dst_eq_of_ledger {s t : State} (h : ledger t = ledger s) : t.fab.dst = s.fab.dst := congrArg Prod.fst h
theorem outs_eq_of_ledger {s t : State} (h : ledger t = ledger s) : t.fab.outs = s.fab.outs := congrArg Prod.snd h

/-- `outs` are the requests that wait for answers. -/
def withOuts (s : State) (outs : List OutPkt) : State := { s with fab := { s.fab with outs := outs } }

theorem withOuts_self {s : State} {outs : List OutPkt} (h : s.fab.outs = outs) : withOuts s outs = s := by subst h; rfl

/-- What leaves the fabric port alone leaves its ledger. -/
theorem ledger_of_frame {s t : State} (h : t.erase (fun c => decide (c ∉ [Comp.fab])) = s.erase (fun c => decide (c ∉ [Comp.fab]))) :
    ledger t = ledger s := by
  have hfab : t.fab = s.fab := by simpa [State.erase] using congrArg State.fab h
  rw [ledger, ledger, hfab]

theorem ledger_ite {s a b : State} (c : Prop) [Decidable c] (ha : ledger a = ledger s) (hb : ledger b = ledger s) :
    ledger (if c then a else b) = ledger s := by split <;> assumption

/-! ### Sending (R316, R320) -/

/-- Of the fabric port, only its links have changed. -/
def linksOnly (s t : State) : Prop := t.fab = { s.fab with links := t.fab.links }

theorem linksOnly.trans {s t u : State} (h : linksOnly s t) (g : linksOnly t u) : linksOnly s u :=
  Eq.trans g (congrArg (fun f : FabState => { f with links := u.fab.links }) h)

theorem linksOnly_addD (cls : BitVec 2) (k : Int) (c : Chan) (s : State) : linksOnly s (addD cls k c s) := rfl

/-- Choosing a link changes the counters of links alone (R337). -/
theorem linksOnly_pick (s : State) (w : WaitPkt) (fresh : Bool) : linksOnly s (pick s w fresh).2 := by
  have hraise : ∀ (cs : List Chan) (t : State), linksOnly t (cs.foldl (fun s c => addD w.pkt.cls (chanWeight s w.pkt.cls c) c s) t) := fun cs => by
    induction cs with
    | nil => exact fun _ => rfl
    | cons c cs ih => exact fun t => (linksOnly_addD _ _ c t).trans (ih _)
  have hfresh : ∀ cs : List Chan, linksOnly s (if fresh then cs.foldl (fun s c => addD w.pkt.cls (chanWeight s w.pkt.cls c) c s) s else s) := fun cs => by
    split
    · exact hraise cs s
    · rfl
  unfold pick
  dsimp only
  split
  · split
    · exact (hfresh _).trans (linksOnly_addD _ _ _ _)
    · exact hfresh _
  · rfl

theorem ledger_pick (s : State) (w : WaitPkt) (fresh : Bool) : ledger (pick s w fresh).2 = ledger s := by
  rw [ledger, linksOnly_pick]; rfl

theorem ledger_putOnLink (s : State) (p : Packet) (c : Chan) : ledger (putOnLink s p c) = ledger s := by
  have hshow : ∀ (t : State) (port : Nat), ledger (showUsed t port) = ledger t := fun t port => ledger_of_frame (showUsed_frame (by decide) t port)
  have hcount : ∀ (t : State) (n : Nat), ledger (addReg64 t rTxFlits n) = ledger t := fun t n => ledger_of_frame (addReg64_frame (by decide) t rTxFlits n)
  exact (hshow _ _).trans (hcount _ _)

theorem ledger_grantCredit (s : State) (ch : Chan) (vc n : Nat) : ledger (grantCredit s ch vc n) = ledger s := ledger_ite _ rfl rfl

theorem ledger_freeCredit (s : State) (ch : Chan) (vc n : Nat) : ledger (freeCredit s ch vc n) = ledger s :=
  ledger_ite _ rfl (ledger_ite _ (ledger_grantCredit _ _ _ _) (ledger_grantCredit _ _ _ _))

theorem ledger_poolLeave (s : State) (p : Packet) (src : Option (Chan × Nat)) : ledger (poolLeave s p src) = ledger s := by
  cases src with
  | none => rfl
  | some x => exact ledger_freeCredit _ _ _ _

theorem ledger_depart (s : State) (w : WaitPkt) (c : Chan) : ledger (depart s w c) = ledger s := by
  have hlife : ∀ p : Packet, ledger (dropLife s p (some c)) = ledger s := fun p => ledger_of_frame (dropLife_frame (by decide) s p (some c))
  exact (ledger_poolLeave _ _ _).trans (ledger_ite _ (hlife _) (ledger_putOnLink _ _ _))

theorem ledger_keepWaiting (s : State) (w : WaitPkt) : ledger (keepWaiting s w) = ledger s := ledger_ite _ (ledger_poolLeave _ _ _) rfl

theorem ledger_parkPkt (s : State) (w : WaitPkt) : ledger (parkPkt s w) = ledger s := by
  have hcount : ledger (addReg s rMgmtDrop 1) = ledger s := ledger_of_frame (addReg_frame (by decide) s rMgmtDrop 1)
  exact ledger_ite _ ((ledger_poolLeave _ _ _).trans hcount) (ledger_keepWaiting _ _)

theorem ledger_sendOn (s : State) (w : WaitPkt) : ledger (sendOn s w) = ledger s := by
  have haddr : ∀ ch, ledger (addrErr s w.pkt ch) = ledger s := fun ch => ledger_of_frame (addrErr_frame (by decide) s w.pkt ch)
  have hpick := ledger_pick s w true
  unfold sendOn
  split
  · exact ledger_poolLeave _ _ _
  · exact (ledger_poolLeave _ _ _).trans (haddr _)
  · split
    next hp => rw [hp] at hpick; exact (ledger_depart _ _ _).trans hpick
    next hp => rw [hp] at hpick; exact (ledger_parkPkt _ _).trans hpick

theorem ledger_sendPkt (s : State) (p : Packet) : ledger (sendPkt s p) = ledger s := ledger_sendOn s _

end Sys2Proof.Machine
end

section
/-! PROOF. Timers of the fabric (R303, R308, R309), host reads (R482) and packets that wait (R315, R316). -/
namespace Sys2Proof.Machine
open Sys2Proof

/-! ### Packets of this module -/

theorem blankPkt_congr {s t : State} (himg : t.img = s.img) (hcur : t.fab.cur = s.fab.cur) (hid : t.fab.modId = s.fab.modId)
    (ty : BitVec 6) (dst : Half) (dstEp srcEp : BitVec 5) : blankPkt t ty dst dstEp srcEp = blankPkt s ty dst dstEp srcEp := by
  have hjob : jobOf t = jobOf s := by unfold jobOf jobActive; rw [himg]
  rw [blankPkt, blankPkt, hcur, hid, hjob]

theorem advanceTo_changesOnly (n : Nat) (s : State) : changesOnly [.clk, .tb, .regs, .dies, .tbs] s (advanceTo n s) := advanceTo_frame (by decide) n s

theorem fab_advanceTo (n : Nat) (s : State) : (advanceTo n s).fab = s.fab := (advanceTo_changesOnly n s).fab (by decide)
theorem img_advanceTo (n : Nat) (s : State) : (advanceTo n s).img = s.img := (advanceTo_changesOnly n s).img (by decide)

/-! ### Collective flows (R309) -/

/-- R309: when the interval ends, the flow owes no acknowledgement any more, and one goes out. -/
theorem e2eAckTimer_acks {s : State} {k : Nat} {f : DstFlow} {n : Nat} (hf : s.fab.dst[k]? = some f) (hdue : f.ackDue = true)
    (hat : f.ackAt = some n) :
    ∃ u, exec (.e2eAckTimer k) s = .next (sendPkt u { blankPkt s ptE2eAck f.srcMod f.srcEp f.dstEp with
        addr := w64 (f.point.toNat + f.vc / 2 * 65536) }) ∧
      u.fab = { s.fab with dst := s.fab.dst.set k { f with ackDue := false, ackAt := none } } ∧ u.clk = max s.clk n ∧
      changesOnly [.fab] (advanceTo n s) u := by
  have hexec : exec (.e2eAckTimer k) s = .next (doE2eAckTimer k s) := rfl
  have hpkt : ∀ fab : FabState, fab.cur = s.fab.cur → fab.modId = s.fab.modId →
      blankPkt { advanceTo n s with fab := fab } ptE2eAck f.srcMod f.srcEp f.dstEp = blankPkt s ptE2eAck f.srcMod f.srcEp f.dstEp :=
    fun fab hcur hid => blankPkt_congr (t := { advanceTo n s with fab := fab }) (img_advanceTo n s) hcur hid _ _ _ _
  refine ⟨{ advanceTo n s with fab := { s.fab with dst := s.fab.dst.set k { f with ackDue := false, ackAt := none } } }, ?_, rfl,
    clk_advanceTo n s, by simp [changesOnly]⟩
  rw [hexec, doE2eAckTimer, hf]
  dsimp only
  rw [if_neg (by simp [hdue]), hat, Option.getD_some, fab_advanceTo, hpkt]
  · rfl
  · rfl

/-! ### Retransmission (R308) -/

/-- The request that is sent again. -/
def retried (s : State) (o : OutPkt) : Packet := { o.pkt with retx := true, epoch := s.fab.cur }

/-- The requests after one has been sent again. -/
def outsRetried (s : State) (o : OutPkt) : List OutPkt := s.fab.outs.map fun x =>
  if x.oid = o.oid then { x with tries := x.tries + 1, deadline := s.clk + rtoNs s x.far, pkt := retried s o } else x

/-- What a retransmission leaves before its packet goes out. -/
def resent (s : State) (o : OutPkt) : State :=
  touchFlow { addReg64 s rE2eRetx 1 with fab := { s.fab with outs := outsRetried s o } } (retried s o)

theorem resend_of_reread {s : State} {o : OutPkt} {bs : List Byte} (htries : o.tries < s.fab.timers.e2eRetryMax)
    (h : reread s o = (some bs, s)) : resend s o = sendPkt (resent s o) { retried s o with payload := bs } := by
  rw [resend, if_pos htries, h]
  rfl

theorem reread_noPayload {o : OutPkt} (s : State) (h : noPayload o.user) : reread s o = (some [], s) := by
  unfold reread
  rcases h with ⟨d, c, i, ref, hu⟩ | ⟨att, hu⟩ <;> rw [hu]

theorem reread_maquette {s : State} {o : OutPkt} {k off : Nat} {sec : JobSections} {m : MaqSlot} (hu : o.user = .maquette k off)
    (hsec : s.img.sec = some sec) (hslot : SMap.get none s.maq.slots k = some m) :
    reread s o = (some (maqData s sec k off (min 4096 (maqBytes s m.layer - off))), s) := by
  unfold reread
  rw [hu]
  dsimp only
  rw [hsec, hslot]

theorem resent_changesOnly (s : State) (o : OutPkt) : changesOnly [.regs, .fab] s (resent s o) := by simp [changesOnly, resent, touchFlow]

theorem reg64_resent (s : State) (o : OutPkt) : reg64 (resent s o) rE2eRetx = reg64 s rE2eRetx + 1 := reg64_addReg64_self s rE2eRetx 1

theorem exec_rtoExpire {s : State} {o : OutPkt} (h : s.fab.outs.find? (fun x => decide (x.oid = o.oid) && x.answer.isNone) = some o) :
    exec (.rtoExpire o.oid) s = .next (resend (advanceTo o.deadline s) o) := by
  have hexec : exec (.rtoExpire o.oid) s = .next (doRtoExpire o.oid s) := rfl
  rw [hexec, doRtoExpire, h]

/-- R308: every transmission is counted, and has its own deadline. -/
theorem mem_outsRetried {s : State} {o x : OutPkt} (hx : x ∈ outsRetried s o) (hoid : x.oid = o.oid) :
    0 < x.tries ∧ s.clk + rtoNs s x.far = x.deadline := by
  obtain ⟨y, -, rfl⟩ := List.mem_map.mp hx
  by_cases hy : y.oid = o.oid
  · rw [if_pos hy]; exact ⟨Nat.succ_pos _, rfl⟩
  · rw [if_neg hy] at hoid; exact absurd hoid hy

/-- R308: a timer that runs out retransmits a request without a payload. -/
theorem rtoExpire_retransmits {s : State} {o : OutPkt} (h : s.fab.outs.find? (fun x => decide (x.oid = o.oid) && x.answer.isNone) = some o)
    (htries : o.tries < s.fab.timers.e2eRetryMax) (hu : noPayload o.user) :
    ∃ u, exec (.rtoExpire o.oid) s = .next (sendPkt u { o.pkt with retx := true, epoch := s.fab.cur, payload := [] }) ∧
      u.clk = max s.clk o.deadline ∧ reg64 u rE2eRetx = reg64 (advanceTo o.deadline s) rE2eRetx + 1 ∧
      (∀ x ∈ u.fab.outs, x.oid = o.oid → 0 < x.tries ∧ u.clk + 1000 * (if x.far then s.fab.timers.rtoFar else s.fab.timers.rtoNear) =
        x.deadline) ∧
      changesOnly [.regs, .fab] (advanceTo o.deadline s) u := by
  have hfab := fab_advanceTo o.deadline s
  have hclk : (resent (advanceTo o.deadline s) o).clk = (advanceTo o.deadline s).clk := rfl
  refine ⟨resent (advanceTo o.deadline s) o, ?_, hclk.trans (clk_advanceTo _ s), reg64_resent _ _, fun x hx hoid => ?_, resent_changesOnly _ _⟩
  · rw [exec_rtoExpire h, resend_of_reread (by rwa [hfab]) (reread_noPayload _ hu), retried, hfab]
  · obtain ⟨htried, hdeadline⟩ := mem_outsRetried (s := advanceTo o.deadline s) hx hoid
    rw [rtoNs, hfab, Nat.mul_comm] at hdeadline
    exact ⟨htried, hdeadline⟩

/-- R308: a chunk of a Maquette slot is read again from it. -/
theorem rtoExpire_rereads {s : State} {o : OutPkt} {k off : Nat} {sec : JobSections} {m : MaqSlot}
    (h : s.fab.outs.find? (fun x => decide (x.oid = o.oid) && x.answer.isNone) = some o) (htries : o.tries < s.fab.timers.e2eRetryMax)
    (hu : o.user = .maquette k off) (hsec : s.img.sec = some sec) (hslot : SMap.get none s.maq.slots k = some m) :
    ∃ u, exec (.rtoExpire o.oid) s = .next (sendPkt u { o.pkt with
        retx := true, epoch := s.fab.cur, payload := maqData s sec k off (min 4096 (maqBytes s m.layer - off)) }) ∧
      reg64 u rE2eRetx = reg64 (advanceTo o.deadline s) rE2eRetx + 1 ∧ changesOnly [.regs, .fab] (advanceTo o.deadline s) u := by
  have hframe := advanceTo_changesOnly o.deadline s
  have hfab := fab_advanceTo o.deadline s
  have himg := img_advanceTo o.deadline s
  have hmaq : (advanceTo o.deadline s).maq = s.maq := hframe.maq (by decide)
  have hmem : (advanceTo o.deadline s).mem = s.mem := hframe.mem (by decide)
  have hread := reread_maquette (s := advanceTo o.deadline s) hu (by rw [himg, hsec]) (by rw [hmaq, hslot])
  refine ⟨resent (advanceTo o.deadline s) o, ?_, reg64_resent _ _, resent_changesOnly _ _⟩
  rw [exec_rtoExpire h, resend_of_reread (by rwa [hfab]) hread, retried, hfab]
  simp only [maqData, maqBytes, himg, hmem]

/-! ### Requests that end (R304, R307) -/

theorem settleFlow_of_none {s : State} (n : Nat) (p : Packet) (h : s.fab.outs = []) : settleFlow n p s = s := by
  cases n with
  | zero => rfl
  | succ n => rw [settleFlow, h]; rfl

theorem sameFlow_self (p : Packet) : sameFlow p p = true := by simp [sameFlow]

/-- The answer of the only request outstanding ends it for its unit. -/
theorem answerTxn_of_single {s : State} {o : OutPkt} (code : Nat) (data : List Byte) (h : s.fab.outs = [o])
    (hends : (endTxn (withOuts s []) o.user code data).fab.outs = []) : answerTxn s o code data = endTxn (withOuts s []) o.user code data := by
  have hsettle : answerTxn s o code data = settleFlow 1 o.pkt (endTxn (withOuts s []) o.user code data) := by
    rw [answerTxn, h]
    simp [settleFlow, sameFlow_self, withOuts]
  rw [hsettle, settleFlow_of_none _ _ hends]

/-- R308: the last retransmission of a request for a verdict has gone unanswered: the request is given up, with an event. -/
theorem rtoExpire_gives_up {s : State} {o : OutPkt} {att : DWord} (h : s.fab.outs = [o]) (hans : o.answer = none) (hu : o.user = .verdict att)
    (htries : s.fab.timers.e2eRetryMax ≤ o.tries) :
    ∃ t, exec (.rtoExpire o.oid) s = .next t ∧ t.fab.outs = [] ∧ (rsReg t rFabErr).ev.getLsbD 8 = true ∧
      changesOnly [.regs, .rs, .host, .fab, .out] (advanceTo o.deadline s) t := by
  have hfind : s.fab.outs.find? (fun x => decide (x.oid = o.oid) && x.answer.isNone) = some o := by simp [h, hans]
  have hfab : (fabErr (advanceTo o.deadline s) 8 o.pkt none).fab = s.fab :=
    ((fabErr_changesOnly _ _ _ _).fab (by decide)).trans (fab_advanceTo _ s)
  have hend : ∀ t : State, endTxn t o.user scUnreach [] = t := fun t => by rw [hu]; rfl
  have hresend : resend (advanceTo o.deadline s) o = withOuts (fabErr (advanceTo o.deadline s) 8 o.pkt none) [] := by
    have hanswer := answerTxn_of_single (s := fabErr (advanceTo o.deadline s) 8 o.pkt none) scUnreach [] (by rw [hfab, h]) (by rw [hend]; rfl)
    rw [hend] at hanswer
    rw [resend, if_neg (by rw [fab_advanceTo]; omega), ← hanswer, hu]
  refine ⟨_, exec_rtoExpire hfind, ?_⟩
  rw [hresend]
  exact ⟨rfl, rsReg_fabErr_bit _ _ _ (by decide), by simp [changesOnly, withOuts]⟩

/-! ### Idle flows (R303) -/

theorem flowIdleExpire_source {s : State} {k : Nat} {f : SrcFlow} (hf : s.fab.src[k]? = some f) (h : ∀ o ∈ s.fab.outs, f.serves o.pkt = false) :
    ∃ t, exec (.flowIdleExpire true k) s = .next t ∧ t.fab = { s.fab with src := s.fab.src.eraseIdx k } ∧
      t.clk = max s.clk (f.last + s.fab.timers.flowIdle * 1000) ∧
      changesOnly [.fab] (advanceTo (f.last + s.fab.timers.flowIdle * 1000) s) t := by
  have hexec : exec (.flowIdleExpire true k) s = .next (doFlowIdleExpire true k s) := rfl
  have hnone : ¬ (s.fab.outs.any fun o => f.serves o.pkt) = true := by simpa using h
  have hfab := fab_advanceTo (f.last + s.fab.timers.flowIdle * 1000) s
  refine ⟨_, hexec, ?_⟩
  rw [doFlowIdleExpire, hf]
  dsimp only
  rw [if_pos rfl, if_neg hnone, hfab]
  exact ⟨rfl, clk_advanceTo _ _, by simp [changesOnly]⟩

theorem flowIdleExpire_destination {s : State} {k : Nat} {f : DstFlow} (hf : s.fab.dst[k]? = some f) :
    ∃ t, exec (.flowIdleExpire false k) s = .next t ∧ t.fab = { s.fab with dst := s.fab.dst.eraseIdx k } ∧
      t.clk = max s.clk (f.last + s.fab.timers.flowIdle * 1000) ∧
      changesOnly [.fab] (advanceTo (f.last + s.fab.timers.flowIdle * 1000) s) t := by
  have hexec : exec (.flowIdleExpire false k) s = .next (doFlowIdleExpire false k s) := rfl
  have hfab := fab_advanceTo (f.last + s.fab.timers.flowIdle * 1000) s
  refine ⟨_, hexec, ?_⟩
  rw [doFlowIdleExpire, hf]
  dsimp only
  rw [if_neg Bool.false_ne_true, hfab]
  exact ⟨rfl, clk_advanceTo _ _, by simp [changesOnly]⟩

/-! ### Relief and replay-store room (R315, R316) -/

/-- R316: a packet without credit for 2 µs moves to relief. -/
theorem reliefMove_moves {s : State} {i : Nat} {w : WaitPkt} {n : Nat} (hw : s.fab.waiting[i]? = some w) (hrelief : w.pkt.relief = false)
    (hdry : w.dry = some n) (hcredit : (candidates s w).any (hasCredit s w.pkt) = false) :
    ∃ u, exec (.reliefMove i) s = .next (sendOn u { w with pkt := { w.pkt with relief := true }, dry := none }) ∧
      u.fab = { s.fab with waiting := s.fab.waiting.eraseIdx i } ∧ u.clk = max s.clk (n + 2000) ∧
      reg64 u rReliefPkts = reg64 (advanceTo (n + 2000) s) rReliefPkts + 1 ∧ changesOnly [.regs, .fab] (advanceTo (n + 2000) s) u := by
  have hexec : exec (.reliefMove i) s = .next (doReliefMove i s) := rfl
  have hfab : (addReg64 (advanceTo (n + 2000) s) rReliefPkts 1).fab = s.fab := fab_advanceTo (n + 2000) s
  refine ⟨{ addReg64 (advanceTo (n + 2000) s) rReliefPkts 1 with fab := { s.fab with waiting := s.fab.waiting.eraseIdx i } }, ?_, rfl,
    clk_advanceTo _ s, reg64_addReg64_self (advanceTo (n + 2000) s) rReliefPkts 1, by simp [changesOnly]⟩
  rw [hexec, doReliefMove, hw]
  dsimp only
  rw [hdry]
  dsimp only
  rw [if_neg (by simp [hrelief, hcredit]), hfab]

/-- R316: one that has moved, or that waits for room alone, stays. -/
theorem reliefMove_stays {s : State} {i : Nat} {w : WaitPkt} (hw : s.fab.waiting[i]? = some w)
    (h : w.pkt.relief = true ∨ w.dry = none ∨ (candidates s w).any (hasCredit s w.pkt) = true) : exec (.reliefMove i) s = .next s := by
  have hexec : exec (.reliefMove i) s = .next (doReliefMove i s) := rfl
  rw [hexec, doReliefMove, hw]
  dsimp only
  split
  · rfl
  next hdry =>
    have hstay : w.pkt.relief = true ∨ (candidates s w).any (hasCredit s w.pkt) = true :=
      h.imp_right fun h => h.resolve_left (by rw [hdry]; exact nofun)
    rw [if_pos hstay]

/-- The one packet that waits is tried again, and a link takes it. -/
theorem retryWaiting_departs {s u : State} {w : WaitPkt} {c : Chan} {sel : Packet → Bool} (hw : s.fab.waiting = [w]) (hsel : sel w.pkt = true)
    (hpick : pick { s with fab := { s.fab with waiting := [] } } w false = (some c, u)) : retryWaiting s sel = depart u w c := by
  rw [retryWaiting, hw]
  simp only [List.foldl_cons, List.foldl_nil, hsel, if_true, hpick]

theorem retryWaiting_keeps {s u : State} {w : WaitPkt} {sel : Packet → Bool} (hw : s.fab.waiting = [w]) (hsel : sel w.pkt = true)
    (hpick : pick { s with fab := { s.fab with waiting := [] } } w false = (none, u)) : retryWaiting s sel = keepWaiting u w := by
  rw [retryWaiting, hw]
  simp only [List.foldl_cons, List.foldl_nil, hsel, if_true, hpick]

theorem keepWaiting_of_candidates {s : State} {w : WaitPkt} (h : candidates s w ≠ []) :
    keepWaiting s w = { s with fab := { s.fab with waiting := s.fab.waiting ++ [{ w with dry := dryAt s w }] } } :=
  if_neg fun hnone => h hnone.1

/-- R315: a packet that waited for replay-store room goes when a link takes it, and waits on otherwise. -/
theorem replayStoreSend_single {s u : State} {port : Fin 6} {w : WaitPkt} (hport : 4 ≤ port.val) (hw : s.fab.waiting = [w])
    (hleaves : leavesOn s port.val w.pkt = true) :
    (∀ c, pick { s with fab := { s.fab with waiting := [] } } w false = (some c, u) → exec (.replayStoreSend port) s = .next (depart u w c)) ∧
    (pick { s with fab := { s.fab with waiting := [] } } w false = (none, u) → candidates u w ≠ [] →
      ∃ t, exec (.replayStoreSend port) s = .next t ∧ t.fab.waiting = [{ w with dry := dryAt u w }] ∧ changesOnly [.fab] u t) := by
  have hexec : exec (.replayStoreSend port) s = .next (doReplayStoreSend port s) := rfl
  rw [hexec, doReplayStoreSend, if_neg (by omega)]
  refine ⟨fun c hpick => congrArg Host.Outcome.next (retryWaiting_departs hw hleaves hpick), fun hpick hcand => ?_⟩
  have hlinks := linksOnly_pick { s with fab := { s.fab with waiting := [] } } w false
  rw [hpick] at hlinks
  have hnone : u.fab.waiting = [] := congrArg FabState.waiting hlinks
  rw [retryWaiting_keeps hw hleaves hpick, keepWaiting_of_candidates hcand, hnone]
  exact ⟨_, rfl, rfl, by simp [changesOnly]⟩

/-! ### Host reads (R477, R482) -/

theorem hostReadOf_tag {s : State} {tag : Nat} {r : HostRead} (h : hostReadOf s tag = some r) : r ∈ s.host.reads ∧ r.tag = tag :=
  ⟨List.mem_of_mem_take (List.mem_of_find?_eq_some h), by simpa using List.find?_some h⟩

/-- With no read beyond the 256 outstanding, none goes out when one ends. -/
theorem nextHostRead_dropHostRead {s : State} {tag : Nat} {r : HostRead} (h : hostReadOf s tag = some r) (hlen : s.host.reads.length ≤ 256) :
    nextHostRead (dropHostRead s tag) = dropHostRead s tag := by
  obtain ⟨hmem, htag⟩ := hostReadOf_tag h
  have hshort : (s.host.reads.filter fun r => decide (r.tag ≠ tag)).length < s.host.reads.length :=
    List.length_filter_lt_length_iff_exists.mpr ⟨r, hmem, by simp [htag]⟩
  have hnone : (dropHostRead s tag).host.reads[hostReadMax - 1]? = none :=
    List.getElem?_eq_none (by have : hostReadMax = 256 := rfl; show (s.host.reads.filter _).length ≤ _; omega)
  rw [nextHostRead, hnone]

/-- A flow that holds nothing has nothing to go on with. -/
theorem drainFlow_of_none_held {s : State} (n : Nat) (p : Packet) (h : ∀ f ∈ s.fab.dst, f.serves p = true → f.held = []) : drainFlow n p s = s := by
  cases n with
  | zero => rfl
  | succ n =>
    rw [drainFlow]
    split
    · rfl
    next f hf =>
      rw [h f (List.mem_of_find?_eq_some hf) (by simpa using List.find?_some hf)]
      split <;> rfl

/-- The flow entry of a request that has waited for the host, once answered. -/
def hostAnswered (p : Packet) (code : Nat) (data : List Byte) (f : DstFlow) : DstFlow :=
  { f with busy := false, replies := (f.replies ++ [(p.fseq, code, data)]).drop (f.replies.length + 1 - 64) }

theorem hostDone_of_none_held {s : State} {r : HostRead} (code : Nat) (data : List Byte)
    (h : ∀ f ∈ s.fab.dst, f.serves r.req = true → f.held = []) :
    hostDone s r code data = sendPkt (updFlow s r.req (hostAnswered r.req code data)) (replyPkt s r.req code data) := by
  have hmap : ((s.fab.dst.map fun g => if g.serves r.req then { g with busy := false } else g).map fun g =>
      if g.serves r.req then { g with replies := (g.replies ++ [(r.req.fseq, code, data)]).drop (g.replies.length + 1 - 64) } else g) =
      s.fab.dst.map fun g => if g.serves r.req then hostAnswered r.req code data g else g := by
    rw [List.map_map]
    refine List.map_congr_left fun g _ => ?_
    by_cases hg : g.serves r.req = true
    · have hg' : ({ g with busy := false } : DstFlow).serves r.req = true := hg
      simp only [Function.comp, if_pos hg, if_pos hg', hostAnswered]
    · simp only [Function.comp, if_neg hg]
  have hanswer : answer (updFlow s r.req fun f => { f with busy := false }) r.req code data =
      sendPkt (updFlow s r.req (hostAnswered r.req code data)) (replyPkt s r.req code data) := by
    rw [answer, updFlow, updFlow, updFlow]
    dsimp only
    rw [hmap]
    rfl
  have hheld : ∀ f ∈ (sendPkt (updFlow s r.req (hostAnswered r.req code data)) (replyPkt s r.req code data)).fab.dst,
      f.serves r.req = true → f.held = [] := by
    rw [dst_eq_of_ledger (ledger_sendPkt _ _)]
    intro f hf hserves
    obtain ⟨g, hg, rfl⟩ := List.mem_map.mp hf
    by_cases hs : g.serves r.req = true
    · rw [if_pos hs]; exact h g hg hs
    · rw [if_neg hs] at hserves; exact absurd hserves hs
  rw [hostDone, hanswer]
  split
  · exact drainFlow_of_none_held _ _ hheld
  · rfl

theorem replyPkt_congr {s t : State} (himg : t.img = s.img) (hcur : t.fab.cur = s.fab.cur) (hid : t.fab.modId = s.fab.modId)
    (p : Packet) (code : Nat) (data : List Byte) : replyPkt t p code data = replyPkt s p code data := by
  rw [replyPkt, replyPkt, blankPkt_congr himg hcur hid]

/-- R482: data answers the requester of a host read. -/
theorem hostReadCompletion_answers {s : State} {tag : Nat} {r : HostRead} {data : List Byte} (h : hostReadOf s tag = some r)
    (hlen : s.host.reads.length ≤ 256) (hdata : data.length = reqBytes r.req) (hheld : ∀ f ∈ s.fab.dst, f.serves r.req = true → f.held = []) :
    ∃ u, exec (.hostReadCompletion tag data) s = .next (sendPkt u (replyPkt s r.req 0 data)) ∧ keptReply r.req 0 data s u ∧
      u.host = { s.host with reads := s.host.reads.filter fun x => decide (x.tag ≠ tag) } ∧ changesOnly [.host, .fab] s u := by
  have hexec : exec (.hostReadCompletion tag data) s = .next (doHostReadCompletion tag data s) := rfl
  refine ⟨updFlow (dropHostRead s tag) r.req (hostAnswered r.req 0 data), ?_, rfl, rfl, by simp [changesOnly]⟩
  rw [hexec, doHostReadCompletion, h]
  dsimp only
  rw [if_neg (not_not.mpr hdata), nextHostRead_dropHostRead h hlen, hostDone_of_none_held (s := dropHostRead s tag) scOk data hheld]
  rfl

/-- R482: a host read without an answer ends MEM_ERROR, and is logged. -/
theorem completionTimeout_answers {s : State} {tag : Nat} {r : HostRead} (h : hostReadOf s tag = some r) (hlen : s.host.reads.length ≤ 256)
    (hheld : ∀ f ∈ s.fab.dst, f.serves r.req = true → f.held = []) :
    ∃ u, exec (.completionTimeout tag) s = .next (sendPkt u (replyPkt s r.req 4 [])) ∧ keptReply r.req 4 [] s u ∧
      u.host = { s.host with reads := s.host.reads.filter fun x => decide (x.tag ≠ tag) } ∧ u.clk = max s.clk r.deadline ∧
      u.out = .aer "completion timeout" :: s.out ∧ changesOnly [.host, .fab, .out] (advanceTo r.deadline s) u := by
  have hexec : exec (.completionTimeout tag) s = .next (doCompletionTimeout tag s) := rfl
  have hframe := advanceTo_changesOnly r.deadline s
  have hhost : (advanceTo r.deadline s).host = s.host := hframe.host (by decide)
  have hout : (advanceTo r.deadline s).out = s.out := hframe.out (by decide)
  have hfab := fab_advanceTo r.deadline s
  have hread : hostReadOf (advanceTo r.deadline s) tag = some r := by rw [hostReadOf, hhost]; exact h
  have hdrop : nextHostRead (dropHostRead (advanceTo r.deadline s) tag) = dropHostRead (advanceTo r.deadline s) tag :=
    nextHostRead_dropHostRead hread (by rw [hhost]; exact hlen)
  have hlogged : (emit (dropHostRead (advanceTo r.deadline s) tag) (.aer "completion timeout")).fab = s.fab := hfab
  have hdone := hostDone_of_none_held (s := emit (dropHostRead (advanceTo r.deadline s) tag) (.aer "completion timeout")) (r := r) scMemError []
    (by rw [hlogged]; exact hheld)
  have hreply := replyPkt_congr (s := s) (t := emit (dropHostRead (advanceTo r.deadline s) tag) (.aer "completion timeout"))
    (img_advanceTo _ s) (congrArg FabState.cur hfab) (congrArg FabState.modId hfab) r.req scMemError []
  refine ⟨updFlow (emit (dropHostRead (advanceTo r.deadline s) tag) (.aer "completion timeout")) r.req (hostAnswered r.req 4 []), ?_, ?_, ?_,
    clk_advanceTo _ s, congrArg (Output.aer "completion timeout" :: ·) hout, by simp [changesOnly]⟩
  · rw [hexec, doCompletionTimeout, h]
    dsimp only
    rw [hdrop, hdone, hreply]
    rfl
  · rw [keptReply, updFlow, hlogged]; rfl
  · exact congrArg (fun x : HostState => { x with reads := x.reads.filter fun x => decide (x.tag ≠ tag) }) hhost

end Sys2Proof.Machine
end
section
/-! PROOF. What poisoning a step leaves of the requests that wait for answers, of the polls of a verdict, and of faults. -/
namespace Sys2Proof.Machine
open Sys2Proof

/-! ### The polls of a verdict (R52, R438) -/

/-- When the step unit asks a peer for a verdict next, and until when. -/
def polls (s : State) : Option Nat × Option Nat := (s.step.pollAt, s.step.resolveAt)

theorem polls_of_frame {s t : State} (h : t.erase (fun c => decide (c ∉ [Comp.step])) = s.erase (fun c => decide (c ∉ [Comp.step]))) :
    polls t = polls s := by
  have hstep : t.step = s.step := by simpa [State.erase] using congrArg State.step h
  rw [polls, polls, hstep]

theorem polls_ite {s a b : State} (c : Prop) [Decidable c] (ha : polls a = polls s) (hb : polls b = polls s) :
    polls (if c then a else b) = polls s := by split <;> assumption

theorem polls_foldl {α : Type} (f : State → α → State) (l : List α) (s : State) (h : ∀ s x, polls (f s x) = polls s) :
    polls (l.foldl f s) = polls s := by
  induction l generalizing s with
  | nil => rfl
  | cons x l ih => rw [List.foldl_cons, ih, h]

/-! ### Module memory -/

theorem polls_requestStop (s : State) (code : Nat) : polls (requestStop s code) = polls s := by
  unfold requestStop
  split <;> rfl

theorem polls_memEvent (s : State) (bit : Nat) (n : Stack) (row : Nat) : polls (memEvent s bit n row) = polls s :=
  polls_of_frame (memEvent_frame (by decide) s bit n row)
theorem polls_updStack (s : State) (n : Stack) (f : StackState → StackState) : polls (updStack s n f) = polls s :=
  polls_of_frame (updStack_frame (by decide) s n f)

/-- Retiring a page may stop the image, and may cost the pool a page. -/
theorem polls_retireOne (s : State) (n : Stack) (p row : Nat) (again : Bool) : polls (retireOne s n p row again) = polls s := by
  have hset : ∀ t o v, polls (setReg64 t o v) = polls t := fun t o v => polls_of_frame (setReg64_frame (by decide) t o v)
  have hfld : ∀ t o hi lo v, polls (setFld t o hi lo v) = polls t := fun t o hi lo v => polls_of_frame (setFld_frame (by decide) t o hi lo v)
  have hsat : ∀ t o lo, polls (satFld16 t o lo) = polls t := fun t o lo => polls_of_frame (satFld16_frame (by decide) t o lo)
  have hmap : ∀ t n p sub, polls (setRemap t n p sub) = polls t := fun t n p sub => polls_of_frame (setRemap_frame (by decide) t n p sub)
  have hlog : ∀ t n ch, polls (logMapOut t n ch) = polls t := fun t n ch => polls_of_frame (logMapOut_frame (by decide) t n ch)
  have hpoison : ∀ t n p, polls (poisonPage t n p) = polls t := fun t n p => polls_of_frame (poisonPage_frame (by decide) t n p)
  have hpool : ∀ (t : State) (l : List Nat), polls { t with step := { t.step with poolLost := l } } = polls t := fun _ _ => rfl
  simp only [retireOne, apply_ite polls, hset, hfld, hsat, hmap, hlog, hpoison, hpool, polls_memEvent, polls_updStack, polls_requestStop, ite_self]

theorem polls_rowNeedsRepair (s : State) (n : Stack) (o : Nat) : polls (rowNeedsRepair s n o) = polls s := by
  have hretire : ∀ row, polls (retirePage s n o row) = polls s := fun row => by
    unfold retirePage
    dsimp only
    split
    · exact polls_retireOne _ _ _ _ _
    · exact polls_ite _ rfl (polls_retireOne _ _ _ _ _)
  exact polls_ite _ rfl (polls_ite _ (hretire _) (polls_updStack _ _ _))

theorem polls_foundUe (s : State) (g a : Nat) : polls (foundUe s g a) = polls s := by
  have hset : ∀ t o v, polls (setReg64 t o v) = polls t := fun t o v => polls_of_frame (setReg64_frame (by decide) t o v)
  have hadd : ∀ t o n, polls (addReg t o n) = polls t := fun t o n => polls_of_frame (addReg_frame (by decide) t o n)
  rw [foundUe, polls_rowNeedsRepair, polls_memEvent, hset, hadd, hadd]
  rfl

theorem polls_correctGran (s : State) (g : Nat) : polls (correctGran s g) = polls s := polls_of_frame (correctGran_frame (by decide) s g)

theorem polls_foundCe (s : State) (g : Nat) : polls (foundCe s g) = polls s := by
  unfold foundCe
  extract_lets n row corrected hit
  have hhit : polls hit = polls s := (polls_updStack _ _ _).trans (polls_correctGran s g)
  split
  · exact polls_ite _ ((polls_rowNeedsRepair _ _ _).trans ((polls_memEvent _ _ _ _).trans ((polls_updStack _ _ _).trans hhit))) hhit
  · exact hhit

theorem polls_caParity (s : State) (gs : List (Nat × Nat)) : polls (caParity s gs) = polls s := by
  have hevent : ∀ bit n row, polls (memEvent { s with mem := { s.mem with parity := 0 } } bit n row) = polls s := fun _ _ _ => polls_memEvent _ _ _ _
  exact polls_ite _ rfl (polls_ite _ ((polls_foldl _ _ _ fun _ _ => polls_foundUe _ _ _).trans (hevent _ _ _)) (hevent _ _ _))

theorem polls_holdForRepair (s : State) (g : Nat) : polls (holdForRepair s g) = polls s := by
  have hrepair : ∀ n row, polls (repairRow s n row) = polls s := fun n row => by
    have hflash : ∀ (t : State) (x : FlashState), polls { t with flash := x } = polls t := fun _ _ => rfl
    rw [repairRow, polls_memEvent, hflash, polls_updStack, polls_foldl _ _ _ polls_correctGran, polls_foldl _ _ _ fun _ _ => polls_foundUe _ _ _]
  unfold holdForRepair
  dsimp only
  split
  · exact polls_ite _ (hrepair _ _) rfl
  · rfl

theorem polls_touchGran (s : State) (g a : Nat) : polls (touchGran s g a) = polls s :=
  polls_ite _ rfl (polls_ite _ (polls_foundUe _ _ _) (polls_ite _ (polls_foundCe _ _) rfl))

theorem polls_memWrite {s t : State} {a : Nat} {bs : List Byte} {r : Bool} (h : memWrite s a bs = some (r, t)) : polls t = polls s := by
  have hmark : ∀ (t : State) (g b : Nat), polls (writeMark t a bs.length g b) = polls t := fun t g b => polls_ite _ rfl (polls_touchGran _ _ _)
  unfold memWrite at h
  split at h
  · dsimp only at h
    split at h
    · cases h; rfl
    · cases h
      exact (polls_caParity _ _).trans ((polls_foldl _ _ _ fun _ _ => hmark _ _ _).trans (polls_foldl _ _ _ fun _ _ => polls_holdForRepair _ _))
  · cases h

theorem polls_writeVerdict (s : State) (att : DWord) (v : Nat) : polls (writeVerdict s att v) = polls s := by
  unfold writeVerdict memPut
  split
  · split
    · exact polls_memWrite ‹_›
    · rfl
  · rfl

/-! ### What answers no request -/

/-- No collective is in progress in `t`; the requests outstanding are those of `s`, the polls of a verdict stand, and so does the mark of
a stream that has faulted. -/
structure Unasked (s t : State) : Prop where
  idle : t.coll.active = []
  outs : t.fab.outs = s.fab.outs
  polls : Machine.polls t = Machine.polls s
  faulted : ∀ d c, (str s d c).faulted = true → (str t d c).faulted = true

/-- With an idle collective engine, what comes to `t` answers no request. -/
def Unanswered (s t : State) : Prop := s.coll.active = [] → Unasked s t

theorem Unanswered.refl (s : State) : Unanswered s s := fun hidle => ⟨hidle, rfl, rfl, fun _ _ => id⟩

theorem Unanswered.trans {s t u : State} (h : Unanswered s t) (g : Unanswered t u) : Unanswered s u := fun hidle => by
  obtain ⟨hidle', houts, hpolls, hfaulted⟩ := h hidle
  obtain ⟨hidle'', houts', hpolls', hfaulted'⟩ := g hidle'
  exact ⟨hidle'', houts'.trans houts, hpolls'.trans hpolls, fun d c hf => hfaulted' d c (hfaulted d c hf)⟩

theorem Unanswered.ite {s a b : State} (c : Prop) [Decidable c] (ha : Unanswered s a) (hb : Unanswered s b) :
    Unanswered s (if c then a else b) := by split <;> assumption

theorem Unanswered.foldl {α : Type} (f : State → α → State) (h : ∀ s x, Unanswered s (f s x)) (l : List α) (s : State) :
    Unanswered s (l.foldl f s) := by
  induction l generalizing s with
  | nil => exact .refl s
  | cons x l ih => exact (h s x).trans (ih _)

/-- What leaves the fabric port and the collectives alone. -/
theorem Unanswered.of_parts {s t : State} (hpolls : polls t = polls s)
    (hfaulted : ∀ d c, (str s d c).faulted = true → (str t d c).faulted = true)
    (h : t.erase (fun c => decide (c ∉ [Comp.coll, .fab])) = s.erase (fun c => decide (c ∉ [Comp.coll, .fab]))) : Unanswered s t := by
  have hcoll : t.coll = s.coll := by simpa [State.erase] using congrArg State.coll h
  have hfab : t.fab = s.fab := by simpa [State.erase] using congrArg State.fab h
  exact fun hidle => ⟨by rw [hcoll, hidle], by rw [hfab], hpolls, hfaulted⟩

/-- What leaves the step unit and the dies alone as well. -/
theorem Unanswered.of_frame {s t : State}
    (h : t.erase (fun c => decide (c ∉ [Comp.coll, .fab, .step, .dies])) = s.erase (fun c => decide (c ∉ [Comp.coll, .fab, .step, .dies]))) :
    Unanswered s t := by
  have hcoll : t.coll = s.coll := by simpa [State.erase] using congrArg State.coll h
  have hfab : t.fab = s.fab := by simpa [State.erase] using congrArg State.fab h
  have hstep : t.step = s.step := by simpa [State.erase] using congrArg State.step h
  have hdies : t.dies = s.dies := by simpa [State.erase] using congrArg State.dies h
  exact fun hidle => ⟨by rw [hcoll, hidle], by rw [hfab], by rw [polls, polls, hstep], fun d c => by rw [str_congr hdies]; exact id⟩

theorem unanswered_updStr {s : State} {d : Die} {c : Sid} {f : Stream → Stream}
    (h : (str s d c).faulted = true → (f (str s d c)).faulted = true) : Unanswered s (updStr s d c f) := by
  refine .of_parts rfl (fun e k hf => ?_) (updStr_frame (by decide) s d c f)
  by_cases hek : e = d ∧ k = c
  · obtain ⟨rfl, rfl⟩ := hek
    rw [str_updStr_self]; exact h hf
  · rwa [str_updStr_ne _ _ _ _ _ _ (not_and_or.mp hek)]

theorem unanswered_updArr (s : State) (d : Die) (f : ArrayUnit → ArrayUnit) : Unanswered s (updArr s d f) :=
  .of_parts rfl (fun _ _ => by rw [str_updArr]; exact id) (updArr_frame (by decide) s d f)

theorem unanswered_updCtx (s : State) (d : Die) (c : Sid) (f : VCtx → VCtx) : Unanswered s (updCtx s d c f) :=
  .of_parts rfl (fun _ _ => by rw [str_updCtx]; exact id) (updCtx_frame (by decide) s d c f)

theorem unanswered_putObj (s : State) (r : ObjRef) (o : SyncObj) : Unanswered s (putObj s r o) := by
  refine .of_parts ?_ (fun _ _ => by rw [str_putObj]; exact id) (putObj_frame (by decide) s r o)
  cases r <;> rfl

/-! ### Signals -/

theorem unanswered_issued (s : State) (d : Die) (c : Sid) : Unanswered s (issued s d c) :=
  (unanswered_updStr (by exact id)).trans (.of_frame (addReg64_frame (by decide) _ _ _))

theorem unanswered_endStreamWait (s : State) (d : Die) (c : Sid) (st : Nat) : Unanswered s (endStreamWait s d c st).1 := by
  have hended : Unanswered s (updStr s d c fun x => { x with waiter := st }) := unanswered_updStr id
  unfold endStreamWait
  dsimp only
  split
  · exact hended.trans (unanswered_issued _ _ _)
  · split
    · refine (hended.trans (unanswered_issued _ d c)).trans ?_
      dsimp only
      exact unanswered_updStr id
    · exact (hended.trans (unanswered_updStr (by exact fun _ => rfl))).trans (.of_frame (stopImage_frame (by decide) _ _))

theorem unanswered_endWaiters (s : State) (r : ObjRef) (o : SyncObj) (ws : List (Waiter × Nat)) : Unanswered s (endWaiters s r o ws).1 := by
  induction ws generalizing s with
  | nil => exact .refl s
  | cons e ws ih =>
    obtain ⟨⟨who, take, v, deadline⟩, st⟩ := e
    rw [endWaiters_cons_fst]
    refine Unanswered.trans ?_ (ih _)
    cases who with
    | slot n => exact .of_frame (endSlot_frame (by decide) s n st o)
    | stream d c =>
      exact (Unanswered.ite _ (.of_frame (cdSyncEvent_frame (by decide) _ _ _ _ _ _)) (.refl s)).trans (unanswered_endStreamWait _ d c st)

theorem unanswered_applyRes (s : State) (r : ObjRef) (src : Src) (res : ObjRes) : Unanswered s (applyRes s r src res).1 :=
  (unanswered_putObj s r res.obj).trans <|
    (Unanswered.ite _ (.of_frame (logObjError_frame (by decide) _ _ _ _)) (.refl _)).trans (unanswered_endWaiters _ _ _ _)

theorem unanswered_noteInput (s : State) (src : Src) (i : Nat) : Unanswered s (noteInput s src i) := by
  refine .of_parts ?_ (fun d c => ?_) (noteInput_frame (by decide) s src i)
  · unfold noteInput
    split
    · exact polls_ite _ rfl rfl
    · rfl
  · rw [str_congr ((show changesOnly [.step] s (noteInput s src i) from noteInput_frame (by decide) s src i).dies (by decide))]
    exact id

theorem unanswered_addOnce (s : State) (g : Sig) : Unanswered s (addOnce s g).1 := by
  obtain ⟨r, n, tag, src⟩ := g
  cases r with
  | glob i =>
    have hcounted : Unanswered s (signalCounted s src i.val) :=
      (Unanswered.of_frame (addReg64_frame (by decide) _ _ _)).trans <|
        (Unanswered.of_frame (noteCommit_frame (by decide) _ _ _)).trans (unanswered_noteInput _ _ _)
    have happlied := unanswered_applyRes (signalCounted s src i.val) (.glob i) src ((getObj (signalCounted s src i.val) (.glob i)).add n)
    refine (hcounted.trans happlied).trans ?_
    exact .of_frame (signalClass_frame (by decide) i.val _)
  | loc d i =>
    have hadd := unanswered_applyRes s (.loc d i) src ((getObj s (.loc d i)).add n)
    unfold addOnce
    dsimp only
    split
    · exact .refl s
    · split
      · exact hadd
      · split
        · exact hadd
        · split
          · exact unanswered_applyRes _ _ _ _
          · split
            · exact unanswered_applyRes _ _ _ _
            · exact .of_frame (addReg_frame (by decide) _ _ _)

theorem unanswered_signals (s : State) (gs : List Sig) : Unanswered s (signals s gs) := by
  have hall : ∀ fuel gs (t : State), Unanswered t (addSignals fuel gs t) := fun fuel => by
    induction fuel with
    | zero => exact fun gs t => by cases gs <;> exact .refl t
    | succ n ih =>
      intro gs t
      cases gs with
      | nil => exact .refl t
      | cons g gs => exact (unanswered_addOnce t g).trans (ih _ _)
  exact hall _ gs s

theorem unanswered_leaveObj (s : State) (r : ObjRef) (who : Who) : Unanswered s (leaveObj s r who) :=
  (unanswered_applyRes s r _ _).trans (unanswered_signals _ _)

theorem unanswered_withdrawWait (s : State) (d : Die) (c : Sid) : Unanswered s (withdrawWait s d c) := by
  unfold withdrawWait
  split
  · exact unanswered_leaveObj _ _ _
  · exact .refl s

theorem unanswered_withdrawAll (s : State) (xs : List (Die × Sid)) : Unanswered s (withdrawAll s xs) := by
  rw [withdrawAll, leaveAll]
  exact (Unanswered.foldl _ (fun _ _ => unanswered_putObj _ _ _) _ s).trans (Unanswered.foldl _ (fun _ _ => unanswered_leaveObj _ _ _) _ _)

/-! ### Streams that are reset, and steps that are poisoned (R49, R205) -/

theorem unanswered_withdrawReady (s : State) (d : Die) (c : Sid) : Unanswered s (withdrawReady s d c) := by
  have hready := unanswered_updArr s d fun a => { a with ready := a.ready.put c none }
  exact .ite _ (hready.trans (.of_frame (State.erase_gang _ _ (by decide)))) hready

/-- With no collective in progress, a reset ends none. -/
theorem unanswered_resetColls (s : State) (d : Die) (c : Sid) : Unanswered s (resetColls s d c) := fun hidle => by
  have hnone : resetColls s d c = s := by simp [resetColls, hidle]
  rw [hnone]
  exact Unanswered.refl s hidle

theorem unanswered_streamReset (s : State) (d : Die) (c : Sid) : Unanswered s (streamReset s d c) := by
  refine .ite _ (unanswered_updArr _ _ _) ?_
  unfold resetNow
  extract_lets left cleared emptied idled
  have hcleared : Unanswered s cleared :=
    (unanswered_withdrawWait s d c).trans ((unanswered_withdrawReady left d c).trans (unanswered_updArr _ _ _))
  have hidled : Unanswered cleared idled := (unanswered_updCtx _ _ _ _).trans (unanswered_updStr (by exact id))
  exact (hcleared.trans hidled).trans (unanswered_resetColls _ _ _)

theorem unanswered_enterPoison (s : State) (d : Die) (c : Sid) : Unanswered s (enterPoison s d c) := by
  rw [enterPoison]
  exact (Unanswered.ite _ (unanswered_streamReset s d c) (unanswered_withdrawWait s d c)).trans (unanswered_updStr (by exact id))

theorem unanswered_updAttempt (s : State) (att : DWord) (f : Attempt → Attempt) : Unanswered s (updAttempt s att f) :=
  .of_parts rfl (fun _ _ => id) (updAttempt_frame (by decide) s att f)

theorem unanswered_writeVerdict (s : State) (att : DWord) (v : Nat) : Unanswered s (writeVerdict s att v) := by
  have hframe : changesOnly [.out, .regs, .rs, .host, .step, .img, .mem, .flash] s (writeVerdict s att v) := writeVerdict_frame (by decide) s att v
  exact .of_parts (polls_writeVerdict s att v) (fun d c => by rw [str_congr (hframe.dies (by decide))]; exact id)
    (writeVerdict_frame (by decide) s att v)

theorem unanswered_setPoison (s : State) (att : DWord) : Unanswered s (setPoison s att) := by
  unfold setPoison
  extract_lets ruled written ended withdrawn
  have hwritten : Unanswered s written := (unanswered_updAttempt s att _).trans (unanswered_writeVerdict ruled att 2)
  have hended : Unanswered s ended := fun hidle => by
    have hnone : ended = written := by simp only [ended, (hwritten hidle).idle, List.filter_nil, List.foldl_nil]
    rw [hnone]
    exact hwritten hidle
  refine (hended.trans (unanswered_withdrawAll ended _)).trans (.foldl _ (fun s d => .foldl _ (fun s c => ?_) _ s) _ _)
  exact .ite _ (unanswered_enterPoison s d c) (.refl s)

/-- A packet sent answers no request. -/
theorem unanswered_of_ledger {s t : State} (hledger : ledger t = ledger s)
    (h : t.erase (fun c => decide (c ∉ [Comp.coll, .step, .dies])) = s.erase (fun c => decide (c ∉ [Comp.coll, .step, .dies]))) : Unanswered s t := by
  have hcoll : t.coll = s.coll := by simpa [State.erase] using congrArg State.coll h
  have hstep : t.step = s.step := by simpa [State.erase] using congrArg State.step h
  have hdies : t.dies = s.dies := by simpa [State.erase] using congrArg State.dies h
  exact fun hidle => ⟨by rw [hcoll, hidle], outs_eq_of_ledger hledger, by rw [polls, polls, hstep], fun d c => by rw [str_congr hdies]; exact id⟩

theorem unanswered_depart (s : State) (w : WaitPkt) (c : Chan) : Unanswered s (depart s w c) :=
  unanswered_of_ledger (ledger_depart s w c) (depart_frame (by decide) s w c)

theorem unanswered_parkPkt (s : State) (w : WaitPkt) : Unanswered s (parkPkt s w) :=
  unanswered_of_ledger (ledger_parkPkt s w) (parkPkt_frame (by decide) s w)

theorem unanswered_broadcast (s : State) (p : Packet) : Unanswered s (broadcast s p) := by
  have hB : ∀ (t : State) (dm : Nat × Half), Unanswered t (sendCopyB p t dm) := fun t dm => by
    unfold sendCopyB
    dsimp only
    split
    · exact unanswered_depart _ _ _
    · exact unanswered_parkPkt _ _
  have hA : ∀ (t : State) (m : Half), Unanswered t (sendCopyA p t m) := fun t m => by
    have hpick := unanswered_of_ledger (ledger_pick t { pkt := freshCopy t p m, at0 := t.clk } true) (pick_frame (by decide) t _ true)
    unfold sendCopyA
    dsimp only
    split
    next hp => rw [hp] at hpick; exact hpick.trans (unanswered_depart _ _ _)
    next hp => rw [hp] at hpick; exact hpick.trans (unanswered_parkPkt _ _)
  exact (Unanswered.foldl _ hA _ s).trans (Unanswered.foldl _ hB _ _)

theorem unanswered_fastPoison (s : State) (att : DWord) (bit : Nat) (layer : Half) (cd : Byte) : Unanswered s (fastPoison s att bit layer cd) := by
  have hcause : Unanswered s (addCause s att bit layer cd) := unanswered_updAttempt s att _
  unfold fastPoison
  split
  · exact .refl s
  · dsimp only
    split
    · exact .refl s
    · exact hcause
    · exact hcause.trans ((unanswered_broadcast _ _).trans ((unanswered_updAttempt _ _ _).trans (unanswered_setPoison _ _)))

/-- R203: a fault in a step body outside pass 2 answers no request, and its stream is marked. -/
theorem faultAs_unasked {s : State} {d : Die} {c : Sid} (bit typ : Nat) (seq : Half) (addr : DWord) (layer : Half)
    (hp2 : (str s d c).pass2 = false) (hidle : s.coll.active = []) :
    Unasked s (faultAs s d c false false bit typ seq addr layer) ∧
      (str (faultAs s d c false false bit typ seq addr layer) d c).faulted = true := by
  have hrecorded : Unanswered s (recordFault s d c (2 ^ bit) typ seq addr) := .of_frame (recordFault_frame (by decide) _ _ _ _ _ _ _)
  have hmarked : Unanswered (recordFault s d c (2 ^ bit) typ seq addr)
      (updStr (recordFault s d c (2 ^ bit) typ seq addr) d c fun x => { x with faulted := true }) := unanswered_updStr fun _ => rfl
  have hfaulted : (str (updStr (recordFault s d c (2 ^ bit) typ seq addr) d c fun x => { x with faulted := true }) d c).faulted = true := by
    rw [str_updStr_self]
  have hpoisoned : Unanswered (updStr (recordFault s d c (2 ^ bit) typ seq addr) d c fun x => { x with faulted := true })
      (faultPoisoned s d c bit typ seq addr layer) := unanswered_fastPoison _ _ _ _ _
  have hover : ∀ (p : State) (st : StrSt),
      Unanswered p (stepOver (updStr p d c fun x => { x with poison := true, st := st, waitRef := none }) d c addr) := fun p st =>
    (unanswered_updStr (s := p) (f := fun x => { x with poison := true, st := st, waitRef := none }) id).trans
      (unanswered_updStr (by split <;> exact id))
  have hafter := (hpoisoned.trans (unanswered_streamReset _ d c)).trans (hover _ (if resetDue (streamReset
    (faultPoisoned s d c bit typ seq addr layer) d c) d c then .issuing else .poisonPath))
  rw [faultAs_inStep bit typ seq addr layer hp2]
  have hbefore := hrecorded.trans hmarked
  exact ⟨hbefore.trans hafter hidle, (hafter (hbefore hidle).idle).faulted d c hfaulted⟩

end Sys2Proof.Machine
end
section
/-! PROOF. O33: the answers of the module's own requests (R225, R304, R305, R307 to R309). -/
namespace Sys2Proof.Machine
open Sys2Proof

/-! ### What an arrival leaves on its link (R313, R317) -/

theorem link_updLink_self (s : State) (c : Chan) (f : Link → Link) : link (updLink s c f) c = f (link s c) := by
  simp only [link, updLink, SMap.upd, SMap.get_set_self]

theorem link_updLink_ne (s : State) {c e : Chan} (f : Link → Link) (h : chanNo e ≠ chanNo c) : link (updLink s c f) e = link s e := by
  simp only [link, updLink, SMap.upd, SMap.get_set_ne _ _ _ _ _ _ h]

/-- An update that leaves a part of every link alone. -/
theorem link_updLink_keeps {β : Type} (g : Link → β) {f : Link → Link} (h : ∀ l, g (f l) = g l) (s : State) (c e : Chan) :
    g (link (updLink s c f) e) = g (link s e) := by
  by_cases he : chanNo e = chanNo c
  · rw [link, he, ← link, link_updLink_self, h, link, link, he]
  · rw [link_updLink_ne s f he]

/-- `t` comes of `s` by credit granted to the link `c`: of the fabric port the links and the turns change, of the links only what is
granted to `c`, and what was sent is still sent. -/
structure CreditGiven (c : Chan) (s t : State) : Prop where
  regs : t.regs = s.regs
  out : ∀ o ∈ s.out, o ∈ t.out
  fab : t.fab = { s.fab with links := t.fab.links, turn := t.fab.turn }
  next : ∀ e, (link t e).rxNext = (link s e).rxNext
  others : ∀ e, chanNo e ≠ chanNo c → link t e = link s e

theorem creditGiven_grantCredit (s : State) (c : Chan) (vc n : Nat) : CreditGiven c s (grantCredit s c vc n) := by
  unfold grantCredit
  split
  · exact ⟨rfl, fun _ => id, rfl, fun _ => rfl, fun _ _ => rfl⟩
  · exact ⟨rfl, fun o => List.mem_cons_of_mem _, rfl, fun e => link_updLink_keeps Link.rxNext (by exact fun _ => rfl) s c e,
      fun e he => link_updLink_ne s _ he⟩

/-- The next link on a relief channel has its turn. -/
def turned (s : State) (ch : Chan) (vc : Nat) : State :=
  { s with fab := { s.fab with turn := SMap.set 0 s.fab.turn (8 * ch.port.val + vc) (chanNo (nextTurn s ch vc)) } }

theorem CreditGiven.of_turned {c ch : Chan} {vc : Nat} {s t : State} (h : CreditGiven c (turned s ch vc) t) : CreditGiven c s t :=
  ⟨h.regs, h.out, h.fab, h.next, h.others⟩

/-- The credit of `p` goes to the link of its channel, or on relief to the next in turn. -/
theorem creditGiven_poolFreed (p : Packet) (ch : Chan) (s : State) :
    ∃ c, CreditGiven c s (poolFreed p ch s) ∧ (p.relief = false → c = ch) := by
  unfold poolFreed freeCredit
  split
  · exact ⟨ch, ⟨rfl, fun _ => id, rfl, fun _ => rfl, fun _ _ => rfl⟩, fun _ => rfl⟩
  · split
    next hodd =>
      refine ⟨nextTurn s ch (pktVc p), (creditGiven_grantCredit (turned s ch (pktVc p)) _ _ _).of_turned, fun hrelief => ?_⟩
      rw [pktVc, hrelief] at hodd
      simp [b2n] at hodd
    · exact ⟨ch, creditGiven_grantCredit _ _ _ _, fun _ => rfl⟩

/-- An arrival is noted on its link alone (R313). -/
theorem noteArrival_others (s : State) (p : Packet) {ch c : Chan} (h : chanNo c ≠ chanNo ch) : link (noteArrival s p ch) c = link s c :=
  link_updLink_ne (addReg64 s rRxFlits (flits p)) _ h

/-- The LSN expected next and those seen out of turn, once `n` has been taken. -/
def lsnTaken (l : Link) (n : Half) : Half × List Half :=
  takeLsn ((if n ∈ l.rxSeen then l.rxSeen else l.rxSeen ++ [n]).length + 1) l.rxNext (if n ∈ l.rxSeen then l.rxSeen else l.rxSeen ++ [n])

theorem rxNext_noteArrival (s : State) (p : Packet) (ch : Chan) : (link (noteArrival s p ch) ch).rxNext = (lsnTaken (link s ch) p.lsn).1 :=
  congrArg Link.rxNext (link_updLink_self (addReg64 s rRxFlits (flits p)) ch _)

/-- An arrival in its turn moves the link on by one. -/
theorem lsnTaken_inTurn {l : Link} {n : Half} (hseen : l.rxSeen = []) (hlsn : n = l.rxNext) : (lsnTaken l n).1 = n + 1 := by
  rw [lsnTaken, hseen, if_neg List.not_mem_nil, ← hlsn]
  simp [takeLsn]

/-- An arrival whose unit changed only the requests outstanding has been noted. -/
theorem noted_poolFreed (p : Packet) (ch : Chan) (s : State) (outs : List OutPkt) :
    noted p ch s (withOuts (poolFreed p ch (withOuts (noteArrival s p ch) outs)) s.fab.outs) := by
  obtain ⟨c, ⟨hregs, hout, hfab, hnext, hothers⟩, hc⟩ := creditGiven_poolFreed p ch (withOuts (noteArrival s p ch) outs)
  generalize poolFreed p ch (withOuts (noteArrival s p ch) outs) = t at *
  have hnext' : (link t ch).rxNext = (lsnTaken (link s ch) p.lsn).1 := (hnext ch).trans (rxNext_noteArrival s p ch)
  refine ⟨?_, ?_, fun hseen hlsn => hnext'.trans (lsnTaken_inTurn hseen hlsn), fun hrelief e he => ?_, ?_⟩
  · have hcount : reg64 (addReg64 s rRxFlits (flits p)) rRxFlits = reg64 s rRxFlits + w64 (flits p) := reg64_addReg64_self s rRxFlits (flits p)
    have hkept : (withOuts t s.fab.outs).regs = (addReg64 s rRxFlits (flits p)).regs := hregs
    rw [← hcount]
    simp only [reg64, reg, hkept]
  · have hack : (link t ch).rxNext - 1 = (lsnTaken (link s ch) p.lsn).1 - 1 := congrArg (· - 1) hnext'
    refine hout _ (List.mem_cons.mpr (.inl ?_))
    exact congrArg (fun a => Output.linkControl ⟨ch, a, [], []⟩) hack
  · exact (hothers e (by rw [hc hrelief]; exact he)).trans (noteArrival_others s p he)
  · rw [withOuts, hfab]; rfl

theorem poolFreed_frame {K : Comp → Bool} (h : [.out, .fab].all K = true) (p : Packet) (ch : Chan) (s : State) :
    (poolFreed p ch s).erase K = s.erase K := freeCredit_frame h _ _ _ _

theorem poolFreed_changesOnly (p : Packet) (ch : Chan) (s : State) : changesOnly [.out, .fab] s (poolFreed p ch s) :=
  poolFreed_frame (by decide) p ch s

theorem ledger_poolFreed (p : Packet) (ch : Chan) (s : State) : ledger (poolFreed p ch s) = ledger s := ledger_freeCredit _ _ _ _

theorem reg64_noteArrival (s : State) (p : Packet) (ch : Chan) {o : Nat} (h : o + 4 < rRxFlits ∨ rRxFlits + 4 < o) :
    reg64 (noteArrival s p ch) o = reg64 s o := by
  rw [← reg64_addReg64_ne s (o := rRxFlits) (flits p) h]
  simp only [reg64, reg, regs_noteArrival]

theorem str_noteArrival (s : State) (p : Packet) (ch : Chan) : str (noteArrival s p ch) = str s :=
  str_congr ((noteArrival_changesOnly s p ch).dies (by decide))

theorem idle_noteArrival {s : State} (p : Packet) (ch : Chan) (outs : List OutPkt) (hidle : s.coll.active = []) :
    (withOuts (noteArrival s p ch) outs).coll.active = [] := by
  have hcoll : (noteArrival s p ch).coll = s.coll := (noteArrival_changesOnly s p ch).coll (by decide)
  exact (congrArg (·.active) hcoll).trans hidle

/-- With no collective in progress none goes on. -/
theorem progressAll_of_idle {s : State} (h : s.coll.active = []) : progressAll s = s := by rw [progressAll, h]; rfl

/-! ### The packets that answer -/

theorem exec_readData {s : State} {p : Packet} {ch : Chan} (h : accepted s ptReadData p ch) :
    exec (.readData p ch) s = .next (poolFreed p ch (takeReadData p (noteArrival s p ch))) :=
  congrArg Host.Outcome.next (arrive_accepted (takeReadData p) h)

theorem exec_status {s : State} {p : Packet} {ch : Chan} (h : accepted s ptStatus p ch) :
    exec (.status p ch) s = .next (poolFreed p ch (takeStatus p (noteArrival s p ch))) :=
  congrArg Host.Outcome.next (arrive_accepted (takeStatus p) h)

theorem exec_e2eAck {s : State} {p : Packet} {ch : Chan} (h : accepted s ptE2eAck p ch) :
    exec (.e2eAck p ch) s = .next (poolFreed p ch (takeE2eAck p (noteArrival s p ch))) :=
  congrArg Host.Outcome.next (arrive_accepted (takeE2eAck p) h)

/-- R307: data for a transaction that is not live is noted as an arrival, and no more. -/
theorem readData_stray {s : State} {p : Packet} {ch : Chan} (h : accepted s ptReadData p ch) (hnone : txnOf s p = none) :
    ∃ t, exec (.readData p ch) s = .next t ∧ noted p ch s t ∧ t.fab.dst = s.fab.dst ∧ changesOnly [.regs, .fab, .out] s t := by
  have htake : takeReadData p (noteArrival s p ch) = noteArrival s p ch := by
    have hlive : txnOf (noteArrival s p ch) p = none := hnone
    rw [takeReadData, hlive]
  have hledger := ledger_poolFreed p ch (noteArrival s p ch)
  have hnoted := noted_poolFreed p ch s s.fab.outs
  have houts : (poolFreed p ch (noteArrival s p ch)).fab.outs = s.fab.outs := outs_eq_of_ledger hledger
  rw [withOuts_self (s := noteArrival s p ch) (outs := s.fab.outs) rfl, withOuts_self houts] at hnoted
  refine ⟨_, exec_readData h, ?_⟩
  rw [htake]
  exact ⟨hnoted, dst_eq_of_ledger hledger, by rw [changesOnly, poolFreed_frame (by decide), noteArrival_frame (by decide)]⟩

/-- R309: an acknowledgement ends the collective packets that it covers. -/
theorem e2eAck_ends {s : State} {p : Packet} {ch : Chan} (h : accepted s ptE2eAck p ch) (hidle : s.coll.active = []) :
    ∃ t, exec (.e2eAck p ch) s = .next t ∧ noted p ch s { t with fab := { t.fab with outs := s.fab.outs } } ∧
      t.fab.outs = s.fab.outs.filter (fun o => !(decide (16384 ≤ o.oid) && !bitAt p.addr 18 &&
        decide (o.pkt.srcEp = p.dstEp ∧ o.pkt.dstMod = p.srcMod ∧ o.pkt.dstEp = p.srcEp) && decide (o.pkt.cls.toNat = fld p.addr 17 16) &&
        serialAtOrBefore 16 o.pkt.fseq.toNat (fld p.addr 15 0))) ∧ changesOnly [.regs, .fab, .out] s t := by
  have htake : takeE2eAck p (noteArrival s p ch) = progressAll (withOuts (noteArrival s p ch) (s.fab.outs.filter (fun o => !(decide (16384 ≤ o.oid) &&
      !bitAt p.addr 18 && decide (o.pkt.srcEp = p.dstEp ∧ o.pkt.dstMod = p.srcMod ∧ o.pkt.dstEp = p.srcEp) &&
      decide (o.pkt.cls.toNat = fld p.addr 17 16) && serialAtOrBefore 16 o.pkt.fseq.toNat (fld p.addr 15 0))))) := rfl
  generalize s.fab.outs.filter _ = outs at htake ⊢
  rw [progressAll_of_idle (idle_noteArrival p ch outs hidle)] at htake
  refine ⟨_, exec_e2eAck h, ?_⟩
  rw [htake]
  refine ⟨noted_poolFreed p ch s outs, outs_eq_of_ledger (ledger_poolFreed _ _ _), ?_⟩
  rw [changesOnly, poolFreed_frame (by decide), withOuts, State.erase_fab _ _ (by decide), noteArrival_frame (by decide)]

/-! ### The answer of the only request outstanding -/

/-- R307: the answer names the request by its transaction. -/
theorem txnOf_awaiting {s : State} {p : Packet} {ch : Chan} {o : OutPkt} {u : TxnUser} (h : awaiting s o u p) :
    txnOf (noteArrival s p ch) p = some o := by
  obtain ⟨houts, hoid, htxn, hans, -⟩ := h
  have hone : (noteArrival s p ch).fab.outs = [o] := houts
  rw [txnOf, hone]
  simp [hoid, htxn, hans]

theorem resent_noteArrival_outs {s : State} {p : Packet} {ch : Chan} {o : OutPkt} {u : TxnUser} (h : awaiting s o u p) :
    ∃ n, (resent (noteArrival s p ch) o).fab.outs =
      [{ o with tries := o.tries + 1, deadline := n, pkt := { o.pkt with retx := true, epoch := s.fab.cur } }] := by
  obtain ⟨houts, -⟩ := h
  have hmap : (resent (noteArrival s p ch) o).fab.outs = outsRetried (noteArrival s p ch) o := rfl
  have hone : (noteArrival s p ch).fab.outs = [o] := houts
  refine ⟨(noteArrival s p ch).clk + rtoNs (noteArrival s p ch) o.far, ?_⟩
  rw [hmap, outsRetried, hone, List.map_singleton, if_pos rfl]
  rfl

/-- R308: BUSY is met with a retransmission. -/
theorem status_busy {s : State} {p : Packet} {ch : Chan} {o : OutPkt} {u : TxnUser} (h : accepted s ptStatus p ch) (hwait : awaiting s o u p)
    (hcode : fld p.addr 7 0 = 5) (htries : o.tries < s.fab.timers.e2eRetryMax) (hu : noPayload u) :
    ∃ v, exec (.status p ch) s = .next (poolFreed p ch (sendPkt v { o.pkt with retx := true, epoch := s.fab.cur, payload := [] })) ∧
      (∃ n, v.fab.outs = [{ o with tries := o.tries + 1, deadline := n, pkt := { o.pkt with retx := true, epoch := s.fab.cur } }]) ∧
      reg64 v rE2eRetx = reg64 s rE2eRetx + 1 ∧ changesOnly [.regs, .fab, .out] s v := by
  have htake : takeStatus p (noteArrival s p ch) = resend (noteArrival s p ch) o := by
    rw [takeStatus, txnOf_awaiting hwait]
    exact if_pos hcode
  have huser : o.user = u := by obtain ⟨-, -, -, -, huser⟩ := hwait; exact huser
  have hsent := resend_of_reread (s := noteArrival s p ch) (o := o) htries (reread_noPayload _ (by rw [huser]; exact hu))
  refine ⟨resent (noteArrival s p ch) o, ?_, resent_noteArrival_outs hwait, ?_, ?_⟩
  · rw [exec_status h, htake, hsent]
    rfl
  · rw [reg64_resent, reg64_noteArrival s p ch (by decide)]
  · exact changesOnly.trans (t := noteArrival s p ch) (noteArrival_frame (by decide) _ _ _) (by simp [changesOnly, resent, touchFlow])

/-! ### Remote signals (R225) -/

/-- A STATUS other than BUSY ends the request for the unit that waits, and no collective goes on. -/
theorem takeStatus_ends {s : State} {p : Packet} {ch : Chan} {o : OutPkt} {u : TxnUser} {code : Nat} (hwait : awaiting s o u p)
    (hcode : fld p.addr 7 0 = code) (hlt : code < scBusy) (houts : (endTxn (withOuts (noteArrival s p ch) []) u code []).fab.outs = [])
    (hidle : (endTxn (withOuts (noteArrival s p ch) []) u code []).coll.active = []) :
    takeStatus p (noteArrival s p ch) = endTxn (withOuts (noteArrival s p ch) []) u code [] := by
  have hlt' : code < 5 := hlt
  have htxn := txnOf_awaiting (ch := ch) hwait
  obtain ⟨hone, -, -, -, rfl⟩ := hwait
  have hanswer := answerTxn_of_single (s := noteArrival s p ch) (o := o) code [] hone houts
  rw [takeStatus, htxn]
  dsimp only
  rw [hcode, if_neg (by omega), if_neg (by omega), hanswer, progressAll_of_idle hidle]

theorem endSignal_ok {s : State} {d : Die} {c : Sid} {i ref : Nat} {e : InFlight} (he : findInflight (str s d c) .signal i = some e) :
    endSignal s d c i ref scOk = completeDesc s d c e := by rw [endSignal, he]; rfl

theorem endSignal_stale {s : State} {d : Die} {c : Sid} {i ref : Nat} {e : InFlight} (he : findInflight (str s d c) .signal i = some e) :
    endSignal s d c i ref scStale = completeDesc (addReg s (cdWin d.val + rCdSyncStale) 1) d c e := by rw [endSignal, he]; rfl

/-- A descriptor in progress that still counts leaves its list and makes its DONE signal (R176). -/
theorem completeDesc_loud {s : State} {d : Die} {c : Sid} {e : InFlight} (hloud : e.silent = false) :
    completeDesc s d c e = signals (dropInflight s d c e.id) (doneSig d c (str s d c) e.desc) := by
  have hsig : doneSig d c (str (dropInflight s d c e.id) d c) e.desc = doneSig d c (str s d c) e.desc := by
    rw [dropInflight, str_updStr_self, doneSig_eq, doneSig_eq]
  rw [completeDesc, hloud, hsig]
  rfl

/-- With its descriptor in progress, the end of a remote signal is the end of the descriptor. -/
theorem status_completes {s v : State} {p : Packet} {ch : Chan} {o : OutPkt} {d : Die} {c : Sid} {i ref code : Nat} {e : InFlight}
    (h : accepted s ptStatus p ch) (hwait : awaiting s o (.signal d c i ref) p) (hcode : fld p.addr 7 0 = code) (hlt : code < scBusy)
    (hends : endSignal (withOuts (noteArrival s p ch) []) d c i ref code = completeDesc v d c e) (hloud : e.silent = false)
    (hstr : str v = str s) (houts : v.fab.outs = []) (hidle : v.coll.active = []) :
    exec (.status p ch) s = .next (poolFreed p ch (signals (dropInflight v d c e.id) (doneSig d c (str s d c) e.desc))) := by
  have hcompleted : endTxn (withOuts (noteArrival s p ch) []) (.signal d c i ref) code [] =
      signals (dropInflight v d c e.id) (doneSig d c (str s d c) e.desc) := by
    rw [← hstr, ← completeDesc_loud hloud, ← hends]
    rfl
  obtain ⟨hidle', houts', -, -⟩ := unanswered_signals (dropInflight v d c e.id) (doneSig d c (str s d c) e.desc) hidle
  rw [exec_status h, takeStatus_ends hwait hcode hlt (by rw [hcompleted]; exact houts'.trans houts) (by rw [hcompleted]; exact hidle'), hcompleted]

/-- R225: an applied signal completes its descriptor. -/
theorem status_applied {s : State} {p : Packet} {ch : Chan} {o : OutPkt} {d : Die} {c : Sid} {i ref : Nat} {e : InFlight}
    (h : accepted s ptStatus p ch) (hwait : awaiting s o (.signal d c i ref) p) (hcode : fld p.addr 7 0 = 0)
    (he : findInflight (str s d c) .signal i = some e) (hloud : e.silent = false) (hidle : s.coll.active = []) :
    ∃ u, exec (.status p ch) s = .next (poolFreed p ch (signals u (doneSig d c (str s d c) e.desc))) ∧ u.fab.outs = [] ∧
      str u d c = { str s d c with inflight := (str s d c).inflight.filter fun x => decide (x.id ≠ e.id) } ∧ otherStreams d c s u ∧
      changesOnly [.regs, .fab, .out, .dies] s u := by
  have hstr : str (withOuts (noteArrival s p ch) []) = str s := str_noteArrival s p ch
  refine ⟨dropInflight (withOuts (noteArrival s p ch) []) d c e.id, ?_, rfl, ?_, ?_, ?_⟩
  · exact status_completes h hwait hcode (by decide) (endSignal_ok (by rw [hstr]; exact he)) hloud hstr rfl (idle_noteArrival p ch [] hidle)
  · rw [dropInflight, str_updStr_self, hstr]
  · exact (otherStreams_of_str hstr).trans (otherStreams_updStr _ d c _)
  · exact changesOnly.trans (t := noteArrival s p ch) (noteArrival_frame (by decide) _ _ _) (by simp [changesOnly, withOuts])

/-- R225: a stale one completes it too, and is counted. -/
theorem status_stale {s : State} {p : Packet} {ch : Chan} {o : OutPkt} {d : Die} {c : Sid} {i ref : Nat} {e : InFlight}
    (h : accepted s ptStatus p ch) (hwait : awaiting s o (.signal d c i ref) p) (hcode : fld p.addr 7 0 = 1)
    (he : findInflight (str s d c) .signal i = some e) (hloud : e.silent = false) (hidle : s.coll.active = []) :
    ∃ u, exec (.status p ch) s = .next (poolFreed p ch (signals u (doneSig d c (str s d c) e.desc))) ∧ u.fab.outs = [] ∧
      reg u (cdWin d.val + rCdSyncStale) = reg s (cdWin d.val + rCdSyncStale) + 1 ∧ otherStreams d c s u ∧
      changesOnly [.regs, .fab, .out, .dies] s u := by
  have hstr : str (withOuts (noteArrival s p ch) []) = str s := str_noteArrival s p ch
  have hstr' : str (addReg (withOuts (noteArrival s p ch) []) (cdWin d.val + rCdSyncStale) 1) = str s :=
    (str_congr (changesOnly.dies (ks := [.regs]) (addReg_frame (by decide) _ _ _) (by decide))).trans hstr
  have hreg : reg (withOuts (noteArrival s p ch) []) (cdWin d.val + rCdSyncStale) = reg s (cdWin d.val + rCdSyncStale) := by
    have hbeside : ∀ k, 0x1000000 ≤ k → reg (withOuts (noteArrival s p ch) []) k = reg s k := fun k hk => by
      rw [← reg_addReg64_ne s (o := rRxFlits) (flits p) (by simp only [rRxFlits]; omega) (by simp only [rRxFlits]; omega)]
      simp only [reg, withOuts, regs_noteArrival]
    exact hbeside _ (by simp only [cdWin, rCdSyncStale]; omega)
  refine ⟨dropInflight (addReg (withOuts (noteArrival s p ch) []) (cdWin d.val + rCdSyncStale) 1) d c e.id, ?_, rfl, ?_, ?_, ?_⟩
  · have hcounted : Unanswered (withOuts (noteArrival s p ch) []) (addReg (withOuts (noteArrival s p ch) []) (cdWin d.val + rCdSyncStale) 1) :=
      .of_frame (addReg_frame (by decide) _ _ _)
    obtain ⟨hidle', houts', -, -⟩ := hcounted (idle_noteArrival p ch [] hidle)
    exact status_completes h hwait hcode (by decide) (endSignal_stale (by rw [hstr]; exact he)) hloud hstr' houts' hidle'
  · rw [dropInflight, updStr, reg_updDie, addReg, reg_setReg_self, hreg]
    rfl
  · exact (otherStreams_of_str hstr').trans (otherStreams_updStr _ d c _)
  · exact changesOnly.trans (t := noteArrival s p ch) (noteArrival_frame (by decide) _ _ _) (by simp [changesOnly, withOuts])

/-- The state in which a refused signal has been logged. -/
def refusedLogged (s : State) (d : Die) (c : Sid) (ref : Nat) : State :=
  rsEvent (setReg s (cdWin d.val + rCdSyncErrInfo) (syncInfo 0 ⟨d.val, sidNat c, true⟩ ref)) (cdWin d.val + rCdSyncErr) 2

theorem refusedLogged_changesOnly (s : State) (d : Die) (c : Sid) (ref : Nat) : changesOnly [.regs, .out, .rs, .host] s (refusedLogged s d c ref) := by
  simp [changesOnly, refusedLogged]

theorem endSignal_refused {s : State} {d : Die} {c : Sid} {i ref : Nat} {e : InFlight} (he : findInflight (str s d c) .signal i = some e)
    (hloud : e.silent = false) : endSignal s d c i ref scRefused = unitFault (refusedLogged s d c ref) d c fRef e := by
  rw [endSignal, he]
  dsimp only
  rw [if_neg (by decide), if_neg (by decide), if_neg (by simp [hloud]), if_neg (by decide)]
  rfl

/-- R203: the fault of a descriptor in progress in a step body poisons its stream, and no request is answered by it. -/
theorem unitFault_inStep {s : State} {d : Die} {c : Sid} {e : InFlight} (hstep : inStep s d c) (hpath : e.onPath = false)
    (hidle : s.coll.active = []) :
    Onward s (unitFault s d c fRef e) ∧ Faulted d c fRef (unitFault s d c fRef e) ∧ Unasked s (unitFault s d c fRef e) ∧
      (str (unitFault s d c fRef e) d c).faulted = true := by
  obtain ⟨hprologue, -, hp2⟩ := hstep
  have hdropped : (str (dropInflight s d c e.id) d c).pass2 = false := by rw [dropInflight, str_updStr_self]; exact hp2
  have honward : Onward s (dropInflight s d c e.id) := onward_updStr ⟨id, id⟩
  have hunasked : Unanswered s (dropInflight s d c e.id) := unanswered_updStr id
  rw [unitFault, hprologue, hpath]
  obtain ⟨hfault, hnoted, -⟩ := faultAs_spec (bit := fRef) (dType e.desc) e.seq e.addr (dLayer e.desc) hdropped (by decide)
  obtain ⟨hmarks, hfaulted⟩ := faultAs_unasked fRef (dType e.desc) e.seq e.addr (dLayer e.desc) hdropped (hunasked hidle).idle
  exact ⟨honward.trans hfault, hnoted, hunasked.trans (fun _ => hmarks) hidle, hfaulted⟩

/-- R225, R203: a refused one is logged, and faults its descriptor. -/
theorem status_refused {s : State} {p : Packet} {ch : Chan} {o : OutPkt} {d : Die} {c : Sid} {i ref : Nat} {e : InFlight}
    (h : accepted s ptStatus p ch) (hwait : awaiting s o (.signal d c i ref) p) (hcode : fld p.addr 7 0 = 2) (hidle : s.coll.active = [])
    (he : findInflight (str s d c) .signal i = some e) (hloud : e.silent = false) (hstep : inStep s d c) (hpath : e.onPath = false) :
    ∃ t, exec (.status p ch) s = .next t ∧ t.fab.outs = [] ∧ (rsReg t (cdWin d.val + rCdSyncErr)).ev.getLsbD 2 = true ∧
      (rsReg t (cdWin d.val + rStrErr)).ev.getLsbD 2 = true ∧ (str t d c).poison = true ∧ (str t d c).faulted = true := by
  have hstr : str (withOuts (noteArrival s p ch) []) = str s := str_noteArrival s p ch
  have hlogged := refusedLogged_changesOnly (withOuts (noteArrival s p ch) []) d c ref
  have hstr' : str (refusedLogged (withOuts (noteArrival s p ch) []) d c ref) = str s := (str_congr (hlogged.dies (by decide))).trans hstr
  have hidle' : (refusedLogged (withOuts (noteArrival s p ch) []) d c ref).coll.active = [] :=
    (congrArg (·.active) (hlogged.coll (by decide))).trans (idle_noteArrival p ch [] hidle)
  obtain ⟨honward, hfault, hunasked, hfaulted⟩ := unitFault_inStep (s := refusedLogged (withOuts (noteArrival s p ch) []) d c ref) (d := d) (c := c)
    (by rw [inStep, hstr']; exact hstep) hpath hidle'
  have hevent : (rsReg (refusedLogged (withOuts (noteArrival s p ch) []) d c ref) (cdWin d.val + rCdSyncErr)).ev.getLsbD 2 = true :=
    rsReg_rsEvent_bit _ _ _ (by decide)
  have hnoted := honward.logged.events _ _ hevent
  have houts : (unitFault (refusedLogged (withOuts (noteArrival s p ch) []) d c ref) d c fRef e).fab.outs = [] :=
    hunasked.outs.trans (congrArg (·.outs) (hlogged.fab (by decide)))
  have hends : endTxn (withOuts (noteArrival s p ch) []) (.signal d c i ref) scRefused [] =
      unitFault (refusedLogged (withOuts (noteArrival s p ch) []) d c ref) d c fRef e := endSignal_refused (by rw [hstr]; exact he) hloud
  have htake := takeStatus_ends (ch := ch) (code := scRefused) hwait hcode (by decide) (by rw [hends]; exact houts) (by rw [hends]; exact hunasked.idle)
  refine ⟨_, exec_status h, ?_⟩
  rw [htake, hends]
  generalize unitFault (refusedLogged (withOuts (noteArrival s p ch) []) d c ref) d c fRef e = t at houts hnoted hfault hfaulted
  have hfreed := poolFreed_changesOnly p ch t
  have hrs := rsReg_congr (hfreed.rs (by decide))
  have hdies := str_congr (hfreed.dies (by decide))
  exact ⟨(outs_eq_of_ledger (ledger_poolFreed p ch t)).trans houts, by rw [hrs]; exact hnoted, by rw [hrs]; exact hfault.noted,
    by rw [hdies]; exact hfault.poison, by rw [hdies]; exact hfaulted⟩

/-! ### A verdict that was indeterminate (R52, R438) -/

/-- No peer is asked for a verdict any more. -/
def pollEnded (s : State) : State := { s with step := { s.step with pollAt := none, resolveAt := none, resolveFailed := false } }

/-- The end of the polls has been made known. -/
def verdictKnown (s : State) : State := signalUnit (rsEvent (pollEnded s) rImgEvt 4) 6

theorem takeVerdict_poison {s : State} {att : DWord} {data : List Byte} (hverdict : verdictOf s att = some .indeterminate)
    (hatt : leAt data (32 * (att.toNat % 2)) 8 = att.toNat) (hpoison : leAt data (32 * (att.toNat % 2) + 16) 1 = 2) :
    takeVerdict s att data = setPoison (addCause (verdictKnown s) att gRemote 0xFFFF 0xFF) att := by
  have hdecides : ¬ (verdictOf s att ≠ some .indeterminate ∨ leAt data (32 * (att.toNat % 2)) 8 ≠ att.toNat ∨
      (leAt data (32 * (att.toNat % 2) + 16) 1 ≠ 1 ∧ leAt data (32 * (att.toNat % 2) + 16) 1 ≠ 2)) := by simp [hverdict, hatt, hpoison]
  unfold takeVerdict
  dsimp only
  rw [if_neg hdecides, hpoison, if_neg (by decide)]
  rfl

/-- R438: a poison verdict of a peer ends the polls, is made known, and poisons the step. -/
theorem takeVerdict_poison_spec {s : State} {att : DWord} {data : List Byte} (hidle : s.coll.active = [])
    (hverdict : verdictOf s att = some .indeterminate) (hatt : leAt data (32 * (att.toNat % 2)) 8 = att.toNat)
    (hpoison : leAt data (32 * (att.toNat % 2) + 16) 1 = 2) :
    Unasked (pollEnded s) (takeVerdict s att data) ∧ verdictOf (takeVerdict s att data) att = some .poison ∧
      (rsReg (takeVerdict s att data) rImgEvt).ev.getLsbD 4 = true := by
  have hlogged : marks (rsEvent (pollEnded s) rImgEvt 4) = marks s :=
    (marks_rsEvent _ _ _ (by decide)).trans (marks_of_attempts rfl rfl rfl rfl rfl)
  have hkept : verdictOf (verdictKnown s) att = some .indeterminate := by
    rw [verdictKnown, signalUnit, (kept_signals _ _).verdict, verdictOf_eq_of_marks hlogged, hverdict]
  have hsome : (attempt (verdictKnown s) att).isSome = true := by
    cases hnone : attempt (verdictKnown s) att with
    | none => rw [verdictOf, hnone] at hkept; cases hkept
    | some a => rfl
  have hknown : Unanswered (pollEnded s) (verdictKnown s) :=
    (Unanswered.of_frame (rsEvent_frame (by decide) _ _ _)).trans (unanswered_signals _ _)
  have honward : Onward (rsEvent (pollEnded s) rImgEvt 4) (setPoison (addCause (verdictKnown s) att gRemote 0xFFFF 0xFF) att) :=
    (Onward.of_signalled (signalled_signals _ _)).trans ((onward_updAttempt _ _ _).trans (onward_setPoison _ _))
  rw [takeVerdict_poison hverdict hatt hpoison]
  refine ⟨(hknown.trans ((unanswered_updAttempt _ _ _).trans (unanswered_setPoison _ _))) hidle, ?_, ?_⟩
  · exact (setPoison_ruled (isSome_attempt_addCause _ _ _ hsome)).1
  · exact honward.logged.events _ _ (rsReg_rsEvent_bit _ _ _ (by decide))

/-- R438: data of the only request outstanding decides the verdict that was indeterminate. -/
theorem readData_decides {s : State} {p : Packet} {ch : Chan} {o : OutPkt} {att : DWord} (h : accepted s ptReadData p ch)
    (hwait : awaiting s o (.verdict att) p) (hidle : s.coll.active = []) (htype : o.pkt.type = ptRead) (hlen : p.payload.length = 64)
    (hverdict : verdictOf s att = some .indeterminate) (hatt : leAt p.payload (32 * (att.toNat % 2)) 8 = att.toNat)
    (hpoison : leAt p.payload (32 * (att.toNat % 2) + 16) 1 = 2) :
    ∃ t, exec (.readData p ch) s = .next t ∧ t.fab.outs = [] ∧ verdictOf t att = some .poison ∧ t.step.pollAt = none ∧
      t.step.resolveAt = none ∧ (rsReg t rImgEvt).ev.getLsbD 4 = true := by
  have hstep : (withOuts (noteArrival s p ch) []).step = s.step := (noteArrival_changesOnly s p ch).step (by decide)
  obtain ⟨⟨hidle', houts, hpolls, -⟩, hruled, hevent⟩ := takeVerdict_poison_spec (s := withOuts (noteArrival s p ch) []) (data := p.payload)
    (idle_noteArrival p ch [] hidle) ((congrFun (verdictOf_congr hstep) att).trans hverdict) hatt hpoison
  have htake : takeReadData p (noteArrival s p ch) = takeVerdict (withOuts (noteArrival s p ch) []) att p.payload := by
    have htxn := txnOf_awaiting (ch := ch) hwait
    obtain ⟨hone, -, -, -, huser⟩ := hwait
    have hend : endTxn (withOuts (noteArrival s p ch) []) o.user scOk p.payload = takeVerdict (withOuts (noteArrival s p ch) []) att p.payload := by
      rw [huser]; exact if_pos hlen
    have hanswer := answerTxn_of_single (s := noteArrival s p ch) (o := o) scOk p.payload hone (by rw [hend]; exact houts)
    rw [takeReadData, htxn]
    dsimp only
    rw [if_pos htype, hanswer, hend, progressAll_of_idle hidle']
  refine ⟨_, exec_readData h, ?_⟩
  rw [htake]
  generalize takeVerdict (withOuts (noteArrival s p ch) []) att p.payload = t at houts hpolls hruled hevent
  have hfreed := poolFreed_changesOnly p ch t
  have hstep' : (poolFreed p ch t).step = t.step := hfreed.step (by decide)
  exact ⟨(outs_eq_of_ledger (ledger_poolFreed p ch t)).trans houts, (congrFun (verdictOf_congr hstep') att).trans hruled,
    (congrArg (·.pollAt) hstep').trans (congrArg Prod.fst hpolls), (congrArg (·.resolveAt) hstep').trans (congrArg Prod.snd hpolls),
    by rw [rsReg_congr (hfreed.rs (by decide))]; exact hevent⟩

/-- Settles O33: each answer ends the only request outstanding for its unit, and each timer sends, frees or gives up. -/
theorem fabricAnswers : Obligations.FabricAnswers := by
  unfold Obligations.FabricAnswers
  refine ⟨?_, ?_, ?_, ?_, ?_, ?_, ?_, ?_, ?_, ?_, ?_, ?_, ?_, ?_, ?_, ?_, ?_, ?_⟩
  · exact fun s p ch o att h hwait hidle htype hlen hverdict hatt hpoison => readData_decides h hwait hidle htype hlen hverdict hatt hpoison
  · exact fun s p ch => readData_stray
  · exact fun s p ch o d c i ref e h hwait hcode he hloud hidle => status_applied h hwait hcode he hloud hidle
  · exact fun s p ch o d c i ref e h hwait hcode he hloud hidle => status_stale h hwait hcode he hloud hidle
  · exact fun s p ch o d c i ref e h hwait hcode hidle he hloud hstep hpath => status_refused h hwait hcode hidle he hloud hstep hpath
  · exact fun s p ch o u h hwait hcode htries hu => status_busy h hwait hcode htries hu
  · exact fun s p ch => e2eAck_ends
  · exact fun s k f n => e2eAckTimer_acks
  · exact fun s o => rtoExpire_retransmits
  · exact fun s o k off sec m => rtoExpire_rereads
  · exact fun s o att h _ hans hu htries => rtoExpire_gives_up h hans hu htries
  · exact fun s k f => flowIdleExpire_source
  · exact fun s k f => flowIdleExpire_destination
  · exact fun s tag r data => hostReadCompletion_answers
  · exact fun s tag r => completionTimeout_answers
  · exact fun s i w n => reliefMove_moves
  · exact fun s i w => reliefMove_stays
  · exact fun s port w u => replayStoreSend_single

end Sys2Proof.Machine
end

section
/-! PROOF. The standing of a state: its elapsed time and the canonical form of its memory (R472, R243, R251).

Both halves of O60 say that a step does not lower a standing: the elapsed time does not fall, and memory in canonical form stays in it.
Each function of the model has one lemma: a floor of the standing of the state it takes is a floor of the standing of the state it
leaves. These lemmas are tagged for `bound`, which composes them along a function's body; a lemma for each way of composing functions
(branches, folds, loops, updates of a record) stands here. -/
namespace Sys2Proof.Machine
open Sys2Proof

variable {x₀ : ℕ × Prop} {s t : State}

/-! ### Standings and what keeps them -/

/-- What O60 follows from one state to the next, in the product order: the elapsed time, and whether memory has its canonical form.
Irreducible, so that a goal about one state is not tried against hypotheses about others by comparing clocks. -/
@[irreducible] def standing (s : State) : ℕ × Prop := (s.clk, s.mem.wf = true)

theorem standing_le_iff {s t : State} : standing s ≤ standing t ↔ s.clk ≤ t.clk ∧ (s.mem.wf = true → t.mem.wf = true) := by
  rw [standing, standing]; exact Prod.mk_le_mk

/-- The components that a standing does not look at. -/
def unheld (c : Comp) : Bool := decide (c ≠ .clk ∧ c ≠ .mem)

theorem standing_eq_of_frame {s t : State} (h : t.erase unheld = s.erase unheld) : standing t = standing s := by
  have hclk : t.clk = s.clk := by simpa [State.erase, unheld] using congrArg State.clk h
  have hmem : t.mem = s.mem := by simpa [State.erase, unheld] using congrArg State.mem h
  rw [standing, standing, hclk, hmem]

theorem le_of_frame (ht : t.erase unheld = s.erase unheld) (h : x₀ ≤ standing s) : x₀ ≤ standing t :=
  h.trans_eq (standing_eq_of_frame ht).symm

/-- Every component but the clock. -/
def notClk (c : Comp) : Bool := decide (c ≠ .clk)

theorem le_of_wf (ht : t.erase notClk = s.erase notClk) (hwf : s.mem.wf = true → t.mem.wf = true) (h : x₀ ≤ standing s) : x₀ ≤ standing t := by
  have hclk : t.clk = s.clk := by simpa [State.erase, notClk] using congrArg State.clk ht
  exact h.trans (standing_le_iff.2 ⟨hclk.ge, hwf⟩)

/-- `x₀` is a floor of the standing of `s`. The hypothesis is about every state equal to `s`, so that `bound` takes a composite state apart by its
outermost operation and uses the floor for the state itself alone. -/
abbrev Floor (x₀ : ℕ × Prop) (s : State) : Prop := ∀ u, u = s → x₀ ≤ standing u

theorem le_standing_of_floor (ht : ∀ x₀, Floor x₀ s → x₀ ≤ standing t) (h : x₀ ≤ standing s) : x₀ ≤ standing t :=
  ht x₀ fun _ hu => hu ▸ h

/-! ### Ways of composing functions -/

@[bound] theorem le_standing_ite {c : Prop} [Decidable c] (hs : x₀ ≤ standing s) (ht : x₀ ≤ standing t) :
    x₀ ≤ standing (if c then s else t) := by split <;> assumption

theorem le_standing_foldl_proj {α β : Type} (π : β → State) {f : β → α → β} {l : List α} {acc : β}
    (hf : ∀ x₀ acc y, Floor x₀ (π acc) → x₀ ≤ standing (π (f acc y))) (h : x₀ ≤ standing (π acc)) : x₀ ≤ standing (π (l.foldl f acc)) := by
  induction l generalizing acc with
  | nil => exact h
  | cons y l ih => exact ih (le_standing_of_floor (fun x₀ => hf x₀ acc y) h)

@[bound] theorem le_standing_foldl {α : Type} {f : State → α → State} {l : List α}
    (hf : ∀ x₀ s y, Floor x₀ s → x₀ ≤ standing (f s y)) (h : x₀ ≤ standing s) : x₀ ≤ standing (l.foldl f s) :=
  le_standing_foldl_proj id hf h

@[bound] theorem le_standing_foldl_snd {α β : Type} {f : β × State → α → β × State} {l : List α} {p : β × State}
    (hf : ∀ x₀ b s y, Floor x₀ s → x₀ ≤ standing (f (b, s) y).2) (h : x₀ ≤ standing p.2) : x₀ ≤ standing (l.foldl f p).2 :=
  le_standing_foldl_proj Prod.snd (fun x₀ p y => hf x₀ p.1 p.2 y) h

@[bound] theorem le_standing_loopN {f : ℕ → State → State} {n : ℕ}
    (hf : ∀ x₀ i s, Floor x₀ s → x₀ ≤ standing (f i s)) (h : x₀ ≤ standing s) : x₀ ≤ standing (loopN n f s) := by
  induction n with
  | zero => exact h
  | succ n ih => exact le_standing_of_floor (fun x₀ => hf x₀ _ _) ih

@[bound] theorem le_standing_forDies {f : Die → State → State}
    (hf : ∀ x₀ d s, Floor x₀ s → x₀ ≤ standing (f d s)) (h : x₀ ≤ standing s) : x₀ ≤ standing (forDies f s) :=
  le_standing_foldl (fun x₀ s d => hf x₀ d s) h

@[bound] theorem le_standing_forStreams {f : Die → Sid → State → State}
    (hf : ∀ x₀ d c s, Floor x₀ s → x₀ ≤ standing (f d c s)) (h : x₀ ≤ standing s) : x₀ ≤ standing (forStreams f s) :=
  le_standing_foldl (fun _ s d hs => le_standing_foldl (fun x₀ s c => hf x₀ d c s) (hs s rfl)) h

@[bound] theorem le_standing_snd_ite {α : Type} {c : Prop} [Decidable c] {p q : α × State} (hp : x₀ ≤ standing p.2) (hq : x₀ ≤ standing q.2) :
    x₀ ≤ standing (if c then p else q).2 := by split <;> assumption

@[bound] theorem le_standing_snd_mk {α : Type} {a : α} (h : x₀ ≤ standing s) : x₀ ≤ standing (a, s).2 := h

theorem Floor.snd {α : Type} {p : α × State} {a : α} (h : x₀ ≤ standing p.2) (hp : p = (a, t)) : Floor x₀ t := by
  rintro _ rfl; rwa [hp] at h

theorem standing_mk_of (hclk : s.clk ≤ t.clk) (hmem : s.mem.wf = true → t.mem.wf = true) (h : x₀ ≤ standing s) : x₀ ≤ standing t :=
  h.trans (standing_le_iff.2 ⟨hclk, hmem⟩)

/-- An update of any components but the clock and memory. -/
@[bound] theorem le_standing_with
    {pending tb free out regs rs host sync dies gang step maq img upd fab coll plat opt dl flash otp start rcv pwr clocks tbs sec tel}
    (h : x₀ ≤ standing s) :
    x₀ ≤ standing { s with
      pending, tb, free, out, regs, rs, host, sync, dies, gang, step, maq, img, upd, fab, coll, plat, opt, dl, flash, otp, start, rcv,
      pwr, clocks, tbs, sec, tel } :=
  standing_mk_of (s := s) le_rfl id h

/-- An update of any components but the clock, and in memory of any but its stores of bytes and marks. -/
@[bound] theorem le_standing_with_mem
    {pending tb free out regs rs host sync dies gang step maq img upd fab coll plat opt dl flash otp start rcv pwr clocks tbs sec tel}
    {variant parity rowCeLimit scrubHours bandOffsets st spread reserve slow slowRepeat peerSlow held} (h : x₀ ≤ standing s) :
    x₀ ≤ standing { s with
      pending, tb, free, out, regs, rs, host, sync, dies, gang, step, maq, img, upd, fab, coll, plat, opt, dl, flash, otp, start, rcv,
      pwr, clocks, tbs, sec, tel,
      mem := { s.mem with
        variant, parity, rowCeLimit, scrubHours, bandOffsets, st, spread, reserve, slow, slowRepeat, peerSlow, held } } :=
  standing_mk_of (s := s) le_rfl id h

end Sys2Proof.Machine
end

section
/-! PROOF. What changes neither elapsed time nor module memory keeps the standing: each function by its frame. -/
namespace Sys2Proof.Machine
open Sys2Proof

variable {x₀ : ℕ × Prop} {s t : State}

@[bound] theorem le_standing_updDie {s d f} (h : x₀ ≤ standing s) : x₀ ≤ standing (updDie s d f) :=
  le_of_frame (updDie_frame (by decide) s d f) h

@[bound] theorem le_standing_updStr {s d c f} (h : x₀ ≤ standing s) : x₀ ≤ standing (updStr s d c f) :=
  le_of_frame (updStr_frame (by decide) s d c f) h

@[bound] theorem le_standing_updCtx {s d c f} (h : x₀ ≤ standing s) : x₀ ≤ standing (updCtx s d c f) :=
  le_of_frame (updCtx_frame (by decide) s d c f) h

@[bound] theorem le_standing_updArr {s d f} (h : x₀ ≤ standing s) : x₀ ≤ standing (updArr s d f) :=
  le_of_frame (updArr_frame (by decide) s d f) h

@[bound] theorem le_standing_setReg {s off v} (h : x₀ ≤ standing s) : x₀ ≤ standing (setReg s off v) :=
  le_of_frame (setReg_frame (by decide) s off v) h

@[bound] theorem le_standing_setReg64 {s off v} (h : x₀ ≤ standing s) : x₀ ≤ standing (setReg64 s off v) :=
  le_of_frame (setReg64_frame (by decide) s off v) h

@[bound] theorem le_standing_addReg {s off n} (h : x₀ ≤ standing s) : x₀ ≤ standing (addReg s off n) :=
  le_of_frame (addReg_frame (by decide) s off n) h

@[bound] theorem le_standing_addReg64 {s off n} (h : x₀ ≤ standing s) : x₀ ≤ standing (addReg64 s off n) :=
  le_of_frame (addReg64_frame (by decide) s off n) h

@[bound] theorem le_standing_setFld {s off hi lo v} (h : x₀ ≤ standing s) : x₀ ≤ standing (setFld s off hi lo v) :=
  le_of_frame (setFld_frame (by decide) s off hi lo v) h

@[bound] theorem le_standing_satFld16 {s off lo} (h : x₀ ≤ standing s) : x₀ ≤ standing (satFld16 s off lo) :=
  le_of_frame (satFld16_frame (by decide) s off lo) h

@[bound] theorem le_standing_emit {s o} (h : x₀ ≤ standing s) : x₀ ≤ standing (emit s o) :=
  le_of_frame (emit_frame (by decide) s o) h

@[bound] theorem le_standing_complete {s m st data} (h : x₀ ≤ standing s) : x₀ ≤ standing (complete s m st data) :=
  le_of_frame (complete_frame (by decide) s m st data) h

@[bound] theorem le_standing_busErr {s m} (h : x₀ ≤ standing s) : x₀ ≤ standing (busErr s m) :=
  le_of_frame (busErr_frame (by decide) s m) h

@[bound] theorem le_standing_countWait {n d c s} (h : x₀ ≤ standing s) : x₀ ≤ standing (countWait n d c s) :=
  le_of_frame (countWait_frame (by decide) n d c s) h

@[bound] theorem le_standing_countThrottle {n d s} (h : x₀ ≤ standing s) : x₀ ≤ standing (countThrottle n d s) :=
  le_of_frame (countThrottle_frame (by decide) n d s) h

@[bound] theorem le_standing_countHold {n d s} (h : x₀ ≤ standing s) : x₀ ≤ standing (countHold n d s) :=
  le_of_frame (countHold_frame (by decide) n d s) h

@[bound] theorem le_standing_moduleEvent {s v} (h : x₀ ≤ standing s) : x₀ ≤ standing (moduleEvent s v) :=
  le_of_frame (moduleEvent_frame (by decide) s v) h

@[bound] theorem le_standing_pldmEventOf {s v} (h : x₀ ≤ standing s) : x₀ ≤ standing (pldmEventOf s v) :=
  le_of_frame (pldmEventOf_frame (by decide) s v) h

@[bound] theorem le_standing_rsEvent {s off bit} (h : x₀ ≤ standing s) : x₀ ≤ standing (rsEvent s off bit) :=
  le_of_frame (rsEvent_frame (by decide) s off bit) h

@[bound] theorem le_standing_stopImage {s code} (h : x₀ ≤ standing s) : x₀ ≤ standing (stopImage s code) :=
  le_of_frame (stopImage_frame (by decide) s code) h

@[bound] theorem le_standing_endSlot {s n status o} (h : x₀ ≤ standing s) : x₀ ≤ standing (endSlot s n status o) :=
  le_of_frame (endSlot_frame (by decide) s n status o) h

@[bound] theorem le_standing_issued {s d c} (h : x₀ ≤ standing s) : x₀ ≤ standing (issued s d c) :=
  le_of_frame (issued_frame (by decide) s d c) h

@[bound] theorem le_standing_signals {s gs} (h : x₀ ≤ standing s) : x₀ ≤ standing (signals s gs) :=
  le_of_frame (signals_frame (by decide) s gs) h

@[bound] theorem le_standing_signalUnit {s i} (h : x₀ ≤ standing s) : x₀ ≤ standing (signalUnit s i) :=
  le_of_frame (signalUnit_frame (by decide) s i) h

@[bound] theorem le_standing_signalPlinth {s i} (h : x₀ ≤ standing s) : x₀ ≤ standing (signalPlinth s i) :=
  le_of_frame (signalPlinth_frame (by decide) s i) h

@[bound] theorem le_standing_leaveObj {s r who} (h : x₀ ≤ standing s) : x₀ ≤ standing (leaveObj s r who) :=
  le_of_frame (leaveObj_frame (by decide) s r who) h

@[bound] theorem le_standing_stepRearm {g d i s} (h : x₀ ≤ standing s) : x₀ ≤ standing (stepRearm g d i s) :=
  le_of_frame (stepRearm_frame (by decide) g d i s) h

@[bound] theorem le_standing_withdrawAll {s xs} (h : x₀ ≤ standing s) : x₀ ≤ standing (withdrawAll s xs) :=
  le_of_frame (withdrawAll_frame (by decide) s xs) h

@[bound] theorem le_standing_doObjSignal {i v s} (h : x₀ ≤ standing s) : x₀ ≤ standing (doObjSignal i v s) :=
  le_of_frame (doObjSignal_frame (by decide) i v s) h

@[bound] theorem le_standing_doObjDec {i v s} (h : x₀ ≤ standing s) : x₀ ≤ standing (doObjDec i v s) :=
  le_of_frame (doObjDec_frame (by decide) i v s) h

@[bound] theorem le_standing_doObjRearm {i v s} (h : x₀ ≤ standing s) : x₀ ≤ standing (doObjRearm i v s) :=
  le_of_frame (doObjRearm_frame (by decide) i v s) h

@[bound] theorem le_standing_requestStop {s code} (h : x₀ ≤ standing s) : x₀ ≤ standing (requestStop s code) :=
  le_of_frame (requestStop_frame (by decide) s code) h

@[bound] theorem le_standing_tsRead {s d off len port} (h : x₀ ≤ standing s) : x₀ ≤ standing (tsRead s d off len port).2 :=
  le_of_frame (tsRead_frame (by decide) s d off len port) h

@[bound] theorem le_standing_tsWrite {s d off bs port} (h : x₀ ≤ standing s) : x₀ ≤ standing (tsWrite s d off bs port) :=
  le_of_frame (tsWrite_frame (by decide) s d off bs port) h

@[bound] theorem le_standing_fabErr {s bit p ch} (h : x₀ ≤ standing s) : x₀ ≤ standing (fabErr s bit p ch) :=
  le_of_frame (fabErr_frame (by decide) s bit p ch) h

@[bound] theorem le_standing_addrErr {s p ch} (h : x₀ ≤ standing s) : x₀ ≤ standing (addrErr s p ch) :=
  le_of_frame (addrErr_frame (by decide) s p ch) h

@[bound] theorem le_standing_updLink {s c f} (h : x₀ ≤ standing s) : x₀ ≤ standing (updLink s c f) :=
  le_of_frame (updLink_frame (by decide) s c f) h

@[bound] theorem le_standing_freeCredit {s ch vc n} (h : x₀ ≤ standing s) : x₀ ≤ standing (freeCredit s ch vc n) :=
  le_of_frame (freeCredit_frame (by decide) s ch vc n) h

@[bound] theorem le_standing_dropLife {s p ch} (h : x₀ ≤ standing s) : x₀ ≤ standing (dropLife s p ch) :=
  le_of_frame (dropLife_frame (by decide) s p ch) h

@[bound] theorem le_standing_sendOn {s w} (h : x₀ ≤ standing s) : x₀ ≤ standing (sendOn s w) :=
  le_of_frame (sendOn_frame (by decide) s w) h

@[bound] theorem le_standing_sendPkt {s p} (h : x₀ ≤ standing s) : x₀ ≤ standing (sendPkt s p) :=
  le_of_frame (sendPkt_frame (by decide) s p) h

@[bound] theorem le_standing_useTxn {s k} (h : x₀ ≤ standing s) : x₀ ≤ standing (useTxn s k).2 :=
  le_of_frame (useTxn_frame (by decide) s k) h

@[bound] theorem le_standing_broadcast {s p} (h : x₀ ≤ standing s) : x₀ ≤ standing (broadcast s p) :=
  le_of_frame (broadcast_frame (by decide) s p) h

@[bound] theorem le_standing_updAttempt {s att f} (h : x₀ ≤ standing s) : x₀ ≤ standing (updAttempt s att f) :=
  le_of_frame (updAttempt_frame (by decide) s att f) h

@[bound] theorem le_standing_addCause {s att bit layer cd} (h : x₀ ≤ standing s) : x₀ ≤ standing (addCause s att bit layer cd) :=
  le_of_frame (addCause_frame (by decide) s att bit layer cd) h

@[bound] theorem le_standing_guardReport {s att bit layer cd} (h : x₀ ≤ standing s) : x₀ ≤ standing (guardReport s att bit layer cd) :=
  le_of_frame (guardReport_frame (by decide) s att bit layer cd) h

@[bound] theorem le_standing_dropInflight {s d c i} (h : x₀ ≤ standing s) : x₀ ≤ standing (dropInflight s d c i) :=
  le_of_frame (dropInflight_frame (by decide) s d c i) h

@[bound] theorem le_standing_dropColl {s k} (h : x₀ ≤ standing s) : x₀ ≤ standing (dropColl s k) :=
  le_of_frame (dropColl_frame (by decide) s k) h

@[bound] theorem le_standing_endColl {s k} (h : x₀ ≤ standing s) : x₀ ≤ standing (endColl s k) :=
  le_of_frame (endColl_frame (by decide) s k) h

@[bound] theorem le_standing_collInfo {s k round cause peer port} (h : x₀ ≤ standing s) : x₀ ≤ standing (collInfo s k round cause peer port) :=
  le_of_frame (collInfo_frame (by decide) s k round cause peer port) h

@[bound] theorem le_standing_resetNow {s d c} (h : x₀ ≤ standing s) : x₀ ≤ standing (resetNow s d c) :=
  le_of_frame (resetNow_frame (by decide) s d c) h

@[bound] theorem le_standing_streamReset {s d c} (h : x₀ ≤ standing s) : x₀ ≤ standing (streamReset s d c) :=
  le_of_frame (streamReset_frame (by decide) s d c) h

@[bound] theorem le_standing_enterPoison {s d c} (h : x₀ ≤ standing s) : x₀ ≤ standing (enterPoison s d c) :=
  le_of_frame (enterPoison_frame (by decide) s d c) h

@[bound] theorem le_standing_pass2Fault {s layer cd cause} (h : x₀ ≤ standing s) : x₀ ≤ standing (pass2Fault s layer cd cause) :=
  le_of_frame (pass2Fault_frame (by decide) s layer cd cause) h

@[bound] theorem le_standing_recordFault {s d c bits typ seq addr} (h : x₀ ≤ standing s) : x₀ ≤ standing (recordFault s d c bits typ seq addr) :=
  le_of_frame (recordFault_frame (by decide) s d c bits typ seq addr) h

@[bound] theorem le_standing_stepOver {s d c addr} (h : x₀ ≤ standing s) : x₀ ≤ standing (stepOver s d c addr) :=
  le_of_frame (stepOver_frame (by decide) s d c addr) h

@[bound] theorem le_standing_completeDesc {s d c e} (h : x₀ ≤ standing s) : x₀ ≤ standing (completeDesc s d c e) :=
  le_of_frame (completeDesc_frame (by decide) s d c e) h

@[bound] theorem le_standing_stashFallback {s att layer} (h : x₀ ≤ standing s) : x₀ ≤ standing (stashFallback s att layer) :=
  le_of_frame (stashFallback_frame (by decide) s att layer) h

@[bound] theorem le_standing_stashRelease {s att} (h : x₀ ≤ standing s) : x₀ ≤ standing (stashRelease s att) :=
  le_of_frame (stashRelease_frame (by decide) s att) h

@[bound] theorem le_standing_passOver {s d c w} (h : x₀ ≤ standing s) : x₀ ≤ standing (passOver s d c w) :=
  le_of_frame (passOver_frame (by decide) s d c w) h

@[bound] theorem le_standing_noteRecompute {s c att w} (h : x₀ ≤ standing s) : x₀ ≤ standing (noteRecompute s c att w) :=
  le_of_frame (noteRecompute_frame (by decide) s c att w) h

@[bound] theorem le_standing_waitUnit {s d c fabric} (h : x₀ ≤ standing s) : x₀ ≤ standing (waitUnit s d c fabric) :=
  le_of_frame (waitUnit_frame (by decide) s d c fabric) h

@[bound] theorem le_standing_startDesc {s d c e} (h : x₀ ≤ standing s) : x₀ ≤ standing (startDesc s d c e) :=
  le_of_frame (startDesc_frame (by decide) s d c e) h

@[bound] theorem le_standing_freeBytes {y0 y1} (h : x₀ ≤ standing y1) : x₀ ≤ standing (freeBytes y0 y1).2 :=
  le_of_frame (freeBytes_frame (by decide) y0 y1) h

@[bound] theorem le_standing_runWait {d c w s} (h : x₀ ≤ standing s) : x₀ ≤ standing (runWait d c w s) :=
  le_of_frame (runWait_frame (by decide) d c w s) h

@[bound] theorem le_standing_runEnd {d c w s} (h : x₀ ≤ standing s) : x₀ ≤ standing (runEnd d c w s) :=
  le_of_frame (runEnd_frame (by decide) d c w s) h

@[bound] theorem le_standing_runGuard {d c w s} (h : x₀ ≤ standing s) : x₀ ≤ standing (runGuard d c w s) :=
  le_of_frame (runGuard_frame (by decide) d c w s) h

@[bound] theorem le_standing_showScale {s} (h : x₀ ≤ standing s) : x₀ ≤ standing (showScale s) :=
  le_of_frame (showScale_frame (by decide) s) h

@[bound] theorem le_standing_scalePoison {s} (h : x₀ ≤ standing s) : x₀ ≤ standing (scalePoison s) :=
  le_of_frame (scalePoison_frame (by decide) s) h

@[bound] theorem le_standing_scaleCommit {s} (h : x₀ ≤ standing s) : x₀ ≤ standing (scaleCommit s) :=
  le_of_frame (scaleCommit_frame (by decide) s) h

@[bound] theorem le_standing_showPoison {s} (h : x₀ ≤ standing s) : x₀ ≤ standing (showPoison s) :=
  le_of_frame (showPoison_frame (by decide) s) h

@[bound] theorem le_standing_countSlots {s a} (h : x₀ ≤ standing s) : x₀ ≤ standing (countSlots s a) :=
  le_of_frame (countSlots_frame (by decide) s a) h

@[bound] theorem le_standing_markRecorded {s att} (h : x₀ ≤ standing s) : x₀ ≤ standing (markRecorded s att) :=
  le_of_frame (markRecorded_frame (by decide) s att) h

@[bound] theorem le_standing_arrErr {s d bit c tag} (h : x₀ ≤ standing s) : x₀ ≤ standing (arrErr s d bit c tag) :=
  le_of_frame (arrErr_frame (by decide) s d bit c tag) h

@[bound] theorem le_standing_runOp {d s} (h : x₀ ≤ standing s) : x₀ ≤ standing (runOp d s) :=
  le_of_frame (runOp_frame (by decide) d s) h

@[bound] theorem le_standing_startOp {c d s} (h : x₀ ≤ standing s) : x₀ ≤ standing (startOp c d s) :=
  le_of_frame (startOp_frame (by decide) c d s) h

@[bound] theorem le_standing_doTileDrainStart {d s} (h : x₀ ≤ standing s) : x₀ ≤ standing (doTileDrainStart d s) :=
  le_of_frame (doTileDrainStart_frame (by decide) d s) h

@[bound] theorem le_standing_doTilePush {d s} (h : x₀ ≤ standing s) : x₀ ≤ standing (doTilePush d s) :=
  le_of_frame (doTilePush_frame (by decide) d s) h

@[bound] theorem le_standing_vecInfo {s v op addr} (h : x₀ ≤ standing s) : x₀ ≤ standing (vecInfo s v op addr) :=
  le_of_frame (vecInfo_frame (by decide) s v op addr) h

@[bound] theorem le_standing_vecStep {s v f} (h : x₀ ≤ standing s) : x₀ ≤ standing (vecStep s v f) :=
  le_of_frame (vecStep_frame (by decide) s v f) h

@[bound] theorem le_standing_vecGuard {s v n cause} (h : x₀ ≤ standing s) : x₀ ≤ standing (vecGuard s v n cause) :=
  le_of_frame (vecGuard_frame (by decide) s v n cause) h

@[bound] theorem le_standing_convCount {s d ks} (h : x₀ ≤ standing s) : x₀ ≤ standing (convCount s d ks) :=
  le_of_frame (convCount_frame (by decide) s d ks) h

@[bound] theorem le_standing_srDraw {s v a} (h : x₀ ≤ standing s) : x₀ ≤ standing (srDraw s v a).2 :=
  le_of_frame (srDraw_frame (by decide) s v a) h

@[bound] theorem le_standing_noteLoadUe {s v op} (h : x₀ ≤ standing s) : x₀ ≤ standing (noteLoadUe s v op) :=
  le_of_frame (noteLoadUe_frame (by decide) s v op) h

@[bound] theorem le_standing_withJerr {r} (h : x₀ ≤ standing r.2) : x₀ ≤ standing (withJerr r).2 :=
  le_of_frame (withJerr_frame (by decide) r) h

@[bound] theorem le_standing_formNorms {s att sl} (h : x₀ ≤ standing s) : x₀ ≤ standing (formNorms s att sl) :=
  le_of_frame (formNorms_frame (by decide) s att sl) h

@[bound] theorem le_standing_ensureNorms {s att} (h : x₀ ≤ standing s) : x₀ ≤ standing (ensureNorms s att) :=
  le_of_frame (ensureNorms_frame (by decide) s att) h

@[bound] theorem le_standing_ratioCheck {s l rho} (h : x₀ ≤ standing s) : x₀ ≤ standing (ratioCheck s l rho) :=
  le_of_frame (ratioCheck_frame (by decide) s l rho) h

@[bound] theorem le_standing_noteSnapshot {s p q} (h : x₀ ≤ standing s) : x₀ ≤ standing (noteSnapshot s p q) :=
  le_of_frame (noteSnapshot_frame (by decide) s p q) h

@[bound] theorem le_standing_countFrozen {s} (h : x₀ ≤ standing s) : x₀ ≤ standing (countFrozen s) :=
  le_of_frame (countFrozen_frame (by decide) s) h

@[bound] theorem le_standing_countKept {s n} (h : x₀ ≤ standing s) : x₀ ≤ standing (countKept s n) :=
  le_of_frame (countKept_frame (by decide) s n) h

@[bound] theorem le_standing_markPartly {s i k} (h : x₀ ≤ standing s) : x₀ ≤ standing (markPartly s i k) :=
  le_of_frame (markPartly_frame (by decide) s i k) h

@[bound] theorem le_standing_nsTake {s n ws} (h : x₀ ≤ standing s) : x₀ ≤ standing (nsTake s n ws) :=
  le_of_frame (nsTake_frame (by decide) s n ws) h

@[bound] theorem le_standing_dropPend {s layer} (h : x₀ ≤ standing s) : x₀ ≤ standing (dropPend s layer) :=
  le_of_frame (dropPend_frame (by decide) s layer) h

@[bound] theorem le_standing_resumeU {att s} (h : x₀ ≤ standing s) : x₀ ≤ standing (resumeU att s) :=
  le_of_frame (resumeU_frame (by decide) att s) h

@[bound] theorem le_standing_finishFail {s} (h : x₀ ≤ standing s) : x₀ ≤ standing (finishFail s) :=
  le_of_frame (finishFail_frame (by decide) s) h

@[bound] theorem le_standing_nextPeer {s layer outer} (h : x₀ ≤ standing s) : x₀ ≤ standing (nextPeer s layer outer) :=
  le_of_frame (nextPeer_frame (by decide) s layer outer) h

@[bound] theorem le_standing_updColl {s d i f} (h : x₀ ≤ standing s) : x₀ ≤ standing (updColl s d i f) :=
  le_of_frame (updColl_frame (by decide) s d i f) h

@[bound] theorem le_standing_updRound {s d i n f} (h : x₀ ≤ standing s) : x₀ ≤ standing (updRound s d i n f) :=
  le_of_frame (updRound_frame (by decide) s d i n f) h

@[bound] theorem le_standing_retime {s} (h : x₀ ≤ standing s) : x₀ ≤ standing (retime s) :=
  le_of_frame (retime_frame (by decide) s) h

@[bound] theorem le_standing_noteLost {s k cause peer} (h : x₀ ≤ standing s) : x₀ ≤ standing (noteLost s k cause peer) :=
  le_of_frame (noteLost_frame (by decide) s k cause peer) h

@[bound] theorem le_standing_sendGrants {s k r} (h : x₀ ≤ standing s) : x₀ ≤ standing (sendGrants s k r) :=
  le_of_frame (sendGrants_frame (by decide) s k r) h

@[bound] theorem le_standing_sendRound {s k r m data} (h : x₀ ≤ standing s) : x₀ ≤ standing (sendRound s k r m data) :=
  le_of_frame (sendRound_frame (by decide) s k r m data) h

@[bound] theorem le_standing_useGrants {d i s} (h : x₀ ≤ standing s) : x₀ ≤ standing (useGrants d i s) :=
  le_of_frame (useGrants_frame (by decide) d i s) h

@[bound] theorem le_standing_noteReds {s att w rs} (h : x₀ ≤ standing s) : x₀ ≤ standing (noteReds s att w rs) :=
  le_of_frame (noteReds_frame (by decide) s att w rs) h

@[bound] theorem le_standing_shadowTook {j s} (h : x₀ ≤ standing s) : x₀ ≤ standing (shadowTook j s) :=
  le_of_frame (shadowTook_frame (by decide) j s) h

@[bound] theorem le_standing_doGrantSend {d i n s} (h : x₀ ≤ standing s) : x₀ ≤ standing (doGrantSend d i n s) :=
  le_of_frame (doGrantSend_frame (by decide) d i n s) h

@[bound] theorem le_standing_stale {s} (h : x₀ ≤ standing s) : x₀ ≤ standing (stale s) :=
  le_of_frame (stale_frame (by decide) s) h

@[bound] theorem le_standing_noteArrival {s p ch} (h : x₀ ≤ standing s) : x₀ ≤ standing (noteArrival s p ch) :=
  le_of_frame (noteArrival_frame (by decide) s p ch) h

@[bound] theorem le_standing_forward {s p ch} (h : x₀ ≤ standing s) : x₀ ≤ standing (forward s p ch) :=
  le_of_frame (forward_frame (by decide) s p ch) h

@[bound] theorem le_standing_refuse {s p ch why code} (h : x₀ ≤ standing s) : x₀ ≤ standing (refuse s p ch why code) :=
  le_of_frame (refuse_frame (by decide) s p ch why code) h

@[bound] theorem le_standing_updFlow {s p f} (h : x₀ ≤ standing s) : x₀ ≤ standing (updFlow s p f) :=
  le_of_frame (updFlow_frame (by decide) s p f) h

@[bound] theorem le_standing_answer {s p code data} (h : x₀ ≤ standing s) : x₀ ≤ standing (answer s p code data) :=
  le_of_frame (answer_frame (by decide) s p code data) h

@[bound] theorem le_standing_denyReq {s p ch why} (h : x₀ ≤ standing s) : x₀ ≤ standing (denyReq s p ch why) :=
  le_of_frame (denyReq_frame (by decide) s p ch why) h

@[bound] theorem le_standing_hostReq {s p ch write} (h : x₀ ≤ standing s) : x₀ ≤ standing (hostReq s p ch write) :=
  le_of_frame (hostReq_frame (by decide) s p ch write) h

@[bound] theorem le_standing_mboxReq {s p ch write} (h : x₀ ≤ standing s) : x₀ ≤ standing (mboxReq s p ch write) :=
  le_of_frame (mboxReq_frame (by decide) s p ch write) h

@[bound] theorem le_standing_performSignal {p ch s} (h : x₀ ≤ standing s) : x₀ ≤ standing (performSignal p ch s) :=
  le_of_frame (performSignal_frame (by decide) p ch s) h

@[bound] theorem le_standing_flowFull {s p ch} (h : x₀ ≤ standing s) : x₀ ≤ standing (flowFull s p ch) :=
  le_of_frame (flowFull_frame (by decide) s p ch) h

@[bound] theorem le_standing_duplicate {s p f} (h : x₀ ≤ standing s) : x₀ ≤ standing (duplicate s p f) :=
  le_of_frame (duplicate_frame (by decide) s p f) h

@[bound] theorem le_standing_doPacketForward {p ch s} (h : x₀ ≤ standing s) : x₀ ≤ standing (doPacketForward p ch s) :=
  le_of_frame (doPacketForward_frame (by decide) p ch s) h

@[bound] theorem le_standing_dropHostRead {s tag} (h : x₀ ≤ standing s) : x₀ ≤ standing (dropHostRead s tag) :=
  le_of_frame (dropHostRead_frame (by decide) s tag) h

@[bound] theorem le_standing_nextHostRead {s} (h : x₀ ≤ standing s) : x₀ ≤ standing (nextHostRead s) :=
  le_of_frame (nextHostRead_frame (by decide) s) h

@[bound] theorem le_standing_maqExport {s} (h : x₀ ≤ standing s) : x₀ ≤ standing (maqExport s) :=
  le_of_frame (maqExport_frame (by decide) s) h

@[bound] theorem le_standing_maqAck {s slot off code} (h : x₀ ≤ standing s) : x₀ ≤ standing (maqAck s slot off code) :=
  le_of_frame (maqAck_frame (by decide) s slot off code) h

@[bound] theorem le_standing_dropOut {s o} (h : x₀ ≤ standing s) : x₀ ≤ standing (dropOut s o) :=
  le_of_frame (dropOut_frame (by decide) s o) h

@[bound] theorem le_standing_touchFlow {s p} (h : x₀ ≤ standing s) : x₀ ≤ standing (touchFlow s p) :=
  le_of_frame (touchFlow_frame (by decide) s p) h

@[bound] theorem le_standing_doReplayStoreSend {port s} (h : x₀ ≤ standing s) : x₀ ≤ standing (doReplayStoreSend port s) :=
  le_of_frame (doReplayStoreSend_frame (by decide) port s) h

@[bound] theorem le_standing_linkResend {s ch lsn} (h : x₀ ≤ standing s) : x₀ ≤ standing (linkResend s ch lsn) :=
  le_of_frame (linkResend_frame (by decide) s ch lsn) h

@[bound] theorem le_standing_forwardPoison {p ch s} (h : x₀ ≤ standing s) : x₀ ≤ standing (forwardPoison p ch s) :=
  le_of_frame (forwardPoison_frame (by decide) p ch s) h

@[bound] theorem le_standing_doRouteNotice {p ch s} (h : x₀ ≤ standing s) : x₀ ≤ standing (doRouteNotice p ch s) :=
  le_of_frame (doRouteNotice_frame (by decide) p ch s) h

@[bound] theorem le_standing_freeBank {s} (h : x₀ ≤ standing s) : x₀ ≤ standing (freeBank s) :=
  le_of_frame (freeBank_frame (by decide) s) h

@[bound] theorem le_standing_epochCmd {v s} (h : x₀ ≤ standing s) : x₀ ≤ standing (epochCmd v s) :=
  le_of_frame (epochCmd_frame (by decide) v s) h

@[bound] theorem le_standing_writeRack {r v s} (h : x₀ ≤ standing s) : x₀ ≤ standing (writeRack r v s) :=
  le_of_frame (writeRack_frame (by decide) r v s) h

@[bound] theorem le_standing_rampBreak {s} (h : x₀ ≤ standing s) : x₀ ≤ standing (rampBreak s) :=
  le_of_frame (rampBreak_frame (by decide) s) h

@[bound] theorem le_standing_sendSlow {s on} (h : x₀ ≤ standing s) : x₀ ≤ standing (sendSlow s on) :=
  le_of_frame (sendSlow_frame (by decide) s on) h

@[bound] theorem le_standing_stackEvent {s bit n} (h : x₀ ≤ standing s) : x₀ ≤ standing (stackEvent s bit n) :=
  le_of_frame (stackEvent_frame (by decide) s bit n) h

@[bound] theorem le_standing_sendHello {s ch} (h : x₀ ≤ standing s) : x₀ ≤ standing (sendHello s ch) :=
  le_of_frame (sendHello_frame (by decide) s ch) h

@[bound] theorem le_standing_quarantine {s ch cause claim} (h : x₀ ≤ standing s) : x₀ ≤ standing (quarantine s ch cause claim) :=
  le_of_frame (quarantine_frame (by decide) s ch cause claim) h

@[bound] theorem le_standing_doLinkHello {p ch s} (h : x₀ ≤ standing s) : x₀ ≤ standing (doLinkHello p ch s) :=
  le_of_frame (doLinkHello_frame (by decide) p ch s) h

@[bound] theorem le_standing_updOpt {s f} (h : x₀ ≤ standing s) : x₀ ≤ standing (updOpt s f) :=
  le_of_frame (updOpt_frame (by decide) s f) h

@[bound] theorem le_standing_updRing {s r f} (h : x₀ ≤ standing s) : x₀ ≤ standing (updRing s r f) :=
  le_of_frame (updRing_frame (by decide) s r f) h

@[bound] theorem le_standing_portEvent {s bit ch rx seen cause} (h : x₀ ≤ standing s) : x₀ ≤ standing (portEvent s bit ch rx seen cause) :=
  le_of_frame (portEvent_frame (by decide) s bit ch rx seen cause) h

@[bound] theorem le_standing_doRingAcquireDone {r found s} (h : x₀ ≤ standing s) : x₀ ≤ standing (doRingAcquireDone r found s) :=
  le_of_frame (doRingAcquireDone_frame (by decide) r found s) h

@[bound] theorem le_standing_doRingVerifyDone {r tone s} (h : x₀ ≤ standing s) : x₀ ≤ standing (doRingVerifyDone r tone s) :=
  le_of_frame (doRingVerifyDone_frame (by decide) r tone s) h

@[bound] theorem le_standing_doLockLost {r s} (h : x₀ ≤ standing s) : x₀ ≤ standing (doLockLost r s) :=
  le_of_frame (doLockLost_frame (by decide) r s) h

@[bound] theorem le_standing_doDitherWindow {r tone s} (h : x₀ ≤ standing s) : x₀ ≤ standing (doDitherWindow r tone s) :=
  le_of_frame (doDitherWindow_frame (by decide) r tone s) h

@[bound] theorem le_standing_doRingFeedforward {port fib rx temp s} (h : x₀ ≤ standing s) : x₀ ≤ standing (doRingFeedforward port fib rx temp s) :=
  le_of_frame (doRingFeedforward_frame (by decide) port fib rx temp s) h

@[bound] theorem le_standing_enterRest {s ch} (h : x₀ ≤ standing s) : x₀ ≤ standing (enterRest s ch) :=
  le_of_frame (enterRest_frame (by decide) s ch) h

@[bound] theorem le_standing_endSkip {s ch} (h : x₀ ≤ standing s) : x₀ ≤ standing (endSkip s ch) :=
  le_of_frame (endSkip_frame (by decide) s ch) h

@[bound] theorem le_standing_doRestCalDone {ch vals s} (h : x₀ ≤ standing s) : x₀ ≤ standing (doRestCalDone ch vals s) :=
  le_of_frame (doRestCalDone_frame (by decide) ch vals s) h

@[bound] theorem le_standing_doLinkControlWord {w _ch s} (h : x₀ ≤ standing s) : x₀ ≤ standing (doLinkControlWord w _ch s) :=
  le_of_frame (doLinkControlWord_frame (by decide) w _ch s) h

@[bound] theorem le_standing_doShutterClose {port fib s} (h : x₀ ≤ standing s) : x₀ ≤ standing (doShutterClose port fib s) :=
  le_of_frame (doShutterClose_frame (by decide) port fib s) h

@[bound] theorem le_standing_doShutterOpen {port fib s} (h : x₀ ≤ standing s) : x₀ ≤ standing (doShutterOpen port fib s) :=
  le_of_frame (doShutterOpen_frame (by decide) port fib s) h

@[bound] theorem le_standing_doFeedLoss {j s} (h : x₀ ≤ standing s) : x₀ ≤ standing (doFeedLoss j s) :=
  le_of_frame (doFeedLoss_frame (by decide) j s) h

@[bound] theorem le_standing_doFeedReturn {j s} (h : x₀ ≤ standing s) : x₀ ≤ standing (doFeedReturn j s) :=
  le_of_frame (doFeedReturn_frame (by decide) j s) h

@[bound] theorem le_standing_doLsIbi {st s} (h : x₀ ≤ standing s) : x₀ ≤ standing (doLsIbi st s) :=
  le_of_frame (doLsIbi_frame (by decide) st s) h

@[bound] theorem le_standing_doLsStatusPoll {st s} (h : x₀ ≤ standing s) : x₀ ≤ standing (doLsStatusPoll st s) :=
  le_of_frame (doLsStatusPoll_frame (by decide) st s) h

@[bound] theorem le_standing_doLsFault {st feedFault s} (h : x₀ ≤ standing s) : x₀ ≤ standing (doLsFault st feedFault s) :=
  le_of_frame (doLsFault_frame (by decide) st feedFault s) h

@[bound] theorem le_standing_countFec {s ch unc corr} (h : x₀ ≤ standing s) : x₀ ≤ standing (countFec s ch unc corr) :=
  le_of_frame (countFec_frame (by decide) s ch unc corr) h

@[bound] theorem le_standing_nakPackets {s ch ps} (h : x₀ ≤ standing s) : x₀ ≤ standing (nakPackets s ch ps) :=
  le_of_frame (nakPackets_frame (by decide) s ch ps) h

@[bound] theorem le_standing_rxRest {s ch} (h : x₀ ≤ standing s) : x₀ ≤ standing (rxRest s ch) :=
  le_of_frame (rxRest_frame (by decide) s ch) h

@[bound] theorem le_standing_dieOut {s d} (h : x₀ ≤ standing s) : x₀ ≤ standing (dieOut s d) :=
  le_of_frame (dieOut_frame (by decide) s d) h

@[bound] theorem le_standing_doCoreReset {d s} (h : x₀ ≤ standing s) : x₀ ≤ standing (doCoreReset d s) :=
  le_of_frame (doCoreReset_frame (by decide) d s) h

@[bound] theorem le_standing_doFlitNak {g s} (h : x₀ ≤ standing s) : x₀ ≤ standing (doFlitNak g s) :=
  le_of_frame (doFlitNak_frame (by decide) g s) h

@[bound] theorem le_standing_doFlitReceive {g check data s} (h : x₀ ≤ standing s) : x₀ ≤ standing (doFlitReceive g check data s) :=
  le_of_frame (doFlitReceive_frame (by decide) g check data s) h

@[bound] theorem le_standing_endRecal {s g} (h : x₀ ≤ standing s) : x₀ ≤ standing (endRecal s g) :=
  le_of_frame (endRecal_frame (by decide) s g) h

@[bound] theorem le_standing_doLaneSteer {g lane s} (h : x₀ ≤ standing s) : x₀ ≤ standing (doLaneSteer g lane s) :=
  le_of_frame (doLaneSteer_frame (by decide) g lane s) h

@[bound] theorem le_standing_doLaneRetrain {g s} (h : x₀ ≤ standing s) : x₀ ≤ standing (doLaneRetrain g s) :=
  le_of_frame (doLaneRetrain_frame (by decide) g s) h

@[bound] theorem le_standing_doLaneFailing {g lane margin s} (h : x₀ ≤ standing s) : x₀ ≤ standing (doLaneFailing g lane margin s) :=
  le_of_frame (doLaneFailing_frame (by decide) g lane margin s) h

@[bound] theorem le_standing_doRetrainDone {g good s} (h : x₀ ≤ standing s) : x₀ ≤ standing (doRetrainDone g good s) :=
  le_of_frame (doRetrainDone_frame (by decide) g good s) h

@[bound] theorem le_standing_doLaneRecal {g lane s} (h : x₀ ≤ standing s) : x₀ ≤ standing (doLaneRecal g lane s) :=
  le_of_frame (doLaneRecal_frame (by decide) g lane s) h

@[bound] theorem le_standing_pass {s k} (h : x₀ ≤ standing s) : x₀ ≤ standing (pass s k) :=
  le_of_frame (pass_frame (by decide) s k) h

@[bound] theorem le_standing_endMgmtOnly {s} (h : x₀ ≤ standing s) : x₀ ≤ standing (endMgmtOnly s) :=
  le_of_frame (endMgmtOnly_frame (by decide) s) h

@[bound] theorem le_standing_setCause {s warm src} (h : x₀ ≤ standing s) : x₀ ≤ standing (setCause s warm src) :=
  le_of_frame (setCause_frame (by decide) s warm src) h

@[bound] theorem le_standing_doLinkReset {s} (h : x₀ ≤ standing s) : x₀ ≤ standing (doLinkReset s) :=
  le_of_frame (doLinkReset_frame (by decide) s) h

@[bound] theorem le_standing_clkEvent {s bit} (h : x₀ ≤ standing s) : x₀ ≤ standing (clkEvent s bit) :=
  le_of_frame (clkEvent_frame (by decide) s bit) h

@[bound] theorem le_standing_msdStop {s} (h : x₀ ≤ standing s) : x₀ ≤ standing (msdStop s) :=
  le_of_frame (msdStop_frame (by decide) s) h

@[bound] theorem le_standing_updClk {s d f} (h : x₀ ≤ standing s) : x₀ ≤ standing (updClk s d f) :=
  le_of_frame (updClk_frame (by decide) s d f) h

@[bound] theorem le_standing_doDvfsChange {d s} (h : x₀ ≤ standing s) : x₀ ≤ standing (doDvfsChange d s) :=
  le_of_frame (doDvfsChange_frame (by decide) d s) h

@[bound] theorem le_standing_updMux {s k f} (h : x₀ ≤ standing s) : x₀ ≤ standing (updMux s k f) :=
  le_of_frame (updMux_frame (by decide) s k f) h

@[bound] theorem le_standing_doXtalStable {s} (h : x₀ ≤ standing s) : x₀ ≤ standing (doXtalStable s) :=
  le_of_frame (doXtalStable_frame (by decide) s) h

@[bound] theorem le_standing_doXtalFail {s} (h : x₀ ≤ standing s) : x₀ ≤ standing (doXtalFail s) :=
  le_of_frame (doXtalFail_frame (by decide) s) h

@[bound] theorem le_standing_doMuxSwitch {dom src s} (h : x₀ ≤ standing s) : x₀ ≤ standing (doMuxSwitch dom src s) :=
  le_of_frame (doMuxSwitch_frame (by decide) dom src s) h

@[bound] theorem le_standing_muxInfo {s dom dead} (h : x₀ ≤ standing s) : x₀ ≤ standing (muxInfo s dom dead) :=
  le_of_frame (muxInfo_frame (by decide) s dom dead) h

@[bound] theorem le_standing_tripDie {s d cause} (h : x₀ ≤ standing s) : x₀ ≤ standing (tripDie s d cause) :=
  le_of_frame (tripDie_frame (by decide) s d cause) h

@[bound] theorem le_standing_doCdTempRead {d temp s} (h : x₀ ≤ standing s) : x₀ ≤ standing (doCdTempRead d temp s) :=
  le_of_frame (doCdTempRead_frame (by decide) d temp s) h

@[bound] theorem le_standing_doOtherDieTempRead {which temp s} (h : x₀ ≤ standing s) : x₀ ≤ standing (doOtherDieTempRead which temp s) :=
  le_of_frame (doOtherDieTempRead_frame (by decide) which temp s) h

@[bound] theorem le_standing_updTb {s f} (h : x₀ ≤ standing s) : x₀ ≤ standing (updTb s f) :=
  le_of_frame (updTb_frame (by decide) s f) h

@[bound] theorem le_standing_doRackclkCheck {ppm s} (h : x₀ ≤ standing s) : x₀ ≤ standing (doRackclkCheck ppm s) :=
  le_of_frame (doRackclkCheck_frame (by decide) ppm s) h

@[bound] theorem le_standing_doRacksyncEdge {s} (h : x₀ ≤ standing s) : x₀ ≤ standing (doRacksyncEdge s) :=
  le_of_frame (doRacksyncEdge_frame (by decide) s) h

@[bound] theorem le_standing_doRacksyncFrame {bits s} (h : x₀ ≤ standing s) : x₀ ≤ standing (doRacksyncFrame bits s) :=
  le_of_frame (doRacksyncFrame_frame (by decide) bits s) h

@[bound] theorem le_standing_pwrEvent {s bit} (h : x₀ ≤ standing s) : x₀ ≤ standing (pwrEvent s bit) :=
  le_of_frame (pwrEvent_frame (by decide) s bit) h

@[bound] theorem le_standing_updPwr {s f} (h : x₀ ≤ standing s) : x₀ ≤ standing (updPwr s f) :=
  le_of_frame (updPwr_frame (by decide) s f) h

@[bound] theorem le_standing_pwrFlag {s bit v} (h : x₀ ≤ standing s) : x₀ ≤ standing (pwrFlag s bit v) :=
  le_of_frame (pwrFlag_frame (by decide) s bit v) h

@[bound] theorem le_standing_setLevel {s l} (h : x₀ ≤ standing s) : x₀ ≤ standing (setLevel s l) :=
  le_of_frame (setLevel_frame (by decide) s l) h

@[bound] theorem le_standing_linkFails {s b} (h : x₀ ≤ standing s) : x₀ ≤ standing (linkFails s b) :=
  le_of_frame (linkFails_frame (by decide) s b) h

@[bound] theorem le_standing_doHvFrame {link frame s} (h : x₀ ≤ standing s) : x₀ ≤ standing (doHvFrame link frame s) :=
  le_of_frame (doHvFrame_frame (by decide) link frame s) h

@[bound] theorem le_standing_doAckSeq {s} (h : x₀ ≤ standing s) : x₀ ≤ standing (doAckSeq s) :=
  le_of_frame (doAckSeq_frame (by decide) s) h

@[bound] theorem le_standing_onRise {s was now bit} (h : x₀ ≤ standing s) : x₀ ≤ standing (onRise s was now bit) :=
  le_of_frame (onRise_frame (by decide) s was now bit) h

@[bound] theorem le_standing_startEvent {s bit} (h : x₀ ≤ standing s) : x₀ ≤ standing (startEvent s bit) :=
  le_of_frame (startEvent_frame (by decide) s bit) h

@[bound] theorem le_standing_doStartRom {aOk bOk s} (h : x₀ ≤ standing s) : x₀ ≤ standing (doStartRom aOk bOk s) :=
  le_of_frame (doStartRom_frame (by decide) aOk bOk s) h

@[bound] theorem le_standing_doStartPlatform {a b s} (h : x₀ ≤ standing s) : x₀ ≤ standing (doStartPlatform a b s) :=
  le_of_frame (doStartPlatform_frame (by decide) a b s) h

@[bound] theorem le_standing_doStartClocks {rack1 slot1 rack2 slot2 s} (h : x₀ ≤ standing s) :
    x₀ ≤ standing (doStartClocks rack1 slot1 rack2 slot2 s) :=
  le_of_frame (doStartClocks_frame (by decide) rack1 slot1 rack2 slot2 s) h

@[bound] theorem le_standing_doStartIdentity {records s} (h : x₀ ≤ standing s) : x₀ ≤ standing (doStartIdentity records s) :=
  le_of_frame (doStartIdentity_frame (by decide) records s) h

@[bound] theorem le_standing_doStartDieLinks {failed s} (h : x₀ ≤ standing s) : x₀ ≤ standing (doStartDieLinks failed s) :=
  le_of_frame (doStartDieLinks_frame (by decide) failed s) h

@[bound] theorem le_standing_noteTest {s test ok cd} (h : x₀ ≤ standing s) : x₀ ≤ standing (noteTest s test ok cd) :=
  le_of_frame (noteTest_frame (by decide) s test ok cd) h

@[bound] theorem le_standing_doStartSelftest {failing s} (h : x₀ ≤ standing s) : x₀ ≤ standing (doStartSelftest failing s) :=
  le_of_frame (doStartSelftest_frame (by decide) failing s) h

@[bound] theorem le_standing_doStartOptics {lsStatus feeds failed s} (h : x₀ ≤ standing s) : x₀ ≤ standing (doStartOptics lsStatus feeds failed s) :=
  le_of_frame (doStartOptics_frame (by decide) lsStatus feeds failed s) h

@[bound] theorem le_standing_doStartReplay {imageOk s} (h : x₀ ≤ standing s) : x₀ ≤ standing (doStartReplay imageOk s) :=
  le_of_frame (doStartReplay_frame (by decide) imageOk s) h

@[bound] theorem le_standing_doStartReady {s} (h : x₀ ≤ standing s) : x₀ ≤ standing (doStartReady s) :=
  le_of_frame (doStartReady_frame (by decide) s) h

@[bound] theorem le_standing_imgEvent {s bit} (h : x₀ ≤ standing s) : x₀ ≤ standing (imgEvent s bit) :=
  le_of_frame (imgEvent_frame (by decide) s bit) h

@[bound] theorem le_standing_doActivation {s} (h : x₀ ≤ standing s) : x₀ ≤ standing (doActivation s) :=
  le_of_frame (doActivation_frame (by decide) s) h

@[bound] theorem le_standing_noImage {s refuse stop} (h : x₀ ≤ standing s) : x₀ ≤ standing (noImage s refuse stop) :=
  le_of_frame (noImage_frame (by decide) s refuse stop) h

@[bound] theorem le_standing_refuseImage {s code} (h : x₀ ≤ standing s) : x₀ ≤ standing (refuseImage s code) :=
  le_of_frame (refuseImage_frame (by decide) s code) h

@[bound] theorem le_standing_clearSince {s} (h : x₀ ≤ standing s) : x₀ ≤ standing (clearSince s) :=
  le_of_frame (clearSince_frame (by decide) s) h

@[bound] theorem le_standing_initObjs {s sec} (h : x₀ ≤ standing s) : x₀ ≤ standing (initObjs s sec) :=
  le_of_frame (initObjs_frame (by decide) s sec) h

@[bound] theorem le_standing_loadDie {p att prog d s} (h : x₀ ≤ standing s) : x₀ ≤ standing (loadDie p att prog d s) :=
  le_of_frame (loadDie_frame (by decide) p att prog d s) h

@[bound] theorem le_standing_setStores {s cs} (h : x₀ ≤ standing s) : x₀ ≤ standing (setStores s cs) :=
  le_of_frame (setStores_frame (by decide) s cs) h

@[bound] theorem le_standing_beginPrologue {s} (h : x₀ ≤ standing s) : x₀ ≤ standing (beginPrologue s) :=
  le_of_frame (beginPrologue_frame (by decide) s) h

@[bound] theorem le_standing_rehomeFail {s d} (h : x₀ ≤ standing s) : x₀ ≤ standing (rehomeFail s d) :=
  le_of_frame (rehomeFail_frame (by decide) s d) h

@[bound] theorem le_standing_doModImgStop {v s} (h : x₀ ≤ standing s) : x₀ ≤ standing (doModImgStop v s) :=
  le_of_frame (doModImgStop_frame (by decide) v s) h

@[bound] theorem le_standing_doImageStopped {s} (h : x₀ ≤ standing s) : x₀ ≤ standing (doImageStopped s) :=
  le_of_frame (doImageStopped_frame (by decide) s) h

@[bound] theorem le_standing_doMaquetteCopy {layer s} (h : x₀ ≤ standing s) : x₀ ≤ standing (doMaquetteCopy layer s) :=
  le_of_frame (doMaquetteCopy_frame (by decide) layer s) h

@[bound] theorem le_standing_doMaquetteSlotFree {slot s} (h : x₀ ≤ standing s) : x₀ ≤ standing (doMaquetteSlotFree slot s) :=
  le_of_frame (doMaquetteSlotFree_frame (by decide) slot s) h

@[bound] theorem le_standing_pollRead {s sec att rank} (h : x₀ ≤ standing s) : x₀ ≤ standing (pollRead s sec att rank) :=
  le_of_frame (pollRead_frame (by decide) s sec att rank) h

@[bound] theorem le_standing_rcvEnd {s cause} (h : x₀ ≤ standing s) : x₀ ≤ standing (rcvEnd s cause) :=
  le_of_frame (rcvEnd_frame (by decide) s cause) h

@[bound] theorem le_standing_rcvStart {s cmd v} (h : x₀ ≤ standing s) : x₀ ≤ standing (rcvStart s cmd v) :=
  le_of_frame (rcvStart_frame (by decide) s cmd v) h

@[bound] theorem le_standing_rcvFail {s cmd v cause} (h : x₀ ≤ standing s) : x₀ ≤ standing (rcvFail s cmd v cause) :=
  le_of_frame (rcvFail_frame (by decide) s cmd v cause) h

@[bound] theorem le_standing_rcvCopy {s v} (h : x₀ ≤ standing s) : x₀ ≤ standing (rcvCopy s v) :=
  le_of_frame (rcvCopy_frame (by decide) s v) h

@[bound] theorem le_standing_rcvRestore {s v} (h : x₀ ≤ standing s) : x₀ ≤ standing (rcvRestore s v) :=
  le_of_frame (rcvRestore_frame (by decide) s v) h

@[bound] theorem le_standing_rcvFull {s v} (h : x₀ ≤ standing s) : x₀ ≤ standing (rcvFull s v) :=
  le_of_frame (rcvFull_frame (by decide) s v) h

@[bound] theorem le_standing_rcvTestCd {s v} (h : x₀ ≤ standing s) : x₀ ≤ standing (rcvTestCd s v) :=
  le_of_frame (rcvTestCd_frame (by decide) s v) h

@[bound] theorem le_standing_rcvStop {s cause} (h : x₀ ≤ standing s) : x₀ ≤ standing (rcvStop s cause) :=
  le_of_frame (rcvStop_frame (by decide) s cause) h

@[bound] theorem le_standing_rcvTook {key r} (h : x₀ ≤ standing r.2) : x₀ ≤ standing (rcvTook key r) :=
  le_of_frame (rcvTook_frame (by decide) key r) h

@[bound] theorem le_standing_cdTested {s d ok} (h : x₀ ≤ standing s) : x₀ ≤ standing (cdTested s d ok) :=
  le_of_frame (cdTested_frame (by decide) s d ok) h

@[bound] theorem le_standing_drawFailed {s} (h : x₀ ≤ standing s) : x₀ ≤ standing (drawFailed s) :=
  le_of_frame (drawFailed_frame (by decide) s) h

@[bound] theorem le_standing_respond {s p cmd status body} (h : x₀ ≤ standing s) : x₀ ≤ standing (respond s p cmd status body) :=
  le_of_frame (respond_frame (by decide) s p cmd status body) h

@[bound] theorem le_standing_setNonce {s p n} (h : x₀ ≤ standing s) : x₀ ≤ standing (setNonce s p n) :=
  le_of_frame (setNonce_frame (by decide) s p n) h

@[bound] theorem le_standing_doGetNonce {p s} (h : x₀ ≤ standing s) : x₀ ≤ standing (doGetNonce p s) :=
  le_of_frame (doGetNonce_frame (by decide) p s) h

@[bound] theorem le_standing_doOwnerBind {p b sigOk s} (h : x₀ ≤ standing s) : x₀ ≤ standing (doOwnerBind p b sigOk s) :=
  le_of_frame (doOwnerBind_frame (by decide) p b sigOk s) h

@[bound] theorem le_standing_doOwnerRevoke {p b sigOk s} (h : x₀ ≤ standing s) : x₀ ≤ standing (doOwnerRevoke p b sigOk s) :=
  le_of_frame (doOwnerRevoke_frame (by decide) p b sigOk s) h

@[bound] theorem le_standing_doOwnerAdvance {p b sigOk s} (h : x₀ ≤ standing s) : x₀ ≤ standing (doOwnerAdvance p b sigOk s) :=
  le_of_frame (doOwnerAdvance_frame (by decide) p b sigOk s) h

@[bound] theorem le_standing_doOwnerLogClear {p b sigOk s} (h : x₀ ≤ standing s) : x₀ ≤ standing (doOwnerLogClear p b sigOk s) :=
  le_of_frame (doOwnerLogClear_frame (by decide) p b sigOk s) h

@[bound] theorem le_standing_doGetAttest {p nonce s} (h : x₀ ≤ standing s) : x₀ ≤ standing (doGetAttest p nonce s) :=
  le_of_frame (doGetAttest_frame (by decide) p nonce s) h

@[bound] theorem le_standing_doGetCert {p s} (h : x₀ ≤ standing s) : x₀ ≤ standing (doGetCert p s) :=
  le_of_frame (doGetCert_frame (by decide) p s) h

@[bound] theorem le_standing_doReadLog {p cls first s} (h : x₀ ≤ standing s) : x₀ ≤ standing (doReadLog p cls first s) :=
  le_of_frame (doReadLog_frame (by decide) p cls first s) h

@[bound] theorem le_standing_doEpoch {p v s} (h : x₀ ≤ standing s) : x₀ ≤ standing (doEpoch p v s) :=
  le_of_frame (doEpoch_frame (by decide) p v s) h

@[bound] theorem le_standing_doFlashWrite {p pi off data s} (h : x₀ ≤ standing s) : x₀ ≤ standing (doFlashWrite p pi off data s) :=
  le_of_frame (doFlashWrite_frame (by decide) p pi off data s) h

@[bound] theorem le_standing_doFlashPrefer {p pi copy ok s} (h : x₀ ≤ standing s) : x₀ ≤ standing (doFlashPrefer p pi copy ok s) :=
  le_of_frame (doFlashPrefer_frame (by decide) p pi copy ok s) h

@[bound] theorem le_standing_doSetEndpointId {p eid s} (h : x₀ ≤ standing s) : x₀ ≤ standing (doSetEndpointId p eid s) :=
  le_of_frame (doSetEndpointId_frame (by decide) p eid s) h

@[bound] theorem le_standing_doPldmRequest {p type cmd arg s} (h : x₀ ≤ standing s) : x₀ ≤ standing (doPldmRequest p type cmd arg s) :=
  le_of_frame (doPldmRequest_frame (by decide) p type cmd arg s) h

@[bound] theorem le_standing_ringFrame {s f} (h : x₀ ≤ standing s) : x₀ ≤ standing (ringFrame s f) :=
  le_of_frame (ringFrame_frame (by decide) s f) h

@[bound] theorem le_standing_putFrame {s f} (h : x₀ ≤ standing s) : x₀ ≤ standing (putFrame s f) :=
  le_of_frame (putFrame_frame (by decide) s f) h

@[bound] theorem le_standing_sendAllPending {s} (h : x₀ ≤ standing s) : x₀ ≤ standing (sendAllPending s) :=
  le_of_frame (sendAllPending_frame (by decide) s) h

@[bound] theorem le_standing_writeMsix {off v s} (h : x₀ ≤ standing s) : x₀ ≤ standing (writeMsix off v s) :=
  le_of_frame (writeMsix_frame (by decide) off v s) h

@[bound] theorem le_standing_writeMboxCtl {v s} (h : x₀ ≤ standing s) : x₀ ≤ standing (writeMboxCtl v s) :=
  le_of_frame (writeMboxCtl_frame (by decide) v s) h

@[bound] theorem le_standing_writeHw {off v s} (h : x₀ ≤ standing s) : x₀ ≤ standing (writeHw off v s) :=
  le_of_frame (writeHw_frame (by decide) off v s) h

@[bound] theorem le_standing_writeRm {off v s} (h : x₀ ≤ standing s) : x₀ ≤ standing (writeRm off v s) :=
  le_of_frame (writeRm_frame (by decide) off v s) h

@[bound] theorem le_standing_writeRs {off v s} (h : x₀ ≤ standing s) : x₀ ≤ standing (writeRs off v s) :=
  le_of_frame (writeRs_frame (by decide) off v s) h

@[bound] theorem le_standing_writeHigh {m off v s} (h : x₀ ≤ standing s) : x₀ ≤ standing (writeHigh m off v s) :=
  le_of_frame (writeHigh_frame (by decide) m off v s) h

@[bound] theorem le_standing_holdLow {m off v s} (h : x₀ ≤ standing s) : x₀ ≤ standing (holdLow m off v s) :=
  le_of_frame (holdLow_frame (by decide) m off v s) h

@[bound] theorem le_standing_doReg64LowRead {m off s} (h : x₀ ≤ standing s) : x₀ ≤ standing (doReg64LowRead m off s) :=
  le_of_frame (doReg64LowRead_frame (by decide) m off s) h

@[bound] theorem le_standing_doBar0ReservedAccess {m off size write s} (h : x₀ ≤ standing s) :
    x₀ ≤ standing (doBar0ReservedAccess m off size write s) :=
  le_of_frame (doBar0ReservedAccess_frame (by decide) m off size write s) h

@[bound] theorem le_standing_doModElogPop {m s} (h : x₀ ≤ standing s) : x₀ ≤ standing (doModElogPop m s) :=
  le_of_frame (doModElogPop_frame (by decide) m s) h

@[bound] theorem le_standing_doSecLogPop {m s} (h : x₀ ≤ standing s) : x₀ ≤ standing (doSecLogPop m s) :=
  le_of_frame (doSecLogPop_frame (by decide) m s) h

@[bound] theorem le_standing_doSecAuthFailRead {m s} (h : x₀ ≤ standing s) : x₀ ≤ standing (doSecAuthFailRead m s) :=
  le_of_frame (doSecAuthFailRead_frame (by decide) m s) h

@[bound] theorem le_standing_malformedTlp {s} (h : x₀ ≤ standing s) : x₀ ≤ standing (malformedTlp s) :=
  le_of_frame (malformedTlp_frame (by decide) s) h

@[bound] theorem le_standing_doBar2Resize {size s} (h : x₀ ≤ standing s) : x₀ ≤ standing (doBar2Resize size s) :=
  le_of_frame (doBar2Resize_frame (by decide) size s) h

@[bound] theorem le_standing_doD3hotEnter {s} (h : x₀ ≤ standing s) : x₀ ≤ standing (doD3hotEnter s) :=
  le_of_frame (doD3hotEnter_frame (by decide) s) h

@[bound] theorem le_standing_doD0Return {s} (h : x₀ ≤ standing s) : x₀ ≤ standing (doD0Return s) :=
  le_of_frame (doD0Return_frame (by decide) s) h

@[bound] theorem le_standing_doBusMasterEnable {en s} (h : x₀ ≤ standing s) : x₀ ≤ standing (doBusMasterEnable en s) :=
  le_of_frame (doBusMasterEnable_frame (by decide) en s) h

@[bound] theorem le_standing_doPcieLinkUp {s} (h : x₀ ≤ standing s) : x₀ ≤ standing (doPcieLinkUp s) :=
  le_of_frame (doPcieLinkUp_frame (by decide) s) h

@[bound] theorem le_standing_startPass {d c w s} (h : x₀ ≤ standing s) : x₀ ≤ standing (startPass d c w s) :=
  le_of_frame (startPass_frame (by decide) d c w s) h

@[bound] theorem le_standing_passEnd {d c w s} (h : x₀ ≤ standing s) : x₀ ≤ standing (passEnd d c w s) :=
  le_of_frame (passEnd_frame (by decide) d c w s) h

end Sys2Proof.Machine
end

section
/-! PROOF. The passing of time and the operations on module memory (R243 to R257). -/
namespace Sys2Proof.Machine
open Sys2Proof

variable {x₀ : ℕ × Prop} {s t : State}

theorem le_standing_clk {n : ℕ} (h : x₀ ≤ standing s) : x₀ ≤ standing { s with clk := s.clk + n } :=
  standing_mk_of (s := s) (Nat.le_add_right _ _) id h

@[bound] theorem le_standing_advance {n} (h : x₀ ≤ standing s) : x₀ ≤ standing (advance n s) := by
  have hcount : standing s ≤ standing (forDies (countHold n) (forDies (countThrottle n)
      (if armWaiting (forStreams (countWait n) s) then addReg64 (forStreams (countWait n) s) rArmWaitNs n
        else forStreams (countWait n) s))) :=
    le_standing_of_floor (fun x₀ h => by bound) le_rfl
  unfold advance
  refine h.trans <| le_of_frame (slewed_frame (by decide) _ _) (le_standing_clk (le_standing_ite hcount ?_))
  exact le_of_frame (addReg64_frame (by decide) _ _ _) hcount

@[bound] theorem le_standing_advanceTo {n} (h : x₀ ≤ standing s) : x₀ ≤ standing (advanceTo n s) := by unfold advanceTo; split <;> bound

theorem le_standing_memRead {a len r} (hr : memRead s a len = some (r, t)) (h : x₀ ≤ standing s) : x₀ ≤ standing t :=
  le_of_wf (memRead_frame (by decide) s a len r t hr) (fun w => wf_memRead s a len r t w hr) h

theorem le_standing_memWrite {a bs r} (hr : memWrite s a bs = some (r, t)) (h : x₀ ≤ standing s) : x₀ ≤ standing t :=
  le_of_wf (memWrite_frame (by decide) s a bs r t hr) (fun w => wf_memWrite s a bs r t w hr) h

@[bound] theorem le_standing_updStack {s n f} (h : x₀ ≤ standing s) : x₀ ≤ standing (updStack s n f) :=
  le_of_wf (updStack_frame (by decide) s n f) (wf_updStack s n f) h

@[bound] theorem le_standing_memPut {s a bs} (h : x₀ ≤ standing s) : x₀ ≤ standing (memPut s a bs) :=
  le_of_wf (memPut_frame (by decide) s a bs) (wf_memPut s a bs) h

@[bound] theorem le_standing_memPoison {s a len} (h : x₀ ≤ standing s) : x₀ ≤ standing (memPoison s a len) :=
  le_of_wf (memPoison_frame (by decide) s a len) (wf_memPoison s a len) h

@[bound] theorem le_standing_doRowRepairDone {n row s} (h : x₀ ≤ standing s) : x₀ ≤ standing (doRowRepairDone n row s) :=
  le_of_wf (doRowRepairDone_frame (by decide) n row s) (wf_doRowRepairDone n row s) h

@[bound] theorem le_standing_doPatrolScrub {n s} (h : x₀ ≤ standing s) : x₀ ≤ standing (doPatrolScrub n s) :=
  le_of_wf (doPatrolScrub_frame (by decide) n s) (wf_doPatrolScrub n s) h

@[bound] theorem le_standing_doRowCeAge {n row s} (h : x₀ ≤ standing s) : x₀ ≤ standing (doRowCeAge n row s) :=
  le_standing_of_floor (h := h) fun x₀ h => by
  unfold doRowCeAge; bound

end Sys2Proof.Machine
end

section
/-! PROOF. The step guard, descriptors, streams and the matrix array. -/
namespace Sys2Proof.Machine
open Sys2Proof

variable {x₀ : ℕ × Prop} {s t : State}

@[bound] theorem le_standing_writeVerdict {s att v} (h : x₀ ≤ standing s) : x₀ ≤ standing (writeVerdict s att v) :=
  le_standing_of_floor (h := h) fun x₀ h => by
  unfold writeVerdict; bound

@[bound] theorem le_standing_setPoison {s att} (h : x₀ ≤ standing s) : x₀ ≤ standing (setPoison s att) :=
  le_standing_of_floor (h := h) fun x₀ h => by
  unfold setPoison; bound

@[bound] theorem le_standing_fastPoison {s att bit layer cd} (h : x₀ ≤ standing s) : x₀ ≤ standing (fastPoison s att bit layer cd) :=
  le_standing_of_floor (h := h) fun x₀ h => by
  unfold fastPoison; bound

@[bound] theorem le_standing_faultAs {s d c prologue onPath bit typ seq addr layer} (h : x₀ ≤ standing s) :
    x₀ ≤ standing (faultAs s d c prologue onPath bit typ seq addr layer) :=
  le_standing_of_floor (h := h) fun x₀ h => by
  unfold faultAs; bound

@[bound] theorem le_standing_descFault {s d c bit typ seq addr layer} (h : x₀ ≤ standing s) :
    x₀ ≤ standing (descFault s d c bit typ seq addr layer) :=
  le_standing_of_floor (h := h) fun x₀ h => by
  unfold descFault; bound

@[bound] theorem le_standing_curFault {s d c bit w} (h : x₀ ≤ standing s) : x₀ ≤ standing (curFault s d c bit w) :=
  le_standing_of_floor (h := h) fun x₀ h => by
  unfold curFault; bound

@[bound] theorem le_standing_unitFault {s d c bit e} (h : x₀ ≤ standing s) : x₀ ≤ standing (unitFault s d c bit e) :=
  le_standing_of_floor (h := h) fun x₀ h => by
  unfold unitFault; bound

theorem Floor.memRead {a len r} (h : Floor x₀ s) (hr : memRead s a len = some (r, t)) : Floor x₀ t := by
  rintro _ rfl; exact le_standing_memRead hr (h s rfl)

theorem Floor.memWrite {a bs r} (h : Floor x₀ s) (hr : memWrite s a bs = some (r, t)) : Floor x₀ t := by
  rintro _ rfl; exact le_standing_memWrite hr (h s rfl)

theorem Floor.sendReq {user own p} (h : Floor x₀ s) (hr : sendReq s user own p = some t) : Floor x₀ t := by
  rintro _ rfl; exact le_of_frame (sendReq_frame (by decide) s user own p _ hr) (h s rfl)

@[bound] theorem le_standing_stashTake {s d c w} (h : x₀ ≤ standing s) : x₀ ≤ standing (stashTake s d c w).2 :=
  le_standing_of_floor (h := h) fun x₀ h => by
  unfold stashTake; dsimp only; bound

@[bound] theorem le_standing_issueAs {t p d c} {run : BitVec 512 → State → State} (hrun : ∀ x₀ w s, Floor x₀ s → x₀ ≤ standing (run w s))
    (h : x₀ ≤ standing s) : x₀ ≤ standing (issueAs t p run d c s) :=
  le_standing_of_floor (h := h) fun x₀ h => by
  unfold issueAs
  split
  · bound
  next w hw =>
    have htake : Floor x₀ (stashTake s d c w).2 := fun _ e => e ▸ le_standing_stashTake (h s rfl)
    dsimp only
    bound

@[bound] theorem le_standing_doDescFetch {d c s} (h : x₀ ≤ standing s) : x₀ ≤ standing (doDescFetch d c s) :=
  le_standing_of_floor (h := h) fun x₀ h => by
  unfold doDescFetch
  extract_lets x
  split_ifs
  · bound
  · bound
  split
  · bound
  next r t hread => have := h.memRead hread; bound

@[bound] theorem le_standing_readPlace {s p len port} (h : x₀ ≤ standing s) : x₀ ≤ standing (readPlace s p len port).2 :=
  le_standing_of_floor (h := h) fun x₀ h => by
  unfold readPlace
  split
  · bound
  · split
    next r hread => exact h.memRead hread _ rfl
    · bound
  · bound

@[bound] theorem le_standing_writePlace {s p bs port} (h : x₀ ≤ standing s) : x₀ ≤ standing (writePlace s p bs port).2 :=
  le_standing_of_floor (h := h) fun x₀ h => by
  unfold writePlace
  split
  · bound
  · split
    next r hwrite => exact h.memWrite hwrite _ rfl
    · bound
  · bound

@[bound] theorem le_standing_poisonPlace {s p} (h : x₀ ≤ standing s) : x₀ ≤ standing (poisonPlace s p) :=
  le_standing_of_floor (h := h) fun x₀ h => by
  unfold poisonPlace; bound

@[bound] theorem le_standing_copyGran {d w free r g acc} (h : x₀ ≤ standing acc.2) : x₀ ≤ standing (copyGran d w free r g acc).2 :=
  le_standing_of_floor (h := h) fun x₀ h => by
  obtain ⟨b, s⟩ := acc
  unfold copyGran; dsimp only; bound

@[bound] theorem le_standing_moveCopyAll {d w s} (h : x₀ ≤ standing s) : x₀ ≤ standing (moveCopyAll d w s).2 :=
  le_standing_of_floor (h := h) fun x₀ h => by
  unfold moveCopyAll; bound

@[bound] theorem le_standing_moveZeroAll {d w s} (h : x₀ ≤ standing s) : x₀ ≤ standing (moveZeroAll d w s).2 :=
  le_standing_of_floor (h := h) fun x₀ h => by
  unfold moveZeroAll; dsimp only; bound

@[bound] theorem le_standing_runMove {d c w} {all : BitVec 512 → State → Bool × State} (hall : ∀ x₀ w s, Floor x₀ s → x₀ ≤ standing (all w s).2)
    (h : x₀ ≤ standing s) : x₀ ≤ standing (runMove d c all w s) :=
  le_standing_of_floor (h := h) fun x₀ h => by
  unfold runMove; bound

@[bound] theorem le_standing_doMoveCopy {d c s} (h : x₀ ≤ standing s) : x₀ ≤ standing (doMoveCopy d c s) :=
  le_standing_of_floor (h := h) fun x₀ h => by
  unfold doMoveCopy; bound

@[bound] theorem le_standing_doMoveZero {d c s} (h : x₀ ≤ standing s) : x₀ ≤ standing (doMoveZero d c s) :=
  le_standing_of_floor (h := h) fun x₀ h => by
  unfold doMoveZero; bound

@[bound] theorem le_standing_doMoveDone {d c i s} (h : x₀ ≤ standing s) : x₀ ≤ standing (doMoveDone d c i s) :=
  le_standing_of_floor (h := h) fun x₀ h => by
  unfold doMoveDone; bound

@[bound] theorem le_standing_runSignal {d c w s} (h : x₀ ≤ standing s) : x₀ ≤ standing (runSignal d c w s) :=
  le_standing_of_floor (h := h) fun x₀ h => by
  unfold runSignal
  extract_lets x t
  split
  · bound
  split
  · bound
  · extract_lets p e
    split
    · bound
    split
    next u hsend => have := h.sendReq hsend; bound
    · bound

@[bound] theorem le_standing_doSignal {d c s} (h : x₀ ≤ standing s) : x₀ ≤ standing (doSignal d c s) :=
  le_standing_of_floor (h := h) fun x₀ h => by
  unfold doSignal; bound

@[bound] theorem le_standing_doWaitAtLeast {d c s} (h : x₀ ≤ standing s) : x₀ ≤ standing (doWaitAtLeast d c s) :=
  le_standing_of_floor (h := h) fun x₀ h => by
  unfold doWaitAtLeast; bound

@[bound] theorem le_standing_doWaitTake {d c s} (h : x₀ ≤ standing s) : x₀ ≤ standing (doWaitTake d c s) :=
  le_standing_of_floor (h := h) fun x₀ h => by
  unfold doWaitTake; bound

@[bound] theorem le_standing_streamTimeout {s d c} (h : x₀ ≤ standing s) : x₀ ≤ standing (streamTimeout s d c) :=
  le_standing_of_floor (h := h) fun x₀ h => by
  unfold streamTimeout; dsimp only; bound

@[bound] theorem le_standing_doWaiterTimeout {o who s} (h : x₀ ≤ standing s) : x₀ ≤ standing (doWaiterTimeout o who s) :=
  le_standing_of_floor (h := h) fun x₀ h => by
  unfold doWaiterTimeout; bound

@[bound] theorem le_standing_beginAttempt {s att n no} (h : x₀ ≤ standing s) : x₀ ≤ standing (beginAttempt s att n no) :=
  le_standing_of_floor (h := h) fun x₀ h => by
  unfold beginAttempt; dsimp only; bound

@[bound] theorem le_standing_runBegin {d c w s} (h : x₀ ≤ standing s) : x₀ ≤ standing (runBegin d c w s) :=
  le_standing_of_floor (h := h) fun x₀ h => by
  unfold runBegin; bound

@[bound] theorem le_standing_doStepBegin {d c s} (h : x₀ ≤ standing s) : x₀ ≤ standing (doStepBegin d c s) :=
  le_standing_of_floor (h := h) fun x₀ h => by
  unfold doStepBegin; bound

@[bound] theorem le_standing_doStepEnd {d c s} (h : x₀ ≤ standing s) : x₀ ≤ standing (doStepEnd d c s) :=
  le_standing_of_floor (h := h) fun x₀ h => by
  unfold doStepEnd; bound

@[bound] theorem le_standing_doGuard {d c s} (h : x₀ ≤ standing s) : x₀ ≤ standing (doGuard d c s) :=
  le_standing_of_floor (h := h) fun x₀ h => by
  unfold doGuard; bound

@[bound] theorem le_standing_readLoss {s a} (h : x₀ ≤ standing s) : x₀ ≤ standing (readLoss s a).2 :=
  le_standing_of_floor (h := h) fun x₀ h => by
  unfold readLoss
  split
  next r t hread => have := h.memRead hread; bound
  · bound

@[bound] theorem le_standing_runLoss {d c w s} (h : x₀ ≤ standing s) : x₀ ≤ standing (runLoss d c w s) :=
  le_standing_of_floor (h := h) fun x₀ h => by
  unfold runLoss; dsimp only; bound

@[bound] theorem le_standing_doLoss {d c s} (h : x₀ ≤ standing s) : x₀ ≤ standing (doLoss d c s) :=
  le_standing_of_floor (h := h) fun x₀ h => by
  unfold doLoss; bound

@[bound] theorem le_standing_writeRecord {s a} (h : x₀ ≤ standing s) : x₀ ≤ standing (writeRecord s a) :=
  le_standing_of_floor (h := h) fun x₀ h => by
  unfold writeRecord; bound

@[bound] theorem le_standing_endPoisoned {s a} (h : x₀ ≤ standing s) : x₀ ≤ standing (endPoisoned s a) :=
  le_standing_of_floor (h := h) fun x₀ h => by
  unfold endPoisoned
  extract_lets scaled released _ forgotten shownCause event _ shown taken recorded
  have hshown : Floor x₀ shown := by rintro _ rfl; bound
  clear_value shown
  have htaken : Floor x₀ taken := by rintro _ rfl; unfold taken; bound
  clear_value taken
  bound

@[bound] theorem le_standing_endClear {s a} (h : x₀ ≤ standing s) : x₀ ≤ standing (endClear s a) :=
  le_standing_of_floor (h := h) fun x₀ h => by
  unfold endClear; bound

@[bound] theorem le_standing_doStepUnitEndStep {s} (h : x₀ ≤ standing s) : x₀ ≤ standing (doStepUnitEndStep s) :=
  le_standing_of_floor (h := h) fun x₀ h => by
  unfold doStepUnitEndStep; bound

@[bound] theorem le_standing_runArray {d c w s} (h : x₀ ≤ standing s) : x₀ ≤ standing (runArray d c w s) :=
  le_standing_of_floor (h := h) fun x₀ h => by
  unfold runArray; bound

@[bound] theorem le_standing_doArray {d c s} (h : x₀ ≤ standing s) : x₀ ≤ standing (doArray d c s) :=
  le_standing_of_floor (h := h) fun x₀ h => by
  unfold doArray; bound

@[bound] theorem le_standing_gangFaultDie {s0 c tag d s} (h : x₀ ≤ standing s) : x₀ ≤ standing (gangFaultDie s0 c tag d s) :=
  le_standing_of_floor (h := h) fun x₀ h => by
  unfold gangFaultDie; bound

@[bound] theorem le_standing_gangFault {s c bit mask tag} (h : x₀ ≤ standing s) : x₀ ≤ standing (gangFault s c bit mask tag) :=
  le_standing_of_floor (h := h) fun x₀ h => by
  unfold gangFault; bound

@[bound] theorem le_standing_doGangGrant {s} (h : x₀ ≤ standing s) : x₀ ≤ standing (doGangGrant s) :=
  le_standing_of_floor (h := h) fun x₀ h => by
  unfold doGangGrant; bound

@[bound] theorem le_standing_doGangTimeout {c s} (h : x₀ ≤ standing s) : x₀ ≤ standing (doGangTimeout c s) :=
  le_standing_of_floor (h := h) fun x₀ h => by
  unfold doGangTimeout; bound

@[bound] theorem le_standing_endOp {d o bad s} (h : x₀ ≤ standing s) : x₀ ≤ standing (endOp d o bad s) :=
  le_standing_of_floor (h := h) fun x₀ h => by
  unfold endOp; bound

@[bound] theorem le_standing_doArrayBoundary {d parity s} (h : x₀ ≤ standing s) : x₀ ≤ standing (doArrayBoundary d parity s) :=
  le_standing_of_floor (h := h) fun x₀ h => by
  unfold doArrayBoundary; dsimp only; bound

end Sys2Proof.Machine
end

section
/-! PROOF. The vector unit. -/
namespace Sys2Proof.Machine
open Sys2Proof

variable {x₀ : ℕ × Prop} {s t : State}

@[bound] theorem le_standing_vecAbort {s v} (h : x₀ ≤ standing s) : x₀ ≤ standing (vecAbort s v) :=
  le_standing_of_floor (h := h) fun x₀ h => by
  unfold vecAbort; dsimp only; bound

@[bound] theorem le_standing_vecFault {s v bit op addr} (h : x₀ ≤ standing s) : x₀ ≤ standing (vecFault s v bit op addr) :=
  le_standing_of_floor (h := h) fun x₀ h => by
  unfold vecFault; bound

@[bound] theorem le_standing_vecRun {op v ill pair} {run : State → State} (hrun : ∀ x₀ s, Floor x₀ s → x₀ ≤ standing (run s)) (h : x₀ ≤ standing s) :
    x₀ ≤ standing (vecRun op v ill pair run s) :=
  le_standing_of_floor (h := h) fun x₀ h => by
  unfold vecRun
  extract_lets x w
  have hcounted : Floor x₀ (if x.waitTq then s else addReg64 s (cdWin v.die.val + rVecInstr) 1) := by rintro _ rfl; bound
  have hfault : ∀ bit op info, x₀ ≤ standing (vecFault s v bit op info) := fun _ _ _ => le_standing_vecFault (h s rfl)
  exact le_standing_ite (h s rfl) <| le_standing_ite (hfault _ _ _) <| le_standing_ite (hfault _ _ _) <| le_standing_ite (h s rfl) <|
    le_standing_ite (hfault _ _ _) <| le_standing_ite (hfault _ _ _) <| hrun _ _ hcounted

@[bound] theorem le_standing_vecScalar {op v ill f y4} (h : x₀ ≤ standing y4) : x₀ ≤ standing (vecScalar op v ill f y4) :=
  le_standing_of_floor (h := h) fun x₀ h => by
  unfold vecScalar; bound

@[bound] theorem le_standing_vecLoop {op v n s} (h : x₀ ≤ standing s) : x₀ ≤ standing (vecLoop op v n s) :=
  le_standing_of_floor (h := h) fun x₀ h => by
  unfold vecLoop; bound

@[bound] theorem le_standing_vecEndLoop {v s} (h : x₀ ≤ standing s) : x₀ ≤ standing (vecEndLoop v s) :=
  le_standing_of_floor (h := h) fun x₀ h => by
  unfold vecEndLoop; dsimp only; bound

@[bound] theorem le_standing_vecEnd {v s} (h : x₀ ≤ standing s) : x₀ ≤ standing (vecEnd v s) :=
  le_standing_of_floor (h := h) fun x₀ h => by
  unfold vecEnd; dsimp only; bound

@[bound] theorem le_standing_vecPop {v s} (h : x₀ ≤ standing s) : x₀ ≤ standing (vecPop v s) :=
  le_standing_of_floor (h := h) fun x₀ h => by
  unfold vecPop; bound

@[bound] theorem le_standing_vecRel {v s} (h : x₀ ≤ standing s) : x₀ ≤ standing (vecRel v s) :=
  le_standing_of_floor (h := h) fun x₀ h => by
  unfold vecRel; bound

@[bound] theorem le_standing_vecBin {op f v s} (h : x₀ ≤ standing s) : x₀ ≤ standing (vecBin op f v s) :=
  le_standing_of_floor (h := h) fun x₀ h => by
  unfold vecBin; bound

@[bound] theorem le_standing_vecBinI {op f v s} (h : x₀ ≤ standing s) : x₀ ≤ standing (vecBinI op f v s) :=
  le_standing_of_floor (h := h) fun x₀ h => by
  unfold vecBinI; bound

@[bound] theorem le_standing_vecTri {op f v s} (h : x₀ ≤ standing s) : x₀ ≤ standing (vecTri op f v s) :=
  le_standing_of_floor (h := h) fun x₀ h => by
  unfold vecTri; bound

@[bound] theorem le_standing_vecTriI {op f v s} (h : x₀ ≤ standing s) : x₀ ≤ standing (vecTriI op f v s) :=
  le_standing_of_floor (h := h) fun x₀ h => by
  unfold vecTriI; bound

@[bound] theorem le_standing_vecUn {op f v s} (h : x₀ ≤ standing s) : x₀ ≤ standing (vecUn op f v s) :=
  le_standing_of_floor (h := h) fun x₀ h => by
  unfold vecUn; bound

@[bound] theorem le_standing_vecWhole {op f v s} (h : x₀ ≤ standing s) : x₀ ≤ standing (vecWhole op f v s) :=
  le_standing_of_floor (h := h) fun x₀ h => by
  unfold vecWhole; bound

@[bound] theorem le_standing_vecGen {op f v s} (h : x₀ ≤ standing s) : x₀ ≤ standing (vecGen op f v s) :=
  le_standing_of_floor (h := h) fun x₀ h => by
  unfold vecGen; bound

@[bound] theorem le_standing_vecCmp {op f v s} (h : x₀ ≤ standing s) : x₀ ≤ standing (vecCmp op f v s) :=
  le_standing_of_floor (h := h) fun x₀ h => by
  unfold vecCmp; bound

@[bound] theorem le_standing_vecCmpI {op f v s} (h : x₀ ≤ standing s) : x₀ ≤ standing (vecCmpI op f v s) :=
  le_standing_of_floor (h := h) fun x₀ h => by
  unfold vecCmpI; bound

@[bound] theorem le_standing_vecMask {op f v s} (h : x₀ ≤ standing s) : x₀ ≤ standing (vecMask op f v s) :=
  le_standing_of_floor (h := h) fun x₀ h => by
  unfold vecMask; bound

@[bound] theorem le_standing_vecConv {op ill f v s} (h : x₀ ≤ standing s) : x₀ ≤ standing (vecConv op ill f v s) :=
  le_standing_of_floor (h := h) fun x₀ h => by
  unfold vecConv; bound

@[bound] theorem le_standing_vecVguard {v s} (h : x₀ ≤ standing s) : x₀ ≤ standing (vecVguard v s) :=
  le_standing_of_floor (h := h) fun x₀ h => by
  unfold vecVguard; bound

@[bound] theorem le_standing_vecVunsc {v s} (h : x₀ ≤ standing s) : x₀ ≤ standing (vecVunsc v s) :=
  le_standing_of_floor (h := h) fun x₀ h => by
  unfold vecVunsc; bound

@[bound] theorem le_standing_vecCpop {v s} (h : x₀ ≤ standing s) : x₀ ≤ standing (vecCpop v s) :=
  le_standing_of_floor (h := h) fun x₀ h => by
  unfold vecCpop; bound

@[bound] theorem le_standing_vecIota {v s} (h : x₀ ≤ standing s) : x₀ ≤ standing (vecIota v s) :=
  le_standing_of_floor (h := h) fun x₀ h => by
  unfold vecIota; bound

@[bound] theorem le_standing_vecRed {op f v s} (h : x₀ ≤ standing s) : x₀ ≤ standing (vecRed op f v s) :=
  le_standing_of_floor (h := h) fun x₀ h => by
  unfold vecRed; bound

@[bound] theorem le_standing_vecPadd {v s} (h : x₀ ≤ standing s) : x₀ ≤ standing (vecPadd v s) :=
  le_standing_of_floor (h := h) fun x₀ h => by
  unfold vecPadd; bound

@[bound] theorem le_standing_vecPnorm {v s} (h : x₀ ≤ standing s) : x₀ ≤ standing (vecPnorm v s) :=
  le_standing_of_floor (h := h) fun x₀ h => by
  unfold vecPnorm; bound

@[bound] theorem le_standing_vecD2 {op f v s} (h : x₀ ≤ standing s) : x₀ ≤ standing (vecD2 op f v s) :=
  le_standing_of_floor (h := h) fun x₀ h => by
  unfold vecD2; bound

@[bound] theorem le_standing_vecDfma {v s} (h : x₀ ≤ standing s) : x₀ ≤ standing (vecDfma v s) :=
  le_standing_of_floor (h := h) fun x₀ h => by
  unfold vecDfma; bound

@[bound] theorem le_standing_vecCvtDF {v s} (h : x₀ ≤ standing s) : x₀ ≤ standing (vecCvtDF v s) :=
  le_standing_of_floor (h := h) fun x₀ h => by
  unfold vecCvtDF; bound

@[bound] theorem le_standing_vecCvtFD {v s} (h : x₀ ≤ standing s) : x₀ ≤ standing (vecCvtFD v s) :=
  le_standing_of_floor (h := h) fun x₀ h => by
  unfold vecCvtFD; bound

@[bound] theorem le_standing_foldl_load {α : Type} {f : LoadAcc → α → LoadAcc} {l : List α} {acc : LoadAcc}
    (hf : ∀ x₀ acc y, Floor x₀ acc.s → x₀ ≤ standing (f acc y).s) (h : x₀ ≤ standing acc.s) : x₀ ≤ standing (l.foldl f acc).s :=
  le_standing_foldl_proj LoadAcc.s hf h

@[bound] theorem le_standing_foldl_store {α : Type} {f : StoreAcc → α → StoreAcc} {l : List α} {acc : StoreAcc}
    (hf : ∀ x₀ acc y, Floor x₀ acc.s → x₀ ≤ standing (f acc y).s) (h : x₀ ≤ standing acc.s) : x₀ ≤ standing (l.foldl f acc).s :=
  le_standing_foldl_proj StoreAcc.s hf h

@[bound] theorem le_standing_ite_store {c : Prop} [Decidable c] {a b : StoreAcc} (ha : x₀ ≤ standing a.s) (hb : x₀ ≤ standing b.s) :
    x₀ ≤ standing (if c then a else b).s := by split <;> assumption

@[bound] theorem le_standing_mk_store {moved ue cnt fault run} (h : x₀ ≤ standing s) : x₀ ≤ standing (StoreAcc.mk s moved ue cnt fault run).s := h

@[bound] theorem le_standing_mk_load {got ue fault} (h : x₀ ≤ standing s) : x₀ ≤ standing (LoadAcc.mk s got ue fault).s := h

theorem Floor.loadScale {v i r} (h : Floor x₀ s) (hr : loadScale s v i = .inr r) : Floor x₀ r.2 := by
  unfold Machine.loadScale at hr
  dsimp only at hr
  split at hr
  · cases hr
    rintro _ rfl; bound
  · cases hr

@[bound] theorem le_standing_loadLane {v addr acc i} (h : x₀ ≤ standing acc.s) : x₀ ≤ standing (loadLane v addr acc i).s :=
  le_standing_of_floor (h := h) fun x₀ h => by
  unfold loadLane
  extract_lets a
  split
  · bound
  split
  · bound
  · dsimp only
    have hread : Floor x₀ (readPlace acc.s (placeOf v.die v.space a.toNat) (colSpan v.fmt) (vecPort v)).2 := by rintro _ rfl; bound
    split
    · split
      · bound
      next hscale => exact hread.loadScale hscale _ rfl
    · bound

@[bound] theorem le_standing_endLoad {op v idx row acc} (h : x₀ ≤ standing acc.s) : x₀ ≤ standing (endLoad op v idx row acc) :=
  le_standing_of_floor (h := h) fun x₀ h => by
  unfold endLoad; bound

@[bound] theorem le_standing_runLoad {op v idx row ls addr s} (h : x₀ ≤ standing s) : x₀ ≤ standing (runLoad op v idx row ls addr s) :=
  le_standing_of_floor (h := h) fun x₀ h => by
  unfold runLoad; bound

@[bound] theorem le_standing_vecLoad {op okFmt idx addr v s} (h : x₀ ≤ standing s) : x₀ ≤ standing (vecLoad op okFmt idx addr v s) :=
  le_standing_of_floor (h := h) fun x₀ h => by
  unfold vecLoad; bound

@[bound] theorem le_standing_vecRow {op v} {run : VCtx → ℕ → State → State} (hrun : ∀ x₀ i j s, Floor x₀ s → x₀ ≤ standing (run i j s))
    (h : x₀ ≤ standing s) : x₀ ≤ standing (vecRow op v run s) :=
  le_standing_of_floor (h := h) fun x₀ h => by
  unfold vecRow; bound

@[bound] theorem le_standing_flushRun {v acc} (h : x₀ ≤ standing acc.s) : x₀ ≤ standing (flushRun v acc).s :=
  le_standing_of_floor (h := h) fun x₀ h => by
  unfold flushRun
  dsimp only
  split <;> bound

@[bound] theorem le_standing_addRun {v acc a n f} (h : x₀ ≤ standing acc.s) : x₀ ≤ standing (addRun v acc a n f).s :=
  le_standing_of_floor (h := h) fun x₀ h => by
  unfold addRun
  split
  · dsimp only; bound
  · bound

@[bound] theorem le_standing_endStore {op v idx acc} (h : x₀ ≤ standing acc.s) : x₀ ≤ standing (endStore op v idx acc) :=
  le_standing_of_floor (h := h) fun x₀ h => by
  unfold endStore
  dsimp only
  split <;> bound

@[bound] theorem le_standing_putCode {run v acc i a c} (h : x₀ ≤ standing acc.s) : x₀ ≤ standing (putCode run v acc i a c).s :=
  le_standing_of_floor (h := h) fun x₀ h => by
  unfold putCode
  dsimp only
  split <;> bound

@[bound] theorem le_standing_storeLane {run x v addr acc i} (h : x₀ ≤ standing acc.s) : x₀ ≤ standing (storeLane run x v addr acc i).s :=
  le_standing_of_floor (h := h) fun x₀ h => by
  unfold storeLane
  dsimp only
  split
  · bound
  split <;> bound

@[bound] theorem le_standing_storeBlock {x v addr acc b} (h : x₀ ≤ standing acc.s) : x₀ ≤ standing (storeBlock x v addr acc b).s :=
  le_standing_of_floor (h := h) fun x₀ h => by
  unfold storeBlock
  dsimp only
  bound

@[bound] theorem le_standing_runStore {op v idx ls addr s} (h : x₀ ≤ standing s) : x₀ ≤ standing (runStore op v idx ls addr s) :=
  le_standing_of_floor (h := h) fun x₀ h => by
  unfold runStore; bound

@[bound] theorem le_standing_vecStore {op okFmt idx addr v s} (h : x₀ ≤ standing s) : x₀ ≤ standing (vecStore op okFmt idx addr v s) :=
  le_standing_of_floor (h := h) fun x₀ h => by
  unfold vecStore; bound

@[bound] theorem le_standing_addLane {x v addr acc i} (h : x₀ ≤ standing acc.s) : x₀ ≤ standing (addLane x v addr acc i).s :=
  le_standing_of_floor (h := h) fun x₀ h => by
  unfold addLane
  dsimp only
  split
  · bound
  split <;> bound

@[bound] theorem le_standing_runAdd {op v idx ls addr s} (h : x₀ ≤ standing s) : x₀ ≤ standing (runAdd op v idx ls addr s) :=
  le_standing_of_floor (h := h) fun x₀ h => by
  unfold runAdd; bound

@[bound] theorem le_standing_vecScatterAdd {v s} (h : x₀ ≤ standing s) : x₀ ≤ standing (vecScatterAdd v s) :=
  le_standing_of_floor (h := h) fun x₀ h => by
  unfold vecScatterAdd; bound

end Sys2Proof.Machine
end

section
/-! PROOF. The U stream, the outer update and the finisher. -/
namespace Sys2Proof.Machine
open Sys2Proof

variable {x₀ : ℕ × Prop} {s t : State}

theorem Floor.updRead {a len o} (h : Floor x₀ s) (hr : updRead s a len = (o, t)) : Floor x₀ t := by
  refine Floor.snd ?_ hr
  unfold Machine.updRead
  split
  next r u hread => have := h.memRead hread; bound
  · bound

@[bound] theorem le_standing_updRead {s a len} (h : x₀ ≤ standing s) : x₀ ≤ standing (updRead s a len).2 :=
  le_standing_of_floor (h := h) fun _ h => h.updRead rfl _ rfl

@[bound] theorem le_standing_updWrite {s a bs} (h : x₀ ≤ standing s) : x₀ ≤ standing (updWrite s a bs).2 :=
  le_standing_of_floor (h := h) fun x₀ h => by
  unfold updWrite
  split
  next r hwrite => exact h.memWrite hwrite _ rfl
  · bound

@[bound] theorem le_standing_jput {s a bs} (h : x₀ ≤ standing s) : x₀ ≤ standing (jput s a bs) :=
  le_standing_of_floor (h := h) fun x₀ h => by
  unfold jput
  split
  next u hwrite => have := h.memWrite hwrite; bound
  next u hwrite => have := h.memWrite hwrite; bound
  · bound

@[bound] theorem le_standing_readJournal {s} (h : x₀ ≤ standing s) : x₀ ≤ standing (readJournal s).2 :=
  le_standing_of_floor (h := h) fun x₀ h => by
  unfold readJournal
  split <;> next hread => have := h.updRead hread; bound

@[bound] theorem le_standing_setPhase {s i ph} (h : x₀ ≤ standing s) : x₀ ≤ standing (setPhase s i ph) :=
  le_standing_of_floor (h := h) fun x₀ h => by
  unfold setPhase; bound

@[bound] theorem le_standing_readGrad {s l k} (h : x₀ ≤ standing s) : x₀ ≤ standing (readGrad s l k).2 :=
  le_standing_of_floor (h := h) fun x₀ h => by
  unfold readGrad
  split
  · split <;> next hread => have := h.updRead hread; bound
  · bound

@[bound] theorem le_standing_readPlane {s a l k} (h : x₀ ≤ standing s) : x₀ ≤ standing (readPlane s a l k).2 :=
  le_standing_of_floor (h := h) fun x₀ h => by
  unfold readPlane
  split <;> next hread => have := h.updRead hread; bound

theorem Floor.readPlane {a l k o} (h : Floor x₀ s) (hr : readPlane s a l k = (o, t)) : Floor x₀ t :=
  Floor.snd (le_standing_readPlane (h s rfl)) hr

theorem Floor.readGrad {l k o} (h : Floor x₀ s) (hr : readGrad s l k = (o, t)) : Floor x₀ t :=
  Floor.snd (le_standing_readGrad (h s rfl)) hr

@[bound] theorem le_standing_pass1Chunk {gm i acc k} (h : x₀ ≤ standing acc.2) : x₀ ≤ standing (pass1Chunk gm i acc k).2 :=
  le_standing_of_floor (h := h) fun x₀ h => by
  obtain ⟨bad, s⟩ := acc
  unfold pass1Chunk
  dsimp only
  split
  next hplane => exact h.readPlane hplane _ rfl
  next ws u hplane =>
    have hnoted : Floor x₀ { u with upd := { u.upd with wPairs := SMap.set (0, 0) u.upd.wPairs (chunkKey i k) (ssqChunk (ws.map some)) } } := by
      rintro _ rfl; exact le_standing_with (h.readPlane hplane _ rfl)
    split <;> next hgrad => have := hnoted.readGrad hgrad; bound

@[bound] theorem le_standing_pass1 {d layer s} (h : x₀ ≤ standing s) : x₀ ≤ standing (pass1 d layer s).2 :=
  le_standing_of_floor (h := h) fun x₀ h => by
  unfold pass1; bound

@[bound] theorem le_standing_ratioAppend {s n} (h : x₀ ≤ standing s) : x₀ ≤ standing (ratioAppend s n) :=
  le_standing_of_floor (h := h) fun x₀ h => by
  unfold ratioAppend; bound

@[bound] theorem le_standing_commitStep {s q} (h : x₀ ≤ standing s) : x₀ ≤ standing (commitStep s q) :=
  le_standing_of_floor (h := h) fun x₀ h => by
  unfold commitStep; bound

@[bound] theorem le_standing_tryCommit {s} (h : x₀ ≤ standing s) : x₀ ≤ standing (tryCommit s) :=
  le_standing_of_floor (h := h) fun x₀ h => by
  unfold tryCommit; bound

@[bound] theorem le_standing_readCounts {s} (h : x₀ ≤ standing s) : x₀ ≤ standing (readCounts s).2 :=
  le_standing_of_floor (h := h) fun x₀ h => by
  unfold readCounts
  refine le_standing_foldl_snd (fun x₀ b s l h => ?_) (h s rfl)
  dsimp only
  split <;> next hread => have := h.updRead hread; bound

@[bound] theorem le_standing_beginJournal {p q reps flags s} (h : x₀ ≤ standing s) : x₀ ≤ standing (beginJournal p q reps flags s).2 :=
  le_standing_of_floor (h := h) fun x₀ h => by
  unfold beginJournal
  dsimp only
  bound

@[bound] theorem le_standing_clearVerdict {s att} (h : x₀ ≤ standing s) : x₀ ≤ standing (clearVerdict s att) :=
  le_standing_of_floor (h := h) fun x₀ h => by
  unfold clearVerdict; dsimp only; bound

@[bound] theorem le_standing_storeElems {s a sz es} (h : x₀ ≤ standing s) : x₀ ≤ standing (storeElems s a sz es).2 :=
  le_standing_of_floor (h := h) fun x₀ h => by
  unfold storeElems
  split
  · bound
  · refine le_standing_foldl_snd (fun x₀ b s l h => ?_) (h s rfl)
    split
    bound

@[bound] theorem le_standing_storeWc {s d n purpose l e0 ws} (h : x₀ ≤ standing s) : x₀ ≤ standing (storeWc s d n purpose l e0 ws).2 :=
  le_standing_of_floor (h := h) fun x₀ h => by
  unfold storeWc; bound

@[bound] theorem le_standing_chunkIn {s i k} (h : x₀ ≤ standing s) : x₀ ≤ standing (chunkIn s i k).2 :=
  le_standing_of_floor (h := h) fun x₀ h => by
  unfold chunkIn
  dsimp only
  split
  next hw => exact h.readPlane hw _ rfl
  next ws s₁ hw =>
  have h := h.readPlane hw
  split
  next hs1 => exact h.readPlane hs1 _ rfl
  next s1 s₂ hs1 =>
  have h := h.readPlane hs1
  have h : Floor x₀ (if lRule (ldesc s i) = 0 then readPlane s₂ (lS2 (ldesc s i)) (ldesc s i) k
      else (some (List.replicate (chunkLen (ldesc s i) k) 0), s₂)).2 := by rintro _ rfl; bound
  split
  · bound
  · split <;> next hgrad => have := h.readGrad hgrad; bound

@[bound] theorem le_standing_advanceChunk {s i k} (h : x₀ ≤ standing s) : x₀ ≤ standing (advanceChunk s i k) :=
  le_standing_of_floor (h := h) fun x₀ h => by
  unfold advanceChunk; bound

@[bound] theorem le_standing_finishDesc {s i} (h : x₀ ≤ standing s) : x₀ ≤ standing (finishDesc s i) :=
  le_standing_of_floor (h := h) fun x₀ h => by
  unfold finishDesc; bound

@[bound] theorem le_standing_finishDescs {s} (h : x₀ ≤ standing s) : x₀ ≤ standing (finishDescs s) :=
  le_standing_of_floor (h := h) fun x₀ h => by
  unfold finishDescs; bound

theorem Floor.chunkIn {i k o} (h : Floor x₀ s) (hr : chunkIn s i k = (o, t)) : Floor x₀ t :=
  Floor.snd (le_standing_chunkIn (h s rfl)) hr

@[bound] theorem le_standing_pass2Chunk {q i k s} (h : x₀ ≤ standing s) : x₀ ≤ standing (pass2Chunk q i k s).2 :=
  le_standing_of_floor (h := h) fun x₀ h => by
  unfold pass2Chunk
  split
  next hin => exact h.chunkIn hin _ rfl
  next es u hin =>
    have := h.chunkIn hin
    dsimp only
    bound

@[bound] theorem le_standing_allIn {i ks s} (h : x₀ ≤ standing s) : x₀ ≤ standing (allIn i ks s).2 := by
  induction ks generalizing s with
  | nil => exact h
  | cons k ks ih =>
    unfold allIn
    split
    next hin => exact Floor.snd (le_standing_chunkIn h) hin _ rfl
    next es u hin =>
      have hks := ih (Floor.snd (le_standing_chunkIn h) hin u rfl)
      split <;> next hall => exact Floor.snd hks hall _ rfl

@[bound] theorem le_standing_matrixPhases {q i s} (h : x₀ ≤ standing s) : x₀ ≤ standing (matrixPhases q i s).2 :=
  le_standing_of_floor (h := h) fun x₀ h => by
  unfold matrixPhases
  dsimp only
  split
  · bound
  split <;> next hall => have : Floor x₀ _ := Floor.snd (le_standing_allIn (h s rfl)) hall; bound

@[bound] theorem le_standing_pass2Desc {q d acc i} (h : x₀ ≤ standing acc.2) : x₀ ≤ standing (pass2Desc q d acc i).2 :=
  le_standing_of_floor (h := h) fun x₀ h => by
  obtain ⟨bad, s⟩ := acc
  unfold pass2Desc
  dsimp only at h ⊢
  bound

@[bound] theorem le_standing_pass2 {d layer s} (h : x₀ ≤ standing s) : x₀ ≤ standing (pass2 d layer s).2 :=
  le_standing_of_floor (h := h) fun x₀ h => by
  unfold pass2
  split
  · bound
  · dsimp only; bound

@[bound] theorem le_standing_readWs {s a n} (h : x₀ ≤ standing s) : x₀ ≤ standing (readWs s a n).2 :=
  le_standing_of_floor (h := h) fun x₀ h => by
  unfold readWs
  split <;> next hread => have := h.updRead hread; bound

theorem Floor.readWs {a n o} (h : Floor x₀ s) (hr : readWs s a n = (o, t)) : Floor x₀ t :=
  Floor.snd (le_standing_readWs (h s rfl)) hr

@[bound] theorem le_standing_readPlanes {s o} (h : x₀ ≤ standing s) : x₀ ≤ standing (readPlanes s o).2 :=
  le_standing_of_floor (h := h) fun x₀ h => by
  unfold readPlanes
  dsimp only
  split
  next ha => exact h.readWs ha _ rfl
  next a s₁ ha =>
  have h := h.readWs ha
  split
  next he => exact h.updRead he _ rfl
  next e s₂ he =>
  have h := h.updRead he
  split
  next hu => exact h.readWs hu _ rfl
  next u s₃ hu =>
  have h := h.readWs hu
  split <;> next hth => exact h.readPlane hth _ rfl

theorem Floor.readPlanes {o r} (h : Floor x₀ s) (hr : readPlanes s o = (r, t)) : Floor x₀ t :=
  Floor.snd (le_standing_readPlanes (h s rfl)) hr

@[bound] theorem le_standing_sendTiles {p os at0 acc} (h : x₀ ≤ standing acc.2) : x₀ ≤ standing (sendTiles p os at0 acc).2 := by
  induction os generalizing at0 acc with
  | nil => exact h
  | cons o os ih =>
    obtain ⟨bad, s⟩ := acc
    have hs : Floor x₀ s := by rintro _ rfl; exact h
    unfold sendTiles
    dsimp only
    split
    · split
      next hread => have := hs.updRead hread; bound
      next q u hread =>
        have := hs.updRead hread
        refine ih ?_
        bound
    · split
      next hread => have := hs.readPlanes hread; bound
      next y u hread =>
        have := hs.readPlanes hread
        refine ih ?_
        bound

@[bound] theorem le_standing_setPhases {s q layer ph} (h : x₀ ≤ standing s) : x₀ ≤ standing (setPhases s q layer ph) :=
  le_standing_of_floor (h := h) fun x₀ h => by
  unfold setPhases; bound

@[bound] theorem le_standing_readBlocks {s y f off own n k} (h : x₀ ≤ standing s) : x₀ ≤ standing (readBlocks s y f off own n k).2 := by
  induction k generalizing s with
  | zero => exact h
  | succ k ih =>
    unfold readBlocks
    split
    next hk => exact Floor.snd (ih h) hk _ rfl
    next bs u hk =>
      have hu : Floor x₀ u := Floor.snd (ih h) hk
      split
      · bound
      · dsimp only
        split <;> next hread => exact hu.updRead hread _ rfl

@[bound] theorem le_standing_storePlanes {s q o purpose os} (h : x₀ ≤ standing s) : x₀ ≤ standing (storePlanes s q o purpose os).2 :=
  le_standing_of_floor (h := h) fun x₀ h => by
  unfold storePlanes; dsimp only; bound

@[bound] theorem le_standing_advanceApply {s o} (h : x₀ ≤ standing s) : x₀ ≤ standing (advanceApply s o) :=
  le_standing_of_floor (h := h) fun x₀ h => by
  unfold advanceApply; bound

theorem Floor.readBlocks {y f off own n k r} (h : Floor x₀ s) (hr : readBlocks s y f off own n k = (r, t)) : Floor x₀ t :=
  Floor.snd (le_standing_readBlocks (h s rfl)) hr

@[bound] theorem le_standing_applyTiles {p q y os off acc} (h : x₀ ≤ standing acc.2) : x₀ ≤ standing (applyTiles p q y os off acc).2 := by
  induction os generalizing off acc with
  | nil => exact h
  | cons o os ih =>
    obtain ⟨bad, s⟩ := acc
    have hs : Floor x₀ s := by rintro _ rfl; exact h
    unfold applyTiles
    dsimp only
    split
    · exact ih h
    split
    · bound
    split
    next hread => have := hs.readPlanes hread; bound
    next v u hread =>
    have hu := hs.readPlanes hread
    split
    next hread => have := hu.readBlocks hread; bound
    next bs u' hread =>
    have := hu.readBlocks hread
    refine le_standing_snd_ite ?_ (ih ?_) <;> bound

@[bound] theorem le_standing_gatherTile {q purpose i acc t} (h : x₀ ≤ standing acc.2) : x₀ ≤ standing (gatherTile q purpose i acc t).2 :=
  le_standing_of_floor (h := h) fun x₀ h => by
  obtain ⟨bad, s⟩ := acc
  unfold gatherTile
  dsimp only at h ⊢
  split <;> next hread => have := h.readPlane hread; bound

@[bound] theorem le_standing_gatherLayer {q layer s} (h : x₀ ≤ standing s) : x₀ ≤ standing (gatherLayer q layer s).2 :=
  le_standing_of_floor (h := h) fun x₀ h => by
  unfold gatherLayer
  split
  · bound
  · dsimp only; bound

@[bound] theorem le_standing_applyLayer {p q x layer s} (h : x₀ ≤ standing s) : x₀ ≤ standing (applyLayer p q x layer s).2 :=
  le_standing_of_floor (h := h) fun x₀ h => by
  unfold applyLayer
  dsimp only; bound

@[bound] theorem le_standing_exchangeDone {q layer s} (h : x₀ ≤ standing s) : x₀ ≤ standing (exchangeDone q layer s).2 :=
  le_standing_of_floor (h := h) fun x₀ h => by
  unfold exchangeDone
  split <;> bound

@[bound] theorem le_standing_exchangeStart {q layer src dst s} (h : x₀ ≤ standing s) : x₀ ≤ standing (exchangeStart q layer src dst s).2 :=
  le_standing_of_floor (h := h) fun x₀ h => by
  unfold exchangeStart
  split
  · bound
  · dsimp only; bound

@[bound] theorem le_standing_finChunk {q i k s} (h : x₀ ≤ standing s) : x₀ ≤ standing (finChunk q i k s) :=
  le_standing_of_floor (h := h) fun x₀ h => by
  unfold finChunk; dsimp only; bound

@[bound] theorem le_standing_finCompute {s} (h : x₀ ≤ standing s) : x₀ ≤ standing (finCompute s) :=
  le_standing_of_floor (h := h) fun x₀ h => by
  unfold finCompute; bound

@[bound] theorem le_standing_takeJournal {s} (h : x₀ ≤ standing s) : x₀ ≤ standing (takeJournal s).2 :=
  le_standing_of_floor (h := h) fun x₀ h => by
  unfold takeJournal
  dsimp only
  bound

@[bound] theorem le_standing_finishFault {s q} (h : x₀ ≤ standing s) : x₀ ≤ standing (finishFault s q) :=
  le_standing_of_floor (h := h) fun x₀ h => by
  unfold finishFault; dsimp only; bound

@[bound] theorem le_standing_finished {s q} (h : x₀ ≤ standing s) : x₀ ≤ standing (finished s q) :=
  le_standing_of_floor (h := h) fun x₀ h => by
  unfold finished; bound

@[bound] theorem le_standing_settleFin {q s} (h : x₀ ≤ standing s) : x₀ ≤ standing (settleFin q s) :=
  le_standing_of_floor (h := h) fun x₀ h => by
  unfold settleFin; bound

@[bound] theorem le_standing_putInner {s l k bs} (h : x₀ ≤ standing s) : x₀ ≤ standing (putInner s l k bs).2 :=
  le_standing_of_floor (h := h) fun x₀ h => by
  unfold putInner
  dsimp only
  bound

@[bound] theorem le_standing_putOuter {s l t j cnt bs} (h : x₀ ≤ standing s) : x₀ ≤ standing (putOuter s l t j cnt bs).2 :=
  le_standing_of_floor (h := h) fun x₀ h => by
  unfold putOuter; dsimp only; bound

@[bound] theorem le_standing_closeTiles {s i} (h : x₀ ≤ standing s) : x₀ ≤ standing (closeTiles s i) :=
  le_standing_of_floor (h := h) fun x₀ h => by
  unfold closeTiles; bound

@[bound] theorem le_standing_tileFetched {s i t} (h : x₀ ≤ standing s) : x₀ ≤ standing (tileFetched s i t) :=
  le_standing_of_floor (h := h) fun x₀ h => by
  unfold tileFetched; bound

@[bound] theorem le_standing_ownFetched {s i t} (h : x₀ ≤ standing s) : x₀ ≤ standing (ownFetched s i t) :=
  le_standing_of_floor (h := h) fun x₀ h => by
  unfold ownFetched; bound

@[bound] theorem le_standing_takeFetch {s i chunk data} (h : x₀ ≤ standing s) : x₀ ≤ standing (takeFetch s i chunk data) :=
  le_standing_of_floor (h := h) fun x₀ h => by
  unfold takeFetch
  dsimp only
  split <;> bound

end Sys2Proof.Machine
end

section
/-! PROOF. Collectives and the fabric port. -/
namespace Sys2Proof.Machine
open Sys2Proof

variable {x₀ : ℕ × Prop} {s t : State}

@[bound] theorem le_standing_readBlocksMx {base f k b s} (h : x₀ ≤ standing s) : x₀ ≤ standing (readBlocksMx base f k b s).2 := by
  induction k generalizing b s with
  | zero => exact h
  | succ k ih =>
    have hs : Floor x₀ s := by rintro _ rfl; exact h
    unfold readBlocksMx
    split
    next hread => exact hs.updRead hread _ rfl
    next e u hread =>
    have hu := hs.updRead hread
    split
    next hread => exact hu.updRead hread _ rfl
    next y u' hread =>
    have hrest := ih (b := b + 1) (hu.updRead hread u' rfl)
    split <;> next hread => exact Floor.snd hrest hread _ rfl

@[bound] theorem le_standing_readFmt {s base f e n} (h : x₀ ≤ standing s) : x₀ ≤ standing (readFmt s base f e n).2 :=
  le_standing_of_floor (h := h) fun x₀ h => by
  unfold readFmt
  split
  · split
    next hread => exact Floor.snd (le_standing_readBlocksMx (h s rfl)) hread _ rfl
    · bound
  · split <;> next hread => exact h.updRead hread _ rfl

@[bound] theorem le_standing_writeBlockMx {base f acc b ws} (h : x₀ ≤ standing acc.2) : x₀ ≤ standing (writeBlockMx base f acc b ws).2 :=
  le_standing_of_floor (h := h) fun x₀ h => by
  unfold writeBlockMx; dsimp only; bound

@[bound] theorem le_standing_writeFmt {s base f e ws} (h : x₀ ≤ standing s) : x₀ ≤ standing (writeFmt s base f e ws).2 :=
  le_standing_of_floor (h := h) fun x₀ h => by
  unfold writeFmt; bound

@[bound] theorem le_standing_indeterminate {s att} (h : x₀ ≤ standing s) : x₀ ≤ standing (indeterminate s att) :=
  le_standing_of_floor (h := h) fun x₀ h => by
  unfold indeterminate; bound

@[bound] theorem le_standing_guardVerdict {s att rec4} (h : x₀ ≤ standing s) : x₀ ≤ standing (guardVerdict s att rec4) :=
  le_standing_of_floor (h := h) fun x₀ h => by
  unfold guardVerdict; bound

@[bound] theorem le_standing_failColl {s k round cause peer port} (h : x₀ ≤ standing s) : x₀ ≤ standing (failColl s k round cause peer port) :=
  le_standing_of_floor (h := h) fun x₀ h => by
  unfold failColl; bound

theorem Floor.readFmt {base f e n o} (h : Floor x₀ s) (hr : readFmt s base f e n = (o, t)) : Floor x₀ t :=
  Floor.snd (le_standing_readFmt (h s rfl)) hr

@[bound] theorem le_standing_sendData {s k r} (h : x₀ ≤ standing s) : x₀ ≤ standing (sendData s k r).2 :=
  le_standing_of_floor (h := h) fun x₀ h => by
  unfold sendData
  split
  · bound
  · split <;> next hread => exact h.readFmt hread _ rfl

@[bound] theorem le_standing_localOperand {s k r redop start n} (h : x₀ ≤ standing s) : x₀ ≤ standing (localOperand s k r redop start n).2 :=
  le_standing_of_floor (h := h) fun x₀ h => by
  unfold localOperand
  split
  · bound
  split
  · bound
  · split <;> next hread => exact h.readFmt hread _ rfl

@[bound] theorem le_standing_writeResult {s k r start ws} (h : x₀ ≤ standing s) : x₀ ≤ standing (writeResult s k r start ws).2 :=
  le_standing_of_floor (h := h) fun x₀ h => by
  unfold writeResult
  bound

@[bound] theorem le_standing_workAcc {k r s a} (h : x₀ ≤ standing s) : x₀ ≤ standing (workAcc k r s a).2 :=
  le_standing_of_floor (h := h) fun x₀ h => by
  unfold workAcc
  dsimp only
  split
  · bound
  next e he =>
  have hfirst : Floor x₀ (if a.next = 0 ∧ a.vals.isNone then localOperand s k r.r e.2.1 a.start e.2.2.length else (some a.vals, s)).2 := by
    rintro _ rfl; bound
  split
  next hop => exact Floor.snd (hfirst _ rfl) hop _ rfl
  next v u hop =>
    have hu : Floor x₀ u := Floor.snd (hfirst _ rfl) hop
    bound

@[bound] theorem le_standing_sendPart {k r s} (h : x₀ ≤ standing s) : x₀ ≤ standing (sendPart k r s).2 :=
  le_standing_of_floor (h := h) fun x₀ h => by
  unfold sendPart
  split
  next m e hm he =>
    extract_lets u
    have hu : Floor x₀ u := by rintro _ rfl; bound
    split <;> next hsend => have : Floor x₀ _ := Floor.snd (le_standing_sendData (hu u rfl)) hsend; bound
  · bound

@[bound] theorem le_standing_workRound {d i n s} (h : x₀ ≤ standing s) : x₀ ≤ standing (workRound d i n s) :=
  le_standing_of_floor (h := h) fun x₀ h => by
  unfold workRound
  split
  · bound
  next k hk =>
  split
  · bound
  next r hr =>
  refine le_standing_ite (h s rfl) ?_
  have hsent : Floor x₀ (if r.granted && !r.sent && depDone k r then sendPart k r s else (false, s)).2 := by rintro _ rfl; bound
  split
  next bad u hp =>
  have hu : Floor x₀ u := Floor.snd (hsent _ rfl) hp
  refine le_standing_ite (le_standing_failColl (hu u rfl)) ?_
  extract_lets ready
  have hworked : Floor x₀ ((r.acc.filter ready).foldl (fun acc a => if acc.1 then acc else workAcc k r acc.2 a) (false, u)).2 := by rintro _ rfl; bound
  split
  next bad' v hw =>
  have hv : Floor x₀ v := Floor.snd (hworked _ rfl) hw
  refine le_standing_ite (le_standing_failColl (hv v rfl)) ?_
  split
  · bound
  split
  · bound
  · dsimp only; bound

@[bound] theorem le_standing_progress {d i s} (h : x₀ ≤ standing s) : x₀ ≤ standing (progress d i s) :=
  le_standing_of_floor (h := h) fun x₀ h => by
  unfold progress; bound

@[bound] theorem le_standing_stashAgreed {s k} (h : x₀ ≤ standing s) : x₀ ≤ standing (stashAgreed s k) :=
  le_standing_of_floor (h := h) fun x₀ h => by
  unfold stashAgreed
  split
  · bound
  split <;> next hread => have := h.readWs hread; bound

@[bound] theorem le_standing_nsSend {s w} (h : x₀ ≤ standing s) : x₀ ≤ standing (nsSend s w).2 :=
  le_standing_of_floor (h := h) fun x₀ h => by
  unfold nsSend
  dsimp only
  bound

@[bound] theorem le_standing_prepare {s x w rs} (h : x₀ ≤ standing s) : x₀ ≤ standing (prepare s x w rs).2 :=
  le_standing_of_floor (h := h) fun x₀ h => by
  unfold prepare
  bound

@[bound] theorem le_standing_launch {k s} (h : x₀ ≤ standing s) : x₀ ≤ standing (launch k s) :=
  le_standing_of_floor (h := h) fun x₀ h => by
  unfold launch; bound

@[bound] theorem le_standing_startShadow {j s} (h : x₀ ≤ standing s) : x₀ ≤ standing (startShadow j s) :=
  le_standing_of_floor (h := h) fun x₀ h => by
  unfold startShadow; bound

@[bound] theorem le_standing_shadowAt {att s} (h : x₀ ≤ standing s) : x₀ ≤ standing (shadowAt att s) :=
  le_standing_of_floor (h := h) fun x₀ h => by
  unfold shadowAt; bound

@[bound] theorem le_standing_shadowNext {s} (h : x₀ ≤ standing s) : x₀ ≤ standing (shadowNext s) :=
  le_standing_of_floor (h := h) fun x₀ h => by
  unfold shadowNext; bound

@[bound] theorem le_standing_runColl {d c w s} (h : x₀ ≤ standing s) : x₀ ≤ standing (runColl d c w s) :=
  le_standing_of_floor (h := h) fun x₀ h => by
  unfold runColl
  split
  · bound
  next rs hrs =>
  refine le_standing_ite ?_ (le_standing_ite ?_ ?_)
  · bound
  · bound
  have hprep : Floor x₀ (prepare s (str s d c) w rs).2 := by rintro _ rfl; bound
  split <;> next hp => have : Floor x₀ _ := Floor.snd (hprep _ rfl) hp; bound

@[bound] theorem le_standing_doCollective {op d c s} (h : x₀ ≤ standing s) : x₀ ≤ standing (doCollective op d c s) :=
  le_standing_of_floor (h := h) fun x₀ h => by
  unfold doCollective; bound

@[bound] theorem le_standing_collResult {s k} (h : x₀ ≤ standing s) : x₀ ≤ standing (collResult s k).2 :=
  le_standing_of_floor (h := h) fun x₀ h => by
  unfold collResult
  refine le_standing_snd_ite ?_ (le_standing_snd_ite ?_ (le_standing_snd_ite ?_ ?_))
  · bound
  · split <;> next hread => have := h.readWs hread; bound
  · bound
  split
  · split <;> next hread => have := h.readWs hread; bound
  · bound

@[bound] theorem le_standing_doCollectiveDone {d i s} (h : x₀ ≤ standing s) : x₀ ≤ standing (doCollectiveDone d i s) :=
  le_standing_of_floor (h := h) fun x₀ h => by
  unfold doCollectiveDone
  split
  · bound
  next k hk =>
  refine le_standing_ite ?_ (le_standing_ite ?_ ?_)
  · bound
  · bound
  extract_lets timed _ ended counted q
  have hended : Floor x₀ (collResult counted k).2 := by rintro _ rfl; bound
  split
  next bad u hcoll =>
  have hu : Floor x₀ u := Floor.snd (hended _ rfl) hcoll
  extract_lets failed settled
  have hsettled : Floor x₀ settled := by rintro _ rfl; unfold settled; bound
  clear_value settled
  bound

@[bound] theorem le_standing_doCollTimeout {d i s} (h : x₀ ≤ standing s) : x₀ ≤ standing (doCollTimeout d i s) :=
  le_standing_of_floor (h := h) fun x₀ h => by
  unfold doCollTimeout; bound

@[bound] theorem le_standing_progressAll {s} (h : x₀ ≤ standing s) : x₀ ≤ standing (progressAll s) :=
  le_standing_of_floor (h := h) fun x₀ h => by
  unfold progressAll; bound

@[bound] theorem le_standing_takeGrant {p s} (h : x₀ ≤ standing s) : x₀ ≤ standing (takeGrant p s) :=
  le_standing_of_floor (h := h) fun x₀ h => by
  unfold takeGrant; bound

@[bound] theorem le_standing_takeData {p s} (h : x₀ ≤ standing s) : x₀ ≤ standing (takeData p s) :=
  le_standing_of_floor (h := h) fun x₀ h => by
  unfold takeData; bound

@[bound] theorem le_standing_finStart {q d w rs s} (h : x₀ ≤ standing s) : x₀ ≤ standing (finStart q d w rs s) :=
  le_standing_of_floor (h := h) fun x₀ h => by
  unfold finStart; bound

@[bound] theorem le_standing_finExchange {q layer s} (h : x₀ ≤ standing s) : x₀ ≤ standing (finExchange q layer s) :=
  le_standing_of_floor (h := h) fun x₀ h => by
  unfold finExchange
  split
  · bound
  next d w rs hc =>
  have hstart : Floor x₀ (exchangeStart q layer (cSrc w) (cDst w) s).2 := by rintro _ rfl; bound
  split
  next u hgo =>
    have : Floor x₀ u := Floor.snd (hstart _ rfl) hgo
    bound
  next u hno hgo => exact Floor.snd (hstart _ rfl) hgo _ rfl

@[bound] theorem le_standing_finGather {p q layer s} (h : x₀ ≤ standing s) : x₀ ≤ standing (finGather p q layer s) :=
  le_standing_of_floor (h := h) fun x₀ h => by
  unfold finGather; bound

@[bound] theorem le_standing_finLayer {q layer s} (h : x₀ ≤ standing s) : x₀ ≤ standing (finLayer q layer s) :=
  le_standing_of_floor (h := h) fun x₀ h => by
  unfold finLayer; bound

@[bound] theorem le_standing_finOuter {q s} (h : x₀ ≤ standing s) : x₀ ≤ standing (finOuter q s) :=
  le_standing_of_floor (h := h) fun x₀ h => by
  unfold finOuter; bound

@[bound] theorem le_standing_doFinisherComplete {s} (h : x₀ ≤ standing s) : x₀ ≤ standing (doFinisherComplete s) :=
  le_standing_of_floor (h := h) fun x₀ h => by
  unfold doFinisherComplete
  split
  · bound
  · dsimp only; bound

@[bound] theorem le_standing_doFinisherFetchDone {desc chunk srcStep data s} (h : x₀ ≤ standing s) :
    x₀ ≤ standing (doFinisherFetchDone desc chunk srcStep data s) :=
  le_standing_of_floor (h := h) fun x₀ h => by
  unfold doFinisherFetchDone
  split
  · bound
  · dsimp only; bound

@[bound] theorem le_standing_doShadowUpdate {stepNum entry s} (h : x₀ ≤ standing s) : x₀ ≤ standing (doShadowUpdate stepNum entry s) :=
  le_standing_of_floor (h := h) fun x₀ h => by
  unfold doShadowUpdate
  split
  · bound
  split
  · bound
  · extract_lets
    dsimp only
    bound

@[bound] theorem le_standing_atEnd {p ch} {run : State → State} (hrun : ∀ x₀ s, Floor x₀ s → x₀ ≤ standing (run s)) (h : x₀ ≤ standing s) :
    x₀ ≤ standing (atEnd p ch run s) :=
  le_standing_of_floor (h := h) fun x₀ h => by
  unfold atEnd
  refine le_standing_ite ?_ (le_standing_ite ?_ (le_standing_ite ?_ (le_standing_ite ?_ (hrun _ _ h)))) <;> bound

@[bound] theorem le_standing_arrive {t p ch} {run : State → State} (hrun : ∀ x₀ s, Floor x₀ s → x₀ ≤ standing (run s)) (h : x₀ ≤ standing s) :
    x₀ ≤ standing (arrive t p ch run s) :=
  le_standing_of_floor (h := h) fun x₀ h => by
  unfold arrive
  dsimp only
  bound

@[bound] theorem le_standing_performWrite {p ch s} (h : x₀ ≤ standing s) : x₀ ≤ standing (performWrite p ch s) :=
  le_standing_of_floor (h := h) fun x₀ h => by
  unfold performWrite
  extract_lets a ep
  refine le_standing_ite ?_ (le_standing_ite ?_ ?_)
  · bound
  · bound
  split
  · bound
  refine le_standing_ite ?_ (le_standing_ite ?_ ?_)
  · bound
  · split
    next hwrite => have := h.memWrite hwrite; bound
    next hwrite => have := h.memWrite hwrite; bound
    · bound
  · bound

@[bound] theorem le_standing_performRead {p ch s} (h : x₀ ≤ standing s) : x₀ ≤ standing (performRead p ch s) :=
  le_standing_of_floor (h := h) fun x₀ h => by
  unfold performRead
  extract_lets a ep n give
  have hgive : ∀ r, x₀ ≤ standing r.2 → x₀ ≤ standing (give r) := fun r hr => by unfold give; split <;> exact le_standing_answer hr
  refine le_standing_ite ?_ (le_standing_ite ?_ ?_)
  · bound
  · bound
  split
  · bound
  refine le_standing_ite ?_ (le_standing_ite ?_ ?_)
  · bound
  · split
    next hread => exact hgive _ (h.memRead hread _ rfl)
    · bound
  · exact hgive _ (by bound)

@[bound] theorem le_standing_performColl {p s} (h : x₀ ≤ standing s) : x₀ ≤ standing (performColl p s) :=
  le_standing_of_floor (h := h) fun x₀ h => by
  unfold performColl; bound

@[bound] theorem le_standing_perform {s p ch} (h : x₀ ≤ standing s) : x₀ ≤ standing (perform s p ch) :=
  le_standing_of_floor (h := h) fun x₀ h => by
  unfold perform; bound

@[bound] theorem le_standing_drainFlow {n p s} (h : x₀ ≤ standing s) : x₀ ≤ standing (drainFlow n p s) := by
  induction n generalizing s with
  | zero => exact h
  | succ n ih =>
    unfold drainFlow
    split
    · exact h
    split
    · exact h
    split
    · exact h
    · exact ih (le_standing_perform (le_standing_updFlow h))

@[bound] theorem le_standing_inbound {p ch s} (h : x₀ ≤ standing s) : x₀ ≤ standing (inbound p ch s) :=
  le_standing_of_floor (h := h) fun x₀ h => by
  unfold inbound
  extract_lets idle _ expired fresh _ found
  have hexpired : Floor x₀ expired := by rintro _ rfl; bound
  have hfound : ∀ u, found = some u → Floor x₀ u := by
    rintro u hu _ rfl
    unfold found at hu
    split at hu
    · cases hu; bound
    split at hu
    · cases hu
    · cases hu; bound
  clear_value found
  split
  · bound
  next u =>
  have hu := hfound u rfl
  extract_lets noted
  have hnoted : Floor x₀ noted := by rintro _ rfl; bound
  clear_value noted
  bound

@[bound] theorem le_standing_doWritePacket {p ch s} (h : x₀ ≤ standing s) : x₀ ≤ standing (doWritePacket p ch s) :=
  le_standing_of_floor (h := h) fun x₀ h => by
  unfold doWritePacket; bound

@[bound] theorem le_standing_doReadPacket {p ch s} (h : x₀ ≤ standing s) : x₀ ≤ standing (doReadPacket p ch s) :=
  le_standing_of_floor (h := h) fun x₀ h => by
  unfold doReadPacket; bound

@[bound] theorem le_standing_doSignalPacket {p ch s} (h : x₀ ≤ standing s) : x₀ ≤ standing (doSignalPacket p ch s) :=
  le_standing_of_floor (h := h) fun x₀ h => by
  unfold doSignalPacket; bound

@[bound] theorem le_standing_inboundColl {p ch s} (h : x₀ ≤ standing s) : x₀ ≤ standing (inboundColl p ch s) :=
  le_standing_of_floor (h := h) fun x₀ h => by
  unfold inboundColl; bound

@[bound] theorem le_standing_doCollData {p ch s} (h : x₀ ≤ standing s) : x₀ ≤ standing (doCollData p ch s) :=
  le_standing_of_floor (h := h) fun x₀ h => by
  unfold doCollData; bound

@[bound] theorem le_standing_doCollGrant {p ch s} (h : x₀ ≤ standing s) : x₀ ≤ standing (doCollGrant p ch s) :=
  le_standing_of_floor (h := h) fun x₀ h => by
  unfold doCollGrant; bound

@[bound] theorem le_standing_hostDone {s r code data} (h : x₀ ≤ standing s) : x₀ ≤ standing (hostDone s r code data) :=
  le_standing_of_floor (h := h) fun x₀ h => by
  unfold hostDone; dsimp only; bound

@[bound] theorem le_standing_doHostReadCompletion {tag data s} (h : x₀ ≤ standing s) : x₀ ≤ standing (doHostReadCompletion tag data s) :=
  le_standing_of_floor (h := h) fun x₀ h => by
  unfold doHostReadCompletion; bound

@[bound] theorem le_standing_doCompletionTimeout {tag s} (h : x₀ ≤ standing s) : x₀ ≤ standing (doCompletionTimeout tag s) :=
  le_standing_of_floor (h := h) fun x₀ h => by
  unfold doCompletionTimeout; bound

@[bound] theorem le_standing_endSignal {s d c i ref code} (h : x₀ ≤ standing s) : x₀ ≤ standing (endSignal s d c i ref code) :=
  le_standing_of_floor (h := h) fun x₀ h => by
  unfold endSignal; bound

@[bound] theorem le_standing_takeVerdict {s att data} (h : x₀ ≤ standing s) : x₀ ≤ standing (takeVerdict s att data) :=
  le_standing_of_floor (h := h) fun x₀ h => by
  unfold takeVerdict; bound

@[bound] theorem le_standing_endTxn {s u code data} (h : x₀ ≤ standing s) : x₀ ≤ standing (endTxn s u code data) :=
  le_standing_of_floor (h := h) fun x₀ h => by
  unfold endTxn; bound

@[bound] theorem le_standing_settleFlow {n p s} (h : x₀ ≤ standing s) : x₀ ≤ standing (settleFlow n p s) := by
  induction n generalizing s with
  | zero => exact h
  | succ n ih =>
    unfold settleFlow
    split
    · exact h
    split
    · exact h
    · exact ih (le_standing_endTxn (le_standing_with h))

@[bound] theorem le_standing_answerTxn {s o code data} (h : x₀ ≤ standing s) : x₀ ≤ standing (answerTxn s o code data) :=
  le_standing_of_floor (h := h) fun x₀ h => by
  unfold answerTxn; bound

@[bound] theorem le_standing_reread {s o} (h : x₀ ≤ standing s) : x₀ ≤ standing (reread s o).2 :=
  le_standing_of_floor (h := h) fun x₀ h => by
  unfold reread
  split
  · split
    · bound
    split
    · bound
    · split <;> next hsend => exact Floor.snd (le_standing_sendData (h s rfl)) hsend _ rfl
  · bound
  · bound

@[bound] theorem le_standing_failRound {s o d i r cause} (h : x₀ ≤ standing s) : x₀ ≤ standing (failRound s o d i r cause) :=
  le_standing_of_floor (h := h) fun x₀ h => by
  unfold failRound; bound

@[bound] theorem le_standing_resend {s o} (h : x₀ ≤ standing s) : x₀ ≤ standing (resend s o) :=
  le_standing_of_floor (h := h) fun x₀ h => by
  unfold resend
  split
  · split <;> next hread => have : Floor x₀ _ := Floor.snd (le_standing_reread (h s rfl)) hread; bound
  · bound

@[bound] theorem le_standing_doRtoExpire {txn s} (h : x₀ ≤ standing s) : x₀ ≤ standing (doRtoExpire txn s) :=
  le_standing_of_floor (h := h) fun x₀ h => by
  unfold doRtoExpire; bound

@[bound] theorem le_standing_takeReadData {p s} (h : x₀ ≤ standing s) : x₀ ≤ standing (takeReadData p s) :=
  le_standing_of_floor (h := h) fun x₀ h => by
  unfold takeReadData; bound

@[bound] theorem le_standing_takeStatus {p s} (h : x₀ ≤ standing s) : x₀ ≤ standing (takeStatus p s) :=
  le_standing_of_floor (h := h) fun x₀ h => by
  unfold takeStatus; bound

@[bound] theorem le_standing_doReadData {p ch s} (h : x₀ ≤ standing s) : x₀ ≤ standing (doReadData p ch s) :=
  le_standing_of_floor (h := h) fun x₀ h => by
  unfold doReadData; bound

@[bound] theorem le_standing_doStatus {p ch s} (h : x₀ ≤ standing s) : x₀ ≤ standing (doStatus p ch s) :=
  le_standing_of_floor (h := h) fun x₀ h => by
  unfold doStatus; bound

@[bound] theorem le_standing_takeE2eAck {p s} (h : x₀ ≤ standing s) : x₀ ≤ standing (takeE2eAck p s) :=
  le_standing_of_floor (h := h) fun x₀ h => by
  unfold takeE2eAck; bound

@[bound] theorem le_standing_doE2eAck {p ch s} (h : x₀ ≤ standing s) : x₀ ≤ standing (doE2eAck p ch s) :=
  le_standing_of_floor (h := h) fun x₀ h => by
  unfold doE2eAck; bound

@[bound] theorem le_standing_doE2eAckTimer {key s} (h : x₀ ≤ standing s) : x₀ ≤ standing (doE2eAckTimer key s) :=
  le_standing_of_floor (h := h) fun x₀ h => by
  unfold doE2eAckTimer; bound

@[bound] theorem le_standing_doFlowIdleExpire {source key s} (h : x₀ ≤ standing s) : x₀ ≤ standing (doFlowIdleExpire source key s) :=
  le_standing_of_floor (h := h) fun x₀ h => by
  unfold doFlowIdleExpire; bound

@[bound] theorem le_standing_doReliefMove {i s} (h : x₀ ≤ standing s) : x₀ ≤ standing (doReliefMove i s) :=
  le_standing_of_floor (h := h) fun x₀ h => by
  unfold doReliefMove; bound

@[bound] theorem le_standing_doLinkAckTimeout {ch lsn s} (h : x₀ ≤ standing s) : x₀ ≤ standing (doLinkAckTimeout ch lsn s) :=
  le_standing_of_floor (h := h) fun x₀ h => by
  unfold doLinkAckTimeout; bound

@[bound] theorem le_standing_takePoison {p ch s} (h : x₀ ≤ standing s) : x₀ ≤ standing (takePoison p ch s) :=
  le_standing_of_floor (h := h) fun x₀ h => by
  unfold takePoison; dsimp only; bound

@[bound] theorem le_standing_doPoisonPacket {p ch s} (h : x₀ ≤ standing s) : x₀ ≤ standing (doPoisonPacket p ch s) :=
  le_standing_of_floor (h := h) fun x₀ h => by
  unfold doPoisonPacket; bound

@[bound] theorem le_standing_doPoisonRepeat {att s} (h : x₀ ≤ standing s) : x₀ ≤ standing (doPoisonRepeat att s) :=
  le_standing_of_floor (h := h) fun x₀ h => by
  unfold doPoisonRepeat; bound

@[bound] theorem le_standing_takeThermalSlow {p s} (h : x₀ ≤ standing s) : x₀ ≤ standing (takeThermalSlow p s) :=
  le_standing_of_floor (h := h) fun x₀ h => by
  unfold takeThermalSlow
  bound

@[bound] theorem le_standing_doThermalSlowPacket {p ch s} (h : x₀ ≤ standing s) : x₀ ≤ standing (doThermalSlowPacket p ch s) :=
  le_standing_of_floor (h := h) fun x₀ h => by
  unfold doThermalSlowPacket; bound

@[bound] theorem le_standing_doThermalSlowHoldExpire {peer s} (h : x₀ ≤ standing s) : x₀ ≤ standing (doThermalSlowHoldExpire peer s) :=
  le_standing_of_floor (h := h) fun x₀ h => by
  unfold doThermalSlowHoldExpire
  bound

end Sys2Proof.Machine
end

section
/-! PROOF. Temperatures, links, optics, die links and resets. -/
namespace Sys2Proof.Machine
open Sys2Proof

variable {x₀ : ℕ × Prop} {s t : State}

@[bound] theorem le_standing_checkSlow {s} (h : x₀ ≤ standing s) : x₀ ≤ standing (checkSlow s) :=
  le_standing_of_floor (h := h) fun x₀ h => by
  unfold checkSlow
  bound

@[bound] theorem le_standing_enterEmergency {s n} (h : x₀ ≤ standing s) : x₀ ≤ standing (enterEmergency s n) :=
  le_standing_of_floor (h := h) fun x₀ h => by
  unfold enterEmergency; bound

@[bound] theorem le_standing_takeBand {s n b} (h : x₀ ≤ standing s) : x₀ ≤ standing (takeBand s n b) :=
  le_standing_of_floor (h := h) fun x₀ h => by
  unfold takeBand; bound

@[bound] theorem le_standing_doStackTempRead {n temp s} (h : x₀ ≤ standing s) : x₀ ≤ standing (doStackTempRead n temp s) :=
  le_standing_of_floor (h := h) fun x₀ h => by
  unfold doStackTempRead; bound

@[bound] theorem le_standing_doStackSensorTimeout {n s} (h : x₀ ≤ standing s) : x₀ ≤ standing (doStackSensorTimeout n s) :=
  le_standing_of_floor (h := h) fun x₀ h => by
  unfold doStackSensorTimeout; bound

@[bound] theorem le_standing_doThermalSlowRepeat {s} (h : x₀ ≤ standing s) : x₀ ≤ standing (doThermalSlowRepeat s) :=
  le_standing_of_floor (h := h) fun x₀ h => by
  unfold doThermalSlowRepeat
  split <;> bound

@[bound] theorem le_standing_doHelloTimer {ch s} (h : x₀ ≤ standing s) : x₀ ≤ standing (doHelloTimer ch s) :=
  le_standing_of_floor (h := h) fun x₀ h => by
  unfold doHelloTimer; bound

@[bound] theorem le_standing_doHelloSilent {ch s} (h : x₀ ≤ standing s) : x₀ ≤ standing (doHelloSilent ch s) :=
  le_standing_of_floor (h := h) fun x₀ h => by
  unfold doHelloSilent; bound

@[bound] theorem le_standing_doEpochDrainDone {s} (h : x₀ ≤ standing s) : x₀ ≤ standing (doEpochDrainDone s) :=
  le_standing_of_floor (h := h) fun x₀ h => by
  unfold doEpochDrainDone; bound

@[bound] theorem le_standing_doRestPrepare {ch s} (h : x₀ ≤ standing s) : x₀ ≤ standing (doRestPrepare ch s) :=
  le_standing_of_floor (h := h) fun x₀ h => by
  unfold doRestPrepare; bound

@[bound] theorem le_standing_doRestSlot {port s} (h : x₀ ≤ standing s) : x₀ ≤ standing (doRestSlot port s) :=
  le_standing_of_floor (h := h) fun x₀ h => by
  unfold doRestSlot; bound

@[bound] theorem le_standing_doCalSkip {ch s} (h : x₀ ≤ standing s) : x₀ ≤ standing (doCalSkip ch s) :=
  le_standing_of_floor (h := h) fun x₀ h => by
  unfold doCalSkip; bound

@[bound] theorem le_standing_doShutterProbe {port fib s} (h : x₀ ≤ standing s) : x₀ ≤ standing (doShutterProbe port fib s) :=
  le_standing_of_floor (h := h) fun x₀ h => by
  unfold doShutterProbe; bound

@[bound] theorem le_standing_deliver {s ch p} (h : x₀ ≤ standing s) : x₀ ≤ standing (deliver s ch p) :=
  le_standing_of_floor (h := h) fun x₀ h => by
  unfold deliver; bound

@[bound] theorem le_standing_doCodewordReceive {ch hdr symbols bad pkts lcw s} (h : x₀ ≤ standing s) :
    x₀ ≤ standing (doCodewordReceive ch hdr symbols bad pkts lcw s) :=
  le_standing_of_floor (h := h) fun x₀ h => by
  unfold doCodewordReceive; bound

@[bound] theorem le_standing_doLaneRecalDone {g s} (h : x₀ ≤ standing s) : x₀ ≤ standing (doLaneRecalDone g s) :=
  le_standing_of_floor (h := h) fun x₀ h => by
  unfold doLaneRecalDone; bound

theorem clk_clearAll (s : State) : (clearAll s).clk = s.clk := by
  simp only [clearAll]; split <;> rfl

@[bound] theorem le_standing_clearAll (h : x₀ ≤ standing s) : x₀ ≤ standing (clearAll s) :=
  standing_mk_of (clk_clearAll s).ge (fun _ => rfl) h

@[bound] theorem le_standing_coldReset {s src} (h : x₀ ≤ standing s) : x₀ ≤ standing (coldReset s src) :=
  le_standing_of_floor (h := h) fun x₀ h => by
  unfold coldReset; bound

@[bound] theorem le_standing_warmReset {s src keep} (h : x₀ ≤ standing s) : x₀ ≤ standing (warmReset s src keep) :=
  le_standing_of_floor (h := h) fun x₀ h => by
  unfold warmReset
  extract_lets b cleared
  have hb : x₀ ≤ standing b := by bound
  refine le_standing_setCause (le_standing_pass ?_)
  exact standing_mk_of (clk_clearAll b).ge id hb

@[bound] theorem le_standing_modResetEffect {m v s} (h : x₀ ≤ standing s) : x₀ ≤ standing (modResetEffect m v s) :=
  le_standing_of_floor (h := h) fun x₀ h => by
  unfold modResetEffect; bound

@[bound] theorem le_standing_writeModReset {m v s} (h : x₀ ≤ standing s) : x₀ ≤ standing (writeModReset m v s) :=
  le_standing_of_floor (h := h) fun x₀ h => by
  unfold writeModReset; bound

@[bound] theorem le_standing_doModResetWarm {m v s} (h : x₀ ≤ standing s) : x₀ ≤ standing (doModResetWarm m v s) :=
  le_standing_of_floor (h := h) fun x₀ h => by
  unfold doModResetWarm; bound

@[bound] theorem le_standing_doModResetCold {m v s} (h : x₀ ≤ standing s) : x₀ ≤ standing (doModResetCold m v s) :=
  le_standing_of_floor (h := h) fun x₀ h => by
  unfold doModResetCold; bound

@[bound] theorem le_standing_openSwap {s} (h : x₀ ≤ standing s) : x₀ ≤ standing (openSwap s) :=
  le_standing_of_floor (h := h) fun x₀ h => by
  unfold openSwap; bound

@[bound] theorem le_standing_closeSwap {s} (h : x₀ ≤ standing s) : x₀ ≤ standing (closeSwap s) :=
  le_standing_of_floor (h := h) fun x₀ h => by
  unfold closeSwap; bound

@[bound] theorem le_standing_doPowerApplied {s} (h : x₀ ≤ standing s) : x₀ ≤ standing (doPowerApplied s) :=
  le_standing_of_floor (h := h) fun x₀ h => by
  unfold doPowerApplied; bound

@[bound] theorem le_standing_doHotswapClose {s} (h : x₀ ≤ standing s) : x₀ ≤ standing (doHotswapClose s) :=
  le_standing_of_floor (h := h) fun x₀ h => by
  unfold doHotswapClose; bound

@[bound] theorem le_standing_doMatePinRise {pin s} (h : x₀ ≤ standing s) : x₀ ≤ standing (doMatePinRise pin s) :=
  le_standing_of_floor (h := h) fun x₀ h => by
  unfold doMatePinRise; bound

@[bound] theorem le_standing_latchOpen {s} (h : x₀ ≤ standing s) : x₀ ≤ standing (latchOpen s) :=
  le_standing_of_floor (h := h) fun x₀ h => by
  unfold latchOpen; bound

@[bound] theorem le_standing_doHvUndervoltage {s} (h : x₀ ≤ standing s) : x₀ ≤ standing (doHvUndervoltage s) :=
  le_standing_of_floor (h := h) fun x₀ h => by
  unfold doHvUndervoltage; bound

@[bound] theorem le_standing_doHvOvervoltage {s} (h : x₀ ≤ standing s) : x₀ ≤ standing (doHvOvervoltage s) :=
  le_standing_of_floor (h := h) fun x₀ h => by
  unfold doHvOvervoltage; bound

@[bound] theorem le_standing_doHvOvercurrent {s} (h : x₀ ≤ standing s) : x₀ ≤ standing (doHvOvercurrent s) :=
  le_standing_of_floor (h := h) fun x₀ h => by
  unfold doHvOvercurrent; bound

@[bound] theorem le_standing_doHvOvertemp {s} (h : x₀ ≤ standing s) : x₀ ≤ standing (doHvOvertemp s) :=
  le_standing_of_floor (h := h) fun x₀ h => by
  unfold doHvOvertemp; bound

@[bound] theorem le_standing_doShutdown {s} (h : x₀ ≤ standing s) : x₀ ≤ standing (doShutdown s) :=
  le_standing_of_floor (h := h) fun x₀ h => by
  unfold doShutdown; bound

@[bound] theorem le_standing_doThermalTrip {s} (h : x₀ ≤ standing s) : x₀ ≤ standing (doThermalTrip s) :=
  le_standing_of_floor (h := h) fun x₀ h => by
  unfold doThermalTrip; bound

end Sys2Proof.Machine
end

section
/-! PROOF. Clocks, power, the start, images and maquettes. -/
namespace Sys2Proof.Machine
open Sys2Proof

variable {x₀ : ℕ × Prop} {s t : State}

@[bound] theorem le_standing_doXtalTimeout {s} (h : x₀ ≤ standing s) : x₀ ≤ standing (doXtalTimeout s) :=
  le_standing_of_floor (h := h) fun x₀ h => by
  unfold doXtalTimeout; bound

@[bound] theorem le_standing_doXtalFailReset {s} (h : x₀ ≤ standing s) : x₀ ≤ standing (doXtalFailReset s) :=
  le_standing_of_floor (h := h) fun x₀ h => by
  unfold doXtalFailReset; bound

@[bound] theorem le_standing_doMuxForced {dom s} (h : x₀ ≤ standing s) : x₀ ≤ standing (doMuxForced dom s) :=
  le_standing_of_floor (h := h) fun x₀ h => by
  unfold doMuxForced; bound

@[bound] theorem le_standing_doMuxDead {dom s} (h : x₀ ≤ standing s) : x₀ ≤ standing (doMuxDead dom s) :=
  le_standing_of_floor (h := h) fun x₀ h => by
  unfold doMuxDead; bound

@[bound] theorem le_standing_doHeartbeatMiss {s} (h : x₀ ≤ standing s) : x₀ ≤ standing (doHeartbeatMiss s) :=
  le_standing_of_floor (h := h) fun x₀ h => by
  unfold doHeartbeatMiss; bound

@[bound] theorem le_standing_doStretchLimitDown {d s} (h : x₀ ≤ standing s) : x₀ ≤ standing (doStretchLimitDown d s) :=
  le_standing_of_floor (h := h) fun x₀ h => by
  unfold doStretchLimitDown; bound

@[bound] theorem le_standing_doCoolLimitUp {d s} (h : x₀ ≤ standing s) : x₀ ≤ standing (doCoolLimitUp d s) :=
  le_standing_of_floor (h := h) fun x₀ h => by
  unfold doCoolLimitUp; bound

@[bound] theorem le_standing_doCdSensorTimeout {d s} (h : x₀ ≤ standing s) : x₀ ≤ standing (doCdSensorTimeout d s) :=
  le_standing_of_floor (h := h) fun x₀ h => by
  unfold doCdSensorTimeout; bound

@[bound] theorem le_standing_doTbHoldover {s} (h : x₀ ≤ standing s) : x₀ ≤ standing (doTbHoldover s) :=
  le_standing_of_floor (h := h) fun x₀ h => by
  unfold doTbHoldover; bound

@[bound] theorem le_standing_doHvLinkSilent {link s} (h : x₀ ≤ standing s) : x₀ ≤ standing (doHvLinkSilent link s) :=
  le_standing_of_floor (h := h) fun x₀ h => by
  unfold doHvLinkSilent; bound

@[bound] theorem le_standing_doHvLinkLost {s} (h : x₀ ≤ standing s) : x₀ ≤ standing (doHvLinkLost s) :=
  le_standing_of_floor (h := h) fun x₀ h => by
  unfold doHvLinkLost; bound

@[bound] theorem le_standing_doHvLinkStop {s} (h : x₀ ≤ standing s) : x₀ ≤ standing (doHvLinkStop s) :=
  le_standing_of_floor (h := h) fun x₀ h => by
  unfold doHvLinkStop; bound

@[bound] theorem le_standing_doPowerShapeTick {s} (h : x₀ ≤ standing s) : x₀ ≤ standing (doPowerShapeTick s) :=
  le_standing_of_floor (h := h) fun x₀ h => by
  unfold doPowerShapeTick; bound

@[bound] theorem le_standing_doLimitDvfsDown {s} (h : x₀ ≤ standing s) : x₀ ≤ standing (doLimitDvfsDown s) :=
  le_standing_of_floor (h := h) fun x₀ h => by
  unfold doLimitDvfsDown; bound

@[bound] theorem le_standing_doLimitDvfsUp {s} (h : x₀ ≤ standing s) : x₀ ≤ standing (doLimitDvfsUp s) :=
  le_standing_of_floor (h := h) fun x₀ h => by
  unfold doLimitDvfsUp; bound

@[bound] theorem le_standing_doStartMemory {points selfRefresh bad s} (h : x₀ ≤ standing s) :
    x₀ ≤ standing (doStartMemory points selfRefresh bad s) :=
  le_standing_of_floor (h := h) fun x₀ h => by
  unfold doStartMemory
  refine le_standing_ite (h s rfl) ?_
  split
  · bound
  next p hp =>
  extract_lets kept st m noted _ _ stored
  have hnoted : x₀ ≤ standing noted := by bound
  have hstored : Floor x₀ stored := by
    rintro _ rfl
    refine standing_mk_of (s := noted) le_rfl (fun hwf => ?_) hnoted
    unfold stored
    dsimp only
    split
    · exact hwf
    · rfl
  clear_value stored
  refine le_standing_pass (le_standing_setFld (le_standing_foldl (fun _ _ _ h => ?_) (le_standing_forDies (fun _ _ _ h => ?_) (hstored _ rfl))))
  · bound
  · bound

@[bound] theorem le_standing_readMoves {ms s} (h : x₀ ≤ standing s) : x₀ ≤ standing (readMoves ms s).2 := by
  induction ms generalizing s with
  | nil => exact h
  | cons m ms ih => exact ih (le_standing_updRead h)

@[bound] theorem le_standing_keepTiles {s p} (h : x₀ ≤ standing s) : x₀ ≤ standing (keepTiles s p) :=
  le_standing_of_floor (h := h) fun x₀ h => by
  unfold keepTiles; bound

@[bound] theorem le_standing_loadImage {s sec} (h : x₀ ≤ standing s) : x₀ ≤ standing (loadImage s sec) :=
  le_standing_of_floor (h := h) fun x₀ h => by
  unfold loadImage; bound

@[bound] theorem le_standing_doActivationVerifyDone {sec sigOk s} (h : x₀ ≤ standing s) : x₀ ≤ standing (doActivationVerifyDone sec sigOk s) :=
  le_standing_of_floor (h := h) fun x₀ h => by
  unfold doActivationVerifyDone; bound

@[bound] theorem le_standing_putRehomed {s l j cnt a e u} (h : x₀ ≤ standing s) : x₀ ≤ standing (putRehomed s l j cnt a e u) :=
  le_standing_of_floor (h := h) fun x₀ h => by
  unfold putRehomed; bound

@[bound] theorem le_standing_doRehomeTiles {desc tile srcStep data s} (h : x₀ ≤ standing s) :
    x₀ ≤ standing (doRehomeTiles desc tile srcStep data s) :=
  le_standing_of_floor (h := h) fun x₀ h => by
  unfold doRehomeTiles; bound

@[bound] theorem le_standing_copyPiece {dst part s k} (h : x₀ ≤ standing s) : x₀ ≤ standing (copyPiece dst part s k) :=
  le_standing_of_floor (h := h) fun x₀ h => by
  unfold copyPiece
  dsimp only
  split
  · bound
  next hread => have := h.memRead hread; bound

@[bound] theorem le_standing_copyPart {acc part} (h : x₀ ≤ standing acc.2) : x₀ ≤ standing (copyPart acc part).2 :=
  le_standing_of_floor (h := h) fun x₀ h => by
  unfold copyPart; dsimp only; bound

@[bound] theorem le_standing_doMaquetteCopyDone {layer s} (h : x₀ ≤ standing s) : x₀ ≤ standing (doMaquetteCopyDone layer s) :=
  le_standing_of_floor (h := h) fun x₀ h => by
  unfold doMaquetteCopyDone; bound

end Sys2Proof.Machine
end

section
/-! PROOF. Recovery, security, telemetry, the host and the passes. -/
namespace Sys2Proof.Machine
open Sys2Proof

variable {x₀ : ℕ × Prop} {s t : State}

@[bound] theorem le_standing_doVerdictPoll {s} (h : x₀ ≤ standing s) : x₀ ≤ standing (doVerdictPoll s) :=
  le_standing_of_floor (h := h) fun x₀ h => by
  unfold doVerdictPoll; bound

@[bound] theorem le_standing_doResolveTimeout {s} (h : x₀ ≤ standing s) : x₀ ≤ standing (doResolveTimeout s) :=
  le_standing_of_floor (h := h) fun x₀ h => by
  unfold doResolveTimeout; bound

@[bound] theorem le_standing_resetTile {u l acc jt} (h : x₀ ≤ standing acc.2) : x₀ ≤ standing (resetTile u l acc jt).2 :=
  le_standing_of_floor (h := h) fun x₀ h => by
  obtain ⟨bad, s⟩ := acc
  unfold resetTile
  dsimp only at h ⊢
  split <;> bound

@[bound] theorem le_standing_rcvOuterReset {s v} (h : x₀ ≤ standing s) : x₀ ≤ standing (rcvOuterReset s v) :=
  le_standing_of_floor (h := h) fun x₀ h => by
  unfold rcvOuterReset
  split
  · bound
  · dsimp only; bound

@[bound] theorem le_standing_rcvCommand {v s} (h : x₀ ≤ standing s) : x₀ ≤ standing (rcvCommand v s) :=
  le_standing_of_floor (h := h) fun x₀ h => by
  unfold rcvCommand; bound

@[bound] theorem le_standing_rcvEffect {v s} (h : x₀ ≤ standing s) : x₀ ≤ standing (rcvEffect v s) :=
  le_standing_of_floor (h := h) fun x₀ h => by
  unfold rcvEffect; bound

@[bound] theorem le_standing_writeRcv {v s} (h : x₀ ≤ standing s) : x₀ ≤ standing (writeRcv v s) :=
  le_standing_of_floor (h := h) fun x₀ h => by
  unfold writeRcv; bound

@[bound] theorem le_standing_doCopy {v s} (h : x₀ ≤ standing s) : x₀ ≤ standing (doCopy v s) :=
  le_standing_of_floor (h := h) fun x₀ h => by
  unfold doCopy; bound

@[bound] theorem le_standing_doRestore {v s} (h : x₀ ≤ standing s) : x₀ ≤ standing (doRestore v s) :=
  le_standing_of_floor (h := h) fun x₀ h => by
  unfold doRestore; bound

@[bound] theorem le_standing_doOuterReset {v s} (h : x₀ ≤ standing s) : x₀ ≤ standing (doOuterReset v s) :=
  le_standing_of_floor (h := h) fun x₀ h => by
  unfold doOuterReset; bound

@[bound] theorem le_standing_doSelftestFull {v s} (h : x₀ ≤ standing s) : x₀ ≤ standing (doSelftestFull v s) :=
  le_standing_of_floor (h := h) fun x₀ h => by
  unfold doSelftestFull; bound

@[bound] theorem le_standing_doSelftestCd {v s} (h : x₀ ≤ standing s) : x₀ ≤ standing (doSelftestCd v s) :=
  le_standing_of_floor (h := h) fun x₀ h => by
  unfold doSelftestCd; bound

@[bound] theorem le_standing_doAbort {v s} (h : x₀ ≤ standing s) : x₀ ≤ standing (doAbort v s) :=
  le_standing_of_floor (h := h) fun x₀ h => by
  unfold doAbort; bound

@[bound] theorem le_standing_putCopy {s l k data} (h : x₀ ≤ standing s) : x₀ ≤ standing (putCopy s l k data).2 :=
  le_standing_of_floor (h := h) fun x₀ h => by
  unfold putCopy
  dsimp only; bound

@[bound] theorem le_standing_putTile {s l t j cnt data} (h : x₀ ≤ standing s) : x₀ ≤ standing (putTile s l t j cnt data).2 :=
  le_standing_of_floor (h := h) fun x₀ h => by
  unfold putTile; dsimp only; bound

@[bound] theorem le_standing_copyTake {s img i chunk data} (h : x₀ ≤ standing s) : x₀ ≤ standing (copyTake s img i chunk data) :=
  le_standing_of_floor (h := h) fun x₀ h => by
  unfold copyTake; bound

@[bound] theorem le_standing_restoreTake {s n page data} (h : x₀ ≤ standing s) : x₀ ≤ standing (restoreTake s n page data) :=
  le_standing_of_floor (h := h) fun x₀ h => by
  unfold restoreTake; bound

@[bound] theorem le_standing_rcvFetch {desc chunk srcStep data s} (h : x₀ ≤ standing s) : x₀ ≤ standing (rcvFetch desc chunk srcStep data s) :=
  le_standing_of_floor (h := h) fun x₀ h => by
  unfold rcvFetch; bound

@[bound] theorem le_standing_doFetchDone {desc chunk srcStep data s} (h : x₀ ≤ standing s) : x₀ ≤ standing (doFetchDone desc chunk srcStep data s) :=
  le_standing_of_floor (h := h) fun x₀ h => by
  unfold doFetchDone; bound

@[bound] theorem le_standing_copyDone {s} (h : x₀ ≤ standing s) : x₀ ≤ standing (copyDone s) :=
  le_standing_of_floor (h := h) fun x₀ h => by
  unfold copyDone
  split
  · bound
  next sec hsec =>
  extract_lets old
  split
  next bad u hwrite =>
  have hu : Floor x₀ u := Floor.snd (le_standing_updWrite (h s rfl)) hwrite
  clear hwrite
  bound

@[bound] theorem le_standing_fullTested {s ok} (h : x₀ ≤ standing s) : x₀ ≤ standing (fullTested s ok) :=
  le_standing_of_floor (h := h) fun x₀ h => by
  unfold fullTested; bound

@[bound] theorem le_standing_doRcvDone {cause s} (h : x₀ ≤ standing s) : x₀ ≤ standing (doRcvDone cause s) :=
  le_standing_of_floor (h := h) fun x₀ h => by
  unfold doRcvDone; bound

@[bound] theorem le_standing_serve {p cmd body} {run : State → State} (hrun : ∀ x₀ s, Floor x₀ s → x₀ ≤ standing (run s)) (h : x₀ ≤ standing s) :
    x₀ ≤ standing (serve p cmd body run s) :=
  le_standing_of_floor (h := h) fun x₀ h => by
  unfold serve; bound

@[bound] theorem le_standing_doNonceExpire {p s} (h : x₀ ≤ standing s) : x₀ ≤ standing (doNonceExpire p s) :=
  le_standing_of_floor (h := h) fun x₀ h => by
  unfold doNonceExpire; bound

@[bound] theorem le_standing_doLockoutExpire {s} (h : x₀ ≤ standing s) : x₀ ≤ standing (doLockoutExpire s) :=
  le_standing_of_floor (h := h) fun x₀ h => by
  unfold doLockoutExpire; bound

@[bound] theorem le_standing_doReset {p v s} (h : x₀ ≤ standing s) : x₀ ≤ standing (doReset p v s) :=
  le_standing_of_floor (h := h) fun x₀ h => by
  unfold doReset; bound

@[bound] theorem le_standing_doRecover {p v s} (h : x₀ ≤ standing s) : x₀ ≤ standing (doRecover p v s) :=
  le_standing_of_floor (h := h) fun x₀ h => by
  unfold doRecover; bound

@[bound] theorem le_standing_doTelemetryFrame {s} (h : x₀ ≤ standing s) : x₀ ≤ standing (doTelemetryFrame s) :=
  le_standing_of_floor (h := h) fun x₀ h => by
  unfold doTelemetryFrame; bound

@[bound] theorem le_standing_doFlashWearLevel {blk s} (h : x₀ ≤ standing s) : x₀ ≤ standing (doFlashWearLevel blk s) :=
  le_standing_of_floor (h := h) fun x₀ h => by
  unfold doFlashWearLevel; bound

@[bound] theorem le_standing_hostMem {run : State → State} (hrun : ∀ x₀ s, Floor x₀ s → x₀ ≤ standing (run s)) (h : x₀ ≤ standing s) :
    x₀ ≤ standing (hostMem run s) :=
  le_standing_of_floor (h := h) fun x₀ h => by
  unfold hostMem; bound

@[bound] theorem le_standing_byMaster {m} {run : State → State} (hrun : ∀ x₀ s, Floor x₀ s → x₀ ≤ standing (run s)) (h : x₀ ≤ standing s) :
    x₀ ≤ standing (byMaster m run s) :=
  le_standing_of_floor (h := h) fun x₀ h => by
  unfold byMaster; bound

@[bound] theorem le_standing_writeRw {off v s} (h : x₀ ≤ standing s) : x₀ ≤ standing (writeRw off v s) :=
  le_standing_of_floor (h := h) fun x₀ h => by
  unfold writeRw; bound

@[bound] theorem le_standing_writeWo {m off v s} (h : x₀ ≤ standing s) : x₀ ≤ standing (writeWo m off v s) :=
  le_standing_of_floor (h := h) fun x₀ h => by
  unfold writeWo; bound

@[bound] theorem le_standing_applyWrite {m off v s} (h : x₀ ≤ standing s) : x₀ ≤ standing (applyWrite m off v s) :=
  le_standing_of_floor (h := h) fun x₀ h => by
  unfold applyWrite; bound

@[bound] theorem le_standing_writeEffect {m off v s} (h : x₀ ≤ standing s) : x₀ ≤ standing (writeEffect m off v s) :=
  le_standing_of_floor (h := h) fun x₀ h => by
  unfold writeEffect; bound

@[bound] theorem le_standing_regWrite {m off v s} (h : x₀ ≤ standing s) : x₀ ≤ standing (regWrite m off v s) :=
  le_standing_of_floor (h := h) fun x₀ h => by
  unfold regWrite; bound

@[bound] theorem le_standing_doRegisterWrite {m off v s} (h : x₀ ≤ standing s) : x₀ ≤ standing (doRegisterWrite m off v s) :=
  le_standing_of_floor (h := h) fun x₀ h => by
  unfold doRegisterWrite; bound

@[bound] theorem le_standing_doRsClearWrite {m off v s} (h : x₀ ≤ standing s) : x₀ ≤ standing (doRsClearWrite m off v s) :=
  le_standing_of_floor (h := h) fun x₀ h => by
  unfold doRsClearWrite; bound

@[bound] theorem le_standing_doReg64LowWrite {m off v s} (h : x₀ ≤ standing s) : x₀ ≤ standing (doReg64LowWrite m off v s) :=
  le_standing_of_floor (h := h) fun x₀ h => by
  unfold doReg64LowWrite; bound

@[bound] theorem le_standing_doReg64HighWrite {m off v s} (h : x₀ ≤ standing s) : x₀ ≤ standing (doReg64HighWrite m off v s) :=
  le_standing_of_floor (h := h) fun x₀ h => by
  unfold doReg64HighWrite; bound

@[bound] theorem le_standing_doHwSlotArm {n v s} (h : x₀ ≤ standing s) : x₀ ≤ standing (doHwSlotArm n v s) :=
  le_standing_of_floor (h := h) fun x₀ h => by
  unfold doHwSlotArm; bound

@[bound] theorem le_standing_doHwSlotDisarm {n v s} (h : x₀ ≤ standing s) : x₀ ≤ standing (doHwSlotDisarm n v s) :=
  le_standing_of_floor (h := h) fun x₀ h => by
  unfold doHwSlotDisarm; bound

@[bound] theorem le_standing_doSyncHwDisable {v s} (h : x₀ ≤ standing s) : x₀ ≤ standing (doSyncHwDisable v s) :=
  le_standing_of_floor (h := h) fun x₀ h => by
  unfold doSyncHwDisable; bound

@[bound] theorem le_standing_hostEpoch {cmd arg s} (h : x₀ ≤ standing s) : x₀ ≤ standing (hostEpoch cmd arg s) :=
  le_standing_of_floor (h := h) fun x₀ h => by
  unfold hostEpoch; bound

@[bound] theorem le_standing_bar2WriteAt {s off data} (h : x₀ ≤ standing s) : x₀ ≤ standing (bar2WriteAt s off data) :=
  le_standing_of_floor (h := h) fun x₀ h => by
  unfold bar2WriteAt
  split
  · split
    · bound
    split
    next hwrite => have := h.memWrite hwrite; bound
    · bound
  · bound

@[bound] theorem le_standing_doBar2Write {off data ep s} (h : x₀ ≤ standing s) : x₀ ≤ standing (doBar2Write off data ep s) :=
  le_standing_of_floor (h := h) fun x₀ h => by
  unfold doBar2Write; bound

@[bound] theorem le_standing_bar2ReadAt {s off len} (h : x₀ ≤ standing s) : x₀ ≤ standing (bar2ReadAt s off len) :=
  le_standing_of_floor (h := h) fun x₀ h => by
  unfold bar2ReadAt
  split
  · bound
  split
  · bound
  split
  · bound
  next hread => have := h.memRead hread; bound

@[bound] theorem le_standing_doBar2Read {off len s} (h : x₀ ≤ standing s) : x₀ ≤ standing (doBar2Read off len s) :=
  le_standing_of_floor (h := h) fun x₀ h => by
  unfold doBar2Read; bound

@[bound] theorem le_standing_cfgServed {run : State → State} (hrun : ∀ x₀ s, Floor x₀ s → x₀ ≤ standing (run s)) (h : x₀ ≤ standing s) :
    x₀ ≤ standing (cfgServed run s) :=
  le_standing_of_floor (h := h) fun x₀ h => by
  unfold cfgServed; bound

@[bound] theorem le_standing_doMsixUnmask {v s} (h : x₀ ≤ standing s) : x₀ ≤ standing (doMsixUnmask v s) :=
  le_standing_of_floor (h := h) fun x₀ h => by
  unfold doMsixUnmask; bound

@[bound] theorem le_standing_doMsixWindowEnd {v pldm s} (h : x₀ ≤ standing s) : x₀ ≤ standing (doMsixWindowEnd v pldm s) :=
  le_standing_of_floor (h := h) fun x₀ h => by
  unfold doMsixWindowEnd; bound

@[bound] theorem le_standing_passFault {d c w s} (h : x₀ ≤ standing s) : x₀ ≤ standing (passFault d c w s) :=
  le_standing_of_floor (h := h) fun x₀ h => by
  unfold passFault; bound

@[bound] theorem le_standing_runPass1 {d c w s} (h : x₀ ≤ standing s) : x₀ ≤ standing (runPass1 d c w s) :=
  le_standing_of_floor (h := h) fun x₀ h => by
  unfold runPass1; dsimp only; bound

@[bound] theorem le_standing_runShards {d c w s} (h : x₀ ≤ standing s) : x₀ ≤ standing (runShards d c w s) :=
  le_standing_of_floor (h := h) fun x₀ h => by
  unfold runShards; bound

@[bound] theorem le_standing_runPass2 {d c w s} (h : x₀ ≤ standing s) : x₀ ≤ standing (runPass2 d c w s) :=
  le_standing_of_floor (h := h) fun x₀ h => by
  unfold runPass2; dsimp only; bound

@[bound] theorem le_standing_runVector {d c w s} (h : x₀ ≤ standing s) : x₀ ≤ standing (runVector d c w s) :=
  le_standing_of_floor (h := h) fun x₀ h => by
  unfold runVector; bound

@[bound] theorem le_standing_doVector {d c s} (h : x₀ ≤ standing s) : x₀ ≤ standing (doVector d c s) :=
  le_standing_of_floor (h := h) fun x₀ h => by
  unfold doVector; bound

end Sys2Proof.Machine
end

section
/-! PROOF. O60: every step keeps the canonical form of module memory, and time never runs back. -/
namespace Sys2Proof.Machine
open Sys2Proof

variable {x₀ : ℕ × Prop} {s t : State}

theorem standing_exec {i : Instr} (h : exec i s = .next t) : standing s ≤ standing t := by
  refine le_standing_of_floor (fun x₀ hs => ?_) le_rfl
  cases i <;> (obtain rfl := Host.Outcome.next.inj h; bound)

theorem standing_step (h : step s = .next t) : standing s ≤ standing t := by
  unfold step at h
  split at h
  · cases h; exact le_standing_advance le_rfl
  · exact (le_of_frame (State.withPending_frame (by decide) _ _) le_rfl).trans (standing_exec h)

/-- Settles O60: no step lowers the standing of the state. -/
theorem memoryCanonicalAndTimeForward : Obligations.MemoryCanonicalAndTimeForward :=
  ⟨fun _ _ h hwf => (standing_le_iff.1 (standing_step h)).2 hwf, fun _ _ h => (standing_le_iff.1 (standing_step h)).1⟩

end Sys2Proof.Machine
end

section
/-! PROOF. Module memory: the units of its map, bytes stored by key, and errors found (R237 to R239, R243, R250). -/
namespace Sys2Proof.Machine
open Sys2Proof

/-! ### The map is uniform over units of 2 KiB (R237, R239) -/

theorem capOf_units (m : MemState) (n : Stack) : 2048 ∣ capOf m n :=
  Dvd.dvd.mul_left (by rw [chanBytes]; split <;> decide) _

theorem spreadOf_units (m : MemState) : 2048 ∣ spreadOf m := Dvd.dvd.mul_left (by decide) _

theorem localSize_units (m : MemState) (n : Stack) : 2048 ∣ localSize m n :=
  Nat.dvd_sub (Nat.dvd_sub (capOf_units m n) (Dvd.dvd.mul_left (by decide) _)) (spreadOf_units m)

/-- What an address maps to lies as far into its unit as the address itself. -/
theorem mapAddr_unit (m : MemState) (a : Nat) :
    mapAddr m a = (mapAddr m (a / 2048 * 2048)).map fun x => (x.1, x.2 + a % 2048) := by
  by_cases hlow : a < 0x18000000000
  · have hlow' : a / 2048 * 2048 < 0x18000000000 := by omega
    have hn : a / 2048 * 2048 / 2 ^ 36 % 24 = a / 2 ^ 36 % 24 := by omega
    obtain ⟨k, hk⟩ := localSize_units m ⟨a / 2 ^ 36 % 24, Nat.mod_lt _ (by decide)⟩
    have hin : a % 2 ^ 36 < localSize m ⟨a / 2 ^ 36 % 24, Nat.mod_lt _ (by decide)⟩ ↔
        a / 2048 * 2048 % 2 ^ 36 < localSize m ⟨a / 2 ^ 36 % 24, Nat.mod_lt _ (by decide)⟩ := by rw [hk]; omega
    have hoff : a % 2 ^ 36 = a / 2048 * 2048 % 2 ^ 36 + a % 2048 := by omega
    unfold mapAddr
    rw [if_pos hlow, if_pos hlow']
    dsimp only
    simp only [hn, hin]
    split
    · rw [hoff]; rfl
    · rfl
  · have hlow' : ¬ a / 2048 * 2048 < 0x18000000000 := by omega
    obtain ⟨hspread, hbase⟩ : 2048 ∣ spreadOf m ∧ 2048 ∣ spreadBase := ⟨spreadOf_units m, ⟨1073741824, rfl⟩⟩
    unfold mapAddr
    rw [if_neg hlow, if_neg hlow']
    generalize spreadOf m = w at hspread ⊢
    obtain ⟨b, hb⟩ : ∃ b, spreadBase = b := ⟨_, rfl⟩
    rw [hb] at hbase
    simp only [hb]
    have hwindow : (b ≤ a / 2048 * 2048 ∧ a / 2048 * 2048 - b < 24 * w) ↔ (b ≤ a ∧ a - b < 24 * w) := by omega
    simp only [hwindow]
    split
    next hin =>
      have hu : (a / 2048 * 2048 - b) / 2048 = (a - b) / 2048 := by omega
      have hx : (a / 2048 * 2048 - b) % 2048 = 0 := by omega
      have hx' : (a - b) % 2048 = a % 2048 := by omega
      simp only [hu, hx, hx', Nat.add_zero]
      split <;> rfl
    · rfl

theorem mapAddr_dvd {m : MemState} {a o : Nat} {n : Stack} (ha : 2048 ∣ a) (h : mapAddr m a = some (n, o)) : 2048 ∣ o := by
  obtain ⟨b, hb⟩ : ∃ b, spreadBase = b := ⟨_, rfl⟩
  have hbase : 2048 ∣ b := hb ▸ ⟨1073741824, rfl⟩
  unfold mapAddr at h
  dsimp only at h
  simp only [hb] at h
  split_ifs at h
  · cases h; omega
  · cases h
    have hcap : 2048 ∣ capOf m ⟨((a - b) / 2048 + (a - b) / 2048 / 24) % 24, Nat.mod_lt _ (by decide)⟩ - spreadOf m :=
      Nat.dvd_sub (capOf_units m _) (spreadOf_units m)
    omega

/-- Mapping is uniform over a unit. -/
theorem phys_isSome_unit (m : MemState) (a : Nat) : (phys m a).isSome = (phys m (a / 2048 * 2048)).isSome := by
  unfold phys
  rw [mapAddr_unit m a]
  cases h : mapAddr m (a / 2048 * 2048) with
  | none => rfl
  | some x =>
    obtain ⟨k, hk⟩ := mapAddr_dvd ⟨a / 2048, Nat.mul_comm _ _⟩ h
    have hpage : (x.2 + a % 2048) / pageBytes = x.2 / pageBytes := by rw [hk, pageBytes]; omega
    dsimp only [Option.map_some]
    rw [hpage]
    cases remapPage m.st[x.1] (x.2 / pageBytes) <;> rfl

theorem phys_isSome_of_mapped {m : MemState} {a len i : Nat} (h : mappedRange m a len = true) (hi : i < len) : (phys m (a + i)).isSome = true := by
  rw [mappedRange, Bool.and_eq_true, List.all_eq_true] at h
  have hunit := h.2 ((a % 2048 + i) / 2048) (List.mem_range.2 (by omega))
  rwa [phys_isSome_unit, show (a + i) / 2048 * 2048 = a / 2048 * 2048 + (a % 2048 + i) / 2048 * 2048 by omega]

/-! ### Bytes stored by key -/

section
variable {α : Type} {key : α → Option Nat} {val : α → Byte} {f : SMap Byte → α → SMap Byte} {p : Nat}
  (hset : ∀ h x k, key x = some k → f h x = SMap.set 0 h k (val x)) (hskip : ∀ h x, key x = none → f h x = h)
include hset hskip

theorem get_foldl_store_beside {l : List α} (h : SMap Byte) (hl : ∀ x ∈ l, key x ≠ some p) : SMap.get 0 (l.foldl f h) p = SMap.get 0 h p := by
  induction l generalizing h with
  | nil => rfl
  | cons x l ih =>
    rw [List.foldl_cons, ih _ fun y hy => hl y (List.mem_cons_of_mem x hy)]
    cases hx : key x with
    | none => rw [hskip _ _ hx]
    | some k =>
      have hk : p ≠ k := fun e => hl x List.mem_cons_self (e ▸ hx)
      rw [hset _ _ _ hx, SMap.get_set_ne _ _ _ _ _ _ hk]

theorem get_foldl_store {l : List α} {b : Byte} (h : SMap Byte) (hl : ∃ x ∈ l, key x = some p) (hval : ∀ x ∈ l, key x = some p → val x = b) :
    SMap.get 0 (l.foldl f h) p = b := by
  induction l generalizing h with
  | nil => obtain ⟨x, hx, -⟩ := hl; cases hx
  | cons y l ih =>
    rw [List.foldl_cons]
    by_cases htail : ∃ x ∈ l, key x = some p
    · exact ih _ htail fun x hx => hval x (List.mem_cons_of_mem y hx)
    · obtain ⟨x, hx, hkey⟩ := hl
      obtain rfl | hx := List.mem_cons.1 hx
      · rw [get_foldl_store_beside hset hskip _ fun z hz hk => htail ⟨z, hz, hk⟩, hset _ _ _ hkey, SMap.get_set_self, hval x hx hkey]
      · exact absurd ⟨x, hx, hkey⟩ htail

end

theorem get_storeBytes_beside {m : MemState} {a p : Nat} {bs : List Byte} (h : ∀ i < bs.length, phys m (a + i) ≠ some p) :
    SMap.get 0 (storeBytes m a bs).hbm p = SMap.get 0 m.hbm p := by
  refine get_foldl_store_beside (key := fun x => phys m (a + x.2)) (val := Prod.fst) (fun _ _ _ hk => ?_) (fun _ _ hk => ?_) _ fun x hx => ?_
  · dsimp only at hk ⊢; rw [hk]
  · dsimp only at hk ⊢; rw [hk]
  · obtain ⟨hi, -⟩ := List.getElem?_eq_some_iff.1 (List.mem_zipIdx_iff_getElem?.1 hx)
    exact h _ hi

theorem get_storeBytes {m : MemState} {a p i : Nat} {bs : List Byte} (hdist : distinctBytes m a bs.length) (hi : i < bs.length)
    (hp : phys m (a + i) = some p) : SMap.get 0 (storeBytes m a bs).hbm p = bs[i] := by
  refine get_foldl_store (key := fun x => phys m (a + x.2)) (val := Prod.fst) (fun _ _ _ hk => ?_) (fun _ _ hk => ?_) _
    ⟨(bs[i], i), ?_, hp⟩ fun x hx hk => ?_
  · dsimp only at hk ⊢; rw [hk]
  · dsimp only at hk ⊢; rw [hk]
  · exact List.mem_zipIdx_iff_getElem?.2 (List.getElem?_eq_getElem hi)
  · obtain ⟨hj, hx⟩ := List.getElem?_eq_some_iff.1 (List.mem_zipIdx_iff_getElem?.1 hx)
    obtain rfl := hdist _ _ hj hi (hk.trans hp.symm)
    exact hx.symm

/-- A mapped range of distinct bytes takes what is stored there, and no other byte changes. -/
theorem storedAt_storeBytes {m m' : MemState} {a : Nat} {bs : List Byte} (hmapped : mappedRange m a bs.length = true)
    (hdist : distinctBytes m a bs.length) (hphys : ∀ b, phys m' b = phys m b) (hhbm : m'.hbm = m.hbm) : storedAt a bs m (storeBytes m' a bs) := by
  have hstored : ∀ b, phys (storeBytes m' a bs) b = phys m b := fun b =>
    (phys_congr (m := m') rfl rfl rfl (fun _ => ⟨rfl, rfl, rfl⟩) b).trans (hphys b)
  have hdist' : distinctBytes m' a bs.length := by simpa only [distinctBytes, hphys] using hdist
  refine ⟨fun i hi => ?_, fun b hb => ?_⟩
  · obtain ⟨p, hp⟩ := Option.isSome_iff_exists.1 (phys_isSome_of_mapped hmapped hi)
    simp only [byteAt, hstored, hp, get_storeBytes hdist' hi ((hphys _).trans hp)]
  · cases hp : phys m b with
    | none => simp only [byteAt, hstored, hp]
    | some p =>
      have hbeside : ∀ i < bs.length, phys m' (a + i) ≠ some p := fun i hi => by rw [hphys, ← hp]; exact (hb i hi).symm
      simp only [byteAt, hstored, hp, get_storeBytes_beside hbeside, hhbm]

/-! ### Reads and writes of a range without errors -/

section
variable {s : State} {a len : Nat}

theorem holds_of_clean (h : cleanRange s.mem a len) : (gransOf s.mem a len).foldl (fun s g => holdForRepair s g.1) s = s :=
  foldl_eq_self fun g hg => by
    obtain ⟨-, hrepairs, -, -⟩ := h.2.2 g hg
    simp only [holdForRepair, hrepairs, List.find?_nil]

theorem touchGran_of_marks {g b : Nat} (hue : SMap.get false s.mem.ue g = false) (hce : SMap.get false s.mem.ce g = false) : touchGran s g b = s := by
  simp only [touchGran, hue, hce, Bool.false_eq_true, if_false, ite_self]

/-- A read of a range without errors changes nothing, and finds the poison there is. -/
theorem memRead_of_clean (h : cleanRange s.mem a len) :
    memRead s a len = some (⟨memBytes s.mem a len, (gransOf s.mem a len).any fun g => SMap.get false s.mem.poison g.1⟩, s) := by
  have hholds := holds_of_clean h
  obtain ⟨hmapped, hparity, hgrans⟩ := h
  have hca : caParity s (gransOf s.mem a len) = s := if_pos hparity
  have htouch : (gransOf s.mem a len).foldl (fun s g => touchGran s g.1 g.2) s = s := foldl_eq_self fun g hg => by
    obtain ⟨-, -, hue, hce⟩ := hgrans g hg
    exact touchGran_of_marks hue hce
  have hbad : ((gransOf s.mem a len).any fun g => granBad s.mem g.1) = (gransOf s.mem a len).any fun g => SMap.get false s.mem.poison g.1 := by
    rw [Bool.eq_iff_iff, List.any_eq_true, List.any_eq_true]
    refine exists_congr fun g => and_congr_right fun hg => ?_
    obtain ⟨hem, -, hue, -⟩ := hgrans g hg
    rw [granBad, hue, hem, Bool.or_false, Bool.or_false]
  simp only [memRead, hmapped, if_true, hholds, hca, hbad, htouch]

end

/-- `t` is `s` after writes that cover the granules `whole` and only parts of others, none in error: those lose their marks. -/
structure MarksWritten (whole : Nat → Prop) (s t : State) : Prop where
  rest : t = { s with mem := { s.mem with poison := t.mem.poison, ue := t.mem.ue, ce := t.mem.ce } }
  ue : ∀ g, SMap.get false s.mem.ue g = false → SMap.get false t.mem.ue g = false
  ce : ∀ g, SMap.get false s.mem.ce g = false → SMap.get false t.mem.ce g = false
  covered : ∀ g, whole g → SMap.get false t.mem.poison g = false
  beside : ∀ g, ¬ whole g → SMap.get false t.mem.poison g = SMap.get false s.mem.poison g

theorem MarksWritten.refl (s : State) : MarksWritten (fun _ => False) s s :=
  ⟨rfl, fun _ => id, fun _ => id, fun _ => False.elim, fun _ _ => rfl⟩

theorem MarksWritten.trans {V W X : Nat → Prop} {s t u : State} (h : MarksWritten V s t) (h' : MarksWritten W t u) (hX : ∀ g, X g ↔ V g ∨ W g) :
    MarksWritten X s u := by
  refine ⟨?_, fun g hg => h'.ue g (h.ue g hg), fun g hg => h'.ce g (h.ce g hg), fun g hg => ?_, fun g hg => ?_⟩
  · rw [h'.rest, h.rest]
  · by_cases hw : W g
    · exact h'.covered g hw
    · rw [h'.beside g hw, h.covered g (((hX g).1 hg).resolve_right hw)]
  · obtain ⟨hv, hw⟩ := not_or.1 ((hX g).not.1 hg)
    rw [h'.beside g hw, h.beside g hv]

theorem get_set_false {m : SMap Bool} {g k : Nat} (h : SMap.get false m k = false) : SMap.get false (SMap.set false m g false) k = false := by
  by_cases hk : k = g
  · rw [hk, SMap.get_set_self]
  · rw [SMap.get_set_ne _ _ _ _ _ _ hk, h]

theorem marksWritten_writeMark {s : State} {a len g b : Nat} (hue : SMap.get false s.mem.ue g = false) (hce : SMap.get false s.mem.ce g = false) :
    MarksWritten (fun k => k = g ∧ a ≤ b ∧ b + 64 ≤ a + len) s (writeMark s a len g b) := by
  by_cases h : a ≤ b ∧ b + 64 ≤ a + len
  · rw [writeMark, if_pos h]
    exact ⟨rfl, fun k => get_set_false, fun k => get_set_false, fun k hk => by rw [hk.1, SMap.get_set_self],
      fun k hk => SMap.get_set_ne false false _ g k false fun e => hk ⟨e, h⟩⟩
  · rw [writeMark, if_neg h, touchGran_of_marks hue hce]
    exact ⟨rfl, fun _ => id, fun _ => id, fun _ hk => absurd hk.2 h, fun _ _ => rfl⟩

theorem marksWritten_foldl (a len : Nat) (l : List (Nat × Nat)) {s : State}
    (hl : ∀ x ∈ l, SMap.get false s.mem.ue x.1 = false ∧ SMap.get false s.mem.ce x.1 = false) :
    MarksWritten (fun g => ∃ x ∈ l, g = x.1 ∧ a ≤ x.2 ∧ x.2 + 64 ≤ a + len) s (l.foldl (fun s x => writeMark s a len x.1 x.2) s) := by
  induction l generalizing s with
  | nil => exact (MarksWritten.refl s).trans (.refl s) (by simp)
  | cons y l ih =>
    obtain ⟨hue, hce⟩ := hl y List.mem_cons_self
    have hy : MarksWritten _ s (writeMark s a len y.1 y.2) := marksWritten_writeMark hue hce
    refine hy.trans (ih fun x hx => ?_) (by simp)
    obtain ⟨hue, hce⟩ := hl x (List.mem_cons_of_mem y hx)
    exact ⟨hy.ue _ hue, hy.ce _ hce⟩

/-- A write to a range without errors of distinct bytes: the marks first, then the bytes. -/
theorem memWrite_of_clean {s : State} {a : Nat} {bs : List Byte} (h : cleanRange s.mem a bs.length) (hdist : distinctBytes s.mem a bs.length) :
    ∃ u, MarksWritten (fun g => ∃ x ∈ gransOf s.mem a bs.length, g = x.1 ∧ a ≤ x.2 ∧ x.2 + 64 ≤ a + bs.length) s u ∧
      memWrite s a bs = some (false, { u with mem := storeBytes u.mem a bs }) ∧ storedAt a bs s.mem (storeBytes u.mem a bs) := by
  have hholds := holds_of_clean h
  obtain ⟨hmapped, hparity, hgrans⟩ := h
  have hcool : ((gransOf s.mem a bs.length).any fun g => s.mem.st[granStack g.1].emergency) = false := List.any_eq_false.2 fun g hg => by
    rw [(hgrans g hg).1]; decide
  have hmarks := marksWritten_foldl a bs.length (gransOf s.mem a bs.length) (s := s) fun x hx => (hgrans x hx).2.2
  refine ⟨_, hmarks, ?_, ?_⟩
  · unfold memWrite
    dsimp only
    rw [if_pos hmapped, hcool, if_neg Bool.false_ne_true, hholds]
    exact congrArg (fun t => some (false, t)) (if_pos (by rw [storeBytes, hmarks.rest]; exact hparity))
  · refine storedAt_storeBytes hmapped hdist (fun b => ?_) (by rw [hmarks.rest])
    rw [hmarks.rest]
    exact phys_congr rfl rfl rfl (fun _ => ⟨rfl, rfl, rfl⟩) b

/-! ### Errors found (R250, R252, R255) -/

/-- The error in granule `g`, found at module address `a`, has been written back poisoned and counted; its row is still to be seen to. -/
def ueNoted (s : State) (g a : Nat) : State :=
  memEvent (setReg64 (addReg (addReg
    { s with mem := { s.mem with ue := SMap.set false s.mem.ue g false, poison := SMap.set false s.mem.poison g true } }
    (stWin (granStack g).val + 0x18) 1) rUeTotal 1) rMemErrAddr (w64 a)) 2 (granStack g) (rowOf s.mem.st[granStack g] (granOff g))

theorem foundUe_eq (s : State) (g a : Nat) : foundUe s g a = rowNeedsRepair (ueNoted s g a) (granStack g) (granOff g) := rfl

theorem memEvent_mem (s : State) (bit : Nat) (n : Stack) (row : Nat) : (memEvent s bit n row).mem = s.mem :=
  changesOnly.mem (ks := [.out, .regs, .rs, .host]) (memEvent_frame (by decide) s bit n row) (by decide)

theorem reg_memEvent (s : State) (bit : Nat) (n : Stack) (row : Nat) {o : Nat} (h : o ≠ rMemErrInfo) : reg (memEvent s bit n row) o = reg s o := by
  have hregs : (memEvent s bit n row).regs = (setReg s rMemErrInfo (memInfo n row)).regs :=
    changesOnly.regs (ks := [.out, .rs, .host]) (rsEvent_frame (by decide) _ _ _) (by decide)
  rw [reg, hregs, ← reg, reg_setReg_ne _ _ _ _ h]

theorem memEvent_bit (s : State) {bit : Nat} (n : Stack) (row : Nat) (h : bit < 24) : (rsReg (memEvent s bit n row) rMemErr).ev.getLsbD bit = true :=
  rsReg_rsEvent_bit _ _ _ h

theorem ueNoted_mem (s : State) (g a : Nat) :
    (ueNoted s g a).mem = { s.mem with ue := SMap.set false s.mem.ue g false, poison := SMap.set false s.mem.poison g true } := memEvent_mem _ _ _ _

theorem ueNoted_changesOnly (s : State) (g a : Nat) : changesOnly [.mem, .regs, .rs, .host, .out] s (ueNoted s g a) := by
  simp [changesOnly, ueNoted]

theorem ueNoted_ueTotal (s : State) (g a : Nat) : reg (ueNoted s g a) rUeTotal = reg s rUeTotal + 1 := by
  have hstack : ∀ n : Stack, rUeTotal ≠ stWin n.val + 0x18 := fun n => by rw [rUeTotal, stWin]; omega
  rw [ueNoted, reg_memEvent _ _ _ _ (by decide), reg_setReg64_ne _ _ _ _ (by decide) (by decide), addReg, reg_setReg_self, addReg,
    reg_setReg_ne _ _ _ _ (hstack _)]
  rfl

/-- A row in hand needs nothing more. -/
theorem rowNeedsRepair_of_mem {s : State} {n : Stack} {o : Nat} (h : rowOf s.mem.st[n] o ∈ s.mem.st[n].repairs) : rowNeedsRepair s n o = s :=
  if_pos h

/-- A row that was not repaired before, in a bank with a spare row left, is in hand afterwards. -/
theorem rowNeedsRepair_of_spare {s : State} {n : Stack} {o : Nat} (hrep : rowOf s.mem.st[n] o ∉ s.mem.st[n].repaired)
    (hspare : SMap.get 0 s.mem.st[n].usedSpares (rowOf s.mem.st[n] o / 2 ^ 32) +
      (s.mem.st[n].repairs.filter fun r => decide (r / 2 ^ 32 = rowOf s.mem.st[n] o / 2 ^ 32)).length < s.mem.st[n].spareRows) :
    rowOf s.mem.st[n] o ∈ (rowNeedsRepair s n o).mem.st[n].repairs ∧ sameContents s (rowNeedsRepair s n o) ∧
      changesOnly [.mem] s (rowNeedsRepair s n o) := by
  by_cases hin : rowOf s.mem.st[n] o ∈ s.mem.st[n].repairs
  · rw [rowNeedsRepair_of_mem hin]
    exact ⟨hin, ⟨rfl, rfl, rfl, rfl⟩, .refl _ s⟩
  · unfold rowNeedsRepair
    dsimp only
    rw [if_neg hin, if_neg (not_or.2 ⟨hrep, hspare.not_ge⟩), updStack_self]
    exact ⟨List.mem_append_right _ (List.mem_singleton_self _), ⟨rfl, rfl, rfl, rfl⟩, updStack_frame (by decide) _ _ _⟩

end Sys2Proof.Machine
end

section
/-! PROOF. O6: reads and writes of module memory (R243, R249 to R251). -/
namespace Sys2Proof.Machine
open Sys2Proof

/-- R243, R251. A write to a range without errors. -/
theorem memWrite_clean {s : State} {a : Nat} {bs : List Byte} (h : cleanRange s.mem a bs.length) (hdist : distinctBytes s.mem a bs.length) :
    ∃ t, memWrite s a bs = some (false, t) ∧ storedAt a bs s.mem t.mem ∧
      (∀ g ∈ gransOf s.mem a bs.length, a ≤ g.2 → g.2 + 64 ≤ a + bs.length → SMap.get false t.mem.poison g.1 = false) ∧
      (∀ g, (∀ q ∈ gransOf s.mem a bs.length, a ≤ q.2 ∧ q.2 + 64 ≤ a + bs.length → q.1 ≠ g) →
        SMap.get false t.mem.poison g = SMap.get false s.mem.poison g) ∧
      changesOnly [.mem] s t := by
  obtain ⟨u, hmarks, hwrite, hstored⟩ := memWrite_of_clean h hdist
  refine ⟨_, hwrite, hstored, fun g hg hlo hhi => hmarks.covered _ ⟨g, hg, rfl, hlo, hhi⟩, fun g hg => hmarks.beside g ?_, ?_⟩
  · rintro ⟨x, hx, rfl, hwhole⟩
    exact hg x hx hwhole rfl
  · rw [hmarks.rest]
    simp [changesOnly]

/-- R263. A write that a stack in EMERGENCY would take part in stores nothing. -/
theorem memWrite_emergency {s : State} {a : Nat} {bs : List Byte} (hmapped : mappedRange s.mem a bs.length = true)
    (hhot : ∃ g ∈ gransOf s.mem a bs.length, s.mem.st[granStack g.1].emergency = true) : memWrite s a bs = some (true, s) := by
  have hany : ((gransOf s.mem a bs.length).any fun g => s.mem.st[granStack g.1].emergency) = true := List.any_eq_true.2 hhot
  simp only [memWrite, hmapped, hany, if_true]

/-- R250. A read that finds an uncorrectable granule outside EMERGENCY. -/
theorem touchGran_ue {s : State} {g : Nat} (a : Nat) (hcool : s.mem.st[granStack g].emergency = false) (hue : SMap.get false s.mem.ue g = true)
    (hrep : rowOf s.mem.st[granStack g] (granOff g) ∉ s.mem.st[granStack g].repaired)
    (hspare : SMap.get 0 s.mem.st[granStack g].usedSpares (rowOf s.mem.st[granStack g] (granOff g) / 2 ^ 32) +
      (s.mem.st[granStack g].repairs.filter fun r => decide (r / 2 ^ 32 = rowOf s.mem.st[granStack g] (granOff g) / 2 ^ 32)).length <
      s.mem.st[granStack g].spareRows) :
    SMap.get false (touchGran s g a).mem.poison g = true ∧ SMap.get false (touchGran s g a).mem.ue g = false ∧
      reg (touchGran s g a) rUeTotal = reg s rUeTotal + 1 ∧ (rsReg (touchGran s g a) rMemErr).ev.getLsbD 2 = true ∧
      rowOf s.mem.st[granStack g] (granOff g) ∈ (touchGran s g a).mem.st[granStack g].repairs := by
  have hst : (ueNoted s g a).mem.st = s.mem.st := by rw [ueNoted_mem]
  have htouch : touchGran s g a = rowNeedsRepair (ueNoted s g a) (granStack g) (granOff g) := by
    rw [touchGran, hcool, if_neg Bool.false_ne_true, hue, if_pos rfl, foundUe_eq]
  obtain ⟨hhand, ⟨-, hpoison, hgone, -⟩, hframe⟩ := rowNeedsRepair_of_spare (s := ueNoted s g a) (n := granStack g) (o := granOff g)
    (by rwa [hst]) (by rwa [hst])
  rw [hst] at hhand
  rw [htouch, hpoison, hgone, ueNoted_mem, SMap.get_set_self, SMap.get_set_self, reg, hframe.regs (by decide), ← reg, ueNoted_ueTotal,
    rsReg_congr (hframe.rs (by decide))]
  exact ⟨rfl, rfl, rfl, memEvent_bit _ _ _ (by decide), hhand⟩

/-- Settles O6: a range without errors, one in EMERGENCY and one that is not mapped, and the error that a read finds. -/
theorem moduleMemory : Obligations.ModuleMemory :=
  ⟨⟨fun _ _ _ => memWrite_clean, fun _ _ _ => memWrite_emergency, fun s a bs h => by simp only [memWrite, h, Bool.false_eq_true, if_false]⟩,
    fun _ _ _ => memRead_of_clean, fun s a len h => by simp only [memRead, h, Bool.false_eq_true, if_false],
    fun _ _ a hcool hue => ⟨_, rfl, fun hrep hspare => touchGran_ue a hcool hue hrep hspare⟩⟩

end Sys2Proof.Machine
end

section
/-! PROOF. O12: patrol scrub, row repair and the ageing of error rows (R253 to R255). -/
namespace Sys2Proof.Machine
open Sys2Proof

theorem otherStacks_updStack (s : State) (n : Stack) (f : StackState → StackState) : otherStacks n s (updStack s n f) := fun m hm => by
  have hne : n.val ≠ m.val := fun e => hm (Fin.ext e.symm)
  simp only [updStack, Fin.getElem_fin, Vector.getElem_set_ne _ _ hne]

theorem updStack_congr {s : State} {n : Stack} {f f' : StackState → StackState} (h : f s.mem.st[n] = f' s.mem.st[n]) :
    updStack s n f = updStack s n f' := by rw [updStack, updStack, h]

/-- What changes some components at most changes any more at most. -/
theorem changesOnly.mono {ks ls : List Comp} {s t : State} (h : changesOnly ks s t) (hsub : ∀ c ∈ ks, c ∈ ls) : changesOnly ls s t := by
  have herase : ∀ u : State, (u.erase fun c => decide (c ∈ ks)).erase (fun c => decide (c ∈ ls)) = u.erase fun c => decide (c ∈ ls) := fun u => by
    have hkey : ∀ (c : Comp) {α : Type} (r x : α),
        (if decide (c ∈ ls) = true then r else if decide (c ∈ ks) = true then r else x) = if decide (c ∈ ls) = true then r else x :=
      fun c _ r x => by
        by_cases hc : c ∈ ls
        · simp [hc]
        · have hk : c ∉ ks := fun hk => hc (hsub c hk)
          simp [hc, hk]
    simp only [State.erase, hkey]
  rw [changesOnly, ← herase t, ← herase s]
  exact congrArg _ h

/-! ### Row repair (R255) -/

/-- The granules of a row that a table of marks lists. -/
def rowGrans (x : StackState) (n : Stack) (row : Nat) (m : SMap Bool) : List Nat :=
  (m.map (·.1)).filter fun g => decide (granStack g = n) && decide (rowOf x (granOff g) = row)

theorem mem_rowGrans {x : StackState} {n : Stack} {row g : Nat} {m : SMap Bool} :
    g ∈ rowGrans x n row m ↔ (∃ b, (g, b) ∈ m) ∧ granStack g = n ∧ rowOf x (granOff g) = row := by
  simp [rowGrans]

theorem mem_rowGrans_of_get {x : StackState} {n : Stack} {row g : Nat} {m : SMap Bool} (h : SMap.get false m g = true) (hn : granStack g = n)
    (hrow : rowOf x (granOff g) = row) : g ∈ rowGrans x n row m :=
  mem_rowGrans.2 ⟨⟨_, SMap.mem_of_get_ne (d := false) (by rw [h]; decide)⟩, hn, hrow⟩

/-- A stack after the repair of a row. -/
def rowRepaired (row : Nat) (x : StackState) : StackState :=
  { x with repairs := x.repairs.filter (fun q => decide (q ≠ row)), repaired := x.repaired ++ [row],
           ceRows := x.ceRows.filter (fun q => decide (q.row ≠ row)), soft := satInc 16 x.soft,
           usedSpares := SMap.upd 0 x.usedSpares (row / 2 ^ 32) (· + 1) }

/-- `t` is `s` after the uncorrectable errors of the granules `gs` have been written back poisoned, their rows being in hand. -/
structure UesPoisoned (gs : Nat → Prop) (s t : State) : Prop where
  mem : t.mem = { s.mem with ue := t.mem.ue, poison := t.mem.poison }
  found : ∀ g, gs g → SMap.get false t.mem.ue g = false ∧ SMap.get false t.mem.poison g = true
  beside : ∀ g, ¬ gs g → SMap.get false t.mem.ue g = SMap.get false s.mem.ue g ∧ SMap.get false t.mem.poison g = SMap.get false s.mem.poison g
  frame : changesOnly [.mem, .regs, .rs, .host, .out] s t

theorem UesPoisoned.trans {V W X : Nat → Prop} {s t u : State} (h : UesPoisoned V s t) (h' : UesPoisoned W t u) (hX : ∀ g, X g ↔ V g ∨ W g) :
    UesPoisoned X s u := by
  refine ⟨by rw [h'.mem, h.mem], fun g hg => ?_, fun g hg => ?_, h.frame.trans h'.frame⟩
  · by_cases hw : W g
    · exact h'.found g hw
    · rw [(h'.beside g hw).1, (h'.beside g hw).2]
      exact h.found g (((hX g).1 hg).resolve_right hw)
  · obtain ⟨hv, hw⟩ := not_or.1 ((hX g).not.1 hg)
    rw [(h'.beside g hw).1, (h'.beside g hw).2]
    exact h.beside g hv

theorem uesPoisoned_ueNoted (s : State) (g a : Nat) : UesPoisoned (· = g) s (ueNoted s g a) := by
  refine ⟨by rw [ueNoted_mem], ?_, fun k hk => ?_, ueNoted_changesOnly s g a⟩
  · rintro _ rfl
    rw [ueNoted_mem, SMap.get_set_self, SMap.get_set_self]
    exact ⟨rfl, rfl⟩
  · rw [ueNoted_mem, SMap.get_set_ne _ _ _ _ _ _ hk, SMap.get_set_ne _ _ _ _ _ _ hk]
    exact ⟨rfl, rfl⟩

theorem uesPoisoned_foldl {n : Stack} {row : Nat} (l : List Nat) {s : State} (hin : row ∈ s.mem.st[n].repairs)
    (hl : ∀ g ∈ l, granStack g = n ∧ rowOf s.mem.st[n] (granOff g) = row) :
    UesPoisoned (· ∈ l) s (l.foldl (fun s g => foundUe s g (granAddr s.mem g)) s) := by
  induction l generalizing s with
  | nil => exact ⟨rfl, fun _ hg => absurd hg List.not_mem_nil, fun _ _ => ⟨rfl, rfl⟩, .refl _ s⟩
  | cons g l ih =>
    obtain ⟨rfl, hrow⟩ := hl g List.mem_cons_self
    have hst : (ueNoted s g (granAddr s.mem g)).mem.st = s.mem.st := by rw [ueNoted_mem]
    have hg : foundUe s g (granAddr s.mem g) = ueNoted s g (granAddr s.mem g) := by
      rw [foundUe_eq, rowNeedsRepair_of_mem (by rwa [hst, hrow])]
    rw [List.foldl_cons, hg]
    refine (uesPoisoned_ueNoted s g _).trans (ih (by rwa [hst]) fun k hk => ?_) fun _ => List.mem_cons
    rw [hst]
    exact hl k (List.mem_cons_of_mem g hk)

/-- `t` is `s` after the correctable errors of the granules `gs` have been corrected. -/
structure CesCorrected (gs : List Nat) (s t : State) : Prop where
  mem : t.mem = { s.mem with ce := t.mem.ce }
  kept : ∀ g, SMap.get false s.mem.ce g = false → SMap.get false t.mem.ce g = false
  corrected : ∀ g ∈ gs, SMap.get false t.mem.ce g = false
  frame : changesOnly [.mem, .regs] s t

theorem correctGran_mem (s : State) (g : Nat) : (correctGran s g).mem = { s.mem with ce := SMap.set false s.mem.ce g false } := rfl

theorem cesCorrected_foldl (l : List Nat) (s : State) : CesCorrected l s (l.foldl correctGran s) := by
  induction l generalizing s with
  | nil => exact ⟨rfl, fun _ => id, fun _ hg => absurd hg List.not_mem_nil, .refl _ s⟩
  | cons g l ih =>
    have htail := ih (correctGran s g)
    rw [List.foldl_cons]
    refine ⟨?_, fun k hk => htail.kept k (get_set_false hk), fun k hk => ?_,
      changesOnly.trans (correctGran_frame (by decide) s g) htail.frame⟩
    · rw [htail.mem, correctGran_mem]
    · obtain rfl | hk := List.mem_cons.1 hk
      · exact htail.kept k (by rw [correctGran_mem, SMap.get_set_self])
      · exact htail.corrected k hk

/-- The repair of a row in hand: its granules are poisoned or corrected, and the row moves to the repaired ones and into the log. -/
theorem repairRow_of_mem {s : State} {n : Stack} {row : Nat} (h : row ∈ s.mem.st[n].repairs) :
    ∃ u v, UesPoisoned (· ∈ rowGrans s.mem.st[n] n row s.mem.ue) s u ∧ CesCorrected (rowGrans s.mem.st[n] n row s.mem.ce) u v ∧
      repairRow s n row = memEvent { updStack v n (rowRepaired row) with
        flash := { v.flash with repairs := v.flash.repairs ++ [(n.val, row)] } } 3 n row := by
  have hue := uesPoisoned_foldl (rowGrans s.mem.st[n] n row s.mem.ue) h fun g hg => (mem_rowGrans.1 hg).2
  refine ⟨_, _, hue, cesCorrected_foldl _ _, ?_⟩
  have hce : s.mem.ce = ((rowGrans s.mem.st[n] n row s.mem.ue).foldl (fun s g => foundUe s g (granAddr s.mem g)) s).mem.ce := by rw [hue.mem]
  rw [hce]
  rfl

theorem rowRepairDone_spec {s : State} {n : Stack} {row : Nat}
    (h : s.mem.st[n].repairs.find? (fun r => decide (r / 2 ^ 36 = row / 2 ^ 36)) = some row) :
    ∃ t, exec (.rowRepairDone n row) s = .next t ∧ row ∉ t.mem.st[n].repairs ∧ row ∈ t.mem.st[n].repaired ∧
      (∀ r, r ≠ row → (r ∈ t.mem.st[n].repairs ↔ r ∈ s.mem.st[n].repairs)) ∧
      t.flash.repairs = s.flash.repairs ++ [(n.val, row)] ∧ (rsReg t rMemErr).ev.getLsbD 3 = true ∧
      (∀ g, SMap.get false s.mem.ue g = true → granStack g = n → rowOf s.mem.st[n] (granOff g) = row →
        SMap.get false t.mem.ue g = false ∧ SMap.get false t.mem.poison g = true) ∧
      (∀ g, SMap.get false s.mem.ce g = true → granStack g = n → rowOf s.mem.st[n] (granOff g) = row → SMap.get false t.mem.ce g = false) ∧
      (∀ g, granStack g ≠ n → SMap.get false t.mem.ue g = SMap.get false s.mem.ue g ∧
        SMap.get false t.mem.poison g = SMap.get false s.mem.poison g) ∧
      t.mem.hbm = s.mem.hbm ∧ otherStacks n s t ∧ changesOnly [.mem, .flash, .regs, .rs, .host, .out] s t := by
  obtain ⟨u, v, hue, hce, hrepair⟩ := repairRow_of_mem (List.mem_of_find?_eq_some h)
  have hdone : exec (.rowRepairDone n row) s = .next (repairRow s n row) := by
    refine congrArg Host.Outcome.next ?_
    rw [doRowRepairDone, h]
    exact if_neg (not_not.2 rfl)
  have hmem : (repairRow s n row).mem = (updStack v n (rowRepaired row)).mem := by rw [hrepair, memEvent_mem]
  have hst : v.mem.st = s.mem.st := by rw [hce.mem, hue.mem]
  have hstack : (repairRow s n row).mem.st[n] = rowRepaired row s.mem.st[n] := by rw [hmem, updStack_self, hst]
  have hcontents : v.mem.ue = u.mem.ue ∧ v.mem.poison = u.mem.poison ∧ v.mem.hbm = s.mem.hbm := by
    rw [hce.mem, hue.mem]; exact ⟨rfl, rfl, rfl⟩
  obtain ⟨hvue, hvpoison, hvhbm⟩ := hcontents
  have hmarks : (repairRow s n row).mem.ue = u.mem.ue ∧ (repairRow s n row).mem.poison = u.mem.poison := by
    rw [hmem]; exact ⟨hvue, hvpoison⟩
  have hflash : (repairRow s n row).flash.repairs = v.flash.repairs ++ [(n.val, row)] := by
    rw [hrepair, changesOnly.flash (ks := [.out, .regs, .rs, .host]) (memEvent_frame (by decide) _ _ _ _) (by decide)]
  refine ⟨_, hdone, ?_, ?_, fun r hr => ?_, ?_, ?_, fun g hg hn hrow => ?_, fun g hg hn hrow => ?_, fun g hg => ?_, ?_, fun m hm => ?_, ?_⟩
  · rw [hstack]
    simp [rowRepaired]
  · rw [hstack]
    exact List.mem_append_right _ (List.mem_singleton_self row)
  · rw [hstack]
    simp [rowRepaired, hr]
  · rw [hflash, hce.frame.flash (by decide), hue.frame.flash (by decide)]
  · rw [hrepair]
    exact memEvent_bit _ _ _ (by decide)
  · rw [hmarks.1, hmarks.2]
    exact hue.found g (mem_rowGrans_of_get hg hn hrow)
  · rw [hmem]
    exact hce.corrected g (mem_rowGrans_of_get hg hn hrow)
  · rw [hmarks.1, hmarks.2]
    exact hue.beside g fun hin => hg (mem_rowGrans.1 hin).2.1
  · rw [hmem]
    exact hvhbm
  · rw [hmem, otherStacks_updStack v n _ m hm, hst]
  · rw [hrepair]
    have hlogged : changesOnly [.mem, .flash] v { updStack v n (rowRepaired row) with
        flash := { v.flash with repairs := v.flash.repairs ++ [(n.val, row)] } } :=
      changesOnly.trans (t := updStack v n (rowRepaired row)) (updStack_frame (by decide) _ _ _) (State.erase_flash _ _ (by decide))
    exact ((hue.frame.mono (by decide)).trans (hce.frame.mono (by decide))).trans
      ((hlogged.mono (by decide)).trans (memEvent_frame (by decide) _ _ _ _))

/-! ### Patrol scrub (R253) -/

/-- A unit of a stack in service without errors. -/
theorem patrolScrub_clean {s : State} {n : Stack} (hin : s.mem.st[n].inService = true) (hcool : s.mem.st[n].emergency = false)
    (hparity : s.mem.parity = 0) (hidle : ∀ m : Stack, s.mem.st[m].repairs = [])
    (hclean : ∀ i, i < 32 → SMap.get false s.mem.ue ((n.val * 2 ^ 36 + s.mem.st[n].scrubPos) / 64 + i) = false ∧
      SMap.get false s.mem.ce ((n.val * 2 ^ 36 + s.mem.st[n].scrubPos) / 64 + i) = false) :
    doPatrolScrub n s = updStack s n fun x => { x with
      scrubPos := if capOf s.mem n ≤ s.mem.st[n].scrubPos + 2048 then 0 else x.scrubPos + 2048
      scrubPass := x.scrubPass + (if capOf s.mem n ≤ s.mem.st[n].scrubPos + 2048 then 1 else 0) } := by
  have hhold : ∀ g, holdForRepair s g = s := fun g => by simp only [holdForRepair, hidle, List.find?_nil]
  have hca : ∀ gs, caParity s gs = s := fun gs => if_pos hparity
  have htouch : ((List.range 32).map fun i => ((n.val * 2 ^ 36 + s.mem.st[n].scrubPos) / 64 + i,
      granAddr s.mem ((n.val * 2 ^ 36 + s.mem.st[n].scrubPos) / 64 + i))).foldl (fun s x => touchGran s x.1 x.2) s = s :=
    foldl_eq_self fun x hx => by
      obtain ⟨i, hi, rfl⟩ := List.mem_map.1 hx
      obtain ⟨hue, hce⟩ := hclean i (List.mem_range.1 hi)
      exact touchGran_of_marks hue hce
  unfold doPatrolScrub
  dsimp only
  rw [if_neg (not_or.2 ⟨not_not.2 hin, by rw [hcool]; decide⟩), hhold, hca, htouch]
  simp only [b2n, decide_eq_true_eq]

theorem patrolScrub_idle {s : State} {n : Stack} (h : s.mem.st[n].inService = false ∨ s.mem.st[n].emergency = true) :
    exec (.patrolScrub n) s = .next s :=
  congrArg Host.Outcome.next (if_pos (by simpa using h))

/-! ### Correctable errors (R252, R254) -/

/-- A row of the table is dropped one scrub period after its last error. -/
theorem rowCeAge_spec {s : State} {n : Stack} {row e : Nat} {r : CeRow} (h : s.mem.st[n].ceRows.find? (fun r => decide (r.row = row)) = some r)
    (he : r.hits.headD 0 + s.mem.scrubHours * 3600000000000 = e) :
    doRowCeAge n row s = updStack (advanceTo e s) n fun x => { x with ceRows := x.ceRows.filter fun q => decide (q.row ≠ row) } := by
  rw [doRowCeAge, h, ← he]
  rfl

theorem correctGran_ceTotal (s : State) (g : Nat) : reg64 (correctGran s g) rCeTotal = reg64 s rCeTotal + 1 := by
  have hstack : rCeTotal + 4 < stWin (granStack g).val + 0x10 := by rw [rCeTotal, stWin]; omega
  rw [correctGran, reg64_addReg64_self, reg64_addReg64_ne _ _ (.inl hstack)]
  rfl

/-- The first error in a row of a stack without any. -/
theorem touchGran_ce {s : State} {g : Nat} (a : Nat) (hce : SMap.get false s.mem.ce g = true) (hue : SMap.get false s.mem.ue g = false)
    (hcool : s.mem.st[granStack g].emergency = false) (hrows : s.mem.st[granStack g].ceRows = []) (hlimit : 1 < s.mem.rowCeLimit) :
    touchGran s g a = updStack (correctGran s g) (granStack g) fun x =>
      { x with ceRows := [⟨rowOf s.mem.st[granStack g] (granOff g), [s.clk]⟩] } := by
  rw [touchGran, hcool, if_neg Bool.false_ne_true, hue, if_neg Bool.false_ne_true, hce, if_pos rfl]
  unfold foundCe
  extract_lets n row corrected hit
  have hfirst : ∀ now period, hitCeRow [] row now period = [⟨row, [now]⟩] := fun _ _ => rfl
  have hnone : corrected.mem.st[n].ceRows = [] := hrows
  have hhit : hit = updStack corrected n fun x => { x with ceRows := [⟨row, [s.clk]⟩] } := updStack_congr (by rw [hnone, hfirst]; rfl)
  have hfew : ¬ hit.mem.rowCeLimit ≤ 1 := by rw [hhit]; exact hlimit.not_ge
  have hfind : hit.mem.st[n].ceRows.find? (fun r => decide (r.row = row)) = some ⟨row, [s.clk]⟩ := by
    rw [hhit, updStack_self]
    simp
  rw [hfind]
  exact (if_neg hfew).trans hhit

/-- Settles O12: each maintenance command by what it does to its stack. -/
theorem memoryMaintenance : Obligations.MemoryMaintenance := by
  refine ⟨fun n s hin hcool hparity hidle hclean => ?_, fun _ _ => patrolScrub_idle, fun _ _ _ => rowRepairDone_spec, fun n row r s h => ?_,
    fun s g hce hue hcool hrows hlimit => ?_⟩
  · exact ⟨_, congrArg Host.Outcome.next (patrolScrub_clean hin hcool hparity hidle hclean), updStack_self _ _ _, otherStacks_updStack _ _ _,
      ⟨rfl, rfl, rfl, rfl⟩, updStack_frame (by decide) _ _ _⟩
  · obtain ⟨e, he⟩ : ∃ e, r.hits.headD 0 + s.mem.scrubHours * 3600000000000 = e := ⟨_, rfl⟩
    have hpast := advanceTo_changesOnly e s
    have hmem := hpast.mem (by decide)
    rw [he]
    refine ⟨_, congrArg Host.Outcome.next (rowCeAge_spec h he), clk_advanceTo e s, ?_, fun m hm => ?_, ?_,
      (hpast.mono (by decide)).trans (updStack_frame (by decide) _ _ _)⟩
    · rw [updStack_self, hmem]
    · rw [otherStacks_updStack _ _ _ m hm, hmem]
    · rw [sameContents, ← hmem]
      exact ⟨rfl, rfl, rfl, rfl⟩
  · refine ⟨_, touchGran_ce 0 hce hue hcool hrows hlimit, ?_, correctGran_ceTotal s g, ?_, ?_⟩
    · exact SMap.get_set_self false s.mem.ce g false
    · rw [updStack_self]
    · exact changesOnly.trans (t := correctGran s g) (correctGran_frame (by decide) s g) (updStack_frame (by decide) _ _ _)

end Sys2Proof.Machine
end

section
/-! PROOF. What the stages of a start share, and MEMORY, SELFTEST, REPLAY and READY (R416, R422, R429, R437). -/
namespace Sys2Proof.Machine
open Sys2Proof

/-! ### The stage that is due -/

theorem of_due {α : Type} {due : Bool} {x y : α} (h : due = true) : (if (!due) = true then x else y) = y := by rw [h]; rfl

theorem passed_of_start {s t : State} {k : Nat} (hk : k < 10) (hreplay : k ≠ stReplay) (h : t.start = (pass s k).start) : passed t k = true := by
  have hbit : (BitVec.ofNat 10 (2 ^ k)).getLsbD k = true := by rw [BitVec.getLsbD_ofNat, Nat.testBit_two_pow_self, decide_eq_true hk]; rfl
  rw [passed, h, pass, BitVec.getLsbD_or, hbit, Bool.or_true, decide_eq_true hreplay]
  rfl

theorem passed_pass {s : State} {k : Nat} (hk : k < 10) (hreplay : k ≠ stReplay) : passed (pass s k) k = true := passed_of_start hk hreplay rfl

/-- A change for every die is a change of each. -/
theorem die_forDies {g : Die → State → State} {f : Die → DieState → DieState} (hself : ∀ d s, die (g d s) d = f d (die s d))
    (hne : ∀ d e s, e ≠ d → die (g d s) e = die s e) (s : State) (e : Die) : die (forDies g s) e = f e (die s e) := by
  have hround : ∀ (l : List Die), l.Nodup → ∀ s, die (l.foldl (fun s d => g d s) s) e = if e ∈ l then f e (die s e) else die s e := fun l => by
    induction l with
    | nil => exact fun _ _ => rfl
    | cons d l ih =>
      intro hnodup s
      obtain ⟨hd, hl⟩ := List.nodup_cons.1 hnodup
      rw [List.foldl_cons, ih hl]
      by_cases he : e = d
      · subst he
        simp only [hd, hself, List.mem_cons_self, if_true, if_false]
      · simp only [hne d e s he, List.mem_cons, he, false_or]
  exact (hround allDies (List.nodup_finRange 24) s).trans (if_pos (List.mem_finRange e))

theorem die_forDies_updDie (f : Die → DieState → DieState) (s : State) (e : Die) :
    die (forDies (fun d s => updDie s d (f d)) s) e = f e (die s e) :=
  die_forDies (fun d s => die_updDie_self s d (f d)) (fun d e s h => die_updDie_ne s d e (f d) h) s e

theorem startEvent_noted (s : State) {bit : Nat} (h : bit < 24) : startNoted (startEvent s bit) bit := rsReg_rsEvent_bit _ _ _ h

theorem startEvent_changesOnly (s : State) (bit : Nat) : changesOnly [.out, .rs, .host] s (startEvent s bit) := startEvent_frame (by decide) s bit

/-- A start event once recorded stands. -/
theorem startNoted_of_logged {s t : State} {bit : Nat} (h : Logged s t) (hs : startNoted s bit) : startNoted t bit := h.events _ _ hs

/-! ### MEMORY (R234, R416) -/

theorem getLsbD_chanMask (xs : List (Stack × Fin 32)) (n : Stack) (c : Fin 32) : (chanMask xs n).getLsbD c.val = decide ((n, c) ∈ xs) := by
  have hround : ∀ (l : List (Stack × Fin 32)) (m : BitVec 32),
      (l.foldl (fun m x => if x.1 = n then m ||| BitVec.ofNat 32 (2 ^ x.2.val) else m) m).getLsbD c.val = (m.getLsbD c.val || decide ((n, c) ∈ l)) := fun l => by
    induction l with
    | nil => simp
    | cons x l ih =>
      intro m
      have hbit : (BitVec.ofNat 32 (2 ^ x.2.val)).getLsbD c.val = decide (c = x.2) := by
        rw [BitVec.getLsbD_ofNat, decide_eq_true c.isLt, Bool.true_and, Nat.testBit_two_pow]
        exact decide_eq_decide.2 ⟨fun h => Fin.ext h.symm, fun h => congrArg Fin.val h.symm⟩
      obtain ⟨m', c'⟩ := x
      rw [List.foldl_cons, ih]
      by_cases hn : m' = n
      · subst hn
        rw [if_pos rfl, BitVec.getLsbD_or, hbit, Bool.or_assoc]
        simp
      · have hn' : n ≠ m' := fun e => hn e.symm
        simp [hn, hn']
  rw [chanMask, hround]
  simp

theorem trainPoint_isSome (s : State) (pts : List StackTraining) (n : Nat) :
    (trainPoint s pts n).isSome = true ↔ ((pts[n]?).bind (·.point)).isSome = true ∧ (pts[n]?).map (·.id) = some (wantedId s) := by
  rw [trainPoint]
  cases pts[n]? with
  | none => simp
  | some x =>
    by_cases hid : x.id = wantedId s
    · simp [hid, Option.filter]
    · simp [hid, Option.filter]

theorem masked_eq_zero_iff (bad : List (Stack × Fin 32)) (n : Stack) (out : BitVec 32) :
    chanMask bad n &&& ~~~out = 0 ↔ ∀ c : Fin 32, (n, c) ∈ bad → out.getLsbD c.val = true := by
  have hzero : ∀ i, (0 : BitVec 32).getLsbD i = false := fun _ => BitVec.getLsbD_zero
  refine ⟨fun h c hc => ?_, fun h => BitVec.eq_of_getLsbD_eq fun i hi => ?_⟩
  · have hbit := congrArg (·.getLsbD c.val) h
    simpa only [BitVec.getLsbD_and, getLsbD_chanMask, hc, decide_true, Bool.true_and, BitVec.getLsbD_not, c.isLt, Bool.not_eq_false', hzero] using hbit
  · have hmask := getLsbD_chanMask bad n ⟨i, hi⟩
    rw [BitVec.getLsbD_and, BitVec.getLsbD_not, hmask, hzero]
    by_cases hc : (n, (⟨i, hi⟩ : Fin 32)) ∈ bad
    · rw [h _ hc, Bool.not_true, Bool.and_false, Bool.and_false]
    · rw [decide_eq_false hc, Bool.false_and]

/-- HBM contents are kept under the conditions of R416, and where no channel in service fails training. -/
theorem keepsHbm_iff {s : State} {p : PlatformImage} (hplat : s.plat = some p) (pts : List StackTraining) (sr : Bool) (bad : List (Stack × Fin 32)) :
    keepsHbm s pts sr bad = true ↔ s.start.warm = true ∧ s.start.keepable = true ∧ sr = true ∧ s.flash.memDigest = some p.memDigest ∧
      ∀ n : Stack, s.start.wasIn.getLsbD n.val = true → ((pts[n.val]?).bind (·.point)).isSome = true ∧ (pts[n.val]?).map (·.id) = some (wantedId s) ∧
        ∀ c : Fin 32, (n, c) ∈ bad → (wasOut s n).getLsbD c.val = true := by
  have hall : (∀ n ∈ allDies, (!s.start.wasIn.getLsbD n.val || ((trainPoint s pts n.val).isSome && decide (chanMask bad n &&& ~~~wasOut s n = 0))) = true) ↔
      ∀ n : Stack, s.start.wasIn.getLsbD n.val = true → ((pts[n.val]?).bind (·.point)).isSome = true ∧
        (pts[n.val]?).map (·.id) = some (wantedId s) ∧ ∀ c : Fin 32, (n, c) ∈ bad → (wasOut s n).getLsbD c.val = true := by
    refine ⟨fun h n hn => ?_, fun h n _ => ?_⟩
    · have hn' := h n (List.mem_finRange n)
      rw [hn, Bool.not_true, Bool.false_or, Bool.and_eq_true, trainPoint_isSome, decide_eq_true_eq, masked_eq_zero_iff, and_assoc] at hn'
      exact hn'
    · cases hn : s.start.wasIn.getLsbD n.val with
      | false => rfl
      | true =>
        rw [Bool.not_true, Bool.false_or, Bool.and_eq_true, trainPoint_isSome, decide_eq_true_eq, masked_eq_zero_iff, and_assoc]
        exact h n hn
  simp only [keepsHbm, hplat, Bool.and_eq_true, decide_eq_true_eq, List.all_eq_true, hall, and_assoc]

theorem chanOut_startStack (s : State) (pts : List StackTraining) (bad : List (Stack × Fin 32)) (n : Stack) :
    (startStack s pts bad true n).chanOut = wasOut s n := by
  unfold startStack
  dsimp only
  split <;> rfl

theorem inService_startStack {s : State} {pts : List StackTraining} (bad : List (Stack × Fin 32)) (kept : Bool) {n : Stack}
    (h : (trainPoint s pts n.val).isSome = false) : (startStack s pts bad kept n).inService = false := by
  rw [Option.isSome_eq_false_iff, Option.isNone_iff_eq_none] at h
  simp only [startStack, h]

/-- Module memory at the end of MEMORY: contents that are kept, or none. -/
def startMem (s : State) (p : PlatformImage) (pts : List StackTraining) (bad : List (Stack × Fin 32)) (keep : Bool) : MemState :=
  let m : MemState :=
    { variant := s.mem.variant, rowCeLimit := p.rowCeLimit, scrubHours := p.scrubPeriod, bandOffsets := p.bandOffsets,
      st := Vector.ofFn (startStack s pts bad keep), spread := p.spread, reserve := p.reserve }
  if keep then { m with hbm := s.mem.hbm, poison := s.mem.poison, ue := s.mem.ue, ce := s.mem.ce } else m

theorem startMem_stack (s : State) (p : PlatformImage) (pts : List StackTraining) (bad : List (Stack × Fin 32)) (keep : Bool) (n : Stack) :
    (startMem s p pts bad keep).st[n] = startStack s pts bad keep n := by
  cases keep <;> simp [startMem]

/-- What MEMORY leaves: `keep` says whether contents are kept. -/
structure MemoryStarted (s : State) (p : PlatformImage) (pts : List StackTraining) (bad : List (Stack × Fin 32)) (keep : Bool) (t : State) : Prop where
  passed : passed t stMemory = true
  kept : t.start.kept = keep
  mem : t.mem = startMem s p pts bad keep
  lost : s.start.warm = true → keep = false → startNoted t 1
  digest : t.flash.memDigest = some p.memDigest
  stores : ∀ d, (die t d).ts = []

theorem startMemory_spec {s : State} {p : PlatformImage} (pts : List StackTraining) (sr : Bool) (bad : List (Stack × Fin 32))
    (hdue : stageDue s stMemory [stDieLinks] = true) (hplat : s.plat = some p) :
    MemoryStarted s p pts bad (keepsHbm s pts sr bad) (doStartMemory pts sr bad s) := by
  unfold doStartMemory
  rw [of_due hdue]
  split
  next h => rw [hplat] at h; cases h
  next q hq =>
  obtain rfl : p = q := Option.some.inj (hplat.symm.trans hq)
  extract_lets keep st m noted _ _ stored cleared events used
  have hnoted : changesOnly [.out, .rs, .host] s noted := by
    unfold noted
    split
    · exact startEvent_changesOnly s 1
    · exact .refl _ s
  have hstored : stored.mem = startMem s p pts bad keep := by
    unfold stored
    dsimp only
    rw [hnoted.mem (by decide)]
    rfl
  have hcleared : changesOnly [.dies] stored cleared := forDies_frame _ _ fun _ _ => updDie_frame (by decide) _ _ _
  have hevents : changesOnly [.out, .regs, .rs, .host] cleared events := by
    refine State.erase_foldl _ _ _ fun u n => ?_
    split
    · rfl
    · exact stackEvent_frame (by decide) _ _ _
  have hlogged : Logged stored events := by
    refine (logged_of_frame (forDies_frame _ _ fun _ _ => updDie_frame (by decide) _ _ _)).trans (.foldl _ (fun u n => ?_) _ cleared)
    exact .ite _ (.refl u) ((logged_setReg _ (by decide)).trans (logged_rsEvent _ _ _))
  have hstores : ∀ d, (die cleared d).ts = [] := fun d =>
    congrArg DieState.ts (die_forDies_updDie (fun _ x => { x with ts := [], tsUe := [], tsCe := [] }) stored d)
  have hlost : s.start.warm = true → keep = false → startNoted stored 1 := fun hwarm hlost => by
    have hnoted1 : noted = startEvent s 1 := if_pos (by rw [hwarm, hlost]; rfl)
    rw [startNoted, rsReg_congr (show stored.rs = noted.rs from rfl), hnoted1]
    exact startEvent_noted s (by decide)
  obtain ⟨hkept, hdigest⟩ : stored.start.kept = keep ∧ stored.flash.memDigest = some p.memDigest := ⟨rfl, rfl⟩
  clear_value used events cleared stored
  have hshown : changesOnly [.regs, .start] events (pass (setFld events rRetired 31 16 used) stMemory) :=
    changesOnly.trans (t := setFld events rRetired 31 16 used) (setFld_frame (by decide) _ _ _ _ _) (pass_frame (by decide) _ _)
  refine ⟨passed_pass (by decide) (by decide), ?_, ?_, fun hwarm hk => ?_, ?_, fun d => ?_⟩
  · have hstart : events.start = stored.start := (hevents.start (by decide)).trans (hcleared.start (by decide))
    exact (congrArg StartState.kept hstart).trans hkept
  · rw [hshown.mem (by decide), hevents.mem (by decide), hcleared.mem (by decide), hstored]
  · have hset : Logged events (setFld events rRetired 31 16 used) := logged_setFld _ _ _ (by decide)
    exact startNoted_of_logged (hlogged.trans (hset.trans (.of_eq rfl rfl))) (hlost hwarm hk)
  · rw [hshown.flash (by decide), hevents.flash (by decide), hcleared.flash (by decide), hdigest]
  · rw [die_congr (hshown.dies (by decide)), die_congr (hevents.dies (by decide)), hstores]

/-- R416. The stage MEMORY. -/
theorem startMemory_clause {s : State} {p : PlatformImage} {pts : List StackTraining} {sr : Bool} {bad : List (Stack × Fin 32)}
    (hat : startAt s (.startMemory pts sr bad)) (hplat : s.plat = some p) :
    ∃ t, exec (.startMemory pts sr bad) s = .next t ∧ passed t stMemory = true ∧
      (t.start.kept = true ↔ s.start.warm = true ∧ s.start.keepable = true ∧ sr = true ∧ s.flash.memDigest = some p.memDigest ∧
        ∀ n : Stack, s.start.wasIn.getLsbD n.val = true → ((pts[n.val]?).bind (·.point)).isSome = true ∧ (pts[n.val]?).map (·.id) = some (wantedId s) ∧
          ∀ c : Fin 32, (n, c) ∈ bad → (wasOut s n).getLsbD c.val = true) ∧
      (t.start.kept = true → sameContents s t ∧ ∀ n : Stack, t.mem.st[n].chanOut = wasOut s n) ∧
      (t.start.kept = false → t.mem.hbm = [] ∧ t.mem.poison = [] ∧ t.mem.ue = [] ∧ t.mem.ce = [] ∧ (s.start.warm = true → startNoted t 1)) ∧
      (∀ n : Stack, ((pts[n.val]?).bind (·.point)).isNone = true ∨ (pts[n.val]?).map (·.id) ≠ some (wantedId s) → t.mem.st[n].inService = false) ∧
      t.flash.memDigest = some p.memDigest ∧ (∀ d, (die t d).ts = []) ∧ changesOnly [.out, .regs, .rs, .host, .dies, .mem, .flash, .start] s t := by
  obtain ⟨_, _, ⟨⟩, hdue⟩ := hat
  obtain ⟨hpassed, hkept, hmem, hlost, hdigest, hstores⟩ := startMemory_spec pts sr bad hdue hplat
  refine ⟨doStartMemory pts sr bad s, rfl, hpassed, hkept ▸ keepsHbm_iff hplat pts sr bad, fun hk => ?_, fun hk => ?_, fun n hn => ?_, hdigest, hstores,
    doStartMemory_frame (by decide) pts sr bad s⟩
  · rw [hkept] at hk
    rw [hk] at hmem
    refine ⟨?_, fun n => ?_⟩
    · rw [sameContents, hmem]
      exact ⟨rfl, rfl, rfl, rfl⟩
    · rw [hmem, startMem_stack, chanOut_startStack]
  · rw [hkept] at hk
    rw [hk] at hmem
    rw [hmem]
    exact ⟨rfl, rfl, rfl, rfl, fun hwarm => hlost hwarm hk⟩
  · rw [hmem, startMem_stack]
    refine inService_startStack bad _ (Bool.eq_false_iff.2 fun htrain => ?_)
    obtain ⟨hpoint, hid⟩ := (trainPoint_isSome s pts n.val).1 htrain
    rcases hn with hn | hn
    · rw [Option.isNone_iff_eq_none.1 hn] at hpoint
      cases hpoint
    · exact hn hid

/-! ### SELFTEST (R429) -/

/-- A die of the mask is held out of service. -/
theorem die_holdOut (s : State) (m : BitVec 24) (d : Die) :
    die (holdOut s m) d = if m.getLsbD d.val then { die s d with out := true, coreReset := true } else die s d := by
  refine die_forDies (f := fun d x => if m.getLsbD d.val then { x with out := true, coreReset := true } else x) (fun d s => ?_) (fun d e s he => ?_) s d
  · split
    · rw [die_updDie_self]
    · rfl
  · split
    · rw [die_updDie_ne _ _ _ _ he]
    · rfl

theorem reg_noteTest_quick (s : State) (ok : Bool) : reg (noteTest s 0 ok 0) rSelftest = w32 (b2n ok * 2 ^ 29 + s.start.testFailed.toNat) := by
  have hregs : (noteTest s 0 ok 0).regs = (setReg s rSelftest (w32 (0 * 2 ^ 30 + b2n ok * 2 ^ 29 + 0 * 2 ^ 24 + s.start.testFailed.toNat))).regs := rfl
  rw [reg, hregs, ← reg, reg_setReg_self, Nat.zero_mul, Nat.zero_mul, Nat.zero_add, Nat.add_zero]

theorem startSelftest_spec {s : State} (f : BitVec 24) (hdue : stageDue s stSelftest [stMemory] = true) :
    passed (doStartSelftest f s) stSelftest = true ∧
      (∀ d : Die, die (doStartSelftest f s) d = { if f.getLsbD d.val then { die s d with out := true, coreReset := true } else die s d with
        ts := [], tsUe := [], tsCe := [] }) ∧
      (f ≠ 0 → startNoted (doStartSelftest f s) 7) ∧
      reg (doStartSelftest f s) rSelftest = w32 ((if f = 0 then 1 else 0) * 2 ^ 29 + f.toNat) := by
  unfold doStartSelftest
  rw [of_due hdue]
  extract_lets _ failed tested cleared
  have hnoted : changesOnly [.out, .rs, .host] cleared (if f = 0 then cleared else startEvent cleared 7) := by
    split
    · exact .refl _ _
    · exact startEvent_changesOnly _ _
  have hpass : changesOnly [.start] (if f = 0 then cleared else startEvent cleared 7) (pass (if f = 0 then cleared else startEvent cleared 7) stSelftest) :=
    pass_frame (by decide) _ _
  refine ⟨passed_pass (by decide) (by decide), fun d => ?_, fun hf => ?_, ?_⟩
  · rw [die_congr (hpass.dies (by decide)), die_congr (hnoted.dies (by decide))]
    have htested : changesOnly [.regs, .flash] (holdOut failed f) tested := noteTest_frame (by decide) _ _ _ _
    refine (die_forDies_updDie (fun _ x => { x with ts := [], tsUe := [], tsCe := [] }) tested d).trans ?_
    rw [die_congr (htested.dies (by decide)), die_holdOut]
    rfl
  · rw [if_neg hf]
    exact startEvent_noted cleared (by decide)
  · have hcleared : changesOnly [.dies] tested cleared := forDies_frame _ _ fun _ _ => updDie_frame (by decide) _ _ _
    have hfailed : (holdOut failed f).start.testFailed = f :=
      congrArg StartState.testFailed (changesOnly.start (ks := [.dies]) (holdOut_frame (by decide) failed f) (by decide))
    rw [reg, hpass.regs (by decide), hnoted.regs (by decide), hcleared.regs (by decide), ← reg, reg_noteTest_quick, hfailed]
    have hok : b2n (decide (f = 0)) = if f = 0 then 1 else 0 := by
      simp only [b2n, decide_eq_true_eq]
    rw [hok]

theorem startSelftest_clause {s : State} {f : BitVec 24} (hat : startAt s (.startSelftest f)) :
    ∃ t, exec (.startSelftest f) s = .next t ∧ passed t stSelftest = true ∧
      (∀ d : Die, (die t d).out = (f.getLsbD d.val || (die s d).out) ∧ (die t d).coreReset = (f.getLsbD d.val || (die s d).coreReset) ∧
        (die t d).ts = []) ∧
      (f ≠ 0 → startNoted t 7) ∧ reg t rSelftest = w32 ((if f = 0 then 1 else 0) * 2 ^ 29 + f.toNat) ∧ t.mem = s.mem ∧
      changesOnly [.out, .regs, .rs, .host, .dies, .flash, .start] s t := by
  obtain ⟨_, _, ⟨⟩, hdue⟩ := hat
  obtain ⟨hpassed, hdie, hnoted, hreg⟩ := startSelftest_spec f hdue
  have hframe : changesOnly [.out, .regs, .rs, .host, .dies, .flash, .start] s (doStartSelftest f s) := doStartSelftest_frame (by decide) f s
  refine ⟨doStartSelftest f s, rfl, hpassed, fun d => ?_, hnoted, hreg, hframe.mem (by decide), hframe⟩
  rw [hdie]
  cases f.getLsbD d.val <;> exact ⟨rfl, rfl, rfl⟩

/-! ### REPLAY (R437) -/

theorem peekNat_congr {s t : State} (h : t.mem = s.mem) (a len : Nat) : peekNat t a len = peekNat s a len := by rw [peekNat, peekNat, h]

theorem journalAt_congr {s t : State} (h : updImg t = updImg s) : journalAt t = journalAt s := by rw [journalAt, journalAt, h]

theorem journalState_congr {s t : State} (hmem : t.mem = s.mem) (himg : updImg t = updImg s) : journalState t = journalState s := by
  rw [journalState, journalState, journalAt_congr himg, peekNat_congr hmem]

/-- A journal to be replayed. -/
def replaying (s : State) (img : ImageState) : State := { s with upd := { s.upd with replay := some img } }

theorem startReplay_lost {s : State} (ok : Bool) (hdue : stageDue s stReplay [stSelftest, stOptics] = true) (hkept : s.start.kept = false) :
    doStartReplay ok s = pass s stReplay := by
  have hkept' : (pass s stReplay).start.kept = false := hkept
  unfold doStartReplay
  rw [of_due hdue]
  dsimp only
  split
  next h _ => rw [hkept'] at h; cases h
  · rfl

theorem startReplay_bad {s : State} {img : ImageState} (hdue : stageDue s stReplay [stSelftest, stOptics] = true) (hkept : s.start.kept = true)
    (hactive : s.flash.active = some img) (hjournal : journalState (replaying s img) = 1) :
    doStartReplay false s =
      signalUnit (startEvent { pass s stReplay with start := { (pass s stReplay).start with replayFail := true } } 8) 4 := by
  unfold doStartReplay
  rw [of_due hdue]
  extract_lets u
  split
  next img' _ hi =>
    obtain rfl := Option.some.inj (hactive.symm.trans hi)
    have hstate : journalState (replaying u img) = 1 := (journalState_congr rfl rfl).trans hjournal
    exact (if_neg (not_not.2 hstate)).trans (if_pos rfl)
  next h => exact (h img hkept hactive).elim

theorem startReplay_good {s : State} {img : ImageState} (hdue : stageDue s stReplay [stSelftest, stOptics] = true) (hkept : s.start.kept = true)
    (hactive : s.flash.active = some img) (hjournal : journalState (replaying s img) = 1) :
    ∃ r q, changesOnly [.regs] (replaying (pass s stReplay) img) r ∧ q.step = w64 (peekNat s (journalAt (replaying s img)) 8) ∧
      doStartReplay true s =
        setReg64 { r with upd := { r.upd with p2 := some q, fin := .replay, tries := 0 } } rUpdFinStep q.step := by
  obtain ⟨t, ht⟩ : ∃ t, doStartReplay true s = t := ⟨_, rfl⟩
  rw [ht]
  unfold doStartReplay at ht
  rw [of_due hdue] at ht
  extract_lets u at ht
  split at ht
  next img' _ hi =>
    obtain rfl := Option.some.inj (hactive.symm.trans hi)
    have hstate : journalState (replaying u img) = 1 := (journalState_congr rfl rfl).trans hjournal
    extract_lets begun j w r n q _ at ht
    have hframe : changesOnly [.regs] (replaying u img) r := by
      rw [changesOnly, setReg_frame (by decide), setReg_frame (by decide), setReg_frame (by decide), setReg_frame (by decide)]
      rfl
    have hj : j = journalAt (replaying s img) := journalAt_congr rfl
    refine ⟨r, q, hframe, ?_, ((if_neg (not_not.2 hstate)).trans (if_neg (by decide))).symm.trans ht |>.symm⟩
    rw [← hj, ← peekNat_congr (s := s) (t := r) (hframe.mem (by decide))]
  next h => exact (h img hkept hactive).elim

/-! ### The three clauses of REPLAY -/

theorem startReplay_lost_clause {s : State} {ok : Bool} (hat : startAt s (.startReplay ok)) (hkept : s.start.kept = false) :
    ∃ t, exec (.startReplay ok) s = .next t ∧ t.upd = s.upd ∧ t.start.passed.getLsbD 9 = true ∧ changesOnly [.start] s t := by
  obtain ⟨_, _, ⟨⟩, hdue⟩ := hat
  refine ⟨_, congrArg Host.Outcome.next (startReplay_lost ok hdue hkept), rfl, ?_, pass_frame (by decide) s stReplay⟩
  rw [pass, BitVec.getLsbD_or, show (BitVec.ofNat 10 (2 ^ stReplay)).getLsbD 9 = true by decide, Bool.or_true]

theorem startReplay_bad_clause {s : State} {img : ImageState} (hat : startAt s (.startReplay false)) (hkept : s.start.kept = true)
    (hactive : s.flash.active = some img) (hjournal : journalState { s with upd := { s.upd with replay := some img } } = 1) :
    ∃ u, exec (.startReplay false) s = .next (signalUnit u 4) ∧ startNoted u 8 ∧ u.start.replayFail = true ∧ u.upd = s.upd := by
  obtain ⟨_, _, ⟨⟩, hdue⟩ := hat
  have hevent := startEvent_changesOnly { pass s stReplay with start := { (pass s stReplay).start with replayFail := true } } 8
  refine ⟨_, congrArg Host.Outcome.next (startReplay_bad hdue hkept hactive hjournal), startEvent_noted _ (by decide), ?_, ?_⟩
  · rw [hevent.start (by decide)]
  · rw [hevent.upd (by decide)]
    rfl

theorem startReplay_good_clause {s : State} {img : ImageState} (hat : startAt s (.startReplay true)) (hkept : s.start.kept = true)
    (hactive : s.flash.active = some img) (hjournal : journalState { s with upd := { s.upd with replay := some img } } = 1) :
    ∃ t q, exec (.startReplay true) s = .next t ∧ t.upd.replay = some img ∧ t.upd.p2 = some q ∧ t.upd.fin = .replay ∧
      q.step = w64 (peekNat s (journalAt { s with upd := { s.upd with replay := some img } }) 8) ∧ passed t stReplay = false ∧
      t.mem = s.mem ∧ changesOnly [.regs, .upd, .start] s t := by
  obtain ⟨_, _, ⟨⟩, hdue⟩ := hat
  obtain ⟨r, q, hframe, hstep, heq⟩ := startReplay_good hdue hkept hactive hjournal
  obtain ⟨t, ht⟩ : ∃ t, setReg64 { r with upd := { r.upd with p2 := some q, fin := .replay, tries := 0 } } rUpdFinStep q.step = t := ⟨_, rfl⟩
  have hset : changesOnly [.regs] { r with upd := { r.upd with p2 := some q, fin := .replay, tries := 0 } } t := ht ▸ setReg64_frame (by decide) _ _ _
  have hupd : t.upd = { r.upd with p2 := some q, fin := .replay, tries := 0 } := hset.upd (by decide)
  have hreplay : t.upd.replay = some img := by
    rw [hupd]
    exact congrArg UpdState.replay (hframe.upd (by decide))
  have hbegun : changesOnly [.upd, .start] s (replaying (pass s stReplay) img) :=
    changesOnly.trans (t := pass s stReplay) (pass_frame (by decide) s stReplay) (State.erase_upd _ _ (by decide))
  have hall : changesOnly [.regs, .upd, .start] s t :=
    ((hbegun.mono (by decide)).trans (hframe.mono (by decide))).trans
      ((changesOnly.mono (ks := [.upd]) (State.erase_upd r _ (by decide)) (by decide)).trans (hset.mono (by decide)))
  refine ⟨t, q, congrArg Host.Outcome.next (heq.trans ht), hreplay, by rw [hupd], by rw [hupd], hstep, ?_, hall.mem (by decide), hall⟩
  rw [passed, hreplay, decide_eq_false (not_not.2 rfl)]
  exact Bool.and_false _

/-! ### READY (R422) -/

/-- A start that ends READY, before the event is recorded and object 1 signalled. -/
theorem startReady_spec {s : State} (hdue : stageDue s 10 [stPower, stRom, stPlatform, stClocks, stIdentity, stDieLinks, stMemory, stSelftest, stOptics,
    stReplay] = true) :
    ∃ u, changesOnly [.dies, .flash, .start, .pwr, .tel] s u ∧ u.start = { s.start with fin := .ready, readyAt := s.clk } ∧
      (∀ d, die u d = { die s d with coreReset := (die s d).out }) ∧ doStartReady s = signalUnit (startEvent u 0) 1 := by
  obtain ⟨t, ht⟩ : ∃ t, doStartReady s = t := ⟨_, rfl⟩
  rw [ht]
  unfold doStartReady at ht
  rw [of_due hdue] at ht
  extract_lets _ _ begun freed shaped _ u at ht
  have hbegun : changesOnly [.flash, .start] s begun := State.erase_flash_start _ _ _ (by decide)
  have hfreed : changesOnly [.dies] begun freed := forDies_frame _ _ fun _ _ => updDie_frame (by decide) _ _ _
  have hu : changesOnly [.pwr, .tel] freed u := changesOnly.trans (t := shaped) (State.erase_pwr _ _ (by decide)) (State.erase_tel _ _ (by decide))
  refine ⟨u, ((hbegun.mono (by decide)).trans (hfreed.mono (by decide))).trans (hu.mono (by decide)), ?_, fun d => ?_, ht.symm⟩
  · rw [hu.start (by decide), hfreed.start (by decide)]
  · rw [die_congr (hu.dies (by decide))]
    exact die_forDies_updDie (fun _ x => { x with coreReset := x.out }) begun d

theorem startReady_clause {s : State} (hat : startAt s .startReady) :
    ∃ u, exec .startReady s = .next (signalUnit u 1) ∧ u.start.fin = .ready ∧ stageCode u = 10 ∧ (∀ o, windowOpen u o = true) ∧
      startNoted u 0 ∧ (∀ d, die u d = { die s d with coreReset := (die s d).out }) ∧ u.mem = s.mem ∧ u.fab = s.fab ∧ u.opt = s.opt ∧
      changesOnly [.out, .rs, .host, .dies, .flash, .start, .pwr, .tel] s u := by
  obtain ⟨_, _, ⟨⟩, hdue⟩ := hat
  obtain ⟨u, hframe, hstart, hdie, heq⟩ := startReady_spec hdue
  have hevent := startEvent_changesOnly u 0
  have hall : changesOnly [.out, .rs, .host, .dies, .flash, .start, .pwr, .tel] s (startEvent u 0) :=
    (hframe.mono (by decide)).trans (hevent.mono (by decide))
  have hstart' : (startEvent u 0).start = { s.start with fin := .ready, readyAt := s.clk } := (hevent.start (by decide)).trans hstart
  have hfin : (startEvent u 0).start.fin = .ready := by rw [hstart']
  have hclocks : passed (startEvent u 0) stClocks = true := by
    have hneed := (Bool.and_eq_true_iff.1 hdue).2
    have hs : passed s stClocks = true := List.all_eq_true.1 hneed stClocks (by decide)
    rw [passed, hstart', hall.upd (by decide)]
    exact hs
  refine ⟨startEvent u 0, congrArg Host.Outcome.next heq, hfin, by rw [stageCode, hfin], fun o => ?_, startEvent_noted u (by decide), fun d => ?_,
    hall.mem (by decide), hall.fab (by decide), hall.opt (by decide), hall⟩
  · have hearly : earlyOpen (startEvent u 0) = true := by rw [earlyOpen, hclocks, Bool.true_or]
    rw [windowOpen, hearly, hfin, decide_eq_true rfl, ite_self]
  · rw [die_congr (hevent.dies (by decide)), hdie]

end Sys2Proof.Machine
end

section
/-! PROOF. O48: OPTICS, and the stages from MEMORY to READY (R346, R374). -/
namespace Sys2Proof.Machine
open Sys2Proof

/-! ### What masters and peers are told (R348, R373, R382) -/

/-- `t` is `s` but for what its masters and its peers were told: its optics, its identity and its tables are as before. -/
structure Reported (s t : State) : Prop where
  frame : changesOnly [.out, .regs, .rs, .host, .fab] s t
  sent : ∀ o ∈ s.out, o ∈ t.out
  links : linksOnly s t

theorem Reported.refl (s : State) : Reported s s := ⟨.refl _ s, fun _ => id, rfl⟩

theorem Reported.trans {s t u : State} (h : Reported s t) (g : Reported t u) : Reported s u :=
  ⟨h.frame.trans g.frame, fun o ho => g.sent o (h.sent o ho), h.links.trans g.links⟩

theorem Reported.ite {s a b : State} (c : Prop) [Decidable c] (ha : Reported s a) (hb : Reported s b) : Reported s (if c then a else b) := by
  split <;> assumption

theorem Reported.foldl {α : Type} (f : State → α → State) (h : ∀ s x, Reported s (f s x)) (l : List α) (s : State) : Reported s (l.foldl f s) := by
  induction l generalizing s with
  | nil => exact .refl s
  | cons x l ih => exact (h s x).trans (ih _)

theorem reported_of_told {s t : State} (h : Told s t) : Reported s t :=
  ⟨h.frame.mono (by decide), h.sent, by rw [linksOnly, h.frame.fab (by decide)]⟩

theorem reported_of_regs {s t : State} (h : changesOnly [.regs] s t) : Reported s t :=
  ⟨h.mono (by decide), fun o ho => h.out (by decide) ▸ ho, by rw [linksOnly, h.fab (by decide)]⟩

theorem reported_event (s : State) (o off bit : Nat) (w : Word) : Reported s (rsEvent (setReg s o w) off bit) :=
  (reported_of_regs (setReg_frame (by decide) s o w)).trans (reported_of_told (told_rsEvents _ _ _))

theorem reported_portEvent (s : State) (bit : Nat) (ch : Chan) (rx : Bool) (seen cause : Nat) : Reported s (portEvent s bit ch rx seen cause) :=
  reported_event s _ _ _ _

theorem reported_updLink (s : State) (c : Chan) (f : Link → Link) : Reported s (updLink s c f) :=
  ⟨updLink_frame (by decide) s c f, fun _ => id, rfl⟩

theorem reported_putOnLink (s : State) (p : Packet) (c : Chan) : Reported s (putOnLink s p c) := by
  unfold putOnLink
  extract_lets q held
  have hcounted : Reported held (addReg64 held rTxFlits (flits q)) := reported_of_regs (addReg64_frame (by decide) _ _ _)
  have hshown : ∀ u, Reported u (showUsed u c.port.val) := fun u => reported_of_regs (showUsed_frame (by decide) _ _)
  exact (reported_updLink s c _).trans ((hcounted.trans (hshown _)).trans (reported_of_told (told_emit _ _)))

theorem reported_dropLife (s : State) (p : Packet) (ch : Option Chan) : Reported s (dropLife s p ch) :=
  (reported_event s _ _ _ _).trans (reported_of_regs (addReg_frame (by decide) _ _ _))

/-- A packet of this module itself holds nothing in a receive pool. -/
theorem reported_depart {s : State} {w : WaitPkt} (c : Chan) (h : w.src = none) : Reported s (depart s w c) := by
  unfold depart
  rw [h]
  exact .ite _ (reported_dropLife _ _ _) (reported_putOnLink _ _ _)

theorem reported_toPeer (s : State) (p : Packet) (c : Chan) : Reported s (toPeer s p c) :=
  .ite _ (reported_depart c rfl) (reported_of_regs (addReg_frame (by decide) _ _ _))

theorem reported_channelUp (s : State) (ch : Chan) : Reported s (channelUp s ch) :=
  (reported_updLink s ch _).trans ((reported_updLink _ ch _).trans (reported_toPeer _ _ _))

/-! ### The six steps (R374) -/

theorem reported_takeFeeds (s : State) (feeds : List (Option Word)) :
    ∃ bits tags, Reported (updOpt s fun o => { o with feedOk := bits, tagFeed := tags }) (takeFeeds s feeds) := by
  unfold takeFeeds
  extract_lets ok f idx srcs bits taken named sources
  refine ⟨bits, _, (Reported.ite _ (reported_of_told (told_rsEvents _ _ _)) (.refl taken)).trans
    ((Reported.ite _ (reported_of_told (told_rsEvents _ _ _)) (.refl named)).trans (.foldl _ (fun u j => .ite _ ?_ (.refl u)) _ sources))⟩
  exact (reported_of_told (told_rsEvents _ _ _)).trans (reported_portEvent _ _ _ _ _ _)

theorem reported_acquireAll (s : State) (failed : List Ring) :
    ∃ st : Nat → RingState → RingState, (∀ k x, (∃ r ∈ failed, ringNo r = k) → (st k x).st = .failed) ∧
      Reported (updOpt s fun o => { o with rings := o.rings.map fun x => (x.1, st x.1 x.2) }) (acquireAll s failed) := by
  unfold acquireAll
  extract_lets st acquired
  refine ⟨st, fun k x hk => ?_, .foldl _ (fun u r => (reported_portEvent _ _ _ _ _ _).trans (reported_of_told (told_emit _ _))) _ acquired⟩
  obtain ⟨r, hr, hrk⟩ := hk
  have hany : (failed.any fun r => decide (ringNo r = k)) = true := List.any_eq_true.2 ⟨r, hr, decide_eq_true hrk⟩
  exact congrArg RingState.st (if_pos hany)

theorem reported_openAll (s : State) : ∃ closed, Reported (updOpt s fun o => { o with closed := closed }) (openAll s) := by
  unfold openAll
  extract_lets shut
  exact ⟨_, .foldl _ (fun u c => .ite _ (reported_channelUp _ _) (.refl u)) _ shut⟩

/-! ### Rings -/

theorem chanOf_chanNo (c : Chan) : chanOf (chanNo c) = c := by
  obtain ⟨p, f, w⟩ := c
  simp only [chanOf, chanNo, Chan.mk.injEq, Fin.ext_iff]
  omega

theorem mem_allRings {r : Ring} (h : chanExists r.ch = true) : r ∈ allRings := by
  have hlt : chanNo r.ch < 1536 := by rw [chanNo]; omega
  have hch : r.ch ∈ allChans := List.mem_filterMap.2 ⟨chanNo r.ch, List.mem_range.2 hlt, by rw [chanOf_chanNo, if_pos h]⟩
  refine List.mem_flatMap.2 ⟨r.ch, hch, ?_⟩
  obtain ⟨ch, rx⟩ := r
  cases rx <;> simp

theorem SMap.get_mem_of_key {β : Type} (d : β) {m : SMap β} {k : Nat} (h : ∃ x ∈ m, x.1 = k) : (k, SMap.get d m k) ∈ m := by
  induction m with
  | nil => obtain ⟨x, hx, -⟩ := h; cases hx
  | cons y m ih =>
    obtain ⟨a, v⟩ := y
    by_cases hk : k = a
    · simp [SMap.get, hk]
    · obtain ⟨x, hx, hxk⟩ := h
      obtain rfl | hx := List.mem_cons.1 hx
      · exact absurd hxk.symm hk
      · simp only [SMap.get, hk, if_false]
        exact List.mem_cons_of_mem _ (ih ⟨x, hx, hxk⟩)

/-! ### OPTICS (R346, R374) -/

/-- The identity has settled, and every ring parks. Irreducible, so that no proof evaluates the table of rings. -/
@[irreducible] def opticsBegun (s : State) (p : PlatformImage) : State := parkAll (pass (loadFabric s p) stOptics)

theorem opticsBegun_frame (s : State) (p : PlatformImage) : changesOnly [.free, .opt] (pass (loadFabric s p) stOptics) (opticsBegun s p) := by
  unfold opticsBegun
  exact parkAll_frame (by decide) _

/-- What `parkAll` does to the optics, with the list of the rings as a variable. -/
theorem parkAll_parks (s : State) :
    ∃ rings, (∃ x : Ring → RingState, rings = allRings.map fun r => (ringNo r, (x r).park)) ∧ (parkAll s).opt = { s.opt with rings := rings } := by
  unfold parkAll
  exact ⟨_, ⟨_, rfl⟩, rfl⟩

theorem opticsBegun_parks (s : State) (p : PlatformImage) :
    ∃ rings, (∃ x : Ring → RingState, rings = allRings.map fun r => (ringNo r, (x r).park)) ∧
      (opticsBegun s p).opt = { s.opt with rings := rings } := by
  unfold opticsBegun
  exact parkAll_parks (pass (loadFabric s p) stOptics)

theorem opticsBegun_opt (s : State) (p : PlatformImage) : (opticsBegun s p).opt = { s.opt with rings := (opticsBegun s p).opt.rings } := by
  obtain ⟨rings, -, hopt⟩ := opticsBegun_parks s p
  rw [hopt]

theorem opticsBegun_rings (s : State) (p : PlatformImage) :
    ∃ x : Ring → RingState, (opticsBegun s p).opt.rings = allRings.map fun r => (ringNo r, (x r).park) := by
  obtain ⟨rings, ⟨x, hx⟩, hopt⟩ := opticsBegun_parks s p
  exact ⟨x, (congrArg OptState.rings hopt).trans hx⟩

theorem exists_key_of_mem {l : List Ring} (f : Ring → RingState) {r : Ring} (h : r ∈ l) : ∃ x ∈ l.map (fun r => (ringNo r, f r)), x.1 = ringNo r :=
  ⟨_, List.mem_map_of_mem h, rfl⟩

theorem key_of_begun (s : State) (p : PlatformImage) {r : Ring} (h : chanExists r.ch = true) :
    ∃ x ∈ (opticsBegun s p).opt.rings, x.1 = ringNo r := by
  obtain ⟨x, hrings⟩ := opticsBegun_rings s p
  rw [hrings]
  exact exists_key_of_mem (fun r => (x r).park) (mem_allRings h)

theorem ring_of_begun {s : State} {p : PlatformImage} {r : Ring} (h : chanExists r.ch = true) : (ring (opticsBegun s p) r).st = .parked := by
  have hmem := SMap.get_mem_of_key ({} : RingState) (key_of_begun s p h)
  obtain ⟨x, hrings⟩ := opticsBegun_rings s p
  rw [hrings] at hmem
  obtain ⟨q, -, hq⟩ := List.mem_map.1 hmem
  obtain ⟨-, hpark⟩ := Prod.mk.inj hq
  rw [ring, hrings, ← hpark]
  rfl

/-- `t` is what the stage OPTICS makes of `s` after the identity has settled: it has sent what `s` had sent, and of the fabric port only
the links differ. -/
structure Lit (s t : State) : Prop where
  start : t.start = s.start
  sent : ∀ o ∈ s.out, o ∈ t.out
  links : linksOnly s t

theorem Lit.trans {s t u : State} (h : Lit s t) (g : Lit t u) : Lit s u :=
  ⟨g.start.trans h.start, fun o ho => g.sent o (h.sent o ho), h.links.trans g.links⟩

theorem Reported.lit {s t : State} (h : Reported s t) : Lit s t := ⟨h.frame.start (by decide), h.sent, h.links⟩

theorem lit_updOpt (s : State) (f : OptState → OptState) : Lit s (updOpt s f) := ⟨rfl, fun _ => id, rfl⟩

/-- R346. The stage has ended with the identity of the straps, where they satisfy a position rule, and the default tables in bank 0. -/
theorem Lit.identity {s t : State} {p : PlatformImage} (h : Lit (opticsBegun s p) t) :
    passed t stOptics = true ∧ t.fab.settled = (s.start.strapOk && positionOk s p) ∧
      t.fab.modId = (if t.fab.settled = true then modIdOf s.start.rack s.start.slot else 0xFFFF) ∧ t.fab.timers = p.timers ∧ t.fab.cur = 0 ∧
      t.fab.rack[(0 : Fin 2)] = maskTable rackMask p.rackTable ∧ t.fab.dim[(0 : Fin 2)] = maskTable dimMask p.dimTable := by
  have hframe := opticsBegun_frame s p
  have hfab : t.fab = { (loadFabric s p).fab with links := t.fab.links } := by
    rw [← show (pass (loadFabric s p) stOptics).fab = (loadFabric s p).fab from rfl, ← hframe.fab (by decide)]
    exact h.links
  refine ⟨passed_of_start (by decide) (by decide) (h.start.trans (hframe.start (by decide))), ?_⟩
  rw [hfab]
  exact ⟨rfl, rfl, rfl, rfl, by simp [loadFabric], by simp [loadFabric]⟩

/-- The light source is present, its feeds enabled and its enable driven. -/
def lightOn (s : State) : State :=
  emit (emit (updOpt s fun o => { o with present := true, feedEn := 0x3FFF }) (.lsEn true)) (.lsWrite 0x12 0x3FFF)

theorem lit_lightOn (s : State) : Lit s (lightOn s) :=
  (lit_updOpt s _).trans ((reported_of_told (told_emit _ _)).lit.trans (reported_of_told (told_emit _ _)).lit)

theorem rings_lightOn (s : State) : (lightOn s).opt.rings = s.opt.rings := rfl

theorem enabled_lightOn (s : State) : (lightOn s).opt.enabled = s.opt.enabled := rfl

theorem lsEn_mem_lightOn (s : State) : .lsEn true ∈ (lightOn s).out := List.mem_cons_of_mem _ List.mem_cons_self

section
variable {s : State} {p : PlatformImage} (feeds : List (Option Word)) (failed : List Ring) (hdue : stageDue s stOptics [stDieLinks] = true)
  (hplat : s.plat = some p)
include hdue hplat

theorem startOptics_none : doStartOptics none feeds failed s = darkOptics (rsEvent (opticsBegun s p) rLsErr 0) := by
  unfold doStartOptics opticsBegun
  rw [of_due hdue, hplat]

theorem startOptics_level {w : Word} (h : fld w 31 16 ≠ 1) :
    doStartOptics (some w) feeds failed s = darkOptics (rsEvent (opticsBegun s p) rLsErr 6) := by
  unfold doStartOptics opticsBegun
  rw [of_due hdue, hplat]
  exact if_pos h

theorem startOptics_unlit {w : Word} (h : fld w 31 16 = 1) (hlit : bitAt w 0 = false) :
    doStartOptics (some w) feeds failed s = darkOptics (lightOn (opticsBegun s p)) := by
  unfold doStartOptics opticsBegun
  rw [of_due hdue, hplat]
  exact (if_neg (not_not.2 h)).trans (if_pos (by rw [hlit]; rfl))

theorem startOptics_lit {w : Word} (h : fld w 31 16 = 1) (hlit : bitAt w 0 = true) :
    doStartOptics (some w) feeds failed s =
      openAll (acquireAll (takeFeeds (updOpt (lightOn (opticsBegun s p)) fun o => { o with enabled := true, on := true }) feeds) failed) := by
  unfold doStartOptics opticsBegun
  rw [of_due hdue, hplat]
  exact (if_neg (not_not.2 h)).trans (if_neg (by rw [hlit]; decide))

end

/-- What OPTICS leaves where the optics stay dark: the rings parked, and the event. -/
structure Dark (s : State) (p : PlatformImage) (t : State) : Prop where
  lit : Lit (opticsBegun s p) t
  noted : startNoted t 6
  rings : t.opt.rings = (opticsBegun s p).opt.rings

theorem Dark.parked {s t : State} {p : PlatformImage} (h : Dark s p t) {r : Ring} (hr : chanExists r.ch = true) : (ring t r).st = .parked := by
  have hbegun := ring_of_begun (s := s) (p := p) hr
  rwa [ring, ← h.rings] at hbegun

theorem told_startEvent (s : State) (bit : Nat) : Told s (startEvent s bit) := told_rsEvents s rStartErr (BitVec.ofNat 24 (2 ^ bit))

theorem dark_of_lit {s u : State} {p : PlatformImage} (h : Lit (opticsBegun s p) u) (hrings : u.opt.rings = (opticsBegun s p).opt.rings) :
    Dark s p (darkOptics u) :=
  ⟨h.trans (reported_of_told (told_startEvent u 6)).lit, startEvent_noted u (by decide),
    (congrArg OptState.rings ((startEvent_changesOnly u 6).opt (by decide))).trans hrings⟩

/-- An event of the light source that leaves the optics dark. -/
theorem dark_of_event (s : State) (p : PlatformImage) {bit : Nat} (hbit : bit < 24) :
    Dark s p (darkOptics (rsEvent (opticsBegun s p) rLsErr bit)) ∧
      (darkOptics (rsEvent (opticsBegun s p) rLsErr bit)).opt =
        { s.opt with rings := (darkOptics (rsEvent (opticsBegun s p) rLsErr bit)).opt.rings } ∧
      (rsReg (darkOptics (rsEvent (opticsBegun s p) rLsErr bit)) rLsErr).ev.getLsbD bit = true := by
  have htold := reported_of_told (told_rsEvents (opticsBegun s p) rLsErr (BitVec.ofNat 24 (2 ^ bit)))
  have hdark := (startEvent_changesOnly (rsEvent (opticsBegun s p) rLsErr bit) 6).opt (by decide)
  have hopt := hdark.trans (htold.frame.opt (by decide))
  refine ⟨dark_of_lit htold.lit (congrArg OptState.rings (htold.frame.opt (by decide))), ?_, ?_⟩
  · rw [darkOptics, hopt]
    exact opticsBegun_opt s p
  · rw [darkOptics, startEvent, rsEvent, rsReg_rsEvents_ne _ _ _ _ (by decide)]
    exact rsReg_rsEvent_bit _ _ _ hbit

theorem enabled_unlit (s : State) (p : PlatformImage) : (darkOptics (lightOn (opticsBegun s p))).opt.enabled = s.opt.enabled := by
  rw [darkOptics, (startEvent_changesOnly _ 6).opt (by decide), enabled_lightOn, opticsBegun_opt]

theorem dark_unlit (s : State) (p : PlatformImage) : Dark s p (darkOptics (lightOn (opticsBegun s p))) :=
  dark_of_lit (lit_lightOn _) (rings_lightOn _)

/-- What OPTICS leaves where the light source answers with light: every ring that fails is FAILED. -/
theorem opened_spec (v : State) (feeds : List (Option Word)) (failed : List Ring) :
    Lit v (openAll (acquireAll (takeFeeds v feeds) failed)) ∧ (openAll (acquireAll (takeFeeds v feeds) failed)).opt.on = v.opt.on ∧
      (openAll (acquireAll (takeFeeds v feeds) failed)).opt.enabled = v.opt.enabled ∧
      ∀ r ∈ failed, (∃ x ∈ v.opt.rings, x.1 = ringNo r) → (ring (openAll (acquireAll (takeFeeds v feeds) failed)) r).st = .failed := by
  obtain ⟨bits, tags, htake⟩ := reported_takeFeeds v feeds
  obtain ⟨st, hst, hacquire⟩ := reported_acquireAll (takeFeeds v feeds) failed
  obtain ⟨closed, hopen⟩ := reported_openAll (acquireAll (takeFeeds v feeds) failed)
  have hopt : (openAll (acquireAll (takeFeeds v feeds) failed)).opt =
      { v.opt with feedOk := bits, tagFeed := tags, rings := v.opt.rings.map fun x => (x.1, st x.1 x.2), closed := closed } := by
    rw [hopen.frame.opt (by decide), updOpt, hacquire.frame.opt (by decide), updOpt, htake.frame.opt (by decide), updOpt]
  refine ⟨((lit_updOpt _ _).trans htake.lit).trans (((lit_updOpt _ _).trans hacquire.lit).trans ((lit_updOpt _ _).trans hopen.lit)), ?_, ?_,
    fun r hr hkey => ?_⟩
  · rw [hopt]
  · rw [hopt]
  · obtain ⟨x, hx, hxk⟩ := hkey
    rw [ring, hopt]
    obtain ⟨y, -, hy⟩ := List.mem_map.1 (SMap.get_mem_of_key ({} : RingState) (k := ringNo r)
      ⟨_, List.mem_map_of_mem (f := fun x => (x.1, st x.1 x.2)) hx, hxk⟩)
    obtain ⟨hk, hv⟩ := Prod.mk.inj hy
    rw [← hv]
    exact hst _ _ ⟨r, hr, hk.symm⟩

/-- R346, R374. The stage OPTICS. -/
theorem startOptics_clause {s : State} {p : PlatformImage} {ls : Option Word} {fs : List (Option Word)} {bad : List Ring}
    (hat : startAt s (.startOptics ls fs bad)) (hplat : s.plat = some p) :
    ∃ t, exec (.startOptics ls fs bad) s = .next t ∧ passed t stOptics = true ∧
      t.fab.settled = (s.start.strapOk && positionOk s p) ∧
      t.fab.modId = (if t.fab.settled = true then modIdOf s.start.rack s.start.slot else 0xFFFF) ∧ t.fab.timers = p.timers ∧ t.fab.cur = 0 ∧
      t.fab.rack[(0 : Fin 2)] = maskTable rackMask p.rackTable ∧ t.fab.dim[(0 : Fin 2)] = maskTable dimMask p.dimTable ∧
      (ls = none → startNoted t 6 ∧ t.opt = { s.opt with rings := t.opt.rings } ∧ (rsReg t rLsErr).ev.getLsbD 0 = true) ∧
      (∀ w, ls = some w → fld w 31 16 ≠ 1 → startNoted t 6 ∧ t.opt = { s.opt with rings := t.opt.rings } ∧
        (rsReg t rLsErr).ev.getLsbD 6 = true) ∧
      (t.opt.on = false → ∀ r : Ring, chanExists r.ch = true → (ring t r).st = .parked) ∧
      (∀ w, ls = some w → fld w 31 16 = 1 → .lsEn true ∈ t.out) ∧
      (∀ w, ls = some w → fld w 31 16 = 1 → bitAt w 0 = false → startNoted t 6 ∧ t.opt.enabled = s.opt.enabled) ∧
      (∀ w, ls = some w → fld w 31 16 = 1 → bitAt w 0 = true → t.opt.on = true ∧ t.opt.enabled = true ∧
        ∀ r : Ring, chanExists r.ch = true → r ∈ bad → (ring t r).st = .failed) := by
  obtain ⟨_, _, ⟨⟩, hdue⟩ := hat
  cases ls with
  | none =>
    obtain ⟨hdark, hopt, hbit⟩ := dark_of_event s p (bit := 0) (by decide)
    obtain ⟨hpassed, hsettled, hid, htimers, hcur, hrack, hdim⟩ := hdark.lit.identity
    exact ⟨_, congrArg Host.Outcome.next (startOptics_none fs bad hdue hplat), hpassed, hsettled, hid, htimers, hcur, hrack, hdim,
      fun _ => ⟨hdark.noted, hopt, hbit⟩, nofun, fun _ _ => hdark.parked, nofun, nofun, nofun⟩
  | some w =>
    by_cases hlevel : fld w 31 16 = 1
    · cases hlit : bitAt w 0 with
      | false =>
        have hdark := dark_unlit s p
        obtain ⟨hpassed, hsettled, hid, htimers, hcur, hrack, hdim⟩ := hdark.lit.identity
        refine ⟨_, congrArg Host.Outcome.next (startOptics_unlit fs bad hdue hplat hlevel hlit), hpassed, hsettled, hid, htimers, hcur, hrack, hdim,
          nofun, ?_, fun _ _ => hdark.parked, fun _ _ _ => ?_, fun _ _ _ _ => ⟨hdark.noted, enabled_unlit s p⟩, ?_⟩
        · rintro _ ⟨⟩ h; exact absurd hlevel h
        · exact (told_startEvent _ 6).sent _ (lsEn_mem_lightOn (opticsBegun s p))
        · rintro _ ⟨⟩ _ h; rw [hlit] at h; cases h
      | true =>
        obtain ⟨hopened, hon, hen, hfailed⟩ := opened_spec (updOpt (lightOn (opticsBegun s p)) fun o => { o with enabled := true, on := true }) fs bad
        have hall := ((lit_lightOn (opticsBegun s p)).trans (lit_updOpt _ _)).trans hopened
        obtain ⟨hpassed, hsettled, hid, htimers, hcur, hrack, hdim⟩ := hall.identity
        refine ⟨_, congrArg Host.Outcome.next (startOptics_lit fs bad hdue hplat hlevel hlit), hpassed, hsettled, hid, htimers, hcur, hrack, hdim,
          nofun, ?_, fun hoff => ?_, fun _ _ _ => ?_, ?_, fun _ _ _ _ => ⟨hon, hen, fun r hr hbad => hfailed r hbad (key_of_begun s p hr)⟩⟩
        · rintro _ ⟨⟩ h; exact absurd hlevel h
        · rw [hon] at hoff; cases hoff
        · exact hopened.sent _ (lsEn_mem_lightOn (opticsBegun s p))
        · rintro _ ⟨⟩ _ h; rw [hlit] at h; cases h
    · obtain ⟨hdark, hopt, hbit⟩ := dark_of_event s p (bit := 6) (by decide)
      obtain ⟨hpassed, hsettled, hid, htimers, hcur, hrack, hdim⟩ := hdark.lit.identity
      refine ⟨_, congrArg Host.Outcome.next (startOptics_level fs bad hdue hplat hlevel), hpassed, hsettled, hid, htimers, hcur, hrack, hdim,
        nofun, fun _ _ _ => ⟨hdark.noted, hopt, hbit⟩, fun _ _ => hdark.parked, ?_, ?_, ?_⟩
      · rintro _ ⟨⟩ h; exact absurd h hlevel
      · rintro _ ⟨⟩ h; exact absurd h hlevel
      · rintro _ ⟨⟩ h; exact absurd h hlevel

/-- Settles O48, stage by stage. In OPTICS the table of rings stays a variable: only its keys and its PARKED entries matter. -/
theorem startToReady : Obligations.StartToReady :=
  ⟨fun _ _ _ _ _ => startMemory_clause, fun _ _ => startSelftest_clause, fun _ _ _ _ _ => startOptics_clause, fun _ _ => startReplay_lost_clause,
    fun _ _ => startReplay_bad_clause, fun _ _ => startReplay_good_clause, fun _ => startReady_clause⟩

end Sys2Proof.Machine
end
